-- ==== Sys2Proof/Word.lean ====
section
/-!
DEFINITION. The word types of the KQ6048 model: registers are 32 bits wide (R7); stamps, addresses, ticks and
counters have the widths their rules give.
-/
namespace Sys2Proof

/-- One byte of a record, a buffer or an image. -/
abbrev Byte := BitVec 8
/-- A 16-bit field. -/
abbrev W16 := BitVec 16
/-- A 32-bit register or field (R7). -/
abbrev W32 := BitVec 32
/-- A 48-bit field (comparator masks, spread counts). -/
abbrev W48 := BitVec 48
/-- A 64-bit stamp, address, tick or mask. -/
abbrev W64 := BitVec 64

end Sys2Proof
end

