-- ==== Sys2Proof/Syntax.lean ====
section
/-!
DEFINITION. The commands of the block: one constructor of `Instr` per row of spec/opcode_table.json, with the data a
command brings from outside (register values, request records, frames, modulator bits, measured instants). The rows
of the table name no operands; the operands here are what each step's rule says arrives with it (log entry 1).
-/
namespace Sys2Proof

/-- Where a request comes from: a descriptor ring of the host (R345) or an authenticated Coil frame (R352, R387). -/
inductive Via where
  | host
  | coil
  deriving DecidableEq, Repr

/-- A request as its step receives it: the descriptor's index (or the Coil manager tag's index), its tag, IRQ flag,
inline bytes 16 to 31 and the bytes of its buffer (R340, R344). -/
structure Req where
  via : Via
  slot : W32
  tag : W32
  irq : Bool
  inl : List Byte
  buf : List Byte
  deriving DecidableEq, Repr

/-- A descriptor as fetched from host memory (R340), with the bytes of the buffer it names. -/
structure Desc where
  addr : W64
  len : Nat
  op : Byte
  flags : Byte
  tag : W32
  inl : List Byte
  buf : List Byte
  deriving DecidableEq, Repr

/-- A Coil frame (R373), field by field; `plen` is the payload length field as received. -/
structure Frame where
  port : Nat
  cls : Nat
  typ : Nat
  flags : Byte
  plen : Nat
  dst : Nat
  src : Nat
  ring : Nat
  rsv : Byte
  session : W32
  ctr : W64
  payload : List Byte
  tag : List Byte
  check : W32
  deriving DecidableEq, Repr

/-- A beacon as it arrives at a worker's port (R380): direction of arrival and payload. -/
structure Beacon where
  ccw : Bool
  pos : W64
  freq : W32
  pathDelay : W32
  sec : W32
  frac : W16
  state : Byte
  syncTurn : BitVec 40
  deriving DecidableEq, Repr

/-- What a HELLO carries (R376): identity number, both hop indices, boot state, challenge. -/
structure Hello where
  ident : W64
  hopCw : Byte
  hopCcw : Byte
  boot : BitVec 4
  challenge : List Byte
  deriving DecidableEq, Repr

/-- What an ASSIGN carries (R376): ring, position, the worker's challenge and the manager's own. -/
structure Assign where
  ring : Nat
  pos : Nat
  challenge : List Byte
  mgrChallenge : List Byte
  deriving DecidableEq, Repr

/-- What a STATUS carries (R376, R389): boot state, FLT_REASON, Wheel state, D, link delay, RTC offset and
RTC_INVALID, the direction selected, the depths of the report and bulk queues, and the manager's challenge when it answers
an ASSIGN. -/
structure WStatus where
  boot : BitVec 4
  reason : W32
  whlStat : W32
  d : W32
  linkDelay : W32
  rtcOfs : BitVec 32
  rtcInvalid : Bool
  ccw : Bool
  reports : Nat
  bulks : Nat
  challenge : List Byte
  deriving DecidableEq, Repr

/-- What a read of a protected word found (R28, R310). -/
inductive EccKind where
  | clean
  | single
  | double
  deriving DecidableEq, Repr

/-- Where a double-bit error of ECC_ERROR_DETECT lies (R28, R310, R465): the block's SRAM, the PQ capture or result
SRAM, a word of a doubled Kiln record (key of the record and copy), a spread-counter slot, a slot of the Kiln log, the
journal, one of the two last-gasp areas, or another Kiln word. -/
inductive EccPlace where
  | sram
  | capture
  | kilnCopy (key : Nat) (copy : Nat)
  | spread (counter : Nat) (slot : Nat)
  | logSlot (slot : Nat)
  | journal
  | lastGasp (lgb : Bool)
  | kilnOther
  deriving DecidableEq, Repr

/-- The instructions the TAP offers (R494); their binary codes are not given. -/
inductive Jtag where
  | bypass
  | idcode
  | samplePreload
  | extest
  | highz
  deriving DecidableEq, Repr

/-- The commands of spec/opcode_table.json. -/
inductive Instr where
  /-- POWER_ON (R397): A main supply begins to rise, and the device enters POR from OFF or BACKUP. -/
  | powerOn
  /-- BACKUP_ENTER (R397): VBAT enters range with main power absent, and the device passes from OFF to BACKUP. -/
  | backupEnter
  /-- POR_END (R398): The 50 ms POR hold completes, the straps are sampled and the FUSE steps run. -/
  | porEnd (straps : BitVec 2) (fuseParityOk : Bool)
  /-- BROWN_OUT (R399): A main supply leaves its window after POR, and the device returns to POR at once without a last gasp. -/
  | brownOut
  /-- RESETN_ASSERT (R416): RESETn is held low for 1 µs and the device resets, after a last gasp when it is in METERING. -/
  | resetnAssert
  /-- MPLL_LOCK (R69): The MPLL first locks to its source, starting the engine, and a worker leaves FUSE for CAL. -/
  | mpllLock (onRing : Bool)
  /-- RCLK_LOSS (R70): The recovered clock is lost on the port in use, so the MPLL moves hitlessly to the other port or enters holdover with RCLK_LOST. -/
  | rclkLoss (port : Nat)
  /-- RCLK_RETURN (R70): A recovered clock returns, the MPLL reacquires it and the SEVERE fault resolves. -/
  | rclkReturn (port : Nat)
  /-- MPLL_UNLOCK (R70): The MPLL loses lock on XTAL, which raises MPLL_UNLOCK and freezes accumulation. -/
  | mpllUnlock
  /-- MPLL_RELOCK (R70): The MPLL relocks on XTAL, which resolves MPLL_UNLOCK and ends the freeze. -/
  | mpllRelock
  /-- VREF_FAULT (R72): The internal reference leaves ±1 % of 1.2 V, which is a GRAVE fault. -/
  | vrefFault
  /-- VREF_WAIT_TIMEOUT (R211): VREF is still out of tolerance 150 ms after CAL is entered, and the device fails stop. -/
  | vrefWaitTimeout
  /-- POWERUP_CAL_ATTEMPT_END (R210): A power-up calibration attempt's results become ready, and the plausible modulators are accepted. -/
  | powerupCalAttemptEnd (group : Nat)
  /-- POWERUP_CAL_WRITE (R211): At the first turn boundary after all groups have results, trims are written, inputs reconnect, records are written and CAL is left. -/
  | powerupCalWrite
  /-- CAL_RETRY_START (R210): A calibration retry begins 20 ms after the previous attempt's −REF level. -/
  | calRetryStart (group : Nat)
  /-- IMAGE_DATA (R405): Ring 8 request that stores image bytes of the transfer. -/
  | imageData (r : Req)
  /-- IMAGE_END (R406): Ring 8 request that closes the transfer and starts verification once CAL has ended. -/
  | imageEnd (r : Req)
  /-- IMAGE_ABORT (R407): Ring 8 request that discards the transfer and clears the instruction SRAMs. -/
  | imageAbort (r : Req)
  /-- IMAGE_INFO (R407): Ring 8 request that returns the header and the boot and image state. -/
  | imageInfo (r : Req)
  /-- VERIFY_DONE (R409): Image verification ends, and the image is either FIRED with the cores starting in RESTORE or refused back to GREENWARE. -/
  | verifyDone
  /-- RESTORE_DONE (R412): Restore completes, outputs are driven under R272 and the device enters METERING. -/
  | restoreDone
  /-- IMAGE_WAIT (R418): No image is complete 1.5 s after link-up or after GREENWARE begins. -/
  | imageWait
  /-- ACP_FW_WRITE (R17): An ACP write to a legal-owned register or Kiln region is refused by the firewall. -/
  | acpFwWrite
  /-- LCP_MISMATCH (R18): The lockstep comparator finds the legal cores disagreeing, which is GRAVE. -/
  | lcpMismatch
  /-- ACP_WDOG (R19): An ACP watchdog expires, raising a SEVERE fault, and the LCP restarts both ACPs. -/
  | acpWdog (core : Nat)
  /-- ACP_RESTART_DONE (R19): The ACP restart completes with the application FIRED, resolving ACP_WDOG. -/
  | acpRestartDone
  /-- WHEEL_TURN_BOUNDARY (R122): At angle 0, the Wheel measures phase error, updates frequency and Δ_T, and applies pending turn-boundary changes. -/
  | wheelTurnBoundary (est : W32)
  /-- REF_HALF_CYCLE (R35): A list entry's half-cycle ends and the entry is judged qualified or lost. -/
  | refHalfCycle (entry : Nat) (rising : Bool)
  /-- REF_REVERT (R41): An earlier entry qualified for 10 s replaces the active entry when REVERT is set. -/
  | refRevert
  /-- REF_LIST_APPLY (R522): A changed reference list or offset takes effect at a turn boundary. -/
  | refListApply
  /-- WHEEL_COAST_END (R36): The 2 ms phase-detector coasting after a SYNC execution ends. -/
  | wheelCoastEnd
  /-- ANGLE_ACTION_FIRE (R47): An armed angle-action entry reaches its firing position and acts at the slot-cycle boundary. -/
  | angleActionFire (entry : Nat)
  /-- RTC_ACTION_FIRE (R49): An RTC-action entry fires at the first RTC tick at or after its instant. -/
  | rtcActionFire (entry : Nat)
  /-- BEACON_RECEIVE (R52): A worker handles a beacon of its selected direction, setting or slewing its Wheel, or rejecting the beacon. -/
  | beaconReceive (b : Beacon)
  /-- BEACON_LOST (R52): Two turns without an accepted beacon, or three rejections, put a worker's Wheel into holdover. -/
  | beaconLost (flagged : Bool)
  /-- SYNCIN_EDGE (R54): A filtered SYNCIN edge of the selected polarity requests a SYNC. -/
  | syncinEdge (falling : Bool)
  /-- SYNC_EXECUTE (R55): SYNC executes at its instant: the grid is tested, SYNCOUT pulses and a log record is made. -/
  | syncExecute
  /-- SYNCOUT_PULSE_END (R57): SYNCOUT returns low 1.0 µs after the execution instant. -/
  | syncoutPulseEnd
  /-- WHL_POSLO_READ (R59): A read of WHL_POSLO latches both stamps into the latched registers. -/
  | whlPosloRead
  /-- INTEGRATOR_RESET (R62): 32 equal modulator bits reset the modulator integrators and force OVR. -/
  | integratorReset (m : Nat)
  /-- COARSE_SAMPLE (R93): A coarse sample is produced, with overrange flagging and OVERRANGE. -/
  | coarseSample (m : Nat) (bits : Byte)
  /-- COARSE_RMS_BLOCK (R94): A coarse RMS block ends and its result is formed. -/
  | coarseRmsBlock (m : Nat)
  /-- MODULATOR_STUCK (R77): A modulator shows no transition for 1 ms and is handled by kind. -/
  | modulatorStuck (m : Nat)
  /-- SHADOW_COMPARE_TURN (R74): A compared turn of a shadow dwell is judged against the limits. -/
  | shadowCompareTurn (b : Nat)
  /-- SHADOW_DWELL_ADVANCE (R73): After 16 turns, the shadow moves to the next enabled channel of its bank. -/
  | shadowDwellAdvance (b : Nat)
  /-- SHADOW_SELFCHECK_STEP (R75): A turn boundary advances the shadow self-check and substitution sequence. -/
  | shadowSelfcheckStep (b : Nat)
  /-- AUX_DWELL_END (R66): A scan dwell ends, a reading record is produced and the multiplexer switches. -/
  | auxDwellEnd (a : Nat)
  /-- AUX_SETTLING_END (R66): The SETTLING interval after an auxiliary switch expires. -/
  | auxSettlingEnd (a : Nat)
  /-- AUX_CONFIG_APPLY (R87): An auxiliary configuration change takes effect at the next slot-cycle boundary. -/
  | auxConfigApply
  /-- CHANNEL_CONFIG_APPLY (R87): A gain, enable or sensor change takes effect at the next turn boundary. -/
  | channelConfigApply
  /-- TRIP_CONFIG_APPLY (R87): A trip configuration change takes effect within 10 µs. -/
  | tripConfigApply
  /-- TRIP_COMPARATOR_ASSERT (R83): A qualified comparator asserts, driving its mapped TRIP balls and latching. -/
  | tripComparatorAssert (k : Nat) (samples : Nat)
  /-- TRIP_COMPARATOR_RELEASE (R81): A comparator releases below its release level. -/
  | tripComparatorRelease (k : Nat)
  /-- TRIP_STRETCH_END (R83): The 1 µs stretch of a non-latching TRIPn ends. -/
  | tripStretchEnd (n : Nat)
  /-- COEF_FADE_START (R111): An ARMED pair starts its fade at a turn boundary, and its start is logged for F3 and phase pairs. -/
  | coefFadeStart (pair : Nat)
  /-- COEF_FADE_END (R110): A 64-step fade ends, the old bank becomes passive and a queued set is armed. -/
  | coefFadeEnd (pair : Nat)
  /-- FADE_DEFERRED (R114): A fade has been deferred for more than 10 s. -/
  | fadeDeferred (pair : Nat)
  /-- TAP_CONFIG_APPLY (R98): A changed tap entry takes effect at the next slot cycle. -/
  | tapConfigApply
  /-- COEF_CRC_CHECK (R113): The periodic CRC recompute of the active banks runs, and COEF_CRC is raised on a difference. -/
  | coefCrcCheck (pair : Nat) (upset : Option (Nat × BitVec 24))
  /-- SLOT_OVERRUN (R113): A slot's work does not complete within its engine cycles. -/
  | slotOverrun (slot : Nat)
  /-- RS_ROM_CRC_CHECK (R134): The resampler table CRC is recomputed and compared with its fused value. -/
  | rsRomCrcCheck (differs : Bool)
  /-- ALIGNED_SAMPLE_WRITE (R117): The aligned samples of all streams for one index are written. -/
  | alignedSampleWrite
  /-- WHEEL_SAMPLE_WRITE (R126): A wheel sample is computed and written, and it feeds the CF accumulators. -/
  | wheelSampleWrite
  /-- TURN_ACCOUNT (R152): A turn's last wheel sample is written, and the turn is accounted: energy, tariffs, debit and decisions. -/
  | turnAccount
  /-- POINT_DEF_EFFECT (R138): An accepted point definition takes effect at a turn boundary with its event record. -/
  | pointDefEffect (p : Nat)
  /-- CHAN_CAL_EFFECT (R139): Channel EN, GAIN, TYPE, FS and GCAL take effect together at a turn boundary. -/
  | chanCalEffect (c : Nat)
  /-- KAPPA_CHECK (R167): The parity check of the datapath copies runs, and KAPPA_CHECK is raised on an error. -/
  | kappaCheck (bad : Bool)
  /-- CF_PULSE_START (R164): A pending CF pulse starts at a slot-cycle boundary once the spacing allows it. -/
  | cfPulseStart (n : Nat)
  /-- CF_PULSE_END (R164): A CF pulse's high time ends. -/
  | cfPulseEnd (n : Nat)
  /-- CF_CFG_EFFECT (R165): An accepted CF configuration takes effect at a turn boundary. -/
  | cfCfgEffect (n : Nat)
  /-- HARMONIC_WINDOW_ANALYSE (R170): A harmonic window is analysed and its aggregates are advanced or closed. -/
  | harmonicWindowAnalyse
  /-- SUPRA_WINDOW_ANALYSE (R176): A 5 ms supraharmonic window of a tap entry is analysed. -/
  | supraWindowAnalyse (t : Nat)
  /-- HALF_CYCLE_RMS (R190): Half-cycle RMS values refresh, and the dip, swell and interruption conditions are evaluated. -/
  | halfCycleRms
  /-- PQ_CONFIG_APPLY (R192): A threshold, U_din or EVMODE change takes effect at a turn boundary, closing open events. -/
  | pqConfigApply
  /-- CAPTURE_TRIGGER (R196): An armed capture's trigger condition occurs, and the capture passes to FILLING. -/
  | captureTrigger (c : Nat)
  /-- CAPTURE_FILL_END (R195): FILLING ends after POST samples, or by truncation, and delivery begins. -/
  | captureFillEnd
  /-- TEMP_TRIM_TICK (R206): The 1 s calibration timer ticks and the factory codes are recomputed. -/
  | tempTrimTick (meas : W16)
  /-- TRIM_WRITE (R204): A group's changed trims are written in one step at a turn boundary. -/
  | trimWrite (g : Nat)
  /-- BANK_CAL_HOLD_START (R213): At B0, the group's channels begin to hold STALE values. -/
  | bankCalHoldStart
  /-- BANK_CAL_ISOLATE (R213): 2.5 ms after B0, the inputs are isolated and the first attempt begins. -/
  | bankCalIsolate
  /-- BANK_CAL_ATTEMPT_END (R208): A bank calibration attempt's results are ready and judged. -/
  | bankCalAttemptEnd
  /-- BANK_CAL_WRITE (R213): At Bw, trims are written, the inputs reconnected and the record written. -/
  | bankCalWrite
  /-- BANK_CAL_RELEASE (R213): At Br the hold ends, the event record is logged and CAL_BANK completes. -/
  | bankCalRelease
  /-- OPT_REQUEST (R246): An optical sign-on request is received at 300 Bd. -/
  | optRequest (chars : List Byte)
  /-- OPT_IDENT_SEND (R246): 200–300 ms after the request, the identification line is sent. -/
  | optIdentSend
  /-- OPT_ACK (R246): The peer's option acknowledgement is received and the rate switch is scheduled. -/
  | optAck (chars : List Byte)
  /-- OPT_READOUT (R248): After the switch delay, the data lines are sent and the session record is produced. -/
  | optReadout
  /-- OPT_TIMEOUT (R246): A gap of more than 1.5 s ends the optical session without answer. -/
  | optTimeout
  /-- ECREQ_PRESS (R257): A 100 ms low on an ECREQ ball grants emergency credit or confirms reconnection. -/
  | ecreqPress (ball : Nat)
  /-- OVERRIDE_EXPIRY (R267): A LOADCTL or PWM override's duration expires. -/
  | overrideExpiry (n : Nat)
  /-- PWM_PERIOD (R271): A PWM period starts and takes the duty in force. -/
  | pwmPeriod (n : Nat)
  /-- CTL_CFG_EFFECT (R275): An accepted CTL configuration acts at the first turn boundary after pending changes. -/
  | ctlCfgEffect (n : Nat)
  /-- POWER_FAIL_WARNING (R294): VSENSE falls below 1.20 V, which freezes metering and starts the last gasp. -/
  | powerFailWarning
  /-- POWER_FAIL_RELEASE (R293): VSENSE rises above 1.25 V for 1 µs and the warning releases. -/
  | powerFailRelease
  /-- POWER_RESTORE_RESTART (R298): After a last gasp, VSENSE above 1.25 V for 50 ms restarts the device from POR. -/
  | powerRestoreRestart
  /-- PAGE_COMMIT_DONE (R286): A page commit completes, and the next commit of the journal, last-gasp or log sequence is chosen by priority. -/
  | pageCommitDone
  /-- LOG_APPEND (R303): A Kiln log record is appended in three page commits and mirrored. -/
  | logAppend
  /-- SPREAD_COUNTER_PASS (R291): Changed counters are written into their next spread slots after a second close. -/
  | spreadCounterPass
  /-- SCRUB_READ (R310): The scrubber reads a word, correcting or reporting ECC errors. -/
  | scrubRead (err : EccKind) (place : EccPlace)
  /-- ECC_ERROR_DETECT (R28): A read finds a single-bit error, corrected, or a double-bit error, raised. -/
  | eccErrorDetect (block : Nat) (double : Bool) (place : EccPlace)
  /-- BACKUP_RESET (R315): The backup supply falls below threshold and the backup domain resets, losing the root secret. -/
  | backupReset
  /-- BACKUP_RESET_END (R315): The backup domain leaves reset and the RTC counts from 2000-01-01. -/
  | backupResetEnd
  /-- RTC_WRAP (R319): The RTC passes 2399-12-31 23:59:59 and wraps to 2000. -/
  | rtcWrap
  /-- RTC_SEC_READ (R320): A read of RTC_SEC captures the requester's shadow set and starts a freeze. -/
  | rtcSecRead (who : Nat)
  /-- RTC_YEAR_READ (R320): A read of RTC_YEAR returns its shadow and ends the freeze. -/
  | rtcYearRead (who : Nat)
  /-- RTC_FREEZE_EXPIRY (R320): A requester's shadow freeze ends 1 ms after capture. -/
  | rtcFreezeExpiry (who : Nat)
  /-- RTC_COMMIT_GO (R322): The legal image writes RTC_COMMIT.GO, and the staged set passes to the backup domain. -/
  | rtcCommitGo
  /-- RTC_COMMIT_TICK (R322): The staged commit takes effect at the next 32.768 kHz tick, and all RTC-commit consequences follow. -/
  | rtcCommitTick
  /-- OSC_STOP (R325): No 32.768 kHz edge arrives for 2 ms, so the RTC holds and becomes invalid. -/
  | oscStop
  /-- OSC_RUN (R325): After 64 edges the oscillator runs again and the RTC counts on. -/
  | oscRun
  /-- TRIM_WINDOW (R326): A 2^20-tick trim window starts with the new adjustment A. -/
  | trimWindow
  /-- TCOMP_UPDATE (R327): COMP is recomputed once per second from the die temperature. -/
  | tcompUpdate
  /-- VBAT_CHECK (R314): The once-per-minute comparison of VBAT with 2.2 V is made. -/
  | vbatCheck (low : Bool)
  /-- BACKUP_SWITCHOVER (R314): VDDIO leaves its range and the backup domain moves to VBAT. -/
  | backupSwitchover
  /-- EVENT_INPUT_EDGE (R329): An event input's accepted level changes on a selected edge and an entry enters the FIFO. -/
  | eventInputEdge (e : Nat) (rising : Bool)
  /-- EVENT_FIFO_DRAIN (R330): The legal image turns the oldest FIFO entry into an event-input record. -/
  | eventFifoDrain
  /-- SQW_EDGE (R328): The square-wave output changes at its defining tick. -/
  | sqwEdge
  /-- LINK_TRAINED (R334): The PCIe link trains, and the device answers configuration requests. -/
  | linkTrained (speed5 : Bool)
  /-- PERST_ASSERT (R362): PERSTn goes low, disabling all rings and resetting the function. -/
  | perstAssert
  /-- LINK_DOWN (R362): The link leaves L0 after FIRED without a reset, and the rings are disabled. -/
  | linkDown
  /-- FUNCTION_LEVEL_RESET (R362): A function-level reset resets the HIF, or acts as RESETn in a SEVERE fail-stop. -/
  | functionLevelReset
  /-- D3HOT_ENTER (R362): The function enters D3hot and stops DMA and messages. -/
  | d3hotEnter
  /-- D0_RETURN (R362): The function returns to D0 and the rings resume. -/
  | d0Return
  /-- RING_ENABLE (R338): A write of HIF_RCFG with EN enables a ring after checking its addresses. -/
  | ringEnable (value : W32)
  /-- RING_DISABLE (R338): A write clearing EN stops fetching, and ACTIVE clears after the last completion. -/
  | ringDisable (value : W32)
  /-- RING_CFG_WRITE (R338): A HIF_RCFG write of SIZE or COAL is applied or refused as a whole. -/
  | ringCfgWrite (value : W32)
  /-- DOORBELL_WRITE (R339): A doorbell write is checked and advances the ring's tail. -/
  | doorbellWrite (ring : Nat) (t : W32)
  /-- DESCRIPTOR_ACCEPT (R345): A posted descriptor or chain is fetched and accepted once queue room exists. -/
  | descriptorAccept (ring : Nat) (descs : List Desc)
  /-- COMPLETION_WRITE (R341): Completions are written in order, then the head shadow and the interrupt. -/
  | completionWrite (ring : Nat)
  /-- RECEIVE_BUFFER_COMPLETE (R347): A receive buffer is filled with whole records and completed OK or OVERSIZE. -/
  | receiveBufferComplete (ring : Nat) (d : Desc)
  /-- RECEIVE_COALESCE_EXPIRY (R347): COAL µs pass with the queue empty, and a partly filled buffer completes. -/
  | receiveCoalesceExpiry (ring : Nat)
  /-- DMA_READ_ERROR (R363): A DMA read ends unsuccessfully, stopping the ring. -/
  | dmaReadError (ring : Nat)
  /-- COMMAND_FORWARD_TIMEOUT (R352): A command forwarded to a worker has no answer within 2 s and completes UNAVAILABLE. -/
  | commandForwardTimeout (ring : Nat) (slot : W32)
  /-- CONFIG_SET (R353): Ring 0 command that changes one Q2 configuration item. -/
  | configSet (r : Req)
  /-- REG_READ (R355): Ring 0 command that reads consecutive BAR0 registers into a Ring 1 record. -/
  | regRead (r : Req)
  /-- SYNC (R357): Ring 0 command that requests a SYNC on the chip itself. -/
  | sync (r : Req)
  /-- TRIP_CLEAR (R357): Ring 0 command that clears the masked LATCHED bits and the trip sources. -/
  | tripClear (r : Req)
  /-- LOG_REPLAY (R356): Ring 0 command that redelivers retained Kiln log records on Ring 5. -/
  | logReplay (r : Req)
  /-- SNAP_REPLAY (R356): Ring 0 command that redelivers retained snapshots on Ring 4. -/
  | snapReplay (r : Req)
  /-- CHAN_CAL (R166): Ring 0 command that writes a channel record. -/
  | chanCal (r : Req)
  /-- POINT_DEF (R166): Ring 0 command that writes a point definition. -/
  | pointDef (r : Req)
  /-- F3_STORE (R166): Ring 0 command that stores an F3 set 1–7. -/
  | f3Store (r : Req)
  /-- CF_CFG (R166): Ring 0 command that configures a CF output. -/
  | cfCfg (r : Req)
  /-- COEF_SWAP (R109): Ring 0 command that loads a passive coefficient bank and arms its fade. -/
  | coefSwap (r : Req)
  /-- CAL_BANK (R212): Ring 0 command that calibrates one group of modulators. -/
  | calBank (r : Req)
  /-- PQ_SUBSCRIBE (R187): Ring 0 command that sets a subscription entry under the ring quota. -/
  | pqSubscribe (r : Req)
  /-- CAP_CFG (R194): Ring 0 command that sets a capture request. -/
  | capCfg (r : Req)
  /-- CAP_ARM (R195): Ring 0 command that arms a capture request. -/
  | capArm (r : Req)
  /-- CAP_TRIGGER (R195): Ring 0 command that triggers a capture. -/
  | capTrigger (r : Req)
  /-- CAP_RELEASE (R195): Ring 0 command that releases the capture SRAM. -/
  | capRelease (r : Req)
  /-- TRF_LOAD (R229): Ring 0 command that writes entries into the passive calendar image. -/
  | trfLoad (r : Req)
  /-- TRF_ARM (R230): Ring 0 command that arms or disarms the passive image for activation. -/
  | trfArm (r : Req)
  /-- TRF_CTLEDIT (R232): Ring 0 command that edits the active control section. -/
  | trfCtledit (r : Req)
  /-- TRF_SNAP (R238): Ring 0 command that takes an out-of-schedule snapshot. -/
  | trfSnap (r : Req)
  /-- CREDIT_CFG (R274): Ring 0 command that configures a point's prepayment. -/
  | creditCfg (r : Req)
  /-- CTL_CFG (R275): Ring 0 command that configures a CTL output. -/
  | ctlCfg (r : Req)
  /-- RTC_SET (R321): Ring 0 command that sets the RTC absolutely or relatively. -/
  | rtcSet (r : Req)
  /-- CREDIT_TOKEN (R256): Ring 11 request carrying an authenticated credit token. -/
  | creditToken (r : Req)
  /-- CREDIT_EC (R257): Ring 11 request that grants emergency credit. -/
  | creditEc (r : Req)
  /-- CTL_SWITCH (R267): Ring 11 request that overrides, disconnects, releases or confirms a CTL output. -/
  | ctlSwitch (r : Req)
  /-- ATTEST (R441): Ring 9 request that returns a signed attestation. -/
  | attest (r : Req)
  /-- CERT_READ (R439): Ring 9 request that returns the identity certificate. -/
  | certRead (r : Req)
  /-- GUARD_CHANGE (R437): Ring 9 request that applies a dual-signed change record. -/
  | guardChange (r : Req)
  /-- GUARD_READ (R439): Ring 9 request that returns the guarded-settings and approval payloads. -/
  | guardRead (r : Req)
  /-- KEY_LOAD (R443): Ring 9 request that installs a wrapped key in a slot. -/
  | keyLoad (r : Req)
  /-- KEY_ERASE (R439): Ring 9 request that empties an erasable slot. -/
  | keyErase (r : Req)
  /-- KEY_INFO (R444): Ring 9 request that reports a slot's state, policy and check value. -/
  | keyInfo (r : Req)
  /-- RANDOM (R439): Ring 9 request that returns random bytes. -/
  | random (r : Req)
  /-- KEY_RELAY (R442): Ring 9 request that sends an envelope KEY frame verbatim to a worker. -/
  | keyRelay (r : Req)
  /-- RING_SET (R392): Ring 13 request that configures a Coil ring. -/
  | ringSet (r : Req)
  /-- RING_INFO (R393): Ring 13 request that returns the ring state and position table. -/
  | ringInfo (r : Req)
  /-- ENUMERATE (R392): Ring 13 request that enumerates a ring. -/
  | enumerate (r : Req)
  /-- STREAM_START (R359): Ring 15 request that starts a raw sample stream. -/
  | streamStart (r : Req)
  /-- STREAM_STOP (R359): Ring 15 request that ends the raw stream. -/
  | streamStop (r : Req)
  /-- STREAM_BUF (R359): Ring 15 receive buffer filled with one stream block. -/
  | streamBuf (r : Req)
  /-- LINK_SYNC_GAIN (R368): A Coil receive side comes into sync. -/
  | linkSyncGain (port : Nat)
  /-- LINK_SYNC_LOSS (R368): A Coil receive side loses sync, sends LFAIL, and the link goes down and wraps. -/
  | linkSyncLoss (port : Nat) (invalid : Nat)
  /-- LFAIL_RECEIVE (R368): LFAIL received on a port marks the link down. -/
  | lfailReceive (port : Nat)
  /-- LINK_HEAL (R372): Both directions stay in sync for 100 ms, and the link is healed to unwrap at the next beacon. -/
  | linkHeal (port : Nat)
  /-- FRAME_FORWARD (R370): A worker forwards a passing frame cut-through with 96 ns delay, suspending any insertion. -/
  | frameForward (f : Frame)
  /-- FRAME_DISCARD (R373): A frame with a bad check, length, reserved field or type is discarded at its destination. -/
  | frameDiscard (f : Frame)
  /-- ENUM (R376): Frame received by a worker, which notes its hop index and delay, forwards it and answers HELLO. -/
  | enumFrame (f : Frame) (hop : Nat) (pathDelay : W32)
  /-- HELLO (R376): Frame received by the manager, which maps the identity and assigns or starts enumeration. -/
  | helloFrame (f : Frame) (h : Hello)
  /-- HELLO_TIMER (R377): An unassigned worker's 1 s timer sends an unsolicited HELLO. -/
  | helloTimer
  /-- ENUMERATION_START (R376): The manager starts enumerating a ring by sending ENUM from both ports. -/
  | enumerationStart (ring : Nat)
  /-- ENUMERATION_END (R376): An enumeration ends, with its block event and worker direction reselection. -/
  | enumerationEnd (ring : Nat)
  /-- ASSIGN (R376): Frame received by a worker, which takes ring and position and answers with STATUS. -/
  | assignFrame (f : Frame) (a : Assign)
  /-- STATUS (R389): Frame received by the manager, which updates the worker's state and disciplines its time. -/
  | statusFrame (f : Frame) (st : WStatus)
  /-- STATUS_SEND (R389): A worker sends STATUS every 16 turns. -/
  | statusSend
  /-- WORKER_LOST (R389): No authenticated frame arrives from a worker for 1.0 s. -/
  | workerLost (ring : Nat) (pos : Nat)
  /-- DELAY_REQ (R379): Frame received by the neighbour, which answers DELAY_RESP. -/
  | delayReq (f : Frame) (t2 : W64)
  /-- DELAY_RESP (R379): Frame received by the port, which computes the link delay. -/
  | delayResp (f : Frame) (turnaround : W64) (t4 : W64)
  /-- DELAY_MEASURE_START (R379): Every 16 turns a port sends DELAY_REQ. -/
  | delayMeasureStart (port : Nat) (t1 : W64)
  /-- COMMAND (R387): Authenticated frame that carries a forwarded request to a worker. -/
  | commandFrame (f : Frame)
  /-- REPLY (R387): Authenticated frame that carries a worker's status and result to the manager. -/
  | replyFrame (f : Frame)
  /-- CREDIT (R388): Frame that grants a worker report or bulk credit. -/
  | creditFrame (f : Frame)
  /-- ACK (R388): Frame that acknowledges report frames and releases their records. -/
  | ackFrame (f : Frame)
  /-- KEY (R442): Frame that carries a Saggar request or result to or from a worker. -/
  | keyFrame (f : Frame)
  /-- REPORT_RECORDS (R375): Report frame that carries record segments, which the manager joins and queues. -/
  | reportRecords (f : Frame)
  /-- BULK_RECORDS (R375): Bulk frame that carries PQ and capture record segments. -/
  | bulkRecords (f : Frame)
  /-- SEGMENT_TIMEOUT (R375): A record's segments are not complete within 1 s, and the record is discarded. -/
  | segmentTimeout (ring : Nat) (pos : Nat) (hostRing : Nat) (seq : W32)
  /-- REPORT_RETRANSMIT (R388): A report frame not acknowledged within 20 ms is sent again. -/
  | reportRetransmit (ctr : W64)
  /-- IMAGE_NEED (R391): Frame received by the manager, which starts an image broadcast. -/
  | imageNeed (f : Frame)
  /-- IMAGE_NEED_TIMER (R411): A GREENWARE worker repeats IMAGE_NEED every 500 ms, or 10 s after a refusal. -/
  | imageNeedTimer
  /-- IMAGE (R411): Broadcast frame of image bytes that a worker stores and, when complete, verifies. -/
  | imageFrame (f : Frame)
  /-- TRNG_HEALTH_FAIL (R422): An entropy health test fails, which stops the DRBG and raises TRNG_FAIL. -/
  | trngHealthFail
  /-- TRNG_RESTART_DONE (R422): The restarted entropy source passes its start-up tests, the DRBG reseeds and the fault resolves. -/
  | trngRestartDone
  /-- DRBG_RESEED (R422): The DRBG is reseeded every 60 s or after 2^20 requests. -/
  | drbgReseed
  /-- WEDGE_PASS (R431): The 60 s wedge pass re-masks every slot, the COIL cache and the root. -/
  | wedgePass
  /-- ROOT_INVERT (R431): In backup-only operation, the root shares are inverted every 60 s. -/
  | rootInvert
  /-- SLOT_REWRAP (R432): A slot record is rewrapped with a fresh nonce every 24 hours. -/
  | slotRewrap (slot : Nat)
  /-- TAMPER_EVENT (R451): A tamper source detects an event, which is counted in its window and may raise an alarm. -/
  | tamperEvent (src : Nat) (detail : W32)
  /-- TAMPER_WINDOW_EXPIRY (R451): A tamper window expires below N and closes with the count at 0. -/
  | tamperWindowExpiry (src : Nat)
  /-- TAMPER_HOLDOFF_END (R451): 328 ticks pass without an event and a source's hold-off ends. -/
  | tamperHoldoffEnd (src : Nat)
  /-- MESH_RESEED (R449): The glaze LFSR is reseeded from the DRBG every 60 s. -/
  | meshReseed
  /-- TMP_BIST_START (R459): A write of TMP_BIST.START stimulates a source or is refused. -/
  | tmpBistStart (value : W32)
  /-- TMP_BIST_END (R459): A self-test passes on detection or fails after 10 ms. -/
  | tmpBistEnd (detected : Bool)
  /-- TAMPER_LOG_DRAIN (R458): The legal image turns the oldest backup tamper-log entry into a Kiln record. -/
  | tamperLogDrain
  /-- FLT_FSTAT_CLEAR (R464): A write of 1 to FLT_FSTAT clears sticky bits whose condition is no longer live. -/
  | fltFstatClear (value : W32)
  /-- GRACE_EXPIRY (R467): A block's grace timer reaches 0 with a SEVERE fault unresolved. -/
  | graceExpiry (block : Nat)
  /-- ESC_WINDOW_EXPIRY (R468): A NOTICE source's escalation window expires and closes with the count at 0. -/
  | escWindowExpiry (block : Nat) (src : Nat)
  /-- ESC_RESOLVE_SPAN (R466): A span of W passes without a raise, and a count-escalated source is resolved. -/
  | escResolveSpan (block : Nat) (src : Nat)
  /-- FAILSTOP_SAFE_STATE (R475): After the last gasp, outputs take their fail-stop states, FAILn asserts and the FAILSTOP record is queued. -/
  | failstopSafeState
  /-- PARITY_ERROR_DETECT (R465): A parity error in fault, key RAM, DFT or filter state is detected as a GRAVE fault. -/
  | parityErrorDetect (block : Nat) (src : Nat)
  /-- PIN_GPIOEN_WRITE (R490): A write of PIN_GPIOEN claims or releases balls for GPIO. -/
  | pinGpioenWrite (value : W32)
  /-- PIN_EVOUT_WRITE (R492): A write of PIN_EVOUTj claims a ball and arms an EVOUT angle action. -/
  | pinEvoutWrite (j : Nat) (value : W32)
  /-- EVOUT_PULSE_END (R492): An EVOUT pulse ends after WIDTH µs. -/
  | evoutPulseEnd (j : Nat)
  /-- DRIVE_MISMATCH (R495): A driven ball reads the opposite level for 64 slot cycles. -/
  | driveMismatch (ball : Nat)
  /-- JTAG_INSTRUCTION (R494): A TAP instruction is loaded and takes control of the balls or bypasses. -/
  | jtagInstruction (code : Jtag)
  /-- RC_READ (R8): A read of an RC register returns its value and clears it. -/
  | rcRead (off : Nat)
  /-- W1C_WRITE (R8): A write to a W1C field clears the bits written as 1. -/
  | w1cWrite (off : Nat) (value : W32)
  /-- LATCHED_PAIR_READ (R278): A read of CRD_CREDLO, CRD_SERLO or an FLT tick LO register latches the matching HI register. -/
  | latchedPairRead (off : Nat)
  /-- REG_WRITE (R8): A write to a register without its own row sets or ignores fields per access code. -/
  | regWrite (off : Nat) (value : W32)
  /-- POWERUP_CAL_START (R211): The CAL state's wait of step 1 ends once VREF lies within ±1 % and the MPLL has been locked for 3 ms. The controller then reads temperature and records, writes the applied codes, isolates every group and starts the first attempt. -/
  | powerupCalStart (theta : W16)
  /-- KEY_OPERATION_END (R432): A Saggar key operation that took time completes and its requester continues. Such operations include the signature checks of a change record, a token HMAC, a key unwrap and an ATTEST signature. -/
  | keyOperationEnd
  /-- CONFIGURATION_REQUEST (R336): A PCIe configuration write sets or clears MSI-X Enable or the Command register's Interrupt Disable bit. This switches between MSI-X messages and HIF_ISTAT/INTA signalling. -/
  | configurationRequest (msix : Bool) (intDis : Bool)
  deriving DecidableEq, Repr

end Sys2Proof
end

