-- ==== Sys2Proof/WellFormed.lean ====
section
/-!
DEFINITION. The operand ranges of the commands: what a channel, ball, ring, port, slot or source number can be on a
KQ6048 (R3, R24, R46, R49, R60, R100, R164, R187, R194, R257, R265, R337, R373, R420, R448, R465, R492).
-/
namespace Sys2Proof

/-- A request brings the 16 inline bytes of its descriptor (R340). -/
def Req.wf (r : Req) : Bool := r.inl.length == 16

/-- A descriptor names as many bytes as its buffer has, and has 16 inline bytes (R340). -/
def Desc.wf (d : Desc) : Bool := d.inl.length == 16 && d.buf.length == d.len

/-- The fields of a frame have the widths of R373. -/
def Frame.wf (f : Frame) : Bool :=
  f.port < 8 && f.cls < 4 && f.typ < 64 && f.plen < 65536 && f.dst < 256 && f.src < 256 && f.ring < 256


/-- A place of a double-bit error lies in the store that it names: two copies, eight slots of a spread counter. -/
def EccPlace.wf : EccPlace → Bool
  | .sram => true
  | .capture => true
  | .kilnCopy _ copy => copy < 2
  | .spread i slot => i < 2048 && slot < 8
  | .logSlot k => k < 16384
  | .journal => true
  | .lastGasp _ => true
  | .kilnOther => true

/-- A place lies in the Kiln store. -/
def EccPlace.inKiln : EccPlace → Bool
  | .sram => false
  | .capture => false
  | .kilnCopy _ _ => true
  | .spread _ _ => true
  | .logSlot _ => true
  | .journal => true
  | .lastGasp _ => true
  | .kilnOther => true

/-- Every operand of a command lies in its range. -/
def Instr.wf : Instr → Bool
  | .rclkLoss port => port < 2
  | .rclkReturn port => port < 2
  | .powerupCalAttemptEnd g => g < 8
  | .calRetryStart g => g < 8
  | .imageData r => r.wf
  | .imageEnd r => r.wf
  | .imageAbort r => r.wf
  | .imageInfo r => r.wf
  | .acpWdog core => core < 2
  | .refHalfCycle e _ => e < 4
  | .angleActionFire n => n < 64
  | .rtcActionFire n => n < 32
  | .integratorReset m => m < 65
  | .coarseSample m _ => m < 65
  | .coarseRmsBlock m => m < 65
  | .modulatorStuck m => m < 65
  | .shadowCompareTurn b => b < 3
  | .shadowDwellAdvance b => b < 3
  | .shadowSelfcheckStep b => b < 3
  | .auxDwellEnd a => a < 2
  | .auxSettlingEnd a => a < 2
  | .tripComparatorAssert k _ => k < 48
  | .tripComparatorRelease k => k < 48
  | .tripStretchEnd n => n < 16
  | .coefFadeStart p => p < 69
  | .coefFadeEnd p => p < 69
  | .fadeDeferred p => p < 69
  | .coefCrcCheck p u => p < 69 && u.all (fun x => x.1 < 48)
  | .slotOverrun n => n < 64
  | .pointDefEffect p => p < 256
  | .chanCalEffect c => c < 60
  | .cfPulseStart n => n < 8
  | .cfPulseEnd n => n < 8
  | .cfCfgEffect n => n < 8
  | .supraWindowAnalyse t => t < 12
  | .captureTrigger c => c < 8
  | .trimWrite g => g < 8
  | .bankCalAttemptEnd => true
  | .ecreqPress b => b < 32
  | .overrideExpiry n => n < 16
  | .pwmPeriod n => n < 16
  | .ctlCfgEffect n => n < 16
  | .eccErrorDetect b _ p => 1 ≤ b && b ≤ 18 && p.wf
  | .rtcSecRead who => who < 3
  | .rtcYearRead who => who < 3
  | .rtcFreezeExpiry who => who < 3
  | .eventInputEdge e _ => e < 8
  | .doorbellWrite r _ => r < 16
  | .descriptorAccept r l => r < 16 && !l.isEmpty && l.all Desc.wf
  | .completionWrite r => r < 16
  | .receiveBufferComplete r d => r < 16 && d.wf
  | .receiveCoalesceExpiry r => r < 16
  | .dmaReadError r => r < 16
  | .commandForwardTimeout r _ => r < 16
  | .configSet r => r.wf
  | .regRead r => r.wf
  | .sync r => r.wf
  | .tripClear r => r.wf
  | .logReplay r => r.wf
  | .snapReplay r => r.wf
  | .chanCal r => r.wf
  | .pointDef r => r.wf
  | .f3Store r => r.wf
  | .cfCfg r => r.wf
  | .coefSwap r => r.wf
  | .calBank r => r.wf
  | .pqSubscribe r => r.wf
  | .capCfg r => r.wf
  | .capArm r => r.wf
  | .capTrigger r => r.wf
  | .capRelease r => r.wf
  | .trfLoad r => r.wf
  | .trfArm r => r.wf
  | .trfCtledit r => r.wf
  | .trfSnap r => r.wf
  | .creditCfg r => r.wf
  | .ctlCfg r => r.wf
  | .rtcSet r => r.wf
  | .creditToken r => r.wf
  | .creditEc r => r.wf
  | .ctlSwitch r => r.wf
  | .attest r => r.wf
  | .certRead r => r.wf
  | .guardChange r => r.wf
  | .guardRead r => r.wf
  | .keyLoad r => r.wf
  | .keyErase r => r.wf
  | .keyInfo r => r.wf
  | .random r => r.wf
  | .keyRelay r => r.wf
  | .ringSet r => r.wf
  | .ringInfo r => r.wf
  | .enumerate r => r.wf
  | .streamStart r => r.wf
  | .streamStop r => r.wf
  | .streamBuf r => r.wf
  | .linkSyncGain p => p < 8
  | .linkSyncLoss p _ => p < 520
  | .lfailReceive p => p < 8
  | .linkHeal p => p < 520
  | .frameForward f => f.wf
  | .frameDiscard f => f.wf
  | .enumFrame f hop _ => f.wf && hop < 256
  | .helloFrame f _ => f.wf
  | .enumerationStart r => r < 4
  | .enumerationEnd r => r < 4
  | .assignFrame f a => f.wf && a.ring < 4 && 1 ≤ a.pos && a.pos < 128
  | .statusFrame f _ => f.wf
  | .workerLost r p => r < 4 && 1 ≤ p && p < 128
  | .delayReq f _ => f.wf
  | .delayResp f _ _ => f.wf
  | .delayMeasureStart p _ => p < 8
  | .commandFrame f => f.wf
  | .replyFrame f => f.wf
  | .creditFrame f => f.wf
  | .ackFrame f => f.wf
  | .keyFrame f => f.wf
  | .reportRecords f => f.wf
  | .bulkRecords f => f.wf
  | .segmentTimeout r p h _ => r < 4 && p < 128 && h < 16
  | .imageNeed f => f.wf
  | .imageFrame f => f.wf
  | .slotRewrap n => n < 64
  | .tamperEvent src _ => src < 8
  | .tamperWindowExpiry src => src < 8
  | .tamperHoldoffEnd src => src < 8
  | .graceExpiry b => 1 ≤ b && b ≤ 18
  | .escWindowExpiry b src => 1 ≤ b && b ≤ 18 && src < 32
  | .escResolveSpan b src => 1 ≤ b && b ≤ 18 && src < 32
  | .parityErrorDetect b src => 1 ≤ b && b ≤ 18 && src < 32
  | .pinEvoutWrite j _ => j < 4
  | .evoutPulseEnd j => j < 4
  | .driveMismatch n => n < 50
  | .rcRead off => off < 0x4000 && off % 4 == 0
  | .w1cWrite off _ => off < 0x4000 && off % 4 == 0
  | .latchedPairRead off => off < 0x4000 && off % 4 == 0
  | .regWrite off _ => off < 0x4000 && off % 4 == 0
  | .powerOn => true
  | .backupEnter => true
  | .porEnd _ _ => true
  | .brownOut => true
  | .resetnAssert => true
  | .mpllLock _ => true
  | .mpllUnlock => true
  | .mpllRelock => true
  | .vrefFault => true
  | .vrefWaitTimeout => true
  | .powerupCalWrite => true
  | .verifyDone => true
  | .restoreDone => true
  | .imageWait => true
  | .acpFwWrite => true
  | .lcpMismatch => true
  | .acpRestartDone => true
  | .wheelTurnBoundary _ => true
  | .refRevert => true
  | .refListApply => true
  | .wheelCoastEnd => true
  | .beaconReceive _ => true
  | .beaconLost _ => true
  | .syncinEdge _ => true
  | .syncExecute => true
  | .syncoutPulseEnd => true
  | .whlPosloRead => true
  | .auxConfigApply => true
  | .channelConfigApply => true
  | .tripConfigApply => true
  | .tapConfigApply => true
  | .rsRomCrcCheck _ => true
  | .alignedSampleWrite => true
  | .wheelSampleWrite => true
  | .turnAccount => true
  | .kappaCheck _ => true
  | .harmonicWindowAnalyse => true
  | .halfCycleRms => true
  | .pqConfigApply => true
  | .captureFillEnd => true
  | .tempTrimTick _ => true
  | .bankCalHoldStart => true
  | .bankCalIsolate => true
  | .bankCalWrite => true
  | .bankCalRelease => true
  | .optRequest _ => true
  | .optIdentSend => true
  | .optAck _ => true
  | .optReadout => true
  | .optTimeout => true
  | .powerFailWarning => true
  | .powerFailRelease => true
  | .powerRestoreRestart => true
  | .pageCommitDone => true
  | .logAppend => true
  | .spreadCounterPass => true
  | .scrubRead _ p => p.wf && p.inKiln
  | .backupReset => true
  | .backupResetEnd => true
  | .rtcWrap => true
  | .rtcCommitGo => true
  | .rtcCommitTick => true
  | .oscStop => true
  | .oscRun => true
  | .trimWindow => true
  | .tcompUpdate => true
  | .vbatCheck _ => true
  | .backupSwitchover => true
  | .eventFifoDrain => true
  | .sqwEdge => true
  | .linkTrained _ => true
  | .perstAssert => true
  | .linkDown => true
  | .functionLevelReset => true
  | .d3hotEnter => true
  | .d0Return => true
  | .ringEnable _ => true
  | .ringDisable _ => true
  | .ringCfgWrite _ => true
  | .helloTimer => true
  | .statusSend => true
  | .reportRetransmit _ => true
  | .imageNeedTimer => true
  | .trngHealthFail => true
  | .trngRestartDone => true
  | .drbgReseed => true
  | .wedgePass => true
  | .rootInvert => true
  | .meshReseed => true
  | .tmpBistStart _ => true
  | .tmpBistEnd _ => true
  | .tamperLogDrain => true
  | .fltFstatClear _ => true
  | .failstopSafeState => true
  | .pinGpioenWrite _ => true
  | .jtagInstruction _ => true
  | .powerupCalStart _ => true
  | .keyOperationEnd => true
  | .configurationRequest _ _ => true

end Sys2Proof
end

