-- ==== Sys2Proof/Decode.lean ====
section
/-!
DEFINITION. Commands from words of the opcode table. No row of the table carries bits: a command reaches the block as a
register access, a descriptor, a frame, an event on a ball or an instant, not as a word.
-/
namespace Sys2Proof

/-- The command that a word spells: none, as no row of spec/opcode_table.json gives bits. -/
def decodeTableWord (_nbits _w : Nat) : Option Instr := none

end Sys2Proof
end

