-- ==== Sys2Proof/Machine/Bits.lean ====
section
/-!
DEFINITION. Bit fields, little-endian byte strings (R7), rounding, CRC-32C, integer square roots and the sorted
tables in which the model keeps sparse state. All are plain structural functions.
-/
namespace Sys2Proof.Machine

/-- Bits `hi` down to `lo` of a word, as a number. -/
def fld {n : Nat} (w : BitVec n) (hi lo : Nat) : Nat := (w.toNat >>> lo) % 2 ^ (hi + 1 - lo)

/-- Bit `i` of a word. -/
def bit {n : Nat} (w : BitVec n) (i : Nat) : Bool := w.toNat.testBit i

/-- A word with bit `i` set to `v`. -/
def setBit {n : Nat} (w : BitVec n) (i : Nat) (v : Bool) : BitVec n :=
  if v then w ||| BitVec.ofNat n (2 ^ i) else w &&& ~~~ (BitVec.ofNat n (2 ^ i))

/-- A truth value as one bit at position `i`, for register images. -/
def bitAt (b : Bool) (i : Nat) : Nat := if b then 2 ^ i else 0

/-- A number placed at bit `lo` of a register image, cut to `n` bits. -/
def putAt (v n lo : Nat) : Nat := (v % 2 ^ n) * 2 ^ lo

/-- A counter that saturates at its largest value. -/
def satInc {n : Nat} (w : BitVec n) : BitVec n := if w = BitVec.allOnes n then w else w + 1

/-- A counter advanced by `k`, saturating at its largest value. -/
def satAdd {n : Nat} (w : BitVec n) (k : Nat) : BitVec n := BitVec.ofNat n (min (w.toNat + k) (2 ^ n - 1))

/-- A number saturated into `n` unsigned bits. -/
def satN (n v : Nat) : BitVec n := BitVec.ofNat n (min v (2 ^ n - 1))

/-- An integer saturated into `n` signed bits, with the flag that it did. -/
def satS (n : Nat) (v : Int) : Int × Bool :=
  let hi : Int := 2 ^ (n - 1) - 1
  let lo : Int := -(2 ^ (n - 1))
  if v > hi then (hi, true) else if v < lo then (lo, true) else (v, false)

/-- Two's-complement wrap of an integer into `n` bits, read as signed. -/
def wrapS (n : Nat) (v : Int) : Int := (BitVec.ofInt n v).toInt

/-- `a / b` rounded to the nearest integer, halves up. -/
def rndUp (a : Int) (b : Nat) : Int := Int.fdiv (2 * a + b) (2 * b)

/-- `a / b` rounded to the nearest integer, halves away from zero. -/
def rndAway (a : Int) (b : Nat) : Int :=
  if a < 0 then -(((2 * a.natAbs + b) / (2 * b) : Nat) : Int) else (((2 * a.natAbs + b) / (2 * b) : Nat) : Int)

/-- Bit-by-bit integer square root: the root so far is tested with bit `k` set. -/
def isqrtGo (n : Nat) : Nat → Nat → Nat
  | 0, r => r
  | k + 1, r => let t := r + 2 ^ k; isqrtGo n k (if t * t ≤ n then t else r)

/-- Floor of the square root of a number below 2^(2·bits). -/
def isqrtB (bits n : Nat) : Nat := isqrtGo n bits 0

/-- Floor of the square root. -/
def isqrt (n : Nat) : Nat := isqrtB (n.log2 / 2 + 1) n

/-- Square root rounded to the nearest integer, halves up. -/
def rsqrt (n : Nat) : Nat := let r := isqrt n; if n > r * r + r then r + 1 else r

/-- Sum of a list of integers. -/
def sumI (l : List Int) : Int := l.foldl (· + ·) 0

/-- Sum of a list of numbers. -/
def sumN (l : List Nat) : Nat := l.foldl (· + ·) 0

/-- The low `n` bytes of a number, least significant first. -/
def le : Nat → Nat → List Byte
  | 0, _ => []
  | n + 1, v => BitVec.ofNat 8 v :: le n (v / 256)

/-- A signed number as `n` little-endian bytes. -/
def leI (n : Nat) (v : Int) : List Byte := le n ((v % (2 ^ (8 * n) : Nat)).toNat)

/-- `n` zero bytes. -/
def zeros (n : Nat) : List Byte := List.replicate n 0

/-- A little-endian number from a byte list. -/
def ofLe : List Byte → Nat
  | [] => 0
  | b :: bs => b.toNat + 256 * ofLe bs

/-- `n` little-endian bytes of a record from offset `o`, as a number (missing bytes read 0). -/
def rd (b : List Byte) (o n : Nat) : Nat := ofLe ((b.drop o).take n)

/-- The same, as a signed number. -/
def rdI (b : List Byte) (o n : Nat) : Int := (BitVec.ofNat (8 * n) (rd b o n)).toInt

/-- Bytes `o` to `o + n − 1` of a record are all zero. -/
def zerosAt (b : List Byte) (o n : Nat) : Bool := ((b.drop o).take n).all (· == 0)

/-- A byte string padded or cut to length `n`. -/
def padTo (n : Nat) (b : List Byte) : List Byte := (b ++ zeros (n - b.length)).take n

/-- Replace bytes from offset `o` of a byte string. -/
def splice (b : List Byte) (o : Nat) (x : List Byte) : List Byte :=
  padTo o b ++ x ++ b.drop (o + x.length)

/-- Big-endian bytes. -/
def beBytes (n v : Nat) : List Byte := (le n v).reverse

/-- One bit step of CRC-32C, reflected polynomial 0x82F63B78 (log entry 6, PRESUMED Castagnoli). -/
def crcStep (c : W32) : W32 := if bit c 0 then (c >>> 1) ^^^ 0x82F63B78#32 else c >>> 1

/-- One byte of CRC-32C. -/
def crcByte (c : W32) (b : Byte) : W32 :=
  crcStep (crcStep (crcStep (crcStep (crcStep (crcStep (crcStep (crcStep (c ^^^ b.setWidth 32))))))))

/-- CRC-32C of a byte string. -/
def crc32c (b : List Byte) : W32 := ~~~ (b.foldl crcByte 0xFFFFFFFF#32)

/-- The CRC-32C field at offset `o` of a record matches the CRC of `bytes`. -/
def crcOk (b : List Byte) (o : Nat) (bytes : List Byte) : Bool := rd b o 4 == (crc32c bytes).toNat

/-- A table kept sorted by a natural-number key, without repeats. -/
abbrev Tab (α : Type) := List (Nat × α)

/-- The entry of a key, when it is listed. -/
def tget {α : Type} : Tab α → Nat → Option α
  | [], _ => none
  | (k, v) :: t, i => if k = i then some v else tget t i

/-- The entry of a key, or `d` where none is listed. -/
def tgetD {α : Type} (t : Tab α) (i : Nat) (d : α) : α := (tget t i).getD d

/-- The table with the entry of key `i` set. -/
def tput {α : Type} : Tab α → Nat → α → Tab α
  | [], i, x => [(i, x)]
  | (k, v) :: t, i, x => if i < k then (i, x) :: (k, v) :: t else if i = k then (i, x) :: t else (k, v) :: tput t i x

/-- The table without the entry of key `i`. -/
def tdel {α : Type} (t : Tab α) (i : Nat) : Tab α := t.filter (fun p => p.1 != i)

/-- The table with the entry of `i` (or the default `d`) changed by `f`. -/
def tmod {α : Type} (t : Tab α) (i : Nat) (d : α) (f : α → α) : Tab α := tput t i (f (tgetD t i d))

/-- Keys strictly rising: the form in which every table is kept. -/
def tsorted {α : Type} : Tab α → Bool
  | [] => true
  | [_] => true
  | (a, _) :: (b, y) :: t => a < b && tsorted ((b, y) :: t)

/-- Element `i` of a list, or `d`. -/
def nth {α : Type} (l : List α) (i : Nat) (d : α) : α := l.getD i d

/-- Element `i` of a list changed by `f`. -/
def lmod {α : Type} : List α → Nat → (α → α) → List α
  | [], _, _ => []
  | x :: t, 0, f => f x :: t
  | x :: t, i + 1, f => x :: lmod t i f

/-- Insert into a list sorted by `le`, and the sort by insertion. -/
def insertBy {α : Type} (le : α → α → Bool) (x : α) : List α → List α
  | [] => [x]
  | y :: t => if le x y then x :: y :: t else y :: insertBy le x t
def sortBy {α : Type} (le : α → α → Bool) : List α → List α
  | [] => []
  | x :: t => insertBy le x (sortBy le t)

/-- Record sequence `a` is newer than `b` (R10). -/
def seqNewer (a b : W32) : Bool := let d := (a - b).toNat; 1 ≤ d && d ≤ 2 ^ 31

/-- Turn count `a` is later than `b` (R34). -/
def turnLater (a b : Nat) : Bool := let d := (a + 2 ^ 40 - b % 2 ^ 40) % 2 ^ 40; 1 ≤ d && d ≤ 2 ^ 39

end Sys2Proof.Machine
end

