-- ==== Sys2Proof/Machine/Math.lean ====
section
/-!
DEFINITION. The irrational numbers of the manual's ROMs and formulas, in 64-bit binary fractions: sines (R146, R171),
the Hilbert taps (R146), the resampler prototype (R124), angles (R147), and rounded square roots.
-/
namespace Sys2Proof.Machine

/-- π × 2^64. -/
def piFix : Int := 57952155664616982739

/-- Terms of the sine or cosine series: `t` the last term, `k` its order. -/
def taylor (x2 : Int) : Nat → Int → Nat → Int → Int
  | 0, _, _, acc => acc
  | n + 1, t, k, acc =>
    let t' := -(t * x2 / 2 ^ 64) / ((k + 1) * (k + 2) : Nat)
    taylor x2 n t' (k + 2) (acc + t')

/-- Sine and cosine of an angle in [0, π/2], as 2^-64 fractions. -/
def sinFix (x : Int) : Int := taylor (x * x / 2 ^ 64) 14 x 1 x
def cosFix (x : Int) : Int := taylor (x * x / 2 ^ 64) 14 (2 ^ 64) 0 (2 ^ 64)

/-- sin(2π × num / den) × 2^64. -/
def sinQ (num den : Nat) : Int :=
  if den = 0 then 0
  else
    let q := 4 * (num % den) / den
    let r := 4 * (num % den) % den
    let x := piFix * r / (2 * den : Nat)
    match q with
    | 0 => sinFix x
    | 1 => cosFix x
    | 2 => -(sinFix x)
    | _ => -(cosFix x)

/-- cos(2π × num / den) × 2^64. -/
def cosQ (num den : Nat) : Int := sinQ (4 * num + den) (4 * den)

/-- A 2^-64 fraction rounded to `b` fraction bits. -/
def rndFix (b : Nat) (v : Int) : Int := rndAway v (2 ^ (64 - b))

/-- The ROM sine and cosine of wheel sample k (R146). -/
def romCos (k : Nat) : Int := rndFix 23 (cosQ k 256)
def romSin (k : Nat) : Int := rndFix 23 (sinQ k 256)

/-- The Hilbert tap η_j for odd j (R146). -/
def romEta (j : Nat) : Int :=
  let sn := sinQ j 512
  if sn = 0 then 0 else rndAway (cosQ j 512 * 2 ^ 16 * (if sn < 0 then -1 else 1)) sn.natAbs

/-- Terms of the modified Bessel series I0, q = z²/4 as a 2^-64 fraction. -/
def besselGo (q : Int) : Nat → Int → Nat → Int → Int
  | 0, _, _, acc => acc
  | n + 1, t, k, acc =>
    let t' := t * q / 2 ^ 64 / ((k + 1) * (k + 1) : Nat)
    besselGo q n t' (k + 1) (acc + t')

def besselI0 (q : Int) : Int := besselGo q 40 (2 ^ 64) 0 (2 ^ 64)

/-- 2^17 × g(x) of R124 rounded with halves up, for x = n / 512. -/
def protoTap (n : Int) : Int :=
  let a := n.natAbs
  if a ≥ 4096 then 0
  else
    let q : Int := (9 * 2 ^ 64 * (4096 * 4096 - a * a) : Nat) / (4096 * 4096 : Nat)
    let w := besselI0 q
    let w0 := besselI0 (9 * 2 ^ 64)
    let sinc : Int := if a = 0 then 2 ^ 64 else sinQ a 1280 * 2 ^ 64 * 640 / (piFix * a)
    rndUp (4 * sinc * w * 2 ^ 17) (5 * w0.natAbs * 2 ^ 64)

/-- The 16 taps c[p][−7] to c[p][8] of a phase, their sum brought to 2^17 (R124). -/
def romPhase (p : Nat) : List Int :=
  let raw := (List.range 16).map (fun (i : Nat) => protoTap (((i : Int) - 7) * 512 - p))
  let d : Int := 131072 - sumI raw
  lmod raw (if p < 256 then 7 else 8) (· + d)

/-- sqrt(num / den) rounded to the nearest integer, halves up. -/
def sqrtRatio (num den : Nat) : Nat := if den = 0 then 0 else (isqrt (4 * num / den) + 1) / 2

/-- Bit-by-bit angle: the largest h in half wheel units with y cos θ ≥ x sin θ in the first quadrant. -/
def angleGo (x y : Nat) : Nat → Nat → Nat
  | 0, h => h
  | k + 1, h =>
    let t := h + 2 ^ k
    angleGo x y k (if t ≤ 32768 && (y : Int) * cosQ t 131072 ≥ (x : Int) * sinQ t 131072 then t else h)

/-- atan2(y, x) in wheel units mod 65,536 (R147); 0 for the zero vector. -/
def wheelAngle (y x : Int) : Nat :=
  if y = 0 ∧ x = 0 then 0
  else
    let q := if x > 0 ∧ y ≥ 0 then 0 else if x ≤ 0 ∧ y > 0 then 1 else if x < 0 ∧ y ≤ 0 then 2 else 3
    let (a, b) := if q % 2 = 0 then (x.natAbs, y.natAbs) else (y.natAbs, x.natAbs)
    (16384 * q + (angleGo a b 16 0 + 1) / 2) % 65536

end Sys2Proof.Machine
end

