-- ==== Sys2Proof/Config.lean ====
section
/-!
DEFINITION. What the manual leaves to an implementation or to a standard outside it. Every function here is opaque:
nothing can be proved about a value of it, so every claim holds for every choice (log entries 5 and 7).
-/
namespace Sys2Proof.Config

/-- Fresh free values: the n-th value the chip draws where the manual fixes none (log entry 5). -/
opaque freeNat : Nat → Nat
opaque freeBit : Nat → Bool
opaque freeInt : Nat → Int

/-- SHA-384 of a byte string (the standard is outside the manual). -/
opaque sha384 : List Byte → List Byte
/-- HMAC-SHA-384 under a key. -/
opaque hmac : List Byte → List Byte → List Byte
/-- ECDSA P-384 verification: public key, digest, signature. -/
opaque ecdsaVerify : List Byte → List Byte → List Byte → Bool
/-- ECDSA P-384 signature: private key, digest, draw. -/
opaque ecdsaSign : List Byte → List Byte → Nat → List Byte
/-- Public key of a private key. -/
opaque ecdsaPublic : List Byte → List Byte
/-- AES-256-GCM: key, nonce, additional data, plaintext; ciphertext followed by the 16-byte tag. -/
opaque gcmSeal : List Byte → List Byte → List Byte → List Byte → List Byte
/-- AES-256-GCM opening: key, nonce, additional data, ciphertext, tag; the plaintext when the tag holds. -/
opaque gcmOpen : List Byte → List Byte → List Byte → List Byte → List Byte → Option (List Byte)
/-- ECDH P-384 shared secret: private key, public key. -/
opaque ecdh : List Byte → List Byte → List Byte
/-- The n-th output byte of the DRBG since the model's start. -/
opaque random : Nat → Byte
/-- Idmen's image-signing public key in the boot ROM (R402). -/
opaque imageKey : List Byte
/-- The fused identity seed (R423). -/
opaque seed : List Byte
/-- A byte string is a point of P-384 (Qx ‖ Qy). -/
opaque onCurve : List Byte → Bool
/-- The fused legal digests of the approval slots (R403). -/
opaque fusedDigest : Nat → List Byte
/-- What Idmen puts into the identity certificate at test: issue time, issuer key identifier, signature (R424). -/
opaque certTime : W32
opaque certIssuer : W64
opaque certSignature : List Byte
/-- Unique coefficients c0 to c47 of the Idmen standard F3 set (R97, R108), before their sum is judged. -/
opaque f3Set0 : Nat → BitVec 24
/-- Unique coefficients of the Idmen standard tap set (R99, R108). -/
opaque tapSet0 : Nat → BitVec 24
/-- Factory offset and gain codes of a modulator and PGA code at a table temperature (R205). -/
opaque factoryO : Nat → Nat → Nat → Int
opaque factoryG : Nat → Nat → Nat → Int
/-- Deviation of a spectrum result from its exact value, within the tolerance of R171. -/
opaque dftDev : Nat → Int
/-- Synchroniser delay of an event input in slot clocks (R329 names it, no rule gives it). -/
opaque evSyncDelay : Nat
/-- Correction of the Wheel rate in units of 2^-20 Hz while it removes a phase error; R40 bounds it by 1 %. -/
opaque slew : Nat → Int
/-- Cycles that the spreading of the system clock has taken away by a slot clock; R511 bounds them by 0.5 %. -/
opaque spread : Nat → Nat
/-- The subscription record a worker of an identity holds in an entry, where no manager of the model has set it (R188 admits
stored entries and gives no message that carries them; log entry 25). -/
opaque workerSub : W64 → Nat → List Byte
/-- The data lines of a worker that a manager fetches over the ring for its optical port, or none when the worker gives no
answer (R247 gives no frame for it): ring, position, draw. -/
opaque workerLines : Nat → Nat → Nat → Option (List (List Byte))
/-- The payload bytes of an ASSIGN and of a STATUS, whose layout R376 and R389 leave open. -/
opaque assignBytes : Assign → List Byte
opaque statusBytes : WStatus → List Byte

end Sys2Proof.Config
end

