-- ==== Sys2Proof/Machine/Types.lean ====
section
/-!
DEFINITION. The structures of which the state of the block is made: one section per chapter of the manual. Registers
that software reads whole stay bit vectors; modes and states that live inside the chip are named constructors.
-/
namespace Sys2Proof.Machine

/-! ### Stamps and records (R42-R44) -/

/-- The two stamps and the stamp quality of a record (R44). -/
structure Stamp where
  wheel : W64
  sec : W32
  frac : W16
  qual : W16
  deriving DecidableEq, Repr

/-- A record: sequence, type, length (its own), stamp block in bytes 8 to 23, and the bytes from 24 on (R44, R304). -/
structure Rec where
  typ : W16
  seq : W32
  stamp : Stamp
  body : List Byte
  deriving DecidableEq, Repr

/-- What the block has put out, newest first: the model's own trace of what leaves it. -/
inductive OutEv where
  /-- A completion written to host memory, with the bytes written into the descriptor's buffer (R341). -/
  | completion (ring : Nat) (idx : W32) (tag : W32) (status : W16) (len : Nat) (seq : W32) (data : List Byte)
  /-- A head shadow written (R341). -/
  | headShadow (ring : Nat) (head : W32)
  /-- An MSI-X message of a vector (R336). -/
  | msi (vector : Nat)
  /-- A Coil frame handed to a port's transmitter (R366). -/
  | frame (f : Frame)
  /-- A structured Coil frame whose payload layout the manual leaves open (R376, R380, R389). -/
  | hello (port : Nat) (src : Nat) (h : Hello)
  | assign (port : Nat) (dst : Nat) (a : Assign)
  | status (port : Nat) (src : Nat) (st : WStatus)
  | beacon (port : Nat) (b : Beacon)
  | enumHop (port : Nat) (hop : Nat) (pathDelay : W32)
  | delayReq (port : Nat)
  | delayResp (port : Nat)
  | lfail (port : Nat)
  /-- Characters sent on the optical port (R246-R248). -/
  | optical (chars : List Byte)
  /-- A value returned by a register read. -/
  | readVal (off : Nat) (value : W32)
  | tapData (value : W32)
  deriving DecidableEq, Repr

/-! ### Requests -/

/-- Who waits for the completion of a request: its ring, descriptor index, tag and IRQ flag. -/
structure Waiter where
  ring : Nat
  via : Via
  slot : W32
  tag : W32
  irq : Bool
  op : Byte
  deriving DecidableEq, Repr

/-- The end of a request (R341): status, length written, record sequence, bytes written into the buffer. -/
structure Done where
  status : W16
  len : Nat
  seq : W32
  data : List Byte
  deriving DecidableEq, Repr

/-- A record waiting on a ring: its bytes, for a mirrored Kiln log record its log sequence (R305), and a request
whose completion waits for room on Ring 1 or 10 (R337). -/
structure QRec where
  seq : W32
  bytes : List Byte
  log : Option W32
  hold : Option (Waiter × Done)
  deriving DecidableEq, Repr

/-- An accepted descriptor (R345): chained descriptors share the request of the first; a receive buffer holds the
records it was completed with until its completion is written (R347). -/
structure Acc where
  idx : W32
  tag : W32
  irq : Bool
  blen : Nat
  first : W32
  done : Option Done
  recs : List QRec
  deriving DecidableEq, Repr

/-- A posted receive buffer with what has been placed in it so far (R347). -/
structure RxBuf where
  idx : W32
  tag : W32
  irq : Bool
  len : Nat
  recs : List QRec
  deriving DecidableEq, Repr

/-- One descriptor ring (R338-R348). -/
structure Ring where
  base : W64
  cmp : W64
  shd : W64
  en : Bool
  active : Bool
  dmaErr : Bool
  dbErr : Bool
  cfgErr : Bool
  coal : BitVec 10
  size : BitVec 5
  head : W32
  tail : W32
  fetched : W32
  acc : List Acc
  bufs : List RxBuf
  queue : List QRec
  drop : W32
  dropSpan : Option Nat
  deriving DecidableEq, Repr

/-- A subscription entry (R187). -/
structure SubEnt where
  en : Bool
  kind : BitVec 2
  interval : BitVec 2
  cmask : W64
  pmask : BitVec 256
  deriving DecidableEq, Repr

/-- A command that the manager has forwarded to a worker (R352); for a subscription the entry that stands again
when the worker refuses (R188). -/
structure Fwd where
  w : Waiter
  wring : Nat
  wpos : Nat
  mtag : W32
  op : Byte
  at_ : Nat
  stamp : Stamp
  undo : Option (Nat × SubEnt)
  deriving DecidableEq, Repr

/-- One instant of the raw stream: its index since the start, stamp, whether instants were discarded before it, and
its words. -/
structure StrInst where
  idx : W32
  stamp : Stamp
  gap : Bool
  hold : Bool
  bytes : List Byte
  deriving DecidableEq, Repr

/-- The raw sample stream of Ring 15 (R359): words of the instant being gathered, and the stream store. -/
structure Stream where
  run : Bool
  source : Nat
  mask : W64
  number : W32
  block : W16
  index : W32
  gap : Bool
  curN : Int
  parts : Tab Nat
  store : List StrInst
  stopAt : Option W32
  deriving DecidableEq, Repr

/-- One MSI-X table entry: message address, data and vector control mask bit (R336). -/
structure MsixEnt where
  lo : W32
  hi : W32
  data : W32
  ctl : W32
  deriving DecidableEq, Repr

/-- The host interface (R334-R365). -/
structure Hif where
  linkUp : Bool
  speed : Bool
  d3 : Bool
  perstLow : Bool
  msixEn : Bool
  intDis : Bool
  ridx : BitVec 4
  rings : Tab Ring
  istat : W32
  imask : W32
  flr : W16
  linkDown : W16
  msix : Tab MsixEnt
  pba : W32
  ring1Seq : W32
  fwd : List Fwd
  mtag : W32
  stream : Stream
  linkSlot : Option Nat
  deriving DecidableEq, Repr

/-! ### Boot and processor complex (R15-R23, R397-R419) -/

inductive BootSt where
  | off | backup | por | fuse | cal | greenware | verify | restore | metering | hold | failstop
  deriving DecidableEq, Repr

/-- GLB_ROLE.ROLE: 0 standalone, 1 manager, 2 worker, 3 no role in effect. -/
inductive Role where
  | standalone | manager | worker | noRole
  deriving DecidableEq, Repr

/-- What Idmen's fuses hold (R400 step 1): variant, initial approval slot states, fused-off tamper sources. -/
structure Fuses where
  variant : Byte
  slots : Byte
  tamperOff : Byte
  jtagLock : Bool
  deriving DecidableEq, Repr

/-- The image transfer (R404-R408) and the image store: header store and instruction SRAMs
in units of 16 bytes at image offsets. -/
structure Image where
  total : Option Nat
  units : Tab (List Byte)
  endAcc : Bool
  endWait : Option Waiter
  state : BitVec 2
  deriving DecidableEq, Repr

structure Boot where
  st : BootSt
  cause : BitVec 4
  holdCause : BitVec 2
  strap : BitVec 2
  role : Role
  img : Image
  fired : Bool
  id : W32
  lrel : W32
  arel : W32
  match_ : BitVec 3
  refusals : W16
  result : BitVec 4
  tfired : W32
  tmeter : W32
  waitRaised : Bool
  calDone : Bool
  greenSlot : Option Nat
  refusedSlot : Option Nat
  resetnLow : Bool
  abort : Bool
  deriving DecidableEq, Repr

structure Cpx where
  fwRefused : W16
  restarts : BitVec 4
  acp1 : Bool
  acp0 : Bool
  lcp : Bool
  deriving DecidableEq, Repr

/-! ### The Wheel (R32-R59) -/

/-- The Wheel's configuration registers. -/
structure WhlRegs where
  cfg : W32
  reflist : W32
  ofs01 : W32
  ofs23 : W32
  vnom : W32
  synccfg : W32
  bcfg : W32
  deriving DecidableEq, Repr

/-- Qualification of one reference entry (R35, R41): `lastPer` the period of the last full cycle, `since` the slot of its
qualification, `cross` and `rise` the instants at the balls, in slot clocks, of its last zero crossing and of its last
positive-going one (R36). -/
structure RefEnt where
  qual : Bool
  good : Nat
  bad : Nat
  badPer : Nat
  lastPer : Nat
  since : Nat
  cross : Option Nat
  rise : Option Nat
  deriving DecidableEq, Repr

/-- One angle-action entry (R46, R47); `adv` is the advance of its firing position, in wheel units. -/
structure AngEnt where
  turn : BitVec 40
  angle : W16
  every : Bool
  en : Bool
  value : Bool
  kind : BitVec 3
  target : BitVec 5
  adv : Nat
  deriving DecidableEq, Repr

/-- One RTC-action entry (R49, R50). -/
structure RtcEnt where
  sec : W32
  frac : W16
  period : W32
  periodic : Bool
  en : Bool
  clockSet : Bool
  k : Nat
  deriving DecidableEq, Repr

/-- A pending SYNC (R55, R56): the turn at whose start it executes (none before its beacon is known, or for SYNCIN on
a standalone chip), the slot clock at which a standalone SYNCIN executes, the flagged turns still to be sent. -/
structure SyncReq where
  turn : Option (BitVec 40)
  slot : Option Nat
  asked : Nat
  flagged : Nat
  deriving DecidableEq, Repr

/-- The Wheel (R32-R59). `qlog` holds the stamp quality of past instants, newest first: an entry (t, q) says that the
quality was q up to slot clock t (R44). -/
structure Whl where
  pos : W64
  rem : Nat
  run : Bool
  freq : W32
  delta : W32
  prevDelta : W32
  u : BitVec 63
  regs : WhlRegs
  next : WhlRegs
  pherr : W32
  active : BitVec 2
  selected : Bool
  nolock : Bool
  slew : Bool
  hold : Bool
  lock : Bool
  goodTurns : Nat
  badTurns : Nat
  refs : Tab RefEnt
  heldFreq : W32
  coast : Bool
  lposLo : W32
  lposHi : W32
  lsec : W32
  lfrac : W16
  sync : Option SyncReq
  merged : Byte
  syncCount : W16
  aidx : BitVec 6
  ang : Tab AngEnt
  amiss : W64
  ridx : BitVec 5
  rtcAct : Tab RtcEnt
  rmiss : W32
  bRejects : Nat
  bMissed : Nat
  bGood : Nat
  bLast : BitVec 40
  syncMissTurn : Option (BitVec 40)
  qlog : List (Nat × W16)
  deriving DecidableEq, Repr

/-! ### Faults (R462-R481) -/

inductive Cls where
  | corrected | notice | severe | grave
  deriving DecidableEq, Repr

/-- A window of R468 or a resolution span of R466: start slot and the N and W in force when it opened. -/
structure Win where
  start : Nat
  n : Byte
  w : Byte
  deriving DecidableEq, Repr

/-- One fault source (R462, R466, R468). -/
structure SrcSt where
  raises : W16
  first : W64
  last : W64
  win : Option Win
  count : Byte
  esc : Bool
  severe : Option W64
  span : Option Win
  deriving DecidableEq, Repr

/-- A running grace timer (R467). -/
structure Grace where
  src : Nat
  start : Nat
  ms : Nat
  deriving DecidableEq, Repr

/-- One block's fault state. -/
structure BlkFlt where
  fstat : W32
  flive : W32
  fmask : W32
  esc : W16
  grace : W16
  run : Option Grace
  srcs : Tab SrcSt
  deriving DecidableEq, Repr

/-- How far a fail-stop has come (R475). -/
inductive FsPhase where
  | none | begun | lastGasp | safe
  deriving DecidableEq, Repr

structure Flt where
  blk : Tab BlkFlt
  reason : W32
  prev : W32
  fsTick : W64
  kind : Cls
  phase : FsPhase
  wroteLg : Bool
  remembered : Option (BitVec 4)
  bidx : BitVec 5
  sidx : BitVec 5
  tickHi : W32
  fsTickHi : W32
  firstHi : W32
  lastHi : W32
  seq : W32
  deriving DecidableEq, Repr

/-! ### Coil (R366-R396) -/

/-- A Coil port (R366-R372): in sync, LFAIL received, wrapped, transmitter on, healed and waiting to unwrap at the next
beacon, in sync at least once, invalid characters, link delay in 1/16 ns and its last measurements, t1 of a request. -/
structure Port where
  sync : Bool
  lfail : Bool
  wrap : Bool
  tx : Bool
  healed : Bool
  seen : Bool
  errors : W16
  delay : Option (BitVec 24)
  meas : List Nat
  t1 : Option W64
  deriving DecidableEq, Repr

/-- A sender's session and frame counter, compared session first (R386). -/
structure Ctr where
  session : W32
  ctr : W64
  deriving DecidableEq, Repr

/-- A position of a manager's ring (R378, R389, R393). -/
structure WEnt where
  ident : W64
  state : BitVec 3
  ccw : Bool
  d : W32
  ldly : W32
  rtcOfs : W32
  reason : W32
  chal : List Byte
  last : Option Ctr
  heard : Nat
  credR : Nat
  credB : Nat
  newest : Tab W32
  lastTrim : Option Nat
  lastOfs : W32
  trimVal : Int
  deriving DecidableEq, Repr

/-- A record being joined from segments (R375). -/
structure Join where
  ring : Nat
  pos : Nat
  host : Nat
  seq : W32
  parts : List (Nat × List Byte)
  total : Option Nat
  start : Nat
  deriving DecidableEq, Repr

/-- One ring of a manager. -/
structure CRing where
  cfg : W32
  enumerating : Bool
  enumWaits : List Waiter
  enumStart : Nat
  found : BitVec 7
  down : List Nat
  split : Bool
  brk : BitVec 7
  hellos : List Hello
  refused : List W64
  table : Tab W64
  ents : Tab WEnt
  lastCast : Option Nat
  renumber : Bool
  deriving DecidableEq, Repr

/-- A report or bulk frame a worker has sent and not had acknowledged (R388). -/
structure SentRep where
  ctr : W64
  payload : List Byte
  at_ : Nat
  recs : List (Nat × W32)
  deriving DecidableEq, Repr

/-- The worker's side of its ring. -/
structure WSide where
  ring : BitVec 2
  pos : BitVec 7
  enumerated : Bool
  ccw : Bool
  d : W32
  dCw : Option W32
  dCcw : Option W32
  bCw : Option (BitVec 40)
  bCcw : Option (BitVec 40)
  hopCw : Byte
  hopCcw : Byte
  chal : List Byte
  down : Option Ctr
  rtcOfs : List Int
  credR : Nat
  credB : Nat
  report : List (Nat × QRec)
  bulk : List (Nat × QRec)
  sent : List SentRep
  ownCtr : W64
  bulkOff : Nat
  dnUses : Nat
  deriving DecidableEq, Repr

structure Coil where
  ports : Tab Port
  rings : Tab CRing
  w : WSide
  widxRing : BitVec 2
  widxPos : BitVec 7
  replay : W16
  tagFail : W16
  crc : W16
  joins : List Join
  ownCtr : W64
  deriving DecidableEq, Repr

/-! ### Kiln store (R279-R312) -/

/-- Tariff-register set record of a point (R228, R244): tariff × quantity registers, the reference totals it was formed
with, the tariff then in force, and the RTC seconds of its write. -/
structure TarSet where
  regs : List (List Nat)
  totals : List Nat
  tariff : Nat
  sec : Nat
  deriving DecidableEq, Repr

/-- Credit of a point (R252, R254): C, r, credit state, EC_ACTIVE, REMOTE_OFF and its FORCE, last token serial, the
A+ and A− counts and the tariff of its last debit, a confirmed reconnection (R261), the first deferral noted (R260), and
a credit disconnection still to be reconnected after PREPAY was cleared (R274). -/
structure CredSt where
  c : Int
  r : Nat
  st : BitVec 3
  ec : Bool
  remoteOff : Bool
  force : Bool
  serial : Option W64
  refPos : Nat
  refNeg : Nat
  refTar : Nat
  confirm : Bool
  deferred : Bool
  recon : Bool
  deriving DecidableEq, Repr

/-- A demand maximum (R235): value and the stamp of its interval's end. -/
structure DMax where
  value : W32
  sec : W32
  deriving DecidableEq, Repr

/-- Interval state of a point (R233-R235): open second and counts, flags of its turns, subintervals' energies for the
sliding window (newest first: A+, A−, S+), maxima by tariff and quantity, and the flags of the snapshot period (R240). -/
structure IntSt where
  open_ : Option Nat
  openTot : List Nat
  flags : W16
  hist : List (List Nat)
  maxima : Tab DMax
  snap : W16
  deriving DecidableEq, Repr

/-- Self-calibration record (R217): the deltas of the 332 slots, the count, the stamp and USED of the last accepted
calibration. -/
structure CalRec where
  deltas : List (Int × Int)
  count : W32
  sec : W32
  frac : W16
  used : W16
  deriving DecidableEq, Repr

/-- What a Kiln record holds: a configuration word, raw payload bytes in the layout of its rule, or the named state. -/
inductive NvVal where
  | word (w : W32)
  | bytes (b : List Byte)
  | nat (n : Nat)
  | tariff (t : TarSet)
  | credit (c : CredSt)
  | interval (i : IntSt)
  | selfcal (c : CalRec)
  | table (t : Tab W64)
  | trfState (last : W16) (armed : Option W32) (active : Bool) (act : Option W32)
  deriving DecidableEq, Repr

/-- One copy of a Kiln record (R288): content, sequence, and whether its check fails or a double-bit error lies in it. -/
structure NvSlot where
  val : NvVal
  seq : W32
  bad : Bool
  deriving DecidableEq, Repr

/-- What a commit group writes (R286, R524): a copy of a record, several of the Saggar's (tag 0 a rewrap, 1 and 2 the
two groups of a change, 3 a key load; R432, R433, R438), a mark of a calendar image copy, entries of one. -/
inductive GroupAct where
  | record (key : Nat) (copy : Nat) (val : NvVal) (seq : W32)
  | recs (tag : Nat) (l : List (Nat × Nat × NvVal × W32))
  | mark (img : Nat) (copy : Nat) (dirty : Bool)
  | marks (img : Nat)
  | entries (img : Nat) (copy : Nat) (ents : List (Nat × List Byte))
  deriving DecidableEq, Repr

/-- What comes into force once the record of a group is written: a credit token of a point (R256), a host's grant of
emergency credit (R257), the retirement of a shadow (R76), the trims of a calibration, with the new deltas of the accepted
modulators (R217), the inactive level of a CF output that is enabled (R165). -/
inductive GroupEff where
  | token (p : Nat) (tok : List Byte)
  | grant (p : Nat)
  | retire (b : Nat)
  | trims (ms : List Nat) (deltas : List (Nat × Int × Int))
  | cf (n : Nat)
  deriving DecidableEq, Repr

/-- A commit group: what it writes, its pages, whether the Saggar writes it, the request that completes when its
step 3 ends (R286), the boundary, step and point of R242 that it belongs to, and what comes into force with it. -/
structure Group where
  act : GroupAct
  pages : Nat
  guard_ : Bool
  waiter : Option (Waiter × W16)
  bnd : Option (Nat × Nat × Nat)
  eff : Option GroupEff := none
  deriving DecidableEq, Repr

/-- The seal and content of a last-gasp area (R295, R296). -/
structure LgArea where
  cleared : Bool
  session : W32
  seq : W32
  used : Nat
  stamp : Stamp
  cause : Byte
  bstep : Nat
  bpoint : W16
  bsec : W32
  tariffs : W64
  held : Nat
  lost : W16
  mirror : W32
  elapsed : W16
  totals : Tab (List Nat)
  credit : Tab CredSt
  prepay : List Nat
  second : Tab (List Byte)
  log : List Rec
  btotals : Tab (List Nat)
  deriving DecidableEq, Repr

/-- A running last gasp (R294): cause, instant t0, pages of steps 4 to 6 still to write (none before assembly), and
the content assembled. -/
structure LgRun where
  cause : Byte
  t0 : Nat
  left : Option Nat
  area : LgArea
  deriving DecidableEq, Repr

structure Nvs where
  prot : BitVec 2
  recs : Tab NvSlot
  images : Tab (List Byte)
  dirty : Tab Bool
  spread : Tab (List (Option W48))
  spreadDue : Tab (List Nat)
  log : Tab Rec
  logBad : List Nat
  logHead : W32
  logQueue : List Rec
  logSram : List Rec
  mirror : W32
  gap : W16
  logLost : W16
  groups : List Group
  gstep : Nat
  gleft : Nat
  journal : Option Group
  journalBad : Bool
  nGroups : W16
  bdone : Option (Nat × Nat × Nat)
  refused : W16
  session : W32
  ready : Bool
  warn : Bool
  inhibit : Bool
  lg : Option LgRun
  lgDone : Bool
  lga : Option LgArea
  lgb : Option LgArea
  lgCurrent : Bool
  lgTorn : Bool
  lgAreaUsed : Bool
  lgBoundary : Bool
  lgCause : BitVec 2
  lgElapsed : W16
  corr : W16
  uncorr : W16
  scrubPage : BitVec 15
  passes : W16
  replayed : Bool
  rebuilt : W16
  deriving DecidableEq, Repr

/-! ### RTC and backup domain (R313-R333) -/

/-- A kept commit of the backup domain (R322): mode, old time and step in 2^-16 s. -/
structure KeptSet where
  abs : Bool
  oldS : Nat
  oldFrac : W16
  newS : Nat
  step : Int
  flags : Byte
  deriving DecidableEq, Repr

/-- A staged commit waiting for its tick (R322). -/
structure Staged where
  abs : Bool
  w : Option Waiter
  go : Bool
  deriving DecidableEq, Repr

/-- A requester's shadow set (R320): the captured S and fraction, and the slot of the capture. -/
structure Shadow where
  s : Nat
  frac : W16
  at_ : Nat
  deriving DecidableEq, Repr

/-- An event-FIFO entry (R329, R330), with the wheel stamp it latched. -/
structure EvEnt where
  sec : W32
  frac : W16
  input : Nat
  rising : Bool
  backup : Bool
  invalid : Bool
  wrap : Bool
  wheel : W64
  wqual : W16
  deriving DecidableEq, Repr

structure Rtc where
  s : Nat
  pre : BitVec 15
  sub : Nat
  invalid : Bool
  wrap : Bool
  wrapPend : Bool
  setPend : Bool
  kept : Option KeptSet
  bkpReset : Bool
  resetSeen : Bool
  vbatLow : Bool
  oscRun : Bool
  oscStopped : Bool
  oscRan : Bool
  badDate : Bool
  cmode : Bool
  stage0 : W32
  stage1 : W32
  stage2 : W32
  ofs : W64
  staged : Option Staged
  trim : BitVec 11
  comp : BitVec 11
  a : Int
  winTick : Nat
  adjDone : Int
  edges : Nat
  jumps : List (Nat × Int)
  held : Bool
  tcomp : W32
  sqw : W32
  sqwLevel : Bool
  evcfg : W32
  evdeb : W32
  evLevel : Byte
  fifo : List EvEnt
  dropped : Byte
  shadows : Tab Shadow
  inReset : Bool
  onVbat : Bool
  deriving DecidableEq, Repr

/-! ### Analogue front end (R60-R88) -/

inductive ShSt where
  | rotate | selfcheck | reconnect | fade | substituted | retired | paused
  deriving DecidableEq, Repr

/-- A shadow modulator (R73-R79). `turn` counts turns of R75, `ok` tells that no level
has failed, `pend` that a suspect declared at a stuck detection waits for turn 1, `resume` the channel to return to
after PAUSED, `skip` the turn a trim step fell in, `prev` the channel and the count of the dwell before, whose last turn
is judged once its samples are whole. `lvlAt`, `lvlCnt` and `lvlSum` are the slot at which the present level of the
self-check began, the fine samples since, and the sum of those after the first 48 (R75 step 4). -/
structure ShadowMod where
  st : ShSt
  mirror : BitVec 4
  dwell : BitVec 4
  disagree : BitVec 3
  subst : BitVec 4
  turn : Nat
  ok : Bool
  pend : Bool
  resume : BitVec 4
  skip : Option (BitVec 40)
  prev : Option (BitVec 4 × BitVec 3)
  lvlAt : Nat
  lvlCnt : Nat
  lvlSum : Int
  deriving DecidableEq, Repr

/-- An auxiliary multiplexer (R65-R67): `n` counts the fine samples of the present dwell. -/
structure AuxMux where
  cur : BitVec 3
  settle : Bool
  settleAt : Nat
  sum : Int
  cnt : Nat
  ovr : Bool
  cal : Bool
  lastN : Int
  n : Nat
  deriving DecidableEq, Repr

/-- The trip configuration (R81-R83, R87). -/
structure TripCfg where
  cfg : Tab W32
  map : Tab W16
  latch : W16
  deriving DecidableEq, Repr

/-- The channel configuration taken from the channel records (R87, R139). -/
structure ChanCfg where
  vcfg : W32
  icfg : List W32
  sens : List W32
  deriving DecidableEq, Repr

structure Afe where
  chan : ChanCfg
  chanNext : ChanCfg
  axcfg : W32
  axscan0 : W32
  axscan1 : W32
  axNext : Option (W32 × W32 × W32)
  mux : Tab AuxMux
  mpllLock : Bool
  ringSrc : Bool
  hold : Bool
  port : Bool
  everLocked : Bool
  rclk : BitVec 2
  iso : BitVec 12
  ovr : BitVec 65
  stuck : BitVec 65
  stuckWait : List Nat
  shcfg : W32
  sh : Tab ShadowMod
  tripidx : BitVec 6
  trip : TripCfg
  tripNext : Option TripCfg
  asserted : W48
  src : W48
  latched : W16
  level : W16
  stretch : W16
  vrefOk : Bool
  deriving DecidableEq, Repr

/-! ### Decimation (R89-R115) -/

/-- A sample on its way: value and flags OVR, SETTLING, CAL, FADING, DISABLED, STALE in bits 0 to 5 (R103, R149). -/
structure Smp where
  v : Int
  fl : BitVec 6
  deriving DecidableEq, Repr

/-- One stream's decimator (R91-R96, R103): integrators and combs, filter lines (newest first), counts since the grid
origin, the coarse RMS block, disturbances and the newest fine samples. `fadeK` and `tapK` count the fine and the tap
samples that a running fade of its pair has reached (R110), `under` tells that the newest fine sample of an auxiliary
stream lies below AXCOM (R65). -/
structure Strm where
  a1 : W16
  a2 : W16
  a3 : W16
  c1 : W16
  c2 : W16
  c3 : W16
  q1 : Byte
  q2 : Byte
  k1 : Byte
  k2 : Byte
  nC : Nat
  forced : Nat
  aLine : List Int
  l1 : List Int
  l2 : List Int
  l3 : List Int
  l4 : List Int
  rmsL : Nat
  rmsCnt : Nat
  rmsN : Nat
  rmsS : Nat
  rmsFl : BitVec 6
  rms : W32
  settle : List Nat
  cal : List (Nat × Option Nat)
  ovrAt : List Nat
  last : Bool
  fine : List Smp
  fineN : Int
  fadeK : Nat
  tapK : Nat
  under : Bool
  deriving DecidableEq, Repr

/-- A pair of coefficient banks (R108-R113): contents, stored set, delay and load CRC of each bank, the active one (B when
true), and the states of R111; `at_` is the instant of the turn boundary at which the running fade started. -/
structure Pair where
  coefA : List Int
  coefB : List Int
  setA : BitVec 4
  setB : BitVec 4
  dlyA : BitVec 24
  dlyB : BitVec 24
  active : Bool
  armed : Bool
  fading : Bool
  deferred : Bool
  deferAt : Nat
  at_ : Int
  queued : Option (Option (List Int × BitVec 4 × BitVec 24))
  crcA : W32
  crcB : W32
  deriving DecidableEq, Repr

/-- A tap entry's window (R176): index of its first sample and samples so far, newest first; and
whether a voltage event was open in the window (R181). -/
structure TapWin where
  first : Int
  smps : List Smp
  settleAt : Option Nat
  ev : Bool
  deriving DecidableEq, Repr

structure Dec where
  run : Bool
  gSlot : Nat
  gridSync : Bool
  shift : BitVec 11
  rephase : Byte
  inphase : Byte
  strm : Tab Strm
  pairs : Tab Pair
  fades : W16
  replaced : W16
  crmscfg : W32
  tapsel : List W32
  tapNext : Option (List W32)
  tap : Tab TapWin
  pfidx : BitVec 6
  crmsidx : BitVec 7
  deriving DecidableEq, Repr

/-! ### Alignment, points and pulses (R116-R168) -/

/-- A channel record (R139). -/
structure ChanRec where
  setup : Byte
  adj : Int
  fs : W32
  gcal : W32
  deriving DecidableEq, Repr

/-- Rogowski integrator (R143, R145): state in 2^-24 units, the last wheel sample, turns since its start, and the sum
of y over the first turn. -/
structure Rog where
  y : Int
  w1 : Int
  turns : Nat
  n : Nat
  sum : Int
  deriving DecidableEq, Repr

/-- A stream's wheel samples (R123, R126): those of the present turn and the last whole turn, before and after
calibration, each newest first; the mode of the samples (0 converted, 1 held, 2 fading to the shadow and STALE), the
turn at whose first sample a mode begins, and the held turn, oldest sample first (R75, R77, R213). `fadeK` counts the
aligned samples that the running fade of the stream's phase pair has reached (R110). `curB`, `prevB` and `rogB` are the
calibrated samples and the Rogowski state of datapath B (R155). -/
structure WStream where
  al : List Smp
  raw : List Smp
  rawPrev : List Smp
  cur : List Smp
  prev : List Smp
  mode : Nat
  sw : Option (BitVec 40 × Nat)
  held : List Smp
  rog : Rog
  fadeK : Nat
  curB : List Smp
  prevB : List Smp
  rogB : Rog
  deriving DecidableEq, Repr

/-- A leg of a point (R136, R137). -/
structure Leg where
  v : Nat
  i : Nat
  neg : Bool
  deriving DecidableEq, Repr

/-- A point definition (R137). -/
structure PDef where
  legs : List Leg
  opts : Byte
  cal : Nat
  istart : W32
  screep : W32
  digits : Nat
  exp : Nat
  check : W32
  deriving DecidableEq, Repr

/-- Sums of a leg over a second for the leg record (R160): duration-weighted squares and the last angles. -/
structure LegSum where
  v2 : Nat
  i2 : Nat
  f2 : Nat
  va : W16
  ia : W16
  deriving DecidableEq, Repr

/-- The open RTC second of a point (R157, R158). -/
structure SecSum where
  turns : Nat
  dur : Nat
  yp : Int
  yq : Int
  ys : Int
  noLoad : Nat
  stale : Nat
  flags : W16
  legs : List LegSum
  deriving DecidableEq, Repr

/-- A metering point: the definition as datapaths A and B hold it (R155) and the one that waits for a turn boundary; the
first turn of the definition in force with what stood before it, for the turns that are still to be accounted (R138); the
check field of the last definition that took effect; generation, both accumulators (R151, R155), the last turn's
increments, flags and quadrant, and its open second. -/
structure Pt where
  dfn : Option PDef
  dfnB : Option PDef
  next : Option PDef
  was : Option (BitVec 40 × Option PDef × Option PDef × Byte)
  chk : W32
  gen : Byte
  accA : List Nat
  accB : List Nat
  inc : List Nat
  eQ : Int
  eS : Nat
  accd : Bool
  noLoad : Bool
  tfl : BitVec 6
  hold : Bool
  quad : BitVec 2
  sec : SecSum
  deriving DecidableEq, Repr

/-- A CF output (R162-R165): its record as a configuration and constant word, the next one, accumulator, pending
count, the pulse generator, and the slots of the last pulse. -/
structure Cf where
  cfg : W32
  const : W32
  next : Option (W32 × W32)
  live : Bool
  acc : Nat
  pend : Nat
  gen : Option (BitVec 4)
  eT : Nat
  high : Bool
  started : Option Nat
  lastHigh : Nat
  half : Bool
  deriving DecidableEq, Repr

/-- One turn of the resampler's schedule (R122, R123): turn count, U_T, Δ_T, HOLD or NOLOCK in the turn, and
whether accumulation ran when it began (R153). -/
structure RsTurn where
  turn : BitVec 40
  u : BitVec 63
  delta : W32
  hold : Bool
  live : Bool
  deriving DecidableEq, Repr


structure Pnt where
  run : Bool
  frozen : Bool
  frozenAt : Stamp
  frozenSec : Tab (List Byte)
  frozenOut : List Rec
  resumed : Bool
  chan : Tab ChanRec
  chanB : Tab ChanRec
  chanWas : Tab (BitVec 40 × ChanRec × ChanRec)
  chanNext : Tab ChanRec
  rot : W32
  rotNext : Option W32
  alN : Int
  rs : List RsTurn
  rsK : Nat
  lastTurn : BitVec 40
  lastK : BitVec 8
  holdAge : Nat
  turnDone : Option RsTurn
  doneTurn : Option RsTurn
  ws : Tab WStream
  pts : Tab Pt
  cf : Tab Cf
  seq : W32
  second : Option Nat
  secEnd : Option Stamp
  cmpOk : Bool
  cmpCount : W16
  alidx : BitVec 6
  pidx : Byte
  chidx : BitVec 6
  cfidx : BitVec 3
  axidx : BitVec 4
  ax : Tab W32
  deriving DecidableEq, Repr

/-! ### Harmonics, voltage events, capture (R169-R200) -/

/-- A capture request (R194). -/
structure CapReq where
  en : Bool
  rearm : Bool
  source : BitVec 2
  trigger : BitVec 3
  tmask : W16
  cmask : W64
  pre : W32
  post : W32
  angle : W16
  deriving DecidableEq, Repr

/-- The capture SRAM (R195-R198): 0 IDLE, 1 ARMED, 2 FILLING, 3 DELIVERING; samples per channel bit with their index
and word, newest first; the trigger index and its stamp; the last index before a truncation; segments to deliver. -/
structure Cap where
  state : BitVec 2
  owner : BitVec 3
  ch : Tab (List (Int × Nat))
  trig : Int
  stamp : Stamp
  stop : Option Int
  armTurn : BitVec 40
  number : W32
  segs : List W32
  holds : List Int
  missed : Byte
  busy : Byte
  deriving DecidableEq, Repr

/-- An aggregate (R177, R178): sum and number of included members of each value, members, flags, start, turns and duration
for the set record, and the end stamp of the last member. -/
structure Agg where
  vals : List (Int × Nat)
  members : Nat
  flags : W16
  start : W32
  turns : Nat
  dur : Nat
  endSt : Stamp
  deriving DecidableEq, Repr

/-- An open interval of R177: its number where intervals are numbered by time, members so far, and INCOMPLETE. -/
structure Span where
  idx : Nat
  members : Nat
  incomplete : Bool
  deriving DecidableEq, Repr

/-- The harmonic window in progress (R169, R170): its turns so far, HOLD, whether a voltage event was open in it, its
duration, start stamp, and each channel's calibrated samples (newest first) and flags. -/
structure HWin where
  active : Bool
  turns : Nat
  hold : Bool
  event : Bool
  short : Bool
  dur : Nat
  start : Stamp
  stop : Stamp
  at_ : Int
  xs : Tab (List Int)
  fl : Tab (BitVec 6)
  deriving DecidableEq, Repr

/-- An open voltage event (R191-R193). -/
structure VEvent where
  start : Stamp
  ext : Nat
  ch : Nat
  halves : Nat
  dur : Nat
  flags : W16
  deriving DecidableEq, Repr

structure Pq where
  cfg : W32
  udin : List W32
  thr0 : W32
  thr1 : W32
  next : Option (W32 × List W32 × W32 × W32)
  frozen : Bool
  winCount : W32
  win : HWin
  winOn : Bool
  evSeen : Bool
  evCfg : Option (BitVec 40 × W32 × List W32 × W32 × W32)
  spans : Tab Span
  aggs : Tab Agg
  sspans : Tab Span
  saggs : Tab Agg
  subs : Tab SubEnt
  subWas : Tab (Nat × SubEnt)
  subIdx : BitVec 4
  ringRate : Tab Nat
  ringSubs : Tab SubEnt
  reqs : Tab CapReq
  cap : Cap
  capIdx : BitVec 3
  seq : W32
  dropAgg : W16
  dropShort : W16
  dropSpan : Option Nat
  hc : Tab W32
  hcIdx : BitVec 4
  ev : Tab VEvent
  cand : Tab (Int × W64)
  newest : Tab (Int × Nat)
  deriving DecidableEq, Repr

/-! ### Self-calibration (R201-R221) -/

inductive CalSt where
  | idle | powerup | waitB0 | measure | gap | waitWrite | release
  deriving DecidableEq, Repr

/-- Last measurement of a modulator (R208, CAL_M registers), its applied codes, and the attempt in progress (R207): the
level that runs (0 zero, 1 +REF, 2 −REF, 3 all measured), its fine samples so far, and the sums of the measured ones. -/
structure CalMod where
  o : Int
  g : Int
  z : Int
  lin : Nat
  dg : Int
  noise : Nat
  result : BitVec 4
  newO : Int
  newG : Int
  ok : Bool
  lvl : Nat
  cnt : Nat
  sz : Int
  szz : Nat
  sp : Int
  sn : Int
  deriving DecidableEq, Repr

/-- A group under power-up or bank calibration: attempt in progress, finished, modulators still to measure,
a level restarted, the gap before a retry, and the slot at which the present attempt's zero level began. -/
structure CalGrp where
  attempt : Nat
  done : Bool
  todo : List Nat
  restarted : Bool
  gap : Bool
  at_ : Nat
  deriving DecidableEq, Repr

structure Cal where
  st : CalSt
  pending : Bool
  group : BitVec 3
  attempt : BitVec 2
  held : Bool
  isol : Bool
  count : W32
  sec : W32
  frac : W16
  used : W16
  meas : W16
  rej : BitVec 65
  mods : Tab CalMod
  deltas : Tab (Int × Int)
  trimDue : List Nat
  grps : Tab CalGrp
  waiter : Option Waiter
  wstamp : Option Stamp
  rejected : Bool
  midx : BitVec 7
  timer : Bool
  deriving DecidableEq, Repr

/-! ### Tariffs (R222-R251) -/

inductive OptSt where
  | idle | ident | option | readout
  deriving DecidableEq, Repr

/-- The optical session (R246-R249): state, chip addressed, agreed rate, stamp of the request's LF and its slot,
the character Z that the device offers. -/
structure Opt where
  st : OptSt
  ring : Nat
  pos : Nat
  rate : Nat
  start : Stamp
  at_ : Nat
  z : BitVec 3
  deriving DecidableEq, Repr

structure Trf where
  img : Tab (List Byte)
  active : Bool
  armed : Option W32
  lastAct : Option W32
  tariff : List Nat
  last : W16
  run : Bool
  catchup : Bool
  doneTo : Nat
  bnd : Option (Nat × Tab (List Nat))
  regs : Tab (List (List Nat))
  ints : Tab IntSt
  lastEnd : Stamp
  lastWrite : Nat
  snapSeq : W32
  intSeq : W32
  optSeq : W32
  ctlPend : List (Option Nat × List (Nat × List Byte))
  maxbaud : BitVec 3
  optEn : Bool
  opt : Opt
  optSessions : W16
  optDrop : Byte
  calIdx : BitVec 4
  deriving DecidableEq, Repr

/-! ### Credit and outputs (R252-R278) -/

/-- A point's credit configuration (R274). -/
structure CreditCfg where
  prepay : Bool
  recon : BitVec 2
  ecreqEn : Bool
  discEn : Bool
  disc : BitVec 4
  ball : BitVec 5
  low : W32
  rc : W32
  ecAmt : W32
  deriving DecidableEq, Repr

/-- A CTL output's configuration (R265). -/
structure CtlCfg where
  en : Bool
  pol : Bool
  ball : BitVec 5
  kind : BitVec 2
  cal : BitVec 4
  angOff : W16
  angOn : W16
  delay : W32
  safe : BitVec 2
  minHold : W16
  period : W32
  defDuty : W16
  deriving DecidableEq, Repr

/-- A CTL output: configuration, the next one, logical state, pending change, host override (state or duty, and the
slot at which it expires), slot of the last firing (for a PWM output the start of its period), control value, duty in
force, pulse generator, PWM restart, and whether the pending change is a credit decision. -/
structure Ctl where
  cfg : CtlCfg
  next : Option CtlCfg
  state : Bool
  pend : Option Bool
  ovr : Option (Nat × Option Nat)
  lastFire : Option Nat
  block : Bool
  calDuty : Nat
  duty : Nat
  gen : Option (BitVec 4)
  restart : Bool
  credit : Bool
  deriving DecidableEq, Repr

structure Crd where
  pcfg : Tab CreditCfg
  cred : Tab CredSt
  ctl : Tab Ctl
  friendly : W16
  tokAcc : W16
  tokRef : W16
  pidx : Byte
  ctlidx : BitVec 4
  credHi : W32
  serHi : W32
  deriving DecidableEq, Repr

/-! ### Balls (R484-R496) -/

/-- A function ball: function code and owner (R489), whether the chip drives it and to which level, slew setting. -/
structure Ball where
  func : BitVec 4
  owner : Nat
  drive : Bool
  lvl : Bool
  slew : BitVec 2
  deriving DecidableEq, Repr

structure Pin where
  fbidx : BitVec 5
  fb : Tab Ball
  tripSlew : W32
  gpioDir : W32
  gpioOut : W32
  refused : W32
  mism0 : W32
  mism1 : W32
  evout : List W32
  failn : Bool
  syncout : Bool
  clkreq : Bool
  jtag : Jtag
  deriving DecidableEq, Repr

/-! ### Saggar (R420-R447) -/

/-- A key held as two shares: the key XORed with a mask, and the mask (R431). -/
structure Share where
  v : List Byte
  m : List Byte
  deriving DecidableEq, Repr

/-- One copy of the root secret in battery-backed RAM (R428); `ok` tells that its CRC matches. -/
structure RootCopy where
  share : Share
  gen : W32
  kcv : List Byte
  ok : Bool
  deriving DecidableEq, Repr

/-- A key slot (R426, R433, R444): state 0 EMPTY, 1 VALID, 2 LOST, 3 DERIVED, its key, generation, and the key that
the next wedge of the slot takes over. -/
structure KSlot where
  st : BitVec 3
  key : Share
  gen : W32
  next : Option (Share × W32)
  deriving DecidableEq, Repr

/-- A Saggar request: who waits, the stamp of its acceptance (R440), its route (0 Ring 9 of this chip, 1 a KEY frame
under ring keys, 2 one under envelope keys), the target's global address, and the request from its byte 8 on. -/
structure SReq where
  w : Waiter
  stamp : Stamp
  route : Nat
  addr : Nat
  body : List Byte
  deriving DecidableEq, Repr

/-- A key operation that takes time (R432); a key load runs under the policy of its start (R438). -/
inductive KeyOp where
  | change (r : SReq)
  | load (r : SReq) (pol : Nat)
  | attest (r : SReq)
  | token (w : Waiter) (buf : List Byte)
  deriving DecidableEq, Repr

/-- A change record being applied (R438): the request, the payloads and states it leads to, the new root and its
KCV, the slot records it rewraps or erases, whether group one has been committed, and the masks of R445. -/
structure Change where
  r : SReq
  guard_ : List Byte
  appr : Byte
  root : Option (List Byte)
  rootErased : Bool
  slots : List (Nat × W32)
  erased : List (Nat × Nat)
  mask : Byte
  claim : Bool
  committed : Bool
  deriving DecidableEq, Repr

structure Sgr where
  ident : Bool
  keyed : Bool
  trngOk : Bool
  reqs : Nat
  rootA : RootCopy
  rootB : RootCopy
  slots : Tab KSlot
  cache : Tab (Share × Share)
  guard_ : List Byte
  appr : Byte
  ops : List KeyOp
  change : Option Change
  loads : List (SReq × Nat × Share × W32)
  loadCtr : W64
  envDown : W64
  envUp : W64
  seq : W32
  sidx : BitVec 6
  passes : W16
  maxWait : W16
  refAuth : W16
  refStale : W16
  dnMark : Nat
  upMark : W64
  deriving DecidableEq, Repr

/-! ### Tamper monitors (R448-R461) -/

/-- An entry of the backup tamper log (R458): its 16 bytes, and the wheel stamp and quality latched at the alarm in
the present session. -/
structure TLog where
  bytes : List Byte
  wheel : Option (W64 × W16)
  deriving DecidableEq, Repr

/-- A tamper source's filter (R451): the open window's start, its count, the alarms since POR, the start of a
hold-off, and the end of the last self-test (R459). -/
structure TSrc where
  win : Option Nat
  count : Byte
  alarms : W16
  hold : Option Nat
  lastBist : Option Nat
  deriving DecidableEq, Repr

/-- The tamper monitors: filters, alarms, backup settings of TP0 to TP3 (R450), mesh (R449), responses executed in the
present cycle (R456), log (R458), self-test (R459); `muted` from a power-fail warning to the end of POR (R448). -/
structure Tmp where
  srcs : Tab TSrc
  alarmed : Byte
  sidx : BitVec 3
  bkSet : List Byte
  lfsr : W64
  run : Bool
  failing : Byte
  track : BitVec 6
  union : Option (Nat × Byte)
  log : List TLog
  dropped : Byte
  drained : W16
  bistCount : Byte
  bistResult : BitVec 2
  bistActive : Bool
  bistAt : Nat
  bistSrc : BitVec 3
  bistSel : BitVec 3
  muted : Bool
  deriving DecidableEq, Repr

end Sys2Proof.Machine
end

