-- ==== Sys2Proof/Machine/Init.lean ====
section
/-!
DEFINITION. The reset values of every part of the state: the register tables' reset columns, and zero, empty or
absent where the manual names none (log entry 4).
-/
namespace Sys2Proof.Machine

/-- Stamp of all zeros. -/
def Stamp.zero : Stamp := ⟨0, 0, 0, 0⟩

namespace Init

/-- Fuses: a KQ6048-MX-T with approval slot 0 ENABLED and no tamper source fused off (log entry 3, DESIGN CHOICE). -/
def fuses : Fuses := ⟨0x01, 0x02, 0x00, false⟩

def image : Image := ⟨none, [], false, none, 0⟩

def boot : Boot where
  st := .por
  cause := 1
  holdCause := 0
  strap := 0
  role := .standalone
  img := image
  fired := false
  id := 0
  lrel := 0
  arel := 0
  match_ := 7
  refusals := 0
  result := 0xF
  tfired := 0
  tmeter := 0
  waitRaised := false
  calDone := false
  greenSlot := none
  refusedSlot := none
  resetnLow := false
  abort := false

def cpx : Cpx := ⟨0, 0, false, false, false⟩

def whlRegs : WhlRegs := ⟨0, 0x80, 0, 0, 0x4000, 0, 0⟩

def refEnt : RefEnt := ⟨false, 0, 0, 0, 0, 0, none, none⟩
def angEnt : AngEnt := ⟨0, 0, false, false, false, 0, 0, 0⟩
def rtcEnt : RtcEnt := ⟨0, 0, 0, false, false, false, 0⟩

def whl : Whl where
  pos := 0
  rem := 0
  run := false
  freq := 0x03200000
  delta := 0xA0000000
  prevDelta := 0xA0000000
  u := 0
  regs := whlRegs
  next := whlRegs
  pherr := 0
  active := 0
  selected := false
  nolock := true
  slew := false
  hold := true
  lock := false
  goodTurns := 0
  badTurns := 0
  refs := []
  heldFreq := 0x03200000
  coast := false
  lposLo := 0
  lposHi := 0
  lsec := 0
  lfrac := 0
  sync := none
  merged := 0
  syncCount := 0
  aidx := 0
  ang := []
  amiss := 0
  ridx := 0
  rtcAct := []
  rmiss := 0
  bRejects := 0
  bMissed := 0
  bGood := 0
  bLast := 0
  syncMissTurn := none
  qlog := []

def srcSt : SrcSt := ⟨0, 0, 0, none, 0, false, none, none⟩
def blkFlt : BlkFlt := ⟨0, 0, 0, 0x6100, 0x07D0, none, []⟩

def flt : Flt where
  blk := []
  reason := 0
  prev := 0
  fsTick := 0
  kind := .corrected
  phase := .none
  wroteLg := false
  remembered := none
  bidx := 1
  sidx := 0
  tickHi := 0
  fsTickHi := 0
  firstHi := 0
  lastHi := 0
  seq := 0

def ring : Ring where
  base := 0
  cmp := 0
  shd := 0
  en := false
  active := false
  dmaErr := false
  dbErr := false
  cfgErr := false
  coal := 0x064
  size := 4
  head := 0
  tail := 0
  fetched := 0
  acc := []
  bufs := []
  queue := []
  drop := 0
  dropSpan := none

def stream : Stream := ⟨false, 0, 0, 0, 0, 0, false, 0, [], [], none⟩

def hif : Hif where
  linkUp := false
  speed := false
  d3 := false
  perstLow := false
  msixEn := false
  intDis := false
  ridx := 0
  rings := []
  istat := 0
  imask := 0
  flr := 0
  linkDown := 0
  msix := []
  pba := 0
  ring1Seq := 0
  fwd := []
  mtag := 0
  stream := stream
  linkSlot := none

def port : Port := ⟨false, false, false, false, false, false, 0, none, [], none⟩
def cring : CRing := ⟨0, false, [], 0, 0, [], false, 0x7F, [], [], [], [], none, false⟩
def went : WEnt := ⟨0, 0, false, 0, 0, 0, 0, [], none, 0, 16384, 16384, [], none, 0, 0⟩

def wside : WSide where
  ring := 0
  pos := 0
  enumerated := false
  ccw := false
  d := 0
  dCw := none
  dCcw := none
  bCw := none
  bCcw := none
  hopCw := 0xFF
  hopCcw := 0xFF
  chal := []
  down := none
  rtcOfs := []
  credR := 16384
  credB := 16384
  report := []
  bulk := []
  sent := []
  ownCtr := 0
  bulkOff := 0
  dnUses := 0

def coil : Coil := ⟨[], [], wside, 0, 0, 0, 0, 0, [], 0⟩

def nvs : Nvs where
  prot := 0
  recs := []
  images := []
  dirty := []
  spread := []
  spreadDue := []
  log := []
  logBad := []
  logHead := 0
  logQueue := []
  logSram := []
  mirror := 0
  gap := 0
  logLost := 0
  groups := []
  gstep := 0
  gleft := 0
  journal := none
  journalBad := false
  nGroups := 0
  bdone := none
  refused := 0
  session := 0
  ready := false
  warn := false
  inhibit := false
  lg := none
  lgDone := false
  lga := none
  lgb := none
  lgCurrent := false
  lgTorn := false
  lgAreaUsed := false
  lgBoundary := false
  lgCause := 0
  lgElapsed := 0
  corr := 0
  uncorr := 0
  scrubPage := 0
  passes := 0
  replayed := false
  rebuilt := 0

def rtc : Rtc where
  s := 0
  pre := 0
  sub := 0
  invalid := true
  wrap := false
  wrapPend := false
  setPend := false
  kept := none
  bkpReset := false
  resetSeen := false
  vbatLow := false
  oscRun := true
  oscStopped := false
  oscRan := false
  badDate := false
  cmode := false
  stage0 := 0
  stage1 := 0
  stage2 := 0
  ofs := 0
  staged := none
  trim := 0
  comp := 0
  a := 0
  winTick := 0
  adjDone := 0
  edges := 0
  jumps := []
  held := false
  tcomp := 0
  sqw := 0
  sqwLevel := false
  evcfg := 0
  evdeb := 0
  evLevel := 0
  fifo := []
  dropped := 0
  shadows := []
  inReset := false
  onVbat := false

def chanCfg : ChanCfg := ⟨0x00000FFF, List.replicate 6 0x88888888, List.replicate 3 0⟩
def tripCfg : TripCfg := ⟨[], [], 0xFFFF⟩
def shadowMod : ShadowMod := ⟨.rotate, 0, 0, 0, 0, 0, true, false, 0, none, none, 0, 0, 0⟩
def auxMux : AuxMux := ⟨0, false, 0, 0, 0, false, false, 0, 0⟩

def afe : Afe where
  chan := chanCfg
  chanNext := chanCfg
  axcfg := 0
  axscan0 := 0x00600000
  axscan1 := 0x00600000
  axNext := none
  mux := []
  mpllLock := false
  ringSrc := false
  hold := false
  port := false
  everLocked := false
  rclk := 0
  iso := 0
  ovr := 0
  stuck := 0
  stuckWait := []
  shcfg := 0x040000A4
  sh := []
  tripidx := 0
  trip := tripCfg
  tripNext := none
  asserted := 0
  src := 0
  latched := 0
  level := 0
  stretch := 0
  vrefOk := true

def ball : Ball := ⟨0, 0, false, false, 2⟩
def pin : Pin := ⟨0, [], 0, 0, 0, 0, 0, 0, List.replicate 4 0x00010000, false, false, false, .idcode⟩

def strm : Strm := ⟨0, 0, 0, 0, 0, 0, 0, 0, 0, 0, 0, 0, [], [], [], [], [], 768, 0, 0, 0, 0, 0, [], [], [], false, [], -18, 0, 0, false⟩
def pair : Pair := ⟨[], [], 0, 0, 0x400000, 0x400000, false, false, false, false, 0, 0, none, crc32c [], crc32c []⟩
def dec : Dec := ⟨false, 0, false, 0, 0, 0, [], [], 0, 0, 3, [0, 0, 0], none, [], 0, 0⟩

def chanRec : ChanRec := ⟨0, 0, 0, 0x00400000⟩
def rog : Rog := ⟨0, 0, 0, 0, 0⟩
def wstream : WStream := ⟨[], [], [], [], [], 0, none, [], rog, 0, [], [], rog⟩
def secSum : SecSum := ⟨0, 0, 0, 0, 0, 0, 0, 0, []⟩
def pt : Pt := ⟨none, none, none, none, 0, 0, List.replicate 8 0, List.replicate 8 0, List.replicate 8 0, 0, 0, false, false, 0,
  false, 0, secSum⟩
def cf : Cf := ⟨0, 0, none, false, 0, 0, none, 0, false, none, 0, false⟩

def pnt : Pnt where
  run := false
  frozen := false
  frozenAt := Stamp.zero
  frozenSec := []
  frozenOut := []
  resumed := false
  chan := []
  chanB := []
  chanWas := []
  chanNext := []
  rot := 0
  rotNext := none
  alN := -22
  rs := []
  rsK := 0
  lastTurn := 0
  lastK := 0
  holdAge := 256
  turnDone := none
  doneTurn := none
  ws := []
  pts := []
  cf := []
  seq := 0
  second := none
  secEnd := none
  cmpOk := false
  cmpCount := 0
  alidx := 0
  pidx := 0
  chidx := 0
  cfidx := 0
  axidx := 0
  ax := []

def subEnt : SubEnt := ⟨false, 0, 0, 0, 0⟩
def capReq : CapReq := ⟨false, false, 0, 0, 0, 0, 0, 0, 0⟩
def cap : Cap := ⟨0, 0, [], 0, Stamp.zero, none, 0, 0, [], [], 0, 0⟩
def agg : Agg := ⟨[], 0, 0, 0, 0, 0, Stamp.zero⟩
def span : Span := ⟨0, 0, true⟩
def hwin : HWin := ⟨false, 0, false, false, false, 0, Stamp.zero, Stamp.zero, 0, [], []⟩

def pq : Pq where
  cfg := 0
  udin := List.replicate 4 0x00038270
  thr0 := 0x044C0384
  thr1 := 0x00140032
  next := none
  frozen := false
  winCount := 0
  win := hwin
  winOn := false
  evSeen := false
  evCfg := none
  spans := []
  aggs := []
  sspans := []
  saggs := []
  subs := []
  subWas := []
  subIdx := 0
  ringRate := []
  ringSubs := []
  reqs := []
  cap := cap
  capIdx := 0
  seq := 0
  dropAgg := 0
  dropShort := 0
  dropSpan := none
  hc := []
  hcIdx := 0
  ev := []
  cand := []
  newest := []

def calMod : CalMod := ⟨0, 2048, 0, 0, 0, 0, 0, 0, 0, false, 0, 0, 0, 0, 0, 0⟩
def calGrp : CalGrp := ⟨0, false, [], false, false, 0⟩
def cal : Cal := ⟨.idle, false, 0, 0, false, false, 0, 0, 0, 0, 0, 0, [], [], [], [], none, none, false, 0, false⟩

def ctlCfg : CtlCfg := ⟨false, false, 0, 0, 0, 0, 0, 0, 0, 0, 0, 0⟩
def creditCfg : CreditCfg := ⟨false, 0, false, false, 0, 0, 0, 0, 0⟩
def ctl : Ctl := ⟨ctlCfg, none, false, none, none, none, false, 0, 0, none, false, false⟩
def credSt : CredSt := ⟨0, 0, 0, false, false, false, none, 0, 0, 1, false, false, false⟩
def crd : Crd := ⟨[], [], [], 0, 0, 0, 0, 0, 0, 0⟩
def intSt : IntSt := ⟨none, List.replicate 8 0, 0, [], [], 0⟩

def trf : Trf where
  img := []
  active := false
  armed := none
  lastAct := none
  tariff := List.replicate 16 0
  last := 0
  run := false
  catchup := false
  doneTo := 0
  bnd := none
  regs := []
  ints := []
  lastEnd := Stamp.zero
  lastWrite := 0
  snapSeq := 0
  intSeq := 0
  optSeq := 0
  ctlPend := []
  maxbaud := 6
  optEn := false
  opt := ⟨.idle, 0, 0, 0, Stamp.zero, 0, 6⟩
  optSessions := 0
  optDrop := 0
  calIdx := 0

/-! Saggar and tamper monitors -/
def share : Share := ⟨[], []⟩
def rootCopy : RootCopy := ⟨share, 0, zeros 8, false⟩
def kslot : KSlot := ⟨0, share, 0, none⟩

/-- Fixed policy of a slot 0 to 8 of a chip in no particular role (R427). -/
def fixedPolicy : Nat → Nat
  | 0 => 0x45
  | 1 => 0x03
  | 2 => 0x41
  | 3 => 0x02
  | 7 => 0x84
  | 8 => 0x84
  | _ => 0

/-- The tamper item a chip leaves Idmen with (R454). -/
def tamperItem : List Byte :=
  [0x07, 1, 0x01, 0, 0x07, 4, 0x61, 0, 0x07, 1, 0x01, 0, 0x07, 1, 0x01, 0]
    ++ [0, 1, 0x01, 0, 0, 1, 0x01, 0, 0, 1, 0x01, 0, 0, 1, 0x01, 0]

/-- The guarded-settings payload a chip leaves Idmen with (R435): its identity number and fixed policies are placed
when FUSE derives them. -/
def guardPayload : List Byte :=
  zeros 24 ++ tamperItem ++ zeros 200 ++ (List.range 64).flatMap (fun s => le 4 (fixedPolicy s))

def sgr : Sgr where
  ident := false
  keyed := false
  trngOk := false
  reqs := 0
  rootA := rootCopy
  rootB := rootCopy
  slots := []
  cache := []
  guard_ := guardPayload
  appr := 0
  ops := []
  change := none
  loads := []
  loadCtr := 0
  envDown := 0
  envUp := 0
  seq := 0
  sidx := 0
  passes := 0
  maxWait := 0
  refAuth := 0
  refStale := 0
  dnMark := 0
  upMark := 0

def tsrc : TSrc := ⟨none, 0, 0, none, none⟩
def tmp : Tmp where
  srcs := []
  alarmed := 0
  sidx := 0
  bkSet := []
  lfsr := 0
  run := false
  failing := 0
  track := 0
  union := none
  log := []
  dropped := 0
  drained := 0
  bistCount := 0
  bistResult := 0
  bistActive := false
  bistAt := 0
  bistSrc := 0
  bistSel := 0
  muted := false
end Init
end Sys2Proof.Machine
end

