-- ==== Sys2Proof/Machine/State.lean ====
section
/-!
DEFINITION. The state of the block: every register, buffer, counter, mode and ball the manual gives it, and the queue
of commands that wait. `State.reset` is the chip in POR with its main supplies present (log entry 3).
-/
namespace Sys2Proof.Machine

/-- The faults that stop the model. -/
inductive Fault where
  /-- Raised by VERIFY_DONE when a genuine image of another legal release or application line than L2.0 and A3 would
  run: the manual makes no statement about such an image (R4). Safe: the model stops where the chip goes on. -/
  | otherImage
  deriving DecidableEq, Repr

/-- The refusals of the model. -/
inductive Refusal where
  /-- Raised by `exec` for a command that has no meaning yet. Safe: the model stops where the chip goes on. -/
  | notModelled (mnemonic : String)
  deriving DecidableEq, Repr

/-- The state of one KQ6048. `pending`, `free` and `out` are the model's own: the commands that wait, the counter of
free values (log entry 5) and the trace of what left the chip. `slot` counts slot clocks since the model's start;
`porSlot` is the slot at which the present session left POR. -/
structure State where
  pending : List Instr
  free : Nat
  out : List OutEv
  slot : Nat
  porSlot : Nat
  fuses : Fuses
  boot : Boot
  cpx : Cpx
  whl : Whl
  flt : Flt
  hif : Hif
  coil : Coil
  nvs : Nvs
  rtc : Rtc
  afe : Afe
  pin : Pin
  dec : Dec
  pnt : Pnt
  pq : Pq
  cal : Cal
  trf : Trf
  crd : Crd
  sgr : Sgr
  tmp : Tmp
  deriving DecidableEq, Repr

/-- The chip right after reset (R398, R520): in POR, registers at their reset values, the backup domain at its own
reset (R315), the Kiln store as shipped (R291, R435), nothing waiting. -/
def State.reset : State where
  pending := []
  free := 0
  out := []
  slot := 0
  porSlot := 0
  fuses := Init.fuses
  boot := Init.boot
  cpx := Init.cpx
  whl := Init.whl
  flt := Init.flt
  hif := Init.hif
  coil := Init.coil
  nvs := Init.nvs
  rtc := Init.rtc
  afe := Init.afe
  pin := Init.pin
  dec := Init.dec
  pnt := Init.pnt
  pq := Init.pq
  cal := Init.cal
  trf := Init.trf
  crd := Init.crd
  sgr := Init.sgr
  tmp := Init.tmp

/-- What a meaning answers. -/
abbrev Out := Host.Outcome State Fault Refusal

end Sys2Proof.Machine
end

