-- ==== Sys2Proof/Machine/Ops.lean ====
section
/-!
DEFINITION. The shared operations: time and stamps (R42-R45, R463), output, delivery of records (R337, R388),
completion of requests (R341, R387), the Kiln log queue (R303) and the commit groups of the Kiln store (R286, R290).
-/
namespace Sys2Proof.Machine

/-! ### Roles and addresses -/

def isWorker (s : State) : Bool := s.boot.role == .worker
def isManager (s : State) : Bool := s.boot.role == .manager
def metering (s : State) : Bool := s.boot.st == .metering

/-- Global address of the chip with point field `p` (R25). -/
def chipAddr (s : State) (p : Nat) : Nat :=
  if isWorker s then s.coil.w.ring.toNat * 2 ^ 15 + s.coil.w.pos.toNat * 2 ^ 8 + p else p

/-- The 4-byte address field of a record. -/
def addrBytes (s : State) (p : Nat) : List Byte := le 4 (chipAddr s p)

/-! ### Time -/

/-- Slot clocks in one millisecond and in one microsecond times 1,000 (R89). -/
def msSlots : Nat := 24576

/-- Fault tick: system clock cycles since POR, sixteen to a slot clock less the spreading (R463, R511; log entry 40). -/
def faultTick (s : State) : W64 :=
  let n := 16 * (s.slot - s.porSlot)
  BitVec.ofNat 64 (n - min (n / 200) (Config.spread n))

/-- The RTC fraction to 16 bits, interpolated between ticks while main power is present (R43); a skipped count holds it for
one tick (R326). -/
def rtcFrac (s : State) : W16 :=
  let i := if s.rtc.held then 1 else 2 * s.rtc.sub / 750
  BitVec.ofNat 16 (2 * s.rtc.pre.toNat + (if s.boot.st == .backup then 0 else i))

def rtcSec (s : State) : W32 := BitVec.ofNat 32 s.rtc.s

/-- Stamp quality at the present instant (R44). REMOTE is set on every stamp of a worker, also before its first beacon has
disciplined its Wheel: the model's choice, R44 does not say from when on (DESIGN CHOICE, log entry 87). -/
def nowQual (s : State) : W16 :=
  BitVec.ofNat 16 (bitAt s.whl.hold 0 + bitAt s.whl.nolock 1 + bitAt s.whl.slew 2 + bitAt s.rtc.invalid 3
    + bitAt s.rtc.wrap 4 + bitAt (isWorker s) 5)

/-- The quality of slot clock `t` out of the past changes, newest first, and the present quality. -/
def qualBack (t : Nat) : List (Nat × W16) → W16 → W16
  | [], q => q
  | (u, old) :: l, q => if t < u then qualBack t l old else q

/-- The quality `n` slot clocks ago: each bit holds the state at the stamped instant (R44). -/
def qualAgo (s : State) (n : Nat) : W16 := qualBack (s.slot - n) s.whl.qlog (nowQual s)

/-- A step from `s0` to `s` that changes the quality leaves the old one behind, for the stamps of earlier instants. -/
def noteQual (s0 s : State) : State :=
  if nowQual s0 == nowQual s then s
  else { s with whl.qlog := ((s.slot, nowQual s0) :: s.whl.qlog).take 64 }

/-- Both stamps of the present instant, uncorrected (R45). -/
def nowStamp (s : State) : Stamp := ⟨if s.whl.run then s.whl.pos else 0, rtcSec s, rtcFrac s, nowQual s⟩

/-- The reduction of a wheel stamp by `n / d` slot clocks: the part within the present turn at its own rate, the rest
at the rate of the turn before, summed and rounded once (R45). Within a turn the Wheel advances 2^38 stamp units in
3 × Δ_T slot clocks (R122: 256 × Δ_T fine periods of 1,536 slot clocks to a turn). -/
def wheelBack (pos : W64) (delta prev : W32) (n d : Nat) : Nat :=
  let u := pos.toNat % 2 ^ 24
  let a := 3 * delta.toNat * d
  let b := 3 * prev.toNat
  if a = 0 then 0
  else if n * 2 ^ 38 ≤ u * a then (2 * n * 2 ^ 38 + a) / (2 * a)
  else if b = 0 then u
  else
    let num := u * a * b + (n * 2 ^ 38 - u * a) * (3 * delta.toNat)
    let den := a * b
    (2 * num + den) / (2 * den)

/-- A stamp taken back by `n / d` slot clocks of path delay (R45). -/
def stampBackQ (s : State) (st : Stamp) (n d : Nat) : Stamp :=
  let r := (2 * (n * 65536) + 24576000 * d) / (2 * 24576000 * d)
  let t := st.sec.toNat * 65536 + st.frac.toNat + 2 ^ 48 - r
  let w := wheelBack s.whl.pos s.whl.delta s.whl.prevDelta n d
  { st with
    wheel := if s.whl.run then st.wheel - BitVec.ofNat 64 w else st.wheel
    sec := BitVec.ofNat 32 (t / 65536)
    frac := BitVec.ofNat 16 t
    qual := qualAgo s (n / d) }

/-- A stamp taken back by `n` whole slot clocks. -/
def stampBack (s : State) (st : Stamp) (n : Nat) : Stamp := stampBackQ s st n 1

/-- The stamp of the instant `n` slot clocks ago (R45). -/
def pathStamp (s : State) (n : Nat) : Stamp := stampBack s (nowStamp s) n

def Stamp.bytes (t : Stamp) : List Byte := le 8 t.wheel.toNat ++ le 4 t.sec.toNat ++ le 2 t.frac.toNat ++ le 2 t.qual.toNat

/-- A record as delivered: sequence, type, length, stamp block, body (R304, R158). -/
def Rec.bytes (r : Rec) : List Byte :=
  le 4 r.seq.toNat ++ le 2 r.typ.toNat ++ le 2 (24 + r.body.length) ++ r.stamp.bytes ++ r.body

/-! ### Output -/

/-- Main power is present: neither OFF nor BACKUP (R397). -/
def mainPower (s : State) : Bool := s.boot.st != .off && s.boot.st != .backup

/-- Main power is present and POR has ended. -/
def running (s : State) : Bool := s.boot.st != .off && s.boot.st != .backup && s.boot.st != .por

/-- Put one event on the trace of what leaves the chip. -/
def emit (e : OutEv) (s : State) : State := { s with out := e :: s.out }

/-- Draw a fresh free value (log entry 5). -/
def drawBit (s : State) : Bool × State := (Config.freeBit s.free, { s with free := s.free + 1 })
def drawNat (s : State) : Nat × State := (Config.freeNat s.free, { s with free := s.free + 1 })

/-- `n` bytes of the DRBG (R422). -/
def drawRandom (n : Nat) (s : State) : List Byte × State :=
  ((List.range n).map (fun i => Config.random (s.free + i)),
    { s with free := s.free + n + bitAt (s.sgr.reqs + 1 == 2 ^ 20) 0, sgr.reqs := (s.sgr.reqs + 1) % 2 ^ 20 })

/-- The KDF of R421: HMAC-SHA-384 of counter, label, zero byte, context and output length in bits, all 32-bit numbers
big-endian; the first `n` bytes of K(1) ‖ K(2) ‖ …. -/
def kdf (key label ctx : List Byte) (n : Nat) : List Byte :=
  ((List.range ((n + 47) / 48)).flatMap (fun i =>
    padTo 48 (Config.hmac key (beBytes 4 (i + 1) ++ label ++ [0] ++ ctx ++ beBytes 4 (8 * n))))).take n

/-! ### Interrupts (R336) -/

/-- Send vector `v`: an MSI-X message, a pending bit while it is masked or the function sleeps, or an HIF_ISTAT bit
while MSI-X is disabled. A worker has no function to send from (R24). -/
def sendVector (v : Nat) (s : State) : State :=
  if isWorker s then s
  else if s.hif.msixEn then
    if s.hif.d3 || bit (tgetD s.hif.msix v ⟨0, 0, 0, 1⟩).ctl 0 then { s with hif.pba := setBit s.hif.pba v true }
    else emit (.msi v) s
  else { s with hif.istat := setBit s.hif.istat v true }

/-- INTA: asserted while (HIF_ISTAT & ~HIF_IMASK) is nonzero, MSI-X is disabled and Interrupt Disable is clear. -/
def intaAsserted (s : State) : Bool :=
  !s.hif.msixEn && !s.hif.intDis && (s.hif.istat &&& ~~~ s.hif.imask) != 0

/-! ### Rings -/

def getRing (s : State) (r : Nat) : Ring := tgetD s.hif.rings r Init.ring
def setRing (r : Nat) (x : Ring) (s : State) : State := { s with hif.rings := tput s.hif.rings r x }
def modRing (r : Nat) (f : Ring → Ring) (s : State) : State := setRing r (f (getRing s r)) s

/-- Largest record of a receive ring (R337), as HIF_RQUEUE.MAXREC shows it. -/
def maxRec : Nat → Nat
  | 1 => 296
  | 2 => 128
  | 3 => 128
  | 4 => 300
  | 5 => 64
  | 6 => 3008
  | 7 => 32832
  | 10 => 2048
  | 12 => 48
  | 14 => 64
  | 15 => 32832
  | _ => 0

def queueBytes (q : List QRec) : Nat := sumN (q.map (·.bytes.length))

/-- The device queue of a ring is over its size and drops its oldest record (R337): 512 KiB on Ring 2, 256 KiB on
Ring 3, 256 records on Ring 14. Other rings drop nothing here. -/
def queueOver (ring : Nat) (q : List QRec) : Bool :=
  match ring with
  | 2 => queueBytes q > 524288
  | 3 => queueBytes q > 262144
  | 14 => q.length > 256
  | _ => false

/-- A record put into the queue of its ring, or on a worker into its report or bulk queue (R388); answers whether a
record was dropped. The drop is counted in HIF_RDROP of a ring. -/
def enqRaw (ring : Nat) (q : QRec) (s : State) : State × Bool :=
  if isWorker s then
    if ring == 6 || ring == 7 then ({ s with coil.w.bulk := s.coil.w.bulk ++ [(ring, q)] }, false)
    else
      let mine := (s.coil.w.report.filter (fun p => p.1 == ring)).map (·.2) ++ [q]
      if queueOver ring mine then
        let rest := s.coil.w.report.filter (fun p => p.1 != ring)
        (modRing ring (fun r => { r with drop := satInc r.drop })
          { s with coil.w.report := rest ++ (mine.drop 1).map (fun x => (ring, x)) }, true)
      else ({ s with coil.w.report := s.coil.w.report ++ [(ring, q)] }, false)
  else
    let r := getRing s ring
    let q' := r.queue ++ [q]
    if queueOver ring q' then (setRing ring { r with queue := q'.drop 1, drop := satInc r.drop } s, true)
    else (setRing ring { r with queue := q' } s, false)

/-! ### Completion of requests -/

def statusOk : W16 := 0x0000
def statusOversize : W16 := 0x0001
def statusBadLength : W16 := 0x0002
def statusBadOpcode : W16 := 0x0003
def statusConflict : W16 := 0x0004
def statusBusy : W16 := 0x0005
def statusDenied : W16 := 0x0006
def statusAuthFail : W16 := 0x0007
def statusTamperAbort : W16 := 0x0008
def statusStale : W16 := 0x0009
def statusNotReady : W16 := 0x000A
def statusBadDate : W16 := 0x000B
def statusRange : W16 := 0x000C
def statusUnavailable : W16 := 0x000D

/-- The bytes of a frame up to its check (R373). -/
def frameBody (f : Frame) : List Byte :=
  [BitVec.ofNat 8 (f.cls + 4 * f.typ), f.flags] ++ le 2 f.plen ++ le 1 f.dst ++ le 1 f.src ++ le 1 f.ring ++ [f.rsv]
    ++ le 4 f.session.toNat ++ le 8 f.ctr.toNat ++ f.payload ++ f.tag

/-- Header bytes 0 to 19 followed by the payload: the additional data of an AUTH frame (R385). -/
def frameAad (f : Frame) : List Byte := frameBody { f with tag := [] }

/-- The GCM nonce of an AUTH frame: header bytes 8 to 19 (R385). -/
def frameNonce (f : Frame) : List Byte := le 4 f.session.toNat ++ le 8 f.ctr.toNat

/-- A frame with its check formed. -/
def sealFrame (f : Frame) : Frame := { f with check := crc32c (frameBody f) }

/-- A plain frame of this chip. -/
def plainFrame (port cls typ : Nat) (up : Bool) (dst src ring : Nat) (payload : List Byte) : Frame :=
  sealFrame ⟨port, cls, typ, if up then 2 else 0, payload.length, dst, src, ring, 0, 0, 0, payload, [], 0⟩

/-- An AUTH frame of this chip under `key`, with its own session and the next frame counter (R385). -/
def authFrame (port cls typ : Nat) (up : Bool) (dst src ring : Nat) (key : List Byte) (session : W32) (ctr : W64)
    (payload : List Byte) : Frame :=
  let f : Frame := ⟨port, cls, typ, if up then 3 else 1, payload.length, dst, src, ring, 0, session, ctr, payload, [], 0⟩
  sealFrame { f with tag := Config.gcmSeal key (frameNonce f) (frameAad f) [] }

/-- The port on which a worker sends toward the manager: the one its selected beacons arrive on (R381). -/
def upPort (s : State) : Nat := if s.coil.w.ccw then 1 else 0

/-- The key of its two shares (R431). -/
def Share.key (x : Share) : List Byte := List.zipWith (fun a b => a ^^^ b) x.v x.m

/-- A slot that takes over the key that waits for its wedge (R433 phase 2). -/
def KSlot.taken (k : KSlot) : KSlot :=
  match k.next with
  | some (x, g) => { k with st := 1, key := x, gen := g, next := none }
  | none => k

/-- A slot was used, and so wedged, since its last key load was committed (R431): slots 5 and 6 by the Coil frames received
and sent. -/
def usedSince (s : State) (i : Nat) : Bool :=
  (i == 5 && s.coil.w.dnUses != s.sgr.dnMark) || (i == 6 && s.coil.w.ownCtr != s.sgr.upMark)

/-- A key slot as it stands: the waiting key of slot 5 or 6 is taken over once the slot was used (R431, R433). -/
def getSlot (s : State) (i : Nat) : KSlot :=
  let k := tgetD s.sgr.slots i Init.kslot
  if usedSince s i then k.taken else k

/-- The key a slot holds for use; none where the slot is EMPTY or LOST (R426, R429). -/
def slotKey (s : State) (i : Nat) : Option (List Byte) :=
  let k := getSlot s i
  if k.st == 1 || k.st == 3 then some k.key.key else none

/-- A worker's AUTH frame toward its manager, under K_up of slot 6 (R385, R426); without that key no frame leaves. -/
def sendUp (cls typ : Nat) (payload : List Byte) (s : State) : State :=
  match slotKey s 6 with
  | none => s
  | some key =>
    let f := authFrame (upPort s) cls typ true 0 s.coil.w.pos.toNat s.coil.w.ring.toNat key s.nvs.session
      s.coil.w.ownCtr payload
    emit (.frame f) { s with coil.w.ownCtr := s.coil.w.ownCtr + 1 }

def reqWaiter (r : Req) (ring : Nat) (op : Byte) : Waiter := ⟨ring, r.via, r.slot, r.tag, r.irq, op⟩

/-- The completion data of a descriptor of a chain: its share of the bytes written, in buffer order (R344). -/
def shareDone (d : Done) : List Acc → W32 → List Byte → List Acc
  | [], _, _ => []
  | a :: t, first, data =>
    if a.first == first then
      { a with done := some { d with len := min a.blen data.length, data := data.take a.blen } }
        :: shareDone d t first (data.drop a.blen)
    else a :: shareDone d t first data

/-- Record the end of a request: on a descriptor ring in the ring's accepted list, whence COMPLETION_WRITE writes it
in order (R341); for a request of a Coil frame as the REPLY frame (R387). Ring 16 marks a requester that a reset of
the host interface has removed: no completion is written for it (R362). -/
def complete (w : Waiter) (status : W16) (seq : W32) (data : List Byte) (s : State) : State :=
  if w.ring ≥ 16 then s
  else match w.via with
  | .coil =>
    sendUp 1 1 ([BitVec.ofNat 8 w.ring, w.op] ++ le 2 status.toNat ++ le 4 w.tag.toNat ++ data) s
  | .host =>
    modRing w.ring (fun r =>
      let d : Done := ⟨status, data.length, seq, data⟩
      if r.acc.any (fun a => a.first == w.slot) then { r with acc := shareDone d r.acc w.slot data }
      else { r with acc := r.acc ++ [⟨w.slot, w.tag, w.irq, data.length, w.slot, some d, []⟩] }) s

/-- A request that waits: its place in the accepted list is kept without an end (R345). -/
def waitReq (w : Waiter) (s : State) : State :=
  match w.via with
  | .coil => s
  | .host =>
    modRing w.ring (fun r =>
      if r.acc.any (fun a => a.first == w.slot) then r
      else { r with acc := r.acc ++ [⟨w.slot, w.tag, w.irq, 0, w.slot, none, []⟩] }) s

/-- How a request's own checks and effect end: an immediate completion, or a wait. -/
inductive Ans where
  | done (status : W16) (s : State)
  | reply (seq : W32) (data : List Byte) (s : State)
  | fail (status : W16) (s : State)
  | wait (s : State)

/-- Carry the answer of a request to its completion. -/
def answer (w : Waiter) : Ans → State
  | .done st s => complete w st 0 [] s
  | .reply seq data s => complete w statusOk seq data s
  | .fail st s => complete w st 0 [] s
  | .wait s => waitReq w s

/-! ### Kiln log queue (R303, R302) -/

/-- A record for the Kiln log: it waits for its append; under PROT 3 it stands in the SRAM queue of 256, the oldest
dropped and counted in GAP (R302). Its sequence is given at the append. -/
def logRec (typ : Nat) (st : Stamp) (body : List Byte) (s : State) : State :=
  { s with nvs.logQueue := s.nvs.logQueue ++ [⟨BitVec.ofNat 16 typ, 0, st, body⟩] }

/-- A block event record (R309): block, code and 32 detail bytes, with point field `p`. -/
def blockEventAt (st : Stamp) (block code p : Nat) (detail : List Byte) (s : State) : State :=
  logRec 0x0023 st (addrBytes s p ++ le 1 block ++ le 1 code ++ zeros 2 ++ padTo 32 detail) s

def blockEvent (block code : Nat) (detail : List Byte) (s : State) : State :=
  blockEventAt (nowStamp s) block code 0 detail s

/-! ### Kiln records and commit groups (R286, R288-R290, R301, R302) -/

/-- The kinds of Kiln record, in the order of the map of R284. -/
inductive NvKind where
  | session | mirror | selfcal | trfState
  | tariff | credit | interval
  | snapshot
  | config | creditCfg | ctlCfg | pqSub | coilRing | coilTable
  | pointDef | channel | f3set | subst
  | guarded | approval | slotRec | relay
  | factory
  deriving DecidableEq, Repr

def NvKind.code : NvKind → Nat
  | .session => 0
  | .mirror => 1
  | .selfcal => 2
  | .trfState => 3
  | .tariff => 4
  | .credit => 5
  | .interval => 6
  | .snapshot => 7
  | .config => 8
  | .creditCfg => 9
  | .ctlCfg => 10
  | .pqSub => 11
  | .coilRing => 12
  | .coilTable => 13
  | .pointDef => 14
  | .channel => 15
  | .f3set => 16
  | .subst => 17
  | .guarded => 18
  | .approval => 19
  | .slotRec => 20
  | .relay => 21
  | .factory => 22

/-- Key of a Kiln record: its kind and index. -/
def nvKey (k : NvKind) (i : Nat) : Nat := k.code * 2 ^ 24 + i

/-- The quarter of the store that holds a record (R284). -/
def keyQuarter (key : Nat) : Nat :=
  let c := key / 2 ^ 24
  if c ≤ 6 then 0 else if c ≤ 7 then 1 else if c ≤ 13 then 2 else 3

/-- The Saggar's own records are written under every value of PROT (R301, R432). -/
def saggarKey (key : Nat) : Bool := 18 ≤ key / 2 ^ 24 && key / 2 ^ 24 ≤ 21

/-- Block protect forbids a write to a quarter (R301). -/
def protForbids (prot : BitVec 2) (quarter : Nat) : Bool :=
  match prot.toNat with
  | 0 => false
  | 1 => quarter == 3
  | 2 => quarter ≥ 2
  | _ => true

def writeForbidden (s : State) (key : Nat) : Bool := !saggarKey key && protForbids s.nvs.prot (keyQuarter key)

/-- One stored copy of a record. -/
def copyOf (s : State) (key copy : Nat) : Option NvSlot := tget s.nvs.recs (2 * key + copy)

/-- A copy is valid when it was written and its check matches (R289). -/
def validCopy (s : State) (key copy : Nat) : Option NvSlot :=
  match copyOf s key copy with
  | some c => if c.bad then none else some c
  | none => none

/-- The newest valid copy of a record (R289). -/
def bestCopy (s : State) (key : Nat) : Option NvSlot :=
  match validCopy s key 0, validCopy s key 1 with
  | some a, some b => if seqNewer b.seq a.seq then some b else some a
  | some a, none => some a
  | none, b => b

/-- The newest value of a record that the queue of commit groups still carries (R281). -/
def queuedVal (key : Nat) : List Group → Option (NvVal × W32)
  | [] => none
  | g :: t =>
    match queuedVal key t with
    | some v => some v
    | none =>
      match g.act with
      | .record k _ v q => if k = key then some (v, q) else none
      | .recs _ l => (l.find? (fun x => x.1 == key)).map (fun x => (x.2.2.1, x.2.2.2))
      | _ => none

/-- A group writes a record. -/
def writes (g : Group) (key : Nat) : Bool :=
  match g.act with
  | .record k _ _ _ => k == key
  | _ => false

/-- A doubled write of a record is queued whose command has not completed yet: groups of it stand behind the front, or at
the front before the end of step 3 (R286). -/
def unwritten (s : State) (key : Nat) : Bool :=
  (if s.nvs.gstep ≥ 4 then s.nvs.groups.drop 1 else s.nvs.groups).any (writes · key)

/-- The newest accepted value of a record (R281). -/
def nvRead (s : State) (key : Nat) : Option NvVal :=
  match queuedVal key s.nvs.groups with
  | some v => some v.1
  | none => (bestCopy s key).map (·.val)

/-- The sequence that the next write of a record carries (R288). -/
def nextSeq (s : State) (key : Nat) : W32 :=
  match queuedVal key s.nvs.groups with
  | some v => v.2 + 1
  | none => match bestCopy s key with
    | some c => c.seq + 1
    | none => 1

/-- Put commit groups into the queue; the engine takes the first one up when it is idle (R281, R286). -/
def pushGroups (gs : List Group) (s : State) : State := { s with nvs.groups := s.nvs.groups ++ gs }

/-- Queue the doubled write of a record, copy 0 and then copy 1, each in its own group (R290). A request that waits
on the write completes with `w` when the second group has been committed; `eff` comes into force with the first, from
which on the new record is the one a restart reads (R289). -/
def commitRecEff (key : Nat) (v : NvVal) (pages : Nat) (w : Option (Waiter × W16)) (eff : Option GroupEff) (s : State) : State :=
  let q := nextSeq s key
  pushGroups [⟨.record key 0 v q, pages, saggarKey key, none, none, eff⟩,
    ⟨.record key 1 v q, pages, saggarKey key, w, none, none⟩] s

/-- The doubled write of a record whose effect comes with the completion of its request, once both copies stand. -/
def commitDone (key : Nat) (v : NvVal) (pages : Nat) (w : Option (Waiter × W16)) (eff : Option GroupEff) (s : State) : State :=
  let q := nextSeq s key
  pushGroups [⟨.record key 0 v q, pages, saggarKey key, none, none, none⟩,
    ⟨.record key 1 v q, pages, saggarKey key, w, none, eff⟩] s

/-- The doubled write of a record with which nothing else comes into force. -/
def commitRec (key : Nat) (v : NvVal) (pages : Nat) (w : Option (Waiter × W16)) (s : State) : State :=
  commitRecEff key v pages w none s

/-- A write that the device starts itself: skipped silently where PROT forbids it (R302). -/
def ownWrite (key : Nat) (v : NvVal) (pages : Nat) (s : State) : State :=
  if writeForbidden s key then s else commitRec key v pages none s

end Sys2Proof.Machine
end

