-- ==== Sys2Proof/Machine/Flags.lean ====
section
/-!
DEFINITION. The fault flags of every block: raises, the live condition, escalation by count, grace timers, fault
records, the reason and the beginning of a fail-stop (R462-R477).
-/
namespace Sys2Proof.Machine

/-- Class of a fault source (R465); none for a reserved bit. -/
def srcClass (b src : Nat) : Option Cls :=
  if src = 30 ∧ 1 ≤ b ∧ b ≤ 18 then some .corrected
  else if src = 31 ∧ 1 ≤ b ∧ b ≤ 18 then some .grave
  else
    let row : List Cls :=
      match b with
      | 1 => [.notice, .corrected, .notice, .severe, .severe, .notice, .severe, .severe, .grave]
      | 2 => [.grave, .grave, .grave, .notice]
      | 3 => [.notice, .notice, .notice, .corrected, .notice, .notice]
      | 4 => [.grave, .grave, .notice, .grave]
      | 5 => [.notice, .grave, .grave]
      | 6 => [.notice, .notice, .notice]
      | 7 => [.notice, .notice]
      | 8 => [.corrected, .grave]
      | 9 => [.corrected, .grave, .corrected, .grave, .grave, .grave, .notice, .notice, .notice]
      | 10 => [.notice, .notice, .notice, .notice]
      | 11 => [.notice, .notice, .notice, .notice, .notice]
      | 12 => [.notice, .notice, .notice, .notice, .notice, .notice, .notice, .corrected]
      | 13 => [.severe, .notice, .notice, .grave, .grave, .corrected, .grave]
      | 14 => [.notice, .grave, .notice, .notice]
      | 15 => [.grave]
      | 16 => [.notice, .grave, .severe]
      | 17 => [.notice, .grave, .grave, .notice, .notice]
      | 18 => [.notice]
      | _ => []
    row[src]?

def Cls.num : Cls → Nat
  | .corrected => 0
  | .notice => 1
  | .severe => 2
  | .grave => 3

def getBlk (s : State) (b : Nat) : BlkFlt := tgetD s.flt.blk b Init.blkFlt
def setBlk (b : Nat) (x : BlkFlt) (s : State) : State := { s with flt.blk := tput s.flt.blk b x }
def modBlk (b : Nat) (f : BlkFlt → BlkFlt) (s : State) : State := setBlk b (f (getBlk s b)) s
def getSrc (s : State) (b src : Nat) : SrcSt := tgetD (getBlk s b).srcs src Init.srcSt
def modSrc (b src : Nat) (f : SrcSt → SrcSt) (s : State) : State :=
  modBlk b (fun k => { k with srcs := tput k.srcs src (f (tgetD k.srcs src Init.srcSt)) }) s

/-- Slot clocks of a window code (R453): unit in bits 7 to 5, count in bits 4 to 0. -/
def winSlots (w : Byte) : Nat :=
  nth [1, 10, 100, 1000, 10000, 60000, 600000, 3600000] (fld w 7 5) 0 * fld w 4 0 * msSlots

/-- A window code with a count of 0 or above the limit of its unit (R453, R481). -/
def winBad (w : Byte) : Bool := fld w 4 0 == 0 || (fld w 7 5 == 7 && fld w 4 0 > 24)

/-- Milliseconds left on a block's grace timer, rounded up; 0 when it is not running (R467). -/
def graceLeft (s : State) (b : Nat) : Nat :=
  match (getBlk s b).run with
  | some g => ((g.ms * msSlots - (s.slot - g.start)) + (msSlots - 1)) / msSlots
  | none => 0

/-- The vector of a block's faults (R336). -/
def blkVector (b : Nat) : Nat := if b ≤ 15 then 15 + b else 31

/-- Pending summary of a block: its unmasked NOTICE and its SEVERE and GRAVE sources with FSTAT set; a mask has no
effect on a source made SEVERE by count (R468, R470). -/
def pendSummary (b : Nat) (k : BlkFlt) : Bool :=
  (List.range 32).any (fun i => bit k.fstat i &&
    (match srcClass b i with
     | some .notice => !bit k.fmask i || (tgetD k.srcs i Init.srcSt).esc
     | some .severe => true
     | some .grave => true
     | _ => false))

/-- The class in effect of a source: SEVERE while a NOTICE source is escalated (R471). -/
def effClass (s : State) (b src : Nat) : Nat :=
  if (getSrc s b src).esc then 2 else match srcClass b src with
    | some c => c.num
    | none => 0

/-- One 64-byte Ring 14 record (R471). -/
def fltRecord (b src kind : Nat) (s : State) : State × Bool :=
  let k := getBlk s b
  let x := getSrc s b src
  let flags := bitAt (bit k.flive src) 0 + bitAt x.esc 1 + bitAt (bit k.fmask src && (kind ≠ 1 || x.esc)) 2
  let body := addrBytes s 0 ++ le 1 b ++ le 1 src ++ le 1 (effClass s b src) ++ le 1 kind ++ le 8 (faultTick s).toNat
    ++ le 2 x.raises.toNat ++ le 1 flags ++ le 1 0 ++ le 4 (graceLeft s b) ++ le 4 s.flt.reason.toNat ++ zeros 12
  let r : Rec := ⟨0x00F0, s.flt.seq, nowStamp s, body⟩
  enqRaw 14 ⟨r.seq, r.bytes, none, none⟩ { s with flt.seq := s.flt.seq + 1 }

/-- A fault record, without the consequence of a drop. -/
def fltRec0 (b src kind : Nat) (s : State) : State := (fltRecord b src kind s).1

/-- FLT_REASON's image of a cause (R474). -/
def reasonWord (grace count : Bool) (cls b src : Nat) : W32 :=
  BitVec.ofNat 32 (2 ^ 31 + bitAt grace 30 + bitAt count 29 + putAt cls 2 24 + putAt b 5 16 + putAt src 5 0)

/-- Causes after which the last gasp is skipped (R476). -/
def skipsLastGasp (b src : Nat) : Bool :=
  (b == 16 && src == 1) || (b == 4 && (src == 1 || src == 3)) || (b == 15 && src == 0) ||
  (src == 31 && (b == 4 || b == 7 || b == 8 || b == 16))

/-- The Kiln store stops: the page commit in progress ends, a committed group completes its home writes, and nothing
else is written (R293, R475, R286). -/
def stopWrites (s : State) : State :=
  { s with nvs.inhibit := true, nvs.groups := if s.nvs.gstep ≥ 3 then s.nvs.groups.take 1 else [],
           nvs.gstep := if s.nvs.gstep ≥ 3 then s.nvs.gstep else 0, nvs.gleft := if s.nvs.gstep ≥ 3 then s.nvs.gleft else 0 }

/-- An empty last-gasp content, to be filled at the assembly (R294 step 4). -/
def emptyArea : LgArea :=
  ⟨false, 0, 0, 0, Stamp.zero, 0, 0, 0xFFFF, 0, 0, 0, 0, 0, 0, [], [], [], [], [], []⟩

/-- Start a last gasp with its cause, at the present instant (R294 step 1). -/
def startLastGasp (cause : Byte) (s : State) : State :=
  match s.nvs.lg with
  | some _ => s
  | none => { s with nvs.lg := some ⟨cause, s.slot, none, emptyArea⟩ }

/-- Fail-stop begins, or an existing one takes a graver cause (R469, R474, R475 step 1, R477). -/
def failStop (grace count : Bool) (cls : Cls) (b src : Nat) (s : State) : State :=
  let word := reasonWord grace count cls.num b src
  match s.flt.phase with
  | .none =>
    let s1 := { s with
      flt.reason := word, flt.prev := word, flt.fsTick := faultTick s, flt.kind := cls, flt.phase := .begun,
      boot.st := .failstop, cpx.acp0 := false, cpx.acp1 := false }
    if metering s then
      if s.nvs.lg.isSome || s.nvs.lgDone then s1
      else if skipsLastGasp b src || s.nvs.prot == 3 then stopWrites s1
      else startLastGasp 3 s1
    else stopWrites s1
  | ph =>
    if s.flt.kind == .severe && cls == .grave then
      let s1 := { s with flt.reason := word, flt.prev := word, flt.kind := .grave }
      if ph == .safe then sendVector (blkVector b) (fltRec0 b src 4 s1) else s1
    else s

/-- A SEVERE fault begins: its tick, the block event, the grace timer when none runs (R467, R472). -/
def beginSevere (b src : Nat) (s : State) : State :=
  let x := getSrc s b src
  let s1 := modSrc b src (fun x => { x with severe := some (faultTick s) }) s
  let s2 := modBlk b (fun k => { k with run := match k.run with
    | some g => some g
    | none => some ⟨src, s.slot, k.grace.toNat⟩ }) s1
  blockEvent 15 2 (le 1 b ++ le 1 src ++ le 1 (bitAt x.esc 0) ++ le 1 0 ++ le 8 (faultTick s).toNat) s2

/-- Counting, sticky bit and ticks of a raise (R462, R464). -/
def noteRaise (b src : Nat) (s : State) : State :=
  let t := faultTick s
  let clear := !bit (getBlk s b).fstat src
  modBlk b (fun k => { k with fstat := setBit k.fstat src true })
    (modSrc b src (fun x => { x with raises := satInc x.raises, first := if clear then t else x.first, last := t }) s)

/-- A window of R468 stands open at the present instant. -/
def winOpen (s : State) (o : Win) : Bool := s.slot < o.start + winSlots o.w

/-- The window of a NOTICE source counts a raise; the raise that brings the count to N + 1 escalates it (R468). -/
def countWindow (b src : Nat) (s : State) : State × Bool :=
  let k := getBlk s b
  let x := getSrc s b src
  let w : Win := ⟨s.slot, BitVec.ofNat 8 (fld k.esc 7 0), BitVec.ofNat 8 (fld k.esc 15 8)⟩
  if x.esc then (modSrc b src (fun x => { x with span := some w }) s, false)
  else match x.win.filter (winOpen s) with
    | none =>
      if w.n == 0 then (modSrc b src (fun x => { x with win := none, count := 0 }) s, false)
      else (modSrc b src (fun x => { x with win := some w, count := 1 }) s, false)
    | some o =>
      if x.count.toNat + 1 ≥ o.n.toNat + 1 then
        (modSrc b src (fun x => { x with win := none, count := 0, esc := true, span := some w }) s, true)
      else (modSrc b src (fun x => { x with count := x.count + 1 }) s, false)

/-- A block's vector after a change of its state: sent when its pending summary has become 1. Before FIRED only vector 31
and the vector of a fail-stop's block are sent; the others stay pending until then (R401, R457, R470, R479, log
entry 115). -/
def blkSignal (b : Nat) (before : Bool) (s : State) : State :=
  if !before && pendSummary b (getBlk s b) && (s.boot.fired || b > 15 || s.flt.phase != .none) then sendVector (blkVector b) s
  else s

/-- FLT_REASON at a value. -/
def withReason (w : W32) (s : State) : State := { s with flt.reason := w }

/-- A raise of a source (R462-R471), without the consequence of a Ring 14 drop. The record of a GRAVE raise shows
FLT_REASON as it stands after it (R471). -/
def raise0 (b src : Nat) (s : State) : State :=
  match srcClass b src with
  | none => s
  | some cls =>
    let before := pendSummary b (getBlk s b)
    let s1 := noteRaise b src s
    let masked := bit (getBlk s b).fmask src && !(getSrc s b src).esc
    let vec := blkSignal b before
    match cls with
    | .corrected => s1
    | .notice =>
      let (s2, esc) := countWindow b src s1
      let s3 := if masked then s2 else fltRec0 b src 1 s2
      let s4 := vec s3
      if esc then sendVector (blkVector b) (fltRec0 b src 2 (beginSevere b src s4)) else s4
    | .severe =>
      let s2 := if (getSrc s1 b src).severe.isSome then s1 else beginSevere b src s1
      vec (fltRec0 b src 1 s2)
    | .grave =>
      let s2 := withReason (failStop false false .grave b src s1).flt.reason s1
      vec (failStop false false .grave b src (fltRec0 b src 1 s2))

/-- RECORD_DROP is raised at most once per ring in each 10-minute UTC interval (R337). -/
def noteDrop (ring : Nat) (s : State) : State :=
  let span := s.rtc.s / 600
  if (getRing s ring).dropSpan == some span then s
  else raise0 11 3 (modRing ring (fun r => { r with dropSpan := some span }) s)

/-- A raise of a source: counted, recorded and signalled (R462-R471). -/
def raise (b src : Nat) (s : State) : State :=
  let d := (getRing s 14).drop
  let t := raise0 b src s
  if (getRing t 14).drop != d then noteDrop 14 t else t

/-- The condition of a source rises: a raise, with LIVE set; nothing while it already holds (R462). -/
def raiseLive (b src : Nat) (s : State) : State :=
  if bit (getBlk s b).flive src then s
  else raise b src (modBlk b (fun k => { k with flive := setBit k.flive src true }) s)

/-- The condition of a source falls: LIVE clears, and the resolution span of an escalated source starts again (R466). -/
def fallLive (b src : Nat) (s : State) : State :=
  if bit (getBlk s b).flive src then
    let k := getBlk s b
    let w : Win := ⟨s.slot, BitVec.ofNat 8 (fld k.esc 7 0), BitVec.ofNat 8 (fld k.esc 15 8)⟩
    modSrc b src (fun x => { x with span := if x.esc then some w else x.span })
      (modBlk b (fun k => { k with flive := setBit k.flive src false }) s)
  else s

/-- A SEVERE fault of a block is unresolved (R467). -/
def anySevere (s : State) (b : Nat) : Bool := (getBlk s b).srcs.any (fun p => p.2.severe.isSome)

/-- A SEVERE fault is resolved: RESOLVED record, block event, and the grace timer stops when it was the last (R466,
R467, R470-R472). -/
def resolve (b src : Nat) (s : State) : State :=
  if (getSrc s b src).severe.isSome then
    let s1 := fltRec0 b src 3 s
    let s2 := modSrc b src (fun x => { x with severe := none, esc := false, span := none }) s1
    let s3 := blockEvent 15 3 (le 1 b ++ le 1 src ++ zeros 2 ++ le 8 (faultTick s).toNat) s2
    let s4 := sendVector (blkVector b) s3
    if anySevere s4 b then s4 else modBlk b (fun k => { k with run := none }) s4
  else s

/-- Put a record into the queue of a ring, with RECORD_DROP where the oldest was dropped (R337). -/
def deliver (ring : Nat) (q : QRec) (s : State) : State :=
  let (t, dropped) := enqRaw ring q s
  if dropped then noteDrop ring t else t

/-- Deliver a record formed here. -/
def deliverRec (ring : Nat) (r : Rec) (s : State) : State := deliver ring ⟨r.seq, r.bytes, none, none⟩ s

/-- A command's write that PROT forbids: DENIED, counted and raised (R302). -/
def protRefuse (s : State) : State := raise 9 8 { s with nvs.refused := satInc s.nvs.refused }

/-- A cause of a freeze under R29, R30 or R70 stands. -/
def severeStands (s : State) : Bool := [3, 4, 6, 7].any (fun i => (getSrc s 1 i).severe.isSome)

/-- Is metering halted by a fail-stop (R475 step 1)? -/
def failed (s : State) : Bool := s.flt.phase != .none

/-- A power-fail warning, a RESETn or a fail-stop has frozen the engines for good: no energy, tariff or credit change is
registered any more, and no new commit group is taken (R14, R294, R416, R475). -/
def gasped (s : State) : Bool := s.nvs.lg.isSome || s.nvs.lgDone || s.nvs.inhibit || failed s

end Sys2Proof.Machine
end

