-- ==== Sys2Proof/Machine/Kiln.lean ====
section
/-!
DEFINITION. The Kiln store: commit groups through the journal (R286, R287, R524), the Kiln log and its mirror (R303,
R305), ECC and scrubbing (R310, R28). The last gasp stands with the power commands.
-/
namespace Sys2Proof.Machine

/-- Key of an entry of a calendar image copy: image, copy, entry (R284). -/
def imgKey (img copy entry : Nat) : Nat := (2 * img + copy) * 2 ^ 14 + entry

/-- The home writes of a group (R286 step 4, R524). -/
def applyGroup (g : Group) (n : Nvs) : Nvs :=
  match g.act with
  | .record key copy v q => { n with recs := tput n.recs (2 * key + copy) ⟨v, q, false⟩ }
  | .recs _ l => { n with recs := l.foldl (fun t x => tput t (2 * x.1 + x.2.1) ⟨x.2.2.1, x.2.2.2, false⟩) n.recs }
  | .mark img copy d => { n with dirty := tput n.dirty (2 * img + copy) d }
  | .marks img => { n with dirty := tput (tput n.dirty (2 * img) false) (2 * img + 1) true }
  | .entries img copy es =>
    { n with images := es.foldl (fun t e => tput t (imgKey img copy e.1) e.2) n.images }

/-- The request that waits on a group completes once step 3 has ended (R286). -/
def releaseWaiter (g : Group) (s : State) : State :=
  match g.waiter with
  | some (w, st) => complete w st 0 [] s
  | none => s

/-- A control edit whose write has ended acts at the first RTC second after (R232). -/
def noteCtlEdit (g : Group) (s : State) : State :=
  match g.act, g.waiter with
  | .mark _ 1 false, some (w, _) =>
    if w.op == 0x2A then
      let i := (s.trf.ctlPend.filter (·.1.isSome)).length
      { s with trf.ctlPend := lmod s.trf.ctlPend i (fun p => (some (s.rtc.s + 1), p.2)) }
    else s
  | _, _ => s

/-- The boundary, step and point whose writes the commit of a group completes (R242): a point's two copies follow each
other. -/
def bndDone (g : Group) (rest : List Group) (old : Option (Nat × Nat × Nat)) : Option (Nat × Nat × Nat) :=
  match g.bnd with
  | none => old
  | some b => match rest with
    | n :: _ => if n.bnd == some b then old else some b
    | [] => some b

/-- One page commit of the group in progress (R286). -/
def groupPage (s : State) : State :=
  match s.nvs.groups with
  | [] => { s with nvs.gstep := 0, nvs.gleft := 0 }
  | g :: rest =>
    match s.nvs.gstep with
    | 0 => { s with nvs.gstep := 2, nvs.gleft := g.pages }
    | 1 => { s with nvs.gstep := 2, nvs.gleft := g.pages }
    | 2 => if s.nvs.gleft ≤ 1 then { s with nvs.gstep := 3, nvs.gleft := 1 }
           else { s with nvs.gleft := s.nvs.gleft - 1 }
    | 3 => noteCtlEdit g <| releaseWaiter g { s with
        nvs.gstep := 4, nvs.gleft := g.pages, nvs.nGroups := s.nvs.nGroups + 1, nvs.bdone := bndDone g rest s.nvs.bdone
        nvs.journalBad := false }
    | 4 => if s.nvs.gleft ≤ 1 then { s with nvs := { applyGroup g s.nvs with gstep := 5, gleft := 1 } }
           else { s with nvs.gleft := s.nvs.gleft - 1 }
    | _ => { s with nvs.groups := rest, nvs.gstep := 0, nvs.gleft := 0 }

/-- The journal is resolved (R287): a committed group is written home again; a corrupt one raises JOURNAL_CORRUPT. -/
def resolveJournal (s : State) : State :=
  match s.nvs.journal with
  | none => s
  | some g =>
    if s.nvs.journalBad then raise 9 5 { s with nvs.journal := none, nvs.journalBad := false }
    else { s with nvs := { applyGroup g s.nvs with journal := none, replayed := true } }

/-- What a cut of the supply leaves of the journal (R280, R286): a group whose marker stands is replayed at the next boot.
A cut in step 3 or 5 finds the marker's word wholly old or wholly new, as a free value decides. -/
def cutJournal (s : State) : State :=
  let (b, s1) := drawBit s
  let keep := s.nvs.gstep == 4 || ((s.nvs.gstep == 3 || s.nvs.gstep ≥ 5) && b)
  { s1 with nvs.journal := if keep then s.nvs.groups.head? else s.nvs.journal, nvs.groups := [], nvs.gstep := 0,
            nvs.gleft := 0 }

/-! ### Kiln log -/

/-- The next log sequence skips records that are overwritten before the mirror has delivered them (R305). -/
def gapCheck (s : State) : State :=
  let held := (s.nvs.logHead - s.nvs.mirror).toNat
  if held ≥ 16384 && held < 2 ^ 31 then
    let first := s.nvs.logHead - 16383
    let n := (first - s.nvs.mirror).toNat
    let s1 := modRing 5 (fun r => { r with queue := r.queue.filter (fun q => match q.log with
      | some x => !seqNewer first x
      | none => true) }) s
    let s2 := raise 9 7 { s1 with nvs.gap := satAdd s.nvs.gap n, nvs.mirror := first }
    blockEvent 9 2 (le 4 (s.nvs.mirror - 1).toNat ++ le 4 first.toNat) s2
  else s

/-- A log record mirrored on Ring 5 at its length (R305). -/
def mirrorRec (r : Rec) (s : State) : State := deliver 5 ⟨r.seq, r.bytes, some r.seq, none⟩ s

/-- A tamper-log entry or an event-FIFO entry leaves the backup domain once its record has entered the Kiln log or the
SRAM queue (R330, R458); the record has carried the dropped events counted before it. -/
def drainStored (r : Rec) (s : State) : State :=
  if r.typ == 0x00E0 then { s with tmp.log := s.tmp.log.drop 1, tmp.drained := s.tmp.drained + 1 }
  else if r.typ == 0x00B0 then
    { s with rtc.fifo := s.rtc.fifo.drop 1, rtc.dropped := BitVec.ofNat 8 (s.rtc.dropped.toNat - rd r.body 7 1) }
  else s

/-- The array may take a page of its own accord: no last gasp has started, writing is not inhibited, and block protect does
not close the array (R294, R298, R301). -/
def storeOpen (s : State) : Bool := s.nvs.lg.isNone && !s.nvs.inhibit && s.nvs.prot != 3

/-- What a cut leaves of the log append in progress (R280, R303): the old slot, one whose type is cleared, or the record. -/
def cutAppend (s : State) : State :=
  match s.nvs.logQueue with
  | [] => s
  | r :: _ =>
    if s.nvs.ready && storeOpen s then
      let (b, s1) := drawBit s
      let (c, s2) := drawBit s1
      let q := s.nvs.logHead + 1
      let k := q.toNat % 16384
      if !b then s2
      else if c then
        { s2 with nvs.log := tput s.nvs.log k { r with seq := q }, nvs.logBad := s.nvs.logBad.filter (· != k) }
      else { s2 with nvs.logBad := k :: s.nvs.logBad }
    else s

/-- The oldest waiting log record is appended under the next sequence, into its slot or, under PROT 3, the SRAM queue
of 256 (R302, R303), and mirrored. -/
def appendLog (s : State) : State :=
  match s.nvs.logQueue with
  | [] => s
  | r :: rest =>
    let q := s.nvs.logHead + 1
    let r' : Rec := { r with seq := q }
    let s1 := { s with nvs.logQueue := rest, nvs.logHead := q }
    let s2 :=
      if s.nvs.prot == 3 then
        let l := s.nvs.logSram ++ [r']
        if l.length > 256 then { s1 with nvs.logSram := l.drop 1, nvs.gap := satInc s.nvs.gap }
        else { s1 with nvs.logSram := l }
      else { s1 with nvs.log := tput s.nvs.log (q.toNat % 16384) r',
                     nvs.logBad := s.nvs.logBad.filter (· != q.toNat % 16384) }
    gapCheck (mirrorRec r' (drainStored r s2))

/-- Retained log record of a sequence (R303): written, not overwritten, without a double-bit error. -/
def logAt (s : State) (q : W32) : Option Rec :=
  let sram := s.nvs.logSram.find? (fun r => r.seq == q)
  match tget s.nvs.log (q.toNat % 16384) with
  | some r => if r.seq == q && !s.nvs.logBad.contains (q.toNat % 16384) then some r else sram
  | none => sram

/-- LOG_APPEND (R303): not before RESTORE has found the head, nor while a last gasp runs or the array is inhibited (R294,
R298). -/
def execLogAppend (s : State) : Out :=
  .next (if !s.nvs.ready || s.nvs.lg.isSome || s.nvs.inhibit then s else appendLog s)

/-! ### ECC and scrubbing -/

/-- A single-bit error of the array: corrected, written back and counted (R310). -/
def kilnSingle (s : State) : State := raise 9 0 { s with nvs.corr := satInc s.nvs.corr }

/-- A double-bit error of a word that is not a copy of a doubled record (R310). -/
def kilnDouble (s : State) : State := raise 9 1 { s with nvs.uncorr := satInc s.nvs.uncorr }

/-- The factory trim-set record (R205, R220): its contents are the factory's (`Config.factoryO`, `Config.factoryG`), and
a copy that the store does not list stands as shipped. -/
def factoryKey : Nat := nvKey .factory 0
def factoryCopy (s : State) (c : Nat) : NvSlot := (copyOf s factoryKey c).getD ⟨.nat 0, 0, false⟩

/-- A copy as it stands in the array, and as a restart would read it (R289). -/
def heldCopy (s : State) (key c : Nat) : Option NvSlot := if key = factoryKey then some (factoryCopy s c) else copyOf s key c
def soundCopy (s : State) (key c : Nat) : Option NvSlot := (heldCopy s key c).bind (fun x => if x.bad then none else some x)

/-- A double-bit error in a copy of a doubled record makes the copy invalid. With a valid other copy it is masked: the copy
is rebuilt, in service at once, before by RESTORE (R290, R310); without one it is not masked. -/
def kilnCopyDouble (key copy : Nat) (s : State) : State :=
  let spoilt := match heldCopy s key (copy % 2) with
    | some c => tput s.nvs.recs (2 * key + copy % 2) { c with bad := true }
    | none => s.nvs.recs
  let s0 := { s with nvs.uncorr := satInc s.nvs.uncorr, nvs.recs := spoilt }
  match soundCopy s key (1 - copy % 2) with
  | some o =>
    if s.nvs.ready then
      raise 9 2 { s0 with nvs.recs := tput s.nvs.recs (2 * key + copy % 2) o, nvs.rebuilt := satInc s.nvs.rebuilt }
    else s0
  | none => raise 9 1 s0

/-- A double-bit error in a spread-counter slot: the slot is no longer valid (R292), and the error is not masked. -/
def kilnSpreadDouble (i sl : Nat) (s : State) : State :=
  let old := tgetD s.nvs.spread i (List.replicate 8 (some 0))
  kilnDouble { s with nvs.spread := tput s.nvs.spread i (lmod old (sl % 8) (fun _ => none)) }

/-- A double-bit error of a Kiln word: what the word belongs to is no longer valid (R289, R292, R296, R303), a committed
journal fails its check (R287), and the error is raised unless it is masked. -/
def kilnPlaceDouble (place : EccPlace) (s : State) : State :=
  match place with
  | .kilnCopy key copy => kilnCopyDouble key copy s
  | .spread i sl => kilnSpreadDouble i sl s
  | .logSlot k => kilnDouble { s with nvs.logBad := k % 16384 :: s.nvs.logBad }
  | .journal => kilnDouble { s with nvs.journalBad := true }
  | .lastGasp b => kilnDouble (if b then { s with nvs.lgb := none } else { s with nvs.lga := none })
  | .sram => kilnDouble s
  | .capture => kilnDouble s
  | .kilnOther => kilnDouble s

/-- ECC_ERROR_DETECT (R28, R310, R465): the Kiln array and the PQ capture and result SRAM have their own sources. -/
def execEccErrorDetect (block : Nat) (double : Bool) (place : EccPlace) (s : State) : Out :=
  .next (match place with
    | .sram => raise block (if double then 31 else 30) s
    | .capture => raise 5 (if double then 2 else 30) s
    | p => if double then kilnPlaceDouble p s else kilnSingle s)

/-- SCRUB_READ (R310): the scrubber reads a word of the page it stands on, and moves to the next page. It reads once the
device has left POR. -/
def execScrubRead (err : EccKind) (place : EccPlace) (s : State) : Out :=
  let wrap := s.nvs.scrubPage == 0x7FFF
  let s1 := { s with nvs.scrubPage := s.nvs.scrubPage + 1,
                     nvs.passes := if wrap then s.nvs.passes + 1 else s.nvs.passes }
  .next (if s.boot.st == .off || s.boot.st == .backup || s.boot.st == .por then s
    else match err with
      | .clean => s1
      | .single => kilnSingle s1
      | .double => kilnPlaceDouble place s1)

end Sys2Proof.Machine
end

