-- ==== Sys2Proof/Machine/Operands.lean ====
section
/-!
DEFINITION. The operand forms that requests share: the address check (R25, R26, R351), the common order of checks of a
Ring 0 command (R343, R349, R351), and forwarding to a worker (R352, R387).
-/
namespace Sys2Proof.Machine

/-- Where an address leads (R26): this chip, a worker of a ring, or a refusal. -/
inductive Dest where
  | own
  | worker (ring pos : Nat)
  | refused (status : W16)
  deriving DecidableEq, Repr

def getCRing (s : State) (k : Nat) : CRing := tgetD s.coil.rings k Init.cring
def setCRing (k : Nat) (x : CRing) (s : State) : State := { s with coil.rings := tput s.coil.rings k x }
def getEnt (s : State) (k pos : Nat) : WEnt := tgetD (getCRing s k).ents pos Init.went
def setEnt (k pos : Nat) (e : WEnt) (s : State) : State :=
  let c := getCRing s k
  setCRing k { c with ents := tput c.ents pos e } s
def ringEn (s : State) (k : Nat) : Bool := bit (getCRing s k).cfg 31

/-- R26, steps 1 to 3, on ring and position. A worker's own requests have passed its manager's check. -/
def addrCheck (s : State) (ring pos : Nat) : Dest :=
  match s.boot.role with
  | .manager =>
    if ring = 0 ∧ pos = 0 then .own
    else if pos = 0 then .refused statusRange
    else if !ringEn s ring then .refused statusRange
    else
      let st := (getEnt s ring pos).state
      if st == 2 || st == 3 then .worker ring pos else .refused statusUnavailable
  | .worker =>
    if ring = s.coil.w.ring.toNat ∧ pos = s.coil.w.pos.toNat then .own else .refused statusRange
  | _ => if ring = 0 ∧ pos = 0 then .own else .refused statusRange

/-- A worker's K_down and K_up as the COIL engines' key cache holds them (R426). -/
def cacheOf (s : State) (k pos : Nat) : Option (Share × Share) := tget s.sgr.cache (k * 128 + pos)
def downKey (s : State) (k pos : Nat) : Option (List Byte) := (cacheOf s k pos).map (fun x => x.1.key)
def upKey (s : State) (k pos : Nat) : Option (List Byte) := (cacheOf s k pos).map (fun x => x.2.key)

def getPort (s : State) (p : Nat) : Port := tgetD s.coil.ports p Init.port
def setPort (p : Nat) (x : Port) (s : State) : State := { s with coil.ports := tput s.coil.ports p x }

/-- The manager's port toward a worker: that of the worker's selected direction, or the ring's other port while that
one is down (R381, R371). -/
def downPort (s : State) (k pos : Nat) : Nat :=
  let p := if (getEnt s k pos).ccw then 2 * k + 1 else 2 * k
  if (getPort s p).wrap then 4 * k + 1 - p else p

/-- An AUTH frame of the manager to a worker (R385); without the worker's key no frame leaves. -/
def sendDown (k pos cls typ : Nat) (payload : List Byte) (s : State) : State :=
  match downKey s k pos with
  | none => s
  | some key =>
    let f := authFrame (downPort s k pos) cls typ false pos 0 k key s.nvs.session s.coil.ownCtr payload
    emit (.frame f) { s with coil.ownCtr := s.coil.ownCtr + 1 }

/-- Forward a request to a worker in a COMMAND frame (R352, R387). -/
def forward (w : Waiter) (k pos : Nat) (buf : List Byte) (s : State) : State :=
  if buf.length > 2040 then complete w statusBadLength 0 [] s
  else
    let t := s.hif.mtag
    let s1 := waitReq w { s with hif.mtag := t + 1, hif.fwd := s.hif.fwd ++ [⟨w, k, pos, t, w.op, s.slot, nowStamp s, none⟩] }
    sendDown k pos 1 0 ([BitVec.ofNat 8 (w.ring % 16), w.op] ++ zeros 2 ++ le 4 t.toNat ++ buf) s1

/-- The target of a Ring 0 command (R351): bits 16 to 8 of inline bytes 16 to 19; other bits zero. -/
def targetOf (r : Req) : Option (Nat × Nat) :=
  let t := rd r.inl 0 4
  if t % 256 = 0 ∧ t < 2 ^ 17 then some (t / 2 ^ 15, t / 2 ^ 8 % 128) else none

/-- The destination of a Ring 0 command; a request out of a COMMAND frame is for this chip (R387). -/
def cmdDest (r : Req) (s : State) : Dest :=
  match r.via with
  | .coil => .own
  | .host =>
    match targetOf r with
    | none => .refused statusRange
    | some (k, pos) => addrCheck s k pos

/-- The common checks of a Ring 0 command: NOT_READY before METERING, BAD_LENGTH, the address check, then its own
(R343, R349, R351, R352). -/
def ring0 (op : Byte) (lenOk : Nat → Bool) (r : Req) (s : State) (body : Waiter → State → Ans) : Out :=
  let w := reqWaiter r 0 op
  .next (if !metering s then complete w statusNotReady 0 [] s
    else if !lenOk r.buf.length then complete w statusBadLength 0 [] s
    else match cmdDest r s with
      | .refused st => complete w st 0 [] s
      | .worker k pos => forward w k pos r.buf s
      | .own => answer w (body w s))

/-- Sequential checks: the status of the first condition that holds (R342). -/
def firstBad : List (Bool × W16) → Option W16
  | [] => none
  | (c, st) :: t => if c then some st else firstBad t

/-- A command whose write goes to a Kiln record: refused where PROT forbids it (R302), else queued, completing once
written, with `f` its effect on the rest of the state. From a freeze of R14 on the write is never made: the command
waits without effect (R286, R294 step 3). -/
def writeCmd (key : Nat) (v : NvVal) (pages : Nat) (w : Waiter) (f : State → State) (s : State) : Ans :=
  if writeForbidden s key then .fail statusDenied (protRefuse s)
  else if gasped s then .wait s
  else .wait (commitRec key v pages (some (w, statusOk)) (f s))

/-- Such a command with an effect that comes with its completion, at the commit of the second copy. -/
def writeCmdEff (key : Nat) (v : NvVal) (pages : Nat) (w : Waiter) (eff : Option GroupEff) (f : State → State) (s : State) : Ans :=
  if writeForbidden s key then .fail statusDenied (protRefuse s)
  else if gasped s then .wait s
  else .wait (commitDone key v pages (some (w, statusOk)) eff (f s))

/-! ### Ball ownership (R488-R490) is checked in Pin.lean; channel numbering here -/

/-- Stream index of a voltage channel, a current channel, a shadow and an auxiliary modulator (DEC_CRMSIDX). -/
def vIdx (c : Nat) : Nat := c
def iIdx (c : Nat) : Nat := 12 + c
def smIdx (b : Nat) : Nat := 60 + b
def amIdx (a : Nat) : Nat := 63 + a

end Sys2Proof.Machine
end

