-- ==== Sys2Proof/Machine/Pin.lean ====
section
/-!
DEFINITION. The balls and the pin ownership unit (R488-R496): claims and releases, levels, GPIO, EVOUT, the drive
check and the TAP.
-/
namespace Sys2Proof.Machine

def getBall (s : State) (n : Nat) : Ball := tgetD s.pin.fb n Init.ball
def modBall (n : Nat) (f : Ball → Ball) (s : State) : State :=
  { s with pin.fb := tput s.pin.fb n (f (getBall s n)) }

/-- Function codes of R489. -/
def fnCF : BitVec 4 := 1
def fnCTL : BitVec 4 := 2
def fnSQW : BitVec 4 := 3
def fnEVOUT : BitVec 4 := 4
def fnOptTx : BitVec 4 := 5
def fnOptRx : BitVec 4 := 6
def fnGPIO : BitVec 4 := 7
def fnECREQ : BitVec 4 := 8

/-- A claim of ball `n` by a function and owner would be granted: the ball is free, or already carries just that
(R489, R490); while the optical port is enabled FB30 and FB31 carry its functions, so others are refused (R491). -/
def claimOk (s : State) (n : Nat) (f : BitVec 4) (owner : Nat) : Bool :=
  let b := getBall s n
  b.func == 0 || (b.func == f && (f == fnECREQ || b.owner == owner))

/-- Grant a claim; the ball stays an input until its function drives it (R490). -/
def claim (n : Nat) (f : BitVec 4) (owner : Nat) (s : State) : State :=
  modBall n (fun b => { b with func := f, owner := owner }) s

/-- A function's claim at RESTORE; one that finds its ball taken sets the ball's bit in PIN_REFUSED (R490). -/
def claimRestore (n : Nat) (f : BitVec 4) (owner : Nat) (s : State) : State × Bool :=
  if claimOk s n f owner then (claim n f owner s, true)
  else ({ s with pin.refused := setBit s.pin.refused n true }, false)

/-- Release a ball to its free state: an input (R490). -/
def release (n : Nat) (s : State) : State :=
  modBall n (fun b => { b with func := 0, owner := 0, drive := false, lvl := false }) s

/-- Drive a ball of a function to a level. -/
def driveBall (n : Nat) (lvl : Bool) (s : State) : State := modBall n (fun b => { b with drive := true, lvl := lvl }) s

/-- A function's ball stops driving. -/
def undrive (n : Nat) (s : State) : State := modBall n (fun b => { b with drive := false, lvl := false }) s

/-- EXTEST or HIGHZ acts on the balls only while RESETn is held low (R494): from RESETN_ASSERT to POR_END (log entry
116). -/
def scanActs (s : State) : Bool := s.boot.resetnLow && (s.pin.jtag == .extest || s.pin.jtag == .highz)

/-- A PWM output is in the ON part of its period: round(PERIOD × duty / 10,000) µs in whole slot cycles (R271). -/
def pwmOn (s : State) (x : Ctl) : Bool :=
  let us := (2 * x.cfg.period.toNat * x.duty + 10000) / 20000
  x.duty ≥ 10000 || (x.duty > 0 && s.slot - x.lastFire.getD s.slot < 64 * ((768 * us + 1000) / 2000))

/-- Level of a PWM ball follows its output, which drives high when ON unless POL is set (R265). -/
def pwmLevel (s : State) (b : Ball) : Bool :=
  match b.func.toNat, tget s.crd.ctl b.owner with
  | 2, some x => if x.cfg.kind == 2 then pwmOn s x != x.cfg.pol else b.lvl
  | _, _ => b.lvl

/-- Level of a ball the chip drives; of an input the level outside, which no command brings and which is a free
value (log entry 8). -/
def ballLevel (s : State) (n : Nat) : Bool :=
  let b := getBall s n
  if b.drive && !scanActs s then pwmLevel s b else Config.freeBit (s.free + n)

/-- The PIN registers can be written: exposed from FIRED (R401), by a host (R492), not in fail-stop from step 5 on
(R478). -/
def pinWritable (s : State) : Bool := s.boot.fired && !isWorker s && s.flt.phase != .safe

/-- A ball carries GPIO. -/
def isGpio (s : State) (n : Nat) : Bool := (getBall s n).func == fnGPIO

/-- PIN_GPIOEN as read: 1 only for balls that carry GPIO. -/
def gpioEn (s : State) : W32 := (List.range 32).foldl (fun w n => setBit w n (isGpio s n)) 0

/-- Make a GPIO ball drive or float as DIR and OUT say (R492); driven from METERING on, holding its level in fail-stop,
and no output before (R493, log entry 117). -/
def gpioApply (n : Nat) (s : State) : State :=
  if isGpio s n then
    modBall n (fun b => { b with drive := bit s.pin.gpioDir n && (metering s || s.boot.st == .failstop), lvl := bit s.pin.gpioOut n }) s
  else s

/-- One bit of a PIN_GPIOEN write: a 1 claims a free ball as an input, a refused claim sets PIN_REFUSED, a 0 releases
a GPIO ball (R490). -/
def gpioEnBit (v : W32) (s : State) (n : Nat) : State :=
  if bit v n then
    if isGpio s n then s
    else if claimOk s n fnGPIO 0 then claim n fnGPIO 0 s
    else { s with pin.refused := setBit s.pin.refused n true }
  else if isGpio s n then
    release n { s with pin.gpioDir := setBit s.pin.gpioDir n false }
  else s

/-- A write of PIN_GPIOEN (R490, R492). -/
def writeGpioEn (v : W32) (s : State) : State := (List.range 32).foldl (gpioEnBit v) s

/-- PIN_GPIOEN_WRITE. -/
def execPinGpioenWrite (v : W32) (s : State) : Out := .next (if pinWritable s then writeGpioEn v s else s)

/-- A write of PIN_GPIODIR: ignored for balls that do not carry GPIO. -/
def writeGpioDir (v : W32) (s : State) : State :=
  let s1 := { s with pin.gpioDir := v &&& gpioEn s }
  (List.range 32).foldl (fun t n => gpioApply n t) s1

def writeGpioOut (v : W32) (s : State) : State :=
  let s1 := { s with pin.gpioOut := v }
  (List.range 32).foldl (fun t n => gpioApply n t) s1

/-- The angle-action entry of EVOUTj: 59 + j, EVERY mode, kind EVOUT (R492). -/
def evoutEntry (w : W32) : AngEnt :=
  ⟨0, BitVec.ofNat 16 (fld w 15 0), true, bit w 31, false, 3, BitVec.ofNat 5 (fld w 28 24), 0⟩

/-- A write of PIN_EVOUTj (R492, R490): BALL is fixed while EN is 1, a width of 0 is ignored, a refused claim leaves EN
0. -/
def writeEvout (j : Nat) (v : W32) (s : State) : State :=
  let old := nth s.pin.evout j 0x00010000
  let on := bit old 31
  let ball := if on then fld old 28 24 else fld v 28 24
  let width := if fld v 23 16 = 0 then fld old 23 16 else fld v 23 16
  let img (en : Bool) : W32 := BitVec.ofNat 32 (bitAt en 31 + ball * 2 ^ 24 + width * 2 ^ 16 + fld v 15 0)
  let put (en : Bool) (t : State) : State := { t with pin.evout := lmod t.pin.evout j (fun _ => img en) }
  if bit v 31 then
    if on then put true s
    else if claimOk s ball fnEVOUT j then
      let s1 := put true (claim ball fnEVOUT j s)
      let s2 := if metering s then driveBall ball false s1 else s1
      { s2 with whl.ang := tput s2.whl.ang (59 + j) (evoutEntry (img true)) }
    else { put false s with pin.refused := setBit s.pin.refused ball true }
  else if on then
    let s1 := put false (release ball s)
    { s1 with whl.ang := tdel s1.whl.ang (59 + j) }
  else put false s

/-- PIN_EVOUT_WRITE. -/
def execPinEvoutWrite (j : Nat) (v : W32) (s : State) : Out :=
  .next (if pinWritable s && j < 4 then writeEvout j v s else s)

/-- EVOUT_PULSE_END (R492). -/
def execEvoutPulseEnd (j : Nat) (s : State) : Out :=
  let w := nth s.pin.evout j 0
  let n := fld w 28 24
  .next (if j < 4 && bit w 31 && (getBall s n).func == fnEVOUT then modBall n (fun b => { b with lvl := false }) s else s)

/-- A change of ANGLE or WIDTH acts at the turn boundary (R492). -/
def evoutTurn (s : State) : State :=
  (List.range 4).foldl (fun t j =>
    let w := nth t.pin.evout j 0
    if bit w 31 then { t with whl.ang := tput t.whl.ang (59 + j) (evoutEntry w) } else t) s

/-- DRIVE_MISMATCH (R495): balls 0 to 31 FB, 32 to 47 TRIP, 48 SYNCOUT, 49 FAILn (checked while it drives low). Not
while EXTEST acts; a ball that is not driven is not checked. -/
def execDriveMismatch (n : Nat) (s : State) : Out :=
  .next (if scanActs s || !running s then s
    else if n < 32 then
      if (getBall s n).drive then raise 18 0 { s with pin.mism0 := setBit s.pin.mism0 n true } else s
    else if n < 49 then raise 18 0 { s with pin.mism1 := setBit s.pin.mism1 (n - 32) true }
    else if n = 49 ∧ s.pin.failn then raise 18 0 { s with pin.mism1 := setBit s.pin.mism1 17 true }
    else s)

/-- IDCODE: version 1, part 0x6048 (R494). -/
def idcode : W32 := 0x16048B47

/-- JTAG_INSTRUCTION (R494): the TAP takes the instruction unless the lock fuse holds it in Test-Logic-Reset; IDCODE
puts the chip's code out. -/
def execJtagInstruction (c : Jtag) (s : State) : Out :=
  .next (if s.fuses.jtagLock || !mainPower s then s
    else if c == .idcode then emit (.tapData idcode) { s with pin.jtag := c }
    else { s with pin.jtag := c })

/-- FUNC, OWNER, LEVEL and SLEW of PIN_FBCFG. -/
def fbcfgImage (s : State) (n : Nat) : W32 :=
  let b := getBall s n
  BitVec.ofNat 32 (putAt (min b.owner 255) 8 16 + b.func.toNat * 2 ^ 8 + bitAt (ballLevel s n) 2 + b.slew.toNat)

end Sys2Proof.Machine
end

