-- ==== Sys2Proof/Machine/Rtc.lean ====
section
/-!
DEFINITION. The RTC and the backup domain (R313-R333): calendar, reading and setting the time, oscillator, trim,
square wave and event inputs. What a commit does to other blocks stands with RTC_COMMIT_TICK.
-/
namespace Sys2Proof.Machine

/-- Seconds in the 400-year cycle: S runs from 0 to one less (R317). -/
def rtcRange : Nat := 12622780800

/-- Year, month and day of a day count from 2000-01-01, Gregorian (R317). -/
def civil (days : Nat) : Nat × Nat × Nat :=
  let z := days + 146097 - 60
  let era := z / 146097
  let doe := z % 146097
  let yoe := (doe - doe / 1460 + doe / 36524 - doe / 146096) / 365
  let doy := doe - (365 * yoe + yoe / 4 - yoe / 100)
  let mp := (5 * doy + 2) / 153
  let d := doy - (153 * mp + 2) / 5 + 1
  let m := if mp < 10 then mp + 3 else mp - 9
  (1600 + era * 400 + yoe + (if m ≤ 2 then 1 else 0), m, d)

/-- Day count from 2000-01-01 of a date (R317). -/
def dayCount (y m d : Nat) : Nat :=
  let y' := if m ≤ 2 then y - 1 else y
  let era := y' / 400
  let yoe := y' % 400
  let mp := if m > 2 then m - 3 else m + 9
  let doy := (153 * mp + 2) / 5 + d - 1
  let doe := yoe * 365 + yoe / 4 - yoe / 100 + doy
  era * 146097 + doe - (4 * 146097 + 146097 - 60)

def leapYear (y : Nat) : Bool := y % 4 == 0 && (y % 100 != 0 || y % 400 == 0)

/-- Days of a month. -/
def monthDays (y m : Nat) : Nat :=
  match m with
  | 2 => if leapYear y then 29 else 28
  | 4 | 6 | 9 | 11 => 30
  | _ => 31

/-- A date and time that exists (R321). -/
def dateOk (y mo d h mi se : Nat) : Bool :=
  2000 ≤ y && y ≤ 2399 && 1 ≤ mo && mo ≤ 12 && 1 ≤ d && d ≤ monthDays y mo && h ≤ 23 && mi ≤ 59 && se ≤ 59

def toSeconds (y mo d h mi se : Nat) : Nat := dayCount y mo d * 86400 + h * 3600 + mi * 60 + se

/-- Day of the week, 0 Monday to 6 Sunday; 2000-01-01 is a Saturday (R317). -/
def weekday (days : Nat) : Nat := (days + 5) % 7

/-! ### Counting -/

/-- The RTC time in ticks of 1/32,768 s. -/
def rtcTicks (r : Rtc) : Nat := r.s * 32768 + r.pre.toNat

/-- Adjustments due after `n` ticks of a window with adjustment `a`: spread evenly, so at most one per 1,024 ticks. -/
def adjDue (a : Int) (n : Nat) : Int := a * n / 2 ^ 20

/-- What the next edge adds to the prescaler: one, two for an inserted count, nothing for a skipped one (R326). Where in its
window a count is inserted or skipped is the model's choice (DESIGN CHOICE, log entry 113). -/
def tickCounts (r : Rtc) : Nat :=
  let due := adjDue r.a (r.winTick + 1)
  if due > r.adjDone then 2 else if due < r.adjDone then 0 else 1

/-- An edge is counted; `d` is what the time moved beyond one tick, kept for the stamps of earlier edges (R329). -/
def countEdge (d : Int) (r : Rtc) : Rtc :=
  { r with
    winTick := r.winTick + 1, adjDone := adjDue r.a (r.winTick + 1), edges := r.edges + 1
    jumps := if d = 0 then r.jumps else ((r.edges + 1, d) :: r.jumps).take 8 }

/-- One 32.768 kHz edge. The clock holds while the oscillator is stopped or the domain in reset (R325, R315); the last tick
of the cycle stays for RTC_WRAP (R319). -/
def rtcTick (r : Rtc) : Rtc :=
  if !r.oscRun || r.inReset then r
  else
    let k := tickCounts r
    let t := min (rtcTicks r + k) (rtcRange * 32768 - 1)
    { countEdge ((k : Int) - 1) r with s := t / 32768, pre := BitVec.ofNat 15 t, held := k == 0 }

/-- The time at the edge `back` edges ago, in ticks: what commits and trims moved since then is taken back. -/
def pastTicks (r : Rtc) (back : Nat) : Nat :=
  let moved := (r.jumps.filter (fun x => x.1 + back > r.edges)).foldl (fun (a : Int) x => a + x.2) 0
  (((rtcTicks r : Int) - back - moved) % (rtcRange * 32768 : Nat)).toNat

/-- One slot clock of the RTC: 750 of them make a tick (R68, R317); nothing moves while the clock holds (R325). -/
def rtcSlot (r : Rtc) : Rtc :=
  if !r.oscRun || r.inReset then r
  else if r.sub ≥ 749 then rtcTick { r with sub := 0 } else { r with sub := r.sub + 1 }

/-! ### Records -/

/-- Flags of an RTC record: INVALID and WRAP before and after (R324). -/
def rtcFlags (i0 w0 i1 w1 : Bool) : Nat := bitAt i0 0 + bitAt w0 1 + bitAt i1 2 + bitAt w1 3

/-- The RTC record (R324). -/
def rtcRecord (kind flags : Nat) (oldS : Nat) (oldFrac : W16) (newS : Nat) (step : Int) (s : State) : State :=
  logRec 0x00B1 (nowStamp s)
    (addrBytes s 0 ++ le 1 kind ++ le 1 flags ++ zeros 2 ++ le 4 oldS ++ le 2 oldFrac.toNat ++ le 1 (oldS / 2 ^ 32)
      ++ le 1 (newS / 2 ^ 32) ++ leI 8 step) s

/-! ### Reading the time (R320) -/

def rtcSecImage (sec : Nat) (frac : W16) : W32 := BitVec.ofNat 32 (frac.toNat * 2 ^ 16 + sec % 60)
def rtcMinImage (sec : Nat) : W32 := BitVec.ofNat 32 (sec / 60 % 60)
def rtcHourImage (sec : Nat) : W32 := BitVec.ofNat 32 (sec / 3600 % 24)
def rtcDayImage (sec : Nat) : W32 :=
  let d := sec / 86400
  BitVec.ofNat 32 (weekday d * 2 ^ 8 + (civil d).2.2)
def rtcMonImage (sec : Nat) : W32 := BitVec.ofNat 32 (civil (sec / 86400)).2.1
def rtcEpochImage (sec : Nat) : W32 := BitVec.ofNat 32 sec
def rtcYearImage (sec : Nat) : W32 := BitVec.ofNat 32 (sec / 2 ^ 32 * 2 ^ 16 + (civil (sec / 86400)).1)

/-- The time a requester reads: its shadow during a freeze, else the live time (R320). -/
def readTime (s : State) (who : Nat) : Nat × W16 :=
  match tget s.rtc.shadows who with
  | some h => (h.s, h.frac)
  | none => (s.rtc.s, rtcFrac s)

/-- A read of RTC_SEC captures every time register into the requester's shadows and starts a freeze. -/
def captureTime (who : Nat) (s : State) : State :=
  { s with rtc.shadows := tput s.rtc.shadows who ⟨s.rtc.s, rtcFrac s, s.slot⟩ }

/-- The three requesters of R320: 0 BAR0, 1 LCP, 2 ACPs. Before FIRED the registers are not exposed at BAR0 and read 0
(R401). -/
def execRtcSecRead (who : Nat) (s : State) : Out :=
  .next (if who = 0 && !s.boot.fired then emit (.readVal 0x2800 0) s
    else if who < 3 then emit (.readVal 0x2800 (rtcSecImage s.rtc.s (rtcFrac s))) (captureTime who s) else s)

/-- RTC_YEAR_READ: the shadow is returned and the freeze ends. -/
def execRtcYearRead (who : Nat) (s : State) : Out :=
  .next (if who = 0 && !s.boot.fired then emit (.readVal 0x2818 0) s
    else if who < 3 then
    emit (.readVal 0x2818 (rtcYearImage (readTime s who).1)) { s with rtc.shadows := tdel s.rtc.shadows who }
    else s)

/-- RTC_FREEZE_EXPIRY: the freeze ends 1 ms after the capture. -/
def execRtcFreezeExpiry (who : Nat) (s : State) : Out :=
  .next (match tget s.rtc.shadows who with
    | some h => if s.slot - h.at_ ≥ msSlots then { s with rtc.shadows := tdel s.rtc.shadows who } else s
    | none => s)

/-! ### Setting the time (R321, R322) -/

/-- RTC_SET's checks in the order of R321; the staging registers take the set, and the command waits for its commit. -/
def rtcSet (r : Req) (w : Waiter) (s : State) : Ans :=
  let mode := rd r.buf 0 1
  let ofs := rdI r.buf 4 8
  let frac := rd r.buf 12 2
  let y := rd r.buf 4 2
  let ok := dateOk y (rd r.buf 6 1) (rd r.buf 7 1) (rd r.buf 8 1) (rd r.buf 9 1) (rd r.buf 10 1)
  let bad := mode > 1 || !zerosAt r.buf 1 3 || !zerosAt r.buf 14 2 ||
    (mode == 0 && (rd r.buf 11 1 != 0 || frac % 2 != 0)) || (mode == 1 && (ofs % 2 != 0 || frac != 0))
  match firstBad [(bad, statusRange), (s.rtc.staged.isSome, statusBusy), (mode == 1 && s.rtc.invalid, statusDenied)] with
  | some st => .fail st s
  | none =>
    if mode == 0 && !ok then .fail statusBadDate { s with rtc.badDate := true }
    else if mode == 0 then
      .wait { s with
        rtc.staged := some ⟨true, some w, false⟩,
        rtc.stage0 := BitVec.ofNat 32 (rd r.buf 8 1 * 2 ^ 16 + rd r.buf 9 1 * 2 ^ 8 + rd r.buf 10 1),
        rtc.stage1 := BitVec.ofNat 32 (y * 2 ^ 16 + rd r.buf 6 1 * 2 ^ 8 + rd r.buf 7 1),
        rtc.stage2 := BitVec.ofNat 32 (frac * 2 ^ 16) }
    else
      .wait { s with
        rtc.staged := some ⟨false, some w, false⟩,
        rtc.ofs := BitVec.ofInt 64 ofs }

def execRtcSet (r : Req) (s : State) : Out := ring0 0x38 (· == 16) r s (rtcSet r)

/-- RTC_COMMIT_GO: the staged set passes to the backup domain (R322). -/
def execRtcCommitGo (s : State) : Out :=
  .next (match s.rtc.staged with
    | some g => { s with rtc.staged := some { g with go := true }, rtc.cmode := !g.abs }
    | none => s)

/-- The time a commit sets, in ticks (R322): absolute, the staged date with fraction ÷ 2; relative, the time of the
commit tick plus the offset, a trim of that tick among it; none when the date does not exist or the result leaves the range of R317. -/
def commitTicks (r : Rtc) (abs : Bool) : Option Nat :=
  if abs then
    let y := fld r.stage1 27 16
    let mo := fld r.stage1 11 8
    let d := fld r.stage1 4 0
    let h := fld r.stage0 20 16
    let mi := fld r.stage0 13 8
    let se := fld r.stage0 5 0
    if dateOk y mo d h mi se then some (toSeconds y mo d h mi se * 32768 + fld r.stage2 31 16 / 2) else none
  else
    let t : Int := (rtcTicks r : Int) + tickCounts r + r.ofs.toInt / 2
    if 0 ≤ t ∧ t < rtcRange * 32768 then some t.toNat else none

/-! ### Oscillator, trim, battery -/

/-- OSC_STOP (R325): the clock holds and is invalid; reported at once with main power present, else at RESTORE. -/
def execOscStop (s : State) : Out :=
  .next (if !s.rtc.oscRun then s
    else
      let i := s.rtc.invalid
      let s1 := noteQual s { s with rtc.oscRun := false, rtc.invalid := true }
      if mainPower s then
        raiseLive 10 1 (rtcRecord 5 (rtcFlags i s.rtc.wrap true s.rtc.wrap) s.rtc.s (rtcFrac s) s.rtc.s 0 s1)
      else { s1 with rtc.oscStopped := true })

/-- OSC_RUN (R325): after 64 edges the clock counts on from the held value; RTC_INVALID stays set. Without main power the
record waits for RESTORE. -/
def execOscRun (s : State) : Out :=
  .next (if s.rtc.oscRun then s
    else
      let s1 := fallLive 10 1 { s with rtc.oscRun := true }
      if mainPower s then
        rtcRecord 6 (rtcFlags s.rtc.invalid s.rtc.wrap s.rtc.invalid s.rtc.wrap) s.rtc.s (rtcFrac s) s.rtc.s 0 s1
      else { s1 with rtc.oscRan := true })

/-- A = TRIM + COMP, clamped to −537 to +537 (R326). -/
def trimSum (r : Rtc) : Int := max (-537) (min 537 (r.trim.toInt + r.comp.toInt))

/-- TRIM_WINDOW (R326): a window of 2^20 ticks starts with the new adjustment. -/
def execTrimWindow (s : State) : Out :=
  .next { s with rtc.a := trimSum s.rtc, rtc.winTick := 0, rtc.adjDone := 0 }

/-- VBAT_CHECK (R314, R332): once per minute while main power is present. -/
def execVbatCheck (low : Bool) (s : State) : Out :=
  .next (if !mainPower s then s
    else if low then raiseLive 10 2 { s with rtc.vbatLow := true }
    else fallLive 10 2 { s with rtc.vbatLow := false })

/-! ### Square wave (R328) -/

/-- Level that the present time gives the square wave; FREQ 3 follows the crystal and toggles at each edge. -/
def sqwNow (r : Rtc) : Bool :=
  match fld r.sqw 1 0 with
  | 0 => r.s % 60 < 30
  | 1 => r.pre.toNat < 16384
  | 2 => r.pre.toNat / 32 % 2 == 0
  | _ => !r.sqwLevel

/-- Put the square wave's level on its ball while the function drives it (R328, R493). -/
def sqwDrive (s : State) : State :=
  let n := fld s.rtc.sqw 12 8
  if bit s.rtc.sqw 31 && (getBall s n).func == fnSQW && (metering s || s.boot.st == .failstop) then
    driveBall n (sqwNow s.rtc) { s with rtc.sqwLevel := sqwNow s.rtc }
  else s

/-- At a commit the output takes the level that the new time gives; FREQ 3 follows the crystal (R328). -/
def sqwCommit (s : State) : State := if fld s.rtc.sqw 1 0 == 3 then s else sqwDrive s

/-- SQW_EDGE (R328). -/
def execSqwEdge (s : State) : Out := .next (sqwDrive s)

/-! ### Event inputs (R329-R331) -/

/-- EVENT_INPUT_EDGE (R329, R330): the accepted level changes; a change of the selected edge places an entry, stamped
with the tick of the first sample of the run, or is dropped and counted when the FIFO is full. -/
def execEventInputEdge (e : Nat) (rising : Bool) (s : State) : Out :=
  let en := bit s.rtc.evcfg (4 * e + 3)
  let edge := fld s.rtc.evcfg (4 * e + 2) (4 * e + 1)
  let sel := if rising then edge % 2 == 1 else edge ≥ 2
  let back := 2 ^ fld s.rtc.evdeb (4 * e + 3) (4 * e) - 1
  let t := pastTicks s.rtc back
  let live := mainPower s && s.whl.run
  let st := pathStamp s (back * 750 + Config.evSyncDelay)
  let ent : EvEnt :=
    { sec := BitVec.ofNat 32 (t / 32768), frac := BitVec.ofNat 16 (2 * (t % 32768)), input := e, rising := rising,
      backup := !mainPower s, invalid := s.rtc.invalid, wrap := s.rtc.wrap,
      wheel := if live then st.wheel else 0, wqual := if live then BitVec.ofNat 16 (st.qual.toNat % 8 + st.qual.toNat / 32 % 2 * 32) else 3 }
  .next (if e ≥ 8 || !en || s.rtc.inReset || bit s.rtc.evLevel e == rising then s
    else
      let s1 := { s with rtc.evLevel := setBit s.rtc.evLevel e rising }
      if !sel then s1
      else if s.rtc.fifo.length ≥ 16 then { s1 with rtc.dropped := satInc s.rtc.dropped }
      else { s1 with rtc.fifo := s.rtc.fifo ++ [ent] })

/-- EVENT_FIFO_DRAIN (R330, R331): in METERING the oldest entry becomes an event-input record; the entry leaves the FIFO
once its record has been appended. -/
def execEventFifoDrain (s : State) : Out :=
  .next (match metering s && !s.nvs.logQueue.any (fun r => r.typ == 0x00B0), s.rtc.fifo with
    | true, e :: _ =>
      let q := e.wqual.toNat + bitAt e.invalid 3 + bitAt e.wrap 4
      let body := addrBytes s 0 ++ le 1 e.input ++ le 1 (bitAt e.rising 0) ++ le 1 (bitAt e.backup 0)
        ++ [s.rtc.dropped] ++ zeros 8
      let s1 := logRec 0x00B0 ⟨e.wheel, e.sec, e.frac, BitVec.ofNat 16 q⟩ body s
      if s.rtc.dropped != 0 then raise 10 3 s1 else s1
    | _, _ => s)

/-- RTC_STAT's image. -/
def rtcStatImage (s : State) : W32 :=
  let r := s.rtc
  BitVec.ofNat 32 (bitAt r.invalid 0 + bitAt r.wrap 1 + bitAt r.badDate 2 + bitAt r.oscRun 3 + bitAt r.vbatLow 4
    + bitAt (r.staged.any (·.go)) 5 + bitAt r.bkpReset 6 + bitAt r.wrapPend 7 + bitAt r.setPend 8)

def rtcEvstatImage (s : State) : W32 :=
  BitVec.ofNat 32 (s.rtc.dropped.toNat * 2 ^ 24 + s.rtc.evLevel.toNat * 2 ^ 16 + s.rtc.fifo.length)

end Sys2Proof.Machine
end

