-- ==== Sys2Proof/Machine/Wheel.lean ====
section
/-!
DEFINITION. The Wheel (R32-R59, R122, R522): its running, the phase error and lock, the reference list, and SYNC
requests. Actions and beacons that act on other blocks stand with those blocks.
-/
namespace Sys2Proof.Machine

def turnOf (pos : W64) : BitVec 40 := BitVec.ofNat 40 (pos.toNat / 2 ^ 24)
def angleOf (pos : W64) : W16 := BitVec.ofNat 16 (pos.toNat / 2 ^ 8)
/-- The position (turn, angle 0). -/
def turnStart (t : Nat) : W64 := BitVec.ofNat 64 (t % 2 ^ 40 * 2 ^ 24)

/-- Declared nominal frequency in units of 2^-20 Hz (R59). -/
def nominalFreq (cfg : W32) : W32 := if bit cfg 0 then 0x03C00000 else 0x03200000

/-- Δ_T = round(2^31 × 62.5 / r_T) for a rate in units of 2^-20 Hz (R122). -/
def deltaOf (rate : Nat) : W32 := if rate = 0 then 0xFFFFFFFF else satN 32 ((2 * (125 * 2 ^ 50) + rate) / (2 * rate))

/-- One slot clock of the Wheel: 2^38 / (3 × Δ_T) stamp units, held just below angle 0 until the turn boundary. -/
def wheelSlot (w : Whl) : Whl :=
  if !w.run then w
  else
    let acc := w.rem + 2 ^ 38
    let den := 3 * w.delta.toNat
    let n := if den = 0 then 0 else acc / den
    if w.pos.toNat % 2 ^ 24 + n ≥ 2 ^ 24 then
      { w with pos := BitVec.ofNat 64 (w.pos.toNat / 2 ^ 24 * 2 ^ 24 + (2 ^ 24 - 1)), rem := 0 }
    else { w with pos := w.pos + BitVec.ofNat 64 n, rem := if den = 0 then 0 else acc % den }

/-- Slot clocks from the present position to the next angle 0, rounded up (R122). -/
def slotsToBoundary (w : Whl) : Nat :=
  let need := (2 ^ 24 - w.pos.toNat % 2 ^ 24) * (3 * w.delta.toNat) - w.rem
  (need + (2 ^ 38 - 1)) / 2 ^ 38

/-- `k` edges of the 32.768 kHz clock at once, with the adjustments due in them (R326). -/
def rtcTicksN (k : Nat) (r : Rtc) : Rtc :=
  if !r.oscRun || r.inReset then r
  else
    let n := r.winTick + k
    let due := adjDue r.a n
    let t : Int := rtcTicks r + k + (due - r.adjDone)
    let t' := min t.toNat (rtcRange * 32768 - 1)
    let held := if k = 0 then r.held else due < adjDue r.a (n - 1)
    { r with winTick := n, adjDone := due, held := held, s := t' / 32768, pre := BitVec.ofNat 15 t' }

/-- The clocks of the chip advance by `n` slot clocks; the Wheel is moved by its caller. -/
def advance (n : Nat) (s : State) : State :=
  let t := if !s.rtc.oscRun || s.rtc.inReset then s.rtc.sub else s.rtc.sub + n
  { s with slot := s.slot + n, rtc := { rtcTicksN (t / 750) s.rtc with sub := t % 750 } }

/-- The idle step: one slot clock of every clock (log entry 2). -/
def idleStep (s : State) : State :=
  { s with slot := s.slot + 1, rtc := rtcSlot s.rtc, whl := wheelSlot s.whl }

/-- The Wheel starts (R33): turn count from the RTC seconds times the declared nominal, angle 0. -/
def wheelStart (s : State) : State :=
  let f := nominalFreq s.whl.regs.cfg
  { s with whl := { s.whl with
      pos := turnStart (s.rtc.s * (if bit s.whl.regs.cfg 0 then 60 else 50)), rem := 0, run := true,
      freq := f, heldFreq := f, delta := deltaOf f.toNat, prevDelta := deltaOf f.toNat, hold := true, nolock := true } }

/-! ### Reference list (R35-R41, R522) -/

def refByte (w : W32) (n : Nat) : Nat := fld w (8 * n + 7) (8 * n)
/-- An entry is enabled when its bit is set and its channel is 0 to 11. -/
def refEn (w : W32) (n : Nat) : Bool := refByte w n ≥ 128 && refByte w n % 16 < 12
def refCh (w : W32) (n : Nat) : Nat := refByte w n % 16
def refOfs (r : WhlRegs) (n : Nat) : Nat :=
  match n with
  | 0 => fld r.ofs01 15 0
  | 1 => fld r.ofs01 31 16
  | 2 => fld r.ofs23 15 0
  | _ => fld r.ofs23 31 16

def getRef (w : Whl) (n : Nat) : RefEnt := tgetD w.refs n Init.refEnt

/-- First qualified and enabled entry among candidates. -/
def firstQual (w : Whl) (cands : List Nat) : Option Nat :=
  cands.find? (fun n => refEn w.regs.reflist n && (getRef w n).qual)

/-- The Wheel takes a reference and moves onto it under R40: the lock counters start afresh, and LOCK follows R37. -/
def selectRef (n : Nat) (w : Whl) : Whl :=
  { w with active := BitVec.ofNat 2 n, selected := true, goodTurns := 0, badTurns := 0, heldFreq := w.freq }

/-- Holdover after a loss (R39): HOLD, LOCK clear, the frequency frozen at the estimate before the first failed
half-cycle, then the search from the entry after the lost one. -/
def holdoverEnter (s : State) : State :=
  let a := s.whl.active.toNat
  let w := { s.whl with hold := true, lock := false, slew := false, selected := false, freq := s.whl.heldFreq,
                        goodTurns := 0, badTurns := 0 }
  let s1 := raise 3 0 { s with whl := w }
  match firstQual w [(a + 1) % 4, (a + 2) % 4, (a + 3) % 4, a] with
  | some n => { s1 with whl := selectRef n s1.whl }
  | none => raise 3 1 s1

/-- The RMS of `n` fine samples with sum of squares `sq` is at least `p` percent of nominal: nominal RMS is
PEAK × 2^-16 of full scale (6,291,456) / √2 (R35, R97). -/
def rmsAtLeast (sq n peak p : Nat) : Bool := n > 0 && 20000 * sq ≥ n * (p * p) * (96 * peak * (96 * peak))

/-- Sum of squares and number of the fine samples of a stream whose instants lie from slot clock `a` on and before `b`:
the fine samples are kept newest first, the newest at `t`, one every 1,536 slot clocks (R101). -/
def fineSq (a b : Int) : List Smp → Int → Nat × Nat
  | [], _ => (0, 0)
  | x :: l, t =>
    let r := fineSq a b l (t - 1536)
    if a ≤ t && t < b then (r.1 + x.v.natAbs * x.v.natAbs, r.2 + 1) else r

/-- A period within 1/69.0 s to 1/42.5 s, in slot clocks (R35). -/
def periodOk (p : Nat) : Bool := 245760000 ≤ p * 690 && p * 425 ≤ 245760000

/-- Group delay of the fine path, 1.125 ms in slot clocks (R36, R129). -/
def fineDelay : Nat := 27648

/-- Qualification of an entry after a half-cycle of `n` fine samples with sum of squares `sq`, which ends with a zero
crossing at slot clock `at_`; a positive-going one ends a full cycle (R35). -/
def judgeRef (e : RefEnt) (peak sq n at_ : Nat) (rising : Bool) (now : Nat) : RefEnt :=
  let full := rising && e.rise.isSome
  let period := at_ - e.rise.getD 0
  let e1 := { e with
    good := if rmsAtLeast sq n peak 15 then e.good + 1 else 0
    bad := if rmsAtLeast sq n peak 10 then 0 else e.bad + 1
    lastPer := if full then period else e.lastPer
    badPer := if full then (if periodOk period then 0 else e.badPer + 1) else e.badPer
    cross := some at_
    rise := if rising then some at_ else e.rise }
  if e.qual then
    if e1.bad ≥ 2 || e1.badPer ≥ 2 then { e1 with qual := false, good := 0 } else e1
  else if e1.good ≥ 2 && periodOk e1.lastPer then { e1 with qual := true, bad := 0, badPer := 0, since := now } else e1

/-- A voltage channel's set is held by a bank calibration (R215). -/
def setHeld (s : State) (ch : Nat) : Bool := s.cal.held && s.cal.group.toNat == 3 + ch / 3

/-- The active reference lies on a held set: the phase detector does not use its input (R215). -/
def refHeld (s : State) : Bool := s.whl.selected && setHeld s (refCh s.whl.regs.reflist s.whl.active.toNat)

/-- The fine samples of entry `n`'s half-cycle that ends at slot clock `at_` at the balls: sum of squares and number
(R35). -/
def halfCycleSq (s : State) (n at_ : Nat) : Nat × Nat :=
  let x := tgetD s.dec.strm (refCh s.whl.regs.reflist n) Init.strm
  fineSq ((getRef s.whl n).cross.getD at_) at_ x.fine (s.dec.gSlot + 1536 * x.fineN)

/-- REF_HALF_CYCLE (R35, R36, R39): at the present instant the fine stream of entry `n` shows a zero crossing of the
fundamental, positive-going or not; at the balls it lies the fine path's delay earlier. The half-cycle since the crossing
before is judged; the loss of the active entry starts holdover, and an entry that qualifies while none is selected is
taken. A worker ignores its list; entries on a set under calibration keep their state (R215). -/
def execRefHalfCycle (n : Nat) (rising : Bool) (s : State) : Out :=
  .next (if isWorker s || s.flt.phase == .safe || n ≥ 4 || !s.whl.run || !refEn s.whl.regs.reflist n || setHeld s (refCh s.whl.regs.reflist n) then s
    else
      let old := getRef s.whl n
      let at_ := s.slot - fineDelay
      let h := halfCycleSq s n at_
      let new := judgeRef old (fld s.whl.regs.vnom 15 0) h.1 h.2 at_ rising s.slot
      let act := s.whl.selected && s.whl.active.toNat == n
      let held := if act && new.bad == 0 && new.badPer == 0 then s.whl.freq else s.whl.heldFreq
      let s1 := { s with whl := { s.whl with refs := tput s.whl.refs n new, heldFreq := held } }
      if act && old.qual && !new.qual then noteQual s (holdoverEnter s1)
      else if !s.whl.selected && new.qual then { s1 with whl := selectRef n s1.whl }
      else s1)

/-- An entry has stayed qualified for 10 s without interruption (R41). -/
def settledRef (s : State) (n : Nat) : Bool := (getRef s.whl n).qual && s.slot ≥ (getRef s.whl n).since + 10000 * msSlots

/-- REF_REVERT (R41): with REVERT set, an earlier entry that has stayed qualified for 10 s replaces a later active one,
under R40. -/
def execRefRevert (s : State) : Out :=
  .next (if isWorker s || !bit s.whl.regs.cfg 1 || !s.whl.selected then s
    else match firstQual s.whl ((List.range s.whl.active.toNat).filter (settledRef s)) with
      | some n => { s with whl := selectRef n s.whl }
      | none => s)

/-- Entries kept, or started unqualified, when the list changes (R522). -/
def requalify (old new : W32) (refs : Tab RefEnt) : Tab RefEnt :=
  (List.range 4).foldl (fun t n =>
    if refEn old n == refEn new n && refCh old n == refCh new n then t else tdel t n) refs

/-- REF_LIST_APPLY (R522): a change of the list or its offsets takes effect at a turn boundary and is never a loss. -/
def execRefListApply (s : State) : Out :=
  let old := s.whl.regs.reflist
  let new := s.whl.next.reflist
  let a := s.whl.active.toNat
  let w := { s.whl with
    regs := { s.whl.regs with reflist := new, ofs01 := s.whl.next.ofs01, ofs23 := s.whl.next.ofs23 }
    refs := requalify old new s.whl.refs }
  let keep := refEn new a && refEn old a && refCh old a == refCh new a
  .next (noteQual s <| if isWorker s then { s with whl := w }
    else if !s.whl.selected || keep then { s with whl := w }
    else match firstQual w [0, 1, 2, 3] with
      | some n => { s with whl := selectRef n w }
      | none =>
        raise 3 1 { s with whl := { w with hold := true, lock := false, slew := false, selected := false,
                                           goodTurns := 0, badTurns := 0 } })

/-! ### Phase error, frequency and lock at angle 0 (R36-R40) -/

/-- 0.05° and 0.2° in stamp units, rounded down: 2,330 and 9,320. -/
def lockIn : Int := 2330
def lockOut : Int := 9320

/-- LOCK_SET and LOCK_CLEAR (R37, R40): four consecutive turns within 0.05° set LOCK, which clears HOLD and, the first
time, NOLOCK; two consecutive turns above 0.2° clear it. -/
def lockTurn (err : Int) (w : Whl) : Whl :=
  let e : Int := err.natAbs
  let g := if e ≤ lockIn then w.goodTurns + 1 else 0
  let b := if e > lockOut then w.badTurns + 1 else 0
  let w1 := { w with goodTurns := min g 4, badTurns := min b 2, pherr := BitVec.ofInt 32 err,
                     slew := w.selected && e > lockIn }
  if g ≥ 4 then { w1 with lock := true, nolock := false, hold := false }
  else if b ≥ 2 then { w1 with lock := false } else w1

/-- The Wheel's own rate in a turn: the frequency adjusted for slewing by at most 1 % (R40); how fast an error is
removed is not given (log entry 9). -/
def slewedRate (freq : W32) (err : Int) (n : Nat) : Nat :=
  if err = 0 then freq.toNat
  else
    let lim : Int := freq.toNat / 100
    (freq.toNat + max (-lim) (min lim (Config.slew n))).toNat

/-- Stamp units that the Wheel has advanced since slot clock `t`, at the end of a turn: at the rate of that turn, and
before it at the rate of the turn before (R45, R122). -/
def unitsSince (w : Whl) (now t : Nat) : Nat :=
  let n := (now - t) * 2 ^ 38 - w.rem
  let a := 3 * w.delta.toNat
  let b := 3 * w.prevDelta.toNat
  if a = 0 then 0
  else if n ≤ 2 ^ 24 * a || b = 0 then (2 * n + a) / (2 * a)
  else 2 ^ 24 + (2 * (n - 2 ^ 24 * a) + b) / (2 * b)

/-- The phase error at angle 0 between the Wheel and the active reference after its declared offset, in stamp units:
the Wheel's angle at the reference's last positive-going crossing at the balls, less the offset; positive when the
Wheel leads (R32, R36, R37, R59). 0 while no crossing has been seen. -/
def refError (s : State) : Int :=
  let a := s.whl.active.toNat
  match (getRef s.whl a).rise with
  | none => 0
  | some t => wrapS 24 (-(unitsSince s.whl s.slot t : Int) - (refOfs s.whl.regs a * 2 ^ 8 : Nat))

/-- What the Wheel itself does at angle 0: measures, updates frequency and Δ_T, starts the next turn (R36-R40, R122).
`est` is the frequency estimate of R38, of which the rule gives properties and no formula. A worker takes its frequency
from beacons and slews their residual (R52). -/
def wheelAngle0 (est : W32) (s : State) : State :=
  let w := s.whl
  let err := refError s
  let w1 :=
    if isWorker s then w
    else if w.selected && !w.coast && !refHeld s then lockTurn err { w with freq := est }
    else if w.selected then w
    else { w with slew := false }
  let e : Int := if isWorker s then w.pherr.toInt else if w.selected && !w.coast && !refHeld s then err else 0
  let rate := slewedRate w1.freq e s.free
  let w2 := { w1 with
    pos := turnStart ((turnOf w.pos).toNat + 1)
    prevDelta := w.delta
    delta := deltaOf rate
    u := w.u + BitVec.ofNat 63 (256 * w.delta.toNat) }
  { s with whl := w2, free := s.free + 1 }

/-- The clocks reach the instant of angle 0 (log entry 2). -/
def toBoundary (s : State) : State :=
  let n := slotsToBoundary s.whl
  let past := s.whl.rem + n * 2 ^ 38 - (2 ^ 24 - s.whl.pos.toNat % 2 ^ 24) * (3 * s.whl.delta.toNat)
  let s1 := advance n s
  { s1 with whl.rem := past }

/-- Registers that change at a turn boundary without a row of their own; NOM60 waits for the next POR (R59). -/
def whlRegsTurn (w : Whl) : Whl :=
  let c : W32 := BitVec.ofNat 32 (w.next.cfg.toNat / 2 * 2 + w.regs.cfg.toNat % 2)
  { w with regs := { w.regs with cfg := c, vnom := w.next.vnom, synccfg := w.next.synccfg, bcfg := w.next.bcfg } }

/-! ### SYNC requests (R54-R57) -/

/-- Stamp units to the next angle 0. -/
def unitsLeft (w : Whl) : Nat := 2 ^ 24 - w.pos.toNat % 2 ^ 24

/-- Turn at whose angle 0 a command SYNC of a standalone chip executes: the first that begins at least 1 ms on (R55). -/
def commandTurn (w : Whl) : Nat :=
  (turnOf w.pos).toNat + (if unitsLeft w * (3 * w.delta.toNat) ≥ msSlots * 2 ^ 38 then 1 else 2)

/-- Turn B of the first beacon emitted at least 100 µs after the request (R55). -/
def beaconTurn (w : Whl) : Nat :=
  let ahead := 2457600 * 2 ^ 38 / (1000 * (3 * w.delta.toNat))
  let from_ := w.pos.toNat % 2 ^ 24 + ahead
  let at_ := fld w.regs.bcfg 15 0 * 2 ^ 8
  (turnOf w.pos).toNat + (if from_ ≤ at_ then 0 else (from_ - at_ + (2 ^ 24 - 1)) / 2 ^ 24)

/-- A SYNC request (R55, R56): it merges into a pending one, or fixes its execution instant. -/
def syncRequest (ball : Bool) (s : State) : State :=
  match s.whl.sync with
  | some _ => { s with whl.merged := satInc s.whl.merged }
  | none =>
    if isManager s then
      let b := beaconTurn s.whl
      { s with whl.sync := some ⟨some (BitVec.ofNat 40 (b + 2)), none, s.slot, 2⟩ }
    else if ball then { s with whl.sync := some ⟨none, some (s.slot + 16), s.slot, 0⟩ }
    else { s with whl.sync := some ⟨some (BitVec.ofNat 40 (commandTurn s.whl)), none, s.slot, 0⟩ }

/-- SYNCIN_EDGE (R54): acts on the selected edge while SYNCIN_EN is set; ignored on a worker (R24). -/
def execSyncinEdge (falling : Bool) (s : State) : Out :=
  .next (if isWorker s || !bit s.whl.regs.synccfg 0 || bit s.whl.regs.synccfg 1 != falling then s
    else syncRequest true s)

/-- SYNC (R357): addressed to the chip itself; a worker's address completes RANGE; a nonzero record completes RANGE. -/
def execSync (r : Req) (s : State) : Out :=
  let w := reqWaiter r 0 0x03
  .next (if !metering s then complete w statusNotReady 0 [] s
    else if r.buf.length != 4 then complete w statusBadLength 0 [] s
    else match r.via, cmdDest r s with
      | .coil, _ => complete w statusRange 0 [] s
      | _, .refused st => complete w st 0 [] s
      | _, .worker _ _ => complete w statusRange 0 [] s
      | _, .own =>
        if !zerosAt r.buf 0 4 then complete w statusRange 0 [] s
        else complete w statusOk 0 [] (syncRequest false s))

/-- SYNCOUT_PULSE_END (R57). -/
def execSyncoutPulseEnd (s : State) : Out := .next { s with pin.syncout := false }

/-- WHEEL_COAST_END (R36). -/
def execWheelCoastEnd (s : State) : Out := .next { s with whl.coast := false }

/-- Both stamps latched by a read of WHL_POSLO, without path correction (R59). -/
def latchPos (s : State) : State :=
  let t := nowStamp s
  let lo := BitVec.ofNat 32 t.wheel.toNat
  let hi := BitVec.ofNat 32 (t.wheel.toNat / 2 ^ 32)
  { s with whl := { s.whl with lposLo := lo, lposHi := hi, lsec := t.sec, lfrac := t.frac } }

/-- WHL_POSLO_READ: before FIRED the register is not exposed and reads 0 (R401). -/
def execWhlPosloRead (s : State) : Out :=
  .next (if s.boot.fired then
      let t := latchPos s
      emit (.readVal 0x0C20 t.whl.lposLo) t
    else emit (.readVal 0x0C20 0) s)

/-! ### RTC actions (R49) -/

/-- ENABLE of an RTC action: a PERIOD entry with PERIOD 0 is not armed (R49). -/
def RtcEnt.armed (e : RtcEnt) : Bool := e.en && !(e.periodic && e.period == 0)

/-- Instant of an entry's next firing in 2^-16 s, nearest to second `c`. -/
def rtcInstant (c : Nat) (e : RtcEnt) : Int :=
  ((c : Int) - (BitVec.ofNat 32 c - e.sec).toInt) * 65536 + e.frac.toNat + (e.k * e.period.toNat * 65536 : Nat)

/-- An entry is armed by the image that owns it (R49): a ONCE entry whose instant has passed does not fire and sets its
miss bit; a PERIOD entry of PERIOD 0 stays off. -/
def armRtc (n : Nat) (e : RtcEnt) (s : State) : State :=
  let past := !e.periodic && rtcInstant s.rtc.s e ≤ (2 * rtcTicks s.rtc : Nat)
  { s with whl := { s.whl with
      rtcAct := tput s.whl.rtcAct n { e with en := RtcEnt.armed { e with en := true } && !past }
      rmiss := setBit s.whl.rmiss n past } }

/-! ### Arming of angle actions (R47) -/

/-- Stamp units that pass in two slot cycles (128 slot clocks). -/
def twoCycles (w : Whl) : Nat := if w.delta = 0 then 0 else 128 * 2 ^ 38 / (3 * w.delta.toNat)

/-- Wheel position `a` lies ahead of `b` by less than half the range. -/
def posAhead (a b : W64) : Nat := let d := (a - b).toNat; if d < 2 ^ 63 then d else 0

/-- The advance of a CTL target: round(delay × f × 65,536) wheel units, for a delay in µs (R47). -/
def ctlAdvance (delayUs : Nat) (freq : W32) : Nat := (2 * delayUs * freq.toNat + 16000000) / (2 * 16000000)

/-- The firing position of a ONCE entry, as a stamp: the target less the advance (R47). -/
def firePos (e : AngEnt) : W64 :=
  turnStart e.turn.toNat + BitVec.ofNat 64 (e.angle.toNat * 2 ^ 8) - BitVec.ofNat 64 (e.adv * 2 ^ 8)

/-- Stamp units of half a slot cycle (32 slot clocks). -/
def halfCycleUnits (w : Whl) : Nat := if w.delta = 0 then 0 else 32 * 2 ^ 38 / (3 * w.delta.toNat)

/-- The present slot clock is a slot-cycle boundary (R47, R89). -/
def slotCycle (s : State) : Bool := (s.slot + 64 - s.dec.gSlot % 64) % 64 == 0

/-- An armed entry fires at the present instant: at the slot-cycle boundary nearest the instant of its firing position,
or at the first one after it where a re-read of the frequency has moved the position back (R47). An EVERY entry fires
once in each turn, at its angle. -/
def fireDue (e : AngEnt) (s : State) : Bool :=
  let h := halfCycleUnits s.whl
  slotCycle s &&
    (if e.every then (s.whl.pos.toNat + 2 ^ 64 + h - e.angle.toNat * 2 ^ 8) % 2 ^ 24 ≤ 2 * h
     else (s.whl.pos + BitVec.ofNat 64 h - firePos e).toNat < 2 ^ 63)

/-- Arm a ONCE entry (R47): one whose firing position is less than two slot cycles ahead, or passed, does not fire;
its miss bit sets and ACTION_MISSED is raised. Answers whether it is armed. -/
def armOnce (n : Nat) (e : AngEnt) (s : State) : State × Bool :=
  let s0 := { s with whl.amiss := setBit s.whl.amiss n false }
  if posAhead (firePos e) s.whl.pos < twoCycles s.whl || posAhead (firePos e) s.whl.pos = 0 then
    (raise 3 5 { s0 with whl := { s0.whl with ang := tput s0.whl.ang n { e with en := false },
                                              amiss := setBit s0.whl.amiss n true } }, false)
  else ({ s0 with whl.ang := tput s0.whl.ang n { e with en := true } }, true)

/-- QUAL bits, SOURCE, ACTIVE and the state flags of WHL_STAT. -/
def whlStatImage (s : State) : W32 :=
  let w := s.whl
  let q := (List.range 4).foldl (fun a n => a + bitAt (getRef w n).qual (8 + n)) 0
  BitVec.ofNat 32 (q + bitAt (isWorker s) 6 + w.active.toNat * 16 + bitAt w.nolock 3 + bitAt w.slew 2 + bitAt w.hold 1
    + bitAt w.lock 0)

end Sys2Proof.Machine
end

