-- ==== Sys2Proof/Machine/Dec.lean ====
section
/-!
DEFINITION. The decimation chain (R89-R115): stage A, coarse, tap and fine paths of one stream, sample flags, and the
coefficient banks with their fades. Phase-filter coefficients follow R118 and R119.
-/
namespace Sys2Proof.Machine

/-! ### Streams (R89, R90) -/

/-- Slot of a stream: voltage channels coincide with slot 0. -/
def slotOf (m : Nat) : Nat := if m < 12 then 0 else m - 12

/-- F3 group of a stream (R108). -/
def f3Group (m : Nat) : Nat := if m < 12 then 0 else if m < 60 then 1 + (m - 12) / 16 else if m < 63 then m - 59 else 4

/-- Bit of AFE_ISOSTAT that isolates a stream's modulator. -/
def isoBit (m : Nat) : Nat :=
  if m < 12 then 3 + m / 3 else if m < 60 then (m - 12) / 16 else if m < 63 then 9 + (m - 60) else 7 + (m - 63)

def isolated (s : State) (m : Nat) : Bool := bit s.afe.iso (isoBit m)

def getShadow (s : State) (b : Nat) : ShadowMod := tgetD s.afe.sh b Init.shadowMod
def setShadow (b : Nat) (x : ShadowMod) (s : State) : State := { s with afe.sh := tput s.afe.sh b x }

/-- Channel `c` (0 to 59) is enabled in a configuration (R63). -/
def cfgEn (c : ChanCfg) (ch : Nat) : Bool :=
  if ch < 12 then bit c.vcfg ch else bit (nth c.icfg ((ch - 12) / 8) 0) (4 * ((ch - 12) % 8) + 3)
/-- Its gain code. -/
def cfgGain (c : ChanCfg) (ch : Nat) : Nat :=
  if ch < 12 then fld c.vcfg (16 + ch) (16 + ch)
  else fld (nth c.icfg ((ch - 12) / 8) 0) (4 * ((ch - 12) % 8) + 2) (4 * ((ch - 12) % 8))
/-- Its sensor type. -/
def cfgType (c : ChanCfg) (ch : Nat) : Nat :=
  if ch < 12 then 0 else fld (nth c.sens ((ch - 12) / 16) 0) (2 * ((ch - 12) % 16) + 1) (2 * ((ch - 12) % 16))

def chanEn (s : State) (ch : Nat) : Bool := cfgEn s.afe.chan ch
def chanGain (s : State) (ch : Nat) : Nat := cfgGain s.afe.chan ch

/-- Current channel `c` of bank `b` is served by its shadow: substituted, or fading to it (R75). -/
def servedBy (s : State) (ch : Nat) : Option Nat :=
  if ch < 12 || ch ≥ 60 then none
  else
    let b := (ch - 12) / 16
    let sh := getShadow s b
    if (sh.st == .fade || sh.st == .substituted) && sh.subst.toNat == (ch - 12) % 16 then some b else none

/-- A modulator is powered: its channel is enabled and not replaced by the shadow; a shadow that is not retired
(R63, R76). The stream of a modulator that is not powered yields 0 and carries DISABLED whatever the reason: R103 ties
the flag to a channel's enable bit, and for a replaced channel's own stream and a retired shadow's the model's choice
is the same (DESIGN CHOICE: log entry 91). -/
def modOn (s : State) (m : Nat) : Bool :=
  if m < 60 then
    chanEn s m && (servedBy s m).isNone &&
      !(m ≥ 12 && (getShadow s ((m - 12) / 16)).st == .reconnect && (getShadow s ((m - 12) / 16)).mirror.toNat == (m - 12) % 16)
  else if m < 63 then (getShadow s (m - 60)).st != .retired
  else true

/-- PGA gain code at which a modulator runs: a shadow runs at that of the channel it mirrors or serves (R73). -/
def modGain (s : State) (m : Nat) : Nat :=
  if m < 60 then chanGain s m
  else if m < 63 then
    let sh := getShadow s (m - 60)
    let j := if sh.st == .substituted || sh.st == .fade then sh.subst.toNat else sh.mirror.toNat
    chanGain s (12 + 16 * (m - 60) + j)
  else 0

def getStrm (s : State) (m : Nat) : Strm := tgetD s.dec.strm m Init.strm
def setStrm (m : Nat) (x : Strm) (s : State) : State := { s with dec.strm := tput s.dec.strm m x }

/-- Calibration group of a modulator (R201). -/
def modGroup (m : Nat) : Nat := if m < 12 then 3 + m / 3 else if m < 60 then (m - 12) / 16 else if m < 63 then m - 60 else 7

def getCalMod (s : State) (m : Nat) : CalMod := tgetD s.cal.mods m Init.calMod
def setCalMod (m : Nat) (x : CalMod) (s : State) : State := { s with cal.mods := tput s.cal.mods m x }
def getGrp (s : State) (g : Nat) : CalGrp := tgetD s.cal.grps g Init.calGrp
def setGrp (g : Nat) (x : CalGrp) (s : State) : State := { s with cal.grps := tput s.cal.grps g x }

/-! ### Sample flags (R103) -/

def flOvr : Nat := 0
def flSettling : Nat := 1
def flCal : Nat := 2
def flFading : Nat := 3
def flDisabled : Nat := 4
def flStale : Nat := 5

def mkFlags (ovr settling cal fading disabled : Bool) : BitVec 6 :=
  BitVec.ofNat 6 (bitAt ovr 0 + bitAt settling 1 + bitAt cal 2 + bitAt fading 3 + bitAt disabled 4)

/-- Half-supports in slot clocks (R100): 1.139, 123.454 and 1,110.433 µs. -/
def halfCoarse : Nat := 28
def halfTap : Nat := 3034
def halfFine : Nat := 27290

/-- An instant lies in the support of a sample. -/
def inSupport (t : Int) (h : Nat) (e : Nat) : Bool := t - h ≤ e && (e : Int) ≤ t + h

/-- An interval overlaps the support of a sample. -/
def overlaps (t : Int) (h : Nat) (i : Nat × Option Nat) : Bool :=
  (i.1 : Int) ≤ t + h && (match i.2 with
    | some e => t - h ≤ e
    | none => true)

/-- Disturbances older than any support still to be formed are forgotten. -/
def pruneStrm (now : Nat) (x : Strm) : Strm :=
  { x with settle := x.settle.filter (fun e => e + 60000 ≥ now)
           ovrAt := x.ovrAt.filter (fun e => e + 60000 ≥ now)
           cal := x.cal.filter (fun i => match i.2 with
             | some e => e + 60000 ≥ now
             | none => true) }

/-! ### Filters (R92-R96, R99) -/

/-- One modulator bit into the integrators of stage A and of the coarse path. -/
def integrate (x : Strm) (b : Bool) : Strm :=
  let d : W16 := if b then 1 else 0xFFFF
  let e : Byte := if b then 1 else 0xFF
  let a1 := x.a1 + d
  let a2 := x.a2 + a1
  let q1 := x.q1 + e
  { x with a1 := a1, a2 := a2, a3 := x.a3 + a2, q1 := q1, q2 := x.q2 + q1 }

/-- Eight modulator bits, the earliest in bit 0 (log entry 1). -/
def integrate8 (bits : Byte) (x : Strm) : Strm := (List.range 8).foldl (fun y i => integrate y (bit bits i)) x

/-- The combs of the coarse path; the 11-bit coarse value (R93). -/
def coarseComb (x : Strm) : Int × Strm :=
  let d1 := x.q2 - x.k1
  let d2 := d1 - x.k2
  (min 1023 (16 * d2.toInt), { x with k1 := x.q2, k2 := d1 })

/-- The combs of stage A; its signed output (R92). -/
def stageAComb (x : Strm) : Int × Strm :=
  let d1 := x.a3 - x.c1
  let d2 := d1 - x.c2
  let d3 := d2 - x.c3
  (d3.toInt, { x with c1 := x.a3, c2 := d1, c3 := d2 })

/-- A symmetric filter from its unique coefficients, the centre one last. -/
def symFir (c : List Int) : List Int := c ++ (c.dropLast).reverse

/-- Filter sum over a line held newest first. -/
def fir (c line : List Int) : Int := sumI (List.zipWith (· * ·) c line)

def hb1 : List Int := symFir [-1, 0, 9, 16]
def hb2 : List Int := symFir [3, 0, -25, 0, 150, 256]
def hb3 : List Int := symFir [35, 0, -405, 0, 2268, 0, -8820, 0, 39690, 65536]

def shiftIn (n : Nat) (v : Int) (l : List Int) : List Int := (v :: l).take n

/-- Round to nearest with halves up by an arithmetic shift (R96). -/
def rndShift (b : Nat) (v : Int) : Int := Int.fdiv (v + 2 ^ (b - 1)) (2 ^ b)

/-- Fade step (R110). -/
def fadeMix (old new : Int) (k : Int) : Int := old + Int.fdiv ((new - old) * (k + 1) + 32) 64

def getPair (s : State) (i : Nat) : Pair := tgetD s.dec.pairs i Init.pair
def setPair (i : Nat) (x : Pair) (s : State) : State := { s with dec.pairs := tput s.dec.pairs i x }

def Pair.old (p : Pair) : List Int := if p.active then p.coefB else p.coefA
def Pair.new (p : Pair) : List Int := if p.active then p.coefA else p.coefB

/-- Output of a pair in fade step `k`: value and FADING (R110). -/
def pairOut (p : Pair) (k : Int) (f : List Int → Int) : Int × Bool :=
  if !p.fading || k < 0 then (f p.old, false)
  else if k ≥ 64 then (f p.new, false)
  else (fadeMix (f p.old) (f p.new) k, true)

/-- Fade step of the sample at instant `t` of a stream that has reached `c` samples of the running fade, and the count
after it: the fade begins with the first sample whose instant lies at or after its start (R111), and counts samples from
there on whatever happens to the grid (R112). A negative step lies before the fade. -/
def fadeNext (p : Pair) (c : Nat) (t : Int) : Int × Nat :=
  if !p.fading || (c = 0 && t < p.at_) then (-1, c) else (c, c + 1)

/-- Stream of F3 group `g` feeds; pair indices: 0 to 4 F3, 5 tap, 6 + k phase filter k. -/
def phasePair (k : Nat) : Nat := 6 + k

/-- The streams that feed a pair (R112); none for the tap. -/
def feeds (i : Nat) : List Nat :=
  if i = 5 then [] else if i < 5 then (List.range 65).filter (fun m => f3Group m == i) else [i - 6]

/-- One half-band or F3 stage where its decimation falls due; `j` counts the stage-A samples from the grid origin on,
this one included. The results of the half-band stages are held as exact integers: of the sample of value 2^27 that a
constant +1 would give, which signed 28 bits do not hold, R96 says neither that it wraps nor that it saturates
(DESIGN CHOICE: log entry 92). -/
def fineStages (s : State) (m : Nat) (j : Nat) (a : Int) (x : Strm) : Strm × Option (Int × Bool) :=
  let x1 := { x with l1 := shiftIn 7 (a * 2 ^ 15) x.l1 }
  if j % 2 ≠ 0 then (x1, none)
  else
    let x2 := { x1 with l2 := shiftIn 11 (rndShift 5 (fir hb1 x1.l1)) x1.l2 }
    if j % 4 ≠ 2 then (x2, none)
    else
      let x3 := { x2 with l3 := shiftIn 19 (rndShift 9 (fir hb2 x2.l2)) x2.l3 }
      if j % 8 ≠ 2 then (x3, none)
      else
        let x4 := { x3 with l4 := shiftIn 95 (rndShift 17 (fir hb3 x3.l3)) x3.l4 }
        if j % 24 ≠ 18 then (x4, none)
        else
          let p := getPair s (f3Group m)
          let (k, c) := fadeNext p x4.fadeK (s.dec.gSlot + 1536 * (x4.fineN + 1) + slotOf m)
          ({ x4 with fadeK := c }, some (pairOut p k (fun c => (satS 24 (rndShift 27 (fir (symFir c) x4.l4))).1)))

/-! ### Tap entries (R98) -/

def tapByte (sel : List W32) (t : Nat) : Nat := fld (nth sel (t / 4) 0) (8 * (t % 4) + 7) (8 * (t % 4))
def tapEn (s : State) (t : Nat) : Bool := tapByte s.dec.tapsel t ≥ 128
def tapCh (s : State) (t : Nat) : Nat := tapByte s.dec.tapsel t % 64
/-- The enabled tap entry of a channel. -/
def tapOf (s : State) (ch : Nat) : Option Nat := (List.range 12).find? (fun t => tapEn s t && tapCh s t == ch)

def getTap (s : State) (t : Nat) : TapWin := tgetD s.dec.tap t ⟨0, [], none, false⟩

/-! ### One slot's work of a stream -/

/-- What a step of a stream delivers: a coarse sample, at times a tap sample and a fine sample, each with its index. -/
structure DecOut where
  coarse : Int × Smp
  tap : Option (Nat × Int × Smp)
  fine : Option (Int × Smp)

/-- SETTLING of a coarse sample (R103, R66). -/
def coarseSettling (s : State) (m : Nat) (x : Strm) (t : Int) : Bool :=
  if m ≥ 63 then
    let mx := tgetD s.afe.mux (m - 63) Init.auxMux
    mx.settle && t * 25 ≤ mx.settleAt * 25 + 12288
  else x.settle.any (inSupport t halfCoarse)

/-- Sum, count and flags of the coarse RMS block (R94); a full block takes no more samples until it ends. -/
def rmsAdd (c : Smp) (x : Strm) : Strm :=
  if x.rmsCnt ≥ x.rmsL then x
  else
    let out := bit c.fl flSettling || bit c.fl flCal || bit c.fl flDisabled
    { x with rmsCnt := x.rmsCnt + 1
             rmsN := if out then x.rmsN else x.rmsN + 1
             rmsS := if out then x.rmsS else x.rmsS + c.v.natAbs * c.v.natAbs
             rmsFl := x.rmsFl ||| c.fl }

/-- Mode of a multiplexer in AFE_AXCFG (R66). -/
def axMode (cfg : W32) (a : Nat) : Nat := fld cfg (8 * a + 1) (8 * a)

/-- A fine value of an auxiliary modulator with an input connected and settled lies below AXCOM (R65; log entry 93). -/
def belowCom (s : State) (m : Nat) (settle : Bool) (v : Int) : Bool :=
  m ≥ 63 && axMode s.afe.axcfg (m - 63) != 0 && !settle && !isolated s m && v < 0

/-- Eight bits of one stream: the coarse sample of R93, and with every second one stage A, whose 46 bits lie about the
bit that begins the slot cycle after its instant, with the stages behind it (R100, R101; log entry 82). -/
def decStep (m : Nat) (bits : Byte) (s : State) : State × DecOut :=
  let on := modOn s m
  let g := s.dec.gSlot
  let x0 := pruneStrm s.slot (integrate8 bits (getStrm s m))
  let n : Nat := x0.nC
  let t : Int := g + 32 * n + slotOf m
  let (cv, x1) := coarseComb x0
  let forced := x1.forced > 0
  let v := if on then cv else 0
  let ovr := (v ≥ 768 || v ≤ -768) || forced
  let cs : Smp := ⟨v, mkFlags ovr (coarseSettling s m x1 t) (x1.cal.any (overlaps t halfCoarse)) false (!on)⟩
  let x2 := rmsAdd cs { x1 with nC := n + 1, forced := x1.forced - 8, last := ovr,
                                ovrAt := if ovr then t.toNat :: x1.ovrAt else x1.ovrAt }
  if n % 2 = 1 then (setStrm m x2 s, ⟨((n : Int), cs), none, none⟩)
  else
    let j := n / 2
    let (a, x3) := stageAComb x2
    let x4 := { x3 with aLine := shiftIn 93 a x3.aLine }
    let tn : Int := (j : Int) - 47
    let tt : Int := g + 64 * tn + slotOf m
    let p := getPair s 5
    let (c, k) := fadeNext p x4.tapK tt
    let x5 := { x4 with tapK := k }
    let tap : Option (Nat × Int × Smp) := (tapOf s m).map (fun e =>
      let (y, fading) := pairOut p (Int.fdiv c 24) (fun c => (satS 16 (rndShift 19 (fir (symFir c) x5.aLine))).1)
      let settle := x5.settle.any (inSupport tt halfTap) || ((getTap s e).settleAt.any (inSupport tt halfTap))
      (e, tn, ⟨if on then y else 0,
        mkFlags (x5.ovrAt.any (inSupport tt halfTap)) settle (x5.cal.any (overlaps tt halfTap)) fading (!on)⟩))
    let (x6, f) := fineStages s m j a x5
    match f with
    | none => (setStrm m x6 s, ⟨((n : Int), cs), tap, none⟩)
    | some (y, fading) =>
      let fn := x6.fineN + 1
      let ft : Int := g + 1536 * fn + slotOf m
      let settle := if m ≥ 63 then (tgetD s.afe.mux (m - 63) Init.auxMux).settle
        else x6.settle.any (inSupport ft halfFine)
      let under := belowCom s m settle y
      let fs : Smp := ⟨if on then y else 0,
        mkFlags (x6.ovrAt.any (inSupport ft halfFine) || under) settle (x6.cal.any (overlaps ft halfFine)) fading (!on)⟩
      (setStrm m { x6 with fine := (fs :: x6.fine).take 1024, fineN := fn, under := under } s,
        ⟨((n : Int), cs), tap, some (fn, fs)⟩)

/-! ### Coarse RMS (R94) -/

def crmsLen (cfg : W32) : Nat := nth [96, 192, 384, 768, 1536] (fld cfg 2 0) 768

/-- DEC_CRMS of a finished block. -/
def crmsImage (x : Strm) : W32 :=
  let r := if x.rmsN = 0 then 0 else min 0xFFFF (sqrtRatio (2 ^ 32 * x.rmsS) (x.rmsN * 768 * 768))
  BitVec.ofNat 32 (bitAt (x.rmsN == 0) 30 + bitAt (bit x.rmsFl flCal) 29 + bitAt (bit x.rmsFl flSettling) 28
    + bitAt (bit x.rmsFl flOvr) 27 + putAt x.rmsN 11 16 + r)

/-- COARSE_RMS_BLOCK (R94): the block of L samples has ended. A changed length acts from the first block boundary that is
a multiple of the new L from the grid origin, so that blocks stay aligned to it (R115; log entry 94). -/
def execCoarseRmsBlock (m : Nat) (s : State) : Out :=
  let x := getStrm s m
  let l := crmsLen s.dec.crmscfg
  .next (if m ≥ 65 || !s.dec.run || x.rmsCnt < x.rmsL then s
    else setStrm m { x with rms := crmsImage x, rmsL := if x.nC % l = 0 then l else x.rmsL, rmsCnt := 0, rmsN := 0,
                            rmsS := 0, rmsFl := 0 } s)

/-- INTEGRATOR_RESET (R62): OVR is forced until 1,024 modulator bits have passed without a reset. -/
def execIntegratorReset (m : Nat) (s : State) : Out :=
  .next (if m ≥ 65 || !s.dec.run then s else setStrm m { getStrm s m with forced := 1024 } s)

/-- Disturb the streams of a list at the present instant (R103). -/
def settleNow (ms : List Nat) (s : State) : State :=
  ms.foldl (fun t m => setStrm m { getStrm t m with settle := t.slot :: (getStrm t m).settle } t) s

/-- Isolation of the modulators of a list begins, or ends, now (R71, R103). -/
def isolate (ms : List Nat) (s : State) : State :=
  ms.foldl (fun t m =>
    let x := getStrm t m
    let t1 := setStrm m { x with cal := if x.cal.any (·.2.isNone) then x.cal else (t.slot, none) :: x.cal } t
    { t1 with afe.iso := setBit t1.afe.iso (isoBit m) true }) s

def reconnect (ms : List Nat) (s : State) : State :=
  ms.foldl (fun t m =>
    let x := getStrm t m
    let t1 := setStrm m { x with cal := x.cal.map (fun i => if i.2.isNone then (i.1, some t.slot) else i) } t
    { t1 with afe.iso := setBit t1.afe.iso (isoBit m) false }) s

/-! ### Phase-filter coefficients (R118, R119) -/

/-- The delay d_c in units of 1/960,000 fine sample. -/
def delayNum (adj : Int) (sl : Nat) : Nat := (4 * 960000 + adj * 1536 + sl * 625).toNat

/-- PNT_ALDLY.DELAY of a delay. -/
def delayCode (d : Nat) : BitVec 24 := BitVec.ofNat 24 ((2 * d * 2 ^ 20 + 960000) / (2 * 960000))

def lagNum (d : Nat) (j : Nat) : Int :=
  (List.range 9).foldl (fun (a : Int) k => if k = j then a else a * ((d : Int) - k * 960000)) 1
def lagDen (j : Nat) : Int :=
  (List.range 9).foldl (fun (a : Int) k => if k = j then a else a * (((j : Int) - k) * 960000)) 1

/-- The nine coefficients for a delay, their sum brought to 2^20 (R119). -/
def phaseCoefs (d : Nat) : List Int :=
  let raw := (List.range 9).map (fun j =>
    let n := lagNum d j * 2 ^ 20
    let q := lagDen j
    rndUp (if q < 0 then -n else n) q.natAbs)
  lmod raw (min 8 ((2 * d + 960000) / (2 * 960000))) (· + (2 ^ 20 - sumI raw))

/-- A bank's contents for a phase adjustment and slot: coefficients, no stored set, delay. -/
def phaseBank (adj : Int) (sl : Nat) : List Int × BitVec 4 × BitVec 24 :=
  let d := delayNum adj sl
  (phaseCoefs d, 0xF, delayCode d)

/-- The CRC-32C of a bank's coefficients, each as 32 little-endian bits (R109, R113; log entry 95). -/
def bankCrc (c : List Int) : W32 := crc32c (c.flatMap (leI 4))

/-- Load both banks of a pair without a fade (R108, R113, R120). -/
def loadBoth (i : Nat) (b : List Int × BitVec 4 × BitVec 24) (s : State) : State :=
  let crc := bankCrc b.1
  setPair i { getPair s i with coefA := b.1, coefB := b.1, setA := b.2.1, setB := b.2.1, dlyA := b.2.2, dlyB := b.2.2
                               crcA := crc, crcB := crc } s

/-- Write a set into the passive bank with its load CRC; no set leaves the bank as it stands. -/
def loadPassive (b : Option (List Int × BitVec 4 × BitVec 24)) (p : Pair) : Pair :=
  match b with
  | none => p
  | some c =>
    if p.active then { p with coefA := c.1, setA := c.2.1, dlyA := c.2.2, crcA := bankCrc c.1 }
    else { p with coefB := c.1, setB := c.2.1, dlyB := c.2.2, crcB := bankCrc c.1 }

/-- An accepted request of a pair (R111). -/
def armPair (i : Nat) (b : Option (List Int × BitVec 4 × BitVec 24)) (s : State) : State :=
  let p := getPair s i
  if p.fading then
    let s1 := setPair i { p with queued := some b } s
    if p.queued.isSome then { s1 with dec.replaced := satInc s1.dec.replaced } else s1
  else
    let s1 := setPair i (loadPassive b { p with armed := true }) s
    if p.armed then { s1 with dec.replaced := satInc s1.dec.replaced } else s1

/-- Withdraw an armed or queued swap (R80). -/
def withdraw (i : Nat) (s : State) : State := setPair i { getPair s i with armed := false, deferred := false, queued := none } s

/-- While phase-filter swaps of stream `k` complete BUSY: from the declaration of a suspect to the end of its
substitution fade or its release (R80). -/
def pfBusy (s : State) (k : Nat) : Bool :=
  if k < 12 || k ≥ 60 then false
  else
    let sh := getShadow s ((k - 12) / 16)
    sh.mirror.toNat == (k - 12) % 16 && (sh.st == .selfcheck || sh.st == .reconnect || (sh.st == .fade && (getPair s (phasePair k)).fading))

/-! ### COEF_SWAP (R109, R111) -/

/-- Coefficients lie in the signed 24-bit range. -/
def coefRange (l : List Int) : Bool := l.all (fun c => -8388608 ≤ c && c ≤ 8388607)

/-- Sum of an F3 set: 2 × (c0 + … + c46) + c47. -/
def f3Sum (l : List Int) : Int := 2 * sumI (l.take 47) + nth l 47 0

/-- The Idmen standard F3 set: the factory's coefficients, whose sum is 2^23 (R97). Which set it is stays open; numbers
that are no such set stand for one of unit gain (log entry 96). -/
def f3Standard : List Int :=
  let l := (List.range 48).map (fun i => (Config.f3Set0 i).toInt)
  if f3Sum l = 8388608 then l else List.replicate 46 0 ++ [1, 8388606]

/-- An F3 set's stored coefficients: set 0 from the factory, sets 1 to 7 as F3_STORE wrote them (R141). -/
def f3Stored (s : State) (n : Nat) : Option (List Int) :=
  if n = 0 then some f3Standard
  else match nvRead s (nvKey .f3set n) with
    | some (.bytes b) => some ((List.range 48).map (fun i => rdI b (8 + 4 * i) 4))
    | _ => none

def tapStored : List Int := (List.range 47).map (fun i => (Config.tapSet0 i).toInt)

/-- COEF_SWAP's checks and acceptance, in the order of R109; a field that the buffer does not reach reads as zero. The
address check stands after the length check (log entry 10). -/
def execCoefSwap (r : Req) (s : State) : Out :=
  let w := reqWaiter r 0 0x14
  let b := r.buf
  let kind := rd b 0 1
  let idx := rd b 1 1
  let src := rd b 2 1
  let set := rd b 3 1
  let n := rd b 4 2
  let idxBad := match kind with
    | 0 => idx > 4
    | 1 => idx > 0
    | _ => idx > 62
  let pair := match kind with
    | 0 => idx
    | 1 => 5
    | _ => phasePair idx
  let stored := if src != 1 then none else if kind == 0 then f3Stored s set else some tapStored
  let inl := (List.range n).map (fun i => rdI b (12 + 4 * i) 4)
  let coefs := if src == 0 then some inl else stored
  let bank := coefs.map (fun c => (c, (if src == 0 then (0xF : BitVec 4) else BitVec.ofNat 4 set), (0 : BitVec 24)))
  let early := firstBad [(!metering s, statusNotReady),
    (kind > 2 || idxBad || src > 2 || set > 7, statusRange),
    ((src == 0 && kind != 1) || (src == 1 && (kind == 2 || (kind == 1 && set != 0))), statusDenied),
    (src == 1 && stored.isNone, statusRange),
    ((src == 0 && n != 47) || (src != 0 && n != 0) || b.length < 12 + 4 * n, statusBadLength)]
  .next (match early with
    | some st => complete w st 0 [] s
    | none =>
      match cmdDest r s with
      | .refused st => complete w st 0 [] s
      | .worker k pos => forward w k pos r.buf s
      | .own =>
        match firstBad [((if n = 0 then rd b 8 4 != 0 else !crcOk b 8 ((b.drop 12).take (4 * n))), statusRange),
          (!coefRange (coefs.getD []), statusRange),
          (kind == 0 && src == 1 && f3Sum (coefs.getD []) != 8388608, statusRange),
          (kind == 2 && pfBusy s idx, statusBusy)] with
        | some st => complete w st 0 [] s
        | none => complete w statusOk 0 [] (armPair pair bank s))

/-! ### Fades -/

/-- A modulator that feeds the pair is isolated (R112). -/
def feedIsolated (s : State) (i : Nat) : Bool := (feeds i).any (isolated s)

/-- The stamp of an instant up to a turn ahead, or past. -/
def stampAt (s : State) (t : Int) : Stamp :=
  if t ≤ s.slot then pathStamp s (s.slot - t).toNat
  else
    let n := (t - s.slot).toNat
    let st := nowStamp s
    let q := st.sec.toNat * 65536 + st.frac.toNat + (2 * n * 65536 + 24576000) / (2 * 24576000)
    let d := 3 * s.whl.delta.toNat
    { st with wheel := if s.whl.run && d != 0 then st.wheel + BitVec.ofNat 64 ((2 * n * 2 ^ 38 + d) / (2 * d)) else st.wheel
              sec := BitVec.ofNat 32 (q / 65536), frac := BitVec.ofNat 16 q }

/-- The streams of a pair count the samples of a fade from 0. -/
def fadeFromZero (i : Nat) (s : State) : State :=
  if i = 5 then { s with dec.strm := s.dec.strm.map (fun p => (p.1, { p.2 with tapK := 0 })) }
  else if i < 5 then (feeds i).foldl (fun t m => setStrm m { getStrm t m with fadeK := 0 } t) s
  else { s with pnt.ws := tput s.pnt.ws (i - 6) { tgetD s.pnt.ws (i - 6) Init.wstream with fadeK := 0 } }

/-- The earliest sample instant at or after the present one among the streams of a pair (R101, R111): aligned samples lie
on the common grid, those of an F3 pair a slot apart. -/
def firstOfFade (i : Nat) (s : State) : Int :=
  let next (sl : Nat) : Int := let b : Int := s.dec.gSlot + sl; b + 1536 * Int.fdiv ((s.slot : Int) - b + 1535) 1536
  if i ≥ 5 then next 0 else ((feeds i).map (fun m => next (slotOf m))).foldl min (next (slotOf ((feeds i).headD 0)))

/-- Start the fade of a pair at the present turn boundary, with the event record of an F3 or phase pair, which carries
the stamps of the fade's first sample (R111). -/
def startFade (i : Nat) (s : State) : State :=
  let p := getPair s i
  let s1 := fadeFromZero i (setPair i { p with armed := false, deferred := false, fading := true, at_ := s.slot } s)
  if i = 5 then s1
  else
    let t := firstOfFade i s
    let set := if p.active then p.setA else p.setB
    blockEventAt (stampAt s t) 2 1 0
      (le 1 (if i < 5 then 0 else 2) ++ le 1 (if i < 5 then i else i - 6) ++ le 1 (bitAt (!p.active) 0) ++ le 1 set.toNat) s1

/-- COEF_FADE_START (R111, R112): an ARMED pair starts at the turn boundary, or is deferred while a modulator that
feeds it is isolated. -/
def execCoefFadeStart (i : Nat) (s : State) : Out :=
  let p := getPair s i
  .next (if i ≥ 69 || !p.armed || p.fading then s
    else if feedIsolated s i then
      setPair i { p with deferred := true, deferAt := if p.deferred then p.deferAt else s.slot } s
    else startFade i s)

/-- Every stream of a pair has passed the last step of its fade (R110): 64 samples, 1,536 on the tap. -/
def fadeOver (i : Nat) (s : State) : Bool :=
  if i = 5 then (List.range 60).all (fun m => (tapOf s m).isNone || (getStrm s m).tapK ≥ 1536)
  else if i < 5 then (feeds i).all (fun m => (getStrm s m).fadeK ≥ 64)
  else (tgetD s.pnt.ws (i - 6) Init.wstream).fadeK ≥ 64

/-- COEF_FADE_END (R110, R111): after the last step the banks change places, and a queued set is armed. A fade is never
cut short. -/
def execCoefFadeEnd (i : Nat) (s : State) : Out :=
  let p := getPair s i
  .next (if i ≥ 69 || !p.fading || !fadeOver i s then s
    else
      let p1 := { p with active := !p.active, fading := false }
      let p2 := match p1.queued with
        | some b => loadPassive b { p1 with queued := none, armed := true }
        | none => p1
      { setPair i p2 s with dec.fades := s.dec.fades + 1 })

/-- FADE_DEFERRED (R114). -/
def execFadeDeferred (i : Nat) (s : State) : Out := .next (if (getPair s i).deferred then raise 2 3 s else s)

/-- TAP_CONFIG_APPLY (R98): a changed entry is a disturbance of its samples. -/
def execTapConfigApply (s : State) : Out :=
  .next (match s.dec.tapNext with
    | none => s
    | some sel =>
      let s1 := { s with dec.tapsel := sel, dec.tapNext := none }
      (List.range 12).foldl (fun t e =>
        if tapByte s.dec.tapsel e == tapByte sel e then t
        else { t with dec.tap := tput t.dec.tap e ⟨0, [], some t.slot, false⟩ }) s1)

/-- A bank whose coefficient `i` has changed by the bits of a mask since its load. -/
def upsetBank (u : Nat × BitVec 24) (c : List Int) : List Int := lmod c u.1 (fun v => (BitVec.ofInt 24 v ^^^ u.2).toInt)

/-- COEF_CRC_CHECK (R113, R114): the CRC of the active bank of a pair is recomputed. `upset` is what has happened to a
coefficient of it since its load, where something has (log entry 97). -/
def execCoefCrcCheck (pair : Nat) (upset : Option (Nat × BitVec 24)) (s : State) : Out :=
  let p := getPair s pair
  let c := match upset with
    | some u => upsetBank u p.old
    | none => p.old
  let s1 := if p.active then setPair pair { p with coefB := c } s else setPair pair { p with coefA := c } s
  .next (if pair ≥ 69 then s
    else if bankCrc c != (if p.active then p.crcB else p.crcA) then raise 2 2 s1
    else s1)

/-- SLOT_OVERRUN (R113, R114). -/
def execSlotOverrun (_slot : Nat) (s : State) : Out := .next (raise 2 0 s)

/-- RS_ROM_CRC_CHECK (R134). -/
def execRsRomCrcCheck (differs : Bool) (s : State) : Out := .next (if differs then raise 4 0 s else s)

/-! ### Register images -/

def pairStat (p : Pair) : Nat :=
  bitAt p.deferred 4 + bitAt p.queued.isSome 3 + bitAt p.fading 2 + bitAt p.armed 1 + bitAt p.active 0

def coefStatImage (s : State) : W32 :=
  BitVec.ofNat 32 (sumN ((List.range 6).map (fun g => pairStat (getPair s g) * 2 ^ (5 * g))))
def setImage (s : State) (b : Bool) : W32 :=
  BitVec.ofNat 32 (sumN ((List.range 6).map (fun g =>
    (if b then (getPair s g).setB else (getPair s g).setA).toNat * 2 ^ (4 * g))))

/-- Step of a running fade for DEC_PFSTAT, on the common grid. -/
def pfStatImage (s : State) : W32 :=
  let k := s.dec.pfidx.toNat
  if k = 63 then 0
  else
    let p := getPair s (phasePair k)
    let step := if p.fading then min 63 ((tgetD s.pnt.ws k Init.wstream).fadeK - 1) else 0
    BitVec.ofNat 32 (step * 2 ^ 8 + bitAt (pfBusy s k) 5 + pairStat p)

def syncStatImage (s : State) : W32 :=
  BitVec.ofNat 32 (s.dec.shift.toNat * 2 ^ 16 + s.dec.rephase.toNat * 2 ^ 8 + s.dec.inphase.toNat)

end Sys2Proof.Machine
end

