-- ==== Sys2Proof/Machine/Capture.lean ====
section
/-!
DEFINITION. The capture SRAM (R194-R198) and the raw sample stream (R359): both take the words of R107 as the paths
write them.
-/
namespace Sys2Proof.Machine

/-! ### Sample words (R107) -/

def srcFine : Nat := 0
def srcWheel : Nat := 1
def srcCoarse : Nat := 2
def srcTap : Nat := 3

/-- The word of a sample of a source; STALE stands in bit 29 of a wheel sample (R194). -/
def smpWord (src : Nat) (x : Smp) : Nat :=
  let f := x.fl.toNat
  match src with
  | 2 => (BitVec.ofInt 11 x.v).toNat + (f % 8) * 2 ^ 11 + bitAt (bit x.fl flDisabled) 14
  | 3 => (BitVec.ofInt 16 x.v).toNat + (f % 32) * 2 ^ 16
  | 1 => (BitVec.ofInt 24 x.v).toNat + (f % 64) * 2 ^ 24
  | _ => (BitVec.ofInt 24 x.v).toNat + (f % 32) * 2 ^ 24

/-- Flags of R181 bits 0 to 4 in a word. -/
def wordFlags (src w : Nat) : Nat :=
  match src with
  | 2 => w / 2 ^ 11 % 8
  | 3 => w / 2 ^ 16 % 16
  | 1 => w / 2 ^ 24 % 16 + (w / 2 ^ 29 % 2) * 16
  | _ => w / 2 ^ 24 % 16

def wordLen (src : Nat) : Nat := if src = 2 then 2 else 4

/-- Channel bit of a stream in a channel mask (R194); shadow streams have none. -/
def chanBit (m : Nat) : Option Nat := if m < 60 then some m else if m < 63 then none else some (m - 3)

/-- A channel mask is valid for a source and not empty. -/
def maskOk (s : State) (src : Nat) (mask : W64) : Bool :=
  mask != 0 && (match src with
    | 0 | 2 => mask.toNat < 2 ^ 62
    | 1 => mask.toNat < 2 ^ 60
    | _ => mask.toNat < 2 ^ 12 && (List.range 12).all (fun t => !bit mask t || tapEn s t))

def popCount (mask : W64) : Nat := ((List.range 64).filter (bit mask)).length

/-! ### Instants of wheel samples -/

/-- The slot clock at which the instant of a wheel sample falls; `k` may be 256, the end of the turn (R122, R123). -/
def wheelInstant (s : State) (t : RsTurn) (k : Nat) : Int :=
  let u : Int := ((t.u.toNat + k * t.delta.toNat : Nat) : Int)
  let rel := (u - (s.pnt.alN % 2 ^ 32) * 2 ^ 31) % 2 ^ 63
  let rel' := if rel ≥ 2 ^ 62 then rel - 2 ^ 63 else rel
  Int.fdiv (rel' * 1536 + 2 ^ 30) (2 ^ 31) + 1536 * s.pnt.alN + s.dec.gSlot

/-- The position of a wheel sample. -/
def wheelPos (t : RsTurn) (k : Nat) : W64 := turnStart t.turn.toNat + BitVec.ofNat 64 (k * 65536)

/-- The stamp of a wheel sample: its position, and the RTC time of its instant (R130). -/
def wheelStamp (s : State) (t : RsTurn) (k : Nat) : Stamp :=
  { stampAt s (wheelInstant s t k) with wheel := wheelPos t k }

/-- The turn to which the newest wheel sample belongs, and its number in that turn. -/
def newestTurn (s : State) : Option (RsTurn × Nat) :=
  match s.pnt.rs with
  | t :: _ => if s.pnt.rsK > 0 then some (t, s.pnt.rsK - 1) else s.pnt.doneTurn.map (fun d => (d, 255))
  | [] => s.pnt.doneTurn.map (fun d => (d, 255))

/-- The instant of the wheel sample that is number `idx` since turn 0: of a scheduled turn, of the last one, or of the turn
after one of these. -/
def wheelIdxInstant (s : State) (idx : Int) : Int :=
  let turn : BitVec 40 := BitVec.ofInt 40 (idx / 256)
  let k := (idx % 256).toNat
  let ts := s.pnt.rs ++ s.pnt.doneTurn.toList
  match ts.find? (fun t => t.turn == turn), ts.find? (fun t => t.turn + 1 == turn) with
  | some t, _ => wheelInstant s t k
  | none, some t => wheelInstant s t (256 + k)
  | none, none => s.slot

/-- Period of a path in slot clocks (R101). -/
def srcPeriod (src : Nat) : Nat := if src = 2 then 32 else if src = 3 then 64 else 1536

/-- Stamp of sample `idx` of slot 0 of a source, as the event of its path (R130): a wheel sample's position with the RTC
time of its instant. -/
def sampleStamp (s : State) (src : Nat) (idx : Int) : Stamp :=
  if src = 1 then { stampAt s (wheelIdxInstant s idx) with wheel := BitVec.ofInt 64 (idx * 65536) }
  else stampAt s (s.dec.gSlot + srcPeriod src * idx)

/-! ### Capture -/

def getReq (s : State) (r : Nat) : CapReq := tgetD s.pq.reqs r Init.capReq
def capOwner (s : State) : CapReq := getReq s s.pq.cap.owner.toNat

/-- Indexes of the captured wheel samples with HOLD or NOLOCK, newest first (R181, R198). -/
def heldIdx (src : Nat) (idx : Int) (n : Nat) (s : State) : List Int :=
  let l := s.pq.cap.holds
  if src = 1 && (s.whl.hold || s.whl.nolock) && l.head? != some idx then (idx :: l).take n else l

/-- A word of a source enters the capture SRAM: circular in ARMED, with room for the trigger sample and those after it that
stand when the trigger comes (log entry 81); up to POST from the trigger in FILLING (R195). -/
def capPush (src n : Nat) (idx : Int) (w : Nat) (s : State) : State :=
  let c := s.pq.cap
  let r := capOwner s
  let l := tgetD c.ch n []
  if r.source.toNat != src || !bit r.cmask n then s
  else if c.state == 1 then
    { s with pq.cap := { c with ch := tput c.ch n (((idx, w) :: l).take (r.pre.toNat + r.post.toNat))
                                holds := heldIdx src idx (r.pre.toNat + r.post.toNat) s } }
  else if c.state == 2 then
    let past := idx ≥ c.trig + r.post.toNat || (match c.stop with
      | some e => idx > e
      | none => false)
    if past then s
    else { s with pq.cap := { c with ch := tput c.ch n ((idx, w) :: l), holds := heldIdx src idx (r.pre.toNat + r.post.toNat) s } }
  else s

/-! ### Raw stream (R359) -/

/-- A word enters the instant being gathered; a whole instant goes into the 64 KiB stream store, or is discarded. -/
def streamPush (src n : Nat) (idx : Int) (w : Nat) (s : State) : State :=
  let x := s.hif.stream
  if !x.run || x.source != src || !bit x.mask n then s
  else
    let parts := tput (if x.curN == idx then x.parts else []) n w
    if parts.length < popCount x.mask then { s with hif.stream := { x with curN := idx, parts := parts } }
    else
      let bytes := parts.foldl (fun b p => b ++ le (wordLen src) p.2) []
      let used := sumN (x.store.map (·.bytes.length))
      let st := sampleStamp s src idx
      if used + bytes.length > 65536 then
        { s with hif.stream := { x with curN := idx, parts := [], index := x.index + 1, gap := true } }
      else
        { s with hif.stream := { x with curN := idx, parts := [], index := x.index + 1, gap := false,
                                        store := x.store ++ [⟨x.index, st, x.gap, s.whl.hold || s.whl.nolock, bytes⟩] } }

/-- A sample of a channel bit reaches both sinks. -/
def sinks (src n : Nat) (idx : Int) (x : Smp) (s : State) : State :=
  let w := smpWord src x
  streamPush src n idx w (capPush src n idx w { s with pq.newest := tput s.pq.newest (src * 64 + n) (idx, w) })

/-! ### Triggers (R196) -/

/-- The trigger instant of a condition is remembered for CAPTURE_TRIGGER: slot of the instant and wheel position. -/
def noteCond (kind : Nat) (t : Int) (pos : W64) (s : State) : State := { s with pq.cand := tput s.pq.cand kind (t, pos) }

/-- Index of the trigger sample: the first sample of slot 0, or wheel sample, at or after the instant. -/
def trigIndex (s : State) (src : Nat) (t : Int) (pos : W64) : Int :=
  if src = 1 then (((pos.toNat + 65535) / 65536 : Nat) : Int)
  else
    let p := srcPeriod src
    Int.fdiv (t - s.dec.gSlot + (p - 1)) p

/-- A condition at a slot clock, with the Wheel's position then. -/
def noteAt (kind : Nat) (t : Int) (s : State) : State := noteCond kind t (stampAt s t).wheel s

/-- A stream is captured by the owner of the capture SRAM: its channel bit, or a tap entry of it (R194, R196). -/
def captured (s : State) (m : Nat) : Bool :=
  let r := capOwner s
  if r.source == 3 then (List.range 12).any (fun t => bit r.cmask t && tapCh s t == m)
  else (chanBit m).any (bit r.cmask ·)

/-- ARMED passes to FILLING (R195, R196). -/
def capFire (t : Int) (pos : W64) (s : State) : State :=
  let src := (capOwner s).source.toNat
  let i := trigIndex s src t pos
  { s with pq.cap := { s.pq.cap with state := 2, trig := i, stamp := sampleStamp s src i, stop := none,
                                     number := s.pq.cap.number + 1 } }

/-- Instant and position of the newest sample of a source already written (R196). -/
def newestOf (s : State) (src : Nat) : Int × W64 :=
  let x := getStrm s 0
  match src with
  | 0 => (s.dec.gSlot + 1536 * x.fineN, 0)
  | 2 => (s.dec.gSlot + 32 * ((x.nC : Int) - 1), 0)
  | 3 => (s.dec.gSlot + 64 * (((x.nC / 2 : Nat) : Int) - 47), 0)
  | _ => match newestTurn s with
    | some (t, k) => (wheelInstant s t k, wheelPos t k)
    | none => (s.slot, turnStart s.pnt.lastTurn.toNat + BitVec.ofNat 64 (s.pnt.lastK.toNat * 65536))

/-- The angle-action entry that the application image arms for a capture request (log entry 11). -/
def capEntry (r : Nat) : Nat := 32 + r

/-- Arm request `r` (R195): filling starts from empty; an angle trigger arms its angle action. -/
def capArmed (r : Nat) (s : State) : State :=
  let q := getReq s r
  let turn := BitVec.ofNat 40 ((turnOf s.whl.pos).toNat + 1)
  let s1 := { s with
    pq.cap := { s.pq.cap with state := 1, owner := BitVec.ofNat 3 r, ch := [], holds := [], stop := none, armTurn := turn, segs := [] }
    pq.cand := [] }
  if q.trigger == 1 then
    (armOnce (capEntry r) ⟨turn, q.angle, false, true, false, 2, BitVec.ofNat 5 r, 0⟩ s1).1
  else s1

/-- IDLE again, or ARMED with REARM (R195). -/
def capDone (s : State) : State :=
  let r := s.pq.cap.owner.toNat
  if (getReq s r).rearm && (getReq s r).en then capArmed r s
  else { s with pq.cap := { s.pq.cap with state := 0, ch := [], segs := [] } }

/-- CAPTURE_TRIGGER (R195, R196): the armed request passes to FILLING; a condition of an enabled request that is not
ARMED is counted. -/
def execCaptureTrigger (r : Nat) (s : State) : Out :=
  let q := getReq s r
  let c := s.pq.cap
  .next (if r ≥ 8 || !q.en || q.trigger == 0 then s
    else if c.state == 1 && c.owner.toNat == r then
      if q.trigger == 1 then
        match tget s.pq.cand 1 with
        | some (t, p) => capFire t p s
        | none => s
      else match tget s.pq.cand q.trigger.toNat with
        | some (t, p) => capFire t p s
        | none => s
    else { s with pq.cap := { c with missed := satInc c.missed } })

/-! ### Commands (R194, R195, R358) -/

/-- Words of a request out of its record. -/
def capReqOf (b : List Byte) : CapReq :=
  ⟨rd b 3 1 % 2 == 1, rd b 3 1 / 2 % 2 == 1, BitVec.ofNat 2 (rd b 1 1), BitVec.ofNat 3 (rd b 2 1), BitVec.ofNat 16 (rd b 4 2),
    BitVec.ofNat 64 (rd b 8 8), BitVec.ofNat 32 (rd b 16 4), BitVec.ofNat 32 (rd b 20 4), BitVec.ofNat 16 (rd b 24 2)⟩

/-- A capture record outside its ranges (R194). -/
def capBad (s : State) (b : List Byte) : Bool :=
  let q := capReqOf b
  let n := popCount q.cmask
  let tm := q.tmask.toNat
  rd b 0 1 > 7 || rd b 1 1 > 3 || rd b 2 1 > 4 || rd b 3 1 > 3 || !zerosAt b 6 2 || !zerosAt b 26 6
    || !maskOk s q.source.toNat q.cmask
    || (match q.trigger.toNat with
      | 2 => tm == 0 || tm > 0x7F
      | 3 => tm == 0
      | _ => tm != 0)
    || q.pre.toNat + q.post.toNat == 0
    || (q.pre.toNat + q.post.toNat) * n * wordLen q.source.toNat > 262144

def capKey (r : Nat) : Nat := nvKey .pqSub (16 + r)

/-- CAP_CFG (R194). -/
def execCapCfg (r : Req) (s : State) : Out :=
  ring0 0x21 (· == 32) r s (fun w s =>
    let n := rd r.buf 0 1
    if capBad s r.buf then .fail statusRange s
    else if s.pq.cap.state != 0 && s.pq.cap.owner.toNat == n then
      .fail statusBusy { s with pq.cap.busy := satInc s.pq.cap.busy }
    else writeCmd (capKey n) (.bytes r.buf) 1 w (fun t => { t with pq.reqs := tput t.pq.reqs n (capReqOf r.buf) }) s)

/-- The record of a capture command is malformed, or names no enabled request (R358, R195). -/
def capCmdBad (s : State) (b : List Byte) : Bool := !zerosAt b 1 3 || rd b 0 1 > 7 || !(getReq s (rd b 0 1)).en

def capBusy (s : State) : Ans := .fail statusBusy { s with pq.cap.busy := satInc s.pq.cap.busy }

/-- CAP_ARM (R195). -/
def execCapArm (r : Req) (s : State) : Out :=
  ring0 0x22 (· == 4) r s (fun _ s =>
    if capCmdBad s r.buf then .fail statusRange s
    else if s.pq.cap.state != 0 then capBusy s
    else .done statusOk (capArmed (rd r.buf 0 1) s))

/-- Trigger the owner at the newest sample written (R196). -/
def capCommandFire (s : State) : State :=
  let (t, p) := newestOf s (capOwner s).source.toNat
  capFire t p s

/-- A request that is armed and triggered at once holds the newest sample of each of its channels (R196). -/
def capSeed (s : State) : State :=
  let q := capOwner s
  let ns := (List.range 64).filter (bit q.cmask)
  { s with pq.cap := { s.pq.cap with ch := ns.filterMap (fun n => (tget s.pq.newest (q.source.toNat * 64 + n)).map (fun x => (n, [x]))) } }

/-- CAP_TRIGGER (R195): a trigger while FILLING or DELIVERING is counted as missed and completes BUSY. -/
def execCapTrigger (r : Req) (s : State) : Out :=
  ring0 0x23 (· == 4) r s (fun _ s =>
    let n := rd r.buf 0 1
    let c := s.pq.cap
    if capCmdBad s r.buf then .fail statusRange s
    else if c.state == 0 then .done statusOk (capCommandFire (capSeed (capArmed n s)))
    else if c.owner.toNat != n then capBusy s
    else if c.state == 1 then .done statusOk (capCommandFire s)
    else capBusy { s with pq.cap.missed := satInc c.missed })

/-- This chip's undelivered segments leave the queues, and the receive buffers in which they stood (R195); of one that a
worker was sending the rest is not sent. -/
def dropSegs (s : State) : State :=
  let mine (q : QRec) : Bool := rd q.bytes 24 4 == chipAddr s 0 && rd q.bytes 4 2 == 0x0078
  if isWorker s then
    { s with coil.w := { s.coil.w with
        bulkOff := if s.coil.w.bulk.head?.any (fun p => p.1 == 7 && mine p.2) then 0 else s.coil.w.bulkOff
        bulk := s.coil.w.bulk.filter (fun p => !(p.1 == 7 && mine p.2)) } }
  else modRing 7 (fun r => { r with
    queue := r.queue.filter (fun q => !mine q), bufs := r.bufs.map (fun b => { b with recs := b.recs.filter (fun q => !mine q) }) }) s

/-- CAP_RELEASE (R195). -/
def execCapRelease (r : Req) (s : State) : Out :=
  ring0 0x24 (· == 4) r s (fun _ s =>
    let n := rd r.buf 0 1
    if capCmdBad s r.buf || s.pq.cap.state == 0 || s.pq.cap.owner.toNat != n then .fail statusRange s
    else
      let s1 := dropSegs s
      let s2 := { s1 with whl.ang := if (getReq s n).trigger == 1 then tdel s1.whl.ang (capEntry n) else s1.whl.ang }
      .done statusOk { s2 with pq.cap := { s2.pq.cap with state := 0, ch := [], segs := [] } })

/-! ### Filling ends (R195, R197, R198) -/

/-- Word of a channel at an index. -/
def capWord (l : List (Int × Nat)) (i : Int) : Option Nat := (l.find? (fun p => p.1 == i)).map (·.2)

/-- Instants before the trigger that every channel holds, counted back without a gap. -/
def preHeld (chs : List (List (Int × Nat))) (trig : Int) : Nat → Nat
  | 0 => 0
  | k + 1 =>
    let h := preHeld chs trig k
    if h = k && chs.all (fun l => (capWord l (trig - (k + 1))).isSome) then k + 1 else h

/-- Instants from the trigger on that every channel holds. -/
def postHeld (chs : List (List (Int × Nat))) (trig : Int) : Nat → Nat
  | 0 => 0
  | k + 1 =>
    let h := postHeld chs trig k
    if h = k && chs.all (fun l => (capWord l (trig + k)).isSome) then k + 1 else h

/-- A capture segment (R198). -/
def capSegment (s : State) (q : CapReq) (src pre post trunc segs i first count : Nat) (flags : Nat)
    (chs : List (List (Int × Nat))) : List Byte :=
  let c := s.pq.cap
  let data := (List.range count).foldl (fun b (k : Nat) =>
    chs.foldl (fun b l => b ++ le (wordLen src) ((capWord l (c.trig - pre + ((first + k : Nat) : Int))).getD 0)) b) []
  let fl := flags + bitAt (pre < q.pre.toNat) 13 + bitAt (trunc == 1) 14
  le 4 (s.pq.seq.toNat + i) ++ le 2 0x0078 ++ le 2 (64 + data.length) ++ c.stamp.bytes ++ addrBytes s 0 ++ le 2 fl
    ++ le 1 c.owner.toNat ++ le 1 (src + 4 * q.trigger.toNat) ++ le 4 c.number.toNat ++ le 2 i ++ le 2 segs
    ++ le 8 q.cmask.toNat ++ le 4 pre ++ le 4 post ++ le 4 first ++ le 4 count ++ data

/-- The filling has ended: its segments join the queue of Ring 7, or the bulk queue of a worker. -/
def capDeliver (s : State) : State :=
  let q := capOwner s
  let src := q.source.toNat
  let c := s.pq.cap
  let chs := ((List.range 64).filter (bit q.cmask)).map (fun n => tgetD c.ch n [])
  let pre := preHeld chs c.trig q.pre.toNat
  let post := postHeld chs c.trig q.post.toNat
  let trunc := if post < q.post.toNat then 1 else 0
  let per := 32768 / (chs.length * wordLen src)
  let n := pre + post
  let segs := if per = 0 then 0 else (n + per - 1) / per
  let inside (i : Int) : Bool := c.trig - pre ≤ i && i < c.trig + post
  let flags := (List.range 5).foldl (fun a i =>
    a + bitAt (chs.any (fun l => l.any (fun p => inside p.1 && (wordFlags src p.2).testBit i))) i) (bitAt (c.holds.any inside) 5)
  let out := (List.range segs).map (fun i =>
    capSegment s q src pre post trunc segs i (i * per) (min per (n - i * per)) flags chs)
  let seqs := (List.range segs).map (fun i => s.pq.seq + BitVec.ofNat 32 i)
  let s1 := (List.zip seqs out).foldl (fun t p => (enqRaw 7 ⟨p.1, p.2, none, none⟩ t).1) s
  let s2 := { s1 with pq.seq := s1.pq.seq + BitVec.ofNat 32 segs,
                      pq.cap := { c with state := 3, ch := [], segs := seqs } }
  if segs = 0 then capDone s2 else s2

/-- A channel has written its last sample of the capture (R195). -/
def postDone (trig : Int) (post : Nat) (l : List (Int × Nat)) : Bool :=
  match l with
  | [] => false
  | p :: _ => trig + post ≤ p.1 + 1

/-- CAPTURE_FILL_END (R195): FILLING has its POST samples on every channel, or was truncated. -/
def execCaptureFillEnd (s : State) : Out :=
  let q := capOwner s
  let c := s.pq.cap
  let chs := ((List.range 64).filter (bit q.cmask)).map (fun n => tgetD c.ch n [])
  .next (if c.state != 2 then s
    else if c.stop.isSome || chs.all (postDone c.trig q.post.toNat) then capDeliver s
    else s)

/-- A segment of this chip has been delivered (R195). -/
def capSegDone (seq : W32) (s : State) : State :=
  let c := s.pq.cap
  if c.state != 3 || !c.segs.contains seq then s
  else
    let rest := c.segs.filter (· != seq)
    let s1 := { s with pq.cap := { c with segs := rest } }
    if rest.isEmpty then capDone s1 else s1

/-- A rephase or a freeze ends FILLING with the last sample written (R197). -/
def capTruncate (s : State) : State :=
  let c := s.pq.cap
  if c.state == 2 then { s with pq.cap := { c with stop := some (c.trig - 2 ^ 40) } } else s

/-- A rephase acts on captures off the Wheel: ARMED restarts from empty, FILLING is truncated (R197). -/
def capRephase (s0 : State) : State :=
  let s := { s0 with pq.newest := s0.pq.newest.filter (fun p => p.1 / 64 == srcWheel) }
  let c := s.pq.cap
  if (capOwner s).source == 1 then s
  else if c.state == 1 then { s with pq.cap := { c with ch := [] } }
  else capTruncate s

def capStatImage (s : State) : W32 :=
  let c := s.pq.cap
  BitVec.ofNat 32 (c.missed.toNat * 2 ^ 24 + c.busy.toNat * 2 ^ 16 + putAt c.segs.length 8 8 + c.state.toNat * 16
    + c.owner.toNat)

def capCfgImage (q : CapReq) : W32 :=
  BitVec.ofNat 32 (bitAt q.en 31 + bitAt q.rearm 30 + q.source.toNat * 2 ^ 28 + q.trigger.toNat * 2 ^ 24 + q.tmask.toNat)

/-! ### STREAM_START, STREAM_STOP (R359) -/

/-- Samples per second of a source. -/
def srcRate (s : State) (src : Nat) : Nat :=
  match src with
  | 0 => 16000
  | 1 => 256 * (if bit s.whl.regs.cfg 0 then 60 else 50)
  | 2 => 768000
  | _ => 384000

/-- STREAM_START: the stream starts at the next sample instant of slot 0. -/
def execStreamStart (r : Req) (s : State) : Out :=
  let w := reqWaiter r 15 0xA0
  let b := r.buf
  let src := rd b 0 1
  let mask : W64 := BitVec.ofNat 64 (rd b 8 8)
  .next (match firstBad [(!metering s, statusNotReady), (b.length != 16, statusBadLength),
      (src > 3 || !zerosAt b 1 7 || !maskOk s src mask
        || popCount mask * wordLen src * srcRate s src > 8000000, statusRange),
      (s.hif.stream.run, statusBusy)] with
    | some st => complete w st 0 [] s
    | none =>
      let x := s.hif.stream
      complete w statusOk 0 [] { s with hif.stream :=
        { x with run := true, source := src, mask := mask, number := if x.stopAt.isSome then x.number + 1 else x.number,
                 block := 0, index := 0, gap := false, curN := 0, parts := [], store := [], stopAt := none } })

/-- STREAM_STOP: receive buffers that stand before the stop and are still empty complete OK with length 0. -/
def execStreamStop (r : Req) (s : State) : Out :=
  let w := reqWaiter r 15 0xA1
  .next (match firstBad [(!metering s, statusNotReady), (r.buf.length != 4, statusBadLength),
      (!zerosAt r.buf 0 4 || !s.hif.stream.run, statusRange)] with
    | some st => complete w st 0 [] s
    | none =>
      let ring := getRing s 15
      let s1 := setRing 15 { ring with bufs := [] } s
      let s2 := ring.bufs.foldl (fun t b => complete ⟨15, .host, b.idx, b.tag, b.irq, 0xA2⟩ statusOk 0 [] t) s1
      complete w statusOk 0 [] { s2 with hif.stream := { s2.hif.stream with run := false, parts := [], stopAt := some r.slot } })

end Sys2Proof.Machine
end

