-- ==== Sys2Proof/Machine/Sample.lean ====
section
/-!
DEFINITION. Samples on their way through the chip: coarse, tap and fine samples as they are written (R93-R103), the
aligned stream (R117-R121), wheel samples and their calibration (R123-R128, R140, R143-R145), CF accumulation (R163),
and the execution of a SYNC (R55-R57, R105, R106).
-/
namespace Sys2Proof.Machine

/-! ### COARSE_SAMPLE -/

/-- LIVE of OVERRANGE: some stream's newest coarse sample carries OVR, or an auxiliary level lies below AXCOM (R62, R65,
R88; log entry 12). -/
def ovrLive (s : State) : State :=
  if s.dec.strm.any (fun p => p.2.last || p.2.under) then raiseLive 1 0 s else fallLive 1 0 s

/-- A tap sample joins its entry's window of 1,920, which begins at a multiple of 1,920 (R176). -/
def tapPush (t : Nat) (n : Int) (x : Smp) (s : State) : State :=
  let w := getTap s t
  let open_ := !s.pq.ev.isEmpty
  let w1 := if n < 0 then { w with smps := [] }
    else if n % 1920 = 0 then { w with first := n, smps := [x], ev := open_ }
    else if w.smps.isEmpty || w.smps.length ≥ 1920 then w
    else { w with smps := x :: w.smps, ev := w.ev || open_ }
  sinks srcTap t n x { s with dec.tap := tput s.dec.tap t w1 }

/-- An auxiliary fine sample joins its dwell unless it is flagged SETTLING or CAL (R66, R214; log entry 14). -/
def auxPush (a : Nat) (n : Int) (x : Smp) (s : State) : State :=
  let m := { tgetD s.afe.mux a Init.auxMux with n := (tgetD s.afe.mux a Init.auxMux).n + 1 }
  let m1 := if bit x.fl flSettling || bit x.fl flCal then { m with cal := m.cal || bit x.fl flCal }
    else if m.cnt ≥ 65535 then m
    else { m with sum := m.sum + x.v, cnt := m.cnt + 1, ovr := m.ovr || bit x.fl flOvr, lastN := n }
  { s with afe.mux := tput s.afe.mux a m1, afe.ovr := if bit x.fl flOvr then setBit s.afe.ovr (amIdx a) true else s.afe.ovr }

/-- A fine sample of a modulator that is being measured (R207): the first 48 from the start of a level are discarded, the
next 128 measured. A sample with SETTLING restarts the level. -/
def calFine (m : Nat) (t : Int) (x : Smp) (s : State) : State :=
  let g := modGroup m
  let y := getGrp s g
  let c := getCalMod s m
  if !s.cal.isol || y.done || y.gap || !y.todo.contains m || c.lvl ≥ 3 || t < y.at_ then s
  else if bit x.fl flSettling then
    let c1 := match c.lvl with
      | 0 => { c with cnt := 0, sz := 0, szz := 0 }
      | 1 => { c with cnt := 0, sp := 0 }
      | _ => { c with cnt := 0, sn := 0 }
    setGrp g { y with restarted := true } (setCalMod m c1 s)
  else
    let k := c.cnt + 1
    let c1 := if k ≤ 48 then c else match c.lvl with
      | 0 => { c with sz := c.sz + x.v, szz := c.szz + x.v.natAbs * x.v.natAbs }
      | 1 => { c with sp := c.sp + x.v }
      | _ => { c with sn := c.sn + x.v }
    setCalMod m (if k = 176 then { c1 with lvl := c.lvl + 1, cnt := 0 } else { c1 with cnt := k }) s

/-- A fine sample of a shadow in its self-check: those of the turn after its first 48 are summed (R75 step 4). -/
def checkFine (b : Nat) (t : Int) (x : Smp) (s : State) : State :=
  let h := getShadow s b
  if h.st != .selfcheck || h.turn < 1 || h.turn > 3 || t < h.lvlAt then s
  else setShadow b { h with lvlCnt := h.lvlCnt + 1, lvlSum := if h.lvlCnt < 48 then h.lvlSum else h.lvlSum + x.v } s

/-- A sample of a channel's stream into the captures and streams of its source; of a shadow or an auxiliary, into none. -/
def chanSinks (src m : Nat) (n : Int) (x : Smp) (s : State) : State := match chanBit m with
  | some b => sinks src b n x s
  | none => s

/-- A full-scale coarse sample sets AFE_OVR's bit and is OVERRANGE's condition (R62, R196). -/
def coarseOvr (m : Nat) (n : Int) (s : State) : State :=
  let t := { s with afe.ovr := setBit s.afe.ovr m true }
  if captured t m then noteAt 4 (s.dec.gSlot + 32 * n + slotOf m) t else t

/-- A new coarse sample of a stream. -/
def coarseOut (m : Nat) (n : Int) (c : Smp) (s : State) : State :=
  chanSinks srcCoarse m n c (ovrLive (if bit c.fl flOvr then coarseOvr m n s else s))

/-- The tap sample of a step, where it gave one. -/
def tapOut (o : Option (Nat × Int × Smp)) (s : State) : State := match o with
  | some (t, tn, x) => tapPush t tn x s
  | none => s

/-- A new fine sample of a stream: an auxiliary's reading, a self-check's or a calibration's average, and the channel's sinks. -/
def fineOut (m : Nat) (n t : Int) (x : Smp) (s : State) : State :=
  let s1 := if m ≥ 63 then auxPush (m - 63) n x s else if m ≥ 60 then checkFine (m - 60) t x s else s
  chanSinks srcFine m n x (calFine m t x s1)

/-- COARSE_SAMPLE (R93, R62, R103): eight modulator bits of a stream; every second sample advances stage A, the tap and
the fine path. A full-scale sample sets AFE_OVR and OVERRANGE. -/
def execCoarseSample (m : Nat) (bits : Byte) (s : State) : Out :=
  .next (if m ≥ 65 || !s.dec.run then s
    else
      let d := decStep m bits s
      let s1 := tapOut d.2.tap (coarseOut m d.2.coarse.1 d.2.coarse.2 d.1)
      match d.2.fine with
      | none => s1
      | some (n, x) => fineOut m n (s.dec.gSlot + 1536 * n + slotOf m) x s1)

/-! ### ALIGNED_SAMPLE_WRITE -/

def getWs (s : State) (m : Nat) : WStream := tgetD s.pnt.ws m Init.wstream
def setWs (m : Nat) (x : WStream) (s : State) : State := { s with pnt.ws := tput s.pnt.ws m x }

/-- The stream whose fine samples feed an aligned stream: the shadow of a channel it serves (R75). -/
def alignSrc (s : State) (m : Nat) : Nat := match servedBy s m with
  | some b => smIdx b
  | none => m

/-- The channel fades to its shadow (R75 step 6a). -/
def fadesToShadow (s : State) (m : Nat) : Bool :=
  match servedBy s m with
  | some b => (getShadow s b).st == .fade
  | none => false

/-- Aligned sample `n` of stream `m`, and the step count of its pair's fade after it (R118, R121). A channel that fades
to its shadow takes the shadow through the new bank alone; its held values enter in the wheel sample (log entry 13). -/
def alignedOf (s : State) (m : Nat) (n : Int) : Smp × Nat :=
  let x := getStrm s (alignSrc s m)
  let p := getPair s (phasePair m)
  let line := (x.fine.drop (x.fineN - (n + 4)).toNat).take 9
  let vals := line.map (·.v)
  let fl := line.foldl (fun (a : BitVec 6) z => a ||| z.fl) 0
  let f (c : List Int) : Int := (satS 24 (rndShift 20 (fir c vals))).1
  let (k, c) := fadeNext p (getWs s m).fadeK (s.dec.gSlot + 1536 * n)
  let (v, fading) := if fadesToShadow s m && p.fading then (f p.new, decide (0 ≤ k && k < 64)) else pairOut p k f
  (⟨v, if fading then setBit fl flFading true else fl⟩, c)

/-- ALIGNED_SAMPLE_WRITE (R117): index n of all 63 streams, once fine sample n + 4 of every slot stands. -/
def execAlignedSampleWrite (s : State) : Out :=
  let n := s.pnt.alN + 1
  .next (if !s.dec.run || (List.range 63).any (fun m => (getStrm s m).fineN < n + 4) then s
    else
      let s1 := (List.range 63).foldl (fun t m =>
        let w := getWs t m
        let a := alignedOf s m n
        setWs m { w with al := (a.1 :: w.al).take 32, fadeK := a.2 } t) s
      { s1 with pnt.alN := n })

/-! ### Wheel samples -/

/-- Aligned index and phase of wheel sample k of a turn (R123). -/
def rsIndex (t : RsTurn) (k : Nat) : W32 × Nat :=
  let u := (t.u.toNat + k * t.delta.toNat) % 2 ^ 63
  let p := (u % 2 ^ 31 + 2 ^ 21) / 2 ^ 22
  let m := u / 2 ^ 31
  if p = 512 then (BitVec.ofNat 32 (m + 1), 0) else (BitVec.ofNat 32 m, p)

/-- How many aligned samples stand beyond index m. -/
def rsAhead (s : State) (m : W32) : Int := (BitVec.ofInt 32 s.pnt.alN - m).toInt

/-- The resampled value of a stream (R123, R126): `d` aligned samples lie beyond index m. -/
def resample (rom : List Int) (d : Nat) (al : List Smp) : Smp :=
  let line := (al.drop (d - 8)).take 16
  ⟨(satS 24 (rndShift 17 (fir rom.reverse (line.map (·.v))))).1, line.foldl (fun (a : BitVec 6) z => a ||| z.fl) 0⟩

/-- β of R143 as a 2^-64 fraction of 32 significant bits. -/
def rogBeta (nom60 : Bool) (delta : W32) : Nat :=
  let v := 2 * piFix.toNat * (if nom60 then 60 else 50) * delta.toNat / (16000 * 2 ^ 31)
  let sh := v.log2 - 31
  (v + 2 ^ sh / 2) / 2 ^ sh * 2 ^ sh

/-- One step of the Rogowski integrator (R143); answers r and whether it saturated. At the first step after a start
w[k−1] is taken as 0, the value `Init.rog` holds: the rule does not say what precedes the first sample (DESIGN CHOICE: log
entry 103). -/
def rogStep (beta : Nat) (w : Int) (g : Rog) : Rog × Int × Bool :=
  let y := wrapS 48 (g.y - Int.fdiv g.y (2 ^ 18) + rndAway ((w + g.w1) * beta) (2 ^ 41))
  let (r, sat) := satS 24 (rndAway y (2 ^ 24))
  ({ g with y := y, w1 := w, n := g.n + 1, sum := g.sum + y }, r, sat)

/-- End of a turn: after the first whole turn of a start the mean of y is subtracted (R145); what is left of a turn in
which the integrator started is none. -/
def rogTurn (g : Rog) : Rog :=
  if g.n < 256 then { g with n := 0, sum := 0 }
  else { g with y := if g.turns = 0 then wrapS 48 (g.y - rndAway g.sum 256) else g.y,
                turns := min (g.turns + 1) 2, n := 0, sum := 0 }

/-- A channel's wheel sample through the integrator of one datapath, and its calibration: the sample, and the integrator
after it (R140, R143, R145). -/
def calSample (nom60 : Bool) (delta : W32) (rogo : Bool) (gcal : W32) (x : Smp) (g : Rog) : Smp × Rog :=
  if rogo then
    let (g1, r, sat) := rogStep (rogBeta nom60 delta) x.v g
    let fl1 := if sat then setBit x.fl flOvr true else x.fl
    (⟨rndAway (r * gcal.toNat) (2 ^ 22), if g.turns < 2 then setBit fl1 flSettling true else fl1⟩, g1)
  else (⟨rndAway (x.v * gcal.toNat) (2 ^ 22), x.fl⟩, g)

def getChan (s : State) (c : Nat) : ChanRec := tgetD s.pnt.chan c Init.chanRec

/-- The record of a channel as it holds for the samples and the accounting of a turn: a record takes effect with the turn
at whose boundary it was applied (R139). Datapath B reads its own copy (R155). -/
def chanAt (s : State) (c : Nat) (turn : BitVec 40) : ChanRec :=
  match tget s.pnt.chanWas c with
  | some (t, a, _) => if turnLater t.toNat turn.toNat then a else getChan s c
  | none => getChan s c
def chanAtB (s : State) (c : Nat) (turn : BitVec 40) : ChanRec :=
  match tget s.pnt.chanWas c with
  | some (t, _, b) => if turnLater t.toNat turn.toNat then b else tgetD s.pnt.chanB c Init.chanRec
  | none => tgetD s.pnt.chanB c Init.chanRec

/-- Wheel sample k of a turn is the first under a record that changed TYPE, EN, GAIN or FS: its integrator starts
(R145). -/
def rogStarts (s : State) (c : Nat) (turn : BitVec 40) (k : Nat) : Bool :=
  match tget s.pnt.chanWas c with
  | some (t, a, _) => k == 0 && t == turn && (a.setup != (getChan s c).setup || a.fs != (getChan s c).fs)
  | none => false

/-- A channel record is a Rogowski channel's (R139). -/
def isRogo (m : Nat) (r : ChanRec) : Bool := m ≥ 12 && m < 60 && fld r.setup 4 3 == 2

/-- The mode of a stream in a turn: a mode that was to begin with this turn, or an earlier one, begins (R75, R213). A
hold keeps the last whole turn, oldest sample first. -/
def wheelMode (t : RsTurn) (w : WStream) : WStream :=
  match w.sw with
  | none => w
  | some (tn, md) =>
    if turnLater tn.toNat t.turn.toNat then w
    else { w with mode := md, sw := none, held := if md = 1 && w.mode = 0 then w.rawPrev.reverse else w.held }

/-- A stream's mode changes with the wheel samples of a turn. -/
def modeFrom (m : Nat) (turn : BitVec 40) (md : Nat) (s : State) : State :=
  setWs m { getWs s m with sw := some (turn, md) } s

/-- A hold from the next wheel sample on (R77). -/
def holdNow (m : Nat) (s : State) : State :=
  let w := getWs s m
  setWs m { w with mode := 1, sw := none, held := w.rawPrev.reverse } s

/-- Wheel sample k of one stream with its calibration (R75, R123, R126, R140, R143, R145). -/
def wheelOf (s : State) (t : RsTurn) (rom : List Int) (d k : Nat) (m : Nat) : WStream :=
  let w := wheelMode t (getWs s m)
  let live := resample rom d w.al
  let old := nth w.held k ⟨0, 0⟩
  let step : Int := ((k * t.delta.toNat / 2 ^ 31 : Nat) : Int)
  let x : Smp :=
    if w.mode = 2 then
      ⟨if step < 64 then fadeMix old.v live.v step else live.v,
        setBit (if step < 64 then setBit live.fl flFading true else live.fl) flStale true⟩
    else if w.mode = 1 then ⟨old.v, setBit old.fl flStale true⟩
    else live
  if m ≥ 60 then
    if k = 255 then { w with rawPrev := x :: w.raw, raw := [] } else { w with raw := x :: w.raw }
  else
    let n60 := bit s.whl.regs.cfg 0
    let ra := chanAt s m t.turn
    let rb := chanAtB s m t.turn
    let new := rogStarts s m t.turn k
    let a := calSample n60 t.delta (isRogo m ra) ra.gcal x (if new then Init.rog else w.rog)
    let b := calSample n60 t.delta (isRogo m rb) rb.gcal x (if new then Init.rog else w.rogB)
    let w1 := { w with raw := x :: w.raw, cur := a.1 :: w.cur, rog := a.2, curB := b.1 :: w.curB, rogB := b.2 }
    if k = 255 then
      { w1 with rawPrev := w1.raw, raw := [], prev := w1.cur, cur := [], rog := rogTurn w1.rog
                prevB := w1.curB, curB := [], rogB := rogTurn w1.rogB }
    else w1

/-! ### CF accumulators (R163, R165) -/

def getCf (s : State) (n : Nat) : Cf := tgetD s.pnt.cf n Init.cf
def setCf (n : Nat) (x : Cf) (s : State) : State := { s with pnt.cf := tput s.pnt.cf n x }

/-- The pulse quantum q = round(2^32 × 10^6 / C). -/
def cfQuantum (c : W32) : Nat := if c = 0 then 0 else (2 * (2 ^ 32 * 1000000) + c.toNat) / (2 * c.toNat)

/-- Take whole quanta out of the accumulator into the pending count; at 255 pulses are lost with CF_OVERRATE. -/
def cfDrain (n q : Nat) : Nat → State → State
  | 0, s => s
  | fuel + 1, s =>
    let x := getCf s n
    if q = 0 || x.acc < q then s
    else
      let s1 := setCf n { x with acc := x.acc - q, pend := min 255 (x.pend + 1) } s
      cfDrain n q fuel (if x.pend ≥ 255 then raise 4 2 s1 else s1)

/-- A wheel sample feeds the accumulators of the live outputs (R163); not during a freeze (R165). -/
def cfFeed (k : Nat) (s : State) : State :=
  if s.pnt.frozen || failed s then s
  else (List.range 8).foldl (fun t n =>
    let x := getCf t n
    if !x.live then t
    else
      let gain := x.eT / 256 + (if k = 255 then x.eT % 256 else 0)
      cfDrain n (cfQuantum x.const) 256 (setCf n { x with acc := (x.acc + gain) % 2 ^ 64 } t)) s

/-! ### The harmonic window in progress (R169) -/

/-- Turns of a harmonic window. -/
def winTurns (s : State) : Nat := if bit s.whl.regs.cfg 0 then 12 else 10

/-- A finished turn joins the window; a turn whose count is a multiple of N_T begins one, and the turn before the wrap
of the count ends one early (R169). Only turns that accumulate take part (R170). EVENT counts an event that is open at the
turn's end, or that ended within the turn (R181). -/
def winTurn (t : RsTurn) (s0 : State) : State :=
  let s := { s0 with pq.evSeen := false }
  if !t.live then s
  else
    let h := s.pq.win
    let n := winTurns s
    let first := t.turn.toNat % n == 0
    let open_ := !s.pq.ev.isEmpty || s0.pq.evSeen
    let chans : List Nat := List.range 60
    let fls (c : Nat) : BitVec 6 := (getWs s c).prev.foldl (fun a x => a ||| x.fl) 0
    let vals (c : Nat) : List Int := (getWs s c).prev.map (·.v)
    let short := t.turn == BitVec.allOnes 40
    if first then
      { s with pq.win := { active := true, turns := 1, hold := t.hold, event := open_, short := false, dur := t.delta.toNat,
                           start := wheelStamp s t 0, stop := wheelStamp s t 256, at_ := wheelInstant s t 0,
                           xs := chans.map (fun c => (c, vals c)), fl := chans.map (fun c => (c, fls c)) } }
    else if !h.active || h.turns ≥ n || h.short then s
    else
      { s with pq.win := { h with
          turns := h.turns + 1, hold := h.hold || t.hold, event := h.event || open_, short := short,
          dur := h.dur + t.delta.toNat, stop := wheelStamp s t 256,
          xs := chans.map (fun c => (c, vals c ++ tgetD h.xs c [])),
          fl := chans.map (fun c => (c, fls c ||| tgetD h.fl c 0)) } }

/-! ### WHEEL_SAMPLE_WRITE -/

/-- Every stream takes its wheel sample `k` of turn `t`. -/
def writeStreams (t : RsTurn) (k d : Nat) (rom : Nat) (s : State) : State :=
  (List.range 63).foldl (fun u c => setWs c (wheelOf s t (romPhase rom) d k c) u) s

/-- The uncalibrated wheel samples of the channels go to the capture and the raw stream (R194, R359). -/
def sinkStreams (t : RsTurn) (k : Nat) (s : State) : State :=
  (List.range 60).foldl (fun u c =>
    let w := getWs u c
    sinks srcWheel c ((t.turn.toNat * 256 + k : Nat) : Int)
      (if k = 255 then w.rawPrev.headD ⟨0, 0⟩ else w.raw.headD ⟨0, 0⟩) u) s

/-- The schedule moves on by one sample; after sample 255 the turn is whole. HOLD and NOLOCK count for a wheel sample as
they stand when it is written, about 1.8 ms after its instant; R149 does not say which of the two instants decides (DESIGN
CHOICE: log entry 104). -/
def nextSample (t : RsTurn) (rest : List RsTurn) (k : Nat) (s0 : State) : State :=
  let hold := s0.whl.hold || s0.whl.nolock
  let t1 := { t with hold := t.hold || hold }
  let s := { s0 with pnt.holdAge := if hold then 0 else min 256 (s0.pnt.holdAge + 1)
                     pq.winOn := s0.pq.winOn || (k == 0 && t.live && t.turn.toNat % winTurns s0 == 0) }
  if k = 255 then
    winTurn t1 { s with pnt.lastTurn := t.turn, pnt.lastK := 255, pnt.rs := rest, pnt.rsK := 0, pnt.turnDone := some t1, pnt.doneTurn := some t1 }
  else { s with pnt.lastTurn := t.turn, pnt.lastK := BitVec.ofNat 8 k, pnt.rs := t1 :: rest, pnt.rsK := k + 1 }

/-- WHEEL_SAMPLE_WRITE (R126): the next wheel sample of the schedule, once aligned sample m + 8 stands. -/
def execWheelSampleWrite (s : State) : Out :=
  .next (match s.pnt.rs with
    | [] => s
    | t :: rest =>
      let k := s.pnt.rsK
      let at_ := rsIndex t k
      let d := rsAhead s at_.1
      if d < 8 then s
      else nextSample t rest k (cfFeed k (sinkStreams t k (writeStreams t k d.toNat at_.2 s))))

/-! ### SYNC_EXECUTE -/

/-- The grid moves to the present instant (R106, R128). -/
def rephase (s : State) : State :=
  let e := s.slot - s.dec.gSlot
  let shift := e % 1536
  let back : BitVec 63 := BitVec.ofNat 63 ((2 * e * 2 ^ 31 + 1536) / (2 * 1536))
  let strm := s.dec.strm.map (fun p =>
    (p.1, { p.2 with nC := 0, fineN := -18, settle := if p.1 < 63 then s.slot :: p.2.settle else p.2.settle,
                     rmsL := crmsLen s.dec.crmscfg, rmsCnt := 0, rmsN := 0, rmsS := 0, rmsFl := 0 }))
  let tap := s.dec.tap.map (fun p => (p.1, { p.2 with first := 0, smps := [] }))
  let s1 := { s with
    dec := { s.dec with gSlot := s.slot, gridSync := true, shift := BitVec.ofNat 11 shift,
                        rephase := satInc s.dec.rephase, strm := strm, tap := tap }
    pnt := { s.pnt with alN := -22, rs := s.pnt.rs.map (fun t => { t with u := t.u - back }) }
    whl := { s.whl with u := s.whl.u - back } }
  capRephase s1

/-- The grid test of R105: E is a fine sample instant of slot 0. -/
def inPhase (s : State) : Bool := (s.slot - s.dec.gSlot) % 1536 == 0

/-- SYNC_EXECUTE (R55-R57, R105, R106, R36). -/
def execSyncExecute (s : State) : Out :=
  .next (match s.whl.sync with
    | none => s
    | some _ =>
      let same := inPhase s
      let s1 := if !s.dec.run then s
        else if same then { s with dec.inphase := satInc s.dec.inphase } else rephase s
      let c := s.whl.syncCount + 1
      let s2 := { s1 with whl := { s1.whl with sync := none, syncCount := c, coast := true }, pin.syncout := true }
      blockEvent 3 1 (le 2 c.toNat ++ le 2 (if same || !s.dec.run then 0 else s1.dec.shift.toNat)) s2)

end Sys2Proof.Machine
end

