-- ==== Sys2Proof/Machine/Points.lean ====
section
/-!
DEFINITION. Metering points (R136-R168): per-turn quantities, energy, the partial turn of a freeze, second and leg
records, channel and point commands, CF pulses and auxiliary readings. The accounting of a turn as a whole, with
tariffs and credit, stands in Account.lean.
-/
namespace Sys2Proof.Machine

def getPt (s : State) (p : Nat) : Pt := tgetD s.pnt.pts p Init.pt
def setPt (p : Nat) (x : Pt) (s : State) : State := { s with pnt.pts := tput s.pnt.pts p x }

/-- Points with a definition in force, ascending. -/
def definedPts (s : State) : List Nat := (s.pnt.pts.filter (fun x => x.2.dfn.isSome)).map (·.1)

/-! ### Per-turn quantities (R146-R150) -/

/-- η_j for odd j at even places, 0 between: the taps of R146 along a line held newest first. -/
def etaLine : List Int := (List.range 256).map (fun i => if i % 2 = 0 then romEta (i + 1) else 0)

/-- v̂_k of a turn of 256 samples held newest first (R146). -/
def hilbert (v : List Int) (k : Nat) : Int := rndAway (fir etaLine ((v ++ v).drop (256 - k))) (2 ^ 23)

/-- The sums of a leg over a turn (R146). -/
structure LegTurn where
  p : Int
  v2 : Nat
  i2 : Nat
  cv : Int
  sv : Int
  ci : Int
  si : Int
  q : Int
  q1 : Int

def dot (a b : List Int) : Int := sumI (List.zipWith (· * ·) a b)

/-- Sums of R146 for voltage and current samples of a turn, newest first and of length 256. -/
def legTurn (v i : List Int) : LegTurn :=
  let cs := ((List.range 256).map romCos).reverse
  let sn := ((List.range 256).map romSin).reverse
  let cv := dot v cs
  let sv := dot v sn
  let ci := dot i cs
  let si := dot i sn
  let vh := ((List.range 256).map (hilbert v)).reverse
  ⟨dot v i, (dot v v).toNat, (dot i i).toNat, cv, sv, ci, si, dot vh i, rndAway (cv * si - sv * ci) (2 ^ 53)⟩

/-- A turn of a point (R147-R151). -/
structure PtTurn where
  yp : Int
  yq : Int
  yq1 : Int
  ysa : Int
  ysv : Nat
  legs : List LegTurn
  noLoad : Bool
  fl : BitVec 6

/-- The definition of a point as it holds for the accounting of a turn (R138). -/
def dfnAt (x : Pt) (turn : BitVec 40) : Option PDef :=
  match x.was with
  | some (t, d, _, _) => if turnLater t.toNat turn.toNat then d else x.dfn
  | none => x.dfn

/-- FS of a channel as it holds for a turn, in datapath A and in B (R139, R155). -/
def fsAt (s : State) (turn : BitVec 40) (c : Nat) : Nat := (chanAt s c turn).fs.toNat
def fsAtB (s : State) (turn : BitVec 40) (c : Nat) : Nat := (chanAtB s c turn).fs.toNat

/-- Voltage RMS in mV, current RMS and fundamental current RMS in µA (R147). -/
def vRms (fs v2 : Nat) : Nat := (rndAway (fs * rsqrt v2 : Nat) (16 * 6291456)).toNat
def iScaled (fs r : Nat) : Nat := (rndAway (1000 * fs * r : Nat) (16 * 6291456)).toNat
def iRms (fs i2 : Nat) : Nat := iScaled fs (rsqrt i2)
def fRms (fs : Nat) (c d : Int) : Nat :=
  let r := rsqrt ((c * c + d * d).toNat)
  sqrtRatio ((r * 1000 * fs) * (r * 1000 * fs)) (2 * (128 * 2 ^ 23 * 6291456) * (128 * 2 ^ 23 * 6291456))

/-- Evaluate a point over samples picked per channel, with FS of each channel, scaled for the NO_LOAD test of a partial turn
by 256 / n. -/
def ptTurn (fs : Nat → Nat) (d : PDef) (pick : Nat → List Smp) (n : Nat) : PtTurn :=
  let ls := d.legs.map (fun l =>
    (l, legTurn ((pick l.v).map (·.v)) ((pick (iIdx l.i)).map (·.v)), (fs l.v * fs (iIdx l.i) : Nat)))
  let tot (f : LegTurn → Int) : Int :=
    sumI (ls.map (fun x => (if x.1.neg then -1 else 1) * (x.2.2 : Int) * f x.2.1))
  let yp := tot (·.p)
  let yq := tot (·.q)
  let ysv := rsqrt ((yp * yp + yq * yq).toNat)
  let imax := ls.foldl (fun m x => max m (iScaled (fs (iIdx x.1.i)) (if n = 0 then 0 else sqrtRatio (x.2.1.i2 * 256) n))) 0
  let creep := ysv * 256 < 1000 * d.screep.toNat * 9 * 2 ^ 50 * n
  let fl := d.legs.foldl (fun (a : BitVec 6) l =>
    ((pick l.v) ++ (pick (iIdx l.i))).foldl (fun a x => a ||| x.fl) a) 0
  { yp := yp, yq := yq, yq1 := tot (·.q1), ysa := tot (fun x => (rsqrt (x.v2 * x.i2) : Nat)), ysv := ysv
    legs := ls.map (·.2.1), noLoad := imax < d.istart.toNat || creep, fl := fl }

/-- The energy increment of a sum over a turn (R151), in units of 2^-32 mWh. -/
def energyInc (y : Int) (delta : W32) : Int := rndAway (y * delta.toNat * 80) (81 * 10 ^ 9 * 2 ^ 50)

def yqOf (d : PDef) (t : PtTurn) : Int := if bit d.opts 0 then t.yq1 else t.yq
def ysOf (d : PDef) (t : PtTurn) : Int := if bit d.opts 1 then t.ysa else t.ysv

/-- Quadrant 0 to 3 for Q1 to Q4 (R151). -/
def quadOf (ep eq : Int) : Nat := if ep ≥ 0 then (if eq ≥ 0 then 0 else 3) else if eq ≥ 0 then 1 else 2

/-- The eight increments A+, A−, Q1 to Q4, S+, S− (R151). -/
def incList (ep eq : Int) (es : Nat) : List Nat :=
  let q := quadOf ep eq
  let at_ (i : Nat) : Nat := if i = q then eq.natAbs else 0
  [if ep ≥ 0 then ep.natAbs else 0, if ep < 0 then ep.natAbs else 0, at_ 0, at_ 1, at_ 2, at_ 3,
    if ep ≥ 0 then es else 0, if ep < 0 then es else 0]

def add96 (a b : List Nat) : List Nat := List.zipWith (fun x y => (x + y) % 2 ^ 96) a b

/-- The 64-bit counts of a point's accumulator A. -/
def counts (x : Pt) : List Nat := x.accA.map (· / 2 ^ 32)

/-- PF of R148 from a P and an S, with PF_INVALID. -/
def powerFactor (p sv : Int) : Int × Bool :=
  if sv = 0 then (0, true)
  else
    let r := rndAway (32768 * p * (if sv < 0 then -1 else 1)) sv.natAbs
    ((satS 16 r).1, p.natAbs > sv.natAbs)

/-- RTC second record flags from a turn's sample flags (R159 bits 1 to 5). -/
def secFlags (fl : BitVec 6) (hold : Bool) : Nat :=
  bitAt (bit fl flStale) 1 + bitAt (bit fl flOvr) 2 + bitAt (bit fl flSettling) 3 + bitAt (bit fl flCal) 4
    + bitAt (bit fl flFading) 5 + bitAt hold 6

def addLeg (fs : Nat → Nat) (dur : Nat) (l : Leg) (t : LegTurn) (a : LegSum) : LegSum :=
  let fv := fs l.v
  let fi := fs (iIdx l.i)
  let v := vRms fv t.v2
  let i := iRms fi t.i2
  let f := fRms fi t.ci t.si
  ⟨a.v2 + dur * v * v, a.i2 + dur * i * i, a.f2 + dur * f * f, BitVec.ofNat 16 (wheelAngle t.cv t.sv),
    BitVec.ofNat 16 (wheelAngle t.ci t.si)⟩

def zipLegs (fs : Nat → Nat) (dur : Nat) : List Leg → List LegTurn → List LegSum → List LegSum
  | l :: ls, t :: ts, [] => addLeg fs dur l t ⟨0, 0, 0, 0, 0⟩ :: zipLegs fs dur ls ts []
  | l :: ls, t :: ts, a :: as => addLeg fs dur l t a :: zipLegs fs dur ls ts as
  | _, _, _ => []

/-- E_P, E_Q and E_S of a whole turn (R150, R151). -/
def turnIncs (delta : W32) (d : PDef) (t : PtTurn) : Int × Int × Nat :=
  if t.noLoad then (0, 0, 0)
  else (energyInc t.yp delta, energyInc (yqOf d t) delta, (energyInc (ysOf d t).natAbs delta).toNat)

/-- Account a whole turn of one point (R151-R153): increments into both accumulators, each of its own datapath (R155), and
the open second. QUAD of a NO_LOAD turn, which has no increments, is that of increments of 0, Q1: R159 gives none (DESIGN
CHOICE: log entry 105). -/
def accountPt (tn : RsTurn) (s : State) (p : Nat) : State :=
  let x := getPt s p
  match x.dfn with
  | none => s
  | some d =>
    let t := ptTurn (fsAt s tn.turn) d (fun c => (getWs s c).prev) 256
    let (ep, eq, es) := turnIncs tn.delta d t
    let inc := incList ep eq es
    let incB := match x.dfnB with
      | some db =>
        let (pb, qb, sb) := turnIncs tn.delta db (ptTurn (fsAtB s tn.turn) db (fun c => (getWs s c).prevB) 256)
        incList pb qb sb
      | none => List.replicate 8 0
    let z := x.sec
    let dt := tn.delta.toNat
    let hold := tn.hold
    let sec : SecSum :=
      { turns := z.turns + 1, dur := z.dur + dt, yp := z.yp + t.yp * dt, yq := z.yq + yqOf d t * dt
        ys := z.ys + ysOf d t * dt, noLoad := z.noLoad + (if t.noLoad then 1 else 0)
        stale := z.stale + (if bit t.fl flStale then 1 else 0)
        flags := z.flags ||| BitVec.ofNat 16 (secFlags t.fl hold)
        legs := zipLegs (fsAt s tn.turn) dt d.legs t.legs z.legs }
    setPt p { x with accA := add96 x.accA inc, accB := add96 x.accB incB, inc := inc, eQ := eq, eS := es, accd := true,
                     noLoad := t.noLoad, tfl := t.fl, hold := hold, quad := BitVec.ofNat 2 (quadOf ep eq), sec := sec } s

/-- The samples of the present turn up to the freeze, as a turn whose other samples are 0 (R154; log entry 15). -/
def partialPick (l : List Smp) : List Smp := List.replicate (256 - l.length) ⟨0, 0⟩ ++ l

/-- E_P, E_Q and E_S of the partial turn of a freeze at wheel sample kf (R154); E_prev is 0 where the turn before was not
accumulated. -/
def partialIncs (delta : W32) (kf : Nat) (x : Pt) (t : PtTurn) : Int × Int × Nat :=
  if t.noLoad then (0, 0, 0)
  else if x.accd then
    (energyInc t.yp delta, rndAway (x.eQ * kf) 256, (rndAway ((x.eS * kf : Nat) : Int) 256).toNat)
  else (energyInc t.yp delta, 0, 0)

/-- Account the partial turn of a freeze at wheel sample kf (R154). -/
def accountPartial (tn : RsTurn) (kf : Nat) (s : State) (p : Nat) : State :=
  let x := getPt s p
  match x.dfn with
  | none => s
  | some d =>
    let t := ptTurn (fsAt s tn.turn) d (fun c => partialPick (getWs s c).cur) kf
    let (ep, eq, es) := partialIncs tn.delta kf x t
    let inc := incList ep eq es
    let incB := match x.dfnB with
      | some db =>
        let (pb, qb, sb) := partialIncs tn.delta kf x (ptTurn (fsAtB s tn.turn) db (fun c => partialPick (getWs s c).curB) kf)
        incList pb qb sb
      | none => List.replicate 8 0
    setPt p { x with accA := add96 x.accA inc, accB := add96 x.accB incB, inc := inc
                     noLoad := t.noLoad, tfl := t.fl, hold := tn.hold, quad := BitVec.ofNat 2 (quadOf ep eq)
                     sec := { x.sec with flags := x.sec.flags ||| BitVec.ofNat 16 (secFlags t.fl tn.hold) } } s

/-- The definitions of the accounting of a turn change places with those in force, where they differ; done twice, nothing
has changed (R138). -/
def swapDefs (turn : BitVec 40) (s : State) : State :=
  { s with pnt.pts := s.pnt.pts.map (fun (q : Nat × Pt) =>
      match q.2.was with
      | some (t, a, b, g) =>
        if turnLater t.toNat turn.toNat then
          (q.1, { q.2 with dfn := a, dfnB := b, gen := g, was := some (t, q.2.dfn, q.2.dfnB, q.2.gen) })
        else q
      | none => q) }

/-- No E_prev stands for the next turn: of the points that `f` names, whose turn was not accumulated (R154). -/
def clearPrev (f : Pt → Bool) (s : State) : State :=
  { s with pnt.pts := s.pnt.pts.map (fun (q : Nat × Pt) =>
      if f q.2 then (q.1, { q.2 with eQ := 0, eS := 0, accd := false }) else q) }

/-! ### Second records (R157-R160) -/

/-- Tariff in force for a calendar; a calendar that is not enabled follows calendar 0 (R226). -/
def tariffOf (s : State) (c : Nat) : Nat :=
  let t := nth s.trf.tariff c 0
  max 1 (if t = 0 then nth s.trf.tariff 0 1 else t)

/-- Means of the second in µW, µvar, µVA, and PF (R158). -/
def secMeans (z : SecSum) : Int × Int × Int × Int × Bool :=
  if z.dur = 0 then (0, 0, 0, 0, true)
  else
    let den := z.dur * 9 * 2 ^ 50
    let p := rndAway z.yp den
    let q := rndAway z.yq den
    let v := rndAway z.ys den
    let (f, bad) := powerFactor p v
    (p, q, v, f, bad)

/-- Flags of a second record (R159). -/
def secRecFlags (x : Pt) (extra : Nat) (pfBad : Bool) : Nat :=
  let z := x.sec
  z.flags.toNat % 128 + bitAt (z.turns > 0 && z.noLoad == z.turns) 0 + bitAt pfBad 7 + extra + x.quad.toNat * 2 ^ 14

/-- Address field of a point's record: global address and generation (R158). -/
def ptAddr (s : State) (p : Nat) : List Byte := le 4 (chipAddr s p + (getPt s p).gen.toNat * 2 ^ 24)

/-- Duration of a number of 2^-31 fine periods × 256 in 2^-24 s. -/
def durCode (d : Nat) : Nat := (2 * d + 8000) / 16000

/-- The point second record (R158). -/
def secondRec (st : Stamp) (extra : Nat) (s : State) (p : Nat) : Rec :=
  let x := getPt s p
  let z := x.sec
  let cal := match x.dfn with
    | some d => d.cal
    | none => 0
  let (mp, mq, ms, pf, bad) := secMeans z
  ⟨0x0060, s.pnt.seq, st,
    ptAddr s p ++ le 2 (secRecFlags x extra bad) ++ le 1 z.turns ++ le 1 (tariffOf s cal + 16 * cal) ++ le 4 (durCode z.dur)
      ++ leI 8 mp ++ leI 8 mq ++ leI 8 ms ++ leI 2 pf ++ le 1 z.noLoad ++ le 1 z.stale
      ++ (counts x).foldl (fun b c => b ++ le 8 c) []⟩

/-- The leg record (R160). -/
def legRec (st : Stamp) (s : State) (p : Nat) : Rec :=
  let x := getPt s p
  let z := x.sec
  let n := match x.dfn with
    | some d => d.legs.length
    | none => 0
  let body := z.legs.foldl (fun b l =>
    b ++ le 4 (min 0xFFFFFFFF (sqrtRatio l.v2 z.dur)) ++ le 4 (min 0xFFFFFFFF (sqrtRatio l.i2 z.dur))
      ++ le 4 (min 0xFFFFFFFF (sqrtRatio l.f2 z.dur)) ++ le 2 l.va.toNat ++ le 2 l.ia.toNat) []
  ⟨0x0061, s.pnt.seq, st, ptAddr s p ++ le 4 n ++ padTo 96 body⟩

/-- Deliver a record of the Ring 2 series. -/
def deliver2 (r : Rec) (s : State) : State := deliverRec 2 r { s with pnt.seq := s.pnt.seq + 1 }

/-- A FROZEN record is not delivered at the freeze (R157): it is kept; the others go out. -/
def out2 (extra : Nat) (r : Rec) (s : State) : State :=
  if extra.testBit 9 then { s with pnt.frozenOut := s.pnt.frozenOut ++ [r] } else deliver2 r s

/-- One point's records of a close; its second starts afresh. -/
def closePt (st : Stamp) (extra : Nat) (s : State) (p : Nat) : State :=
  let x := getPt s p
  let s1 := out2 extra (secondRec st extra s p) s
  let s2 := match x.dfn with
    | some d => if bit d.opts 2 then out2 extra (legRec st s1 p) s1 else s1
    | none => s1
  setPt p { getPt s2 p with sec := Init.secSum } s2

/-- The accumulators A and B are compared (R155). -/
def compareAcc (s : State) : State :=
  let ok := s.pnt.pts.all (fun x => x.2.dfn.isNone || x.2.accA == x.2.accB)
  let s1 := { s with pnt.cmpOk := ok, pnt.cmpCount := s.pnt.cmpCount + 1 }
  if ok then s1 else raise 4 1 s1

/-- An RTC second is closed (R157): records, the comparison, and the spread counters that have changed (R291). -/
def closeSecond (st : Stamp) (extra : Nat) (s : State) : State :=
  match s.pnt.second with
  | none => s
  | some _ =>
    let e := extra + bitAt s.pnt.resumed 10
    let s1 := (definedPts s).foldl (closePt st e) s
    compareAcc { s1 with pnt := { s1.pnt with second := none, resumed := false }, nvs.spreadDue := (definedPts s1).map (fun p => (p, counts (getPt s1 p))) }

/-! ### Channel records (R139, R166) -/

/-- The first leg channel pair of a definition that uses a channel. -/
def usesChan (d : PDef) (c : Nat) : Bool := d.legs.any (fun l => l.v == c || iIdx l.i == c)

/-- A channel's nibble, gain or type bits of the AFE configuration set from a set-up byte. -/
def cfgSet (c : Nat) (setup : Byte) (k : ChanCfg) : ChanCfg :=
  let en := bit setup 7
  if c < 12 then { k with vcfg := setBit (setBit k.vcfg c en) (16 + c) (bit setup 0) }
  else
    let n := c - 12
    let put (w : W32) (lo len v : Nat) : W32 := BitVec.ofNat 32 (w.toNat - fld w (lo + len - 1) lo * 2 ^ lo + v * 2 ^ lo)
    { k with icfg := lmod k.icfg (n / 8) (fun w => put w (4 * (n % 8)) 4 (bitAt en 3 + fld setup 2 0))
             sens := lmod k.sens (n / 16) (fun w => put w (2 * (n % 16)) 2 (fld setup 4 3)) }

def chanNextOf (s : State) (c : Nat) : ChanRec := match tget s.pnt.chanNext c with
  | some x => x
  | none => getChan s c

def chanRecOf (b : List Byte) : ChanRec :=
  ⟨BitVec.ofNat 8 (rd b 1 1), rdI b 2 2, BitVec.ofNat 32 (rd b 4 4), BitVec.ofNat 32 (rd b 8 4)⟩

def chanBad (b : List Byte) : Bool :=
  let c := rd b 0 1
  let u := rd b 1 1
  let r := chanRecOf b
  c > 59 || u / 32 % 4 != 0 || (if c < 12 then u % 8 > 1 || u / 8 % 4 != 0 else u % 8 > 5 || u / 8 % 4 == 3)
    || r.adj < -2500 || r.adj > 2500 || r.fs == 0 || r.gcal.toNat < 0x200000 || r.gcal.toNat > 0x800000

/-- The slot whose modulator feeds channel c: its shadow's while served (R118). -/
def feedSlot (s : State) (c : Nat) : Nat := slotOf (alignSrc s c)

/-- CHAN_CAL (R139, R166, R120): the record goes to Q3; EN, GAIN, TYPE, FS and GCAL wait for a turn boundary; a changed
ADJ is armed in the channel's phase-filter pair. -/
def execChanCal (r : Req) (s : State) : Out :=
  ring0 0x10 (· == 16) r s (fun w s =>
    let b := r.buf
    let c := rd b 0 1
    let x := chanRecOf b
    let old := chanNextOf s c
    let used := s.pnt.pts.any (fun p => (p.2.dfn.any (usesChan · c)) || (p.2.next.any (usesChan · c)))
    match firstBad [(!crcOk b 12 (b.take 12), statusRange), (chanBad b, statusRange),
        (!bit x.setup 7 && cfgEn s.afe.chanNext c && used, statusConflict),
        (x.adj != old.adj && pfBusy s c, statusBusy)] with
    | some st => .fail st s
    | none =>
      writeCmd (nvKey .channel c) (.bytes b) 1 w (fun t =>
        let t1 := { t with pnt.chanNext := tput t.pnt.chanNext c x, afe.chanNext := cfgSet c x.setup t.afe.chanNext,
                           pnt.chan := tput t.pnt.chan c { getChan t c with adj := x.adj } }
        if x.adj = old.adj then t1
        else armPair (phasePair c) (some (phaseBank x.adj (feedSlot t1 c))) t1) s)

/-! ### Point definitions (R137, R138, R166) -/

def legOf (b : List Byte) (j : Nat) : Leg := ⟨rd b (16 + 2 * j) 1, rd b (17 + 2 * j) 1 % 64, rd b (17 + 2 * j) 1 ≥ 128⟩

def pdefOf (b : List Byte) : PDef :=
  ⟨(List.range (min 6 (rd b 1 1))).map (legOf b), BitVec.ofNat 8 (rd b 2 1), rd b 3 1, BitVec.ofNat 32 (rd b 4 4),
    BitVec.ofNat 32 (rd b 8 4), rd b 12 1, rd b 13 1, BitVec.ofNat 32 (rd b 28 4)⟩

def pdefBad (b : List Byte) : Bool :=
  let d := pdefOf b
  rd b 1 1 > 6 || d.opts.toNat > 7 || d.cal > 15 || d.digits < 4 || d.digits > 12 || d.exp > 6 || !zerosAt b 14 2
    || !zerosAt b (16 + 2 * d.legs.length) (28 - (16 + 2 * d.legs.length))
    || (List.range d.legs.length).any (fun j => rd b (16 + 2 * j) 1 > 11 || rd b (17 + 2 * j) 1 % 128 > 47)

/-- One current channel named twice. -/
def dupCurrent : List Leg → Bool
  | [] => false
  | l :: t => t.any (fun k => k.i == l.i) || dupCurrent t

/-- A definition with no legs undefines the point. -/
def asDef (d : PDef) : Option PDef := if d.legs.isEmpty then none else some d

/-- POINT_DEF (R137, R138, R166): written to Q3; it takes effect at a turn boundary. -/
def execPointDef (r : Req) (s : State) : Out :=
  ring0 0x11 (· == 32) r s (fun w s =>
    let b := r.buf
    let d := pdefOf b
    let p := rd b 0 1
    match firstBad [(!crcOk b 28 (b.take 28), statusRange), (pdefBad b, statusRange),
        (d.legs.any (fun l => !cfgEn s.afe.chanNext l.v || !cfgEn s.afe.chanNext (iIdx l.i)), statusRange),
        (dupCurrent d.legs, statusConflict)] with
    | some st => .fail st s
    | none =>
      writeCmd (nvKey .pointDef p) (.bytes b) 1 w
        (fun t => setPt p { getPt t p with next := some d } t) s)

/-- NEW_DEF of the point's open interval and of its snapshot period (R236, R240). -/
def noteNewDef (p : Nat) (s : State) : State :=
  let x := tgetD s.trf.ints p Init.intSt
  { s with trf.ints := tput s.trf.ints p { x with flags := setBit x.flags 8 true, snap := setBit x.snap 5 true } }

/-- The record of a point definition as the store holds it. -/
def storedDef (s : State) (p : Nat) : List Byte :=
  match nvRead s (nvKey .pointDef p) with
  | some (.bytes b) => b
  | _ => []

/-- POINT_DEF_EFFECT (R138): the accepted definition, once it is written, takes effect at the turn boundary, with its event
record; an open interval of the point will close with NEW_DEF (R233). The turn that has just ended, and is accounted when
its last wheel sample is written, keeps the definition before. The old check field is that of the last definition that took
effect, also of one that undefined the point, and 0 where none ever has: R138 does not say what it is of a point with no
old definition (DESIGN CHOICE: log entry 106). -/
def execPointDefEffect (p : Nat) (s : State) : Out :=
  let x := getPt s p
  .next (match x.next with
    | none => s
    | some d =>
      if unwritten s (nvKey .pointDef p) then s
      else
        let g := x.gen + 1
        let s1 := setPt p { x with dfn := asDef d, dfnB := asDef d, next := none, gen := g, chk := d.check
                                   was := some (turnOf s.whl.pos, x.dfn, x.dfnB, x.gen) } s
        let s2 := ownWrite (nvKey .pointDef (256 + p)) (.bytes (le 1 g.toNat ++ storedDef s p)) 1 s1
        blockEventAt (nowStamp s1) 4 1 p (le 1 g.toNat ++ zeros 3 ++ le 4 x.chk.toNat ++ le 4 d.check.toNat) (noteNewDef p s2))

/-! ### F3_STORE (R141, R166) -/

def execF3Store (r : Req) (s : State) : Out :=
  ring0 0x12 (· == 200) r s (fun w s =>
    let b := r.buf
    let cs := (List.range 48).map (fun i => rdI b (8 + 4 * i) 4)
    match firstBad [(!crcOk b 4 (b.drop 8), statusRange), (rd b 0 1 == 0, statusDenied),
        (rd b 0 1 > 7 || !zerosAt b 1 3 || !coefRange cs || f3Sum cs != 8388608, statusRange)] with
    | some st => .fail st s
    | none => writeCmd (nvKey .f3set (rd b 0 1)) (.bytes b) 1 w id s)

/-! ### Pulse generators (R273) -/

/-- Key of a CF output's record. -/
def cfKey (n : Nat) : Nat := nvKey .config (0x10000 + n)

def getCtl (s : State) (n : Nat) : Ctl := tgetD s.crd.ctl n Init.ctl
def setCtl (n : Nat) (x : Ctl) (s : State) : State := { s with crd.ctl := tput s.crd.ctl n x }

/-- Pulse generators held by CF and CTL outputs. -/
def gensUsed (s : State) : List Nat :=
  (s.pnt.cf.filterMap (fun p => p.2.gen.map (·.toNat))) ++ (s.crd.ctl.filterMap (fun p => p.2.gen.map (·.toNat)))

def freeGen (s : State) : Option Nat := (List.range 16).find? (fun g => !(gensUsed s).contains g)

/-! ### CF outputs (R162-R165) -/

def cfEn (w : W32) : Bool := bit w 31
def cfPol (w : W32) : Bool := bit w 30
def cfBall (w : W32) : Nat := fld w 28 24
def cfPoint (w : W32) : Nat := fld w 23 16
def cfQty (w : W32) : Nat := fld w 10 8
def cfWidth (w : W32) : Nat := fld w 6 0

/-- PNT_CFCFG of a CF record. -/
def cfWord (b : List Byte) : W32 :=
  BitVec.ofNat 32 (rd b 1 1 * 2 ^ 24 + rd b 2 1 * 2 ^ 16 + rd b 3 1 * 2 ^ 8 + rd b 8 1)

def cfBad (b : List Byte) : Bool :=
  rd b 0 1 > 7 || rd b 1 1 / 32 % 2 != 0 || rd b 3 1 > 7 || rd b 4 4 == 0 || rd b 4 4 > 1000000 || rd b 8 1 < 2
    || rd b 8 1 > 80 || !zerosAt b 9 3

/-- Level of an output's ball that is active or not. -/
def cfLevel (w : W32) (active : Bool) : Bool := active != cfPol w

/-- The old ball of an output returns to its free state when its function has moved away. -/
def freeBall (n : Nat) (f : BitVec 4) (owner : Nat) (s : State) : State :=
  if (getBall s n).func == f && (getBall s n).owner == owner then release n s else s

/-- A CF configuration is accepted and waits for its turn boundary: it claims its ball, which stays an input, and an output
that has none a pulse generator (R165, R273, R490). The ball and the generator that a superseded waiting configuration had
claimed are free again. -/
def cfAccept (n : Nat) (w k : W32) (s : State) : State :=
  let x := getCf s n
  let kept (b : Nat) : Bool := (cfEn x.cfg && cfBall x.cfg == b) || (cfEn w && cfBall w == b)
  let s0 := match x.next with
    | some (o, _) => if cfEn o && !kept (cfBall o) then freeBall (cfBall o) fnCF n s else s
    | none => s
  let s1 := if cfEn w then claim (cfBall w) fnCF n s0 else s0
  let g := if cfEn w && x.gen.isNone then (freeGen s).map (fun g => BitVec.ofNat 4 g)
    else if cfEn w || cfEn x.cfg then x.gen else none
  setCf n { x with next := some (w, k), gen := g } s1

/-- The record of a CF configuration is written and its command completes: an output that it enables holds its ball at the
inactive level (R165). -/
def cfWritten (n : Nat) (s : State) : State :=
  let x := getCf s n
  match x.next with
  | some (w, _) => if cfEn w && !cfEn x.cfg then driveBall (cfBall w) (cfLevel w false) s else s
  | none => s

/-- CF_CFG (R162, R165, R166). -/
def execCfCfg (r : Req) (s : State) : Out :=
  ring0 0x13 (· == 16) r s (fun w s =>
    let b := r.buf
    let n := rd b 0 1
    let c := cfWord b
    let x := getCf s n
    match firstBad [(!crcOk b 12 (b.take 12), statusRange), (cfBad b, statusRange),
        (cfEn c && (getPt s (cfPoint c)).dfn.isNone && !((getPt s (cfPoint c)).next.any (fun d => !d.legs.isEmpty)), statusRange),
        (cfEn c && !claimOk s (cfBall c) fnCF n, statusConflict),
        (cfEn c && x.gen.isNone && (freeGen s).isNone, statusConflict)] with
    | some st => .fail st s
    | none => writeCmdEff (cfKey n) (.bytes b) 1 w (some (.cf n)) (cfAccept n c (BitVec.ofNat 32 (rd b 4 4))) s)

/-- CF_CFG_EFFECT (R165): at the first turn boundary after completion at which no pulse is in progress. -/
def execCfCfgEffect (n : Nat) (s : State) : Out :=
  let x := getCf s n
  .next (match x.next with
    | none => s
    | some (w, k) =>
      if n ≥ 8 || x.high || unwritten s (cfKey n) then s
      else
        let s1 := if cfEn x.cfg && (!cfEn w || cfBall w != cfBall x.cfg) then freeBall (cfBall x.cfg) fnCF n s else s
        if cfEn w then
          let same := cfEn x.cfg && cfPoint w == cfPoint x.cfg && cfQty w == cfQty x.cfg && k == x.const
          let y := { x with cfg := w, const := k, next := none, live := true, acc := if same then x.acc else 0,
                            pend := if same then x.pend else 0, eT := if same then x.eT else 0,
                            started := if cfEn x.cfg then x.started else none }
          setCf n y (driveBall (cfBall w) (cfLevel w false) s1)
        else
          setCf n { x with cfg := w, const := k, next := none, live := false, acc := 0, pend := 0, eT := 0, gen := none,
                           started := none, half := false } (freeBall (cfBall w) fnCF n s1))

/-- Increments of the selected quantity of a turn (R162, R163). -/
def cfEnergy (inc : List Nat) (q : Nat) : Nat :=
  let a (i : Nat) := nth inc i 0
  match q with
  | 0 => a 0
  | 1 => a 1
  | 2 => a 0 + a 1
  | 3 => a 2 + a 3
  | 4 => a 4 + a 5
  | 5 => a 6
  | 6 => a 7
  | _ => a 6 + a 7

/-- No turn feeds the pulse outputs: a freeze, or a turn that was not accounted (R163, R165). -/
def cfStop (s : State) : State := { s with pnt.cf := s.pnt.cf.map (fun (p : Nat × Cf) => (p.1, { p.2 with eT := 0 })) }

/-- E_T of every live output after a turn (R163). -/
def cfTurn (s : State) : State :=
  (List.range 8).foldl (fun t n =>
    let x := getCf t n
    if x.live then
      let p := getPt t (cfPoint x.cfg)
      setCf n { x with eT := if p.dfn.isSome then cfEnergy p.inc (cfQty x.cfg) else 0 } t
    else t) s

/-- High time of a pulse that starts `gap` slot clocks after the previous one (R164). -/
def cfHigh (width : Nat) : Option Nat → Nat
  | none => width * msSlots
  | some gap => if gap ≥ 2 * (width * msSlots) then width * msSlots else max (gap / 2) 6144

/-- CF_PULSE_START (R164): the conditions of the rule hold at the slot-cycle boundary. -/
def execCfPulseStart (n : Nat) (s : State) : Out :=
  let x := getCf s n
  let gap := x.started.map (fun t => s.slot - t)
  .next (if n ≥ 8 || !x.live || x.high || x.pend = 0 || gap.any (fun g => g < 12288 || g < 2 * x.lastHigh) then s
    else
      let h := cfHigh (cfWidth x.cfg) gap
      setCf n { x with pend := x.pend - 1, high := true, started := some s.slot, lastHigh := h,
                       half := h < cfWidth x.cfg * msSlots } (driveBall (cfBall x.cfg) (cfLevel x.cfg true) s))

/-- CF_PULSE_END (R164). -/
def execCfPulseEnd (n : Nat) (s : State) : Out :=
  let x := getCf s n
  .next (if n ≥ 8 || !x.high then s
    else setCf n { x with high := false } (driveBall (cfBall x.cfg) (cfLevel x.cfg false) s))

def cfStatImage (s : State) (n : Nat) : W32 :=
  let x := getCf s n
  BitVec.ofNat 32 (putAt x.pend 8 8 + putAt ((x.gen.map (·.toNat)).getD 0) 4 4 + bitAt x.half 1 + bitAt x.high 0)

/-! ### KAPPA_CHECK (R167) -/

def execKappaCheck (bad : Bool) (s : State) : Out := .next (if bad then raise 4 3 s else s)

/-! ### Auxiliary multiplexers (R66, R67, R161) -/

def getMux (s : State) (a : Nat) : AuxMux := tgetD s.afe.mux a Init.auxMux
def setMux (a : Nat) (x : AuxMux) (s : State) : State := { s with afe.mux := tput s.afe.mux a x }
def axSel (cfg : W32) (a : Nat) : Nat := fld cfg (8 * a + 4) (8 * a + 2)
def axList (s : State) (a : Nat) : Nat := fld (if a = 0 then s.afe.axscan0 else s.afe.axscan1) 7 0

/-- The next listed input after the present one, wrapping. -/
def axNextIn (list cur : Nat) : Nat :=
  (((List.range 8).map (fun k => (cur + 1 + k) % 8)).find? (fun i => list.testBit i)).getD cur

/-- The multiplexer switches to an input; SETTLING starts (R66). -/
def muxSwitch (a i : Nat) (s : State) : State :=
  setMux a ⟨BitVec.ofNat 3 i, true, s.slot, 0, 0, false, false, 0, 0⟩ s

/-- The reading record of a dwell, and PNT_AXVAL (R161). -/
def auxReading (a : Nat) (s : State) : State :=
  let m := getMux s a
  let inp := 8 * a + m.cur.toNat
  let bad := bit s.afe.stuck (amIdx a)
  let v := max 0 (min 1200000 (rndAway (m.sum * 1200000) (m.cnt * 6291456)))
  let fl := bitAt m.ovr 0 + bitAt m.cal 1 + bitAt bad 2
  let st := stampAt s (s.dec.gSlot + 1536 * m.lastN + slotOf (amIdx a))
  let word : W32 := BitVec.ofNat 32 (bitAt bad 31 + bitAt m.ovr 30 + bitAt m.cal 29 + v.toNat)
  deliver2 ⟨0x0062, s.pnt.seq, st, le 1 inp ++ le 1 fl ++ le 2 m.cnt ++ le 4 v.toNat⟩
    { s with pnt.ax := tput s.pnt.ax inp word }

/-- DWELL of a multiplexer's scan register, in fine samples. -/
def axDwell (s : State) (a : Nat) : Nat := fld (if a = 0 then s.afe.axscan0 else s.afe.axscan1) 31 16

/-- PNT_AXVAL of an input: INVALID without a reading since POR, and once its auxiliary modulator is stuck (R77). -/
def axvalImage (s : State) (i : Nat) : W32 :=
  let w := tgetD s.pnt.ax i 0x80000000
  if bit s.afe.stuck (amIdx (i / 8)) then setBit w 31 true else w

/-- AUX_DWELL_END (R66, R161): after DWELL fine samples, a reading when the dwell has an unflagged sample; a scan moves
to its next input. That MANUAL mode forms readings too, one for every DWELL fine samples of the connected input, is the
model's choice: R66 gives a dwell to SCAN alone (DESIGN CHOICE: log entry 101). -/
def execAuxDwellEnd (a : Nat) (s : State) : Out :=
  .next (if a ≥ 2 || axMode s.afe.axcfg a = 0 || (getMux s a).n < axDwell s a then s
    else
      let m := getMux s a
      let s1 := if m.cnt > 0 then auxReading a s else s
      let nx := axNextIn (axList s a) m.cur.toNat
      if axMode s.afe.axcfg a = 2 && nx != m.cur.toNat then muxSwitch a nx s1
      else setMux a { getMux s1 a with sum := 0, cnt := 0, ovr := false, cal := false, n := 0 } s1)

/-- AUX_SETTLING_END (R66). -/
def execAuxSettlingEnd (a : Nat) (s : State) : Out :=
  .next (if a ≥ 2 then s else setMux a { getMux s a with settle := false } s)

/-- One multiplexer after a configuration change (R66, R67, R87). A scan keeps the present input where its list holds it
and else starts at the lowest listed one, and going to OFF is no switch and flags no SETTLING: the model's choices, which
R66 leaves open (DESIGN CHOICE: log entry 102). -/
def muxConfig (old : W32) (s : State) (a : Nat) : State :=
  let m := getMux s a
  match axMode s.afe.axcfg a with
  | 1 => if axMode old a = 1 && axSel s.afe.axcfg a = m.cur.toNat then s else muxSwitch a (axSel s.afe.axcfg a) s
  | 2 => if axMode old a = 2 && (axList s a).testBit m.cur.toNat then s else muxSwitch a (axNextIn (axList s a) 7) s
  | _ => setMux a { m with sum := 0, cnt := 0, ovr := false, cal := false, n := 0 } s

/-- AUX_CONFIG_APPLY (R87). -/
def execAuxConfigApply (s : State) : Out :=
  .next (match s.afe.axNext with
    | none => s
    | some (c, l0, l1) =>
      (List.range 2).foldl (muxConfig s.afe.axcfg)
        { s with afe := { s.afe with axcfg := c, axscan0 := l0, axscan1 := l1, axNext := none } })

/-! ### Register images -/

def pdefImage (x : Pt) : W32 :=
  match x.dfn with
  | none => BitVec.ofNat 32 (x.gen.toNat * 2 ^ 24)
  | some d => BitVec.ofNat 32 (x.gen.toNat * 2 ^ 24 + putAt d.cal 4 20 + putAt d.opts.toNat 3 16 + putAt d.digits 4 12
      + putAt d.exp 3 8 + putAt d.legs.length 3 0)

def legImage (l : Option Leg) : Nat :=
  match l with
  | some l => putAt l.v 4 8 + bitAt l.neg 7 + putAt l.i 6 0
  | none => 0

def plegImage (x : Pt) (m : Nat) : W32 :=
  let ls := match x.dfn with
    | some d => d.legs
    | none => []
  BitVec.ofNat 32 (legImage ls[2 * m]? + legImage ls[2 * m + 1]? * 2 ^ 16)

/-- PNT_PSTAT of a point; while the whole chip has stopped accumulating every point carries STALE (R29). -/
def pstatImage (s : State) (x : Pt) : W32 :=
  BitVec.ofNat 32 (x.quad.toNat * 16 + bitAt x.hold 3 + bitAt (bit x.tfl flOvr) 2
    + bitAt (bit x.tfl flStale || (s.pnt.frozen && severeStands s)) 1 + bitAt x.noLoad 0)

def pntStatImage (s : State) : W32 :=
  BitVec.ofNat 32 (bitAt s.pnt.frozen 17 + bitAt s.pnt.run 16 + (definedPts s).length)

end Sys2Proof.Machine
end

