-- ==== Sys2Proof/Machine/Quality.lean ====
section
/-!
DEFINITION. Harmonics, supraharmonic bands and voltage events: windows and spectra (R169-R176), aggregation (R177-R179),
result records (R180-R185), subscriptions (R186-R189) and voltage events (R190-R193).
-/
namespace Sys2Proof.Machine

/-! ### Values and members -/

/-- What a member of an aggregate brings: its values with their validity, flags, start, turns and duration, end stamp. -/
structure Member where
  vals : List (Int × Bool)
  flags : Nat
  start : W32
  turns : Nat
  dur : Nat
  endSt : Stamp

/-- A value of the engine lies within `b` units of the exact one (R171). A window cut short by the wrap of the turn
count has no formula, and its values are free (log entry 16). -/
def near (s : State) (subj : Nat) (i b : Nat) (v : Int) : Int :=
  let d := Config.dftDev (s.free * 2 ^ 18 + subj * 256 + i)
  let short := s.pq.win.short
  if short then d else v + max (-(b : Int)) (min (b : Int) d)

/-- Tolerance of a magnitude of a channel in its own unit: 2^-22 of full scale and one unit (R171). -/
def tolOf (fs : Nat) : Nat := fs * 1000 / 4194304 + 1

/-- Saturate into n unsigned bits, with whether it did (R173). -/
def satU (n : Nat) (v : Int) : Int × Bool :=
  if v > 2 ^ n - 1 then (2 ^ n - 1, true) else if v < 0 then (0, false) else (v, false)

/-! ### Spectra (R171) -/

/-- X[m] of N samples, oldest first: real and imaginary parts in units of 2^-64. -/
def dftBin (N m : Nat) (xs : List Int) : Int × Int :=
  xs.zipIdx.foldl (fun a p => (a.1 + p.1 * cosQ (m * p.2 % N) N, a.2 - p.1 * sinQ (m * p.2 % N) N)) (0, 0)

/-- |X|² of a bin, in units of 2^-128. -/
def magSq (x : Int × Int) : Nat := (x.1 * x.1 + x.2 * x.2).toNat

/-- Bin of order h (R172). -/
def orderBin (n h : Nat) : Nat := n * h

/-- Twice the weighted sum of |X|² over a harmonic group (R172): half weight at both ends. -/
def groupSq (n : Nat) (sq : Nat → Nat) (h : Nat) : Nat :=
  let e := n / 2
  let b := orderBin n h
  sq (b - e) + sq (b + e) + 2 * sumN ((List.range (2 * e - 1)).map (fun i => sq (b + 1 + i - e)))

/-- Twice the sum of |X|² over an interharmonic subgroup (R172). -/
def subgroupSq (n : Nat) (sq : Nat → Nat) (h : Nat) : Nat :=
  2 * sumN ((List.range (n - 3)).map (fun i => sq (orderBin n h + 2 + i)))

/-- Highest order of THD (PQ_CFG.THDH). -/
def thdOrder (cfg : W32) : Nat := nth [40, 50, 63, 63] (fld cfg 1 0) 40

/-- The last turn of the finished window, whose channel records and definitions hold for it (R138, R139). -/
def winLast (s : State) : BitVec 40 := turnOf s.pq.win.stop.wheel - 1
def fsWin (s : State) (c : Nat) : Nat := fsAt s (winLast s) c

/-- Flags of a window for the streams of a subject (R170, R181). -/
def winFlags (h : HWin) (chans : List Nat) : Nat :=
  let f := chans.foldl (fun (a : BitVec 6) c => a ||| tgetD h.fl c 0) 0
  bitAt (bit f flOvr) 0 + bitAt (bit f flSettling) 1 + bitAt (bit f flCal) 2 + bitAt (bit f flFading) 3
    + bitAt (bit f flStale) 4 + bitAt h.hold 5 + bitAt h.event 6 + bitAt (bit f flDisabled) 7 + bitAt h.short 8

/-- A window's member of a channel: RMS, DC, THD, G_1 to G_63, G_isg,0 to 63 (R173). -/
def chanMember (s : State) (c : Nat) : Member :=
  let h := s.pq.win
  let n := winTurns s
  let N := 256 * n
  let xs := (tgetD h.xs c []).reverse
  let fs := fsWin s c
  let subj := c
  let tab := (List.range (64 * n + n)).map (fun m => magSq (dftBin N m xs))
  let sq (m : Nat) : Nat := nth tab m 0
  let den := (N * 6291456) * (N * 6291456) * 2 ^ 128
  let k := fs * 1000 * (fs * 1000)
  let mag (i x : Nat) : Int × Bool := satU 32 (near s subj i (tolOf fs) (sqrtRatio (x * k) den : Nat))
  let rms := satU 32 (near s subj 0 (tolOf fs)
    (sqrtRatio (sumN (xs.map (fun x => x.natAbs * x.natAbs)) * k) (N * 6291456 * 6291456) : Nat))
  let dc := satS 32 (near s subj 1 (tolOf fs) (rndUp (sumI xs * (fs * 1000 : Nat)) (N * 6291456)))
  let g1 := groupSq n sq 1
  let top := sumN ((List.range (thdOrder s.pq.cfg - 1)).map (fun i => groupSq n sq (2 + i)))
  let thd := if g1 = 0 then (0, false) else satU 16 (near s subj 2 1 (sqrtRatio (top * 100000000) g1 : Nat))
  let gs := (List.range 63).map (fun i => mag (3 + i) (groupSq n sq (1 + i)))
  let is := (List.range 64).map (fun i => mag (66 + i) (subgroupSq n sq i))
  let all := gs ++ is
  let sat := rms.2 || dc.2 || thd.2 || all.any (·.2)
  { vals := [(rms.1, true), (dc.1, true), (thd.1, g1 != 0)] ++ all.map (fun v => (v.1, true))
    flags := winFlags h [c] + bitAt (g1 == 0) 10 + bitAt sat 11
    start := h.start.sec, turns := h.turns, dur := h.dur, endSt := h.stop }

/-- Harmonic power of one order of a point: Σ σ κ 2 Re(Xv conj Xi), in units of 2^-128. -/
def orderPower (s : State) (d : PDef) (b : Nat) : Int :=
  let N := 256 * winTurns s
  sumI (d.legs.map (fun l =>
    let v := dftBin N b (tgetD s.pq.win.xs l.v []).reverse
    let i := dftBin N b (tgetD s.pq.win.xs (iIdx l.i) []).reverse
    (if l.neg then -1 else 1) * ((fsWin s l.v * fsWin s (iIdx l.i) : Nat) : Int) * 2 * (v.1 * i.1 + v.2 * i.2)))

/-- A window's member of a point: P_H and P_1 to P_31 (R174). -/
def ptMember (s : State) (p : Nat) (d : PDef) : Member :=
  let subj := 256 + p
  let h := s.pq.win
  let n := winTurns s
  let N := 256 * n
  let den := N * N * 9 * 2 ^ 42 * 2 ^ 128
  let tol := sumN (d.legs.map (fun l => fsWin s l.v * fsWin s (iIdx l.i))) / 4194304 + 1
  let ps := (List.range 31).map (fun i => orderPower s d (orderBin n (1 + i)))
  let out (i : Nat) (x : Int) : Int × Bool := satS 64 (near s subj i tol (rndAway x den))
  let vs := out 0 (sumI (ps.drop 1)) :: (ps.zipIdx.map (fun p => out (1 + p.2) p.1))
  { vals := vs.map (fun v => (v.1, true))
    flags := winFlags h (d.legs.flatMap (fun l => [l.v, iIdx l.i])) + bitAt (vs.any (·.2)) 11
    start := h.start.sec, turns := h.turns, dur := h.dur, endSt := h.stop }

/-- The rotation of a voltage set (PNT_ROT). -/
def rotOf (s : State) (v : Nat) : Nat := fld s.pnt.rot (2 * v + 1) (2 * v)

/-- Complex numbers in units of 2^-64. -/
def cAdd (a b : Int × Int) : Int × Int := (a.1 + b.1, a.2 + b.2)
def cMul (a b : Int × Int) : Int × Int := ((a.1 * b.1 - a.2 * b.2) / 2 ^ 64, (a.1 * b.2 + a.2 * b.1) / 2 ^ 64)

/-- e^(+j120°) for L1-L2-L3, e^(−j120°) for L1-L3-L2 (R175). -/
def turnA (rot : Nat) : Int × Int := (-(2 ^ 63), (if rot = 1 then -1 else 1) * sinQ 1 3)

/-- A member's frequency in 2^-20 Hz from turns and duration (R178). -/
def freqOf (turns dur : Nat) : Nat := if dur = 0 then 0 else (2 * turns * (2 ^ 50 * 125) + dur) / (2 * dur)

/-- A window's member of a voltage set: frequency, U1, U2, U0, u2, u0 (R175, R184). -/
def setMember (s : State) (v : Nat) : Member :=
  let subj := 512 + v
  let h := s.pq.win
  let n := winTurns s
  let N := 256 * n
  let a := turnA (rotOf s v)
  let ph (i : Nat) : Int × Int :=
    let x := dftBin N (orderBin n 1) (tgetD h.xs (3 * v + i) []).reverse
    let f : Int := fsWin s (3 * v + i)
    (x.1 * f, x.2 * f)
  let a2 := cMul a a
  let u1 := magSq (cAdd (ph 0) (cAdd (cMul a (ph 1)) (cMul a2 (ph 2))))
  let u2 := magSq (cAdd (ph 0) (cAdd (cMul a2 (ph 1)) (cMul a (ph 2))))
  let u0 := magSq (cAdd (ph 0) (cAdd (ph 1) (ph 2)))
  let den := 9 * (N * 6291456) * (N * 6291456) * 2 ^ 128
  let tol := tolOf (max (fsWin s (3 * v)) (max (fsWin s (3 * v + 1)) (fsWin s (3 * v + 2))))
  let mag (i x : Nat) : Int × Bool := satU 32 (near s subj i tol (sqrtRatio (x * 2000000) den : Nat))
  let ratio (i x : Nat) : Int × Bool :=
    if u1 = 0 then (0, false) else satU 16 (near s subj i 1 (sqrtRatio (x * 100000000) u1 : Nat))
  let ms := [mag 0 u1, mag 1 u2, mag 2 u0]
  let rs := [ratio 3 u2, ratio 4 u0]
  { vals := ((freqOf h.turns h.dur : Nat), true) :: (ms.map (fun x => (x.1, true)) ++ rs.map (fun x => (x.1, u1 != 0)))
    flags := winFlags h [3 * v, 3 * v + 1, 3 * v + 2] + bitAt (u1 == 0) 10 + bitAt ((ms ++ rs).any (·.2)) 11
    start := h.start.sec, turns := h.turns, dur := h.dur, endSt := h.stop }

/-! ### Aggregates (R177, R178) -/

/-- Values that combine as the arithmetic mean: DC and the harmonic powers; others as the root of the mean square. -/
def isMean (kind i : Nat) : Bool := kind == 1 || (kind == 0 && i == 1)

def addVal (kind : Nat) (a : List (Int × Nat)) (v : List (Int × Bool)) : List (Int × Nat) :=
  (List.range v.length).map (fun i =>
    let (x, ok) := nth v i (0, false)
    let (t, n) := nth a i (0, 0)
    if ok then (t + (if isMean kind i then x else x * x), n + 1) else (t, n))

/-- A member joins an aggregate. -/
def addMember (kind : Nat) (m : Member) (a : Agg) : Agg :=
  { vals := addVal kind a.vals m.vals, members := a.members + 1
    flags := a.flags ||| BitVec.ofNat 16 m.flags
    start := if a.members = 0 then m.start else a.start
    turns := a.turns + m.turns, dur := a.dur + m.dur, endSt := m.endSt }

/-- The values of an aggregate, halves up, each with whether any member was included. -/
def aggVals (kind : Nat) (a : Agg) : List (Int × Bool) :=
  (List.range a.vals.length).map (fun i =>
    let (t, n) := nth a.vals i (0, 0)
    if kind == 3 && i == 0 then ((freqOf a.turns a.dur : Nat), true)
    else if n = 0 then (0, false)
    else (if isMean kind i then rndUp t n else (sqrtRatio t.toNat n : Nat), true))

/-- Flags of an aggregate: the union of its members', those of its close, and VALUE_INVALID where no member was included
in a value (R178, R179). -/
def aggFlags (a : Agg) (vals : List (Int × Bool)) (extra : Nat) : Nat :=
  (a.flags ||| BitVec.ofNat 16 extra ||| BitVec.ofNat 16 (bitAt (vals.any (fun v => !v.2)) 10)).toNat

def kindLen (k : Nat) : Nat := nth [560, 296, 3008, 64] k 0

/-- The payload of a record from byte 40 on (R182-R185). -/
def kindBody (kind : Nat) (v : List Int) : List Byte :=
  let u4 (l : List Int) : List Byte := l.flatMap (fun x => leI 4 x)
  match kind with
  | 0 => leI 4 (nth v 0 0) ++ leI 4 (nth v 1 0) ++ leI 2 (nth v 2 0) ++ zeros 2 ++ u4 (v.drop 3)
  | 1 => v.flatMap (fun x => leI 8 x)
  | 2 => u4 v
  | _ => u4 (v.take 4) ++ leI 2 (nth v 4 0) ++ leI 2 (nth v 5 0) ++ zeros 4

/-- A PQ result record (R180). -/
def resultRec (s : State) (kind interval subject : Nat) (flags members : Nat) (start : W32) (st : Stamp)
    (v : List Int) : Rec :=
  ⟨BitVec.ofNat 16 (nth [0x0070, 0x0071, 0x0073, 0x0072] kind 0), s.pq.seq, st,
    addrBytes s (if kind = 1 then subject else 0) ++ le 2 flags ++ le 1 interval
      ++ le 1 (if kind = 1 then 0 else subject) ++ le 4 members ++ le 4 start.toNat ++ kindBody kind v⟩

/-! ### Delivery of results (R189) -/

/-- Results of this chip that wait for delivery, in order. -/
def ownResults (s : State) : List QRec :=
  if isWorker s then (s.coil.w.bulk.filter (fun p => p.1 == 6)).map (·.2)
  else (getRing s 6).queue.filter (fun q => rd q.bytes 24 4 / 256 % 512 == 0)

/-- Those that wait: not the one of which a worker has sent a part. -/
def waitingResults (s : State) : List QRec :=
  if isWorker s && s.coil.w.bulkOff > 0 && s.coil.w.bulk.head?.any (fun p => p.1 == 6) then (ownResults s).drop 1 else ownResults s

/-- Interval code of a waiting record. -/
def recInterval (q : QRec) : Nat := rd q.bytes 30 1

/-- Bytes of this chip's results in the result SRAM: waiting, or placed in a buffer and not yet delivered (R189). -/
def heldPq (s : State) : Nat :=
  let mine (q : QRec) : Bool := rd q.bytes 24 4 / 256 % 512 == 0
  let r := getRing s 6
  queueBytes (ownResults s) + queueBytes ((r.bufs.flatMap (·.recs)).filter mine) + queueBytes ((r.acc.flatMap (·.recs)).filter mine)

def removeResult (q : QRec) (s : State) : State :=
  if isWorker s then { s with coil.w.bulk := s.coil.w.bulk.filter (fun p => !(p.1 == 6 && p.2 == q)) }
  else modRing 6 (fun r => { r with queue := r.queue.filter (· != q) }) s

/-- A dropped result is counted; RESULT_DROP at most once per 10-minute interval (R189). -/
def countDrop (interval : Nat) (s : State) : State :=
  let s1 := if interval ≤ 1 then { s with pq.dropShort := satInc s.pq.dropShort }
    else { s with pq.dropAgg := satInc s.pq.dropAgg }
  let span := s.rtc.s / 600
  if s.pq.dropSpan == some span then s1 else raise 5 0 { s1 with pq.dropSpan := some span }

/-- Make room for a new result of `n` bytes by dropping waiting results of intervals 0 and 1, oldest first. -/
def makeRoom (n : Nat) : Nat → State → State
  | 0, s => s
  | fuel + 1, s =>
    let l := waitingResults s
    if heldPq s + n ≤ 393216 then s
    else match l.find? (fun q => recInterval q ≤ 1) with
      | some q => makeRoom n fuel (countDrop (recInterval q) (removeResult q s))
      | none => s

/-- Deliver a result record through the result SRAM. -/
def deliverPq (r : Rec) (s : State) : State :=
  let q : QRec := ⟨r.seq, r.bytes, none, none⟩
  let s0 := { s with pq.seq := s.pq.seq + 1 }
  let s1 := makeRoom q.bytes.length (ownResults s0).length s0
  if heldPq s1 + q.bytes.length ≤ 393216 then deliver 6 q s1 else countDrop (recInterval q) s1

/-! ### Subscriptions (R186-R188) -/

def getSub (s : State) (e : Nat) : SubEnt := tgetD s.pq.subs e Init.subEnt

/-- Subjects of an entry, ascending. -/
def subjects (e : SubEnt) : List Nat :=
  if e.kind = 1 then (List.range 256).filter (bit e.pmask) else (List.range 64).filter (bit e.cmask)

/-- Rate of an entry in bytes per second: ceil(S × L × F) (R188). -/
def subRate (e : SubEnt) : Nat :=
  if !e.en then 0
  else
    let n := (subjects e).length * kindLen e.kind.toNat
    match e.interval.toNat with
    | 0 => n * 5
    | 1 => (n + 2) / 3
    | 2 => (n + 599) / 600
    | _ => (n + 7199) / 7200

/-- Key of a worker's entry in the manager's table. -/
def ringSubKey (k pos e : Nat) : Nat := (k * 128 + pos) * 16 + e

/-- Committed rate of a ring: the sum over the entries of its enumerated workers (R188). -/
def ringRateOf (s : State) (k : Nat) : Nat :=
  sumN ((s.pq.ringSubs.filter (fun p => p.1 / 2048 == k &&
    ((getEnt s k (p.1 / 16 % 128)).state == 2 || (getEnt s k (p.1 / 16 % 128)).state == 3))).map (fun p => subRate p.2))

/-- PQ_RINGRATEk follows the table. -/
def setRates (s : State) : State :=
  { s with pq.ringRate := (List.range 4).map (fun k => (k, ringRateOf s k)) }

/-- The entry that a subscription record names. -/
def subOf (b : List Byte) : SubEnt :=
  ⟨rd b 3 1 % 2 == 1, BitVec.ofNat 2 (rd b 1 1), BitVec.ofNat 2 (rd b 2 1), BitVec.ofNat 64 (rd b 8 8),
    BitVec.ofNat 256 (rd b 16 32)⟩

def subBad (b : List Byte) : Bool :=
  let m := rd b 8 8
  let lim := match rd b 1 1 with
    | 0 => 2 ^ 60
    | 2 => 2 ^ 12
    | 3 => 2 ^ 4
    | _ => 1
  rd b 0 1 > 15 || rd b 1 1 > 3 || rd b 2 1 > 3 || (rd b 1 1 == 2 && rd b 2 1 == 1) || rd b 3 1 > 1 || !zerosAt b 4 4
    || m ≥ lim || (rd b 1 1 != 1 && !zerosAt b 16 32)

/-- The default entries 0 to 3 (R186): kinds 0 to 3, interval 2, every subject; the others are not enabled. -/
def defaultSub (e : Nat) : SubEnt :=
  match e with
  | 0 => ⟨true, 0, 2, BitVec.ofNat 64 (2 ^ 60 - 1), 0⟩
  | 1 => ⟨true, 1, 2, 0, BitVec.allOnes 256⟩
  | 2 => ⟨true, 2, 2, 0xFFF, 0⟩
  | 3 => ⟨true, 3, 2, 0xF, 0⟩
  | _ => Init.subEnt

def subKey (e : Nat) : Nat := nvKey .pqSub e

/-- The record of an entry (R187). -/
def subBytes (n : Nat) (e : SubEnt) : List Byte :=
  le 1 n ++ le 1 e.kind.toNat ++ le 1 e.interval.toNat ++ le 1 (bitAt e.en 0) ++ zeros 4 ++ le 8 e.cmask.toNat ++ le 32 e.pmask.toNat

/-- The quota would be exceeded by an entry of interval 0 or 1 (R188). -/
def overQuota (s : State) (k pos n : Nat) (e : SubEnt) : Bool :=
  e.en && e.interval.toNat ≤ 1 &&
    ringRateOf s k - subRate (tgetD s.pq.ringSubs (ringSubKey k pos n) Init.subEnt) + subRate e > 16000000

/-- PQ_SUBSCRIBE (R187, R188): the field checks come before the address check, and the quota before forwarding. -/
def execPqSubscribe (r : Req) (s : State) : Out :=
  let w := reqWaiter r 0 0x20
  let b := r.buf
  let n := rd b 0 1
  let e := subOf b
  .next (match firstBad [(!metering s, statusNotReady), (b.length != 48, statusBadLength), (subBad b, statusRange)] with
    | some st => complete w st 0 [] s
    | none =>
      match cmdDest r s with
      | .refused st => complete w st 0 [] s
      | .worker k pos =>
        if overQuota s k pos n e then complete w statusConflict 0 [] s
        else
          let key := ringSubKey k pos n
          let old := tgetD s.pq.ringSubs key Init.subEnt
          let s1 := forward w k pos b { s with pq.ringSubs := tput s.pq.ringSubs key e }
          setRates { s1 with hif.fwd := s1.hif.fwd.map (fun f =>
            if f.mtag + 1 == s1.hif.mtag then { f with undo := some (key, old) } else f) }
      | .own =>
        answer w (writeCmd (subKey n) (.bytes b) 1 w (fun t =>
          { t with pq := { t.pq with subs := tput t.pq.subs n e, subWas := tput t.pq.subWas n (t.slot, getSub t n) } }) s))

/-! ### Subjects that exist now -/

/-- A voltage set has sequence components: three-phase, its three channels enabled (R175). -/
def setThree (s : State) (v : Nat) : Bool :=
  rotOf s v < 2 && chanEn s (3 * v) && chanEn s (3 * v + 1) && chanEn s (3 * v + 2)

/-- A subject of a kind is enabled or defined (R186). -/
def subjectOn (s : State) (kind subject : Nat) : Bool :=
  match kind with
  | 0 => subject < 60 && chanEn s subject
  | 1 => (getPt s subject).dfn.isSome
  | 2 => subject < 12 && tapEn s subject
  | _ => subject < 4 && setThree s subject

/-- Key of an aggregate: kind, interval, subject. -/
def aggKey (kind interval subject : Nat) : Nat := (kind * 4 + interval) * 1024 + subject

/-- An entry as it holds for a window or 200 ms interval that begins at `at_`: a new entry takes effect with the first one
after its acceptance (R187). -/
def subAt (s : State) (at_ : Int) (e : Nat) : SubEnt :=
  match tget s.pq.subWas e with
  | some (t, old) => if at_ < t then old else getSub s e
  | none => getSub s e

/-- Enabled entries of a kind set and interval, ascending. -/
def entriesFor (s : State) (kinds : List Nat) (interval : Nat) (at_ : Int) : List SubEnt :=
  ((List.range 16).map (subAt s at_)).filter (fun e => e.en && kinds.contains e.kind.toNat && e.interval.toNat == interval)

/-- Records of one close: for every entry, its subjects in order, from the aggregate `pick` gives (R186); `at_` is the
start of the window or 200 ms interval with which it closes. -/
def produce (kinds : List Nat) (interval extra : Nat) (at_ : Int) (pick : Nat → Nat → Option Agg) (whole : Nat → Nat) (s : State) :
    State :=
  (entriesFor s kinds interval at_).foldl (fun t e =>
    (subjects e).foldl (fun u j =>
      let kind := e.kind.toNat
      match pick kind j with
      | none => u
      | some a =>
        if !subjectOn u kind j || a.members = 0 then u
        else
          let vals := aggVals kind a
          let fl := aggFlags a vals (extra ||| bitAt (a.members < whole a.members) 8)
          deliverPq (resultRec u kind interval j fl a.members a.start a.endSt (vals.map (·.1))) u) t) s

/-! ### Intervals of the harmonic kinds (R177, R179) -/

/-- Length in seconds of the intervals of codes 2 and 3. -/
def spanLen (interval : Nat) : Nat := if interval = 2 then 600 else 7200

def getSpan (t : Tab Span) (k : Nat) : Span := tgetD t k Init.span

/-- Close the open interval of a code: its records, and its aggregates are gone. -/
def closeSpan (interval extra : Nat) (at_ : Int) (next : Span) (s : State) : State :=
  let sp := getSpan s.pq.spans interval
  let aggs := s.pq.aggs
  let s1 :=
    if sp.members = 0 then s
    else produce [0, 1, 3] interval (extra ||| bitAt sp.incomplete 8) at_ (fun k j => tget aggs (aggKey k interval j))
      (fun _ => sp.members) s
  { s1 with pq := { s1.pq with
      spans := tput s1.pq.spans interval next
      aggs := s1.pq.aggs.filter (fun p => p.1 / 1024 % 4 != interval) } }

/-- The members of the finished window: kind, subject, member. -/
def windowMembers (s : State) : List (Nat × Nat × Member) :=
  ((List.range 60).filter (chanEn s)).map (fun c => (0, c, chanMember s c))
    ++ s.pnt.pts.filterMap (fun p => (dfnAt p.2 (winLast s)).map (fun d => (1, p.1, ptMember s p.1 d)))
    ++ ((List.range 4).filter (setThree s)).map (fun v => (3, v, setMember s v))

/-- Put members into the aggregates of an interval. -/
def addMembers (interval : Nat) (ms : List (Nat × Nat × Member)) (s : State) : State :=
  { s with pq.aggs := ms.foldl (fun t m =>
      let k := aggKey m.1 interval m.2.1
      tput t k (addMember m.1 m.2.2 (tgetD t k Init.agg))) s.pq.aggs }

/-- A finished window joins the interval of a code, which closes with its last member. -/
def joinSpan (interval : Nat) (at_ : Int) (start stop : Nat) (ms : List (Nat × Nat × Member)) (s : State) : State :=
  let len := if interval = 1 then 600 else spanLen interval
  let idx := start / len
  let sp0 := getSpan s.pq.spans interval
  let s0 := if sp0.members > 0 && sp0.idx != idx then closeSpan interval (2 ^ 8) at_ ⟨idx, 0, true⟩ s else s
  let sp := getSpan s0.pq.spans interval
  let s1 := addMembers interval ms { s0 with pq.spans := tput s0.pq.spans interval ⟨idx, sp.members + 1, sp.incomplete⟩ }
  let ends := stop / len != idx
  if interval = 1 then
    if sp.members + 1 ≥ 15 then closeSpan 1 0 at_ ⟨stop / len, 0, false⟩ s1
    else if ends then closeSpan 1 (2 ^ 8) at_ ⟨stop / len, 0, false⟩ s1
    else s1
  else if ends then closeSpan interval 0 at_ ⟨stop / len, 0, false⟩ s1
  else s1

/-- HARMONIC_WINDOW_ANALYSE (R170): the window's last wheel sample stands. -/
def execHarmonicWindowAnalyse (s : State) : Out :=
  let h := s.pq.win
  .next (if !h.active || !(h.turns ≥ winTurns s || h.short) then s
    else
      let ms := windowMembers s
      let s1 := { s with free := s.free + 1 }
      let pick (k j : Nat) : Option Agg :=
        (ms.find? (fun m => m.1 == k && m.2.1 == j)).map (fun m => addMember k m.2.2 Init.agg)
      let s2 := produce [0, 1, 3] 0 0 h.at_ pick (fun n => n) s1
      let s3 := [1, 2, 3].foldl (fun t i => joinSpan i h.at_ h.start.sec.toNat h.stop.sec.toNat ms t) s2
      { s3 with pq := { s3.pq with win := Init.hwin, winCount := s3.pq.winCount + 1 } })

/-! ### Supraharmonic windows (R176) -/

/-- B_0 to B_740 and their total of a window's tap samples, oldest first. -/
def supraVals (ys : List Int) : List (Int × Bool) :=
  let bs := (List.range 741).map (fun j =>
    satU 32 (sqrtRatio (2 ^ 65 * magSq (dftBin 1920 (10 + j) ys)) ((1920 * 24576) * (1920 * 24576) * 2 ^ 128) : Nat))
  let tot := satU 32 (rsqrt (sumN (bs.map (fun b => b.1.natAbs * b.1.natAbs))) : Nat)
  tot :: bs

/-- Flags of a tap window. -/
def tapFlags (w : TapWin) : Nat :=
  let f := w.smps.foldl (fun (a : BitVec 6) x => a ||| x.fl) 0
  bitAt (bit f flOvr) 0 + bitAt (bit f flSettling) 1 + bitAt (bit f flCal) 2 + bitAt (bit f flFading) 3
    + bitAt w.ev 6 + bitAt (bit f flDisabled) 7

/-- Instant of a tap sample (R101). -/
def tapInstant (s : State) (t : Nat) (n : Int) : Int := s.dec.gSlot + 64 * n + slotOf (tapCh s t)

/-- Key of a tap entry's interval in the supraharmonic tables. -/
def tapSpan (t interval : Nat) : Nat := t * 4 + interval

/-- Close the open 10-minute or 2-hour interval of a tap entry. -/
def closeTap (t interval extra : Nat) (at_ : Int) (next : Span) (s : State) : State :=
  let sp := getSpan s.pq.sspans (tapSpan t interval)
  let a := tget s.pq.saggs (tapSpan t interval)
  let s1 := if sp.members = 0 then s
    else produce [2] interval (extra ||| bitAt sp.incomplete 8) at_ (fun _ j => if j = t then a else none) (fun n => n) s
  { s1 with pq := { s1.pq with sspans := tput s1.pq.sspans (tapSpan t interval) next
                               saggs := tdel s1.pq.saggs (tapSpan t interval) } }

/-- A finished 200 ms interval joins the interval of a code. -/
def joinTap (t interval : Nat) (at_ : Int) (stop : Nat) (m : Member) (s : State) : State :=
  let len := spanLen interval
  let idx := m.start.toNat / len
  let k := tapSpan t interval
  let sp0 := getSpan s.pq.sspans k
  let s0 := if sp0.members > 0 && sp0.idx != idx then closeTap t interval (2 ^ 8) at_ ⟨idx, 0, true⟩ s else s
  let sp := getSpan s0.pq.sspans k
  let a := addMember 2 m (tgetD s0.pq.saggs k Init.agg)
  let s1 := { s0 with pq := { s0.pq with sspans := tput s0.pq.sspans k ⟨idx, sp.members + 1, sp.incomplete⟩
                                         saggs := tput s0.pq.saggs k a } }
  if stop / len != idx then closeTap t interval 0 at_ ⟨stop / len, 0, false⟩ s1 else s1

/-- Close the open 200 ms interval of a tap entry: its record, and it joins the longer ones. -/
def closeShort (t extra : Nat) (at_ : Int) (stop : Nat) (s : State) : State :=
  let k := tapSpan t 0
  match tget s.pq.saggs k with
  | none => s
  | some a =>
    let gap := a.members < 40
    let vals := aggVals 2 a
    let fl := aggFlags a vals (extra ||| bitAt gap 8)
    let m : Member := ⟨vals, fl, a.start, 0, 0, a.endSt⟩
    let one := addMember 2 m Init.agg
    let s1 := produce [2] 0 0 at_ (fun _ j => if j = t then some one else none) (fun n => n) s
    let s2 := { s1 with pq.saggs := tdel s1.pq.saggs k }
    [2, 3].foldl (fun u i => joinTap t i at_ stop m u) s2

/-- SUPRA_WINDOW_ANALYSE (R176, R177): the 1,920 samples of an entry's window stand; also while accumulation is frozen (log
entry 17). -/
def execSupraWindowAnalyse (t : Nat) (s : State) : Out :=
  let w := getTap s t
  .next (if t ≥ 12 || !tapEn s t || w.smps.length < 1920 || !metering s then s
    else
      let num := (w.first / 1920).toNat
      let begun := tapInstant s t (1920 * ((num - num % 40 : Nat) : Int))
      let k := tapSpan t 0
      let vals := supraVals (w.smps.reverse.map (·.v))
      let stop := (stampAt s (tapInstant s t (w.first + 1920))).sec.toNat
      let m : Member :=
        { vals := vals.map (fun v => (v.1, true)), flags := tapFlags w + bitAt (vals.any (·.2)) 11
          start := (stampAt s (tapInstant s t w.first)).sec, turns := 0, dur := 0
          endSt := stampAt s (tapInstant s t (w.first + 1919)) }
      let held := match tget s.pq.saggs k with
        | some a => a.members
        | none => 0
      let s1 := { s with dec.tap := tput s.dec.tap t { w with smps := [] } }
      let s2 := if num % 40 = 0 && held > 0 then closeShort t (2 ^ 8) (begun - 1) m.start.toNat s1 else s1
      let s3 := { s2 with pq.saggs := tput s2.pq.saggs k (addMember 2 m (tgetD s2.pq.saggs k Init.agg)) }
      if num % 40 = 39 then closeShort t 0 begun stop s3 else s3)

/-! ### Forced closes (R170, R179) -/

/-- Every open interval of codes 1 to 3 closes, with flags. -/
def closeIntervals (extra : Nat) (s : State) : State :=
  let s1 := [1, 2, 3].foldl (fun t i => closeSpan i extra s.slot ⟨0, 0, true⟩ t) s
  (List.range 12).foldl (fun t e => [2, 3].foldl (fun u i => closeTap e i extra s.slot ⟨0, 0, true⟩ u) t) s1

/-- An RTC commit closes the open intervals with CLOCK_SET and INCOMPLETE (R179), and is noted in open events (R193). -/
def pqCommit (s : State) : State :=
  let s1 := closeIntervals (2 ^ 9 + 2 ^ 8) s
  { s1 with pq.ev := s1.pq.ev.map (fun p => (p.1, { p.2 with flags := setBit p.2.flags 9 true })) }

/-! ### Half-cycle RMS and voltage events (R190-R193) -/

def evDip : Nat := 1
def evSwell : Nat := 2
def evInt : Nat := 3

/-- Key of an open event: voltage set, channel within the set (3 for the whole set), kind. -/
def evKey (v ch kind : Nat) : Nat := (v * 4 + ch) * 4 + kind

def udinOf (s : State) (v : Nat) : Nat := (nth s.pq.udin v 0).toNat
def thDip (s : State) : Nat := fld s.pq.thr0 15 0
def thSwell (s : State) : Nat := fld s.pq.thr0 31 16
def thInt (s : State) : Nat := fld s.pq.thr1 15 0
def thHyst (s : State) : Nat := fld s.pq.thr1 31 16

/-- The channel groups of a set that form events of their own (R191). -/
def evGroups (s : State) (v : Nat) : List (Nat × List Nat) :=
  let on := (List.range 3).filter (fun i => chanEn s (3 * v + i))
  if bit s.pq.cfg (8 + v) || rotOf s v ≥ 2 then on.map (fun i => (i, [3 * v + i]))
  else if on.isEmpty then [] else [(3, on.map (fun i => 3 * v + i))]

/-- The record of an event that ends (R193). -/
def eventRec (s : State) (key : Nat) (e : VEvent) (stop : Stamp) (extra : Nat) : List Byte :=
  let v := key / 16
  let kind := key % 4
  let us := min 0xFFFFFFFF ((2 * e.dur * 125 + 2 ^ 32) / 2 ^ 33)
  let u := udinOf s v
  let rel := if u = 0 then 0xFFFF else min 0xFFFF ((2 * e.ext * 10000 + u) / (2 * u))
  addrBytes s 0 ++ le 2 (e.flags ||| BitVec.ofNat 16 extra).toNat ++ le 1 kind
    ++ le 1 (e.ch + v * 16 + bitAt (key / 4 % 4 != 3) 6) ++ le 8 stop.wheel.toNat ++ le 4 stop.sec.toNat
    ++ le 2 stop.frac.toNat ++ zeros 2 ++ le 4 us ++ le 4 e.halves ++ le 4 e.ext ++ le 2 rel ++ zeros 2

/-- An open event ends: its record enters the Kiln log. -/
def endEvent (key : Nat) (stop : Stamp) (extra : Nat) (s : State) : State :=
  match tget s.pq.ev key with
  | none => s
  | some e => logRec 0x0074 e.start (eventRec s key e stop extra) { s with pq.ev := tdel s.pq.ev key }

/-- Every open event ends, with a flag. -/
def endEvents (stop : Stamp) (extra : Nat) (s : State) : State :=
  (s.pq.ev.map (·.1)).foldl (fun t k => endEvent k stop extra t) s

/-- The more extreme of two values of channels; the first stands on equal values. -/
def extreme (kind : Nat) (a b : Nat × Nat) : Nat × Nat :=
  if kind == evSwell then (if b.2 > a.2 then b else a) else if b.2 < a.2 then b else a

/-- The start and end conditions of a kind for the values of a group (R191). -/
def evStarts (s : State) (kind u : Nat) (vals : List (Nat × Nat)) : Bool :=
  if kind == evDip then vals.any (fun x => x.2 * 1000 < thDip s * u)
  else if kind == evSwell then vals.any (fun x => x.2 * 1000 > thSwell s * u)
  else vals.all (fun x => x.2 * 1000 < thInt s * u)
def evEnds (s : State) (kind u : Nat) (vals : List (Nat × Nat)) : Bool :=
  if kind == evDip then vals.all (fun x => x.2 * 1000 ≥ (thDip s + thHyst s) * u)
  else if kind == evSwell then vals.all (fun x => x.2 * 1000 ≤ (thSwell s - thHyst s) * u)
  else vals.any (fun x => x.2 * 1000 ≥ (thInt s + thHyst s) * u)

/-- A refresh: its stamp, instant, position, and the duration of the half turn that ends with it. -/
structure Refresh where
  stamp : Stamp
  at_ : Int
  pos : W64
  half : Nat

/-- One kind of event of one group at a refresh. -/
def evKind (f : Refresh) (v g : Nat) (vals : List (Nat × Nat)) (flags : Nat) (s : State) (kind : Nat) : State :=
  let key := evKey v g kind
  let u := udinOf s v
  match vals with
  | [] => s
  | x :: rest =>
    let ext := rest.foldl (extreme kind) x
    match tget s.pq.ev key with
    | some e =>
      let e1 := { e with halves := e.halves + 1, dur := e.dur + f.half, flags := e.flags ||| BitVec.ofNat 16 flags }
      if evEnds s kind u vals then
        endEvent key f.stamp 0 { s with pq := { s.pq with ev := tput s.pq.ev key e1
                                                          evSeen := s.pq.evSeen || f.pos.toNat % 2 ^ 24 != 0 } }
      else
        let m := extreme kind (e.ch, e.ext) ext
        { s with pq.ev := tput s.pq.ev key { e1 with ch := m.1, ext := m.2 } }
    | none =>
      if evStarts s kind u vals then
        let s1 := { s with pq := { s.pq with
          ev := tput s.pq.ev key ⟨f.stamp, ext.2, ext.1, 0, 0, BitVec.ofNat 16 flags⟩
          win := { s.pq.win with event := s.pq.win.active || s.pq.win.event } } }
        if bit (capOwner s).tmask v && bit (capOwner s).tmask (3 + kind) then noteCond 2 f.at_ f.pos s1 else s1
      else s

/-- The half-cycle value of a channel and its flags, from its last 256 calibrated samples. -/
def halfRms (s : State) (turn : BitVec 40) (c : Nat) : Nat × BitVec 6 :=
  let w := getWs s c
  let xs := (w.cur ++ w.prev).take 256
  let fs := fsAt s turn c
  (sqrtRatio (fs * fs * sumN (xs.map (fun x => x.v.natAbs * x.v.natAbs))) ((16 * 6291456) * (16 * 6291456)),
    xs.foldl (fun a x => a ||| x.fl) 0)

def evFlags (fl : BitVec 6) (hold : Bool) : Nat :=
  bitAt (bit fl flOvr) 0 + bitAt (bit fl flSettling) 1 + bitAt (bit fl flCal) 2 + bitAt (bit fl flStale) 4 + bitAt hold 5

/-- The new half-cycle values, shown in PQ_HCRMS (R190). -/
def showHalf (hold : Bool) (vals : List (Nat × Nat × BitVec 6)) (s : State) : State :=
  vals.foldl (fun u x =>
    let w : W32 := BitVec.ofNat 32 (bitAt hold 31 + bitAt (bit x.2.2 flOvr) 30 + min x.2.1 (2 ^ 30 - 1))
    { u with pq.hc := tput u.pq.hc x.1 w }) s

/-- The conditions of one group of channels of set `v` (R191). -/
def evGroup (f : Refresh) (hold : Bool) (vals : List (Nat × Nat × BitVec 6)) (v : Nat) (g : Nat × List Nat) (s : State) : State :=
  let mine := vals.filter (fun x => g.2.contains x.1)
  let fl := mine.foldl (fun (a : BitVec 6) x => a ||| x.2.2) 0
  let kinds := if thInt s = 0 then [evDip, evSwell] else [evDip, evSwell, evInt]
  kinds.foldl (evKind f v g.1 (mine.map (fun x => (x.1, x.2.1))) (evFlags fl hold)) s

/-- The conditions of every set. -/
def evAll (f : Refresh) (hold : Bool) (vals : List (Nat × Nat × BitVec 6)) (s : State) : State :=
  (List.range 4).foldl (fun u v => (evGroups u v).foldl (fun w g => evGroup f hold vals v g w) u) s

/-- Under the event configuration `c` instead of the one in force. -/
def withEvCfg (c : W32 × List W32 × W32 × W32) (f : State → State) (s : State) : State :=
  let put (c : W32 × List W32 × W32 × W32) (t : State) : State :=
    { t with pq := { t.pq with cfg := c.1, udin := c.2.1, thr0 := c.2.2.1, thr1 := c.2.2.2 } }
  put (s.pq.cfg, s.pq.udin, s.pq.thr0, s.pq.thr1) (f (put c s))

/-- An open event takes in the half turn that ends with a refresh, and is closed there with CONFIG (R192). -/
def configEnd (f : Refresh) (hold : Bool) (vals : List (Nat × Nat × BitVec 6)) (s : State) (key : Nat) : State :=
  match tget s.pq.ev key with
  | none => s
  | some e =>
    let v := key / 16
    let mine := vals.filter (fun x => if key / 4 % 4 = 3 then x.1 / 3 == v else x.1 == 3 * v + key / 4 % 4)
    let fl := mine.foldl (fun (a : BitVec 6) x => a ||| x.2.2) 0
    let m := mine.foldl (fun a x => extreme (key % 4) a (x.1, x.2.1)) (e.ch, e.ext)
    let e1 := { e with halves := e.halves + 1, dur := e.dur + f.half, flags := e.flags ||| BitVec.ofNat 16 (evFlags fl hold)
                       ch := m.1, ext := m.2 }
    endEvent key f.stamp (2 ^ 13) { s with pq.ev := tput s.pq.ev key e1 }

/-- The refreshes of the turns before a change of the event configuration still follow the old one; at the first one from
its boundary on every open event is closed with CONFIG, and detection restarts (R192). -/
def evRefresh (f : Refresh) (turn : BitVec 40) (hold : Bool) (vals : List (Nat × Nat × BitVec 6)) (s : State) : State :=
  match s.pq.evCfg with
  | none => evAll f hold vals s
  | some (tn, old) =>
    if turnLater tn.toNat turn.toNat then withEvCfg old (evAll f hold vals) s
    else
      let s1 := withEvCfg old (fun u => (u.pq.ev.map (·.1)).foldl (configEnd f hold vals) u) { s with pq.evCfg := none }
      evAll f hold vals s1

/-- HALF_CYCLE_RMS (R190, R191): at wheel samples 0 and 128 of a turn, every enabled voltage channel is refreshed and
the conditions of every set are evaluated. HOLD of a value is that of its 256 samples. -/
def execHalfCycleRms (s : State) : Out :=
  .next (match newestTurn s with
    | none => s
    | some (t, k) =>
      if !(k == 0 || k == 128) || !t.live || (getWs s 0).prev.length < 256 then s
      else
        let before := match s.pnt.doneTurn with
          | some b => if b.turn + 1 == t.turn then b else t
          | none => t
        let hold := decide (s.pnt.holdAge < 256)
        let delta := if k = 0 then before.delta else t.delta
        let f : Refresh := ⟨wheelStamp s t k, wheelInstant s t k, wheelPos t k, 128 * delta.toNat⟩
        let vals := ((List.range 12).filter (chanEn s)).map (fun c => (c, halfRms s t.turn c))
        evRefresh f t.turn hold vals (showHalf hold vals s))

/-- PQ_CONFIG_APPLY (R192, R200): at a turn boundary. Where U_din, a threshold or EVMODE changes, the open events close with
CONFIG at the refresh of that boundary. -/
def execPqConfigApply (s : State) : Out :=
  .next (match s.pq.next with
    | none => s
    | some (c, u, t0, t1) =>
      let ev := fld c 11 8 != fld s.pq.cfg 11 8 || u != s.pq.udin || t0 != s.pq.thr0 || t1 != s.pq.thr1
      let old := match s.pq.evCfg with
        | some x => x
        | none => (turnOf s.whl.pos, s.pq.cfg, s.pq.udin, s.pq.thr0, s.pq.thr1)
      { s with pq := { s.pq with cfg := c, udin := u, thr0 := t0, thr1 := t1, next := none
                                 evCfg := if ev then some old else s.pq.evCfg } })

/-- A freeze (R170, R179, R192): the window in progress is discarded, the open aggregates and events close FROZEN. -/
def pqFreeze (st : Stamp) (s : State) : State :=
  let s1 := { s with pq := { s.pq with win := Init.hwin, winOn := false, frozen := true } }
  let s2 := (List.range 12).foldl (fun t e => closeShort e (2 ^ 12 + 2 ^ 8) s.slot t.rtc.s t) s1
  let s3 := match s2.pq.evCfg with
    | some (_, old) => withEvCfg old (endEvents st (2 ^ 12)) s2
    | none => endEvents st (2 ^ 12) s2
  closeIntervals (2 ^ 12 + 2 ^ 8) { s3 with pq.evCfg := none }

/-! ### Register images -/

def pqStatImage (s : State) : W32 :=
  let open_ (kind : Nat) : Nat :=
    sumN ((List.range 4).map (fun v => bitAt (s.pq.ev.any (fun p => p.1 / 16 == v && p.1 % 4 == kind)) v))
  let run := metering s && !s.pq.frozen
  BitVec.ofNat 32 (open_ evInt * 2 ^ 16 + open_ evSwell * 2 ^ 12 + open_ evDip * 2 ^ 8 + bitAt s.pq.frozen 2
    + bitAt (metering s && (List.range 12).any (tapEn s)) 1 + bitAt (run && s.pq.winOn) 0)

def subCfgImage (e : SubEnt) : W32 := BitVec.ofNat 32 (bitAt e.en 31 + e.interval.toNat * 4 + e.kind.toNat)

end Sys2Proof.Machine
end

