-- ==== Sys2Proof/Machine/Selfcal.lean ====
section
/-!
DEFINITION. Self-calibration and temperature trims (R201-R221), and the temperature compensation of the RTC (R327).
What leaves the CAL state stands with the boot commands.
-/
namespace Sys2Proof.Machine

/-! ### Groups and slots (R201, R217) -/

/-- Modulators of a group. -/
def groupMods (g : Nat) : List Nat :=
  if g < 3 then (List.range 16).map (fun j => 12 + 16 * g + j) ++ [60 + g]
  else if g < 7 then (List.range 3).map (fun j => 3 * (g - 3) + j)
  else [63, 64]

/-- The channels of a group that hold during a bank calibration. -/
def groupChans (g : Nat) : List Nat := (groupMods g).filter (· < 60)

/-- Modulators to measure: those that are powered (R201). -/
def measurable (s : State) (g : Nat) : List Nat := (groupMods g).filter (modOn s)

/-- Slot of the self-calibration record for a modulator and gain code (R217). -/
def calSlot (m a : Nat) : Nat :=
  if m < 12 then 2 * m + a else if m < 60 then 24 + 6 * (m - 12) + a else if m < 63 then 312 + 6 * (m - 60) + a
  else 330 + (m - 63)

def getDelta (s : State) (m : Nat) : Int × Int := tgetD s.cal.deltas (calSlot m (modGain s m)) (0, 0)

/-! ### Factory codes and applied codes (R203, R205) -/

/-- Breakpoints of the factory tables in 1/16 °C. -/
def calTemps : List Int := [-640, 0, 400, 1120, 1680]

/-- A factory code interpolated between its breakpoints. -/
def interpCode (f : Nat → Int) (th : Int) : Int :=
  if th ≤ -640 then f 0
  else if th ≥ 1680 then f 4
  else
    let i := if th < 0 then 0 else if th < 400 then 1 else if th < 1120 then 2 else 3
    let a := nth calTemps i 0
    let b := nth calTemps (i + 1) 0
    rndAway (f i * (b - a) + (f (i + 1) - f i) * (th - a)) (b - a).natAbs

/-- Factory codes of a modulator at its present gain and the temperature in use. -/
def factoryCodes (s : State) (m : Nat) : Int × Int :=
  let a := modGain s m
  let th := s.cal.used.toInt
  (interpCode (Config.factoryO m a) th, interpCode (Config.factoryG m a) th)

/-- The codes of R203 clamped to the DAC ranges, with whether they were. -/
def appliedCodes (s : State) (m : Nat) : Int × Int × Bool :=
  let f := factoryCodes s m
  let d := getDelta s m
  let o := f.1 + d.1
  let g := f.2 + d.2
  let o' := max (-512) (min 511 o)
  let g' := max 0 (min 4095 g)
  (o', g', o' != o || g' != g)

/-- Write the applied codes of the modulators of a list; TRIM_CLAMP where one was clamped (R203). -/
def writeCodes (ms : List Nat) (s : State) : State :=
  let clamp := ms.any (fun m => (appliedCodes s m).2.2)
  let s1 := ms.foldl (fun t m =>
    let c := appliedCodes s m
    setCalMod m { getCalMod t m with o := c.1, g := c.2.1 } t) s
  if clamp then raise 6 1 s1 else s1

/-- A modulator's codes differ from those in its DACs. -/
def codesChanged (s : State) (m : Nat) : Bool :=
  let c := appliedCodes s m
  c.1 != (getCalMod s m).o || c.2.1 != (getCalMod s m).g

/-- The group is between B0 and Br of its calibration, or in power-up calibration (R79, R216). -/
def groupBusy (s : State) (g : Nat) : Bool := s.cal.st == .powerup || (s.cal.held && s.cal.group.toNat == g)

/-- Recomputed codes of the group are withheld: from B0 to Bw, whose write takes the latest USED (R206, R216). -/
def trimHeld (s : State) (g : Nat) : Bool := groupBusy s g && s.cal.st != .release

/-- A trim step falls in the present turn: the shadow of the bank leaves it out (R74, R204). -/
def noteTrim (g : Nat) (s : State) : State :=
  if g < 3 then setShadow g { getShadow s g with skip := some (turnOf s.whl.pos) } s else s

/-- TEMP_TRIM_TICK (R206): the controller's 1 s timer, with the mean die temperature in 1/16 °C. -/
def execTempTrimTick (meas : W16) (s : State) : Out :=
  .next (if !s.cal.timer then s
    else
      let d := meas.toInt - s.cal.used.toInt
      let s1 := { s with cal := { s.cal with meas := meas, used := if d ≥ 8 || d ≤ -8 then meas else s.cal.used } }
      let due := (List.range 8).filter (fun g => s.cal.trimDue.contains g || (measurable s1 g).any (codesChanged s1))
      { s1 with cal.trimDue := due })

/-- TRIM_WRITE (R204, R206): a group's changed codes take effect in one step at a turn boundary; they are withheld
while the group is under bank calibration. -/
def execTrimWrite (g : Nat) (s : State) : Out :=
  .next (if !s.cal.trimDue.contains g || trimHeld s g then s
    else noteTrim g (writeCodes (measurable s g) { s with cal.trimDue := s.cal.trimDue.filter (· != g) }))

/-! ### Attempts (R207-R210) -/

/-- Judge one modulator by its sums of 128 measured samples a level (R208, R209). -/
def judgeCal (c : CalMod) : CalMod :=
  let d := c.sp - c.sn
  let dO := rndAway c.sz (128 * 384)
  let dG := rndAway (65536 * (50331648 * 128 - 5 * d)) (50331648 * 128)
  let var := (128 * (c.szz : Int) - c.sz * c.sz).toNat
  let lam := (c.sp + c.sn - 2 * c.sz).natAbs
  let o := c.o + dO
  let g := c.g + dG
  let result : BitVec 4 :=
    if dO.natAbs > 328 then 2
    else if dG.natAbs > 1311 then 3
    else if var > 256 * 256 * (128 * 128) then 4
    else if lam > 2 * 128 * 3146 then 5
    else if o < -512 || o > 511 || g < 0 || g > 4095 then 6
    else 1
  { c with z := rndAway c.sz 128, lin := (2 * lam + 256) / 512, dg := dG, noise := sqrtRatio var (128 * 128)
           result := result, newO := o, newG := g, ok := result == 1 }

/-- Every modulator still to be measured has its three levels (R207). -/
def levelsDone (s : State) (g : Nat) : Bool := (getGrp s g).todo.all (fun m => (getCalMod s m).lvl ≥ 3)

/-- The results of an attempt of a group: plausible modulators leave the list of those to measure; after the fourth
attempt the rest are rejected, and CAL_REJECT is raised once for the calibration (R210). -/
def attemptEnd (g : Nat) (s : State) : State :=
  let x := getGrp s g
  let s1 := x.todo.foldl (fun t m => setCalMod m (judgeCal (getCalMod t m)) t) s
  let left := x.todo.filter (fun m => !(getCalMod s1 m).ok)
  if left.isEmpty then setGrp g { x with todo := [], done := true } s1
  else if x.attempt < 3 then setGrp g { x with todo := left, gap := true } s1
  else
    let s2 := setGrp g { x with todo := left, done := true } s1
    let s3 := { s2 with cal.rej := left.foldl (fun w m => setBit w m true) s2.cal.rej }
    if s3.cal.rejected then s3 else raise 6 0 { s3 with cal.rejected := true }

/-- A modulator begins an attempt on the zero level, with nothing measured yet (R207). -/
def freshLevels (c : CalMod) : CalMod := { c with lvl := 0, cnt := 0, sz := 0, szz := 0, sp := 0, sn := 0 }

/-- A group begins: its modulators are to be measured, on the zero level. -/
def startGroup (g : Nat) (s : State) : State :=
  let ms := measurable s g
  let s1 := ms.foldl (fun t m => setCalMod m { freshLevels (getCalMod t m) with ok := false } t) s
  setGrp g ⟨0, ms.isEmpty, ms, false, false, s.slot⟩ s1

/-- CAL_RETRY_START (R210): 20 ms after the previous attempt. -/
def execCalRetryStart (g : Nat) (s : State) : Out :=
  let x := getGrp s g
  .next (if g ≥ 8 || !x.gap then s
    else
      let s1 := setGrp g { x with gap := false, attempt := x.attempt + 1, at_ := s.slot }
        (x.todo.foldl (fun t m => setCalMod m (freshLevels (getCalMod t m)) t) s)
      if s.cal.st == .gap then
        { s1 with cal := { s1.cal with st := .measure, attempt := BitVec.ofNat 2 (x.attempt + 1) } }
      else s1)

/-- The deltas of the accepted modulators of a list (R209). -/
def newDeltas (ms : List Nat) (s : State) : List (Nat × Int × Int) :=
  (ms.filter (fun m => (getCalMod s m).ok)).map (fun m =>
    let f := factoryCodes s m
    let c := getCalMod s m
    (m, c.newO - f.1, c.newG - f.2))

/-- Deltas put in force at the present gain codes; the REJ bits of their modulators clear (R203, R210). -/
def putDeltas (ds : List (Nat × Int × Int)) (s : State) : State :=
  ds.foldl (fun t d => { t with cal := { t.cal with
    deltas := tput t.cal.deltas (calSlot d.1 (modGain t d.1)) (d.2.1, d.2.2), rej := setBit t.cal.rej d.1 false } }) s

/-- The trims of a calibration take effect: the deltas, and the codes of all its modulators in one step (R203, R204). -/
def applyTrims (ms : List Nat) (ds : List (Nat × Int × Int)) (s : State) : State := writeCodes ms (putDeltas ds s)

/-- The record of R217. -/
def calRecord (s : State) : CalRec :=
  ⟨(List.range 332).map (fun i => tgetD s.cal.deltas i (0, 0)), s.cal.count, s.cal.sec, s.cal.frac, s.cal.used⟩

/-- The write boundary of a calibration (R211, R213): CAL_COUNT and CAL_TIME move on when a modulator was accepted
(R218), and the record is written, before the trims it holds take effect (R217); while PROT forbids it, they take effect
without it. A bank calibration that accepted none writes no record, and its codes follow the latest USED. -/
def calWrite (power : Bool) (ms : List Nat) (s : State) : State :=
  let key := nvKey .selfcal 0
  let ds := newDeltas ms s
  let s1 := if ds.isEmpty then s
    else { s with cal := { s.cal with count := s.cal.count + 1, sec := rtcSec s, frac := rtcFrac s } }
  if (ds.isEmpty && !power) || writeForbidden s1 key then applyTrims ms ds s1
  else commitRecEff key (.selfcal (calRecord (putDeltas ds s1))) 6 none (some (.trims ms ds)) s1

/-- The calibration event record (R219). -/
def calEvent (kind group attempts : Nat) (aborted : Bool) (rejects : List Nat) (restarted : Bool) (st : Stamp)
    (s : State) : State :=
  let zero (m : Nat) : Bool := getDelta s m == (0, 0)
  let outcome := bitAt (rejects.isEmpty && !aborted) 0 + bitAt (!rejects.isEmpty) 1 + bitAt (rejects.any zero) 2
    + bitAt aborted 3 + bitAt restarted 4
  logRec 0x0080 st (le 1 kind ++ le 1 group ++ le 1 attempts ++ le 1 outcome ++ le 2 s.cal.used.toNat ++ zeros 2
    ++ le 9 (sumN (rejects.map (2 ^ ·))) ++ zeros 3 ++ le 4 s.cal.count.toNat) s

/-! ### Power-up calibration (R211) -/

/-- The self-calibration record is read (R217). -/
def loadCalRecord (s : State) : State :=
  let key := nvKey .selfcal 0
  match bestCopy s key with
  | some c =>
    match c.val with
    | .selfcal r => { s with cal := { s.cal with
        deltas := r.deltas.zipIdx.foldl (fun t p => tput t p.2 p.1) []
        count := r.count, sec := r.sec, frac := r.frac } }
    | _ => s
  | none =>
    let s1 := { s with cal := { s.cal with deltas := [], count := 0, sec := 0, frac := 0 } }
    if (copyOf s key 0).isSome || (copyOf s key 1).isSome then raise 6 2 s1 else s1

/-- The factory trim-set record is read (R211 step 2): one invalid copy is rebuilt from the other; with both invalid the
record is lost (R28, R220, R290). -/
def readFactory (s : State) : State :=
  match (factoryCopy s 0).bad, (factoryCopy s 1).bad with
  | true, true => raise 9 3 s
  | true, false => raise 9 2 { s with nvs.recs := tput s.nvs.recs (2 * factoryKey) (factoryCopy s 1), nvs.rebuilt := satInc s.nvs.rebuilt }
  | false, true => raise 9 2 { s with nvs.recs := tput s.nvs.recs (2 * factoryKey + 1) (factoryCopy s 0), nvs.rebuilt := satInc s.nvs.rebuilt }
  | false, false => s

/-- POWERUP_CAL_START (R211 steps 1 to 4): VREF is good and the MPLL locked; the die temperature in 1/16 °C. The applied
codes go to all DACs at once, and every group starts on the zero level. -/
def execPowerupCalStart (theta : W16) (s : State) : Out :=
  .next (if s.boot.st != .cal || s.cal.st != .idle || !s.afe.vrefOk || !s.afe.mpllLock || s.afe.hold then s
    else
      let s1 := loadCalRecord (readFactory { s with cal := { s.cal with used := theta, timer := true, rejected := false } })
      let s2 := isolate (List.range 65) (writeCodes (List.range 65) s1)
      let s3 := { s2 with cal := { s2.cal with st := .powerup, isol := true } }
      (List.range 8).foldl (fun t g => startGroup g t) s3)

/-- POWERUP_CAL_ATTEMPT_END (R210, R211). -/
def execPowerupCalAttemptEnd (g : Nat) (s : State) : Out :=
  .next (if g ≥ 8 || s.cal.st != .powerup || (getGrp s g).done || (getGrp s g).gap || !levelsDone s g then s
    else attemptEnd g s)

/-- Every group has its results. -/
def powerupDone (s : State) : Bool := s.cal.st == .powerup && (List.range 8).all (fun g => (getGrp s g).done)

/-- Attempts of a power-up calibration: the largest of any group (R219). -/
def powerupAttempts (s : State) : Nat := ((List.range 8).map (fun g => (getGrp s g).attempt + 1)).foldl max 1

/-- Modulators that the groups of a list gave up after their fourth attempt (R210). -/
def rejectsOf (s : State) (gs : List Nat) : List Nat := gs.flatMap (fun g => if (getGrp s g).done then (getGrp s g).todo else [])

/-- Steps 5 and 6 of R211 but for leaving CAL: trims, inputs, record and event. -/
def powerupWrite (s : State) : State :=
  let rs := (List.range 8).any (fun g => (getGrp s g).restarted)
  let s1 := reconnect (List.range 65) (calWrite true (List.range 65) s)
  let s2 := calEvent 0 0xFF (powerupAttempts s) false (rejectsOf s (List.range 8)) rs (nowStamp s) s1
  { s2 with cal := { s2.cal with st := .idle, isol := false, grps := [], trimDue := [] } }

/-- A loss of lock in CAL ends the attempts in progress; CAL returns to its step 1 (R70). -/
def powerupAbort (s : State) : State :=
  if s.cal.st == .powerup then { s with cal := { s.cal with st := .idle, grps := [] } } else s

/-! ### Bank calibration (R212-R216) -/

/-- CAL_BANK (R212). -/
def execCalBank (r : Req) (s : State) : Out :=
  ring0 0x18 (· == 8) r s (fun w s =>
    let g := rd r.buf 0 1
    match firstBad [(g > 7 || !zerosAt r.buf 1 7, statusRange), ((measurable s g).isEmpty, statusRange),
        (s.cal.st != .idle, statusBusy)] with
    | some st => .fail st s
    | none => .wait { s with cal := { s.cal with st := .waitB0, pending := true, group := BitVec.ofNat 3 g,
                                                 attempt := 0, waiter := some w, wstamp := none, rejected := false } })

/-- The shadow of a bank is in a step of R75, so a calibration waits (R79). -/
def shadowBusy (s : State) (g : Nat) : Bool :=
  g < 3 && (let x := getShadow s g; x.st == .selfcheck || x.st == .reconnect || x.st == .fade || x.pend)

/-- BANK_CAL_HOLD_START (R213 step 1, R215): at B0 the group's channels begin to hold; the shadow is PAUSED; a Wheel
whose active reference lies on the group coasts with HOLD set. -/
def execBankCalHoldStart (s : State) : Out :=
  let g := s.cal.group.toNat
  .next (if s.cal.st != .waitB0 || shadowBusy s g then s
    else
      let t := turnOf s.whl.pos
      let s1 := (groupChans g).foldl (fun u c => modeFrom c t 1 u)
        { s with cal := { s.cal with pending := false, held := true, st := .measure } }
      let sh := getShadow s1 g
      let s2 := if g < 3 && sh.st == .rotate then
          setShadow g { sh with st := .paused, resume := sh.mirror, disagree := 0, prev := none } s1
        else s1
      if refHeld s2 then
        noteQual s2 { s2 with whl := { s2.whl with lock := false, hold := true, slew := false, goodTurns := 0, badTurns := 0 } }
      else s2)

/-- BANK_CAL_ISOLATE (R213 step 2). -/
def execBankCalIsolate (s : State) : Out :=
  let g := s.cal.group.toNat
  .next (if s.cal.st != .measure || s.cal.isol then s
    else startGroup g (isolate (groupMods g) { s with cal.isol := true }))

/-- BANK_CAL_ATTEMPT_END (R208-R210). -/
def execBankCalAttemptEnd (s : State) : Out :=
  let g := s.cal.group.toNat
  .next (if s.cal.st != .measure || !s.cal.isol || !levelsDone s g then s
    else
      let s1 := attemptEnd g s
      if (getGrp s1 g).done then { s1 with cal.st := .waitWrite } else { s1 with cal.st := .gap })

/-- BANK_CAL_WRITE (R213 step 4): at Bw. -/
def execBankCalWrite (s : State) : Out :=
  let g := s.cal.group.toNat
  .next (if s.cal.st != .waitWrite then s
    else
      let ms := measurable s g
      let wrote := ms.any (fun m => (getCalMod s m).ok) || ms.any (codesChanged s)
      let s2 := noteTrim g (reconnect (groupMods g) (calWrite false ms s))
      { s2 with cal := { s2.cal with st := .release, isol := false, wstamp := if wrote then some (nowStamp s) else none
                                     trimDue := s2.cal.trimDue.filter (· != g) } })

/-- The shadow of the group resumes ROTATE on its channel at turn 1 of a new dwell (R79). -/
def resumeShadow (g : Nat) (s : State) : State :=
  let sh := getShadow s g
  if g < 3 && sh.st == .paused then
    setShadow g { sh with st := .rotate, mirror := sh.resume, dwell := 0, disagree := 0 } s
  else s

/-- BANK_CAL_RELEASE (R213 step 5): at Br the hold ends, the event record enters the log, and CAL_BANK completes. -/
def execBankCalRelease (s : State) : Out :=
  let g := s.cal.group.toNat
  .next (if s.cal.st != .release then s
    else
      let x := getGrp s g
      let t := turnOf s.whl.pos
      let s1 := (groupChans g).foldl (fun u c => modeFrom c t 0 u) s
      let s2 := resumeShadow g s1
      let s3 := calEvent 1 g (x.attempt + 1) false x.todo x.restarted (s.cal.wstamp.getD (nowStamp s)) s2
      let s4 := { s3 with cal := { s3.cal with st := .idle, held := false, grps := [], waiter := none, wstamp := none } }
      match s.cal.waiter with
      | some w => complete w statusOk 0 [] s4
      | none => s4)

/-- No calibration is in progress, and none is due. -/
def calIdle (t : State) : State :=
  { t with cal := { t.cal with st := .idle, pending := false, held := false, isol := false, grps := [],
                               waiter := none, wstamp := none } }

/-- A freeze or fail-stop ends a calibration at once (R216): inputs reconnected, nothing more written; the event record
carries ABORTED with what had been rejected, stamped with the write boundary when there was one (R219). -/
def calAbort (s : State) : State :=
  let g := s.cal.group.toNat
  let x := getGrp s g
  match s.cal.st with
  | .idle => s
  | .powerup =>
    let rs := (List.range 8).any (fun g => (getGrp s g).restarted)
    calIdle (calEvent 0 0xFF (powerupAttempts s) true (rejectsOf s (List.range 8)) rs (nowStamp s) (reconnect (List.range 65) s))
  | _ =>
    let s1 := if s.cal.isol then reconnect (groupMods g) s else s
    let s2 := if s.cal.held then
        (groupChans g).foldl (fun u c => setWs c { getWs u c with mode := 0, sw := none } u) (resumeShadow g s1)
      else s1
    let s4 := calIdle (calEvent 1 g (x.attempt + 1) true (rejectsOf s [g]) x.restarted (s.cal.wstamp.getD (nowStamp s)) s2)
    match s.cal.waiter with
    | some w => complete w statusNotReady 0 [] s4
    | none => s4

/-! ### Temperature compensation of the RTC (R327) -/

/-- TCOMP_UPDATE (R327): COMP from CAL_TEMP.MEAS; a result beyond the field is a free value (log entry 5). -/
def execTcompUpdate (s : State) : Out :=
  let k := fld s.rtc.tcomp 7 0
  let d := s.cal.meas.toInt - (BitVec.ofNat 16 (fld s.rtc.tcomp 31 16)).toInt
  let c := rndAway ((k : Int) * d * d * 4096) 1000000000
  .next (if !mainPower s then s
    else if c ≤ 1023 then { s with rtc.comp := BitVec.ofInt 11 c }
    else
      let (n, s1) := drawNat s
      { s1 with rtc.comp := BitVec.ofNat 11 n })

/-! ### Register images -/

def calStNum : CalSt → Nat
  | .idle => 0
  | .powerup => 1
  | .waitB0 => 2
  | .measure => 3
  | .gap => 4
  | .waitWrite => 5
  | .release => 6

/-- CAL_STAT (R221): POWERUP through the whole CAL state; ISOL with any input that the controller isolates, a shadow's
self-check included (R71); ATTEMPT of a power-up calibration is the largest of its groups (log entry 98). -/
def calStatImage (s : State) : W32 :=
  let c := s.cal
  let power := s.boot.st == .cal
  BitVec.ofNat 32 (bitAt c.pending 23 + c.group.toNat * 2 ^ 20
    + (if power then powerupAttempts s - 1 else c.attempt.toNat) % 4 * 2 ^ 16 + bitAt (c.rej != 0) 5
    + bitAt c.held 4 + bitAt (s.afe.iso != 0) 3 + (if power then 1 else calStNum c.st))

/-- A 65-bit field in the layout of AFE_OVR0 to AFE_OVR2: currents, then currents, shadows and auxiliaries, then
voltages. -/
def modMaskImage (w : BitVec 65) (i : Nat) : W32 :=
  BitVec.ofNat 32 (match i with
    | 0 => fld w 43 12
    | 1 => fld w 64 63 * 2 ^ 19 + fld w 62 60 * 2 ^ 16 + fld w 59 44
    | _ => fld w 11 0)

def calTrimImage (s : State) (m : Nat) : W32 :=
  let c := getCalMod s m
  if m > 64 then 0 else BitVec.ofNat 32 (c.g.toNat * 2 ^ 16 + (BitVec.ofInt 10 c.o).toNat)
def calDeltaImage (s : State) (m : Nat) : W32 :=
  let d := getDelta s m
  if m > 64 then 0 else BitVec.ofNat 32 ((BitVec.ofInt 16 d.2).toNat * 2 ^ 16 + (BitVec.ofInt 16 d.1).toNat)
def calMofsImage (s : State) (m : Nat) : W32 :=
  if m > 64 then 0 else BitVec.ofNat 32 (BitVec.ofInt 24 (getCalMod s m).z).toNat
def calMgainImage (s : State) (m : Nat) : W32 :=
  let c := getCalMod s m
  if m > 64 then 0 else BitVec.ofNat 32 (min c.lin 0xFFFF * 2 ^ 16 + (BitVec.ofInt 16 (satS 16 c.dg).1).toNat)
def calMnoiseImage (s : State) (m : Nat) : W32 :=
  let c := getCalMod s m
  if m > 64 then 0 else BitVec.ofNat 32 (c.result.toNat * 2 ^ 24 + min c.noise 0xFFFF)

end Sys2Proof.Machine
end

