-- ==== Sys2Proof/Machine/Calendar.lean ====
section
/-!
DEFINITION. The calendar image (R222-R224): its entries, local time (R225), the tariff of a calendar (R226), billing
boundaries (R237), control values (R264) and the validity of an image.
-/
namespace Sys2Proof.Machine

/-! ### Entries -/

/-- Key of an entry in the SRAM content of the images. -/
def imgEnt (img : Bool) (e : Nat) : Nat := (if img then 1 else 0) * 2 ^ 14 + e

/-- An entry of an image: 16 bytes, zeros where nothing was written. -/
def entry (s : State) (img : Bool) (e : Nat) : List Byte := tgetD s.trf.img (imgEnt img e) (zeros 16)

def entType (b : List Byte) : Nat := rd b 0 1

/-- The regions of a section (billing or control): types, first entries and counts. -/
structure Sect where
  tSeason : Nat
  tWeek : Nat
  tHead : Nat
  tPoint : Nat
  tSpecial : Nat
  season : Nat
  week : Nat
  head : Nat
  point : Nat
  special : Nat

def billing : Sect := ⟨0x06, 0x07, 0x08, 0x09, 0x0A, 210, 226, 258, 322, 2370⟩
def control : Sect := ⟨0x16, 0x17, 0x18, 0x19, 0x1A, 8193, 8209, 8241, 8305, 10353⟩

/-- Entry numbers of a region. -/
def region (first n : Nat) : List Nat := (List.range n).map (first + ·)

/-- A calendar is enabled in an image. -/
def calOn (s : State) (img : Bool) (c : Nat) : Bool :=
  let b := entry s img (1 + c)
  entType b == 0x02 && rd b 2 1 % 2 == 1

/-- A calendar, or calendar 0 where it is not enabled (R226). -/
def calOr0 (s : State) (img : Bool) (c : Nat) : Nat := if calOn s img c then c else 0

/-! ### Local time (R225) -/

/-- The full S of a 32-bit field: the value congruent to it that lies nearest the present S (R318). -/
def fullSec (s : State) (sec : W32) : Nat := ((s.rtc.s : Int) - (BitVec.ofNat 32 s.rtc.s - sec).toInt).toNat

/-- ZONE in minutes. -/
def zoneMin (s : State) (img : Bool) : Int :=
  let b := entry s img 145
  if entType b == 0x04 then rdI b 2 2 else 0

/-- D(u) in minutes: the DST entry with the latest instant at or before u. -/
def dstMin (s : State) (img : Bool) (u : Nat) : Nat :=
  ((region 146 64).foldl (fun (best : Option (Nat × Nat)) e =>
    let b := entry s img e
    let t := fullSec s (BitVec.ofNat 32 (rd b 4 4))
    if entType b == 0x05 && t ≤ u && (best.all (fun x => x.1 ≤ t)) then some (t, rd b 2 2) else best) none).elim 0 (·.2)

/-- Local seconds since 2000-01-01, local. -/
def localSec (s : State) (img : Bool) (u : Nat) : Int := (u : Int) + 60 * zoneMin s img + 60 * (dstMin s img u : Int)

/-- A local date and time. -/
structure Local where
  y : Int
  m : Nat
  d : Nat
  wd : Nat
  t : Nat

/-- Date, weekday and time of day of local seconds; days before 2000 count in the cycle before. -/
def localOf (l : Int) : Local :=
  let day := (Int.fdiv l 86400 + 146097).toNat
  let c := civil day
  ⟨(c.1 : Int) - 400, c.2.1, c.2.2, (day - 146097 + (if day < 146097 then day else 0) + 5) % 7, (l % 86400).toNat⟩

/-- The local date and time of an instant. -/
def localAt (s : State) (img : Bool) (u : Nat) : Local := localOf (localSec s img u)

/-! ### Day profiles (R226) -/

/-- The special day of a calendar on a date: a dated entry before a yearly one, the lowest entry among equals. -/
def specialOf (s : State) (img : Bool) (k : Sect) (c : Nat) (x : Local) : Option Nat :=
  let hit (yearly : Bool) (e : Nat) : Bool :=
    let b := entry s img e
    entType b == k.tSpecial && (if yearly then rd b 2 2 == 0 else (rd b 2 2 : Int) == x.y && rd b 2 2 != 0)
      && rd b 4 1 == x.m && rd b 5 1 == x.d && (rd b 8 2).testBit c
  match (region k.special 512).find? (hit false) with
  | some e => some e
  | none => (region k.special 512).find? (hit true)

/-- The week profile of a calendar on a date, by its seasons. -/
def weekOf (s : State) (img : Bool) (k : Sect) (c : Nat) (x : Local) : Option Nat :=
  let mine := ((region k.season 16).map (entry s img)).filter (fun b => entType b == k.tSeason && rd b 1 1 == c)
  let at_ (b : List Byte) : Nat := rd b 2 1 * 32 + rd b 3 1
  let latest (l : List (List Byte)) : Option (List Byte) :=
    l.foldl (fun best b => if best.all (fun a => at_ a < at_ b) then some b else best) none
  match latest (mine.filter (fun b => at_ b ≤ x.m * 32 + x.d)) with
  | some b => some (rd b 4 1)
  | none => (latest mine).map (fun b => rd b 4 1)

/-- The day profile of a calendar on a date. -/
def dayProfile (s : State) (img : Bool) (k : Sect) (c : Nat) (x : Local) : Option Nat :=
  match specialOf s img k c x with
  | some e => some (rd (entry s img e) 6 1)
  | none => (weekOf s img k c x).map (fun w => rd (entry s img (k.week + w)) (2 + x.wd) 1)

/-- The switching points of a day profile. -/
def pointsOf (s : State) (img : Bool) (k : Sect) (d : Nat) : List (List Byte) :=
  (List.range (min 32 (rd (entry s img (k.head + d)) 2 1))).map (fun j => entry s img (k.point + 32 * d + j))

/-- The tariff of a calendar at an instant; none where the image holds no schedule for it. -/
def tariffAt (s : State) (img : Bool) (c u : Nat) : Option Nat :=
  let x := localAt s img u
  match dayProfile s img billing c x with
  | none => none
  | some d =>
    ((pointsOf s img billing d).filter (fun b => entType b == 0x09 && rd b 4 4 ≤ x.t)).foldl
      (fun (best : Option (Nat × Nat)) b => if best.all (fun a => a.1 ≤ rd b 4 4) then some (rd b 4 4, rd b 2 1) else best) none
      |>.map (·.2)

/-- Tariffs of the 16 calendars at an instant; 0 for one that is not enabled. A calendar without a schedule is in
tariff 1 (log entry 18). -/
def tariffsAt (s : State) (img : Bool) (u : Nat) : List Nat :=
  (List.range 16).map (fun c => if calOn s img c then (tariffAt s img c u).getD 1 else 0)

/-- A special day applies to a calendar at an instant (TRF_CALSTAT.SPECIAL). -/
def specialNow (s : State) (img : Bool) (c u : Nat) : Bool := (specialOf s img billing c (localAt s img u)).isSome

/-! ### Header settings -/

def hdr (s : State) (img : Bool) : List Byte := entry s img 0
def hdrOk (s : State) (img : Bool) : Bool := entType (hdr s img) == 0x01
/-- DMIN; 15 before an image is loaded, as TRF_DEMCFG resets. -/
def dminOf (s : State) (img : Bool) : Nat := if hdrOk s img then rd (hdr s img) 14 1 else 15
def slidingOf (s : State) (img : Bool) : Bool := hdrOk s img && rd (hdr s img) 15 1 ≥ 128
def kOf (s : State) (img : Bool) : Nat := if hdrOk s img then rd (hdr s img) 15 1 % 16 else 0
def bdayOf (s : State) (img : Bool) : Nat := if hdrOk s img then rd (hdr s img) 12 1 else 0
def bhourOf (s : State) (img : Bool) : Nat := if hdrOk s img then rd (hdr s img) 13 1 else 0
def imgId (s : State) (img : Bool) : Nat := rd (hdr s img) 4 4
def imgCrc (s : State) (img : Bool) : Nat := rd (hdr s img) 8 4

/-- Prices of a calendar and tariff: import and export (R253). -/
def prices (s : State) (img : Bool) (c t : Nat) : Nat × Nat :=
  let b := entry s img (17 + 8 * calOr0 s img c + t - 1)
  if entType b == 0x03 then (rd b 4 4, rd b 8 4) else (0, 0)

/-! ### Billing boundaries (R237) -/

/-- Index of the newest billing boundary at or before an instant; −1 where there is none. -/
def billIdx (s : State) (img : Bool) (u : Nat) : Int :=
  let day := bdayOf s img
  if day = 0 then -1
  else
    let x := localAt s img u
    let n := 12 * (x.y - 2000) + (x.m : Int) - 1
    let past := x.d > day || (x.d == day && x.t ≥ bhourOf s img * 3600)
    max (-1) (if past then n else n - 1)

/-- A billing boundary falls at an instant. -/
def billAt (s : State) (img : Bool) (u : Nat) : Bool := u > 0 && billIdx s img u > billIdx s img (u - 1)

/-- The UTC instant of the boundary of an index: the first instant at which local time reaches it. -/
def billInstant (s : State) (img : Bool) (idx : Nat) : Nat :=
  let l : Int := ((dayCount (2000 + idx / 12) (idx % 12 + 1) (bdayOf s img) * 86400 + bhourOf s img * 3600 : Nat) : Int)
  let dsts := (region 146 64).filter (fun e => entType (entry s img e) == 0x05)
  let ofs : List Nat := 0 :: dsts.map (fun e => rd (entry s img e) 2 2)
  let cands := (ofs.map (fun (d : Nat) => (l - 60 * zoneMin s img - 60 * ((d : Nat) : Int)).toNat)).filter (fun u => localSec s img u == l)
  let skips := (dsts.map (fun e => fullSec s (BitVec.ofNat 32 (rd (entry s img e) 4 4)))).filter (fun u => u > 0 && localSec s img (u - 1) < l && localSec s img u ≥ l)
  match (cands ++ skips).foldl (fun (b : Option Nat) u => if b.all (u < ·) then some u else b) none with
  | some u => u
  | none => (l - 60 * zoneMin s img).toNat

/-! ### Boundaries of any kind (R227) -/

/-- Length of a demand interval in seconds. -/
def intLen (s : State) (img : Bool) : Nat := 60 * dminOf s img

/-- The nominal end of the interval that contains an instant. -/
def nextEnd (len u : Nat) : Nat := if len = 0 then u + 900 else (u / len + 1) * len

/-- A tariff switch of some calendar falls at an instant. -/
def switchAt (s : State) (img : Bool) (u : Nat) : Bool := u > 0 && tariffsAt s img u != tariffsAt s img (u - 1)

/-- The instant at which the passive image is armed to become active. -/
def armedSec (s : State) : Option Nat := s.trf.armed.map (fullSec s)

/-- A boundary of any kind falls at an instant. -/
def boundaryAt (s : State) (u : Nat) : Bool :=
  let a := s.trf.active
  u % max 1 (intLen s a) == 0 || switchAt s a u || billAt s a u || armedSec s == some u

/-- The earliest boundary after an instant: no later than the next interval end. -/
def nextBoundary (s : State) (u : Nat) : Nat :=
  let last := nextEnd (intLen s s.trf.active) u
  (((List.range (last - u)).map (fun i => u + 1 + i)).find? (boundaryAt s)).getD last

/-! ### Control values (R264) -/

/-- The value of a (function, target) pair of a calendar at an instant: the present and the six previous dates. -/
def controlAt (s : State) (fn target c u : Nat) : Option Nat :=
  let a := s.trf.active
  let l := localSec s a u
  let c0 := calOr0 s a c
  let newest (d : Nat) (limit : Nat) : Option Nat :=
    ((pointsOf s a control d).filter (fun b =>
        entType b == 0x19 && rd b 2 1 == fn && rd b 3 1 == target && rd b 4 4 ≤ limit)).foldl
      (fun (best : Option (Nat × Nat)) b => if best.all (fun x => x.1 ≤ rd b 4 4) then some (rd b 4 4, rd b 8 4) else best) none
      |>.map (·.2)
  (List.range 7).foldl (fun (found : Option Nat) (i : Nat) =>
    match found with
    | some v => some v
    | none =>
      let x := localOf (l - 86400 * ((i : Nat) : Int))
      match dayProfile s a control c0 x with
      | some d => newest d (if i = 0 then x.t else 86399)
      | none => none) none

/-! ### Validity (R224) -/

/-- Days of a month of a year that is not a leap year. -/
def plainDays (m : Nat) : Nat := monthDays 2001 m

/-- A list of numbers without repeats. -/
def distinct : List Nat → Bool
  | [] => true
  | a :: t => !t.contains a && distinct t

/-- Strictly ascending numbers. -/
def ascending : List Nat → Bool
  | [] => true
  | [_] => true
  | a :: b :: t => a < b && ascending (b :: t)

def unused (b : List Byte) : Bool := b.all (· == 0)

/-- A used season entry: month, day and week in range, the day exists in a year that is not a leap year. -/
def seasonOk (s : State) (img : Bool) (k : Sect) (b : List Byte) : Bool :=
  rd b 1 1 ≤ 15 && 1 ≤ rd b 2 1 && rd b 2 1 ≤ 12 && 1 ≤ rd b 3 1 && rd b 3 1 ≤ plainDays (rd b 2 1) && rd b 4 1 ≤ 31
    && zerosAt b 5 11 && entType (entry s img (k.week + rd b 4 1)) == k.tWeek

/-- A used week profile: seven day profiles that are used. -/
def weekOk (s : State) (img : Bool) (k : Sect) (b : List Byte) : Bool :=
  rd b 1 1 == 0 && zerosAt b 9 7 && (List.range 7).all (fun i =>
    rd b (2 + i) 1 ≤ 63 && entType (entry s img (k.head + rd b (2 + i) 1)) == k.tHead)

/-- A used special day: the date exists, its day profile is used. -/
def specialOk (s : State) (img : Bool) (k : Sect) (b : List Byte) : Bool :=
  let y := rd b 2 2
  let m := rd b 4 1
  let d := rd b 5 1
  rd b 1 1 == 0 && zerosAt b 7 1 && zerosAt b 10 6 && rd b 6 1 ≤ 63 && (y == 0 || (2000 ≤ y && y ≤ 2399)) && 1 ≤ m && m ≤ 12
    && 1 ≤ d && d ≤ (if y == 0 then monthDays 2000 m else monthDays y m)
    && entType (entry s img (k.head + rd b 6 1)) == k.tHead

/-- A switching point of the billing section. -/
def tariffPointOk (b : List Byte) : Bool :=
  rd b 1 1 == 0 && 1 ≤ rd b 2 1 && rd b 2 1 ≤ 8 && rd b 3 1 == 0 && rd b 4 4 ≤ 86399 && zerosAt b 8 8

/-- A switching point of the control section (R264). -/
def controlPointOk (b : List Byte) : Bool :=
  let p := rd b 8 4
  rd b 1 1 == 0 && rd b 4 4 ≤ 86399 && zerosAt b 12 4 &&
    (match rd b 2 1 with
     | 1 => rd b 3 1 == 0 && p ≤ 1
     | 2 => rd b 3 1 ≤ 15 && p ≤ 1
     | 3 => rd b 3 1 ≤ 15 && p ≤ 10000
     | _ => false)

/-- A used week profile or special day names a day profile. -/
def dayUsed (s : State) (img : Bool) (k : Sect) (d : Nat) : Bool :=
  (region k.week 32).any (fun e => let b := entry s img e
      entType b == k.tWeek && (List.range 7).any (fun i => rd b (2 + i) 1 == d))
    || (region k.special 512).any (fun e => let b := entry s img e; entType b == k.tSpecial && rd b 6 1 == d)

/-- A day profile's header and points; of one that is named, n points stand in strictly ascending time, the first at 0, and
the rest is unused. -/
def profileOk (s : State) (img : Bool) (k : Sect) (pointOk : List Byte → Bool) (d : Nat) : Bool :=
  let h := entry s img (k.head + d)
  let n := rd h 2 1
  let pts := (List.range 32).map (fun j => entry s img (k.point + 32 * d + j))
  if unused h then pts.all (fun b => unused b || (entType b == k.tPoint && pointOk b))
  else entType h == k.tHead && rd h 1 1 == 0 && zerosAt h 3 13 && 1 ≤ n && n ≤ 32
    && pts.all (fun b => unused b || (entType b == k.tPoint && pointOk b))
    && (!dayUsed s img k d || ((pts.take n).all (fun b => entType b == k.tPoint) && (pts.drop n).all unused
      && ascending ((pts.take n).map (fun b => rd b 4 4)) && rd (pts.headD []) 4 4 == 0))

/-- Every entry of a region is unused or of a type and passes a test. -/
def regionOk (s : State) (img : Bool) (first n typ : Nat) (ok : List Byte → Bool) : Bool :=
  (region first n).all (fun e => let b := entry s img e; unused b || (entType b == typ && ok b))

/-- The parts that the billing and the control section share. -/
def sectOk (s : State) (img : Bool) (k : Sect) (pointOk : List Byte → Bool) : Bool :=
  regionOk s img k.season 16 k.tSeason (seasonOk s img k)
    && (List.range 16).all (fun c => distinct (((region k.season 16).map (entry s img)).filterMap (fun b =>
        if entType b == k.tSeason && rd b 1 1 == c then some (rd b 2 1 * 32 + rd b 3 1) else none)))
    && regionOk s img k.week 32 k.tWeek (weekOk s img k)
    && (List.range 64).all (profileOk s img k pointOk)
    && regionOk s img k.special 512 k.tSpecial (specialOk s img k)

/-- A readout item (R223, R224, R240). -/
def readoutOk (b : List Byte) : Bool :=
  let q := rd b 9 1
  let r := rd b 10 1
  let h := rd b 11 1
  let t := rd b 12 1
  rd b 1 1 == 0 && zerosAt b 13 3 && q ≤ 7 && r ≤ 10 && h ≤ 13
    && (if r ≥ 9 then (q == 0 || q == 1 || q == 6) && 1 ≤ t && t ≤ 8 else t == 0)
    && (h == 0 || !((1 ≤ r && r ≤ 8 && q ≥ 2) || (r == 10 && q != 0)))

/-- ASCII characters, padded with zeros (R223). -/
def asciiPadded (l : List Byte) : Bool :=
  let t := l.dropWhile (· != 0)
  t.all (· == 0) && l.all (fun b => b.toNat < 128)

/-- The image is valid (R224), but for its control section. -/
def imageValid (s : State) (img : Bool) : Bool :=
  let h := hdr s img
  let d := rd h 14 1
  let sl := rd h 15 1
  let z := entry s img 145
  let dst := ((region 146 64).map (entry s img)).filter (fun b => !unused b)
  entType h == 0x01 && rd h 1 1 == 0 && rd h 2 2 == 1
    && rd h 8 4 == (crc32c ((region 1 8191).flatMap (entry s img))).toNat
    && rd h 12 1 ≤ 28 && rd h 13 1 ≤ 23 && d > 0 && 60 % d == 0 && sl / 16 % 8 == 0
    && (if sl ≥ 128 then 2 ≤ sl % 16 else sl % 16 == 0)
    && calOn s img 0
    && regionOk s img 1 16 0x02 (fun b => rd b 2 1 ≤ 1 && rd b 3 1 == 0 && asciiPadded ((b.drop 4).take 12))
    && (List.range 16).all (fun c => let b := entry s img (1 + c); unused b || rd b 1 1 == c)
    && (List.range 16).all (fun c => !calOn s img c || (region 210 16).any (fun e =>
        entType (entry s img e) == 0x06 && rd (entry s img e) 1 1 == c))
    && (List.range 128).all (fun i => let b := entry s img (17 + i)
        unused b || (entType b == 0x03 && rd b 1 1 == i / 8 && rd b 2 1 == i % 8 + 1 && rd b 3 1 == 0 && zerosAt b 12 4))
    && (unused z || (entType z == 0x04 && rd z 1 1 == 0 && zerosAt z 4 12 && -720 ≤ rdI z 2 2 && rdI z 2 2 ≤ 840
        && rdI z 2 2 % 15 == 0))
    && dst.all (fun b => entType b == 0x05 && rd b 1 1 == 0 && rd b 2 2 ≤ 120 && rd b 2 2 % 15 == 0 && zerosAt b 8 8)
    && ascending (dst.map (fun b => rd b 4 4))
    && sectOk s img billing tariffPointOk
    && regionOk s img 2882 256 0x0B readoutOk
    && (region 3138 5054).all (fun e => unused (entry s img e))

/-- The entries of the control section obey the rules of R224, applied to the control types (R224, R232). -/
def controlBody (s : State) (img : Bool) : Bool :=
  sectOk s img control controlPointOk && (region 10865 1423).all (fun e => unused (entry s img e))
    && (List.range 16).all (fun c => !calOn s img c || (region 8193 16).any (fun e =>
        entType (entry s img e) == 0x16 && rd (entry s img e) 1 1 == c))

/-- The control section is valid: its header with its CRC, and its entries; or nothing was ever written to it, as an image
leaves Idmen (DESIGN CHOICE: log entry 108). -/
def controlValid (s : State) (img : Bool) : Bool :=
  let h := entry s img 8192
  (region 8192 4096).all (fun e => unused (entry s img e))
    || (entType h == 0x11 && zerosAt h 1 3 && zerosAt h 12 4
      && rd h 8 4 == (crc32c ((region 8193 4095).flatMap (entry s img))).toNat && controlBody s img)

end Sys2Proof.Machine
end

