-- ==== Sys2Proof/Machine/Tariff.lean ====
section
/-!
DEFINITION. The TRF engine: demand intervals (R233-R236), billing snapshots (R237-R240), coincident boundaries (R241),
loading, arming and activation (R229-R232, R524), catch-up (R243), clock movement (R245).
-/
namespace Sys2Proof.Machine

/-! ### Records of the engine -/

def getInt (s : State) (p : Nat) : IntSt := tgetD s.trf.ints p Init.intSt
def setInt (p : Nat) (x : IntSt) (s : State) : State := { s with trf.ints := tput s.trf.ints p x }

/-- Tariff registers of a point: eight tariffs by eight quantities (R228). -/
def zeroRegs : List (List Nat) := List.replicate 8 (List.replicate 8 0)
def getRegs (s : State) (p : Nat) : List (List Nat) := tgetD s.trf.regs p zeroRegs

/-- Calendar of a point, and the tariff in force for it. -/
def ptCal (s : State) (p : Nat) : Nat := match (getPt s p).dfn with
  | some d => d.cal
  | none => 0
def ptTariff (s : State) (p : Nat) : Nat := tariffOf s (ptCal s p)

/-- The chip-wide TRF state as persisted in Q0 (R244): with the active image the instant at which it became so, which the
completion of that boundary needs (log entry 109). -/
def trfVal (s : State) : NvVal := .trfState s.trf.last s.trf.armed s.trf.active s.trf.lastAct

/-- The tariff-register set record of a point (R244). -/
def setVal (s : State) (u p : Nat) : NvVal := .tariff ⟨getRegs s p, (getPt s p).accA, ptTariff s p, u⟩

/-- A write of a boundary: skipped where PROT forbids it (R302), else queued with its boundary, step and point (R242). -/
def bndWrite (u step p key : Nat) (v : NvVal) (pages : Nat) (s : State) : State :=
  if writeForbidden s key then s
  else
    let q := nextSeq s key
    pushGroups [⟨.record key 0 v q, pages, false, none, some (u, step, p), none⟩,
      ⟨.record key 1 v q, pages, false, none, some (u, step, p), none⟩] s

def writeInt (u step p : Nat) (s : State) : State := bndWrite u step p (nvKey .interval p) (.interval (getInt s p)) 2 s
def writeSet (u step p : Nat) (s : State) : State := bndWrite u step p (nvKey .tariff p) (setVal s u p) 4 s
def writeTrf (u step : Nat) (s : State) : State := bndWrite u step 0 (nvKey .trfState 0) (trfVal s) 1 s

/-- TRF_STAT.BWRITE: a boundary's records are being written. -/
def bwrite (s : State) : Bool := s.nvs.groups.any (·.bnd.isSome)

/-! ### Demand intervals (R233-R236) -/

/-- Record flags of R236. -/
def fPowerFail : Nat := 1
def fShort : Nat := 2
def fClockSet : Nat := 4
def fCatchUp : Nat := 8
def fNewDef : Nat := 256
def fActivation : Nat := 512

/-- Counts gained since an interval's open, per quantity (mod 2^64). -/
def gained (now was : List Nat) : List Nat := List.zipWith (fun a b => (a + 2 ^ 64 - b % 2 ^ 64) % 2 ^ 64) now was

/-- The three quantities whose demand is formed: A+, A−, S+. -/
def demandOf (e : List Nat) : List Nat := [nth e 0 0, nth e 1 0, nth e 6 0]

/-- A point's interval closes at `u` (R233-R236): the demand under the settings of image `img`, the maxima of the
outgoing tariff, the record. -/
def closeInt (img : Bool) (u step extra p : Nat) (s : State) : State :=
  let x := getInt s p
  match x.open_ with
  | none => s
  | some o =>
    let dmin := dminOf s img
    let sl := slidingOf s img
    let k := kOf s img
    let e := gained (counts (getPt s p)) x.openTot
    let three := demandOf e
    let hist := if sl then (three :: x.hist).take k else []
    let total (q : Nat) : Nat := if sl then sumN (hist.map (fun h => nth h q 0)) else nth three q 0
    let per := if sl then k * dmin else dmin
    let dem := (List.range 3).map (fun q => satN 32 (rndUp (total q * 60 : Nat) per).toNat)
    let t := ptTariff s p
    let maxima := (List.range 3).foldl (fun (m : Tab DMax) q =>
      let d := nth dem q 0
      if d.toNat > (tgetD m (t * 3 + q) ⟨0, 0⟩).value.toNat then tput m (t * 3 + q) ⟨d, BitVec.ofNat 32 u⟩ else m) x.maxima
    let short := u < nextEnd (60 * dmin) o
    let flags := x.flags ||| BitVec.ofNat 16 extra ||| BitVec.ofNat 16 (bitAt short 1 + bitAt s.rtc.invalid 7)
    let body := ptAddr s p ++ le 2 flags.toNat ++ le 1 (t + 16 * ptCal s p) ++ le 1 dmin ++ le 4 o ++ le 4 u
      ++ e.flatMap (le 8) ++ dem.flatMap (fun d => le 4 d.toNat) ++ zeros 12
    let s1 := setInt p { x with open_ := none, flags := 0, hist := hist, maxima := maxima } s
    let s2 := writeInt u step p s1
    if (getPt s p).dfn.isSome then
      deliverRec 3 ⟨0x0090, s.trf.intSeq, s.trf.lastEnd, body⟩ { s2 with trf.intSeq := s2.trf.intSeq + 1 }
    else s2

/-- A point's interval opens at `u` with its counts (R233). -/
def openInt (u step : Nat) (flags : W16) (p : Nat) (s : State) : State :=
  if (getPt s p).dfn.isSome && (getInt s p).open_.isNone then
    let x := getInt s p
    writeInt u step p (setInt p { x with open_ := some u, openTot := counts (getPt s p), flags := x.flags ||| flags } s)
  else s

/-- The sliding window of a point fills afresh (R234). -/
def clearHist (p : Nat) (s : State) : State := setInt p { getInt s p with hist := [] } s

/-! ### Billing snapshots (R238-R240) -/

def snapKey (p sl : Nat) : Nat := nvKey .snapshot (13 * p + sl)

/-- The stored snapshot of a slot, as delivered. -/
def snapOf (s : State) (p sl : Nat) : Option (List Byte) :=
  match nvRead s (snapKey p sl) with
  | some (.bytes b) => some b
  | _ => none

/-- The snapshots of a point with their slots, newest first by sequence (R10). -/
def snapsOf (s : State) (p : Nat) : List (Nat × List Byte) :=
  sortBy (fun a b => !seqNewer (BitVec.ofNat 32 (rd b.2 0 4)) (BitVec.ofNat 32 (rd a.2 0 4)))
    ((List.range 13).filterMap (fun sl => (snapOf s p sl).map (fun b => (sl, b))))

/-- The slot a new snapshot takes: an empty one, else the oldest (R239). -/
def snapSlot (s : State) (p : Nat) : Nat :=
  match (List.range 13).find? (fun sl => (snapOf s p sl).isNone) with
  | some sl => sl
  | none => ((snapsOf s p).getLast?.map (·.1)).getD 0

/-- Age of an A+ maximum in minutes (R240); a maximum later than the boundary has no stated age (log entry 19). -/
def maxAge (s : State) (u t : Nat) (m : DMax) : Nat :=
  if m.value == 0 then 0xFFFF
  else if fullSec s m.sec ≤ u then min 0xFFFF ((u - fullSec s m.sec) / 60)
  else Config.freeNat (s.free + t) % 65536

/-- Bytes 28 to 299 of a snapshot (R240). -/
def snapBody (s : State) (u idx extra sl p : Nat) : List Byte :=
  let x := getInt s p
  let cut (v : Nat) : Nat := v / 2 ^ 32 % 2 ^ 48
  let regs := getRegs s p
  let mx (t q : Nat) : DMax := tgetD x.maxima ((t + 1) * 3 + q) ⟨0, 0⟩
  let flags := x.snap ||| BitVec.ofNat 16 (extra + bitAt s.rtc.invalid 4)
  let start := match (snapsOf s p).head? with
    | some b => rd b.2 36 4
    | none => 0
  le 2 flags.toNat ++ le 1 (ptTariff s p + 16 * ptCal s p) ++ le 1 sl ++ le 2 idx ++ zeros 2 ++ le 4 u ++ le 4 start
    ++ (getPt s p).accA.flatMap (fun v => le 6 (cut v))
    ++ regs.flatMap (fun r => le 6 (cut (nth r 0 0))) ++ regs.flatMap (fun r => le 6 (cut (nth r 1 0)))
    ++ (List.range 3).flatMap (fun q => (List.range 8).flatMap (fun t => le 4 (mx t q).value.toNat))
    ++ (List.range 8).flatMap (fun t => le 2 (maxAge s u t (mx t 0)))

/-- A snapshot of a point: captured, delivered on Ring 4, the maxima reset, the records written (R239, R240, R244). -/
def takeSnap (u idx extra step p : Nat) (s : State) : State :=
  let sl := snapSlot s p
  let r : Rec := ⟨0x0092, s.trf.snapSeq, s.trf.lastEnd, ptAddr s p ++ snapBody s u idx extra sl p⟩
  let s1 := { s with free := s.free + 8, trf.snapSeq := s.trf.snapSeq + 1 }
  let s2 := setInt p { getInt s p with maxima := [], snap := 0 } s1
  deliverRec 4 r (writeInt u step p (writeSet u step p (bndWrite u step p (snapKey p sl) (.bytes r.bytes) 2 s2)))

/-! ### Images (R222, R524) -/

/-- The commit groups of one copy: the entries page by page, at most 32 pages of 16 entries to a group. -/
def imageGroups (img copy : Nat) (ents : List (Nat × List Byte)) (bnd : Option (Nat × Nat × Nat)) : List Group :=
  match ents.head?, ents.getLast? with
  | some a, some b =>
    let p0 := a.1 / 16
    (List.range ((b.1 / 16 - p0) / 32 + 1)).map (fun g =>
      let es := ents.filter (fun e => (e.1 / 16 - p0) / 32 == g)
      let n := min 32 (b.1 / 16 - p0 + 1 - 32 * g)
      ⟨.entries img copy es, n, false, none, bnd, none⟩)
  | _, _ => []

/-- An image write in the order of R524: copy 0 DIRTY, its entries, copy 0 CLEAN and copy 1 DIRTY, its entries, copy 1
CLEAN, with which the write counts as written. -/
def imageWrite (img : Bool) (ents : List (Nat × List Byte)) (w : Option (Waiter × W16)) (bnd : Option (Nat × Nat × Nat))
    (s : State) : State :=
  let i := if img then 1 else 0
  pushGroups ([⟨.mark i 0 true, 1, false, none, bnd, none⟩] ++ imageGroups i 0 ents bnd ++ [⟨.marks i, 1, false, none, bnd, none⟩]
    ++ imageGroups i 1 ents bnd ++ [⟨.mark i 1 false, 1, false, w, bnd, none⟩]) s

/-- Put entries into the SRAM content of an image. -/
def putEntries (img : Bool) (ents : List (Nat × List Byte)) (s : State) : State :=
  { s with trf.img := ents.foldl (fun t e => tput t (imgEnt img e.1) e.2) s.trf.img }

/-- The control section of the active image with the edits that do not act yet (R232). -/
def editedControl (s : State) : State := s.trf.ctlPend.foldl (fun t e => putEntries t.trf.active e.2 t) s

/-- The armed image becomes active at `u` (R231): the control section is copied, ARMED clears, the event is logged. The
old image's pending control edits are part of the copied section (log entry 20). -/
def activate (u : Nat) (s : State) : State :=
  let old := s.trf.active
  let new := !old
  let se := editedControl s
  let ents := (region 8192 4096).map (fun e => (e, entry se old e))
  let s1 := putEntries new ents { s with
    trf.active := new, trf.armed := none, trf.lastAct := some (BitVec.ofNat 32 u), trf.ctlPend := [] }
  let s2 := if s.nvs.prot == 3 then s1 else imageWrite new ents none (some (u, 1, 0)) s1
  writeTrf u 1 (blockEvent 7 1 (le 4 (imgId s old) ++ le 4 (imgId s new)) s2)

/-! ### Coincident boundaries (R241) -/

/-- What a boundary does: its instant, the instant at which tariffs are evaluated and intervals open (the new time of a
commit), whether every interval closes, the flags of the closes, the snapshot's index and flags, reopening, the points whose
intervals and tariffs it concerns. The completion of a boundary in RESTORE (R242) says, too, whether its activation was
already written, the points that already have their snapshot, and those whose register set predates it. -/
structure Bnd where
  u : Nat
  at_ : Nat
  act : Bool
  all : Bool
  cflags : Nat
  snap : Option Nat
  sflags : Nat
  reopen : Bool
  pts : List Nat
  actDone : Bool := false
  skip : List Nat := []
  old : Option (List Nat) := none

/-- Point by point, in ascending point number. -/
def eachPt (f : Nat → State → State) (s : State) : State := (definedPts s).foldl (fun t p => f p t) s

/-- The image under which the intervals and billing periods that end at the boundary ran. -/
def Bnd.image (b : Bnd) (s : State) : Bool := if b.actDone then !s.trf.active else s.trf.active

/-- The tariff of a point's calendar differs from the one that the tariffs `nt` would put in force. -/
def switches (nt : List Nat) (s : State) (p : Nat) : Bool :=
  tariffOf s (ptCal s p) != tariffOf { s with trf.tariff := nt } (ptCal s p)

/-- An open interval ends at the boundary: at its nominal end, a tariff switch, an activation or a commit (R233, R241). One
that opened at the boundary stays. -/
def closesAt (b : Bnd) (img : Bool) (nt : List Nat) (s : State) (p : Nat) : Bool :=
  match (getInt s p).open_ with
  | none => false
  | some o => b.all || (o < b.u && b.pts.contains p
      && (b.act || b.actDone || switches nt s p || b.u ≥ nextEnd (60 * dminOf s img) o))

/-- The boundary begins: the totals at it are kept, and an armed image becomes active (R231, R242). -/
def bndBegin (b : Bnd) (s : State) : State :=
  let s0 := { s with trf.bnd := some (b.at_, s.pnt.pts.map (fun (p : Nat × Pt) => (p.1, p.2.accA))) }
  if b.act then activate b.u s0 else s0

/-- Intervals close (R241). -/
def bndClose (b : Bnd) (img : Bool) (nt : List Nat) (s : State) : State :=
  eachPt (fun p t => if closesAt b img nt t p then closeInt img b.u 2 (b.cflags ||| bitAt (b.act || b.actDone) 9) p t else t) s

/-- Snapshots of a billing boundary (R238), past the points that have theirs. -/
def bndSnaps (b : Bnd) (s : State) : State :=
  match b.snap with
  | none => s
  | some idx =>
    let s1 := eachPt (fun p t => if b.skip.contains p then t else takeSnap b.u idx b.sflags 3 p t) s
    writeTrf b.u 3 { s1 with trf.last := BitVec.ofNat 16 idx }

/-- Tariffs change: sliding demand starts afresh, and the registers of switching points are written (R235, R241). -/
def bndSwitch (b : Bnd) (nt : List Nat) (s : State) : State :=
  let sw := b.pts.filter (switches nt s)
  let s1 := eachPt (fun p t => if b.all || b.act || b.actDone || sw.contains p then clearHist p t else t) { s with trf.tariff := nt }
  (match b.old with
    | none => sw
    | some l => sw.filter l.contains).foldl (fun t p => writeSet b.u 4 p t) s1

/-- All boundaries of one instant in the order of R241. -/
def boundary (b : Bnd) (s : State) : State :=
  let s1 := bndBegin b s
  let nt := tariffsAt s1 s1.trf.active b.at_
  let s2 := bndSwitch b nt (bndSnaps b (bndClose b (b.image s) nt s1))
  if b.reopen then
    ((definedPts s).filter (fun p => (getInt s p).open_.isSome)).foldl (fun t p => openInt b.at_ 5 0 p t) s2
  else s2

/-- A billing boundary of index `i` takes a snapshot when the index exceeds LAST (R238). -/
def snapDue (s : State) (i : Int) : Option Nat := if i > (s.trf.last.toNat : Int) then some i.toNat else none

/-- The boundary at instant `u` in service (R227, R241). -/
def serviceBoundary (u : Nat) (s : State) : State :=
  let snap := if billAt s s.trf.active u then snapDue s (billIdx s s.trf.active u) else none
  boundary ⟨u, u, armedSec s == some u, false, 0, snap, 0, true, definedPts s, false, [], none⟩ s

/-- The RTC action that the legal image keeps armed for the earliest coming boundary (R227; entry 0, log entry 21); one whose
instant has passed is not armed and sets its miss bit (R49). -/
def armBoundary (u : Nat) (s : State) : State :=
  armRtc 0 { Init.rtcEnt with sec := BitVec.ofNat 32 (nextBoundary s u), clockSet := (tgetD s.whl.rtcAct 0 Init.rtcEnt).clockSet } s

/-- The boundaries up to `e` in time order (R227). -/
def boundariesTo (e : Nat) (s : State) : State :=
  let s1 := (List.range (e - s.trf.doneTo)).foldl (fun t i =>
    let u := s.trf.doneTo + 1 + i
    if boundaryAt t u then serviceBoundary u t else t) s
  if e > s.trf.doneTo then
    { armBoundary e s1 with trf.doneTo := e }
  else s1

/-- Control edits whose second has come act (R232). -/
def ctlEditsTo (e : Nat) (s : State) : State :=
  let due (x : Option Nat × List (Nat × List Byte)) : Bool := x.1.any (· ≤ e)
  let s1 := (s.trf.ctlPend.filter due).foldl (fun t x => putEntries t.trf.active x.2 t) s
  { s1 with trf.ctlPend := s.trf.ctlPend.filter (fun x => !due x) }

/-- Intervals of points that have none open at the turn boundary at which their first turn is accounted (R233). -/
def openFirst (st : Stamp) (s : State) : State :=
  eachPt (fun p t => openInt (fullSec s st.sec) 5 0x0100 p t) s

/-- Tariff-register sets are written every 60 s (R244). -/
def minuteSets (u : Nat) (s : State) : State :=
  if u / 60 > s.trf.lastWrite / 60 then
    let s1 := eachPt (fun p t => ownWrite (nvKey .tariff p) (setVal t u p) 4 t) s
    { s1 with trf.lastWrite := u }
  else s

/-- A turn's increments enter the registers of the tariff in force (R228). -/
def addIncs (p : Nat) (s : State) : State :=
  let x := getPt s p
  let t := ptTariff s p
  { s with trf.regs := tput s.trf.regs p (lmod (getRegs s p) (t - 1) (fun r => add96 r x.inc)) }

/-- The flags of a turn enter the open interval: STALE, OVR, HOLD (R236). -/
def noteTurn (p : Nat) (s : State) : State :=
  let x := getPt s p
  let f := bitAt (bit x.tfl flStale) 4 + bitAt (bit x.tfl flOvr) 5 + bitAt x.hold 6
  setInt p { getInt s p with flags := (getInt s p).flags ||| BitVec.ofNat 16 f } s

/-! ### Clock movement (R245) -/

/-- The index of the highest billing boundary in (c, n], an activation at `a` among them (R231, R237). -/
def commitIdx (s : State) (c n : Nat) (a : Option Nat) : Option Nat :=
  let o := s.trf.active
  let top (img : Bool) (x y : Nat) : List Int := if y > x && billIdx s img y > billIdx s img x then [billIdx s img y] else []
  let l := match a with
    | none => top o c n
    | some t => top o c (max c t) ++ top (!o) (max c t) n
  snapDue s (l.foldl max (-1))

/-- An RTC commit from `c` to `n` (R245), with the boundary at `c` itself where no turn has brought it yet: one close with
CLOCK_SET, SHORT only before the nominal end (R233). -/
def trfCommit (c n : Nat) (s : State) : State :=
  let fwd := n > c
  let due := s.trf.doneTo < c
  let a := (armedSec s).filter (fun t => (fwd && t ≤ n) || (due && t == c))
  let (snap, sf) := match if fwd then commitIdx s c n a else none with
    | some i => (some i, 2)
    | none => (if due && billAt s s.trf.active c then snapDue s (billIdx s s.trf.active c) else none, 0)
  let s1 := boundary ⟨c, n, a.isSome, true, fClockSet, snap, sf, true, definedPts s, false, [], none⟩ s
  { armBoundary n s1 with trf.doneTo := n }

/-! ### Catch-up (R243) -/

/-- The first instant in (from, stop] at which a test holds. -/
def firstIn (from_ stop : Nat) (f : Nat → Bool) : Option Nat :=
  ((List.range (stop - from_)).map (fun i => from_ + 1 + i)).find? f

/-- The last instant in (from, stop] at which a test holds. -/
def lastIn (from_ stop : Nat) (f : Nat → Bool) : Option Nat :=
  ((List.range (stop - from_)).map (fun i => stop - i)).find? f

/-- The tariff of a point changes at an instant under an image. -/
def ptSwitchAt (s : State) (img : Bool) (p u : Nat) : Bool :=
  let t (v : Nat) : Nat := tariffOf { s with trf.tariff := tariffsAt s img v } (ptCal s p)
  u > 0 && t u != t (u - 1)

/-- Where a point's open interval first closes after `from_`, if that is at or before `stop`. -/
def firstClose (s : State) (from_ stop : Nat) (a : Option Nat) (p : Nat) : Option Nat :=
  match (getInt s p).open_ with
  | none => none
  | some o =>
    let img := s.trf.active
    let e := nextEnd (intLen s img) o
    let lim := min stop (match a with
      | some t => min e t
      | none => e)
    match firstIn from_ (min stop lim) (ptSwitchAt s img p) with
    | some u => some u
    | none =>
      let ends := if e ≤ stop then some (max e (from_ + 1)) else none
      match a with
      | some t => if t < e && t ≤ stop then some t else ends
      | none => ends

/-- The billing boundaries in (from, stop] with their indices above LAST, in time order (R237, R243). -/
def billsIn (s : State) (img : Bool) (from_ stop : Nat) : List (Nat × Nat) :=
  let a := (billIdx s img from_ + 1).toNat
  let b := (billIdx s img stop + 1).toNat
  if bdayOf s img = 0 then []
  else ((List.range (b - a)).map (fun (i : Nat) => a + i)).filterMap (fun i =>
    let u := billInstant s img i
    if from_ < u && u ≤ stop && i > s.trf.last.toNat then some (u, i) else none)

/-- The tariff switches in (from, stop] under an image. -/
def switchesIn (s : State) (img : Bool) (from_ stop : Nat) : List Nat :=
  ((List.range (stop - from_)).map (fun i => from_ + 1 + i)).filter (switchAt s img)

/-- One instant of catch-up: tariffs stand as just before it, no interval reopens; `pts` are the points whose boundaries up to
it are not yet processed (R243). -/
def catchInstant (u : Nat) (act : Bool) (snap : Option Nat) (pts : List Nat) (s : State) : State :=
  let s1 := { s with trf.tariff := tariffsAt s s.trf.active (u - 1) }
  boundary ⟨u, u, act, false, fCatchUp, snap, 1 + 8, false, pts, false, [], none⟩ s1

/-- Sorted instants without repeats. -/
def sortInstants (l : List Nat) : List Nat := (sortBy (fun a b => decide (a ≤ b)) l).eraseDups

/-- Where the interval that contains the restore instant opens: the last aligned end or tariff switch of the point at or
before it, or the activation. -/
def lastOpen (s : State) (stop : Nat) (a : Option Nat) (p : Nat) : Nat :=
  let len := max 1 (intLen s s.trf.active)
  let base := max (stop / len * len) (a.getD 0)
  (lastIn base stop (ptSwitchAt s s.trf.active p)).getD base

/-- The sliding window of a point after an outage in which its interval closed first at `c` (R234, R243): the subintervals
that lie wholly in the outage bring no energy, and the window fills afresh after a switch or an activation (log entry 84). -/
def outageHist (stop c : Nat) (a : Option Nat) (p : Nat) (s : State) : State :=
  let img := s.trf.active
  if !slidingOf s img then clearHist p s
  else
    let len := max 1 (intLen s img)
    let o := stop / len * len
    let lo := max c (o - kOf s img * len)
    let ends (from_ : Nat) : List (List Nat) := List.replicate (o / len - from_ / len) [0, 0, 0]
    let h := match lastIn lo stop (fun u => a == some u || ptSwitchAt s img p u) with
      | some z => ends z
      | none => ends lo ++ (getInt s p).hist
    setInt p { getInt s p with hist := h.take (kOf s img) } s

/-- Open intervals and the snapshot periods met by an outage carry POWER_FAIL (R243). -/
def markOutage (had : List Nat) (s : State) : State :=
  had.foldl (fun t p => setInt p { getInt t p with flags := (getInt t p).flags ||| 1, snap := (getInt t p).snap ||| 1 } t) s

/-- The intervals that stand open at the end of an outage open again (R243). -/
def reopen (from_ : Nat → Nat) (stop : Nat) (a : Option Nat) (had : List Nat) (s1 s : State) : State :=
  had.foldl (fun t p => match firstClose s1 (from_ p) stop a p with
    | some c => openInt (lastOpen t stop a p) 5 1 p (outageHist stop c a p t)
    | none => t) s

/-- Catch-up in RESTORE up to the RTC `stop`; `from_ p` is kf or the Open field of the point's interval (R243). -/
def catchUp (from_ : Nat → Nat) (stop : Nat) (s : State) : State :=
  let pts := definedPts s
  let had := pts.filter (fun p => (getInt s p).open_.isSome)
  let s0 := markOutage had s
  let lo := (pts.map from_).foldl min stop
  let a := (armedSec s).filter (· ≤ stop)
  let mid := max lo (a.getD stop)
  let bills := billsIn s0 s.trf.active lo mid ++ billsIn s0 (!s.trf.active) mid stop
  let kept := bills.drop (bills.length - 13)
  let s1 := if bills.length > 13 then raise 7 0 s0 else s0
  let instants := sortInstants (had.filterMap (fun p => firstClose s1 (from_ p) stop a p) ++ kept.map (·.1) ++ a.toList
    ++ switchesIn s0 s.trf.active lo mid ++ switchesIn s0 (!s.trf.active) mid stop)
  let s2 := instants.foldl (fun t u =>
    catchInstant u (a == some u) ((kept.find? (fun b => b.1 == u)).bind (fun b => snapDue t b.2))
      (pts.filter (fun p => from_ p < u)) t) s1
  let s3 := { s2 with trf.tariff := tariffsAt s2 s2.trf.active stop }
  let s4 := reopen from_ stop a had s1 s3
  { armBoundary stop s4 with trf.doneTo := stop, trf.lastWrite := stop }

/-- A restore at an RTC earlier than the freeze: the open intervals close there with POWER_FAIL and CLOCK_SET, as at a
backward clock set (R243). -/
def catchBack (stop : Nat) (s : State) : State :=
  let s1 := boundary ⟨stop, stop, false, true, fPowerFail + fClockSet, none, 0, true, definedPts s, false, [], none⟩ s
  let s2 := eachPt (fun p t => setInt p { getInt t p with snap := (getInt t p).snap ||| 1 } t) s1
  { armBoundary stop s2 with trf.doneTo := stop, trf.lastWrite := stop }

/-! ### Commands (R229-R232, R238) -/

/-- The entries of a load: numbers and bytes. -/
def loadEntries (b : List Byte) : List (Nat × List Byte) :=
  let f := rd b 0 2
  (List.range (rd b 2 2)).map (fun i => (f + i, (b.drop (8 + 16 * i)).take 16))

/-- Length of an entry record: 8 + 16 N, N not 0 (R229). -/
def loadLenOk (b : List Byte) (n : Nat) : Bool := n ≥ 8 && rd b 2 2 != 0 && n == 8 + 16 * rd b 2 2

/-- TRF_LOAD (R229). From a freeze of R14 on it waits without effect. -/
def execTrfLoad (r : Req) (s : State) : Out :=
  ring0 0x28 (loadLenOk r.buf) r s (fun w s =>
    let b := r.buf
    let ents := loadEntries b
    match firstBad [(rd b 2 2 > 4095 || rd b 0 2 + rd b 2 2 > 8192 || !crcOk b 4 (b.drop 8), statusRange),
                    (s.trf.armed.isSome, statusBusy)] with
    | some st => .fail st s
    | none =>
      if protForbids s.nvs.prot 2 then .fail statusDenied (protRefuse s)
      else if gasped s then .wait s
      else .wait (imageWrite (!s.trf.active) ents (some (w, statusOk)) none (putEntries (!s.trf.active) ents s)))

/-- TRF_ARM (R230). From a freeze of R14 on it waits without effect. -/
def execTrfArm (r : Req) (s : State) : Out :=
  ring0 0x29 (· == 12) r s (fun _ s =>
    let b := r.buf
    let u := rd b 0 4
    let img := !s.trf.active
    let missing := (definedPts s).any (fun p => !calOn s img (ptCal s p))
    if u == 0xFFFFFFFF then
      if gasped s then .wait s else
      let s1 := { s with trf.armed := none }
      .done statusOk (armBoundary s.rtc.s (ownWrite (nvKey .trfState 0) (trfVal s1) 1 s1))
    else match firstBad [(s.rtc.invalid, statusDenied),
                    (rd b 4 4 != imgId s img || rd b 8 4 != imgCrc s img || !imageValid s img || !controlValid s img, statusRange),
                    (missing, statusConflict), (u != 0 && fullSec s (BitVec.ofNat 32 u) ≤ s.rtc.s, statusBadDate)] with
    | some st => .fail st s
    | none =>
      if gasped s then .wait s else
      let t : W32 := if u = 0 then BitVec.ofNat 32 (s.rtc.s + 1) else BitVec.ofNat 32 u
      let s1 := { s with trf.armed := some t }
      .done statusOk (armBoundary s.rtc.s (ownWrite (nvKey .trfState 0) (trfVal s1) 1 s1)))

/-- The control header of an edit: the generation incremented, the CRC over entries 8,193 to 12,287 renewed (R232). -/
def ctlHeader (s : State) (img : Bool) : List Byte :=
  let h := entry s img 8192
  [0x11, 0, 0, 0] ++ le 4 (rd h 4 4 + 1) ++ le 4 (crc32c ((region 8193 4095).flatMap (entry s img))).toNat ++ zeros 4

/-- TRF_CTLEDIT (R232). From a freeze of R14 on it waits without effect. -/
def execTrfCtledit (r : Req) (s : State) : Out :=
  ring0 0x2A (loadLenOk r.buf) r s (fun w s =>
    let b := r.buf
    let f := rd b 0 2
    let img := s.trf.active
    let ents := loadEntries b
    let se := putEntries img ents (editedControl s)
    if f < 8193 || rd b 2 2 > 511 || f + rd b 2 2 > 12288 || !crcOk b 4 (b.drop 8) || !controlBody se img then
      .fail statusRange s
    else if protForbids s.nvs.prot 2 then .fail statusDenied (protRefuse s)
    else if gasped s then .wait s
    else
      let all := (8192, ctlHeader se img) :: ents
      .wait (imageWrite img all (some (w, statusOk)) none { s with trf.ctlPend := s.trf.ctlPend ++ [(none, all)] }))

/-- TRF_SNAP (R238). From a freeze of R14 on it waits without effect. -/
def execTrfSnap (r : Req) (s : State) : Out :=
  ring0 0x2B (· == 4) r s (fun w s =>
    let p := rd r.buf 0 2
    let pts := if p == 0xFFFF then definedPts s else [p]
    match firstBad [(!zerosAt r.buf 2 2 || pts.any (fun p => (getPt s p).dfn.isNone), statusRange), (bwrite s, statusBusy)] with
    | some st => .fail st s
    | none =>
      if protForbids s.nvs.prot 1 then .fail statusDenied (protRefuse s)
      else if gasped s then .wait s
      else
        let s1 := pts.foldl (fun t p => takeSnap s.rtc.s s.trf.last.toNat 4 0 p t) s
        let mark (g : Group) : Group := { g with bnd := none }
        let old := s.nvs.groups.length
        let new := (s1.nvs.groups.drop old).map mark
        if new.isEmpty then .done statusOk s1
        else .wait { s1 with nvs.groups := s.nvs.groups ++ lmod new (new.length - 1) (fun g => { g with waiter := some (w, statusOk) }) })

/-! ### Register images (R251) -/

def trfStatImage (s : State) : W32 :=
  BitVec.ofNat 32 (bitAt s.trf.run 0 + bitAt s.trf.active 1 + bitAt s.trf.armed.isSome 2 + bitAt s.trf.catchup 3
    + bitAt (bwrite s) 4 + bitAt (dstMin s s.trf.active s.rtc.s != 0) 5)

def trfLocalImage (s : State) : W32 :=
  BitVec.ofNat 32 (dstMin s s.trf.active s.rtc.s) + (BitVec.ofInt 32 (zoneMin s s.trf.active) <<< 16)

def trfBillImage (s : State) : W32 :=
  BitVec.ofNat 32 (s.trf.last.toNat * 2 ^ 16 + bhourOf s s.trf.active * 2 ^ 8 + bdayOf s s.trf.active)

def trfDemImage (s : State) : W32 :=
  BitVec.ofNat 32 (bitAt (slidingOf s s.trf.active) 31 + kOf s s.trf.active * 2 ^ 8 + dminOf s s.trf.active)

def trfCalImage (s : State) : W32 :=
  let c := s.trf.calIdx.toNat
  BitVec.ofNat 32 (bitAt (calOn s s.trf.active c) 31 + bitAt (specialNow s s.trf.active c s.rtc.s) 8 + nth s.trf.tariff c 0)

end Sys2Proof.Machine
end

