-- ==== Sys2Proof/Machine/Credit.lean ====
section
/-!
DEFINITION. Prepayment credit and CTL outputs (R252-R278, R523): debit, tokens and grants, credit states, decisions,
switching at an angle, and their commands.
-/
namespace Sys2Proof.Machine

/-! ### Credit of a point -/

def getPcfg (s : State) (p : Nat) : CreditCfg := tgetD s.crd.pcfg p Init.creditCfg
def getCred (s : State) (p : Nat) : CredSt := tgetD s.crd.cred p Init.credSt
def setCred (p : Nat) (x : CredSt) (s : State) : State := { s with crd.cred := tput s.crd.cred p x }

/-- The point whose disconnect output is `n` (R262, R274). -/
def namer (s : State) (n : Nat) : Option Nat :=
  (s.crd.pcfg.find? (fun p => p.2.discEn && p.2.disc.toNat == n)).map (·.1)

/-- Event codes of R276. -/
def evTokenAdd : Nat := 1
def evTokenClear : Nat := 2
def evTokenRefused : Nat := 3
def evEcGrant : Nat := 4
def evEcRefused : Nat := 5
def evEcRepaid : Nat := 6
def evLow : Nat := 7
def evDue : Nat := 8
def evDeferred : Nat := 9
def evDisconnect : Nat := 10
def evReconnect : Nat := 11
def evRemoteOff : Nat := 12
def evRemoteClear : Nat := 13
def evCtlChange : Nat := 14
def evCancelled : Nat := 15
def evOverride : Nat := 16
def evFailsafe : Nat := 17

/-- Body of a credit or control event record from byte 24 (R276). -/
def crdBody (s : State) (ev : Nat) (pt : Option Nat) (out detail : Nat) (amount serial : Nat) : List Byte :=
  let st := match pt with
    | some p => (getCred s p).st.toNat
    | none => 0
  let c := match pt with
    | some p => (getCred s p).c
    | none => 0
  addrBytes s (pt.getD 0) ++ le 1 ev ++ le 1 st ++ le 1 out ++ le 1 detail ++ leI 8 c ++ le 8 amount ++ le 8 serial ++ zeros 8

/-- A credit or control event enters the Kiln log (R276). -/
def crdRec (st : Stamp) (ev : Nat) (pt : Option Nat) (out detail : Nat) (amount serial : Nat) (s : State) : State :=
  logRec 0x00A2 st (crdBody s ev pt out detail amount serial) s

/-- An event of a point at the present instant; its output where it has one. -/
def ptEvent (ev p detail amount serial : Nat) (s : State) : State :=
  let g := getPcfg s p
  crdRec (nowStamp s) ev (some p) (if g.discEn then g.disc.toNat else 0xFF) detail amount serial s

/-- C with its saturation at 64 signed bits (R252). -/
def satC (v : Int) : Int := (satS 64 v).1

/-- The disconnect level (R259). -/
def discLevel (g : CreditCfg) (c : CredSt) : Int := if c.ec then -(g.ecAmt.toNat : Int) else 0

/-- The state that C and EC_ACTIVE call for (R259, R261). -/
def stateFor (g : CreditCfg) (c : CredSt) : BitVec 3 :=
  if !g.prepay then 0
  else if c.st == 4 then (if c.c ≥ g.rc.toNat then 5 else 4)
  else if c.st == 5 then (if c.c < discLevel g c then 4 else 5)
  else if c.c < discLevel g c then 3
  else if c.c < g.low.toNat then 2
  else 1

/-- A credit re-evaluated (R259): what a change of state resets; a cleared PREPAY lets a credit disconnection reconnect
(R274). -/
def revalued (g : CreditCfg) (c : CredSt) : CredSt :=
  let n := stateFor g c
  if n == c.st then c
  else { c with st := n, deferred := false, confirm := c.confirm && n == 5
                recon := if n == 0 then c.st == 4 || c.st == 5 else c.recon && n != 4 }

/-- The credit after a token: ADD or CLEAR, the serial, EC_ACTIVE cleared when C is above 0 (R255, R256, R258). -/
def tokenCred (b : List Byte) (c : CredSt) : CredSt :=
  let a : Int := rd b 16 8
  let c1 := if rd b 24 1 = 1 then { c with c := satC (c.c + a) } else { c with c := a, r := 0, ec := false }
  { c1 with serial := some (BitVec.ofNat 64 (rd b 8 8)), ec := c1.ec && c1.c ≤ 0 }

/-- What an accepted token or grant of a point makes of its credit. -/
def effCred (g : CreditCfg) (p : Nat) (c : CredSt) : GroupEff → CredSt
  | .token q b => if q = p then revalued g (tokenCred b c) else c
  | .grant q => if q = p then revalued g { c with ec := true } else c
  | .retire _ => c
  | .trims _ _ => c
  | .cf _ => c

/-- A point's credit with the tokens and grants whose record is accepted but not yet written (R281, R256). -/
def credNewest (s : State) (p : Nat) : CredSt :=
  (s.nvs.groups.filterMap (·.eff)).foldl (effCred (getPcfg s p) p) (getCred s p)

/-- A credit with the counts and the tariff of the moment as its references (R254). -/
def withRefs (s : State) (p : Nat) (c : CredSt) : CredSt :=
  let n := counts (getPt s p)
  { c with refPos := nth n 0 0, refNeg := nth n 1 0, refTar := ptTariff s p }

/-- The credit record of a point (R254): with what earlier records in the queue bring into force before it. -/
def credVal (s : State) (p : Nat) : NvVal := .credit (withRefs s p (credNewest s p))

/-- A credit record is kept for points with PREPAY or DISC_EN (R254). -/
def keepsCredit (s : State) (p : Nat) : Bool := (getPcfg s p).prepay || (getPcfg s p).discEn

def writeCred (p : Nat) (s : State) : State :=
  if keepsCredit s p then ownWrite (nvKey .credit p) (credVal s p) 1 s else s

/-- Credit records are written at every RTC second (R254). -/
def secondCred (s : State) : State := s.crd.pcfg.foldl (fun t p => writeCred p.1 t) s

/-- A debit of `x`, in units of 2^-32 × 10^-6 milli-unit (R253). -/
def debitBy (x : Int) (c : CredSt) : CredSt :=
  let s : Int := (c.r : Int) + x
  let m : Int := 2 ^ 32 * 1000000
  { c with c := satC (c.c - Int.fdiv s m), r := (s % m).toNat }

/-- The debit of a turn's active energy at the prices of the tariff in force (R253). -/
def debitTurn (p : Nat) (s : State) : State :=
  if (getPcfg s p).prepay then
    let i := (getPt s p).inc
    let ep : Int := ((nth i 0 0 : Nat) : Int) - ((nth i 1 0 : Nat) : Int)
    let pr := prices s s.trf.active (ptCal s p) (ptTariff s p)
    setCred p (debitBy (if ep ≥ 0 then ep * pr.1 else ep * pr.2) (getCred s p)) s
  else s

/-- The debit of a restart (R254): the energy since the record's reference counts, at its tariff's prices. Restored
totals that stand before the reference counts give that energy back (DEDUCED: log 89). -/
def debitRestart (p : Nat) (s : State) : State :=
  let c := getCred s p
  if (getPcfg s p).prepay then
    let n := counts (getPt s p)
    let pr := prices s s.trf.active (ptCal s p) c.refTar
    let d (q : Nat) (ref : Nat) : Int := wrapS 64 ((nth n q 0 : Int) - (ref : Int))
    setCred p (debitBy ((d 0 c.refPos * pr.1 - d 1 c.refNeg * pr.2) * 2 ^ 32) c) s
  else s

/-- Re-evaluation of a point's state with its events and its record (R259, R254). -/
def reval (p : Nat) (s : State) : State :=
  let c := getCred s p
  let n := revalued (getPcfg s p) c
  if n.st == c.st then s
  else
    let s1 := setCred p n s
    let s2 := if n.st == 2 then ptEvent evLow p 0 0 0 s1 else if n.st == 3 then ptEvent evDue p 0 0 0 s1 else s1
    writeCred p s2

/-! ### Control values (R263, R264) -/

/-- A friendly window of a calendar is in force at an instant; 1 while the clock is invalid (R263). -/
def friendlyAt (s : State) (c u : Nat) : Bool := s.rtc.invalid || controlAt s 1 0 c u == some 1

/-- The BLOCK value of a LOADCTL output and the DUTY value of a PWM output (R263, R264). -/
def blockAt (s : State) (n u : Nat) : Bool :=
  !s.rtc.invalid && controlAt s 2 n (getCtl s n).cfg.cal.toNat u == some 1
def dutyAt (s : State) (n u : Nat) : Nat :=
  let d := (getCtl s n).cfg.defDuty.toNat
  if s.rtc.invalid then d else (controlAt s 3 n (getCtl s n).cfg.cal.toNat u).getD d

/-- Control values are re-evaluated for every output (R264). -/
def evalControl (u : Nat) (s : State) : State :=
  (List.range 16).foldl (fun t n =>
    let x := getCtl t n
    if x.cfg.en && x.cfg.kind != 0 then
      setCtl n { x with block := x.cfg.kind == 1 && blockAt t n u, calDuty := if x.cfg.kind == 2 then dutyAt t n u else 0 } t
    else t) s

/-! ### Switching at an angle (R268, R269) -/

def ctlEntry (s : State) (n : Nat) : AngEnt := tgetD s.whl.ang n Init.angEnt

/-- The advance of an output's delay at the present frequency estimate (R47). -/
def ctlAdv (s : State) (n : Nat) : Nat := ctlAdvance (getCtl s n).cfg.delay.toNat s.whl.freq

/-- A change is armed for the earliest turn whose firing position lies at least one full turn after B (R268). -/
def armCtl (n : Nat) (on credit : Bool) (b : W64) (s : State) : State :=
  let x := getCtl s n
  let angle := if on then x.cfg.angOn else x.cfg.angOff
  let adv := ctlAdv s n
  let t := (b.toNat + 2 ^ 24 + adv * 256 + (2 ^ 24 - 1) - angle.toNat * 256) / 2 ^ 24
  let e : AngEnt := ⟨BitVec.ofNat 40 t, angle, false, true, on, 1, x.cfg.ball, adv⟩
  let r := armOnce n e s
  if r.2 then setCtl n { x with pend := some on, credit := credit } r.1 else r.1

/-- A pending change is cancelled when at least two slot cycles remain before its firing position (R269). -/
def cancelCtl (n : Nat) (s : State) : State :=
  let x := getCtl s n
  let e := ctlEntry s n
  if posAhead (firePos e) s.whl.pos ≥ twoCycles s.whl then
    let s1 := setCtl n { x with pend := none, credit := false }
      { s with whl.ang := tput s.whl.ang n { e with en := false } }
    crdRec (nowStamp s) evCancelled (namer s n) n 0 0 0 s1
  else s

/-- Pending changes end without a record (R272): at a freeze those whose firing position still lies ahead, at a
fail-stop all. -/
def dropPending (s : State) : State :=
  (List.range 16).foldl (fun t n =>
    let x := getCtl t n
    if x.pend.isSome then
      setCtl n { x with pend := none, credit := false }
        { t with whl.ang := tput t.whl.ang n { ctlEntry t n with en := false } }
    else t) s

/-- Drive the ball of a DISCONNECT or LOADCTL output to a logical state (R265). -/
def driveCtl (n : Nat) (on : Bool) (s : State) : State :=
  let x := getCtl s n
  driveBall x.cfg.ball.toNat (on != x.cfg.pol) (setCtl n { x with state := on } s)

/-- A PWM output starts a period with the duty in force (R271). -/
def pwmStart (n : Nat) (s : State) : State :=
  let x := getCtl s n
  let d := match x.ovr with
    | some (v, _) => v
    | none => x.calDuty
  driveBall x.cfg.ball.toNat (d > 0 && !x.cfg.pol || d == 0 && x.cfg.pol)
    (setCtl n { x with duty := d, lastFire := some s.slot, restart := false, state := d > 0 } s)

/-- The logical state that R262 and R266 give an output at the present instant. -/
def logicalState (s : State) (n : Nat) : Bool :=
  let x := getCtl s n
  if x.cfg.kind == 0 then
    match namer s n with
    | none => true
    | some p => let c := getCred s p; c.st != 4 && c.st != 5 && !c.recon && !c.remoteOff
  else match x.ovr with
    | some (v, _) => v != 0
    | none => x.block

/-- An output is driven at once, without angle alignment (R272, R275). -/
def driveNow (n : Nat) (s : State) : State :=
  if (getCtl s n).cfg.kind == 2 then pwmStart n s
  else driveCtl n (logicalState s n) s

/-- The firing of a CTL entry (R47, R260, R261, R268, R276). -/
def ctlFire (n : Nat) (s : State) : State :=
  let x := getCtl s n
  match x.pend with
  | none => s
  | some on =>
    let st := { nowStamp s with wheel := firePos (ctlEntry s n) }
    let s1 := driveCtl n on (setCtl n { x with pend := none, credit := false, lastFire := some s.slot } s)
    match namer s n with
    | none => crdRec st evCtlChange none n (bitAt on 0) 0 0 s1
    | some p =>
      let c := getCred s p
      let g := getPcfg s p
      if x.cfg.kind != 0 then crdRec st evCtlChange none n (bitAt on 0) 0 0 s1
      else if on then
        if c.st == 4 || c.st == 5 || c.recon then
          let new : BitVec 3 := if !g.prepay then 0 else if c.c ≥ g.low.toNat then 1 else 2
          let s2 := setCred p { c with st := if c.recon && g.prepay then c.st else new, recon := false, confirm := false } s1
          writeCred p (crdRec st evReconnect (some p) n 0 0 0 s2)
        else crdRec st evCtlChange (some p) n 1 0 0 s1
      else if c.st == 3 && x.credit then
        writeCred p (crdRec st evDisconnect (some p) n 0 0 0 (setCred p { c with st := 4, deferred := false, recon := false } s1))
      else crdRec st evCtlChange (some p) n 0 0 0 s1

/-! ### Decisions (R260-R263, R268-R270) -/

/-- No friendly window of a point from B to B + 1 s, and a valid clock (R260, R263). -/
def permitted (s : State) (p b : Nat) : Bool :=
  !friendlyAt s (ptCal s p) b && !friendlyAt s (ptCal s p) (b + 1)

/-- A logical state meets the present state and a pending change (R269). -/
def switchTo (n : Nat) (want credit : Bool) (b : W64) (s : State) : State :=
  let x := getCtl s n
  match x.pend with
  | some v => if want == v then s else cancelCtl n s
  | none => if want == x.state then s else armCtl n want credit b s

/-- The first deferral of a DUE point is recorded (R260). -/
def deferDue (p : Nat) (s : State) : State :=
  let c := getCred s p
  if c.deferred then s else ptEvent evDeferred p 0 0 0 (setCred p { c with deferred := true } s)

/-- The decision of a DISCONNECT output that a point names (R260-R262, R269, R523). `live` while turns are accounted;
`ready` when the point stood in RECON_WAIT before this turn's re-evaluation, so that the turn is the next one after. An
ON output of a point that is DISCONNECTED or in RECON_WAIT (its point names it since) is switched OFF as R262 gives,
under the conditions of a disconnection decision (DEDUCED: log 90). -/
def decideDisc (live ready : Bool) (bpos : W64) (b n p : Nat) (s : State) : State :=
  let x := getCtl s n
  let g := getPcfg s p
  let c := getCred s p
  let may := permitted s p b
  let remote := c.remoteOff && (may || (c.force && !s.rtc.invalid))
  let due := c.st == 3
  let out := c.st == 4 || c.st == 5
  match x.pend with
  | some false =>
    let s1 := if live && due && !x.credit then deferDue p s else s
    if c.remoteOff || out || (due && (x.credit || may)) || (!live && x.credit) then s1 else switchTo n true false bpos s1
  | some true =>
    let s1 := if live && due then deferDue p s else s
    if remote || (live && c.st == 4) then switchTo n false false bpos s1 else s1
  | none =>
    if due && live && may then
      if x.state then switchTo n false true bpos s
      else writeCred p (ptEvent evDisconnect p 0 0 0 (setCred p { c with st := 4, deferred := false, recon := false } s))
    else
      let s1 := if due && live then deferDue p s else s
      if x.state then (if remote || (live && out && may) then switchTo n false false bpos s1 else s1)
      else if c.remoteOff || c.st == 4 then s1
      else if c.st == 5 || c.recon then
        if live && (c.recon || (ready && (g.recon == 0 || c.confirm))) then switchTo n true true bpos s1 else s1
      else switchTo n true false bpos s1

/-- The decision of a LOADCTL output: not sooner than MIN_HOLD after its last firing (R266, R270). -/
def decideLoad (bpos : W64) (bslot n : Nat) (s : State) : State :=
  let x := getCtl s n
  let want := logicalState s n
  let held : Bool := match x.lastFire with
    | some f => bslot < f + x.cfg.minHold.toNat * 24576000
    | none => false
  match x.pend with
  | some _ => switchTo n want false bpos s
  | none => if held then s else switchTo n want false bpos s

/-- The decision of one output at a turn's end (R260, R265); `old` holds the credits before the turn's re-evaluation. -/
def decideCtl (live : Bool) (old : Tab CredSt) (bpos : W64) (b bslot n : Nat) (s : State) : State :=
  let x := getCtl s n
  if !x.cfg.en then s
  else match x.cfg.kind.toNat with
    | 0 => match namer s n with
      | some p => decideDisc live ((tgetD old p Init.credSt).st == 5) bpos b n p s
      | none => switchTo n true false bpos s
    | 1 => decideLoad bpos bslot n s
    | _ => s

/-- Decisions of every enabled output at the accounting of a turn ending at B, or at a turn boundary of a freeze. -/
def decideAll (live : Bool) (old : Tab CredSt) (bpos : W64) (b bslot : Nat) (s : State) : State :=
  (List.range 16).foldl (fun t n => decideCtl live old bpos b bslot n t) s

/-! ### Requests on Ring 11 -/

/-- The common checks of a Ring 11 request: NOT_READY, BAD_LENGTH, its fields, the address (R256, R257, R275, R351). -/
def ring11 (op : Byte) (len : Nat) (bad : Bool) (r : Req) (s : State) (body : Waiter → State → Ans) : Out :=
  let w := reqWaiter r 11 op
  let a := rd r.buf 0 4
  .next (if !metering s then complete w statusNotReady 0 [] s
    else if r.buf.length != len then complete w statusBadLength 0 [] s
    else if bad || a ≥ 2 ^ 17 then complete w statusRange 0 [] s
    else match (match r.via with
        | .coil => Dest.own
        | .host => addrCheck s (a / 2 ^ 15) (a / 2 ^ 8 % 128)) with
      | .refused st => complete w st 0 [] s
      | .worker k pos => forward w k pos r.buf s
      | .own => answer w (body w s))

/-- A grant of emergency credit is eligible (R257); one whose record is being written counts as active. -/
def eligible (s : State) (p : Nat) : Bool :=
  let g := getPcfg s p
  let c := credNewest s p
  g.prepay && g.ecAmt != 0 && !c.ec && c.c < g.low.toNat

/-- A grant comes into force, with its record; `src` 0 for the host, 1 for a press. -/
def grant (src p : Nat) (s : State) : State :=
  ptEvent evEcGrant p src (getPcfg s p).ecAmt.toNat 0 (reval p (setCred p { getCred s p with ec := true } s))

/-- An accepted token comes into force (R256, R258): C, the serial and the state, the count and its records. -/
def tokenApply (p : Nat) (b : List Byte) (s : State) : State :=
  let c := getCred s p
  let n := tokenCred b c
  let s1 := reval p (setCred p n { s with crd.tokAcc := s.crd.tokAcc + 1 })
  let s2 := ptEvent (if rd b 24 1 = 1 then evTokenAdd else evTokenClear) p 0 (rd b 16 8) (rd b 8 8) s1
  if c.ec && n.c > 0 then ptEvent evEcRepaid p 0 0 0 s2 else s2

/-- A token or grant accepted: its credit record is queued, and it comes into force and completes once that is written
(R254, R256, R257); from a freeze of R14 on no record is written, and it waits without effect. -/
def credWait (p : Nat) (w : Waiter) (e : GroupEff) (s : State) : Ans :=
  if gasped s then .wait s
  else .wait (commitRecEff (nvKey .credit p)
    (.credit (withRefs s p (effCred (getPcfg s p) p (credNewest s p) e))) 1 (some (w, statusOk)) (some e) s)

/-- CREDIT_EC (R257); denied where PROT forbids the record (R302). -/
def execCreditEc (r : Req) (s : State) : Out :=
  ring11 0x61 8 (!zerosAt r.buf 4 4) r s (fun w s =>
    let p := rd r.buf 0 1
    if (getPt s p).dfn.isNone then .fail statusRange s
    else if !eligible s p then .fail statusDenied (ptEvent evEcRefused p statusDenied.toNat 0 0 s)
    else if writeForbidden s (nvKey .credit p) then .fail statusDenied (protRefuse s)
    else credWait p w (.grant p) s)

/-- ECREQ_PRESS (R257, R261): each eligible point that names the ball is granted; others' records show the refusal; a
point in RECON_WAIT under RECON_MODE 1 is confirmed. From a freeze of R14 on a press changes nothing. -/
def execEcreqPress (ball : Nat) (s : State) : Out :=
  .next (if !metering s || gasped s || (getBall s ball).func != fnECREQ then s
    else (s.crd.pcfg.filter (fun p => p.2.ecreqEn && p.2.ball.toNat == ball)).foldl (fun t x =>
      let p := x.1
      let t1 := if eligible t p then writeCred p (grant 1 p t)
        else ptEvent evEcRefused p (0x80 + statusDenied.toNat) 0 0 t
      if x.2.recon == 1 && (getCred t1 p).st == 5 then setCred p { getCred t1 p with confirm := true } t1 else t1) s)

/-- The fields of a token that are checked first are wrong (R255, R256). -/
def tokenBad (b : List Byte) : Bool :=
  rd b 0 2 != 0x00A0 || rd b 2 2 != 96 || !(rd b 24 1 == 1 || rd b 24 1 == 2) || !zerosAt b 25 7 || !zerosAt b 40 8
    || rd b 16 8 > 2 ^ 62

/-- A refusal from the identity check on: counted for AUTH_FAIL and DENIED, and recorded (R256, R277). -/
def tokenRefuse (st : W16) (b : List Byte) (s : State) : State :=
  let s1 := if st == statusAuthFail || st == statusDenied then raise 8 0 { s with crd.tokRef := satInc s.crd.tokRef } else s
  ptEvent evTokenRefused (rd b 4 1) (fld st 6 0) (rd b 16 8) (rd b 8 8) s1

/-- The checks of a token after its tag was formed, and its acceptance (R256): `tag` is the computed tag, none when
the key operation was aborted. A record that PROT forbids is a refusal with DENIED (R302, R277). -/
def tokenJudge (w : Waiter) (b : List Byte) (tag : Option (List Byte)) (s : State) : Ans :=
  let p := rd b 4 1
  let c := credNewest s p
  match tag with
  | none => .fail statusTamperAbort (tokenRefuse statusTamperAbort b s)
  | some t =>
    if t != (b.drop 48).take 48 then .fail statusAuthFail (tokenRefuse statusAuthFail b s)
    else if c.serial.any (fun q => rd b 8 8 ≤ q.toNat) then .fail statusDenied (tokenRefuse statusDenied b s)
    else if rd b 24 1 = 1 && c.c + (rd b 16 8 : Int) > 2 ^ 63 - 1 then .fail statusRange (tokenRefuse statusRange b s)
    else if writeForbidden s (nvKey .credit p) then .fail statusDenied (tokenRefuse statusDenied b (protRefuse s))
    else credWait p w (.token p b) s

/-! ### CTL_SWITCH (R267) -/

/-- The fields of CTL_SWITCH that do not depend on the output's kind. -/
def switchBad (b : List Byte) : Bool :=
  rd b 0 1 != 0 || rd b 4 1 > 15 || rd b 5 1 > 3 || rd b 6 1 > 1 || !zerosAt b 7 1 || rd b 12 2 > 10000 || !zerosAt b 14 2

/-- The cases of R267 that depend on the kind. -/
def switchKindBad (s : State) (b : List Byte) : Bool :=
  let n := rd b 4 1
  let act := rd b 5 1
  let k := (getCtl s n).cfg.kind
  if k == 0 then act == 2 || rd b 8 4 != 0 || rd b 12 2 != 0 || (rd b 6 1 == 1 && act != 1) || (namer s n).isNone
  else act == 3 || rd b 6 1 == 1 || (rd b 12 2 != 0 && !(k == 2 && act == 2))

/-- CTL_SWITCH (R261, R262, R266, R267). -/
def execCtlSwitch (r : Req) (s : State) : Out :=
  ring11 0x62 16 (switchBad r.buf) r s (fun _ s =>
    let b := r.buf
    let n := rd b 4 1
    let act := rd b 5 1
    let x := getCtl s n
    if switchKindBad s b then .fail statusRange s
    else if gasped s then .wait s
    else if x.cfg.kind == 0 then
      let p := (namer s n).getD 0
      let c := getCred s p
      match act with
      | 0 => .done statusOk (writeCred p (ptEvent evRemoteClear p 0 0 0 (setCred p { c with remoteOff := false, force := false } s)))
      | 1 => .done statusOk (writeCred p (ptEvent evRemoteOff p 0 0 0
          (setCred p { c with remoteOff := true, force := rd b 6 1 == 1 } s)))
      | _ => if c.st == 5 then .done statusOk (setCred p { c with confirm := true } s) else .fail statusDenied s
    else if act == 0 then .done statusOk (setCtl n { x with ovr := none } s)
    else
      let v := if act == 1 then 0 else if x.cfg.kind == 2 then rd b 12 2 else 1
      let d := rd b 8 4
      let exp := if d = 0 then none else some (s.slot + d * 24576000)
      .done statusOk (crdRec (nowStamp s) evOverride none n 0 0 0 (setCtl n { x with ovr := some (v, exp) } s)))

/-- OVERRIDE_EXPIRY (R267). -/
def execOverrideExpiry (n : Nat) (s : State) : Out :=
  let x := getCtl s n
  .next (match x.ovr with
    | some (_, some u) => if s.slot ≥ u then setCtl n { x with ovr := none } s else s
    | _ => s)

/-- PWM_PERIOD (R271): while the output is driven. From a freeze of R14 on, and in a fail-stop, it keeps its present duty
(R272). -/
def execPwmPeriod (n : Nat) (s : State) : Out :=
  let x := getCtl s n
  .next (if x.cfg.en && x.cfg.kind == 2 && (getBall s x.cfg.ball.toNat).drive then
      if gasped s then setCtl n { x with lastFire := some s.slot } s else pwmStart n s
    else s)

/-! ### CREDIT_CFG and CTL_CFG (R274, R275) -/

def creditOf (b : List Byte) : CreditCfg :=
  let c := rd b 1 1
  { prepay := c.testBit 0, recon := BitVec.ofNat 2 (c / 2), ecreqEn := c.testBit 3, discEn := c.testBit 4
    disc := BitVec.ofNat 4 (rd b 2 1), ball := BitVec.ofNat 5 (rd b 3 1), low := BitVec.ofNat 32 (rd b 4 4)
    rc := BitVec.ofNat 32 (rd b 8 4), ecAmt := BitVec.ofNat 32 (rd b 12 4) }

def creditBad (b : List Byte) : Bool :=
  let c := rd b 1 1
  c ≥ 32 || c / 2 % 4 == 3 || (if c.testBit 4 then rd b 2 1 > 15 else rd b 2 1 != 0)
    || (if c.testBit 3 then rd b 3 1 > 31 else rd b 3 1 != 0) || !zerosAt b 16 4

/-- The newest accepted configuration of an output. -/
def ctlNewest (s : State) (n : Nat) : CtlCfg := ((getCtl s n).next).getD (getCtl s n).cfg

/-- A point is defined, or its accepted definition waits for the turn boundary. -/
def ptDefined (s : State) (p : Nat) : Bool :=
  match (getPt s p).next with
  | some d => !d.legs.isEmpty
  | none => (getPt s p).dfn.isSome

/-- An ECREQ ball that no point names any longer is released (R490). -/
def dropEcreq (n : Nat) (s : State) : State :=
  if s.crd.pcfg.any (fun p => p.2.ecreqEn && p.2.ball.toNat == n) then s else freeBall n fnECREQ 0 s

/-- The effect of an accepted CREDIT_CFG (R274). -/
def creditApply (p : Nat) (g : CreditCfg) (s : State) : State :=
  let old := getPcfg s p
  let s1 := { s with crd.pcfg := tput s.crd.pcfg p g }
  let s2 := if g.ecreqEn then claim g.ball.toNat fnECREQ 0 s1 else s1
  let s3 := if old.ecreqEn && (!g.ecreqEn || g.ball != old.ball) then dropEcreq old.ball.toNat s2 else s2
  if g.prepay != old.prepay then reval p s3 else s3

/-- CREDIT_CFG (R274, R275): the credit record is written before it completes (R254), also when PREPAY and DISC_EN both
clear, so that the record keeps what the change made of the credit. -/
def execCreditCfg (r : Req) (s : State) : Out :=
  ring0 0x30 (· == 24) r s (fun w s =>
    let b := r.buf
    let p := rd b 0 1
    let g := creditOf b
    let out := ctlNewest s g.disc.toNat
    match firstBad [(!crcOk b 20 (b.take 20), statusRange), (creditBad b, statusRange),
        ((g.prepay || g.discEn) && !ptDefined s p, statusRange), (g.discEn && !(out.en && out.kind == 0), statusRange),
        (g.discEn && s.crd.pcfg.any (fun x => x.1 != p && x.2.discEn && x.2.disc == g.disc), statusConflict),
        (g.ecreqEn && !claimOk s g.ball.toNat fnECREQ 0, statusConflict)] with
    | some st => .fail st s
    | none =>
      let key := nvKey .creditCfg p
      if writeForbidden s key then .fail statusDenied (protRefuse s)
      else if gasped s then .wait s
      else
        let kept := keepsCredit s p
        let s1 := creditApply p g s
        if kept || g.prepay || g.discEn then
          .wait (commitRec (nvKey .credit p) (credVal s1 p) 1 (some (w, statusOk)) (commitRec key (.bytes b) 1 none s1))
        else .wait (commitRec key (.bytes b) 1 (some (w, statusOk)) s1))

def ctlOf (b : List Byte) : CtlCfg :=
  let k := rd b 1 1
  { en := k ≥ 128, pol := k.testBit 6, ball := BitVec.ofNat 5 k, kind := BitVec.ofNat 2 (rd b 2 1)
    cal := BitVec.ofNat 4 (rd b 3 1), angOff := BitVec.ofNat 16 (rd b 4 2), angOn := BitVec.ofNat 16 (rd b 6 2)
    delay := BitVec.ofNat 32 (rd b 8 4), safe := BitVec.ofNat 2 (rd b 12 1), minHold := BitVec.ofNat 16 (rd b 14 2)
    period := BitVec.ofNat 32 (rd b 16 4), defDuty := BitVec.ofNat 16 (rd b 20 2) }

def ctlBad (b : List Byte) : Bool :=
  let k := rd b 2 1
  let per := rd b 16 4
  rd b 0 1 > 15 || (rd b 1 1).testBit 5 || k > 2 || (if k = 0 then rd b 3 1 != 0 else rd b 3 1 > 15) || rd b 8 4 > 100000
    || rd b 12 1 > 2 || !zerosAt b 13 1 || (if k = 1 then rd b 14 2 > 3600 else rd b 14 2 != 0)
    || (if k = 2 then per < 500 || per > 1000000 else per != 0) || (if k = 2 then rd b 20 2 > 10000 else rd b 20 2 != 0)
    || !zerosAt b 22 6

/-- The effect of an accepted CTL_CFG up to its boundary: the ball and the generator are claimed (R273, R490). What a
configuration that it supersedes before its boundary had claimed is released. -/
def ctlAccept (n : Nat) (c : CtlCfg) (s : State) : State :=
  let x := getCtl s n
  let s0 := match x.next with
    | some o => if o.en && !(x.cfg.en && x.cfg.ball == o.ball) && !(c.en && c.ball == o.ball) then freeBall o.ball.toNat fnCTL n s
      else s
    | none => s
  let s1 := if c.en then claim c.ball.toNat fnCTL n s0 else s0
  let held := if x.cfg.en && x.cfg.kind == 2 || c.en && c.kind == 2 then x.gen else none
  let g := if c.en && c.kind == 2 && held.isNone then (freeGen s).map (fun g => BitVec.ofNat 4 g) else held
  setCtl n { x with next := some c, gen := g } s1

/-- CTL_CFG (R265, R275). -/
def execCtlCfg (r : Req) (s : State) : Out :=
  ring0 0x31 (· == 32) r s (fun w s =>
    let b := r.buf
    let n := rd b 0 1
    let c := ctlOf b
    let named := (namer s n).isSome && (!c.en || c.kind != (ctlNewest s n).kind)
    match firstBad [(!crcOk b 28 (b.take 28), statusRange), (ctlBad b, statusRange),
        (c.en && !claimOk s c.ball.toNat fnCTL n, statusConflict),
        (c.en && c.kind == 2 && (getCtl s n).gen.isNone && (freeGen s).isNone, statusConflict), (named, statusConflict)] with
    | some st => .fail st s
    | none => writeCmd (nvKey .ctlCfg n) (.bytes b) 1 w (ctlAccept n c) s)

/-- CTL_CFG_EFFECT (R275): not while a change of the output is pending. -/
def execCtlCfgEffect (n : Nat) (s : State) : Out :=
  let x := getCtl s n
  .next (if unwritten s (nvKey .ctlCfg n) then s else match x.next, x.pend with
    | some c, none =>
      let o := x.cfg
      let s1 := if o.en && (!c.en || c.ball != o.ball) then freeBall o.ball.toNat fnCTL n s else s
      if c.en then
        let y := { x with cfg := c, next := none, ovr := if c.kind == o.kind then x.ovr else none,
                          lastFire := if c.kind == o.kind then x.lastFire else none,
                          gen := if c.kind == 2 then x.gen else none }
        let s2 := setCtl n y s1
        let s3 := setCtl n { y with block := c.kind == 1 && blockAt s2 n s.rtc.s,
                                    calDuty := if c.kind == 2 then dutyAt s2 n s.rtc.s else 0 } s2
        if !o.en || c.kind != o.kind || c.ball != o.ball || c.pol != o.pol then driveNow n s3
        else if c.kind == 2 && c.period != o.period then pwmStart n s3
        else s3
      else
        setCtl n { x with cfg := c, next := none, ovr := none, gen := none, state := false, duty := 0, lastFire := none }
          (freeBall c.ball.toNat fnCTL n s1)
    | _, _ => s)

/-- Every enabled output is driven at once to its logical state (R272, end of RESTORE). -/
def driveOutputs (s : State) : State :=
  (List.range 16).foldl (fun t n => if (getCtl t n).cfg.en then driveNow n t else t) (evalControl s.rtc.s s)

/-! ### Fail-stop (R272, R276) -/

/-- The logical state an output holds or is driven to in a fail-stop. -/
def safeState (s : State) (n : Nat) : Bool :=
  let x := getCtl s n
  match x.cfg.safe.toNat with
  | 1 => false
  | 2 => true
  | _ => if x.cfg.kind == 2 then pwmOn s x else x.state

/-- One FAILSAFE record body for every enabled output (R276). -/
def failsafeRecs (s : State) : List Rec :=
  ((List.range 16).filter (fun n => (getCtl s n).cfg.en)).map (fun n =>
    ⟨0x00A2, 0, nowStamp s, crdBody s evFailsafe (namer s n) n (bitAt (safeState s n) 0) 0 0⟩)

/-- SAFE acts on every enabled output (R272, R475 step 3). -/
def safeOutputs (s : State) : State :=
  (List.range 16).foldl (fun t n =>
    let x := getCtl t n
    if !x.cfg.en || x.cfg.safe == 0 then t
    else if x.cfg.kind == 2 then
      setCtl n { x with duty := if x.cfg.safe == 1 then 0 else 10000, state := x.cfg.safe == 2 } t
    else driveCtl n (x.cfg.safe == 2) t) (dropPending s)

/-! ### Register images (R278) -/

def crdStatImage (s : State) : W32 :=
  BitVec.ofNat 32 ((gensUsed s).length * 2 ^ 16 + bitAt s.rtc.invalid 9 + (s.crd.pcfg.filter (·.2.prepay)).length)

def crdPcfgImage (g : CreditCfg) : W32 :=
  BitVec.ofNat 32 (bitAt g.prepay 31 + g.recon.toNat * 2 ^ 29 + bitAt g.ecreqEn 28 + g.ball.toNat * 2 ^ 8
    + bitAt g.discEn 4 + g.disc.toNat)

def crdPstatImage (s : State) (p : Nat) : W32 :=
  let g := getPcfg s p
  let c := getCred s p
  BitVec.ofNat 32 (bitAt (friendlyAt s (ptCal s p) s.rtc.s) 7 + bitAt (g.discEn && (getCtl s g.disc.toNat).pend.isSome) 6
    + bitAt c.remoteOff 5 + bitAt c.ec 4 + c.st.toNat)

def ctlCfgImage (x : Ctl) : W32 :=
  BitVec.ofNat 32 (bitAt x.cfg.en 31 + bitAt x.cfg.pol 30 + x.cfg.ball.toNat * 2 ^ 24 + x.cfg.kind.toNat * 2 ^ 16
    + x.cfg.safe.toNat * 2 ^ 8 + x.cfg.cal.toNat)

def ctlStatImage (s : State) (n : Nat) : W32 :=
  let x := getCtl s n
  let remote := x.cfg.kind == 0 && (namer s n).any (fun p => (getCred s p).remoteOff)
  BitVec.ofNat 32 (x.duty * 2 ^ 16 + bitAt (x.cfg.en && ballLevel s x.cfg.ball.toNat) 4 + bitAt (x.ovr.isSome || remote) 3
    + bitAt (x.pend == some true) 2 + bitAt x.pend.isSome 1
    + bitAt (if x.cfg.kind == 2 then x.cfg.en && pwmOn s x else x.state) 0)

/-- A generator's byte in CRD_PGMAP. -/
def pgByte (s : State) (g : Nat) : Nat :=
  match s.pnt.cf.find? (fun p => p.2.gen.any (·.toNat == g)), s.crd.ctl.find? (fun p => p.2.gen.any (·.toNat == g)) with
  | some p, _ => 128 + p.1
  | none, some p => 128 + 64 + p.1
  | none, none => 0

def pgMapImage (s : State) (m : Nat) : W32 :=
  BitVec.ofNat 32 (sumN ((List.range 4).map (fun j => pgByte s (4 * m + j) * 2 ^ (8 * j))))

end Sys2Proof.Machine
end

