-- ==== Sys2Proof/Machine/Account.lean ====
section
/-!
DEFINITION. Accounting a turn (R152, R153, R227, R228, R253, R259-R271) and freezing accumulation (R14, R29, R30, R70,
R154, R157, R242).
-/
namespace Sys2Proof.Machine

/-- A turn's increments of a point reach the tariff registers and the credit (R152, R228, R253). -/
def bookPt (p : Nat) (s : State) : State := debitTurn p (addIncs p s)

/-- What is due before a turn's increments are added, at its end `e`: control edits, boundaries (R227, R232), and the
close of the second before when the turn belongs to a later one (R157). -/
def beforeIncs (e : Nat) (s : State) : State :=
  let s1 := boundariesTo e (ctlEditsTo e s)
  match s1.pnt.second, s1.pnt.secEnd with
  | some q, some st => if q == e then s1 else secondCred (closeSecond st 0 s1)
  | _, _ => s1

/-- Account one whole turn under the definitions of that turn (R138, R152). -/
def accountTurn (t : RsTurn) (s0 : State) : State :=
  let s := swapDefs t.turn s0
  let st := wheelStamp s t 256
  let e := fullSec s st.sec
  let inst := wheelInstant s t 256
  let s1 := beforeIncs e (openFirst (wheelStamp s t 0) s)
  let pts := definedPts s1
  let s2 := pts.foldl (accountPt t) (clearPrev (fun x => x.dfn.isNone) s1)
  let s3 := pts.foldl (fun u p => noteTurn p (bookPt p u)) s2
  let s4 := cfTurn { s3 with pnt.second := some e, pnt.secEnd := some st, trf.lastEnd := st, trf.run := true }
  let s5 := evalControl e ((s4.crd.pcfg.filter (·.2.prepay)).foldl (fun u p => reval p.1 u) s4)
  swapDefs t.turn (minuteSets e (decideAll true s1.crd.cred st.wheel e inst.toNat s5))

/-- TURN_ACCOUNT (R152, R153): the turn whose last wheel sample has been written; one that began before accumulation
ran, or during a freeze, is not accounted. -/
def execTurnAccount (s : State) : Out :=
  .next (match s.pnt.turnDone with
    | none => s
    | some t =>
      let s1 := { s with pnt.turnDone := none }
      if t.live && metering s && !s.pnt.frozen then accountTurn t s1 else cfStop s1)

/-- The FROZEN second of a point as the last gasp keeps it (R295): 40 bytes out of its second record. -/
def frozenEntry (b : List Byte) : List Byte :=
  (b.drop 36).take 24 ++ (b.drop 32).take 4 ++ (b.drop 30).take 1 ++ (b.drop 62).take 2 ++ zeros 1
    ++ le 2 (rd b 28 2 % 256 + rd b 28 2 / 2 ^ 14 * 2 ^ 14) ++ zeros 6

/-- The partial turn of a freeze at wheel sample kf (R154, R242): boundaries at or before kf, the increments, the last
debit, and the FROZEN close of the open second (R157). -/
def freezeTurn (t : RsTurn) (kf : Nat) (s0 : State) : State :=
  let s := swapDefs t.turn s0
  let st := wheelStamp s t kf
  let e := fullSec s st.sec
  let s1 := beforeIncs e s
  let s2 := if kf = 0 then s1
    else
      let pts := definedPts s1
      let a := pts.foldl (accountPartial t kf) s1
      pts.foldl (fun u p => noteTurn p (bookPt p u)) a
  let s3 := { s2 with pnt.second := some e, trf.lastEnd := st }
  let s4 := (s3.crd.pcfg.filter (·.2.prepay)).foldl (fun u p => reval p.1 u) s3
  let fs := (definedPts s4).map (fun p => (p, frozenEntry (secondRec st 512 s4 p).bytes))
  swapDefs t.turn (closeSecond st 512 { s4 with pnt.frozenSec := fs })

/-- The period of every point contains a freeze: POWER_FAIL of its next snapshot (R240). -/
def noteFreeze (s : State) : State :=
  eachPt (fun p t => setInt p { getInt t p with snap := (getInt t p).snap ||| 1 } t) s

/-- A whole turn not yet accounted is accounted (R154). -/
def freezeWhole (s : State) : State := match s.pnt.turnDone with
  | some t => let u := { s with pnt.turnDone := none }; if t.live then accountTurn t u else u
  | none => s

/-- The partial turn is accounted, and its records kept (R154, R157). -/
def freezePart (s : State) : State :=
  let u := { s with pnt.frozenSec := [], pnt.frozenOut := [] }
  match u.pnt.rs with
  | t :: _ => if t.live then freezeTurn t u.pnt.rsK u else u
  | [] => u

/-- The stamp of a freeze: that of the last wheel sample of the partial turn. -/
def freezeStamp (s : State) : Stamp := match s.pnt.rs with
  | t :: _ => wheelStamp s t s.pnt.rsK
  | [] => nowStamp s

/-- Accumulation stands still. -/
def freezeStop (st : Stamp) (s : State) : State :=
  { s with pnt := { s.pnt with frozen := true, frozenAt := st, run := false, rs := s.pnt.rs.map (fun t => { t with live := false }) }
           trf.run := false }

/-- A freeze of accumulation (R14, R29, R30, R70, R475): a whole turn not yet accounted is accounted first, then the
partial turn; the open results and events close, captures are cut, a bank calibration ends (R192, R197, R216). -/
def freeze (s : State) : State :=
  if s.pnt.frozen || !metering s then s
  else
    let s0 := freezeWhole s
    let st := freezeStamp s0
    calAbort (pqFreeze st (capTruncate (noteFreeze (cfStop (clearPrev (fun _ => true) (freezeStop st (freezePart s0)))))))

/-- A cause of R29, R30 or R70 that was found before METERING and still stands: accumulation does not start (R27, R480). -/
def frozenStart (s : State) : State :=
  if severeStands s then
    { s with pnt := { s.pnt with frozen := true, frozenAt := nowStamp s, run := false }, trf.run := false, pq.frozen := true }
  else s

/-- The FROZEN records of a freeze that ends without a restore go out, under the next sequences (log entry 107). -/
def outFrozen (s : State) : State :=
  s.pnt.frozenOut.foldl (fun t r => deliver2 { r with seq := t.pnt.seq } t) { s with pnt.frozenOut := [], pnt.frozenSec := [] }

/-- Accumulation resumes with the first whole turn after (R30, R70, R153), but never after a freeze of R14. The FROZEN
records of the freeze, which R157 has delivered after restore, go out here (DESIGN CHOICE: log entry 107). -/
def resume (s : State) : State :=
  if s.pnt.frozen && metering s && !gasped s then
    let t := outFrozen s
    { t with pnt.frozen := false, pnt.resumed := true, pq.frozen := false }
  else s

/-- Decisions at a turn boundary of the Wheel during a freeze under R29, R30 or R70 (R523). -/
def freezeBoundary (s : State) : State :=
  if s.pnt.frozen && metering s && !gasped s then
    let st := nowStamp s
    let e := fullSec s st.sec
    decideAll false s.crd.cred s.whl.pos e s.slot (evalControl e (ctlEditsTo e s))
  else s

end Sys2Proof.Machine
end

