-- ==== Sys2Proof/Machine/Afe.lean ====
section
/-!
DEFINITION. The analogue front end: clocks and reference (R68-R72), shadow modulators and stuck modulators (R73-R80),
trip comparators (R81-R86), and channel configuration taking effect (R87, R139).
-/
namespace Sys2Proof.Machine

/-! ### Clocks and the reference (R70, R72) -/

/-- Accumulation resumes once no cause of a freeze stands (R29, R30, R70). -/
def resumeIfClear (s : State) : State := if severeStands s then s else resume s

/-- The MPLL is lost, or back: the SEVERE source, the freeze, the attempts of CAL (R70). -/
def clockLost (src : Nat) (s : State) : State := powerupAbort (freeze (raiseLive 1 src s))
def clockBack (src : Nat) (s : State) : State := resumeIfClear (resolve 1 src (fallLive 1 src s))

/-- RCLK_LOSS (R70): the MPLL moves to the other port where it carries a clock, or enters holdover. -/
def execRclkLoss (port : Nat) (s : State) : Out :=
  let p := port % 2
  let s1 := { s with afe.rclk := setBit s.afe.rclk p false }
  let other := 1 - p
  .next (if !s.afe.everLocked || !s.afe.ringSrc || s.afe.hold || s.afe.port != (p == 1) then s1
    else if bit s1.afe.rclk other then { s1 with afe.port := other == 1 }
    else clockLost 6 { s1 with afe.hold := true, afe.mpllLock := false })

/-- RCLK_RETURN (R30, R70). -/
def execRclkReturn (port : Nat) (s : State) : Out :=
  let p := port % 2
  let s1 := { s with afe.rclk := setBit s.afe.rclk p true }
  .next (if s.afe.hold then clockBack 6 { s1 with afe.hold := false, afe.mpllLock := true, afe.port := p == 1 } else s1)

/-- MPLL_UNLOCK (R70): on XTAL, after the first lock. -/
def execMpllUnlock (s : State) : Out :=
  .next (if !s.afe.everLocked || s.afe.ringSrc || !s.afe.mpllLock then s
    else clockLost 7 { s with afe.mpllLock := false })

/-- MPLL_RELOCK (R70). -/
def execMpllRelock (s : State) : Out :=
  .next (if !s.afe.everLocked || s.afe.ringSrc || s.afe.mpllLock then s
    else clockBack 7 { s with afe.mpllLock := true })

/-- VREF_FAULT (R72): GRAVE. -/
def execVrefFault (s : State) : Out :=
  .next (if !mainPower s || s.boot.st == .por then s else raise 1 8 { s with afe.vrefOk := false })

/-- VREF_WAIT_TIMEOUT (R211): the reference did not come into tolerance in CAL. -/
def execVrefWaitTimeout (s : State) : Out :=
  .next (if s.boot.st == .cal && s.cal.st == .idle then raise 1 8 { s with afe.vrefOk := false } else s)

/-! ### Shadow modulators (R73-R80) -/

/-- Channel index (0 to 59) that shadow `b` mirrors or serves. -/
def mirrorCh (b : Nat) (x : ShadowMod) : Nat := 12 + 16 * b + x.mirror.toNat

/-- The next enabled channel of a bank in ascending order, wrapping round (R73); none while no channel is enabled. -/
def nextMirror (s : State) (b cur : Nat) : Option Nat :=
  ((List.range 16).map (fun i => (cur + 1 + i) % 16)).find? (fun j => chanEn s (12 + 16 * b + j))

/-- A dwell begins on a channel: the shadow's phase pair is overwritten for it, and its stream settles (R73, R120). With
no enabled channel the shadow mirrors none (R63). -/
def startDwell (b : Nat) (j : Option Nat) (s : State) : State :=
  match j with
  | none => setShadow b { getShadow s b with dwell := 0, disagree := 0, prev := none } s
  | some j =>
    let s1 := setShadow b { getShadow s b with mirror := BitVec.ofNat 4 j, dwell := 0, disagree := 0, prev := none } s
    settleNow [60 + b] (writeCodes [60 + b]
      (loadBoth (phasePair (60 + b)) (phaseBank (getChan s (12 + 16 * b + j)).adj (48 + b)) s1))

/-- Mean squares of a turn agree (R74): 65,536 × rms(s − c) ≤ REL × rms(c) + ABS × 2^-8 × FS, in squares and exactly. -/
def agrees (shcfg : W32) (c d : List Int) : Bool :=
  let rel := fld shcfg 15 0
  let lim := fld shcfg 31 16
  let sq (l : List Int) : Int := sumI (l.map (fun v => v * v))
  let diff := sq (List.zipWith (· - ·) d c)
  let x : Int := 65536 * 65536 * diff
  let y : Int := ((rel * rel : Nat) : Int) * sq c
  let z : Int := ((393216 * lim : Nat) : Int)
  x - y - z * z ≤ 0 || (x - y - z * z) * (x - y - z * z) ≤ 4 * z * z * y

/-- The mirrored channel becomes suspect (R75, R80): it holds, its accepted swaps are withdrawn. A suspect of the
comparison begins turn 1 at once; one of a stuck detection at the next turn boundary (R77). -/
def declareSuspect (b j : Nat) (now : Bool) (s : State) : State :=
  let c := 12 + 16 * b + j
  let x := { getShadow s b with mirror := BitVec.ofNat 4 j, st := .selfcheck, turn := if now then 1 else 0, ok := true,
                                pend := !now, dwell := 0, disagree := 0, prev := none,
                                lvlAt := s.slot, lvlCnt := 0, lvlSum := 0 }
  let s1 := withdraw (phasePair c) (holdNow c (setShadow b x s))
  if now then isolate [60 + b] s1 else s1

/-- The last turn whose wheel samples are whole. -/
def wholeTurn (s : State) : BitVec 40 := if s.pnt.lastK = 255 then s.pnt.lastTurn else s.pnt.lastTurn - 1

/-- Whole turns lie behind the Wheel by as many turns (R126). -/
def turnLag (s : State) : Nat := (turnOf s.whl.pos - wholeTurn s).toNat

/-- A turn of two streams can be judged (R74): the channel enabled (R63), both turns whole, no trim step in it, no OVR on
either modulator, the bank not isolated. -/
def comparable (b j : Nat) (s : State) : Bool :=
  let c := (getWs s (12 + 16 * b + j)).rawPrev
  let d := (getWs s (60 + b)).rawPrev
  chanEn s (12 + 16 * b + j) && c.length ≥ 256 && d.length ≥ 256 && (c ++ d).all (fun v => !bit v.fl flOvr && !bit v.fl flCal)
    && (getShadow s b).skip != some (wholeTurn s)

/-- The whole turn of the channel and the shadow agree (R74). -/
def turnAgrees (b j : Nat) (s : State) : Bool :=
  agrees s.afe.shcfg ((getWs s (12 + 16 * b + j)).rawPrev.map (·.v)) ((getWs s (60 + b)).rawPrev.map (·.v))

/-- SHADOW_COMPARE_TURN (R74, R75): turns 3 to 16 of a dwell are judged once their samples are whole, turn 16 after the
shadow has moved on (log entry 45). -/
def execShadowCompareTurn (b : Nat) (s : State) : Out :=
  let x := getShadow s b
  let g := turnLag s
  .next (if b ≥ 3 || x.st != .rotate then s
    else if x.dwell.toNat ≥ g + 2 then
      let j := x.mirror.toNat
      if !comparable b j s then s
      else if turnAgrees b j s then setShadow b { x with disagree := 0 } s
      else if x.disagree.toNat ≥ 3 then declareSuspect b j true s
      else setShadow b { x with disagree := x.disagree + 1 } s
    else if x.dwell.toNat ≥ g then s
    else match x.prev with
      | none => s
      | some (m, d) =>
        if d.toNat ≥ 3 && comparable b m.toNat s && !turnAgrees b m.toNat s then declareSuspect b m.toNat true s
        else setShadow b { x with prev := none } s)

/-- SHADOW_DWELL_ADVANCE (R73): after 16 turns the shadow takes the next enabled channel; a count below 4 is
discarded. -/
def execShadowDwellAdvance (b : Nat) (s : State) : Out :=
  let x := getShadow s b
  .next (if b ≥ 3 || x.st != .rotate || x.dwell.toNat < 15 then s
    else
      let s1 := startDwell b (nextMirror s b x.mirror.toNat) s
      setShadow b { getShadow s1 b with prev := some (x.mirror, x.disagree) } s1)

/-- Each turn of a dwell is counted at its boundary. -/
def dwellTurn (s : State) : State :=
  (List.range 3).foldl (fun t b =>
    let x := getShadow t b
    if x.st == .rotate && x.dwell.toNat < 15 then setShadow b { x with dwell := x.dwell + 1 } t else t) s

/-- The substitution record: 4 substituted or 5 retired, and the channel (R76). -/
def substKey (b : Nat) : Nat := nvKey .subst b
def writeSubst (b st j : Nat) (s : State) : State := ownWrite (substKey b) (.nat (st + 8 * j)) 1 s

/-- The boundary turn's count, from which wheel samples change mode. -/
def thisTurn (s : State) : BitVec 40 := turnOf s.whl.pos

/-- A shadow's retirement takes effect (R75 step 5b, R77). -/
def retireNow (b : Nat) (s : State) : State :=
  raise 1 2 (setShadow b { getShadow s b with st := .retired, turn := 0, pend := false, disagree := 0 } s)

/-- A shadow is to be retired: the record is written, and then its state changes; where PROT forbids the record, at once
(R76). -/
def retire (b : Nat) (s : State) : State :=
  let key := substKey b
  if writeForbidden s key then retireNow b s
  else commitRecEff key (.nat (5 + 8 * (getShadow s b).mirror.toNat)) 1 none (some (.retire b)) s

/-- The substitution record of a shadow has been written, or cannot be (R76). -/
def substWritten (s : State) (b : Nat) : Bool :=
  !(s.nvs.groups.drop (if s.nvs.gstep ≥ 4 then 1 else 0)).any (fun g => match g.act with
    | .record k _ _ _ => k == substKey b
    | _ => false)

/-- The fail of a self-check (R75 step 5b, R80): the channel is released, the shadow retired, a stored ADJ that the
active bank does not hold is armed. -/
def failCheck (b : Nat) (s : State) : State :=
  let x := getShadow s b
  let c := mirrorCh b x
  let s1 := retire b (reconnect [60 + b] (modeFrom c (thisTurn s) 0 (setShadow b { x with turn := 4 } s)))
  let p := getPair s1 (phasePair c)
  let want := phaseBank (getChan s1 c).adj (feedSlot s1 c)
  let dly := if p.active then p.dlyB else p.dlyA
  if dly == want.2.2 then s1 else armPair (phasePair c) (some want) s1

/-- Boundary of turn 6 (R75 step 6a): the substitution fade through the channel's phase-filter pair. The record was
queued at the boundary before, so that it is written before the state changes (R76; log entry 99). -/
def startSubst (b : Nat) (s : State) : State :=
  let x := getShadow s b
  let c := mirrorCh b x
  let i := phasePair c
  let s2 := setShadow b { x with st := .fade, subst := x.mirror, turn := 6 } s
  let s3 := setPair i (loadPassive (some (phaseBank (getChan s2 c).adj (48 + b))) (getPair s2 i)) s2
  raise 1 1 (modeFrom c (thisTurn s) 2 (startFade i s3))

/-- A level of the self-check lies within ±0.05 % of full scale of its expected value (R72, R75 step 4): `sum` of `n`
fine samples, expected `lvl` hundredths of a percent. -/
def levelOk (lvl sum : Int) (n : Nat) : Bool :=
  let fs : Int := 6291456
  n > 0 && (10000 * sum - lvl * fs * n).natAbs ≤ (5 * fs * n).natAbs

/-- The next level of a self-check begins: its samples are counted afresh. -/
def nextLevel (turn : Nat) (ok : Bool) (x : ShadowMod) (s : State) : ShadowMod :=
  { x with turn := turn, ok := ok, lvlAt := s.slot, lvlCnt := 0, lvlSum := 0 }

/-- The present level was within its limits over the turn's fine samples after the first 48. -/
def levelPassed (lvl : Int) (x : ShadowMod) : Bool := levelOk lvl x.lvlSum (x.lvlCnt - 48)

/-- SHADOW_SELFCHECK_STEP (R75): the turn boundary that ends a turn of the sequence. The levels are judged over the
shadow's own fine samples that lie in their turn and are written by its end (log entry 100). -/
def execShadowSelfcheckStep (b : Nat) (s : State) : Out :=
  let x := getShadow s b
  .next (if b ≥ 3 then s
    else match x.st with
      | .selfcheck =>
        match x.turn with
        | 0 => isolate [60 + b] (setShadow b { nextLevel 1 true x s with pend := false } s)
        | 1 => setShadow b (nextLevel 2 (levelPassed 0 x) x s) s
        | 2 => setShadow b (nextLevel 3 (x.ok && levelPassed 8000 x) x s) s
        | 3 =>
          if x.ok && levelPassed (-8000) x then reconnect [60 + b] (setShadow b { x with st := .reconnect, turn := 4 } s)
          else failCheck b s
        | _ => s
      | .reconnect =>
        if x.turn = 4 then writeSubst b 4 x.mirror.toNat (setShadow b { x with turn := 5 } s)
        else if substWritten s b then startSubst b s
        else s
      | .fade => modeFrom (mirrorCh b x) (thisTurn s) 0 (setShadow b { x with st := .substituted, turn := 0 } s)
      | _ => s)

/-! ### Stuck modulators (R77, R78) -/

/-- The second failure of a bank, or a stuck voltage modulator: accumulation stops (R29). -/
def severeStop (src : Nat) (s : State) : State := freeze (raiseLive 1 src s)

/-- A stuck modulator is handled by its kind (R77). Two cases that its table does not name are the model's choice (DESIGN
CHOICE: log entry 46): a shadow that sticks in RECONNECT or FADE is a second failure of its bank, and in its own
self-check fails that check; the suspect channel's own modulator sticking during its own sequence only sets its bit. -/
def stuckAct (m : Nat) (s : State) : State :=
  if m < 12 then severeStop 4 s
  else if m ≥ 63 then raise 1 5 s
  else if m ≥ 60 then
    let x := getShadow s (m - 60)
    match x.st with
    | .rotate => retire (m - 60) s
    | .reconnect => severeStop 3 s
    | .fade => severeStop 3 s
    | .substituted => severeStop 3 s
    | _ => s
  else
    let b := (m - 12) / 16
    let j := (m - 12) % 16
    let x := getShadow s b
    match x.st with
    | .rotate => declareSuspect b j false s
    | .selfcheck => if x.mirror.toNat == j then s else severeStop 3 s
    | .reconnect => if x.mirror.toNat == j then s else severeStop 3 s
    | .fade => if x.mirror.toNat == j then s else severeStop 3 s
    | _ => severeStop 3 s

/-- MODULATOR_STUCK (R77, R79): during a calibration of its bank it is acted on at the turn boundary after. -/
def execModulatorStuck (m : Nat) (s : State) : Out :=
  .next (if m ≥ 65 || !s.dec.run || !modOn s m || bit s.afe.stuck m then s
    else
      let s1 := { s with afe.stuck := setBit s.afe.stuck m true }
      if groupBusy s (modGroup m) then { s1 with afe.stuckWait := s1.afe.stuckWait ++ [m] } else stuckAct m s1)

/-- Stuck detections that waited for a calibration act at the turn boundary after it (R79). -/
def stuckTurn (s : State) : State :=
  let due := s.afe.stuckWait.filter (fun m => !groupBusy s (modGroup m))
  due.foldl (fun t m => stuckAct m t) { s with afe.stuckWait := s.afe.stuckWait.filter (fun m => groupBusy s (modGroup m)) }

/-! ### Trip comparators (R81-R86) -/

def tripCfgOf (t : TripCfg) (k : Nat) : W32 := tgetD t.cfg k 0
def tripEn (t : TripCfg) (k : Nat) : Bool := bit (tripCfgOf t k) 31
def tripMap (t : TripCfg) (k : Nat) : W16 := tgetD t.map k 0

/-- The OR of the asserted comparators that map to TRIPn (R83). -/
def tripOr (s : State) (n : Nat) : Bool :=
  (List.range 48).any (fun k => bit s.afe.asserted k && tripEn s.afe.trip k && bit (tripMap s.afe.trip k) n)

/-- The trip record of R86 and R306. -/
def tripRec (st : Stamp) (n kind : Nat) (s : State) : State :=
  logRec 0x0020 st (addrBytes s 0 ++ le 1 n ++ le 1 kind ++ zeros 2 ++ le 6 s.afe.src.toNat ++ zeros 2) s

/-- TRIPn follows R83 at the present instant; records carry `st`. -/
def tripBall (st : Stamp) (at_ : Int) (s : State) (n : Nat) : State :=
  let note (u : State) : State := if bit (capOwner u).tmask n then noteCond 3 at_ st.wheel u else u
  let o := tripOr s n
  if bit s.afe.trip.latch n then
    let set := o && !bit s.afe.latched n
    let s1 := { s with afe.latched := setBit s.afe.latched n (o || bit s.afe.latched n),
                       afe.level := setBit s.afe.level n (o || bit s.afe.latched n || bit s.afe.stretch n) }
    if set then tripRec st n 0 (note s1) else s1
  else
    let was := bit s.afe.level n
    let now := o || bit s.afe.latched n || bit s.afe.stretch n
    let rise := now && !was
    let s1 := { s with afe.level := setBit s.afe.level n now, afe.stretch := setBit s.afe.stretch n (rise || bit s.afe.stretch n) }
    if rise then tripRec st n 1 (note s1) else s1

def tripAll (st : Stamp) (at_ : Int) (s : State) : State := (List.range 16).foldl (tripBall st at_) s

/-- The delay of a crossing in 10^-9 slot clocks (R86, R130): 130.345 ns and (max(q, 1) + 1) slot clocks. -/
def tripDelay (s : State) (k : Nat) : Nat :=
  130345 * 24576 + (max (fld (tripCfgOf s.afe.trip k) 26 24) 1 + 1) * 10 ^ 9

/-- The stamp of a crossing, and the first slot clock at or after it (R86, R130). -/
def tripStamp (s : State) (k : Nat) : Stamp := stampBackQ s (nowStamp s) (tripDelay s k) (10 ^ 9)
def tripSlot (s : State) (k : Nat) : Int := s.slot - ((tripDelay s k / 10 ^ 9 : Nat) : Int)

/-- The qualifier lets a comparator through: at once for q = 0, else after q consecutive asserted samples of the slot
clock (R82). -/
def qualified (s : State) (k samples : Nat) : Bool := samples ≥ fld (tripCfgOf s.afe.trip k) 26 24

/-- TRIP_COMPARATOR_ASSERT (R81-R83, R86): comparator k has been asserted on the last `samples` slot clocks, and asserts
after its qualifier when they are enough. -/
def execTripComparatorAssert (k samples : Nat) (s : State) : Out :=
  .next (if k ≥ 48 || !tripEn s.afe.trip k || !qualified s k samples then s
    else tripAll (tripStamp s k) (tripSlot s k) { s with afe.asserted := setBit s.afe.asserted k true, afe.src := setBit s.afe.src k true })

/-- TRIP_COMPARATOR_RELEASE (R81, R83). -/
def execTripComparatorRelease (k : Nat) (s : State) : Out :=
  .next (if k ≥ 48 then s else tripAll (nowStamp s) s.slot { s with afe.asserted := setBit s.afe.asserted k false })

/-- TRIP_STRETCH_END (R83): 1 µs after the rise of a non-latching TRIPn. -/
def execTripStretchEnd (n : Nat) (s : State) : Out :=
  .next (if n ≥ 16 then s else tripBall (nowStamp s) s.slot { s with afe.stretch := setBit s.afe.stretch n false } n)

/-- TRIP_CONFIG_APPLY (R83, R87). -/
def execTripConfigApply (s : State) : Out :=
  .next (match s.afe.tripNext with
    | none => s
    | some c =>
      let keep := (List.range 48).foldl (fun (w : W48) k => if tripEn c k then w else setBit w k false) s.afe.asserted
      tripAll (nowStamp s) s.slot { s with afe.trip := c, afe.tripNext := none, afe.asserted := keep })

/-- The clear of R83 and R357: the LATCHED bits of a mask, and the sources of comparators no longer asserted. -/
def tripClear (mask : W16) (s : State) : State :=
  let latched := (List.range 16).foldl (fun (w : W16) n =>
    if bit mask n && !(bit s.afe.trip.latch n && tripOr s n) then setBit w n false else w) s.afe.latched
  tripAll (nowStamp s) s.slot { s with afe.latched := latched, afe.src := s.afe.asserted }

/-- TRIP_CLEAR (R357). -/
def execTripClear (r : Req) (s : State) : Out :=
  ring0 0x04 (· == 4) r s (fun _ s =>
    let mask := rd r.buf 0 2
    if mask = 0 || !zerosAt r.buf 2 2 then .fail statusRange s
    else .done statusOk (tripClear (BitVec.ofNat 16 mask) s))

/-! ### Channel configuration (R87, R139) -/

/-- A channel's accepted record, once it is written, takes effect: EN, GAIN, TYPE, FS and GCAL together, for the turn that
begins; the wheel samples of the turn before that are still to be written keep the record before (R139). While its group is
held by a bank calibration the change waits for the release (R216). -/
def chanApply (c : Nat) (s : State) : State :=
  match tget s.pnt.chanNext c with
  | none => s
  | some x =>
    if unwritten s (nvKey .channel c) || (s.cal.held && s.cal.group.toNat == modGroup c) then s
    else
      let old := s.afe.chan
      let new := cfgSet c x.setup old
      let gain := cfgGain old c != cfgGain new c
      let en := cfgEn old c != cfgEn new c
      let typ := cfgType old c != cfgType new c
      let s2 := { s with
        afe.chan := new
        pnt := { s.pnt with
          chan := tput s.pnt.chan c x, chanB := tput s.pnt.chanB c x, chanNext := tdel s.pnt.chanNext c
          chanWas := tput s.pnt.chanWas c (turnOf s.whl.pos, getChan s c, tgetD s.pnt.chanB c Init.chanRec) } }
      let s3 := if gain || en || typ then settleNow [alignSrc s2 c] s2 else s2
      let s4 := if gain || en then writeCodes [c] s3 else s3
      if c < 12 then s4
      else
        let b := (c - 12) / 16
        let sh := getShadow s4 b
        if sh.st == .rotate && sh.mirror.toNat == (c - 12) % 16 && (gain || en) then
          startDwell b (if cfgEn new c then some sh.mirror.toNat else nextMirror s4 b sh.mirror.toNat) s4
        else if sh.st == .rotate && en && cfgEn new c && !chanEn s4 (mirrorCh b sh) then
          startDwell b (nextMirror s4 b sh.mirror.toNat) s4
        else if gain && (servedBy s4 c).isSome then writeCodes [60 + b] s4
        else s4

/-- CHANNEL_CONFIG_APPLY (R87): every accepted channel record at the turn boundary. -/
def execChannelConfigApply (s : State) : Out := .next ((s.pnt.chanNext.map (·.1)).foldl (fun t c => chanApply c t) s)

/-- CHAN_CAL_EFFECT (R139): the accepted record of one channel. -/
def execChanCalEffect (c : Nat) (s : State) : Out := .next (chanApply c s)

/-! ### Register images -/

def shstNum : ShSt → Nat
  | .rotate => 0
  | .selfcheck => 1
  | .reconnect => 2
  | .fade => 3
  | .substituted => 4
  | .retired => 5
  | .paused => 6

def shstatImage (x : ShadowMod) : W32 :=
  BitVec.ofNat 32 (x.subst.toNat * 2 ^ 16 + shstNum x.st * 2 ^ 12 + x.disagree.toNat * 2 ^ 8 + x.dwell.toNat * 16 + x.mirror.toNat)

def axstatImage (s : State) : W32 :=
  let a := getMux s 0
  let b := getMux s 1
  BitVec.ofNat 32 (bitAt b.settle 11 + b.cur.toNat * 2 ^ 8 + bitAt a.settle 3 + a.cur.toNat)

def clkstatImage (s : State) : W32 :=
  let a := s.afe
  BitVec.ofNat 32 (bitAt a.port 4 + bitAt (bit a.rclk (if a.port then 1 else 0)) 3 + bitAt a.hold 2 + bitAt a.ringSrc 1
    + bitAt a.mpllLock 0)

end Sys2Proof.Machine
end

