-- ==== Sys2Proof/Machine/Optical.lean ====
section
/-!
DEFINITION. The optical readout port (R246-R249): sign-on, identification, option, data lines and the session record.
-/
namespace Sys2Proof.Machine

/-! ### Characters -/

/-- Decimal digits of a number, at least `n` of them. -/
def decN : Nat → Nat → List Byte
  | 0, _ => []
  | n + 1, v => decN n (v / 10) ++ [BitVec.ofNat 8 (0x30 + v % 10)]

/-- A number in decimal without leading zeros, below 10^20. -/
def dec (v : Nat) : List Byte :=
  match (decN 20 v).dropWhile (· == 0x30) with
  | [] => [0x30]
  | l => l

def crlf : List Byte := [0x0D, 0x0A]

/-- Characters of a string of ASCII codes. -/
def chars (l : List Nat) : List Byte := l.map (BitVec.ofNat 8)

/-- Block check character: the exclusive or of what follows STX up to ETX (log entry 22, PRESUMED). -/
def bcc (l : List Byte) : Byte := l.foldl (· ^^^ ·) 0

/-- Digits with a point before the last `d` of them. -/
def pointed (n d v : Nat) : List Byte :=
  let t := decN (max n d) v
  if d = 0 then t else t.take (t.length - d) ++ [0x2E] ++ t.drop (t.length - d)

/-! ### Requests -/

/-- The port works: both balls assigned, port enabled, METERING (R246). -/
def optWorks (s : State) : Bool :=
  metering s && s.trf.optEn && s.pin.fb.any (fun b => b.2.func == fnOptTx) && s.pin.fb.any (fun b => b.2.func == fnOptRx)

def isDigit (b : Byte) : Bool := 0x30 ≤ b.toNat && b.toNat ≤ 0x39
def digitsVal (l : List Byte) : Nat := l.foldl (fun a b => 10 * a + (b.toNat - 0x30)) 0

/-- An address "k-p" in decimal; absent names ring 0 and position 0 (R247). -/
def optAddr (l : List Byte) : Option (Nat × Nat) :=
  if l.isEmpty then some (0, 0)
  else
    let a := l.takeWhile isDigit
    let b := l.drop (a.length + 1)
    if !a.isEmpty && a.length ≤ 3 && !b.isEmpty && b.length ≤ 3 && ((l.drop a.length).take 1).all (· == 0x2D) then
      if b.all isDigit then some (digitsVal a, digitsVal b) else none
    else none

/-- The address of a well-formed sign-on request "/?" [address] "!" CR LF. -/
def optRequestAddr (c : List Byte) : Option (Nat × Nat) :=
  if c.take 2 == chars [0x2F, 0x3F] && c.drop (c.length - 3) == chars [0x21, 0x0D, 0x0A] && c.length ≥ 5 then
    optAddr ((c.take (c.length - 3)).drop 2)
  else none

/-- Where an address leads on this chip (R247): on a worker and a standalone chip only its own. -/
def optDest (s : State) (a : Nat × Nat) : Dest :=
  if a = (0, 0) then .own
  else if isManager s && a.1 ≤ 3 && a.2 ≤ 127 then addrCheck s a.1 a.2
  else .refused statusRange

/-- The session record on Ring 12 (R249); the 65th waiting record drops the oldest. -/
def optRecord (flags lines : Nat) (s : State) : State :=
  let o := s.trf.opt
  let body := le 4 (if isWorker s then chipAddr s 0 else o.ring * 2 ^ 15 + o.pos * 2 ^ 8) ++ le 2 flags ++ le 1 o.rate ++ [0]
    ++ le 4 lines ++ le 4 ((s.slot - o.at_) / msSlots) ++ zeros 8
  let s1 := deliverRec 12 ⟨0x0094, s.trf.optSeq, o.start, body⟩ { s with trf.optSeq := s.trf.optSeq + 1 }
  let drop1 (t : State) : State := { t with trf.optDrop := satInc t.trf.optDrop }
  let s2 :=
    if isWorker s1 then
      let mine := s1.coil.w.report.filter (fun p => p.1 == 12)
      if mine.length > 64 then
        drop1 { s1 with coil.w.report := s1.coil.w.report.filter (fun p => p.1 != 12) ++ mine.drop 1 }
      else s1
    else if (getRing s1 12).queue.length > 64 then drop1 (modRing 12 (fun r => { r with queue := r.queue.drop 1 }) s1)
    else s1
  { s2 with trf.opt := { s2.trf.opt with st := .idle, rate := 0 } }

/-- OPT_REQUEST (R246, R247): a valid request with an address that is not refused opens a session. -/
def execOptRequest (c : List Byte) (s : State) : Out :=
  .next (if !optWorks s || s.trf.opt.st != .idle then s
    else match optRequestAddr c with
      | none => s
      | some a =>
        let ok := match optDest s a with
          | .refused st => st == statusUnavailable
          | _ => true
        if ok then
          { s with trf.optSessions := s.trf.optSessions + 1, trf.opt := ⟨.ident, a.1, a.2, 0, nowStamp s, s.slot, s.trf.maxbaud⟩ }
        else s)

/-- A session whose port has ceased to work ends without an answer: outside METERING with nothing (R246, R493), with the
port disabled as a refused session (log entry 22). -/
def optBroken (s : State) : State :=
  if metering s then optRecord 4 0 s else { s with trf.opt := { s.trf.opt with st := .idle, rate := 0 } }

/-- OPT_IDENT_SEND (R246): "/IDM" Z "KQ6048" CR LF. -/
def execOptIdentSend (s : State) : Out :=
  .next (if s.trf.opt.st == .ident then
    if !optWorks s then optBroken s
    else emit (.optical (chars [0x2F, 0x49, 0x44, 0x4D] ++ [BitVec.ofNat 8 (0x30 + s.trf.opt.z.toNat)]
        ++ chars [0x4B, 0x51, 0x36, 0x30, 0x34, 0x38] ++ crlf)) { s with trf.opt.st := .option }
    else s)

/-- OPT_ACK (R246): ACK '0' Z' '0' CR LF with Z' at most Z; anything else ends the session without answer. -/
def execOptAck (c : List Byte) (s : State) : Out :=
  .next (if s.trf.opt.st != .option then s
    else if !optWorks s then optBroken s
    else
      let z := (nth c 2 0).toNat
      let good := c.length == 6 && nth c 0 0 == 0x06 && nth c 1 0 == 0x30 && nth c 3 0 == 0x30 && c.drop 4 == crlf
        && 0x30 ≤ z && z - 0x30 ≤ s.trf.opt.z.toNat
      if good then { s with trf.opt.st := .readout, trf.opt.rate := z - 0x30 } else optRecord 4 0 s)

/-! ### Data lines (R248) -/

/-- A local time as YYMMDDhhmm. -/
def localStamp (s : State) (u : Nat) : List Byte :=
  let x := localAt s s.trf.active u
  decN 2 (x.y % 100).toNat ++ decN 2 x.m ++ decN 2 x.d ++ decN 2 (x.t / 3600) ++ decN 2 (x.t / 60 % 60)

/-- Unit of an energy quantity and of a demand quantity. -/
def energyUnit (q : Nat) : List Byte :=
  if q ≤ 1 then chars [0x6B, 0x57, 0x68] else if q ≤ 5 then chars [0x6B, 0x76, 0x61, 0x72, 0x68]
  else chars [0x6B, 0x56, 0x41, 0x68]
def demandUnit (q : Nat) : List Byte := if q ≤ 1 then chars [0x6B, 0x57] else chars [0x6B, 0x56, 0x41]

/-- Column of a demand quantity among the maxima: A+, A−, S+. -/
def maxCol (q : Nat) : Nat := if q = 6 then 2 else q

/-- "(" value "*" unit ")" of an energy count of a point (R156). -/
def energyText (d : PDef) (q count : Nat) : List Byte :=
  [0x28] ++ pointed d.digits (6 - d.exp) (count / 10 ^ d.exp % 10 ^ d.digits) ++ [0x2A] ++ energyUnit q ++ [0x29]

/-- A maximum in W as kW or kVA with three decimals. -/
def maxText (q mw : Nat) : List Byte :=
  let w := mw / 1000
  [0x28] ++ dec (w / 1000) ++ [0x2E] ++ decN 3 (w % 1000) ++ [0x2A] ++ demandUnit q ++ [0x29]

/-- The value part of a readout item, for the live registers (history 0) or a snapshot. -/
def itemText (s : State) (b : List Byte) (i : Nat) : List Byte :=
  let p := rd b 8 1
  let q := rd b 9 1
  let r := rd b 10 1
  let h := rd b 11 1
  let t := rd b 12 1
  let err : List Byte := chars [0x28, 0x45, 0x52, 0x52, 0x4F, 0x52, 0x29]
  let stampAt (u : Nat) : List Byte := [0x28] ++ localStamp s (fullSec s (BitVec.ofNat 32 u)) ++ [0x29]
  match (getPt s p).dfn with
  | none => err
  | some d =>
    if h = 0 then
      let m := tgetD (getInt s p).maxima (t * 3 + maxCol q) ⟨0, 0⟩
      if r = 0 then energyText d q (nth (counts (getPt s p)) q 0)
      else if r ≤ 8 then energyText d q (nth (nth (getRegs s p) (r - 1) []) q 0 / 2 ^ 32)
      else if r = 9 then maxText q m.value.toNat
      else stampAt (if m.value == 0 then Config.freeNat (s.free + i) % 2 ^ 32 else m.sec.toNat)
    else match (snapsOf s p)[h - 1]? with
      | none => err
      | some (_, x) =>
        if r = 0 then energyText d q (rd x (44 + 6 * q) 6)
        else if r ≤ 8 then energyText d q (rd x (92 + 48 * q + 6 * (r - 1)) 6)
        else if r = 9 then maxText q (rd x (188 + 32 * maxCol q + 4 * (t - 1)) 4)
        else
          let age := rd x (284 + 2 * (t - 1)) 2
          stampAt (if age = 0xFFFF then Config.freeNat (s.free + i) % 2 ^ 32 else rd x 36 4 - 60 * age)

/-- One data line: OBIS code and value. -/
def itemLine (s : State) (e : Nat) : List Byte :=
  let b := entry s s.trf.active e
  let f := rd b 7 1
  dec (rd b 2 1) ++ [0x2D] ++ dec (rd b 3 1) ++ [0x3A] ++ dec (rd b 4 1) ++ [0x2E] ++ dec (rd b 5 1) ++ [0x2E]
    ++ dec (rd b 6 1) ++ (if f = 255 then [] else [0x2A] ++ dec f) ++ itemText s b e ++ crlf

/-- The chip's own data lines, in ascending entry order. -/
def ownLines (s : State) : List (List Byte) :=
  ((region 2882 256).filter (fun e => entType (entry s s.trf.active e) == 0x0B)).map (itemLine s)

/-- The single line "(UNAVAILABLE)" (R247). -/
def unavailable : List (List Byte) :=
  [chars [0x28, 0x55, 0x4E, 0x41, 0x56, 0x41, 0x49, 0x4C, 0x41, 0x42, 0x4C, 0x45, 0x29] ++ crlf]

/-- OPT_READOUT (R246-R249): STX, the lines, "!" CR LF, ETX and the block check character; then the record. -/
def execOptReadout (s : State) : Out :=
  .next (if s.trf.opt.st != .readout then s
    else if !optWorks s then optBroken s
    else
      let o := s.trf.opt
      let (lines, flags) : List (List Byte) × Nat := match optDest s (o.ring, o.pos) with
        | .own => (ownLines s, 1)
        | .worker k p => match Config.workerLines k p s.free with
          | some l => (l, 1)
          | none => (unavailable, 9)
        | .refused _ => (unavailable, 9)
      let text := lines.flatten ++ [0x21] ++ crlf ++ [0x03]
      optRecord flags lines.length (emit (.optical ([0x02] ++ text ++ [bcc text])) { s with free := s.free + 3200 }))

/-- OPT_TIMEOUT (R246): the gap ends the session without answer. -/
def execOptTimeout (s : State) : Out :=
  .next (if s.trf.opt.st != .option then s else if !optWorks s then optBroken s else optRecord 2 0 s)

end Sys2Proof.Machine
end

