-- ==== Sys2Proof/Machine/Hif.lean ====
section
/-!
DEFINITION. The host interface: link, resets and power states (R334, R362), ring set-up (R338), doorbells (R339),
acceptance (R343-R345), completions (R341), delivery (R347, R348), replays (R356), stream blocks (R359).
-/
namespace Sys2Proof.Machine

/-! ### Ring set-up (R338) -/

/-- Rings that only deliver records, and rings whose requests may be chained. -/
def receiveRing (r : Nat) : Bool := (1 ≤ r && r ≤ 7) || r == 10 || r == 12 || r == 14
def chainRing (r : Nat) : Bool := r == 8 || r == 9 || r == 13

/-- Records of a ring that its buffers hold and no completion has delivered, in order (R348). -/
def undelivered (r : Ring) : List QRec := r.acc.flatMap (·.recs) ++ r.bufs.flatMap (·.recs)

/-- A set-up write is refused as a whole (R338). -/
def cfgRefuse (n : Nat) (s : State) : State := raise 11 0 (modRing n (fun r => { r with cfgErr := true }) s)

/-- A value of HIF_RCFG is refused: SIZE outside 4 to 16 or COAL above 1,000. -/
def rcfgBad (v : W32) : Bool := fld v 4 0 < 4 || fld v 4 0 > 16 || fld v 25 16 > 1000

/-- An address that enabling refuses: 0, or an array across the 2^64 boundary. -/
def addrsBad (r : Ring) (size : Nat) : Bool :=
  r.base == 0 || r.cmp == 0 || r.shd == 0 || r.base.toNat + 32 * 2 ^ size > 2 ^ 64 || r.cmp.toNat + 16 * 2 ^ size > 2 ^ 64

/-- A ring stops fetching; posted buffers without a completion are given up and their records wait again (R338). -/
def disableRing (r : Ring) : Ring :=
  let ends (a : Acc) : Bool := !(r.bufs.any (fun b => b.idx == a.idx))
  let acc := r.acc.filter ends
  { r with en := false, acc := acc, bufs := [], queue := r.bufs.flatMap (·.recs) ++ r.queue, active := !acc.isEmpty }

/-- Enabling: head and tail 0, and 0 written to the head shadow (R338). -/
def enableRing (n : Nat) (v : W32) (s : State) : State :=
  emit (.headShadow n 0) (modRing n (fun r => { r with
    en := true, active := true, dmaErr := false, head := 0, tail := 0, fetched := 0,
    size := BitVec.ofNat 5 (fld v 4 0), coal := BitVec.ofNat 10 (fld v 25 16) }) s)

/-- A write of HIF_RCFG of the selected ring (R338). Setting EN before an earlier disable has completed has no effect
(log entry 23). -/
def rcfgWrite (v : W32) (s : State) : State :=
  let n := s.hif.ridx.toNat
  let r := getRing s n
  if isWorker s then s
  else if rcfgBad v then cfgRefuse n s
  else if r.en then (if bit v 31 then s else modRing n disableRing s)
  else if bit v 31 then
    if r.active then s
    else if addrsBad r (fld v 4 0) then cfgRefuse n s
    else enableRing n v s
  else modRing n (fun r => { r with size := BitVec.ofNat 5 (fld v 4 0), coal := BitVec.ofNat 10 (fld v 25 16) }) s

/-- RING_ENABLE: a write with EN set. -/
def execRingEnable (v : W32) (s : State) : Out := .next (rcfgWrite (v ||| 0x80000000) s)
/-- RING_DISABLE: a write with EN clear. -/
def execRingDisable (v : W32) (s : State) : Out := .next (rcfgWrite (v &&& 0x7FFFFFFF) s)
/-- RING_CFG_WRITE. -/
def execRingCfgWrite (v : W32) (s : State) : Out := .next (rcfgWrite v s)

/-! ### Doorbells (R339) -/

/-- DOORBELL_WRITE: valid, ignored with DB_ERR, or of no effect. -/
def execDoorbellWrite (n : Nat) (t : W32) (s : State) : Out :=
  let r := getRing s n
  let room := 2 ^ r.size.toNat
  .next (if isWorker s || n > 15 then s
    else if r.en && (t - r.head).toNat ≤ room && (t - r.tail).toNat ≤ room then
      modRing n (fun r => { r with tail := t }) s
    else raise 11 1 (modRing n (fun r => { r with dbErr := true }) s))

/-! ### Acceptance (R343-R345, R361) -/

/-- The opcode belongs to the ring's set (R349, R350). -/
def opcodeOk (n op : Nat) : Bool :=
  if receiveRing n then op == 0
  else match n with
    | 0 => [1, 2, 3, 4, 5, 6, 0x10, 0x11, 0x12, 0x13, 0x14, 0x18, 0x20, 0x21, 0x22, 0x23, 0x24, 0x28, 0x29, 0x2A, 0x2B,
        0x30, 0x31, 0x38].contains op
    | 8 => 0x80 ≤ op && op ≤ 0x83
    | 9 => 0x40 ≤ op && op ≤ 0x48
    | 11 => 0x60 ≤ op && op ≤ 0x62
    | 13 => 0x90 ≤ op && op ≤ 0x92
    | 15 => 0xA0 ≤ op && op ≤ 0xA2
    | _ => false

/-- Inline bytes that must be zero (R340, R404). -/
def inlineOk (n op : Nat) (b : List Byte) : Bool :=
  if n = 0 then zerosAt b 4 12 else if n = 8 && op = 0x80 then zerosAt b 8 8 else zerosAt b 0 16

/-- The first checks of a descriptor (R343). -/
def descBad (n : Nat) (d : Desc) : Option W16 :=
  firstBad [(!opcodeOk n d.op.toNat, statusBadOpcode),
    (fld d.flags 7 2 != 0 || (bit d.flags 1 && !chainRing n) || !inlineOk n d.op.toNat d.inl, statusRange),
    (d.len == 0, statusBadLength),
    (d.addr == 0 || d.addr.toNat + d.len - 1 > 2 ^ 64 - 1, statusRange)]

/-- The descriptors of the next request: the first one and, where CHAIN joins them, those up to the last of the chain;
none while the chain is cut off by the tail (R344). -/
def takeChain : List Desc → Option (List Desc × List Desc)
  | [] => none
  | d :: t =>
    if bit d.flags 1 then (takeChain t).map (fun x => (d :: x.1, x.2)) else some ([d], t)

/-- The status with which a request ends at acceptance: a failed check, a bad chain, or a ring that HOLD does not
serve (R343, R344, R361). -/
def chainBad (s : State) (n : Nat) (c : List Desc) : Option W16 :=
  match c.findSome? (descBad n), c.head? with
  | some st, _ => some st
  | none, some d =>
    if c.length > 8 || c.any (fun x => x.op != d.op || x.tag != d.tag || x.inl != d.inl) then some statusBadLength
    else if s.boot.st == .hold && n != 8 && n != 9 && !receiveRing n then some statusNotReady
    else none
  | none, none => none

/-- Accepted requests that have no completion yet, against the 32 of R337. -/
def outstanding (n : Nat) (r : Ring) : Nat :=
  if receiveRing n then 0
  else if n == 8 || n == 15 then (r.acc.filter (fun a => n == 8 || !(r.bufs.any (fun b => b.idx == a.idx)))).length
  else (r.acc.filter (fun a => a.first == a.idx)).length

/-- The accepted list grows by one chain; a posted receive buffer is held (R345, R347). -/
def pushChain (s : State) (n : Nat) (c : List Desc) (r : Ring) : Ring :=
  let bad := chainBad s n c
  let first := r.fetched
  let accs := (List.zip (List.range c.length) c).map (fun (x : Nat × Desc) =>
    (⟨first + BitVec.ofNat 32 x.1, x.2.tag, bit x.2.flags 0, x.2.len, first, bad.map (fun st => ⟨st, 0, 0, []⟩), []⟩ : Acc))
  let bufs : List RxBuf :=
    if bad.isNone && (receiveRing n || (n == 15 && c.any (fun d => d.op == 0xA2))) then
      c.map (fun d => ⟨first, d.tag, bit d.flags 0, d.len, []⟩)
    else []
  { r with acc := r.acc ++ accs, bufs := r.bufs ++ bufs, fetched := first + BitVec.ofNat 32 c.length }

/-- The next request of a ring: CHAIN joins descriptors on Rings 8, 9 and 13 only (R343, R344). -/
def takeReq (n : Nat) (ds : List Desc) : Option (List Desc × List Desc) :=
  if chainRing n then takeChain ds
  else match ds with
    | [] => none
    | d :: t => some ([d], t)

/-- What a request counts against the 32 of R337: its descriptors on Ring 8, else one. -/
def queueNeed (n : Nat) (c : List Desc) : Nat := if n == 8 then c.length else 1

/-- Accept request after request while the queue has room. -/
def acceptAll (s : State) (n : Nat) : Nat → List Desc → Ring → Ring
  | 0, _, r => r
  | fuel + 1, ds, r =>
    match takeReq n ds with
    | none => r
    | some (c, rest) =>
      if outstanding n r + queueNeed n c > 32 && !receiveRing n then r else acceptAll s n fuel rest (pushChain s n c r)

/-- The application cores serve the rings; in fail-stop from step 5 on the hardware does (R19, R478). -/
def coresServe (s : State) : Bool := s.cpx.acp0 || s.cpx.acp1 || s.flt.phase == .safe

/-- Rings that are served: Ring 8 alone until FIRED, every ring from then on; in HOLD Rings 8 to 10, and the other request
rings, whose requests complete NOT_READY (R361, R415); in fail-stop the receive rings, and Ring 8, whose requests complete
NOT_READY (R401, R478). Between a watchdog's expiry and the end of the restart no ring is served: records and descriptors
wait (R19). -/
def ringServed (s : State) (n : Nat) : Bool :=
  if s.boot.fired then
    coresServe s && (n == 8 || (if s.boot.st == .hold then n == 10 || !receiveRing n else receiveRing n || s.flt.phase != .safe))
  else n == 8

/-- The device may use DMA on a ring. -/
def dmaOk (s : State) (n : Nat) : Bool := s.hif.linkUp && !s.hif.d3 && !isWorker s && n ≤ 15

/-- DESCRIPTOR_ACCEPT: posted descriptors, in index order, as many as the queue allows. -/
def execDescriptorAccept (n : Nat) (descs : List Desc) (s : State) : Out :=
  let r := getRing s n
  .next (if dmaOk s n && r.en && !r.dmaErr && ringServed s n then
      let posted := descs.take (r.tail - r.fetched).toNat
      setRing n (acceptAll s n posted.length posted r) s
    else s)

/-! ### Delivery (R341, R347, R348) -/

/-- A buffer ends: its accepted entry takes the status and its records. -/
def endBuf (b : RxBuf) (d : Done) (r : Ring) : Ring :=
  { r with
    acc := r.acc.map (fun a => if a.idx == b.idx then { a with done := some d, recs := b.recs } else a)
    bufs := r.bufs.filter (fun x => x.idx != b.idx) }

/-- Completion of a buffer with the records in it. -/
def okDone (b : RxBuf) : Done :=
  let data := b.recs.flatMap (·.bytes)
  ⟨statusOk, data.length, (b.recs.head?.map (·.seq)).getD 0, data⟩

/-- The first buffer takes whole records in queue order until the next one does not fit or the queue is empty (R347). -/
def fillBuf (b : RxBuf) : List QRec → RxBuf × List QRec
  | [] => (b, [])
  | q :: t =>
    if queueBytes b.recs + q.bytes.length ≤ b.len then fillBuf { b with recs := b.recs ++ [q] } t else (b, q :: t)

/-- The first posted buffer of a ring is filled, and completed where R347 completes it. -/
def rxStep (r : Ring) : Ring :=
  match r.bufs with
  | [] => r
  | b :: rest =>
    let (b1, q1) := fillBuf b r.queue
    let r1 := { r with bufs := b1 :: rest, queue := q1 }
    match q1 with
    | q :: _ =>
      if b1.recs.isEmpty then endBuf b1 ⟨0x0001, q.bytes.length, 0, []⟩ r1
      else endBuf b1 (okDone b1) r1
    | [] => if r.coal == 0 && !b1.recs.isEmpty then endBuf b1 (okDone b1) r1 else r1

/-- A posted receive buffer that was not yet fetched joins the accepted list. -/
def postBuf (s : State) (n : Nat) (d : Desc) (r : Ring) : Ring :=
  if r.tail == r.fetched then r else pushChain s n [d] r

/-- Size of an instant of the stream. -/
def instLen (x : Stream) : Nat := popCount x.mask * wordLen x.source

/-- A stream block of `k` instants of the store (R359, R198). -/
def streamBlock (s : State) (k : Nat) : List Byte :=
  let x := s.hif.stream
  let is_ := x.store.take k
  let data := is_.flatMap (·.bytes)
  let words := (List.range (data.length / max 1 (wordLen x.source))).map (fun i =>
    rd data (i * wordLen x.source) (wordLen x.source))
  let st := (is_.head?.map (·.stamp)).getD Stamp.zero
  let gap := is_.any (·.gap)
  let fl := (List.range 5).foldl (fun a i => a + bitAt (words.any (fun w => (wordFlags x.source w).testBit i)) i)
    (bitAt (x.source == 1 && is_.any (·.hold)) 5 + bitAt gap 15)
  le 4 s.pq.seq.toNat ++ le 2 0x0079 ++ le 2 (64 + data.length) ++ st.bytes ++ addrBytes s 0 ++ le 2 fl ++ [0xFF]
    ++ le 1 x.source ++ le 4 x.number.toNat ++ le 2 x.block.toNat ++ le 2 0 ++ le 8 x.mask.toNat ++ le 4 0 ++ le 4 0
    ++ le 4 ((is_.head?.map (fun (i : StrInst) => i.idx)).getD 0).toNat ++ le 4 is_.length ++ data

/-- The first stream buffer takes a block of at most `k` instants and completes. -/
def giveBlock (b : RxBuf) (k : Nat) (s : State) : State :=
  let data := streamBlock s k
  let s1 := modRing 15 (endBuf b ⟨statusOk, data.length, 0, data⟩) s
  { s1 with pq.seq := s1.pq.seq + 1,
            hif.stream := { s1.hif.stream with block := s1.hif.stream.block + 1, store := s1.hif.stream.store.drop k } }

/-- Whole instants that a buffer takes; no block is longer than the ring's largest record (R337; log entry 114). -/
def bufInsts (x : Stream) (b : RxBuf) : Nat := if instLen x = 0 then 0 else (min b.len 32832 - 64) / instLen x

/-- The first stream buffer is served: a full block while the stream runs, or what there is when COAL is 0; after a stop the block in progress goes
into the first buffer posted after the stop, and what it cannot hold is discarded (R359). -/
def streamStep (s : State) : State :=
  let x := s.hif.stream
  match (getRing s 15).bufs with
  | [] => s
  | b :: _ =>
    let k := bufInsts x b
    if x.run then
      (if k > 0 && (x.store.length ≥ k || (getRing s 15).coal == 0 && !x.store.isEmpty) then
        giveBlock b (min k x.store.length) s
      else s)
    else match x.stopAt with
      | some at_ =>
        if !x.store.isEmpty && (b.idx - at_).toNat < 2 ^ 31 then
          let s1 := giveBlock b (min k x.store.length) s
          { s1 with hif.stream.store := [] }
        else s
      | none => s

/-- RECEIVE_BUFFER_COMPLETE (R347). -/
def execReceiveBufferComplete (n : Nat) (d : Desc) (s : State) : Out :=
  let r := getRing s n
  .next (if dmaOk s n && r.en && !r.dmaErr && ringServed s n && (receiveRing n || n == 15) then
      let r1 := if n == 15 then r else postBuf s n d r
      if n == 15 then streamStep s else setRing n (rxStep r1) s
    else s)

/-- RECEIVE_COALESCE_EXPIRY (R347, R359): the first buffer, partly filled, completes. -/
def execReceiveCoalesceExpiry (n : Nat) (s : State) : Out :=
  let r := getRing s n
  .next (if dmaOk s n && r.en && !r.dmaErr && ringServed s n then
      match r.bufs with
      | [] => s
      | b :: _ =>
        if n == 15 then
          let x := s.hif.stream
          if x.run && !x.store.isEmpty && bufInsts x b > 0 then giveBlock b (min (bufInsts x b) x.store.length) s else s
        else if r.queue.isEmpty && !b.recs.isEmpty then setRing n (endBuf b (okDone b) r) s
        else s
    else s)

/-- Records of Ring 1 and of Ring 10 that have room: the requests that waited on them complete (R337). -/
def roomOf (n : Nat) : Nat := if n == 1 then 64 else 32

/-- Complete the requests whose result records have come into the first `k` of a queue. -/
def freeHolds (n : Nat) (s : State) : State :=
  let r := getRing s n
  let k := roomOf n - (undelivered r).length
  let done := (r.queue.take k).filterMap (·.hold)
  let s1 := setRing n { r with queue := (r.queue.take k).map (fun q => { q with hold := none }) ++ r.queue.drop k } s
  done.foldl (fun t x => complete x.1 x.2.status x.2.seq x.2.data t) s1

/-- A result record that its request waits on: the request completes at once while the ring has room for the record
(R337). -/
def pushResult (n : Nat) (seq : W32) (bytes : List Byte) (w : Waiter) (d : Done) (s : State) : State :=
  if isWorker s then complete w d.status d.seq bytes s
  else
    let r := getRing s n
    if (undelivered r).length + r.queue.length < roomOf n then
      complete w d.status d.seq d.data (deliver n ⟨seq, bytes, none, none⟩ s)
    else waitReq w (deliver n ⟨seq, bytes, none, some (w, d)⟩ s)

/-- What the delivery of a record does (R305, R195). -/
def delivered (n : Nat) (s : State) (q : QRec) : State :=
  if n == 5 then
    match q.log with
    | some x => if seqNewer (x + 1) s.nvs.mirror then { s with nvs.mirror := x + 1 } else s
    | none => s
  else if n == 7 && rd q.bytes 24 4 / 256 == chipAddr s 0 / 256 then capSegDone q.seq s
  else s

/-- The leading ended entries of the accepted list, and the rest. -/
def doneRun (l : List Acc) : List Acc × List Acc := (l.takeWhile (·.done.isSome), l.dropWhile (·.done.isSome))

/-- The completion of an ended entry. -/
def emitAcc (n : Nat) (s : State) (a : Acc) : State :=
  match a.done with
  | some d => emit (.completion n a.idx a.tag d.status d.len d.seq d.data) s
  | none => s

/-- COMPLETION_WRITE (R341): completions in descriptor order, the head shadow, then the vector once when a completion
carries IRQ; records in completed buffers are delivered. -/
def execCompletionWrite (n : Nat) (s : State) : Out :=
  let r := getRing s n
  let (run, rest) := doneRun r.acc
  .next (if !dmaOk s n || run.isEmpty then s
    else
      let s1 := setRing n { r with acc := rest, head := r.head + BitVec.ofNat 32 run.length,
                                   active := r.en || !rest.isEmpty } s
      let s2 := run.foldl (emitAcc n) s1
      let s3 := emit (.headShadow n (r.head + BitVec.ofNat 32 run.length)) s2
      let s4 := if run.any (·.irq) then sendVector n s3 else s3
      let s5 := (run.flatMap (·.recs)).foldl (delivered n) s4
      if n == 1 || n == 10 then freeHolds n s5 else s5)

/-- DMA_READ_ERROR (R363): the ring stops; what was being written is delivered again. -/
def execDmaReadError (n : Nat) (s : State) : Out :=
  let r := getRing s n
  .next (if !dmaOk s n || !r.en || r.dmaErr then s
    else
      let back := r.bufs.flatMap (·.recs)
      raise 11 2 (setRing n { r with dmaErr := true, queue := back ++ r.queue,
                                     bufs := r.bufs.map (fun b => { b with recs := [] }) } s))

/-! ### Resets and power states (R336, R362) -/

/-- A requester of the host that no longer waits for a completion. -/
def orphan (w : Waiter) : Waiter := if w.via == .host then { w with ring := 16 } else w
def orphanReq (r : SReq) : SReq := { r with w := orphan r.w }

def orphanOp : KeyOp → KeyOp
  | .change r => .change (orphanReq r)
  | .load r p => .load (orphanReq r) p
  | .attest r => .attest (orphanReq r)
  | .token w b => .token (orphan w) b

/-- Completions of accepted requests are discarded; the requests run to their ends (R362). -/
def orphanAll (s : State) : State :=
  { s with
    nvs.groups := s.nvs.groups.map (fun g => { g with waiter := g.waiter.map (fun x => (orphan x.1, x.2)) })
    cal.waiter := s.cal.waiter.map orphan
    rtc.staged := s.rtc.staged.map (fun x => { x with w := x.w.map orphan })
    boot.img.endWait := s.boot.img.endWait.map orphan
    coil.rings := s.coil.rings.map (fun p => (p.1, { p.2 with enumWaits := p.2.enumWaits.map orphan }))
    hif.fwd := s.hif.fwd.map (fun f => { f with w := orphan f.w })
    sgr.ops := s.sgr.ops.map orphanOp
    sgr.change := s.sgr.change.map (fun c => { c with r := orphanReq c.r })
    sgr.loads := s.sgr.loads.map (fun x => (orphanReq x.1, x.2)) }

/-- A ring after a reset of the function: undelivered records kept, drop counters kept (R348, R365). -/
def resetRing (r : Ring) : Ring :=
  { Init.ring with
    queue := ((undelivered r) ++ r.queue).map (fun q => { q with hold := none })
    drop := r.drop, dropSpan := r.dropSpan }

/-- The function returns to its reset values but for HIF_RSTCNT, HIF_RDROP and the records (R362, R365). -/
def hifReset (s : State) : State :=
  let s1 := orphanAll s
  { s1 with hif := { s1.hif with
      d3 := false, msixEn := false, intDis := false, ridx := 0, istat := 0, imask := 0, msix := [], pba := 0
      rings := s1.hif.rings.map (fun p => (p.1, resetRing p.2)) } }

/-- The transfer and the instruction SRAMs are cleared; an image refused before stays shown (R407, R410). -/
def dropImage (s : State) : State :=
  { s with boot.img := { Init.image with state := if s.boot.img.state == 3 then 3 else 0 }
           boot.id := 0, boot.lrel := 0, boot.arel := 0 }

/-- A transfer is dropped before FIRED, but for the image a running verification checks (R362, R417). -/
def dropTransfer (s : State) : State :=
  if s.boot.fired || s.boot.st == .verify || (s.boot.st == .hold && s.boot.img.endAcc) then s else dropImage s

/-- CLKREQn is driven low: from the end of POR while the function is not held in reset (R334, R24). -/
def clkreqLow (s : State) : Bool := !isWorker s && s.boot.st != .off && s.boot.st != .backup && s.boot.st != .por

/-- LINK_TRAINED (R334): not on a worker, whose PCIe core stays in reset, nor before the end of POR. -/
def execLinkTrained (speed5 : Bool) (s : State) : Out :=
  .next (if !clkreqLow s then s
    else { s with hif := { s.hif with linkUp := true, speed := speed5, perstLow := false,
                                      linkSlot := if s.hif.linkSlot.isSome then s.hif.linkSlot else some s.slot } })

/-- PERST_ASSERT (R362). -/
def execPerstAssert (s : State) : Out :=
  .next (if isWorker s then s
    else
      let s1 := dropTransfer (hifReset s)
      { s1 with hif := { s1.hif with linkUp := false, perstLow := true, linkDown := s1.hif.linkDown + 1 } })

/-- LINK_DOWN (R362, R364). -/
def execLinkDown (s : State) : Out :=
  .next (if isWorker s || !s.hif.linkUp then s
    else if s.boot.fired then
      let s1 := hifReset s
      raise 11 4 { s1 with hif := { s1.hif with linkUp := false, linkDown := s1.hif.linkDown + 1 } }
    else { s with hif := { s.hif with linkUp := false, linkDown := s.hif.linkDown + 1 } })

/-- D3HOT_ENTER (R362): no DMA and no messages; ring set-up kept. -/
def execD3hotEnter (s : State) : Out := .next (if isWorker s || !s.hif.linkUp then s else { s with hif.d3 := true })

/-- Pending MSI-X messages whose vectors are not masked are sent (R336). -/
def sendPending (s : State) : State :=
  (List.range 32).foldl (fun t v =>
    if t.hif.msixEn && bit t.hif.pba v && !bit (tgetD t.hif.msix v ⟨0, 0, 0, 1⟩).ctl 0 then
      emit (.msi v) { t with hif.pba := setBit t.hif.pba v false }
    else t) s

/-- D0_RETURN (R362): the rings resume where they stood. -/
def execD0Return (s : State) : Out := .next (if s.hif.d3 then sendPending { s with hif.d3 := false } else s)

/-- CONFIGURATION_REQUEST (R336): MSI-X Enable and Interrupt Disable. -/
def execConfigurationRequest (msix intDis : Bool) (s : State) : Out :=
  .next (if isWorker s || !s.hif.linkUp then s
    else
      let s1 := { s with hif := { s.hif with msixEn := msix, intDis := intDis } }
      if s1.hif.d3 then s1 else sendPending s1)

/-! ### Requests of this chapter -/

/-- COMMAND_FORWARD_TIMEOUT (R352): UNAVAILABLE. A Saggar request completes through its KEY route (R442). -/
def dropFwd (ring : Nat) (slot : W32) (s : State) : Option (Fwd × State) :=
  match s.hif.fwd.find? (fun f => f.w.ring == ring && f.w.slot == slot) with
  | none => none
  | some f => some (f, { s with hif.fwd := s.hif.fwd.filter (fun x => !(x.w.ring == ring && x.w.slot == slot)) })

/-- LOG_REPLAY (R356): retained records join Ring 5 behind the mirror's own. -/
def execLogReplay (r : Req) (s : State) : Out :=
  ring0 0x05 (· == 8) r s (fun _ s =>
    let n := rd r.buf 4 4
    if n = 0 || n > 16384 then .fail statusRange s
    else
      let first : W32 := BitVec.ofNat 32 (rd r.buf 0 4)
      .done statusOk ((List.range n).foldl (fun t i => match logAt s (first + BitVec.ofNat 32 i) with
        | some x => deliver 5 ⟨x.seq, x.bytes, none, none⟩ t
        | none => t) s))

/-- SNAP_REPLAY (R356): retained snapshots join Ring 4, oldest first. -/
def execSnapReplay (r : Req) (s : State) : Out :=
  ring0 0x06 (· == 4) r s (fun _ s =>
    let p := rd r.buf 0 2
    if !zerosAt r.buf 2 2 || (p != 0xFFFF && (p > 255 || (getPt s p).dfn.isNone)) then .fail statusRange s
    else
      let pts := if p = 0xFFFF then definedPts s else [p]
      .done statusOk (pts.foldl (fun t p => (snapsOf s p).reverse.foldl (fun t x =>
        deliver 4 ⟨BitVec.ofNat 32 (rd x.2 0 4), x.2, none, none⟩ t) t) s))

/-- STREAM_BUF (R359): a receive buffer for one block, of at least 64 bytes and one instant of the stream. -/
def execStreamBuf (r : Req) (s : State) : Out :=
  let w := reqWaiter r 15 0xA2
  let x := s.hif.stream
  .next (if !metering s then complete w statusNotReady 0 [] s
    else if r.buf.length < 64 + max 1 (instLen x) then complete w statusBadLength 0 []
      (modRing 15 (fun g => { g with bufs := g.bufs.filter (fun b => b.idx != r.slot) }) s)
    else
      let s1 := waitReq w s
      let g := getRing s1 15
      let s2 := if g.bufs.any (fun b => b.idx == r.slot) then s1
        else setRing 15 { g with bufs := g.bufs ++ [⟨r.slot, r.tag, r.irq, r.buf.length, []⟩] } s1
      streamStep s2)

end Sys2Proof.Machine
end

