-- ==== Sys2Proof/Machine/Coil.lean ====
section
/-!
DEFINITION. The Coil rings (R366-R396): frames and their authentication, links and wrapping, forwarding, enumeration,
link delay, beacons, status and time discipline. Commands, records and images stand in CoilMsg.lean.
-/
namespace Sys2Proof.Machine

/-! ### Frames (R373, R374, R385, R386) -/

/-- The class and type pairs of R374. -/
def pairOk (cls typ : Nat) : Bool :=
  match cls with
  | 0 => typ ≤ 5
  | 1 => typ ≤ 6
  | 2 => typ == 0
  | 3 => typ ≤ 1
  | _ => false

/-- A frame that its destination discards (R373): check, length, reserved fields, class and type, AUTH (R374). -/
def frameBad (f : Frame) : Bool :=
  let auth := bit f.flags 0
  f.check != crc32c (frameBody f) || f.plen > 2048 || f.plen != f.payload.length || fld f.flags 7 2 != 0 || f.rsv != 0
    || (!auth && (f.session != 0 || f.ctr != 0)) || !pairOk f.cls f.typ || auth != (f.cls == 1 || f.cls == 2)

def countCrc (s : State) : State := { s with coil.crc := satInc s.coil.crc }
def rejectTag (s : State) : State := raise 12 7 { s with coil.tagFail := satInc s.coil.tagFail }
def rejectReplay (s : State) : State := raise 12 7 { s with coil.replay := satInc s.coil.replay }

/-- The tag of an AUTH frame holds under a key (R385). -/
def tagOk (key : List Byte) (f : Frame) : Bool := f.tag == Config.gcmSeal key (frameNonce f) (frameAad f) []

/-- The payload of an ASSIGN and of a STATUS: bytes the manual leaves open (R376, R389), at most 2,048 of them (R373). -/
def assignPayload (a : Assign) : List Byte := (Config.assignBytes a).take 2048
def statusPayload (st : WStatus) : List Byte := (Config.statusBytes st).take 2048

/-- (session, counter) compared as a session first and then a counter (R386). -/
def ctrAfter (c : Ctr) : Option Ctr → Bool
  | none => true
  | some l => c.session.toNat > l.session.toNat || (c.session == l.session && c.ctr.toNat > l.ctr.toNat)

def frameCtr (f : Frame) : Ctr := ⟨f.session, f.ctr⟩

/-- A frame for this worker: its own position, or every worker of the ring. -/
def forWorker (s : State) (f : Frame) : Bool :=
  isWorker s && (f.dst == 0xFF || (s.coil.w.enumerated && f.dst == s.coil.w.pos.toNat))

/-- An operation under K_down: the tag of a received frame is checked. -/
def useDown (s : State) : State := { s with coil.w.dnUses := s.coil.w.dnUses + 1 }

/-- A worker takes an AUTH frame of a class and type under K_down, beyond the floor of its last exchange (R385, R386). -/
def workerAuth (cls typ : Nat) (f : Frame) (k : State → State) (s : State) : State :=
  if !forWorker s f || f.cls != cls || f.typ != typ then s
  else if frameBad f then countCrc s
  else match slotKey s 5 with
    | none => s
    | some key =>
      let s1 := useDown s
      if !tagOk key f then rejectTag s1
      else if !s.coil.w.enumerated || !ctrAfter (frameCtr f) s.coil.w.down then rejectReplay s1
      else k { s1 with coil.w.down := some (frameCtr f) }

/-- A frame for this manager on its ring. -/
def forManager (s : State) (f : Frame) : Bool := isManager s && f.dst == 0 && f.ring == f.port / 2 && ringEn s f.ring

/-- The manager takes an AUTH frame of an enumerated worker under K_up (R385, R386). -/
def managerAuth (cls typ : Nat) (f : Frame) (k : State → State) (s : State) : State :=
  if !forManager s f || f.cls != cls || f.typ != typ then s
  else if frameBad f then countCrc s
  else match upKey s f.ring f.src with
    | none => s
    | some key =>
      let e := getEnt s f.ring f.src
      if !tagOk key f then rejectTag s
      else if !(e.state == 2 || e.state == 3 || e.state == 4) || !ctrAfter (frameCtr f) e.last then rejectReplay s
      else k (setEnt f.ring f.src { e with last := some (frameCtr f), heard := s.slot } s)

/-- FRAME_DISCARD (R373, R386): a frame its destination discards, counted by its cause. -/
def execFrameDiscard (f : Frame) (s : State) : Out :=
  .next (if !(forWorker s f || forManager s f) then s
    else if frameBad f then countCrc s
    else if bit f.flags 0 then
      let key := if isWorker s then slotKey s 5 else upKey s f.ring f.src
      let last := if isWorker s then s.coil.w.down else (getEnt s f.ring f.src).last
      let s1 := if isWorker s then useDown s else s
      match key with
      | some k => if !tagOk k f then rejectTag s1 else if !ctrAfter (frameCtr f) last then rejectReplay s1 else s1
      | none => s
    else s)

/-! ### HELLO (R376, R377) -/

/-- The identity number (R423). -/
def identNum (s : State) : W64 := BitVec.ofNat 64 (rd s.sgr.guard_ 4 8)

def bootNum : BootSt → Nat
  | .off => 0
  | .backup => 0
  | .por => 2
  | .fuse => 3
  | .cal => 4
  | .greenware => 5
  | .verify => 6
  | .restore => 7
  | .metering => 8
  | .hold => 9
  | .failstop => 10

/-- Source of a worker's frames: its position, or 0xFE before it is assigned. -/
def wSource (s : State) : Nat := if s.coil.w.enumerated then s.coil.w.pos.toNat else 0xFE

/-- A challenge of the worker's DRBG, kept until an ASSIGN returns it. -/
def needChal (s : State) : State :=
  if s.coil.w.chal.isEmpty then
    let (c, s1) := drawRandom 16 s
    { s1 with coil.w.chal := c }
  else s

/-- A HELLO with given hop indices on a port; without random bits none is formed (R422). -/
def sendHello (port : Nat) (cw ccw : Byte) (s : State) : State :=
  if !s.sgr.trngOk then s
  else
    let s1 := needChal s
    emit (.hello port (wSource s1) ⟨identNum s1, cw, ccw, BitVec.ofNat 4 (bootNum s1.boot.st), s1.coil.w.chal⟩) s1

/-- Unsolicited HELLOs of an unassigned worker, in every direction in sync (R377). -/
def helloAll (s : State) : State :=
  if isWorker s && !s.coil.w.enumerated then
    [0, 1].foldl (fun t p => if (getPort t p).sync then sendHello p 0xFF 0xFF t else t) s
  else s

/-- HELLO_TIMER (R377). -/
def execHelloTimer (s : State) : Out := .next (helloAll s)

/-! ### Links (R368, R371, R372) -/

/-- Ports that the role and configuration turn on (R24, R368). -/
def portUsed (s : State) (p : Nat) : Bool :=
  match s.boot.role with
  | .manager => p < 8 && ringEn s (p / 2)
  | .worker => p < 2
  | _ => false

/-- Highest position of a ring's table. -/
def lastPos (s : State) (k : Nat) : Nat := (getCRing s k).table.foldl (fun a p => max a p.1) 0

/-- The ring and the position on the CP2k side of a link: a port of the manager, or 8 + 128 k + p for the link behind
position p of ring k, of which a manager learns in a way the manual does not give (log entry 24). -/
def linkOf (s : State) (port : Nat) : Nat × Nat :=
  if port < 8 then (port / 2, if port % 2 = 0 then 0 else lastPos s (port / 2))
  else ((port - 8) / 128, (port - 8) % 128)

/-- Position on the other side of a link. -/
def otherSide (s : State) (k p : Nat) : Nat :=
  (((getCRing s k).table.map (·.1)).find? (fun q => q > p)).getD 0

/-- The manager's view of a ring after its list of down links changed. -/
def setDown (k : Nat) (down : List Nat) (s : State) : State :=
  let c := getCRing s k
  setCRing k { c with down := down, split := down.length ≥ 2,
                      brk := match down.head? with
                        | some p => BitVec.ofNat 7 p
                        | none => 0x7F } s

/-- A down link wraps the ring or splits it (R371). -/
def ringBreak (k p : Nat) (s : State) : State :=
  let c := getCRing s k
  if c.down.contains p then s
  else
    let s1 := setDown k (sortBy (· ≤ ·) (p :: c.down)) s
    let s2 := blockEvent 12 1 (le 1 k ++ le 1 p ++ le 1 (otherSide s k p)) s1
    match c.down.length with
    | 0 => raise 12 0 s2
    | 1 => raise 12 1 s2
    | _ => s2

/-- A link of this chip goes down: no valid delay, the port wraps (R371, R379). -/
def portDown (p : Nat) (f : Port → Port) (s : State) : State :=
  let x := f (getPort s p)
  setPort p { x with wrap := true, healed := false, delay := none, meas := [], t1 := none } s

/-- LINK_SYNC_GAIN (R368, R377, R411): a worker's receive side that comes into sync for the first time sends HELLO. -/
def execLinkSyncGain (p : Nat) (s : State) : Out :=
  .next (if !portUsed s p then s
    else
      let x := getPort s p
      let s1 := setPort p { x with sync := true, seen := true } s
      if x.seen then s1
      else if isWorker s1 && !s1.coil.w.enumerated then sendHello p 0xFF 0xFF s1 else s1)

/-- LINK_SYNC_LOSS (R368, R371): LFAIL is sent, the link is down, its end wraps; a manager records the break. `invalid`
counts the invalid characters that the receive side has seen since it came into sync (COIL_PSTAT.ERRORS). -/
def execLinkSyncLoss (p invalid : Nat) (s : State) : Out :=
  .next (if isManager s && p ≥ 8 then
      let l := linkOf s p
      if l.1 < 4 && ringEn s l.1 then ringBreak l.1 l.2 s else s
    else if !portUsed s p then s
    else
      let s1 := emit (.lfail p) (portDown p (fun x => { x with sync := false, errors := satAdd x.errors invalid }) s)
      if isManager s1 then ringBreak (linkOf s1 p).1 (linkOf s1 p).2 s1 else s1)

/-- LFAIL_RECEIVE (R368, R371). -/
def execLfailReceive (p : Nat) (s : State) : Out :=
  .next (if !portUsed s p then s
    else
      let s1 := portDown p (fun x => { x with lfail := true }) s
      if isManager s1 then ringBreak (linkOf s1 p).1 (linkOf s1 p).2 s1 else s1)

/-- The manager's record of a healed link (R372). -/
def ringHeal (k p : Nat) (s : State) : State :=
  let c := getCRing s k
  if c.down.contains p then
    blockEvent 12 2 (le 1 k ++ le 1 p ++ le 1 (otherSide s k p)) (setDown k (c.down.filter (· != p)) s)
  else s

/-- LINK_HEAL (R372, R377): both directions clean for 100 ms; the end unwraps at the next beacon. -/
def execLinkHeal (p : Nat) (s : State) : Out :=
  .next (if isManager s && p ≥ 8 then (let l := linkOf s p; if l.1 < 4 then ringHeal l.1 l.2 s else s)
    else if !portUsed s p || !(getPort s p).sync then s
    else
      let x := getPort s p
      let s1 := setPort p { x with lfail := false, healed := x.wrap } s
      if isManager s1 then ringHeal (linkOf s1 p).1 (linkOf s1 p).2 s1 else helloAll s1)

/-- Ports that healed unwrap at a beacon (R372). -/
def unwrapAll (s : State) : State :=
  { s with coil.ports := s.coil.ports.map (fun p =>
      (p.1, if p.2.healed then { p.2 with wrap := false, healed := false } else p.2)) }

/-! ### Forwarding (R370, R381) -/

/-- Delay of a port's link in 1/16 ns; 0 while it is not valid. -/
def linkDelay (s : State) (p : Nat) : Nat := ((getPort s p).delay.map (·.toNat)).getD 0

/-- The port on which a frame received on `p` goes on, and whether a wrap turns it back. -/
def outPort (s : State) (p : Nat) : Nat × Bool := if (getPort s (1 - p)).wrap then (p, true) else (1 - p, false)

/-- A forwarded beacon's path delay grows by the link's delay and 96 ns, and its check is recomputed (R381). -/
def addPath (s : State) (f : Frame) : Frame :=
  let d := rd f.payload 12 4 + linkDelay s f.port + 1536
  sealFrame { f with payload := splice f.payload 12 (le 4 d) }

/-- FRAME_FORWARD (R370, R371): every frame a worker does not consume goes on in the same direction, or is turned back
at a wrap; a wrapping worker drops beacons; DELAY frames and ENUM are not forwarded here. -/
def execFrameForward (f : Frame) (s : State) : Out :=
  .next (if !isWorker s || f.port > 1 || !mainPower s then s
    else if s.coil.w.enumerated && f.dst == s.coil.w.pos.toNat && f.ring == s.coil.w.ring.toNat then s
    else if f.cls == 0 && (f.typ == 1 || f.typ == 2 || f.typ == 3) then s
    else
      let beacon := f.cls == 0 && f.typ == 0
      let s1 := if beacon then unwrapAll s else s
      let (q, turned) := outPort s1 f.port
      if beacon && turned then s1
      else emit (.frame { (if beacon then addPath s1 f else f) with port := q }) s1)

/-! ### Enumeration (R376-R378) -/

/-- The manager starts enumerating a ring: ENUM on both ports with a hop count of 0. -/
def startEnum (k : Nat) (s : State) : State :=
  let c := getCRing s k
  let ents := c.ents.map (fun p => (p.1, { p.2 with chal := ([] : List Byte) }))
  let s1 := setCRing k { c with enumerating := true, enumStart := s.slot, found := 0, hellos := [], refused := [],
                                renumber := c.table.isEmpty && c.down.isEmpty, ents := ents } s
  let s2 := if (getPort s1 (2 * k)).wrap then s1 else emit (.enumHop (2 * k) 0 0) s1
  if (getPort s2 (2 * k + 1)).wrap then s2 else emit (.enumHop (2 * k + 1) 0 0) s2

/-- ENUMERATION_START. -/
def execEnumerationStart (k : Nat) (s : State) : Out :=
  .next (if k < 4 && isManager s && ringEn s k && !(getCRing s k).enumerating then startEnum k s else s)

/-- ENUM (R376): the worker notes hop index and path delay, forwards the frame and answers HELLO. -/
def execEnumFrame (f : Frame) (hop : Nat) (pathDelay : W32) (s : State) : Out :=
  .next (if !isWorker s || f.port > 1 || f.cls != 0 || f.typ != 1 then s
    else if frameBad f then countCrc s
    else
      let h : Byte := BitVec.ofNat 8 (hop + 1)
      let d := pathDelay + BitVec.ofNat 32 (linkDelay s f.port)
      let w := s.coil.w
      let s1 := { s with coil.w := if f.port = 0 then { w with hopCw := h, dCw := some d } else { w with hopCcw := h, dCcw := some d } }
      let s2 := emit (.enumHop (outPort s1 f.port).1 (hop + 1) (d + 1536)) s1
      sendHello f.port s2.coil.w.hopCw s2.coil.w.hopCcw s2)

/-- K_down and K_up of a worker enter the COIL engines' key cache (R385, R426). -/
def deriveKeys (k pos : Nat) (ident : W64) (s : State) : State :=
  match slotKey s 4 with
  | none => s
  | some master =>
    let dn := kdf master [0x43, 0x4F, 0x49, 0x4C, 0x2D, 0x44, 0x4E] (le 8 ident.toNat) 32
    let up := kdf master [0x43, 0x4F, 0x49, 0x4C, 0x2D, 0x55, 0x50] (le 8 ident.toNat) 32
    let (m, s1) := drawRandom 64 s
    let share (x m : List Byte) : Share := ⟨List.zipWith (fun a b => a ^^^ b) x m, m⟩
    { s1 with sgr.cache := tput s1.sgr.cache (k * 128 + pos) (share dn (m.take 32), share up (m.drop 32)) }

/-- The position of an identity: the table's, or in a first enumeration its CW hop index (R378). -/
def posOf (c : CRing) (h : Hello) : Option Nat :=
  match c.table.find? (fun p => p.2 == h.ident) with
  | some p => some p.1
  | none => if c.renumber && h.hopCw != 0xFF && 1 ≤ h.hopCw.toNat && h.hopCw.toNat ≤ 127
      && (tget c.table h.hopCw.toNat).isNone then some h.hopCw.toNat else none

/-- A HELLO of an enumeration is mapped to a position and answered by ASSIGN, or found FOREIGN (R376, R378). While the table
is being filled, one without a CW hop index waits for the worker's next one; without random bits there is no challenge (R422). -/
def mapHello (k : Nat) (h : Hello) (s : State) : State :=
  let c := getCRing s k
  if c.hellos.any (fun x => x.ident == h.ident) || c.refused.contains h.ident || (c.renumber && h.hopCw == 0xFF) || !s.sgr.trngOk
  then s
  else match posOf c h with
    | none =>
      raise 12 4 (setCRing k { c with refused := c.refused ++ [h.ident] } s)
    | some pos =>
      let (chal, s1) := drawRandom 16 s
      let e := tgetD c.ents pos Init.went
      let s2 := setCRing k { c with
        hellos := c.hellos ++ [h], table := tput c.table pos h.ident
        ents := tput c.ents pos { e with ident := h.ident, chal := chal, heard := s.slot } } s1
      let s3 := deriveKeys k pos h.ident s2
      if (upKey s3 k pos).isNone then s3
      else emit (.assign (downPort s3 k pos) pos ⟨k, pos, h.challenge, chal⟩) { s3 with coil.ownCtr := s3.coil.ownCtr + 1 }

/-- Payload frames of an image broadcast: offset, total, up to 2,040 bytes (R391). -/
def castFrames (img : List Byte) : List (List Byte) :=
  (List.range ((img.length + 2039) / 2040)).map (fun i =>
    le 4 (2040 * i) ++ le 4 img.length ++ (img.drop (2040 * i)).take 2040)

/-- Bytes of the image store: its units in order. -/
def imageBytes (s : State) : List Byte := s.boot.img.units.flatMap (·.2)

/-- The manager broadcasts the image it runs, at most once per 100 ms per ring (R391). -/
def broadcast (k : Nat) (s : State) : State :=
  let c := getCRing s k
  if !s.boot.fired || !ringEn s k || c.lastCast.any (fun t => s.slot - t < 100 * msSlots) then s
  else
    let port := if (getPort s (2 * k)).wrap then 2 * k + 1 else 2 * k
    (castFrames (imageBytes s)).foldl (fun t p => emit (.frame (plainFrame port 3 1 false 0xFF 0 k p)) t)
      (setCRing k { c with lastCast := some s.slot } s)

/-- HELLO (R376, R377, R391): mapped during an enumeration; outside one, an unassigned worker's HELLO starts one,
at most one per 100 ms, unless the last one found that identity UNKEYED or FOREIGN. -/
def execHelloFrame (f : Frame) (h : Hello) (s : State) : Out :=
  .next (if !forManager s f || f.cls != 0 || f.typ != 4 then s
    else if frameBad f then countCrc s
    else
      let k := f.ring
      let c := getCRing s k
      let s1 := if h.boot == 5 then broadcast k s else s
      if c.enumerating then (if h.hopCw == 0xFF && h.hopCcw == 0xFF then s1 else mapHello k h s1)
      else if f.src == 0xFE && !c.refused.contains h.ident && (c.enumStart == 0 || s.slot - c.enumStart ≥ 100 * msSlots) then
        startEnum k s1
      else s1)

/-- Requests forwarded to a worker that leaves enumeration complete UNAVAILABLE (R352), and its rates are released
(R188). -/
def leaveEnum (k pos : Nat) (s : State) : State :=
  let (gone, stay) := s.hif.fwd.partition (fun f => f.wring == k && f.wpos == pos && f.w.ring != 9)
  setRates (gone.foldl (fun t f => complete f.w statusUnavailable 0 [] t) { s with hif.fwd := stay })

/-- The state of a table's position at the end of an enumeration: EMPTY without a HELLO, UNKEYED without an
authenticated STATUS (R378, R376). -/
def settleEnt (k : Nat) (s : State) (p : Nat × W64) : State :=
  let c := getCRing s k
  let e := getEnt s k p.1
  if !(c.hellos.any (fun h => h.ident == p.2)) then leaveEnum k p.1 (setEnt k p.1 { e with ident := p.2, state := 0 } s)
  else if !e.chal.isEmpty then
    let s1 := setEnt k p.1 { e with state := 1, chal := [] } s
    let c1 := getCRing s1 k
    leaveEnum k p.1 (setCRing k { c1 with refused := c1.refused ++ [p.2] } s1)
  else s

/-- A worker's stored entry: as last set through this manager, else what the worker holds, a free value (log entry 25). -/
def storedSub (s : State) (k pos n : Nat) : SubEnt :=
  match tget s.pq.ringSubs (ringSubKey k pos n) with
  | some e => e
  | none =>
    let b := Config.workerSub (getEnt s k pos).ident n
    if b.length = 48 && !subBad b then subOf b else Init.subEnt

/-- Stored entries are admitted in ascending position and entry; one at interval 0 or 1 that does not fit is disabled
on its worker, with an event record (R188). -/
def admitSub (k : Nat) (s : State) (x : Nat × Nat × SubEnt) : State :=
  let e := x.2.2
  let n := x.2.1
  let key := ringSubKey k x.1 n
  if overQuota s k x.1 n e then
    let b := le 1 n ++ le 1 e.kind.toNat ++ le 1 e.interval.toNat ++ [0] ++ zeros 4 ++ le 8 e.cmask.toNat ++ le 32 e.pmask.toNat
    let s1 := forward ⟨16, .host, 0, 0, false, 0x20⟩ k x.1 b { s with pq.ringSubs := tput s.pq.ringSubs key { e with en := false } }
    logRec 0x0023 (nowStamp s1) (le 4 (k * 2 ^ 15 + x.1 * 2 ^ 8) ++ le 1 5 ++ le 1 1 ++ zeros 2
      ++ padTo 32 (le 1 n ++ le 1 e.kind.toNat ++ le 1 e.interval.toNat)) s1
  else { s with pq.ringSubs := tput s.pq.ringSubs key e }

/-- The entries of the enumerated workers of a ring are admitted afresh, none counting before its turn (R188). -/
def admitRing (k : Nat) (ps : List Nat) (s : State) : State :=
  let l := ps.flatMap (fun p => (List.range 16).map (fun n => (p, n, storedSub s k p n)))
  let kept := s.pq.ringSubs.filter (fun x => !(x.1 / 2048 == k && ps.contains (x.1 / 16 % 128)))
  setRates (l.foldl (admitSub k) { s with pq.ringSubs := kept })

/-- Beacons still come in a direction: its last one is not older than the turn before the other direction's. -/
def dirAlive (own other : Option (BitVec 40)) : Bool :=
  match own, other with
  | some a, some b => (b - a).toNat ≤ 1 || (a - b).toNat < 2 ^ 39
  | none, some _ => false
  | _, none => true

/-- The worker selects the direction whose D is smaller, CW on a tie, of those in which beacons come (R381). -/
def selectDir (w : WSide) : WSide :=
  match (if dirAlive w.bCw w.bCcw then w.dCw else none), (if dirAlive w.bCcw w.bCw then w.dCcw else none) with
  | some a, some b => { w with ccw := b.toNat < a.toNat, d := if b.toNat < a.toNat then b else a }
  | some a, none => { w with ccw := false, d := a }
  | none, some b => { w with ccw := true, d := b }
  | none, none => w

/-- ENUMERATION_END (R376, R378, R381, R392, R188). -/
def execEnumerationEnd (k : Nat) (s : State) : Out :=
  .next (if isWorker s then { s with coil.w := selectDir s.coil.w }
    else if k ≥ 4 || !isManager s || !(getCRing s k).enumerating then s
    else
      let c := getCRing s k
      let s1 := c.table.foldl (settleEnt k) s
      let c1 := getCRing s1 k
      let foreign := c1.refused.filter (fun i => !(c1.table.any (fun p => p.2 == i)))
      let s2 := setCRing k { c1 with enumerating := false, renumber := false, enumWaits := [] } s1
      let s3 := if c.renumber then ownWrite (nvKey .coilTable k) (.table c.table) 4 s2 else s2
      let ps := (c.table.map (·.1)).filter (fun p => (getEnt s3 k p).state == 2 || (getEnt s3 k p).state == 3)
      let s4 := admitRing k ps s3
      let s5 := blockEvent 12 3 (le 1 k ++ le 1 c.found.toNat ++ le 1 foreign.length) s4
      let expect := fld c.cfg 6 0
      let s6 := if expect != 0 && c.found.toNat != expect then raise 12 5 s5 else s5
      c.enumWaits.foldl (fun t w => complete w statusOk 0 [] t) s6)

/-- What STATUS carries (R389). -/
def ownStatus (s : State) (challenge : List Byte) : WStatus :=
  let w := s.coil.w
  let ofs := if w.rtcOfs.isEmpty then 0 else rndAway (sumI w.rtcOfs) w.rtcOfs.length
  ⟨BitVec.ofNat 4 (bootNum s.boot.st), s.flt.reason, whlStatImage s, w.d, BitVec.ofNat 32 (linkDelay s 0),
    BitVec.ofInt 32 ofs, s.rtc.invalid, w.ccw, w.report.length, w.bulk.length, challenge⟩

/-- Send STATUS under K_up toward the manager. -/
def sendStatus (challenge : List Byte) (s : State) : State :=
  match slotKey s 6 with
  | none => s
  | some _ => emit (.status (upPort s) (wSource s) (ownStatus s challenge)) { s with coil.w.ownCtr := s.coil.w.ownCtr + 1 }

/-- An ASSIGN that is meant for this worker: it returns the worker's challenge, or names its position. -/
def assignMine (s : State) (f : Frame) (a : Assign) : Bool :=
  (!s.coil.w.chal.isEmpty && a.challenge == s.coil.w.chal) || (s.coil.w.enumerated && f.dst == s.coil.w.pos.toNat)

/-- ASSIGN (R376 step 5): taken only when it authenticates under K_down and returns the worker's challenge; it sets
the floor of R386, and STATUS answers it. -/
def execAssignFrame (f : Frame) (a : Assign) (s : State) : Out :=
  .next (if !isWorker s || f.cls != 1 || f.typ != 2 || !assignMine s f a then s
    else if frameBad f then countCrc s
    else match slotKey s 5 with
      | none => s
      | some key =>
        let s1 := useDown s
        if !tagOk key f || f.payload != assignPayload a then rejectTag s1
        else if !ctrAfter (frameCtr f) s.coil.w.down then rejectReplay s1
        else if s.coil.w.chal.isEmpty || a.challenge != s.coil.w.chal || a.ring > 3 || a.pos < 1 || a.pos > 127 then s1
        else
          let w := { s1.coil.w with ring := BitVec.ofNat 2 a.ring, pos := BitVec.ofNat 7 a.pos, enumerated := true, chal := [], down := some (frameCtr f) }
          sendStatus a.mgrChallenge { s1 with coil.w := w })

/-! ### Status and time discipline (R383, R389) -/

/-- The manager's own COMMAND to a worker, whose answer nobody waits for. -/
def ownCommand (k pos : Nat) (op : Byte) (buf : List Byte) (s : State) : State :=
  forward ⟨16, .host, 0, 0, false, op⟩ k pos buf s

/-- A step of a worker's time: the RTC_SET, the block event and TIME_STEP (R383). -/
def timeStep (k pos : Nat) (rec_ : List Byte) (step : Int) (s : State) : State :=
  let s1 := ownCommand k pos 0x38 rec_ s
  let s2 := logRec 0x0023 (nowStamp s1)
    (le 4 (k * 2 ^ 15 + pos * 2 ^ 8) ++ le 1 12 ++ le 1 5 ++ zeros 2 ++ padTo 32 (leI 8 step)) s1
  raise 12 6 s2

/-- The record of an absolute RTC_SET to a second (R321). -/
def absRecord (sec : Nat) : List Byte :=
  let d := civil (sec / 86400)
  [0] ++ zeros 3 ++ le 2 d.1 ++ le 1 d.2.1 ++ le 1 d.2.2 ++ le 1 (sec / 3600 % 24) ++ le 1 (sec / 60 % 60) ++ le 1 (sec % 60)
    ++ [0] ++ zeros 4

/-- TRIM that cancels the drift measured since the last one and removes a quarter of the offset in a window, one count
being 2 units of 2^-16 s per window of 32 s (log entry 26). -/
def trimFor (e : WEnt) (ofs : Int) (slots : Nat) : Int :=
  let drift := rndAway ((ofs - e.lastOfs.toInt) * (32 * 1000 * msSlots : Nat)) (max 1 slots)
  max (-537) (min 537 (e.trimVal - rndAway (4 * drift + ofs) 8))

/-- What the manager does about a worker's time on a STATUS (R383). -/
def discipline (k pos : Nat) (st : WStatus) (s : State) : State :=
  let e := getEnt s k pos
  let ofs := st.rtcOfs.toInt
  if !bit (getCRing s k).cfg 30 || s.rtc.invalid || !metering s || e.state != 3 then s
  else if st.rtcInvalid then timeStep k pos (absRecord (s.rtc.s + 1)) (-ofs) s
  else if ofs.natAbs > 65536 then
    let o := 2 * rndAway (-ofs) 2
    timeStep k pos ([1] ++ zeros 3 ++ leI 8 o ++ zeros 4) o s
  else
    let since := e.lastTrim.map (fun t => s.slot - t)
    if since.any (fun n => n < 32 * 1000 * msSlots) then s
    else
      let t := match since with
        | some n => trimFor e ofs n
        | none => max (-537) (min 537 (e.trimVal - rndAway ofs 8))
      let b := le 2 0x0A01 ++ le 2 0 ++ le 4 (BitVec.ofInt 11 t).toNat ++ zeros 4
      ownCommand k pos 0x01 (b ++ le 4 (crc32c b).toNat)
        (setEnt k pos { e with lastTrim := some s.slot, lastOfs := st.rtcOfs, trimVal := t } s)

/-- A worker's state from its STATUS: FAILSTOP, METERING or ENUMERATED (R393). -/
def stateOf (b : BitVec 4) : BitVec 3 := if b == 10 then 4 else if b == 8 then 3 else 2

/-- Block event 4: a worker's new state, under its address (R394). -/
def workerEvent (k pos : Nat) (st : BitVec 3) (s : State) : State :=
  logRec 0x0023 (nowStamp s) (le 4 (k * 2 ^ 15 + pos * 2 ^ 8) ++ le 1 12 ++ le 1 4 ++ zeros 2 ++ padTo 32 (le 1 st.toNat)) s

/-- An accepted STATUS: the worker's entry follows it. -/
def takeStatus (k pos : Nat) (fresh : Bool) (st : WStatus) (s : State) : State :=
  let e := getEnt s k pos
  let n := stateOf st.boot
  let c := getCRing s k
  let s0 := if fresh && c.enumerating then setCRing k { c with found := c.found + 1 } s else s
  let s1 := setEnt k pos { e with state := n, ccw := st.ccw, d := st.d, ldly := st.linkDelay, rtcOfs := st.rtcOfs,
                                  reason := st.reason, chal := if fresh then [] else e.chal } s0
  let s2 := if n == 4 && e.state != 4 then leaveEnum k pos (raise 12 3 s1) else s1
  let s3 := if e.state == 5 then workerEvent k pos n s2 else s2
  discipline k pos st (setRates s3)

/-- STATUS (R376 step 6, R389): authenticated under K_up; one that returns the manager's challenge enumerates the
worker and sets the floor; one from a LOST worker starts a fresh exchange. -/
def execStatusFrame (f : Frame) (st : WStatus) (s : State) : Out :=
  .next (if !forManager s f || f.cls != 1 || f.typ != 3 then s
    else if frameBad f then countCrc s
    else match upKey s f.ring f.src with
      | none => s
      | some key =>
        let k := f.ring
        let e := getEnt s k f.src
        if !tagOk key f || f.payload != statusPayload st then rejectTag s
        else if !ctrAfter (frameCtr f) e.last then rejectReplay s
        else
          let fresh := !e.chal.isEmpty && st.challenge == e.chal
          let s1 := setEnt k f.src { e with last := some (frameCtr f), heard := s.slot } s
          if fresh then takeStatus k f.src true st s1
          else if e.state == 2 || e.state == 3 || e.state == 4 then takeStatus k f.src false st s1
          else if e.state == 5 && !(getCRing s k).enumerating then startEnum k s1
          else s1)

/-- STATUS_SEND (R389): every 16 turns, by an assigned worker, also in fail-stop. -/
def execStatusSend (s : State) : Out :=
  .next (if isWorker s && s.coil.w.enumerated then sendStatus [] s else s)

/-- WORKER_LOST (R389): no authenticated frame of the worker for 1.0 s. -/
def execWorkerLost (k pos : Nat) (s : State) : Out :=
  let e := getEnt s k pos
  .next (if !isManager s || k ≥ 4 || !(e.state == 2 || e.state == 3 || e.state == 4) || s.slot - e.heard < 1000 * msSlots then s
    else leaveEnum k pos (workerEvent k pos 5 (raise 12 2 (setEnt k pos { e with state := 5 } s))))

/-! ### Link delay (R379) -/

/-- DELAY_MEASURE_START: DELAY_REQ is sent and t1 noted. -/
def execDelayMeasureStart (p : Nat) (t1 : W64) (s : State) : Out :=
  .next (if portUsed s p && !(getPort s p).wrap then
      emit (.delayReq p) (setPort p { getPort s p with t1 := some t1 } s)
    else s)

/-- DELAY_REQ: the neighbour answers on the same port. -/
def execDelayReq (f : Frame) (_t2 : W64) (s : State) : Out :=
  .next (if !portUsed s f.port || f.cls != 0 || f.typ != 2 then s
    else if frameBad f then countCrc s
    else emit (.delayResp f.port) s)

/-- DELAY_RESP: ((t4 − t1) − (t3 − t2)) / 2 joins the last eight measurements, whose mean is the link delay. -/
def execDelayResp (f : Frame) (turnaround t4 : W64) (s : State) : Out :=
  let x := getPort s f.port
  .next (if !portUsed s f.port || f.cls != 0 || f.typ != 3 then s
    else if frameBad f then countCrc s
    else match x.t1 with
      | none => s
      | some t1 =>
        let d := (t4 - t1 - turnaround).toNat / 2
        let m := (d :: x.meas).take 8
        setPort f.port { x with t1 := none, meas := m, delay := some (satN 24 ((2 * sumN m + m.length) / (2 * m.length))) } s)

/-! ### Beacons (R51, R52, R380-R383) -/

/-- A manager's beacon, on both ports of every enabled ring at once (R51, R380); its SYNC flag stands in the two
beacons before the execution (R382). -/
def emitBeacon (s : State) : State :=
  let t := turnOf s.whl.pos
  let flag := match s.whl.sync with
    | some y => if y.flagged > 0 then y.turn.filter (fun n => n == t + 2 || n == t + 1) else none
    | none => none
  let st : Byte := BitVec.ofNat 8 (bitAt s.whl.lock 0 + bitAt s.whl.hold 1 + bitAt flag.isSome 2 + bitAt s.rtc.invalid 3
    + bitAt s.rtc.wrap 4)
  let b (p : Nat) : Beacon := ⟨p % 2 == 1, s.whl.pos, s.whl.freq, 0, rtcSec s, rtcFrac s, st, flag.getD 0⟩
  let s1 := unwrapAll { s with whl.sync := if flag.isSome then s.whl.sync.map (fun y => { y with flagged := y.flagged - 1 }) else s.whl.sync }
  ((List.range 8).filter (fun p => ringEn s1 (p / 2) && !(getPort s1 p).wrap)).foldl (fun u p => emit (.beacon p (b p)) u) s1

/-- A worker's Wheel loses its beacons: holdover (R52 step 5, R39). -/
def beaconLoss (s : State) : State :=
  if s.whl.bMissed ≥ 2 then s
  else
    noteQual s (raise 3 2 { s with whl := { s.whl with
      hold := true, lock := false, slew := false, bMissed := 2, bRejects := 0, bGood := 0, pherr := 0 } })

/-- BEACON_LOST: two turns without an accepted beacon; where those were the beacons of a SYNC, neither has been received and
the SYNC is missed (R52, R56). -/
def execBeaconLost (flagged : Bool) (s : State) : Out :=
  .next (if isWorker s then (if flagged && s.whl.sync.isNone then raise 3 4 (beaconLoss s) else beaconLoss s) else s)

/-- U_T after the Wheel has been set: the grid position of angle 0 of the present turn (R122). -/
def gridU (s : State) (w : Whl) : BitVec 63 :=
  BitVec.ofInt 63 (((s.slot - s.dec.gSlot) * 2 ^ 31 / 1536 : Nat) - ((w.pos.toNat % 2 ^ 24 * w.delta.toNat / 2 ^ 16 : Nat) : Int))

/-- SYNC of an accepted beacon arms the execution (R382); a flagged beacon that is rejected leaves a turn that may be
missed (R56). -/
def beaconSync (b : Beacon) (ok : Bool) (w : Whl) : Whl :=
  if !bit b.state 2 then w
  else if ok then { w with sync := if w.sync.isSome then w.sync else some ⟨some b.syncTurn, none, 0, 0⟩, syncMissTurn := none }
  else { w with syncMissTurn := if w.sync.isSome then w.syncMissTurn else some b.syncTurn }

/-- A beacon of the selected direction acts on the Wheel (R52). WHL_PHERR shows the residual with the sign of R59,
positive when the Wheel leads. The rule gives only the setting of a worker's LOCK: here accepted residuals above 0.2° do
not clear it, and it falls with holdover alone (DESIGN CHOICE, log entry 88). -/
def beaconWheel (b : Beacon) (d : Nat) (s : State) : State :=
  let w := s.whl
  let want := b.pos + BitVec.ofNat 64 ((2 * d * b.freq.toNat + 1000000000) / 2000000000)
  let res : Int := (w.pos - want).toInt
  let mHold := bit b.state 1
  let good := res.natAbs ≤ 32
  let lockUp (x : Whl) : Whl :=
    let g := if good then min 4 (x.bGood + 1) else 0
    let on := x.lock || g ≥ 4
    { x with bGood := g, lock := on, nolock := x.nolock && !on, hold := mHold || !on, bRejects := 0, bMissed := 0,
             bLast := turnOf want }
  noteQual s <| if w.nolock then
    let w1 := { w with pos := want, rem := 0, freq := b.freq, delta := deltaOf b.freq.toNat, pherr := 0 }
    { s with whl := beaconSync b true (lockUp { w1 with u := if s.dec.run then gridU s w1 else w1.u }) }
  else if turnOf want != turnOf w.pos || res.natAbs * 360 > 2 ^ 24 then
    let s1 := raise 3 3 { s with whl := beaconSync b false { w with bRejects := w.bRejects + 1, bGood := 0 } }
    if s1.whl.bRejects ≥ 3 then beaconLoss s1 else s1
  else
    { s with whl := beaconSync b true (lockUp { w with freq := b.freq, pherr := BitVec.ofInt 32 res,
                                                       slew := (res.natAbs : Int) > lockIn }) }

/-- The RTC offset a beacon shows, in 2^-16 s: own time less D less the beacon's (R383). -/
def beaconOfs (b : Beacon) (d : Nat) (s : State) : Int :=
  let own : Int := (s.rtc.s * 65536 + (rtcFrac s).toNat : Nat)
  let back : Int := ((2 * d * 65536 + 16000000000) / 32000000000 : Nat)
  let his : Int := (fullSec s b.sec * 65536 + b.frac.toNat : Nat)
  own - back - his

/-- Beacons on the selected direction have stopped: that of the arriving beacon's turn is missing although it comes by the
shorter path, or the one of the turn before is missing too (R381). -/
def dirStopped (w : WSide) (t : BitVec 40) (d : Nat) : Bool :=
  let last := if w.ccw then w.bCcw else w.bCw
  let own := ((if w.ccw then w.dCcw else w.dCw).map (·.toNat)).getD 0
  last != some t && (own ≤ d || last != some (t - 1))

/-- BEACON_RECEIVE (R52, R381, R383): D of the arriving direction is noted; only beacons of the selected direction
act, and the selection passes to the other direction when a break has stopped those of the selected one. -/
def execBeaconReceive (b : Beacon) (s : State) : Out :=
  .next (if !isWorker s || !s.whl.run || s.flt.phase == .safe then s
    else
      let s1 := unwrapAll s
      let p := if b.ccw then 1 else 0
      let d := b.pathDelay.toNat + linkDelay s1 p
      let w := s1.coil.w
      let first := w.dCw.isNone && w.dCcw.isNone && !w.enumerated
      let t := turnOf b.pos
      let gone := w.ccw != b.ccw && ((getPort s1 (1 - p)).wrap || dirStopped w t d)
      let sel := first || gone || w.ccw == b.ccw
      let dv : W32 := BitVec.ofNat 32 d
      let w1 := { w with dCw := if b.ccw then w.dCw else some dv, dCcw := if b.ccw then some dv else w.dCcw
                         bCw := if b.ccw then w.bCw else some t, bCcw := if b.ccw then some t else w.bCcw }
      if !sel then { s1 with coil.w := w1 }
      else
        let o := beaconOfs b d s1
        beaconWheel b d { s1 with coil.w := { w1 with ccw := b.ccw, d := dv, rtcOfs := (o :: w.rtcOfs).take 64 } })

/-! ### Ring 13 (R392, R393) -/

/-- The common checks of Ring 13: only a manager, in METERING; then the length and the fields. -/
def ring13 (op : Byte) (lenOk : Nat → Bool) (bad : List Byte → Bool) (r : Req) (s : State) (body : Waiter → State → Ans) : Out :=
  let w := reqWaiter r 13 op
  .next (match firstBad [(!isManager s || !metering s, statusNotReady), (!lenOk r.buf.length, statusBadLength),
      (bad r.buf, statusRange)] with
    | some st => complete w st 0 [] s
    | none => answer w (body w s))

/-- A ring's configuration takes effect: ports on or off, enumeration when it becomes enabled, the table cleared by
RENUMBER (R378, R392). -/
def ringApply (k : Nat) (cfg : W32) (renum : Bool) (s : State) : State :=
  let c := getCRing s k
  let was := bit c.cfg 31
  let on := bit cfg 31
  let c1 := { c with cfg := cfg, table := if renum then [] else c.table }
  let s1 := setCRing k c1 s
  let s2 := [2 * k, 2 * k + 1].foldl (fun t p =>
    setPort p (if on then { getPort t p with tx := true } else { Init.port with errors := (getPort t p).errors }) t) s1
  if on && !was then startEnum k s2
  else if !on && was then
    let s3 := (c1.ents.map (·.1)).foldl (fun t p => leaveEnum k p (setEnt k p { getEnt t k p with state := 0 } t)) s2
    let c3 := getCRing s3 k
    c3.enumWaits.foldl (fun t w => complete w statusOk 0 [] t)
      (setCRing k { c3 with enumerating := false, enumWaits := [], down := [], split := false, brk := 0x7F } s3)
  else s2

/-- RING_SET. -/
def execRingSet (r : Req) (s : State) : Out :=
  ring13 0x90 (· == 8) (fun b => rd b 0 1 > 3 || rd b 1 1 > 7 || rd b 2 1 > 127 || !zerosAt b 3 5) r s (fun w s =>
    let b := r.buf
    let k := rd b 0 1
    let renum := (rd b 1 1).testBit 2
    let cfg : W32 := BitVec.ofNat 32 (bitAt ((rd b 1 1).testBit 0) 31 + bitAt ((rd b 1 1).testBit 1) 30 + rd b 2 1)
    let key := nvKey .coilRing k
    if writeForbidden s key then .fail statusDenied (protRefuse s)
    else if gasped s then .wait s
    else
      let s1 := ringApply k cfg renum s
      let s2 := if renum then commitRec (nvKey .coilTable k) (.table []) 4 none s1 else s1
      .wait (commitRec key (.word cfg) 1 (some (w, statusOk)) s2))

/-- State of a ring: 0 DOWN, 1 ENUM, 2 UP, 3 WRAPPED, 4 SPLIT (R393). -/
def ringState (s : State) (k : Nat) : Nat :=
  let c := getCRing s k
  if !bit c.cfg 31 || !((getPort s (2 * k)).sync || (getPort s (2 * k + 1)).sync) then 0
  else if c.enumerating then 1
  else if c.split then 4
  else if !c.down.isEmpty then 3
  else 2

/-- One entry of the RING_INFO reply. -/
def infoEntry (s : State) (k pos : Nat) : List Byte :=
  let e := getEnt s k pos
  (if e.state == 0 then zeros 8 else le 8 e.ident.toNat) ++ le 1 e.state.toNat ++ le 1 (bitAt e.ccw 0) ++ zeros 2
    ++ le 4 e.d.toNat ++ le 4 e.ldly.toNat ++ le 4 e.rtcOfs.toNat ++ le 4 e.reason.toNat ++ zeros 4

/-- The RING_INFO reply. -/
def ringInfoReply (s : State) (k : Nat) : List Byte :=
  let c := getCRing s k
  le 1 k ++ le 1 (ringState s k) ++ le 1 c.found.toNat ++ le 1 (match c.down.head? with
    | some p => p
    | none => 0xFF) ++ zeros 12 ++ (List.range 127).flatMap (fun i => infoEntry s k (i + 1))

/-- RING_INFO. -/
def execRingInfo (r : Req) (s : State) : Out :=
  ring13 0x91 (· ≥ 4080) (fun b => rd b 0 1 > 3) r s (fun _ s => .reply 0 (ringInfoReply s (rd r.buf 0 1)) s)

/-- ENUMERATE: completes when the enumeration ends. -/
def execEnumerate (r : Req) (s : State) : Out :=
  ring13 0x92 (· == 4) (fun b => rd b 0 1 > 3 || !zerosAt b 1 3 || !ringEn s (rd b 0 1)) r s (fun w s =>
    let k := rd r.buf 0 1
    if (getCRing s k).enumerating then .fail statusBusy s
    else
      let s1 := startEnum k s
      let c := getCRing s1 k
      .wait (setCRing k { c with enumWaits := c.enumWaits ++ [w] } s1))

/-! ### Register images (R396) -/

def coilStat (s : State) : W32 :=
  let rings := (List.range 4).foldl (fun a k => a + bitAt (getCRing s k).split (8 + k)
    + bitAt (!(getCRing s k).down.isEmpty) (4 + k) + bitAt (ringEn s k) k) 0
  let wk := isWorker s
  BitVec.ofNat 32 ((if isManager s then rings else 0) + bitAt (wk && s.coil.w.ccw) 18 + bitAt (wk && s.coil.w.enumerated) 17
    + bitAt (wk && (slotKey s 5).isSome && (slotKey s 6).isSome) 16)

def coilRstat (s : State) (k : Nat) : W32 :=
  let c := getCRing s k
  let met := (c.ents.filter (fun p => p.2.state == 3)).length
  BitVec.ofNat 32 (putAt (ringState s k) 3 29 + putAt c.brk.toNat 7 16 + putAt c.found.toNat 7 8 + putAt met 7 0)

def coilPstat (s : State) (p : Nat) : W32 :=
  let x := getPort s p
  BitVec.ofNat 32 (bitAt x.sync 31 + bitAt x.lfail 30 + bitAt x.wrap 29 + bitAt x.tx 28 + x.errors.toNat)

def coilLdly (s : State) (p : Nat) : W32 :=
  match (getPort s p).delay with
  | some d => BitVec.ofNat 32 (2 ^ 31 + d.toNat)
  | none => 0

def coilRtcofs (s : State) : W32 := if isWorker s then (ownStatus s []).rtcOfs else 0

def coilWinfo (s : State) : W32 :=
  let e := getEnt s s.coil.widxRing.toNat s.coil.widxPos.toNat
  if isManager s && s.coil.widxPos != 0 then BitVec.ofNat 32 (putAt e.state.toNat 3 16 + bitAt e.ccw 8) else 0

end Sys2Proof.Machine
end

