-- ==== Sys2Proof/Machine/CoilMsg.lean ====
section
/-!
DEFINITION. Records and answers over the Coil rings: segments and their joining (R375), credit and acknowledgement
(R388), replies (R387), image broadcasts (R391).
-/
namespace Sys2Proof.Machine

/-! ### A worker's records leave (R375, R388) -/

/-- A segment of a record: header and bytes (R375). -/
def segment (ring ofs : Nat) (q : QRec) (n : Nat) : List Byte :=
  let data := (q.bytes.drop ofs).take n
  le 1 ring ++ le 1 (bitAt (ofs == 0) 0 + bitAt (ofs + data.length ≥ q.bytes.length) 1) ++ le 2 data.length ++ le 4 ofs
    ++ le 4 q.seq.toNat ++ data

/-- Whole records from the front of a queue that fit a payload of `room` bytes. -/
def packRecs (room : Nat) : List (Nat × QRec) → List (Nat × QRec) × List (Nat × QRec)
  | [] => ([], [])
  | x :: t =>
    if 12 + x.2.bytes.length ≤ room then
      let r := packRecs (room - 12 - x.2.bytes.length) t
      (x :: r.1, r.2)
    else ([], x :: t)

/-- The next report frame, when the credit covers it: it waits for its acknowledgement. -/
def sendReport (s : State) : Option State :=
  let w := s.coil.w
  let (now, rest) := packRecs 2048 w.report
  let payload := now.flatMap (fun x => segment x.1 0 x.2 x.2.bytes.length)
  let size := 40 + payload.length
  if now.isEmpty || size > w.credR then none
  else
    let sr : SentRep := ⟨w.ownCtr, payload, s.slot, now.map (fun x => (x.1, x.2.seq))⟩
    let s1 := { s with coil.w := { w with report := rest, credR := w.credR - size, sent := w.sent ++ [sr] } }
    some (sendUp 2 0 payload s1)

/-- The next bulk frame, when the credit covers it; a whole record sent releases it (R195, R388). -/
def sendBulk (s : State) : Option State :=
  let w := s.coil.w
  match w.bulk with
  | [] => none
  | (ring, q) :: rest =>
    let payload := segment ring w.bulkOff q 2036
    let size := 24 + payload.length
    let nextOff := w.bulkOff + 2036
    let ends := nextOff ≥ q.bytes.length
    if size > w.credB then none
    else
      let s1 := { s with coil.w := { w with credB := w.credB - size, bulk := if ends then rest else w.bulk,
                                            bulkOff := if ends then 0 else nextOff } }
      let s2 := emit (.frame (plainFrame (upPort s) 3 0 true 0 (wSource s) w.ring.toNat payload)) s1
      some (if ends && ring == 7 then capSegDone q.seq s2 else s2)

/-- Send while records and credit last. -/
def pumpLoop (send : State → Option State) : Nat → State → State
  | 0, s => s
  | n + 1, s => match send s with
    | some t => pumpLoop send n t
    | none => s

/-- An assigned worker with its keys sends what its credit covers (R388; log entry 27 tells when). -/
def pump (s : State) : State :=
  if !isWorker s || !s.coil.w.enumerated || (slotKey s 6).isNone then s
  else
    let s1 := pumpLoop sendReport s.coil.w.report.length s
    pumpLoop sendBulk (s1.coil.w.bulk.foldl (fun a x => a + x.2.bytes.length / 2036 + 1) 0) s1

/-- CREDIT (R388): bytes granted for report in payload bytes 0 to 3 and for bulk in 4 to 7 (log entry 28). -/
def execCreditFrame (f : Frame) (s : State) : Out :=
  .next (workerAuth 1 4 f (fun s =>
    let w := s.coil.w
    pump { s with coil.w := { w with credR := min (2 ^ 32) (w.credR + rd f.payload 0 4),
                                     credB := min (2 ^ 32) (w.credB + rd f.payload 4 4) } }) s)

/-- The counters that an ACK acknowledges, 8 bytes each (log entry 28). -/
def ackCtrs (p : List Byte) : List W64 := (List.range (p.length / 8)).map (fun i => BitVec.ofNat 64 (rd p (8 * i) 8))

/-- What acknowledgement of a record does: the mirror of the Kiln log moves on (R305, R388). -/
def recAcked (s : State) (x : Nat × W32) : State :=
  if x.1 == 5 && seqNewer (x.2 + 1) s.nvs.mirror then { s with nvs.mirror := x.2 + 1 } else s

/-- ACK (R388). -/
def execAckFrame (f : Frame) (s : State) : Out :=
  .next (workerAuth 1 5 f (fun s =>
    let cs := ackCtrs f.payload
    let (gone, stay) := s.coil.w.sent.partition (fun x => cs.contains x.ctr)
    pump ((gone.flatMap (·.recs)).foldl recAcked { s with coil.w.sent := stay })) s)

/-- REPORT_RETRANSMIT (R388): a frame without acknowledgement for 20 ms is sent again with a new counter. -/
def execReportRetransmit (ctr : W64) (s : State) : Out :=
  .next (if !isWorker s then s
    else match s.coil.w.sent.find? (fun x => x.ctr == ctr) with
      | none => s
      | some x =>
        if (slotKey s 6).isNone || s.slot - x.at_ < 20 * msSlots then s
        else
          let w := s.coil.w
          sendUp 2 0 x.payload { s with coil.w := { w with
            sent := w.sent.map (fun y => if y.ctr == ctr then { y with ctr := w.ownCtr, at_ := s.slot } else y) } })

/-! ### The manager joins and queues (R375, R388, R390) -/

/-- Segments of a payload. -/
def segsOf : Nat → List Byte → List (Nat × Nat × Nat × W32 × List Byte)
  | 0, _ => []
  | fuel + 1, p =>
    if p.length < 12 then []
    else
      let n := rd p 2 2
      (rd p 0 1, rd p 1 1, rd p 4 4, BitVec.ofNat 32 (rd p 8 4), (p.drop 12).take n) :: segsOf fuel (p.drop (12 + n))

/-- Host rings that a class of frames feeds (R374). -/
def classFeeds (cls ring : Nat) : Bool :=
  if cls == 2 then [2, 3, 4, 5, 12, 14].contains ring else ring == 6 || ring == 7

/-- The parts of a record joined from offset 0 on, when they are complete. -/
def joined (total : Nat) (parts : List (Nat × List Byte)) : Option (List Byte) :=
  let b := (sortBy (fun a b => decide (a.1 ≤ b.1)) parts).foldl (fun (acc : List Byte) p =>
    if p.1 ≤ acc.length then acc ++ p.2.drop (acc.length - p.1) else acc) []
  if b.length ≥ total then some (b.take total) else none

/-- A complete record of a worker joins its host ring's queue, unless a record as new has been queued (R388). -/
def queueRemote (k pos ring : Nat) (seq : W32) (b : List Byte) (s : State) : State :=
  let e := getEnt s k pos
  let new := match tget e.newest ring with
    | some q => seqNewer seq q
    | none => true
  if new then deliver ring ⟨seq, b, none, none⟩ (setEnt k pos { e with newest := tput e.newest ring seq } s) else s

/-- One segment is taken up. -/
def takeSeg (cls k pos : Nat) (s : State) (x : Nat × Nat × Nat × W32 × List Byte) : State :=
  let (ring, fl, ofs, seq, data) := x
  if !classFeeds cls ring then s
  else
    let is_ (j : Join) : Bool := j.ring == k && j.pos == pos && j.host == ring && j.seq == seq
    let j := (s.coil.joins.find? is_).getD ⟨k, pos, ring, seq, [], none, s.slot⟩
    let j1 := { j with parts := j.parts ++ [(ofs, data)],
                       total := if fl.testBit 1 then some (ofs + data.length) else j.total }
    let rest := s.coil.joins.filter (fun j => !is_ j)
    match j1.total.bind (fun n => joined n j1.parts) with
    | some b => queueRemote k pos ring seq b { s with coil.joins := rest }
    | none => { s with coil.joins := rest ++ [j1] }

/-- A host ring's queue is full, so that credit of its class is withheld (R337, R388). -/
def ringFull (s : State) (ring : Nat) : Bool :=
  let q := (getRing s ring).queue
  match ring with
  | 2 => queueBytes q ≥ 524288 - 128
  | 3 => queueBytes q ≥ 262144 - 128
  | 6 => heldPq s ≥ 393216
  | 12 => q.length ≥ 64
  | 14 => q.length ≥ 256
  | _ => false

/-- Credit of a worker is renewed up to its default, unless a ring that the class feeds is full (R388). -/
def renewCredit (k pos : Nat) (s : State) : State :=
  let e := getEnt s k pos
  let r := if [2, 3, 12, 14].any (ringFull s) then 0 else 16384 - e.credR
  let b := if ringFull s 6 then 0 else 16384 - e.credB
  if r + b = 0 then s
  else sendDown k pos 1 4 (le 4 r ++ le 4 b) (setEnt k pos { e with credR := e.credR + r, credB := e.credB + b } s)

/-- REPORT_RECORDS (R375, R388): accepted frames are acknowledged by their counter, their records queued. -/
def execReportRecords (f : Frame) (s : State) : Out :=
  .next (managerAuth 2 0 f (fun s =>
    let k := f.ring
    let e := getEnt s k f.src
    let s1 := setEnt k f.src { e with credR := e.credR - (40 + f.payload.length) } s
    let s2 := sendDown k f.src 1 5 (le 8 f.ctr.toNat) s1
    renewCredit k f.src ((segsOf (f.payload.length / 12 + 1) f.payload).foldl (takeSeg 2 k f.src) s2)) s)

/-- BULK_RECORDS (R375, R388): not authenticated and not acknowledged. -/
def execBulkRecords (f : Frame) (s : State) : Out :=
  .next (if !forManager s f || f.cls != 3 || f.typ != 0 then s
    else if frameBad f then countCrc s
    else
      let k := f.ring
      let e := getEnt s k f.src
      if !(e.state == 2 || e.state == 3 || e.state == 4) then s
      else
        let s1 := setEnt k f.src { e with credB := e.credB - (24 + f.payload.length) } s
        renewCredit k f.src ((segsOf (f.payload.length / 12 + 1) f.payload).foldl (takeSeg 3 k f.src) s1))

/-- SEGMENT_TIMEOUT (R375): a record that is not complete within 1 s of its first segment is discarded. -/
def execSegmentTimeout (k pos ring : Nat) (seq : W32) (s : State) : Out :=
  .next { s with coil.joins := s.coil.joins.filter (fun j =>
    !(j.ring == k && j.pos == pos && j.host == ring && j.seq == seq && s.slot - j.start ≥ 1000 * msSlots)) }

/-- Once per turn a manager renews what it withheld, and a worker sends what waits. -/
def coilTurn (s : State) : State :=
  if isManager s then
    (List.range 4).foldl (fun t k => ((getCRing t k).ents.filter (fun p => p.2.state == 2 || p.2.state == 3)).foldl
      (fun u p => renewCredit k p.1 u) t) s
  else pump s

/-! ### Replies (R352, R387) -/

/-- The forwarded command that a reply answers. -/
def fwdOf (s : State) (k pos : Nat) (tag : W32) : Option Fwd :=
  s.hif.fwd.find? (fun f => f.wring == k && f.wpos == pos && f.mtag == tag)

/-- A forwarded command ends: a subscription that the worker refused stands as before (R188); the Ring 1 record enters
Ring 1 unchanged. -/
def endFwd (f : Fwd) (status : W16) (data : List Byte) (s : State) : State :=
  let s1 := { s with hif.fwd := s.hif.fwd.filter (fun x => x.mtag != f.mtag) }
  let s2 := match f.undo with
    | some (key, old) => if status == statusOk then s1 else setRates { s1 with pq.ringSubs := tput s1.pq.ringSubs key old }
    | none => s1
  if f.w.ring == 0 && !data.isEmpty then
    let seq : W32 := BitVec.ofNat 32 (rd data 0 4)
    pushResult 1 seq data f.w ⟨status, 0, seq, []⟩ s2
  else complete f.w status 0 data s2

/-- REPLY (R387). -/
def execReplyFrame (f : Frame) (s : State) : Out :=
  .next (managerAuth 1 1 f (fun s =>
    let b := f.payload
    match fwdOf s f.ring f.src (BitVec.ofNat 32 (rd b 4 4)) with
    | some x => if rd b 1 1 == x.op.toNat then endFwd x (BitVec.ofNat 16 (rd b 2 2)) (b.drop 8) s else s
    | none => s) s)

/-! ### Images (R391, R411) -/

/-- IMAGE_NEED (R391). -/
def execImageNeed (f : Frame) (s : State) : Out :=
  .next (if !forManager s f || f.cls != 0 || f.typ != 5 then s
    else if frameBad f then countCrc s
    else broadcast f.ring s)

/-- Every unit of the transfer is held (R405). -/
def imageComplete (s : State) : Bool :=
  match s.boot.img.total with
  | some t => s.boot.img.units.length * 16 == t
  | none => false

/-- A worker asks for the image (R411). -/
def sendNeed (s : State) : State :=
  emit (.frame (plainFrame (upPort s) 0 5 true 0 (wSource s) s.coil.w.ring.toNat [])) s

/-- 10 s have passed since the last refusal (R411). -/
def needWaited (s : State) : Bool :=
  match s.boot.refusedSlot with
  | some t => s.slot ≥ t + 245760000
  | none => true

/-- IMAGE_NEED_TIMER (R411): in GREENWARE, or in HOLD on a worker, until every byte is held; not for 10 s after a
refusal. -/
def execImageNeedTimer (s : State) : Out :=
  .next (if isWorker s && (s.boot.st == .greenware || s.boot.st == .hold) && !s.boot.fired && !imageComplete s
      && needWaited s then sendNeed s
    else s)

end Sys2Proof.Machine
end

