-- ==== Sys2Proof/Machine/Saggar.lean ====
section
/-!
DEFINITION. The Saggar (R420-R447): keys and slots, the root secret, wedging, Ring 9 requests and their results, KEY
frames, key loads and the dual-signed change record.
-/
namespace Sys2Proof.Machine

/-! ### Labels and derivations (R421, R423, R425) -/

def lEnv : List Byte := [0x53, 0x41, 0x47, 0x2D, 0x45, 0x4E, 0x56]
def lFdn : List Byte := [0x53, 0x41, 0x47, 0x2D, 0x46, 0x44, 0x4E]
def lFup : List Byte := [0x53, 0x41, 0x47, 0x2D, 0x46, 0x55, 0x50]
def lClaim : List Byte := [0x53, 0x41, 0x47, 0x2D, 0x43, 0x4C, 0x41, 0x49, 0x4D]
def lKcv : List Byte := [0x53, 0x41, 0x47, 0x2D, 0x4B, 0x43, 0x56]
def lId : List Byte := [0x53, 0x41, 0x47, 0x2D, 0x49, 0x44]
def lKt : List Byte := [0x53, 0x41, 0x47, 0x2D, 0x4B, 0x54]
def lCredit : List Byte := [0x43, 0x52, 0x45, 0x44, 0x49, 0x54]
def lStore : List Byte := [0x53, 0x54, 0x4F, 0x52, 0x45]
def lRm : List Byte := [0x43, 0x4F, 0x49, 0x4C, 0x2D, 0x52, 0x4D]

/-- A big-endian number. -/
def ofBe (b : List Byte) : Nat := ofLe b.reverse

/-- Order of P-384 (FIPS 186, outside the manual; log entry 7). -/
def p384n : Nat := 0xFFFFFFFFFFFFFFFFFFFFFFFFFFFFFFFFFFFFFFFFFFFFFFFFC7634D81F4372DDF581A0DB248B0A77AECEC196ACCC52973

/-- The identity private key: (c mod (n − 1)) + 1 for 448 bits c of the KDF (R423). -/
def identKey : List Byte := beBytes 48 (ofBe (kdf Config.seed lId [] 56) % (p384n - 1) + 1)
/-- The identity number: bytes 0 to 7 of SHA-384 of the public key (R423). -/
def identBytes : List Byte := padTo 8 ((Config.sha384 (Config.ecdsaPublic identKey)).take 8)
def transportKey : List Byte := kdf Config.seed lKt [] 32

/-- KDF with the identity number as its context. -/
def kdfId (key label : List Byte) (n : Nat) : List Byte := kdf key label identBytes n
def kEnv : List Byte := kdfId transportKey lEnv 32
def kFdn : List Byte := kdfId transportKey lFdn 32
def kFup : List Byte := kdfId transportKey lFup 32
def kClaim : List Byte := kdfId transportKey lClaim 48

/-- Check value of a secret (R425, R444). -/
def kcvOf (k : List Byte) : List Byte := padTo 8 ((Config.hmac k lKcv).take 8)

/-! ### Guarded settings (R427, R434, R435) -/

/-- Fixed policy of slots 0 to 8 in this chip's role. -/
def fixedPol (s : State) (i : Nat) : Nat :=
  if i == 4 then (if isManager s then 0x03 else 0)
  else if i == 5 || i == 6 then (if isWorker s then 0x22 else 0)
  else Init.fixedPolicy i

/-- Policy of a slot. -/
def policyOf (s : State) (i : Nat) : Nat := if i ≤ 8 then fixedPol s i else rd s.sgr.guard_ (256 + 4 * i) 4

/-- The guarded-settings payload with identity number and fixed policies in place. -/
def guardNormal (s : State) (g : List Byte) : List Byte :=
  splice (splice g 4 identBytes) 256 ((List.range 9).flatMap (fun i => le 4 (fixedPol s i)))

def gCounter (g : List Byte) : Nat := rd g 0 4
def gClaimed (g : List Byte) : Bool := (rd g 12 1).testBit 0
def gLocked (g : List Byte) : Bool := (rd g 12 1).testBit 1
def gLockRole (g : List Byte) : Nat := rd g 12 1 / 4 % 4
def gOptEn (g : List Byte) : Bool := (rd g 12 1).testBit 4
def gProt (g : List Byte) : Nat := rd g 13 1
def gKcv (g : List Byte) : List Byte := (g.drop 16).take 8
def gTamper (g : List Byte) : List Byte := (g.drop 24).take 32
def gParty (g : List Byte) (i : Nat) : List Byte := (g.drop (56 + 96 * i)).take 96

/-- The guarded settings a chip leaves Idmen with: the EN field of a source disabled by fuse is not set (R435, R452,
R454). -/
def shippedGuard (s : State) : List Byte :=
  (List.range 8).foldl (fun g i =>
    if bit s.fuses.tamperOff i then splice g (24 + 4 * i) (le 1 (rd g (24 + 4 * i) 1 / 2 * 2)) else g) Init.guardPayload

/-- The approval payload (R435). -/
def apprPayload (s : State) : List Byte := le 4 (gCounter s.sgr.guard_) ++ [s.sgr.appr] ++ zeros 11

/-- State of an approval slot in a byte of states (R403). -/
def apprOf (b : Byte) (i : Nat) : Nat := fld b (2 * i + 1) (2 * i)

/-! ### Shares and wedging (R431) -/

def xorB (a b : List Byte) : List Byte := List.zipWith (fun x y => x ^^^ y) a b

/-- Hold a key as two shares under a fresh mask. -/
def mkShare (key : List Byte) (s : State) : Share × State :=
  let (m, s1) := drawRandom key.length s
  (⟨xorB key m, m⟩, s1)

/-- A wedge XORs a fresh random into both shares. -/
def wedge (x : Share) (s : State) : Share × State :=
  let (r, s1) := drawRandom x.m.length s
  (⟨xorB x.v r, xorB x.m r⟩, s1)

def setSlot (i : Nat) (k : KSlot) (s : State) : State := { s with sgr.slots := tput s.sgr.slots i k }

/-- A wedge of a slot, at which it takes over a key that waits (R431, R433); while the DRBG is stopped masks stay
(R422). -/
def wedgeSlot (i : Nat) (s : State) : State :=
  if !s.sgr.trngOk then s
  else
    let k := getSlot s i
    let (x, s1) := wedge k.taken.key s
    setSlot i { k.taken with key := x } s1

/-- Fill a slot with a derived key. -/
def deriveSlot (i : Nat) (key : List Byte) (s : State) : State :=
  let (x, s1) := mkShare key s
  setSlot i ⟨3, x, 0, none⟩ s1

/-- Empty a slot. -/
def emptySlot (i : Nat) (s : State) : State := setSlot i Init.kslot s

/-- The newest valid root copy, and whether it is copy A (R428). -/
def newestRoot (s : State) : Option (RootCopy × Bool) :=
  let a := s.sgr.rootA
  let b := s.sgr.rootB
  if a.ok && b.ok then some (if seqNewer b.gen a.gen then (b, false) else (a, true))
  else if a.ok then some (a, true)
  else if b.ok then some (b, false)
  else none

/-- The newest valid root copy with a given KCV (R428). -/
def rootFor (s : State) (kcv : List Byte) : Option RootCopy :=
  let a := s.sgr.rootA
  let b := s.sgr.rootB
  let okA := a.ok && a.kcv == kcv
  let okB := b.ok && b.kcv == kcv
  if okA && okB then some (if seqNewer b.gen a.gen then b else a)
  else if okA then some a
  else if okB then some b
  else none

/-- A write of a root secret goes to the copy without the newest valid generation (R428). -/
def writeRoot (x : Share) (kcv : List Byte) (s : State) : State :=
  match newestRoot s with
  | some (r, true) => { s with sgr.rootB := ⟨x, r.gen + 1, kcv, true⟩ }
  | some (r, false) => { s with sgr.rootA := ⟨x, r.gen + 1, kcv, true⟩ }
  | none => { s with sgr.rootA := ⟨x, 1, kcv, true⟩ }

/-- The wedge of the root writes a new generation into the older copy (R431). -/
def wedgeRoot (s : State) : State :=
  match newestRoot s with
  | none => s
  | some (r, _) =>
    let (x, s1) := wedge r.share s
    writeRoot x r.kcv s1

/-- The wedge of the COIL key cache. -/
def wedgeCache (s : State) : State :=
  s.sgr.cache.foldl (fun t p =>
    let (d, t1) := wedge p.2.1 t
    let (u, t2) := wedge p.2.2 t1
    { t2 with sgr.cache := tput t2.sgr.cache p.1 (d, u) }) s

/-- WEDGE_PASS (R431): all slots, the COIL cache and the root. -/
def execWedgePass (s : State) : Out :=
  .next (if !s.sgr.trngOk then s
    else
      let s1 := (s.sgr.slots.map (·.1)).foldl (fun t i => wedgeSlot i t) s
      let s2 := wedgeRoot (wedgeCache s1)
      { s2 with sgr.passes := s2.sgr.passes + 1 })

def invB (l : List Byte) : List Byte := l.map (fun x => ~~~ x)

/-- ROOT_INVERT (R431): in backup-only operation both shares of the newest copy are inverted. -/
def execRootInvert (s : State) : Out :=
  .next (if s.boot.st != .backup then s
    else match newestRoot s with
      | some (r, true) => { s with sgr.rootA := { r with share := ⟨invB r.share.v, invB r.share.m⟩ } }
      | some (r, false) => { s with sgr.rootB := { r with share := ⟨invB r.share.v, invB r.share.m⟩ } }
      | none => s)

/-! ### The DRBG (R422) -/

/-- TRNG_HEALTH_FAIL: the DRBG stops. -/
def execTrngHealthFail (s : State) : Out := .next (if running s then raiseLive 13 0 { s with sgr.trngOk := false } else s)

/-- TRNG_RESTART_DONE: reseeded, and the fault is resolved. -/
def execTrngRestartDone (s : State) : Out :=
  .next (if bit (getBlk s 13).flive 0 then
      resolve 13 0 (fallLive 13 0 { s with sgr.trngOk := true, sgr.reqs := 0, free := s.free + 1 })
    else s)

/-- DRBG_RESEED: every 60 s; the reseed after 2^20 requests is the last of them's (`drawRandom`). -/
def execDrbgReseed (s : State) : Out :=
  .next (if s.sgr.trngOk then { s with sgr.reqs := 0, free := s.free + 1 } else s)

/-! ### Slot records (R432, R433) -/

def slotRecKey (i : Nat) : Nat := nvKey .slotRec i

/-- The newest bytes of one location of a slot's record, the queue of commit groups included. -/
def slotLoc (s : State) (i loc : Nat) : Option (List Byte) :=
  let queued := s.nvs.groups.foldl (fun (b : Option (List Byte)) g => match g.act with
    | .recs _ l => l.foldl (fun b x => match x.2.2.1 with
        | .bytes p => if x.1 == slotRecKey i && x.2.1 == loc then some p else b
        | _ => b) b
    | _ => b) none
  match queued with
  | some b => if b.isEmpty then none else some b
  | none => match validCopy s (slotRecKey i) loc with
    | some c => match c.val with
      | .bytes b => if b.isEmpty then none else some b
      | _ => none
    | none => none

/-- The slots that have records (R433). -/
def slotNums : List Nat := [5, 6] ++ (List.range 55).map (· + 9)

/-- A record of the slot was written and stands. -/
def slotStored (s : State) (i : Nat) : Bool := (slotLoc s i 0).isSome || (slotLoc s i 1).isSome

/-- The newest key of a slot and its generation, loads and a change under way included. -/
def newestKey (s : State) (i : Nat) : Share × W32 :=
  let k := (getSlot s i).taken
  let a : Share × W32 := match (s.sgr.loads.filter (fun x => x.2.1 == i)).getLast? with
    | some x => x.2.2
    | none => (k.key, k.gen)
  match s.sgr.change.bind (fun c => c.slots.find? (fun x => x.1 == i)) with
  | some y => if seqNewer y.2 a.2 then (a.1, y.2) else a
  | none => a

/-- A key is installed in the slot, or being installed. -/
def slotValid (s : State) (i : Nat) : Bool := (getSlot s i).st == 1 || s.sgr.loads.any (fun x => x.2.1 == i)

/-- The location that does not hold generation `g`. -/
def freeLoc (s : State) (i : Nat) (g : W32) : Nat :=
  match slotLoc s i 0 with
  | some b => if rd b 4 4 == g.toNat then 1 else 0
  | none => 0

/-- Bytes of a wrapped key: a policy with LEN 2 holds a public key (R433). -/
def wrapLen (pol : Nat) : Nat := if pol / 64 % 4 = 2 then 96 else 48

/-- The payload of a slot record under a policy, with a fresh nonce (R433). -/
def slotPayload (i pol : Nat) (g : W32) (kcv kst key : List Byte) (s : State) : List Byte × State :=
  let (nonce, s1) := drawRandom 12 s
  let aad := le 1 i ++ zeros 3 ++ le 4 g.toNat ++ kcv ++ nonce
  let n := wrapLen pol
  let sealed := padTo (n + 16) (Config.gcmSeal kst nonce aad (padTo n key))
  (aad ++ sealed ++ zeros 4, s1)

/-- KCV and K_st of the root that a slot record written now will be read under: a change being applied brings its
own. -/
def wrapRoot (s : State) : Option (List Byte × List Byte) :=
  let own := (slotKey s 3).map (fun k => (gKcv s.sgr.guard_, k))
  match s.sgr.change with
  | some c => match c.root with
    | some k => some (kcvOf k, kdfId k lStore 32)
    | none => if c.rootErased then none else own
  | none => own

/-- SLOT_REWRAP (R432): a fresh nonce and the generation incremented. A loaded key that waits is taken over first; a slot
whose newer record is still being written is left to that. -/
def execSlotRewrap (i : Nat) (s : State) : Out :=
  let k := (getSlot s i).taken
  .next (match wrapRoot s with
    | some (kcv, kst) =>
      if k.st == 1 && slotNums.contains i && s.sgr.trngOk && !gasped s && (newestKey s i).2 == k.gen then
        let g := k.gen + 1
        let (b, s1) := slotPayload i (policyOf s i) g kcv kst k.key.key s
        pushGroups [⟨.recs 0 [(slotRecKey i, freeLoc s i k.gen, .bytes b, g)], 1, true, none, none, none⟩]
          (wedgeSlot 3 (setSlot i { k with gen := g } s1))
      else s
    | none => s)

/-! ### Results (R439, R440, R442) -/

/-- A Ring 10 record. -/
def ring10Bytes (seq : W32) (typ : Nat) (st : Stamp) (addr : Nat) (tag : W32) (status : W16) (op : Byte) (body : List Byte) :
    List Byte :=
  le 4 seq.toNat ++ le 2 typ ++ le 2 (40 + body.length) ++ st.bytes ++ le 4 addr ++ le 4 tag.toNat ++ le 2 status.toNat
    ++ [op] ++ zeros 5 ++ body

/-- Envelope counters and the load counter persist in the Saggar's state in Q3 (R442). -/
def relayVal (s : State) : NvVal := .bytes (le 8 s.sgr.envDown.toNat ++ le 8 s.sgr.envUp.toNat ++ le 8 s.sgr.loadCtr.toNat)
def writeRelay (s : State) : State := ownWrite (nvKey .relay 0) (relayVal s) 1 s

/-- A worker's KEY frame with a result: under K_up, or under K_fup with its own envelope counter (R442). -/
def sendKey (route : Nat) (op : Byte) (data : List Byte) (s : State) : State :=
  let p := identBytes ++ [1, BitVec.ofNat 8 (route - 1), op, 0] ++ data
  if route == 1 then
    match slotKey s 6 with
    | none => s
    | some key => emit (.frame (authFrame (upPort s) 1 6 true 0xFF (wSource s) s.coil.w.ring.toNat key s.nvs.session s.coil.w.ownCtr p))
        { s with coil.w.ownCtr := s.coil.w.ownCtr + 1 }
  else
    emit (.frame (authFrame (upPort s) 1 6 true 0xFF (wSource s) s.coil.w.ring.toNat kFup 0xFFFFFFFF s.sgr.envUp p))
      (writeRelay { s with sgr.envUp := s.sgr.envUp + 1 })

/-- The end of a Saggar request: exactly one result record, whose status the completion carries (R439). -/
def sagDone (r : SReq) (status : W16) (body : List Byte) (s : State) : State :=
  let q := s.sgr.seq
  let b := ring10Bytes q 0x00D0 r.stamp r.addr r.w.tag status r.w.op (if status == statusOk then body else [])
  let s1 := { s with sgr.seq := q + 1 }
  if r.route == 0 then pushResult 10 q b r.w ⟨status, 0, 0, []⟩ s1 else sendKey r.route r.w.op b s1

/-- A Saggar request waits for a key operation. -/
def sagWait (r : SReq) (op : KeyOp) (s : State) : State :=
  let s1 := { s with sgr.ops := s.sgr.ops ++ [op] }
  if r.route == 0 then waitReq r.w s1 else s1

/-! ### Requests that take no time -/

/-- The identity certificate (R424). -/
def certBytes : List Byte :=
  [0x4B, 0x51, 0x49, 0x43] ++ le 2 1 ++ le 2 256 ++ identBytes ++ padTo 96 (Config.ecdsaPublic identKey)
    ++ le 4 Config.certTime.toNat ++ le 8 Config.certIssuer.toNat ++ zeros 36 ++ padTo 96 Config.certSignature

def sagCert (r : SReq) (s : State) : State := sagDone r statusOk certBytes s
def sagGuardRead (r : SReq) (s : State) : State := sagDone r statusOk (guardNormal s s.sgr.guard_ ++ apprPayload s) s

/-- KEY_ERASE (R439, R445): both locations of the slot's record are emptied. -/
def sagKeyErase (r : SReq) (s : State) : State :=
  let i := rd r.body 0 1
  if i > 63 || !zerosAt r.body 1 3 then sagDone r statusRange [] s
  else if !(policyOf s i).testBit 4 then sagDone r statusDenied [] s
  else
    let g := (getSlot s i).gen
    let s1 := pushGroups [⟨.recs 0 [(slotRecKey i, 0, .bytes [], g), (slotRecKey i, 1, .bytes [], g)], 2, true, none, none, none⟩]
      (emptySlot i s)
    sagDone r statusOk [] (blockEvent 13 3 [BitVec.ofNat 8 i, 0] s1)

/-- Check value of a slot's key (R444). -/
def slotCheck (s : State) (i : Nat) : List Byte :=
  match slotKey s i with
  | none => zeros 8
  | some k =>
    if policyOf s i / 64 % 4 = 2 then padTo 8 ((Config.sha384 k).take 8) else kcvOf k

/-- KEY_INFO (R444). -/
def sagKeyInfo (r : SReq) (s : State) : State :=
  let i := rd r.body 0 1
  let k := getSlot s i
  if i > 63 || !zerosAt r.body 1 3 then sagDone r statusRange [] s
  else sagDone r statusOk (le 1 i ++ le 1 k.st.toNat ++ zeros 2 ++ le 4 (policyOf s i)
    ++ le 4 (if i ≤ 4 || i = 7 || i = 8 then 0 else k.gen.toNat) ++ slotCheck s i) s

/-- RANDOM (R439, R422). -/
def sagRandom (r : SReq) (s : State) : State :=
  let n := rd r.body 0 2
  if n = 0 || n > 1024 || !zerosAt r.body 2 2 then sagDone r statusRange [] s
  else if !s.sgr.trngOk then sagDone r statusNotReady [] s
  else
    let (b, s1) := drawRandom n s
    sagDone r statusOk b s1

/-- ATTEST (R441): the signature needs a random k (R420, R422). -/
def sagAttest (r : SReq) (s : State) : State :=
  if !s.sgr.trngOk then sagDone r statusNotReady [] s else sagWait r (.attest r) s

/-! ### KEY_LOAD (R443) -/

/-- The checks of KEY_LOAD up to the tag. The body starts at byte 8 of the request. -/
def loadBad (s : State) (b : List Byte) : Option W16 :=
  let i := rd b 8 1
  let p := policyOf s i
  firstBad [(!s.sgr.keyed, statusNotReady),
    (!zerosAt b 9 7 || i < 5 || i > 63 || (i < 9 && !(isWorker s && (i == 5 || i == 6)))
      || b.length != (if p / 64 % 4 = 2 then 148 else 100), statusRange),
    (p % 16 == 0 || !p.testBit 5, statusDenied),
    (b.take 8 != identBytes, statusAuthFail)]

def sagKeyLoad (r : SReq) (s : State) : State :=
  match loadBad s r.body with
  | some st => sagDone r st [] s
  | none => sagWait r (.load r (policyOf s (rd r.body 8 1))) s

/-- The rest of KEY_LOAD after its tag was checked: the envelope opens under K_env with bytes 0 to 43 as additional data,
and phase 1 writes the new key (R433, R443), under the policy of the operation's start (R438). -/
def loadEnd (r : SReq) (pol : Nat) (s : State) : State :=
  let b := r.body
  let i := rd b 8 1
  let len2 := pol / 64 % 4 == 2
  let n := wrapLen pol
  let hdr := le 4 r.addr ++ zeros 4
  match Config.gcmOpen kEnv ((b.drop 24).take 12) (hdr ++ b.take 36) ((b.drop 36).take n) ((b.drop (36 + n)).take 16),
      wrapRoot s with
  | none, _ => sagDone r statusAuthFail [] s
  | _, none => sagDone r statusNotReady [] s
  | some key, some (kcv, kst) =>
    if len2 && !Config.onCurve key then sagDone r statusRange [] s
    else if rd b 16 8 ≤ s.sgr.loadCtr.toNat then sagDone r statusStale [] s
    else if !s.sgr.trngOk then sagDone r statusNotReady [] s
    else
      let k := if pol / 64 % 4 == 0 then key.take 32 else key
      let g := (newestKey s i).2 + 1
      let (x, s1) := mkShare k s
      let (p, s2) := slotPayload i pol g kcv kst k s1
      let s3 := writeRelay { s2 with sgr.loadCtr := BitVec.ofNat 64 (rd b 16 8), sgr.loads := s2.sgr.loads ++ [(r, i, x, g)] }
      let s4 := pushGroups [⟨.recs 3 [(slotRecKey i, freeLoc s i (g - 1), .bytes p, g)], 1, true, none, none, none⟩] s3
      if r.route == 0 then waitReq r.w s4 else s4

/-- Phase 1 of a key load is committed: the request completes, and the next wedge of the slot takes the key, unless a
KEY_ERASE accepted since has emptied the slot. -/
def loadCommitted (s : State) : State :=
  match s.sgr.loads with
  | [] => s
  | (r, i, x, g) :: rest =>
    let k := getSlot s i
    let s0 := { s with sgr := { s.sgr with
      loads := rest
      dnMark := if i = 5 then s.coil.w.dnUses else s.sgr.dnMark
      upMark := if i = 6 then s.coil.w.ownCtr else s.sgr.upMark } }
    let s1 := if slotStored s i then setSlot i { k with next := some (x, g) } s0 else s0
    sagDone r statusOk [] (blockEvent 13 2 (le 1 i ++ zeros 3 ++ le 4 g.toNat) s1)

/-! ### ATTEST (R441) -/

/-- The header of the image received or running. -/
def imgHeader (s : State) : List Byte := padTo 512 (((s.boot.img.units.filter (fun u => u.1 < 32)).flatMap (·.2)))

def roleNum : Role → Nat
  | .standalone => 0
  | .manager => 1
  | .worker => 2
  | .noRole => 3

/-- GLB_ROLE.ROLE: none is in effect in HOLD (R415). -/
def roleShown (s : State) : Nat := if s.boot.st == .hold then 3 else roleNum s.boot.role

/-- Bytes 40 to 247 of the ATTEST record. -/
def attestBody (s : State) (nonce : List Byte) : List Byte :=
  identBytes ++ (if s.boot.fired then ((imgHeader s).drop 40).take 96 else zeros 96) ++ le 1 (bootNum s.boot.st)
    ++ le 1 s.boot.img.state.toNat ++ le 1 s.boot.match_.toNat ++ [s.sgr.appr] ++ le 4 (gCounter s.sgr.guard_)
    ++ le 4 s.nvs.session.toNat ++ le 1 (bitAt s.sgr.keyed 0 + bitAt (gClaimed s.sgr.guard_) 1) ++ le 1 (roleShown s)
    ++ le 1 s.nvs.prot.toNat ++ [0] ++ nonce ++ (if s.sgr.keyed then gKcv s.sgr.guard_ else zeros 8)
    ++ padTo 48 (Config.sha384 (guardNormal s s.sgr.guard_))

/-- ATTEST ends: the signature by slot 0 over SHA-384 of bytes 0 to 247 of the record. -/
def attestEnd (r : SReq) (s : State) : State :=
  let body := attestBody s (padTo 32 r.body)
  let q := s.sgr.seq
  let first := (ring10Bytes q 0x00D0 r.stamp r.addr r.w.tag statusOk r.w.op (body ++ zeros 96)).take 248
  let sig := padTo 96 (Config.ecdsaSign identKey (Config.sha384 first) s.free)
  sagDone r statusOk (body ++ sig) (wedgeSlot 0 { s with free := s.free + 1 })

/-! ### Change records (R434-R438) -/

/-- The items between byte 24 and the end: code and value. -/
def itemsOf : Nat → List Byte → Option (List (Nat × List Byte))
  | 0, b => if b.isEmpty then some [] else none
  | n + 1, b =>
    if b.isEmpty then some []
    else
      let len := rd b 2 2
      if b.length < 4 || rd b 1 1 != 0 || len % 4 != 0 || b.length < 4 + len then none
      else (itemsOf n (b.drop (4 + len))).map (fun t => (rd b 0 1, (b.drop 4).take len) :: t)

/-- Value length and reserved bytes of an item (R434). -/
def itemForm (x : Nat × List Byte) : Bool :=
  let v := x.2
  match x.1 with
  | 1 => v.length == 32
  | 2 => v.length == 4 && zerosAt v 1 3
  | 3 => v.length == 8 && zerosAt v 1 3
  | 4 => v.length == 4 && zerosAt v 2 2
  | 5 => v.length == 4 && zerosAt v 1 3 && rd v 0 1 < 8
  | 6 => v.length == 4 && zerosAt v 1 3 && rd v 0 1 < 2
  | 7 => v.length == 100 && zerosAt v 1 3 && rd v 0 1 < 2
  | 8 => v.length == 0 || v.length == 76
  | _ => false

/-- Code of an item; the two party keys count as different items (log entry 29). -/
def itemId (x : Nat × List Byte) : Nat := x.1 + (if x.1 = 7 then 256 * (1 + rd x.2 0 1) else 0)

def recClaim (b : List Byte) : Bool := rd b 21 1 == 1

/-- Start of the signatures of a change record. -/
def recE (b : List Byte) : Nat := b.length - (if recClaim b then 240 else 192)

def recItems (b : List Byte) : Option (List (Nat × List Byte)) := itemsOf 8 ((b.take (recE b)).drop 24)

/-- The form of a change record (R436). -/
def recForm (b : List Byte) : Bool :=
  rd b 0 4 == 0x4347514B && rd b 4 2 == 1 && rd b 21 1 ≤ 1 && zerosAt b 22 2 && recE b ≥ 24 &&
    (match recItems b with
     | some l => l.length == rd b 20 1 && 1 ≤ l.length && l.length ≤ 8 && l.all itemForm && distinct (l.map itemId)
     | none => false)

def itemOf (l : List (Nat × List Byte)) (id : Nat) : Option (List Byte) := (l.find? (fun x => itemId x == id)).map (·.2)

/-- The checks of R437 up to the signatures. -/
def changeBad (s : State) (b : List Byte) : Option W16 :=
  let g := s.sgr.guard_
  let l := (recItems b).getD []
  let n := rd b 16 4
  let busy := s.sgr.change.isSome || s.sgr.ops.any (fun o => match o with
    | .change _ => true
    | _ => false)
  let claimOk := recClaim b && (itemOf l 263).isSome && (itemOf l 519).isSome && n == 1
  firstBad [(busy, statusBusy), (!recForm b, statusRange), ((b.drop 8).take 8 != identBytes, statusAuthFail),
    (if gClaimed g then recClaim b else !claimOk, statusDenied), (n ≤ gCounter g, statusStale),
    (n > gCounter g + 1 || gCounter g == 0xFFFFFFFF, statusRange)]

/-- A refusal with AUTH_FAIL or STALE is counted and raises CHANGE_REFUSED (R437). -/
def changeRefuse (r : SReq) (st : W16) (s : State) : State :=
  let s1 := if st == statusAuthFail then raise 13 5 { s with sgr.refAuth := satInc s.sgr.refAuth }
    else if st == statusStale then raise 13 5 { s with sgr.refStale := satInc s.sgr.refStale } else s
  sagDone r st [] s1

def sagGuardChange (r : SReq) (s : State) : State :=
  match changeBad s r.body with
  | some st => changeRefuse r st s
  | none => sagWait r (.change r) s

/-- The signatures, and the claim MAC (R436, R437). -/
def sigsOk (s : State) (b : List Byte) : Bool :=
  let e := recE b
  let l := (recItems b).getD []
  let key (i : Nat) : List Byte :=
    if recClaim b then (((itemOf l (7 + 256 * (1 + i))).getD []).drop 4).take 96 else gParty s.sgr.guard_ i
  let dig (x : Byte) : List Byte := Config.sha384 (x :: b.take e)
  Config.ecdsaVerify (key 0) (dig 1) ((b.drop e).take 96) && Config.ecdsaVerify (key 1) (dig 2) ((b.drop (e + 96)).take 96)
    && (!recClaim b || Config.hmac kClaim (b.take (e + 192)) == (b.drop (e + 192)).take 48)

/-- The rules of R453 and R452 for a tamper item. -/
def tamperItemOk (s : State) (v : List Byte) : Bool :=
  let ctl (i : Nat) : Nat := rd v (4 * i) 1
  let mode (i : Nat) : Nat := ctl i / 32 % 4
  (List.range 8).all (fun i =>
    rd v (4 * i + 1) 1 ≥ 1 && !winBad (BitVec.ofNat 8 (rd v (4 * i + 2) 1)) && rd v (4 * i + 3) 1 == 0 && ctl i < 128
      && (if i < 4 then mode i == 0 else mode i != 3) && !((i == 4 || i == 6) && mode i == 2)
      && !((i == 4 || i == 6) && ctl i % 2 == 1 && mode (i + 1) == 2)
      && !(bit s.fuses.tamperOff i && ctl i % 2 == 1))

/-- A policy is allowed for a general slot (R427). -/
def policyOk (i p : Nat) : Bool := 9 ≤ i && i ≤ 63 && p % 16 ≤ 4 && p / 64 % 4 ≤ 2 && p / 256 % 256 ≤ 1 && p / 2 ^ 16 == 0

/-- The approval states after an item, when the transition is allowed and some slot stays ENABLED (R403). -/
def apprNext (a : Byte) (v : List Byte) : Option Byte :=
  let i := rd v 0 1
  let t := rd v 1 1
  let o := apprOf a i
  if i > 3 || !((o == 1 && (t == 2 || t == 3)) || (o == 2 && t == 3)) then none
  else
    let n : Byte := BitVec.ofNat 8 (a.toNat - o * 4 ^ i + t * 4 ^ i)
    if (List.range 4).any (fun k => apprOf n k == 2) then some n else none

/-- FB30 and FB31 carry no other function (R491). -/
def optFree (s : State) : Bool := claimOk s 30 fnOptTx 0 && claimOk s 31 fnOptRx 0

/-- The root that a root item installs: opened under K_env with identity number and counter as additional data. -/
def rootOf (b v : List Byte) : Option (List Byte) :=
  Config.gcmOpen kEnv (v.take 12) (identBytes ++ (b.drop 16).take 4) ((v.drop 12).take 48) ((v.drop 60).take 16)

/-- The values an item's rule refuses (R437, last check but one). -/
def itemValue (s : State) (b : List Byte) (x : Nat × List Byte) : Bool :=
  let v := x.2
  match x.1 with
  | 1 => tamperItemOk s v
  | 2 => rd v 0 1 ≤ 3
  | 3 => policyOk (rd v 0 1) (rd v 4 4)
  | 4 => (apprNext s.sgr.appr v).isSome
  | 5 => rd v 0 1 / 2 % 4 != 3 && !(rd v 0 1 % 2 == 1 && s.fuses.variant != 1 && rd v 0 1 / 2 % 4 != 2)
  | 6 => rd v 0 1 == 0 || optFree s
  | 7 => Config.onCurve ((v.drop 4).take 96)
  | 8 => v.isEmpty || (gClaimed s.sgr.guard_ && (rootOf b v).isSome)
  | _ => true

/-- Bytes of the payload that an item changes. -/
def itemApply (g : List Byte) (x : Nat × List Byte) : List Byte :=
  let v := x.2
  let fl := rd g 12 1
  match x.1 with
  | 1 => splice g 24 v
  | 2 => splice g 13 (v.take 1)
  | 3 => splice g (256 + 4 * rd v 0 1) ((v.drop 4).take 4)
  | 5 => splice g 12 (le 1 (fl % 2 + rd v 0 1 * 2 + fl / 16 * 16))
  | 6 => splice g 12 (le 1 (fl % 16 + 16 * rd v 0 1))
  | 7 => splice g (56 + 96 * rd v 0 1) (v.drop 4)
  | _ => g

/-- The payload a record leads to. -/
def newGuard (s : State) (b : List Byte) (kcv : Option (List Byte)) : List Byte :=
  let g0 := guardNormal s s.sgr.guard_
  let g1 := ((recItems b).getD []).foldl itemApply g0
  let g2 := splice g1 0 ((b.drop 16).take 4)
  let g3 := if recClaim b then splice g2 12 (le 1 (rd g2 12 1 / 2 * 2 + 1)) else g2
  match kcv with
  | some k => splice g3 16 k
  | none => g3

/-- The slot record that rewraps one installed key under a new K_st. -/
def rewrapSlot (kcv kst : List Byte) (acc : List (Nat × Nat × NvVal × W32) × List (Nat × W32) × State) (i : Nat) :
    List (Nat × Nat × NvVal × W32) × List (Nat × W32) × State :=
  let (rs, ks, s) := acc
  let k := newestKey s i
  let g := k.2 + 1
  let (b, s1) := slotPayload i (policyOf s i) g kcv kst k.1.key s
  (rs ++ [(slotRecKey i, freeLoc s i k.2, .bytes b, g)], ks ++ [(i, g)], s1)

/-- Records that empty a slot. -/
def eraseRecs (i : Nat) : List (Nat × Nat × NvVal × W32) := [(slotRecKey i, 0, .bytes [], 0), (slotRecKey i, 1, .bytes [], 0)]

/-- A policy item that changes USE or LEN erases the slot's key (R434). -/
def policyErases (s : State) (l : List (Nat × List Byte)) : List Nat :=
  match itemOf l 3 with
  | some v =>
    let i := rd v 0 1
    let o := policyOf s i
    let n := rd v 4 4
    if o % 16 != n % 16 || o / 64 % 4 != n / 64 % 4 then [i] else []
  | none => []

def maskOf (l : List (Nat × List Byte)) : Byte := l.foldl (fun m x => setBit m (x.1 - 1) true) 0

/-- Loaded keys that wait are taken over (R433). -/
def takeWaiting (s : State) : State :=
  s.sgr.slots.foldl (fun (t : State) (p : Nat × KSlot) => setSlot p.1 (getSlot t p.1).taken t) s

/-- An accepted record is applied (R438, steps 1 to 3) to slots in which no key waits. -/
def applyTaken (r : SReq) (s : State) : State :=
  let b := r.body
  let l := (recItems b).getD []
  let item := itemOf l 8
  let root := item.bind (fun v => if v.isEmpty then none else rootOf b v)
  let erase := item.any (·.isEmpty)
  let kcv := match root with
    | some k => some (kcvOf k)
    | none => if erase then some (zeros 8) else none
  let appr := (itemOf l 4).bind (apprNext s.sgr.appr)
  let g := newGuard s b kcv
  let s1 := match root with
    | some k => let (x, t) := mkShare k s; writeRoot x (kcvOf k) t
    | none => s
  let pol := policyErases s l
  let drop := if item.isSome && (erase || !s.sgr.keyed) then slotNums.filter (fun i => slotStored s i && !pol.contains i) else []
  let keep := if root.isSome && s.sgr.keyed then slotNums.filter (fun i => slotValid s i && !pol.contains i) else []
  let kst := kdfId (root.getD []) lStore 32
  let (rs, ks, s2) := keep.foldl (rewrapSlot (kcv.getD []) kst) ([], [], s1)
  let gone := (pol.filter (slotStored s)).map (fun i => (i, 1)) ++ drop.map (fun i => (i, 2))
  let gq := nextSeq s (nvKey .guarded 0)
  let aq := nextSeq s (nvKey .approval 0)
  let av : NvVal := .bytes (le 4 (gCounter g) ++ [appr.getD s.sgr.appr] ++ zeros 11)
  let copies (c : Nat) : List (Nat × Nat × NvVal × W32) :=
    [(nvKey .guarded 0, c, .bytes g, gq)] ++ (if appr.isSome then [(nvKey .approval 0, c, av, aq)] else [])
  let one := copies 0 ++ rs ++ gone.flatMap (fun x => eraseRecs x.1)
  let ch : Change := ⟨r, g, appr.getD s.sgr.appr, root, erase, ks, gone, maskOf l, recClaim b, false⟩
  let s3 := { s2 with sgr.change := some ch }
  pushGroups [⟨.recs 1 one, min 32 (3 + one.length), true, none, none, none⟩, ⟨.recs 2 (copies 1), 4, true, none, none, none⟩]
    (if r.route == 0 then waitReq r.w s3 else s3)

/-- An accepted record is applied; loaded keys that wait are taken over first. -/
def applyChange (r : SReq) (s : State) : State := applyTaken r (takeWaiting s)

/-- The signature checks of a change record have ended; one that brings keys needs random bits for their masks (R422,
R431). -/
def changeEnd (r : SReq) (s : State) : State :=
  let b := r.body
  let l := (recItems b).getD []
  let g := newGuard s b none
  let parties := (itemOf l 263).isSome || (itemOf l 519).isSome
  if !sigsOk s b then changeRefuse r statusAuthFail s
  else if !l.all (itemValue s b) || (parties && gParty g 0 == gParty g 1) then sagDone r statusRange [] s
  else if !s.sgr.trngOk && (parties || (itemOf l 8).any (!·.isEmpty)) then sagDone r statusNotReady [] s
  else applyChange r s

/-- The keys that derive from a root secret fill slots 2 to 4 (R425, R426). -/
def deriveRoot (root : List Byte) (s : State) : State :=
  let s1 := deriveSlot 3 (kdfId root lStore 32) (deriveSlot 2 (kdfId root lCredit 48) s)
  if isManager s1 then deriveSlot 4 (kdfId root lRm 32) s1 else s1

/-- The chip is UNKEYED (R429): slots 2 to 6 are empty, installed general slots read LOST. -/
def unkey (s : State) : State :=
  let s1 := [2, 3, 4, 5, 6].foldl (fun t i => emptySlot i t) { s with sgr.keyed := false, sgr.cache := [] }
  (slotNums.drop 2).foldl (fun t i =>
    if (getSlot t i).taken.st == 1 then setSlot i { getSlot t i with st := 2, key := Init.share, next := none } t else t) s1

/-- The party keys stand in slots 7 and 8 once claimed (R426). -/
def partySlots (s : State) : State :=
  [0, 1].foldl (fun t i =>
    if gClaimed t.sgr.guard_ then
      let (x, u) := mkShare (gParty t.sgr.guard_ i) t
      setSlot (7 + i) ⟨1, x, 0, none⟩ u
    else emptySlot (7 + i) t) s

/-- The optical port enable acts on its balls; OPT_TX rests high (R489, R491). A session in progress ends. -/
def optApply (on : Bool) (s : State) : State :=
  if on then
    let s1 := claim 31 fnOptRx 0 (claim 30 fnOptTx 0 { s with trf.optEn := true })
    if metering s1 then driveBall 30 true s1 else s1
  else if s.trf.optEn then
    let s1 := release 31 (release 30 { s with trf.optEn := false })
    { s1 with trf.opt := { s1.trf.opt with st := .idle } }
  else s

/-- An installed slot in FUSE: the valid location under the root in use, of the newest generation (R433). -/
def fuseSlot (s : State) (i : Nat) : State :=
  let kcv := gKcv s.sgr.guard_
  let locs := [0, 1].filterMap (slotLoc s i)
  match slotKey s 3 with
  | none => if locs.isEmpty then s else setSlot i { Init.kslot with st := 2 } s
  | some kst =>
    let n := if policyOf s i / 64 % 4 = 2 then 96 else 48
    let open_ (b : List Byte) : Option (W32 × List Byte) :=
      if (b.drop 8).take 8 == kcv then
        (Config.gcmOpen kst ((b.drop 16).take 12) (b.take 28) ((b.drop 28).take n) ((b.drop (28 + n)).take 16)).map
          (fun k => (BitVec.ofNat 32 (rd b 4 4), if policyOf s i / 64 % 4 = 0 then k.take 32 else k))
      else none
    match (locs.filterMap open_).foldl (fun (best : Option (W32 × List Byte)) x =>
        match best with
        | some y => if seqNewer x.1 y.1 then some x else best
        | none => some x) none with
    | some (g, k) =>
      let (x, s1) := mkShare k s
      setSlot i ⟨1, x, g, none⟩ s1
    | none => if locs.isEmpty then s else raise 13 2 (setSlot i { Init.kslot with st := 2 } s)

/-- HOLD ends when the lock is cleared or locks the strapped role: the strapped role takes effect and CAL follows
(R22, R415). -/
def strapRole (s : State) : Role :=
  if s.fuses.variant != 1 then .worker
  else match s.boot.strap.toNat with
    | 0 => .standalone
    | 1 => .manager
    | 2 => .worker
    | _ => .noRole

/-- The slots whose use hangs on the role: Rm of a manager, the ring keys of a worker (R426). -/
def roleSlots (s : State) : State :=
  let s1 := if isManager s then
      match rootFor s (gKcv s.sgr.guard_) with
      | some r => if s.sgr.keyed then deriveSlot 4 (kdfId r.share.key lRm 32) s else s
      | none => s
    else emptySlot 4 s
  if isWorker s1 && s1.sgr.keyed then fuseSlot (fuseSlot s1 5) 6 else emptySlot 6 (emptySlot 5 s1)

/-- The role-mismatch fault of a worker-only variant whose straps select another role stays live (R20). -/
def strapMismatch (s : State) : Bool := s.fuses.variant != 1 && s.boot.strap != 2

def endHold (s : State) : State :=
  let g := s.sgr.guard_
  if s.boot.st == .hold && (!gLocked g || gLockRole g == roleNum (strapRole s)) then
    let s1 := roleSlots { s with boot := { s.boot with st := .cal, role := strapRole s, holdCause := 0, calDone := false } }
    if strapMismatch s then s1 else fallLive 17 0 s1
  else s

/-- Both groups of a change are committed: its settings take effect, and it completes (R438 steps 4 and 5, R445). -/
def finishChange (c : Change) (s : State) : State :=
  let oldProt := s.nvs.prot
  let prot : BitVec 2 := BitVec.ofNat 2 (gProt c.guard_)
  let s1 := { s with sgr := { s.sgr with guard_ := c.guard_, appr := c.appr, change := none }, nvs.prot := prot }
  let s2 := c.erased.foldl (fun t x => emptySlot x.1 t) s1
  let s3 := match c.root with
    | some k => (c.slots.foldl (fun (t : State) (x : Nat × W32) => setSlot x.1 { (getSlot t x.1).taken with gen := x.2 } t)
        (deriveRoot k { s2 with sgr.keyed := true }))
    | none => if c.rootErased then unkey s2 else s2
  let s4 := optApply (gOptEn c.guard_) (partySlots { s3 with tmp.bkSet := (gTamper c.guard_).drop 16 })
  let s5 := blockEvent 13 1 (le 4 (gCounter c.guard_) ++ [c.mask] ++ le 1 (bitAt c.claim 0)) s4
  let s6 := c.erased.foldl (fun t x => blockEvent 13 3 (le 1 x.1 ++ le 1 x.2) t) s5
  let s7 := if c.root.isSome then blockEvent 13 4 (le 1 0 ++ zeros 3 ++ gKcv c.guard_) s6
    else if c.rootErased then blockEvent 13 4 (le 1 1 ++ zeros 3 ++ gKcv c.guard_) s6 else s6
  let s8 := if prot != oldProt then blockEvent 9 1 (le 1 oldProt.toNat ++ le 1 prot.toNat) s7 else s7
  endHold (sagDone c.r statusOk [] s8)

/-- Step 3 of one of the Saggar's commit groups has ended. -/
def sagCommitted (tag : Nat) (s : State) : State :=
  match tag with
  | 1 => { s with sgr.change := s.sgr.change.map (fun c => { c with committed := true }) }
  | 2 => match s.sgr.change with
    | some c => finishChange c s
    | none => s
  | 3 => loadCommitted s
  | _ => s

/-! ### Aborts (R430, R432, R438) -/

/-- A key operation in progress is aborted. -/
def abortOp (s : State) : KeyOp → State
  | .change r => sagDone r statusTamperAbort [] s
  | .load r _ => sagDone r statusTamperAbort [] s
  | .attest r => sagDone r statusTamperAbort [] s
  | .token w b => answer w (tokenJudge w b none s)

/-- Every key operation in progress is aborted, the verification of an image among them (R432, R409). -/
def abortOps (s : State) : State :=
  let s1 := s.sgr.ops.foldl abortOp { s with sgr.ops := [] }
  { s1 with boot.abort := s1.boot.abort || s1.boot.st == .verify || (s1.boot.st == .hold && s1.boot.img.endAcc) }

/-- A commit group of the Saggar's with one of some tags: 1 and 2 of a change, 3 of a key load. -/
def sagGroup (tags : List Nat) (g : Group) : Bool :=
  match g.act with
  | .recs t _ => tags.contains t
  | _ => false

/-- The Saggar's groups of some tags are abandoned, but for one at the front whose commit has ended. -/
def dropGroups (tags : List Nat) (s : State) : State :=
  match s.nvs.groups with
  | [] => s
  | g :: rest =>
    let keep := rest.filter (fun g => !sagGroup tags g)
    if sagGroup tags g && s.nvs.gstep ≤ 3 then { s with nvs := { s.nvs with groups := keep, gstep := 0, gleft := 0 } }
    else { s with nvs.groups := g :: keep }

/-- A change that is being applied: before group one commits it is abandoned with TAMPER_ABORT; after, the root it
installs is erased (R438). -/
def abortChange (s : State) : State :=
  match s.sgr.change with
  | none => s
  | some c =>
    if c.committed then
      { s with sgr.change := some { c with rootErased := c.rootErased || c.root.isSome, root := none, slots := [] } }
    else sagDone c.r statusTamperAbort [] (dropGroups [1, 2] { s with sgr.change := none })

/-- Key loads whose phase 1 is not committed end TAMPER_ABORT with the root that wraps them (R430, R443). -/
def abortLoads (s : State) : State :=
  s.sgr.loads.foldl (fun t x => sagDone x.1 statusTamperAbort [] t) (dropGroups [3] { s with sgr.loads := [] })

/-- ZEROIZE_ROOT (R430): both root copies and every root-derived or installed key. -/
def zeroize (s : State) : State :=
  abortChange (abortLoads (unkey { s with sgr.rootA := Init.rootCopy, sgr.rootB := Init.rootCopy }))

/-! ### Key operations end (R420, R432) -/

/-- The identity of a token is another chip's, or no credit key is held (R255, R256, R429). -/
def tokenEnd (w : Waiter) (b : List Byte) (s : State) : State :=
  match slotKey s 2 with
  | none => answer w (.fail statusNotReady s)
  | some k => wedgeSlot 2 (answer w (tokenJudge w b (some (Config.hmac k (b.take 48))) s))

/-- KEY_OPERATION_END: the oldest key operation completes, its slot is wedged, and its requester continues. -/
def execKeyOperationEnd (s : State) : Out :=
  .next (match s.sgr.ops with
    | [] => s
    | op :: rest =>
      let s1 := { s with sgr.ops := rest }
      match op with
      | .change r => wedgeSlot 8 (wedgeSlot 7 (wedgeSlot 1 (changeEnd r s1)))
      | .load r pol => wedgeSlot 3 (wedgeSlot 1 (loadEnd r pol s1))
      | .attest r => attestEnd r s1
      | .token w b => tokenEnd w b s1)

/-- CREDIT_TOKEN (R255, R256): the checks up to the identity at once, the tag as a key operation. -/
def execCreditToken (r : Req) (s : State) : Out :=
  let w := reqWaiter r 11 0x60
  let b := r.buf
  let a := rd b 4 4
  .next (if !metering s then complete w statusNotReady 0 [] s
    else if b.length != 96 then complete w statusBadLength 0 [] s
    else if tokenBad b || a ≥ 2 ^ 17 then complete w statusRange 0 [] s
    else match (match r.via with
        | .coil => Dest.own
        | .host => addrCheck s (a / 2 ^ 15) (a / 2 ^ 8 % 128)) with
      | .refused st => complete w st 0 [] s
      | .worker k pos => forward w k pos b s
      | .own =>
        let p := rd b 4 1
        if (getPt s p).dfn.isNone || !(getPcfg s p).prepay then complete w statusRange 0 [] s
        else if (b.drop 32).take 8 != identBytes then
          complete w statusAuthFail 0 [] (tokenRefuse statusAuthFail b s)
        else if (slotKey s 2).isNone then complete w statusNotReady 0 [] s
        else waitReq w { s with sgr.ops := s.sgr.ops ++ [.token w b] })

/-! ### Ring 9 (R439) -/

/-- The operation of a request on this chip. -/
def sagOwn (op : Nat) (r : SReq) (s : State) : State :=
  match op with
  | 0x40 => sagAttest r s
  | 0x41 => sagCert r s
  | 0x42 => sagGuardChange r s
  | 0x43 => sagGuardRead r s
  | 0x44 => sagKeyLoad r s
  | 0x45 => sagKeyErase r s
  | 0x46 => sagKeyInfo r s
  | 0x47 => sagRandom r s
  | _ => sagDone r statusBadOpcode [] s

/-- Length of a request's bytes from 8 on; a change record's is the N that it names (R436, R437). -/
def sagLen (op : Nat) (b : List Byte) : Bool :=
  let n := b.length
  match op with
  | 0x40 => n == 32
  | 0x41 => n == 0
  | 0x42 => 220 ≤ n && n ≤ 2032 && n % 4 == 0 && rd b 6 2 == n
  | 0x43 => n == 0
  | 0x44 => n == 100 || n == 148
  | 0x45 => n == 4
  | 0x46 => n == 4
  | 0x47 => n == 4
  | _ => false

/-- Requests served from FIRED and in HOLD; the others wait for METERING. -/
def sagEarly (op : Nat) : Bool := op == 0x40 || op == 0x41 || op == 0x42 || op == 0x43

/-- The manager sends a request to a worker in a KEY frame under K_down (R442). -/
def forwardKey (r : SReq) (k pos : Nat) (s : State) : State :=
  match downKey s k pos with
  | none => sagDone r statusUnavailable [] s
  | some key =>
    let e := getEnt s k pos
    let t := s.hif.mtag
    let s1 := waitReq r.w { s with hif.mtag := t + 1, hif.fwd := s.hif.fwd ++ [⟨r.w, k, pos, t, r.w.op, s.slot, r.stamp, none⟩] }
    let p := le 8 e.ident.toNat ++ [0, 0, r.w.op, 0] ++ r.body
    emit (.frame (authFrame (downPort s k pos) 1 6 false 0xFF 0 k key s.nvs.session s.coil.ownCtr p))
      { s1 with coil.ownCtr := s1.coil.ownCtr + 1 }

/-- The common checks of Ring 9; every request ends in one result record. -/
def ring9 (op : Nat) (r : Req) (s : State) : Out :=
  let a := rd r.buf 0 4
  let q : SReq := ⟨reqWaiter r 9 (BitVec.ofNat 8 op), nowStamp s, 0, a % 2 ^ 17 / 256 * 256, r.buf.drop 8⟩
  .next (match r.via with
    | .coil => s
    | .host =>
      match firstBad [(if sagEarly op then !s.boot.fired else !metering s, statusNotReady),
          (r.buf.length < 8 || !sagLen op (r.buf.drop 8), statusBadLength),
          (!zerosAt r.buf 4 4 || a % 256 != 0 || a ≥ 2 ^ 17, statusRange)] with
      | some st => sagDone q st [] s
      | none => match addrCheck s (a / 2 ^ 15) (a / 2 ^ 8 % 128) with
        | .refused st => sagDone q st [] s
        | .worker k pos => forwardKey q k pos s
        | .own => sagOwn op q s)

def execAttest (r : Req) (s : State) : Out := ring9 0x40 r s
def execCertRead (r : Req) (s : State) : Out := ring9 0x41 r s
def execGuardChange (r : Req) (s : State) : Out := ring9 0x42 r s
def execGuardRead (r : Req) (s : State) : Out := ring9 0x43 r s
def execKeyLoad (r : Req) (s : State) : Out := ring9 0x44 r s
def execKeyErase (r : Req) (s : State) : Out := ring9 0x45 r s
def execKeyInfo (r : Req) (s : State) : Out := ring9 0x46 r s
def execRandom (r : Req) (s : State) : Out := ring9 0x47 r s

/-- KEY_RELAY (R442): an envelope frame goes out verbatim on the ring that the address names. -/
def execKeyRelay (r : Req) (s : State) : Out :=
  let b := r.buf
  let a := rd b 0 4
  let q : SReq := ⟨reqWaiter r 9 0x48, nowStamp s, 0, a % 2 ^ 17 / 256 * 256, b.drop 8⟩
  let k := a / 2 ^ 15
  let f : Frame := ⟨if (getPort s (2 * k)).wrap then 2 * k + 1 else 2 * k, 1, 6, 1, b.length - 36, 0xFF, 0, k, 0,
    BitVec.ofNat 32 (rd b 8 4), BitVec.ofNat 64 (rd b 12 8), b.drop 36, (b.drop 20).take 16, 0⟩
  .next (match r.via with
    | .coil => s
    | .host =>
      match firstBad [(!s.boot.fired, statusNotReady), (b.length < 48 || b.length > 2084, statusBadLength),
          (!zerosAt b 4 4 || a % 2 ^ 15 != 0 || a ≥ 2 ^ 17, statusRange), (!isManager s, statusNotReady),
          (!ringEn s k, statusRange)] with
      | some st => sagDone q st [] s
      | none => sagDone q statusOk [] (emit (.frame (sealFrame f)) s))

/-! ### KEY frames (R442) -/

/-- A worker takes up a request of a KEY frame; the tag of its record is not carried by the frame (log entry 30). In a
fail-stop no image passes it on (R475, R478). -/
def keyRequest (route : Nat) (p : List Byte) (s : State) : State :=
  let op := rd p 10 1
  let (t, s1) := drawNat s
  let q : SReq := ⟨⟨9, .coil, 0, BitVec.ofNat 32 t, false, BitVec.ofNat 8 op⟩, nowStamp s, route, chipAddr s 0, p.drop 12⟩
  if failed s then s
  else if op < 0x40 || 0x47 < op then sagDone q statusBadOpcode [] s1
  else if if sagEarly op then !s.boot.fired else !metering s then sagDone q statusNotReady [] s1
  else if !sagLen op (p.drop 12) then sagDone q statusBadLength [] s1
  else sagOwn op q s1

/-- Requests that an unkeyed or unassigned worker takes under envelope keys. -/
def envelopeOp (op : Nat) : Bool := op == 0x40 || op == 0x42 || op == 0x44

/-- A KEY frame at a worker (R442). -/
def keyAtWorker (f : Frame) (s : State) : State :=
  let p := f.payload
  if f.dst != 0xFF || p.length < 12 || p.take 8 != identBytes || rd p 8 1 != 0 then s
  else if frameBad f then countCrc s
  else if rd p 9 1 == 0 then workerAuth 1 6 f (keyRequest 1 p) s
  else if f.session != 0xFFFFFFFF || rd p 9 1 != 1 || !envelopeOp (rd p 10 1) then s
  else if !tagOk kFdn f then rejectTag s
  else if f.ctr.toNat ≤ s.sgr.envDown.toNat then rejectReplay s
  else keyRequest 2 p (writeRelay { s with sgr.envDown := f.ctr })

/-- The forwarded Saggar request that a result answers: the oldest of that worker and opcode. -/
def keyFwd (s : State) (k pos op : Nat) : Option Fwd :=
  s.hif.fwd.find? (fun f => (f.w.ring == 9 || f.w.ring == 16) && f.wring == k && f.wpos == pos && f.op.toNat == op && 0x40 ≤ op && op ≤ 0x47)

/-- A worker's result enters Ring 10 unchanged, and the request completes with its status. -/
def keyResult (f : Frame) (s : State) : State :=
  let p := f.payload
  let b := p.drop 12
  match keyFwd s f.ring f.src (rd p 10 1) with
  | none => s
  | some x =>
    let seq : W32 := BitVec.ofNat 32 (rd b 0 4)
    pushResult 10 seq b x.w ⟨BitVec.ofNat 16 (rd b 32 2), 0, 0, []⟩
      { s with hif.fwd := s.hif.fwd.filter (fun y => y.mtag != x.mtag) }

/-- An envelope result is delivered with nonce and tag, as a record of type 0x00D1. -/
def envelopeResult (f : Frame) (s : State) : State :=
  let (t, s1) := drawNat s
  let q := s1.sgr.seq
  let addr := f.ring * 2 ^ 15 + (if f.src ≤ 127 then f.src else 0) * 2 ^ 8
  let b := ring10Bytes q 0x00D1 (nowStamp s) addr (BitVec.ofNat 32 t) statusOk (BitVec.ofNat 8 (rd f.payload 10 1))
    (frameNonce f ++ f.tag ++ f.payload)
  deliver 10 ⟨q, b, none, none⟩ { s1 with sgr.seq := q + 1 }

/-- A KEY frame at the manager (R442). -/
def keyAtManager (f : Frame) (s : State) : State :=
  let p := f.payload
  if !bit f.flags 1 || p.length < 12 || rd p 8 1 != 1 || f.ring != f.port / 2 || !ringEn s f.ring then s
  else if frameBad f then countCrc s
  else if rd p 9 1 == 0 then managerAuthKey f s
  else if f.session == 0xFFFFFFFF then envelopeResult f s
  else s
where
  managerAuthKey (f : Frame) (s : State) : State :=
    match upKey s f.ring f.src with
    | none => s
    | some key =>
      let e := getEnt s f.ring f.src
      if !tagOk key f then rejectTag s
      else if !ctrAfter (frameCtr f) e.last then rejectReplay s
      else keyResult f (setEnt f.ring f.src { e with last := some (frameCtr f), heard := s.slot } s)

/-- KEY. -/
def execKeyFrame (f : Frame) (s : State) : Out :=
  .next (if f.cls != 1 || f.typ != 6 then s
    else if isWorker s then keyAtWorker f s
    else if isManager s then keyAtManager f s
    else s)

/-! ### Timeout of a forwarded request (R352, R442) -/

/-- COMMAND_FORWARD_TIMEOUT: UNAVAILABLE, 2 s after the forwarding. -/
def execCommandForwardTimeout (ring : Nat) (slot : W32) (s : State) : Out :=
  .next (match dropFwd ring slot s with
    | none => s
    | some (f, s1) =>
      if s.slot - f.at_ < 2000 * msSlots then s
      else if f.w.ring == 9 then
        sagDone ⟨f.w, f.stamp, 0, f.wring * 2 ^ 15 + f.wpos * 2 ^ 8, []⟩ statusUnavailable [] s1
      else complete f.w statusUnavailable 0 [] s1)

/-! ### FUSE (R400, R423, R426, R428, R433, R435) -/

/-- A record of Q3 as it stands: the newest valid copy; as shipped where a copy was never written; none where both
copies are invalid. -/
def guardRec (s : State) (key : Nat) (shipped : List Byte) : Option (List Byte) :=
  match bestCopy s key with
  | some c => match c.val with
    | .bytes b => some b
    | _ => none
  | none => if (copyOf s key 0).isNone || (copyOf s key 1).isNone then some shipped else none

/-- The guarded and approval records are taken and the keys that rest on the chip alone derived. -/
def fuseIdent (g a : List Byte) (s : State) : State :=
  let relay := match nvRead s (nvKey .relay 0) with
    | some (.bytes b) => b
    | _ => zeros 24
  let s1 := { s with
    nvs.prot := BitVec.ofNat 2 (gProt g)
    sgr := { s.sgr with ident := true, trngOk := true, guard_ := guardNormal s g, appr := BitVec.ofNat 8 (rd a 4 1), slots := [],
                        keyed := false, envDown := BitVec.ofNat 64 (rd relay 0 8), envUp := BitVec.ofNat 64 (rd relay 8 8),
                        loadCtr := BitVec.ofNat 64 (rd relay 16 8) } }
  partySlots (deriveSlot 1 transportKey (deriveSlot 0 identKey s1))

/-- The root that the record names by its check value; ROOT_LOST where no copy matches. -/
def fuseRoot (g : List Byte) (s : State) : State :=
  match rootFor s (gKcv g) with
  | some r => deriveRoot r.share.key { s with sgr.keyed := true }
  | none => blockEvent 13 4 (le 1 2 ++ zeros 3 ++ gKcv g) (raise 13 1 s)

/-- The keys of the slots. -/
def fuseSlots (s : State) : State :=
  ((if isWorker s && s.sgr.keyed then [5, 6] else []) ++ (List.range 55).map (· + 9)).foldl fuseSlot s

/-- The Saggar in FUSE steps 2 and 3: records read, keys derived, slots selected. -/
def fuseSaggar (s : State) : State :=
  match guardRec s (nvKey .guarded 0) (shippedGuard s), guardRec s (nvKey .approval 0) (zeros 4 ++ [s.fuses.slots] ++ zeros 11) with
  | none, _ => raise 13 3 s
  | _, none => raise 13 4 s
  | some g, some a => { fuseSlots (fuseRoot g (fuseIdent g a s)) with tmp.bkSet := (gTamper g).drop 16 }

end Sys2Proof.Machine
end

