-- ==== Sys2Proof/Machine/Tamper.lean ====
section
/-!
DEFINITION. The tamper monitors (R448-R461): events and their filters, responses, the backup tamper log, the mesh and
the self-test.
-/
namespace Sys2Proof.Machine

/-! ### Settings (R453, R450) -/

/-- The 4 bytes of a source's settings in force: TP0 to TP3 take theirs from the backup domain. -/
def tamperSet (s : State) (src : Nat) : List Byte :=
  padTo 4 (if src ≥ 4 then (s.tmp.bkSet.drop (4 * (src - 4))).take 4 else ((gTamper s.sgr.guard_).drop (4 * src)).take 4)

def tamperCtl (s : State) (src : Nat) : Byte := nth (tamperSet s src) 0 0
def tamperN (s : State) (src : Nat) : Nat := rd (tamperSet s src) 1 1

/-- The source is disabled by fuse (R452). -/
def tamperFused (s : State) (src : Nat) : Bool := bit s.fuses.tamperOff src

/-- Slot clocks of a tamper window: ceil(W × 32,768 / 1 s) ticks of 750 (R451). -/
def tamperWin (s : State) (src : Nat) : Nat :=
  (winSlots (BitVec.ofNat 8 (rd (tamperSet s src) 2 1)) / msSlots * 32768 + 999) / 1000 * 750

/-- A source's filter at the present instant: a window whose W has passed is closed with the count at 0, and a hold-off
ends 328 ticks after its last event (R451). -/
def tsrcNow (s : State) (src : Nat) (x : TSrc) : TSrc :=
  let x1 := match x.win with
    | some t => if s.slot ≥ t + tamperWin s src then { x with win := none, count := 0 } else x
    | none => x
  match x1.hold with
  | some t => if s.slot ≥ t + 328 * 750 then { x1 with hold := none } else x1
  | none => x1

def getTSrc (s : State) (src : Nat) : TSrc := tsrcNow s src (tgetD s.tmp.srcs src Init.tsrc)
def modTSrc (src : Nat) (f : TSrc → TSrc) (s : State) : State :=
  { s with tmp.srcs := tput s.tmp.srcs src (f (getTSrc s src)) }

/-- The source watches: enabled, not fused off, its supply present, and its detector not silenced by a power-fail
warning (R448, R452, R457). The main-power sources are idle before FUSE step 2. -/
def tamperWatches (s : State) (src : Nat) : Bool :=
  src < 8 && bit (tamperCtl s src) 0 && !tamperFused s src &&
    (if src ≥ 4 then s.boot.st != .off && !s.rtc.inReset else s.tmp.run && !((src == 1 || src == 2) && s.tmp.muted))

/-- IRQ and FAILSTOP act from FUSE step 2 on; before it, and on the backup supply, only LOG and ZEROIZE_ROOT do (R457). -/
def tamperMain (s : State) : Bool := s.tmp.run && mainPower s

/-- Detail bytes of an entry (R458): what the source detected, cut to its own fields. -/
def tamperDetail (s : State) (src : Nat) (d : W32) : List Byte :=
  let b (i : Nat) : Nat := fld d (8 * i + 7) (8 * i)
  match src with
  | 0 => le 1 (b 0 % 64) ++ le 1 (max 1 (min 64 (b 1))) ++ zeros 2
  | 1 => le 1 (b 0 % 2) ++ le 1 (b 1 % 2) ++ zeros 2
  | 2 => le 1 (b 0 % 2) ++ zeros 3
  | 3 => le 2 (fld d 15 0) ++ zeros 2
  | _ =>
    let mode := fld (tamperCtl s src) 6 5
    let lvl := match mode with
      | 0 => 1
      | 1 => 0
      | _ => b 1 % 2
    le 1 mode ++ le 1 lvl ++ zeros 2

/-! ### Responses (R455, R456) -/

/-- An entry of the backup tamper log, or a counted drop when the log is full (R458). -/
def tamperLog (src : Nat) (flags : Nat) (n : Nat) (d : List Byte) (s : State) : State :=
  if s.tmp.log.length ≥ 16 then { s with tmp.dropped := satInc s.tmp.dropped }
  else
    let e : List Byte := le 4 s.rtc.s ++ le 2 (rtcFrac s).toNat ++ le 1 src ++ le 1 flags ++ le 1 n ++ [s.tmp.dropped]
      ++ le 1 (bootNum s.boot.st) ++ zeros 1 ++ d
    let w := if s.whl.run && mainPower s then some (s.whl.pos, nowQual s) else none
    { s with tmp.log := s.tmp.log ++ [⟨e, w⟩], tmp.dropped := 0 }

/-- The 1 µs response cycle of the present instant. -/
def tamperCycle (s : State) : Nat := s.slot * 1000 / 24576

/-- A key operation runs that an alarm aborts (R432, R455). -/
def keyOpRuns (s : State) : Bool :=
  !s.sgr.ops.isEmpty || s.boot.st == .verify || (s.boot.st == .hold && s.boot.img.endAcc && !s.boot.fired)

/-- An alarm's responses, in the order zeroize, log, interrupt, fail-stop; each response of one cycle executes once,
but every alarm has its own entry (R456). Every alarm aborts the key operations in progress (R455). -/
def tamperAlarm (src : Nat) (d : List Byte) (s : State) : State :=
  let c := tamperCtl s src
  let main := tamperMain s
  let cyc := tamperCycle s
  let done : Byte := match s.tmp.union with
    | some (t, b) => if t == cyc then b else 0
    | none => 0
  let flags := bitAt (bit c 3) 0 + bitAt (bit c 2 && main) 1 + bitAt (bit c 4 && main) 2 + bitAt (!main) 3
    + bitAt (keyOpRuns s) 4 + bitAt s.rtc.invalid 5
  let n := tamperN s src
  let s1 := abortOps { s with tmp.alarmed := setBit s.tmp.alarmed src true }
  let s2 := if bit c 3 && !bit done 3 then zeroize s1 else s1
  let s3 := if bit c 1 then tamperLog src flags n d s2 else s2
  let s4 := { s3 with tmp.union := some (cyc, done ||| (c &&& 0x1C)) }
  let s5 := if bit c 2 && main && !bit done 2 then raise 14 0 s4 else s4
  if bit c 4 && main && !bit done 4 then raise 14 1 s5 else s5

/-! ### Filter (R451) -/

/-- A counted event: it opens a window or counts in the open one; the count reaching N is an alarm, which closes the
window and starts the hold-off. -/
def tamperCount (src : Nat) (d : List Byte) (s : State) : State :=
  let x := getTSrc s src
  let k := (if x.win.isSome then x.count.toNat else 0) + 1
  if k ≥ tamperN s src then
    tamperAlarm src d (modTSrc src (fun x => { x with win := none, count := 0, alarms := satInc x.alarms, hold := some s.slot }) s)
  else modTSrc src (fun x => { x with win := some (x.win.getD s.slot), count := BitVec.ofNat 8 k }) s

/-- The mesh shows its last event (R449). -/
def glazeShow (src : Nat) (d : List Byte) (s : State) : State :=
  if src = 0 then { s with tmp.track := BitVec.ofNat 6 (rd d 0 1), tmp.failing := BitVec.ofNat 8 (rd d 1 1) } else s

/-- The events of the source under test are suppressed, for up to 10 ms from the stimulus (R459). -/
def bistHides (s : State) (src : Nat) : Bool :=
  s.tmp.bistActive && s.tmp.bistSrc.toNat == src && s.slot < s.tmp.bistAt + 10 * msSlots

/-- TAMPER_EVENT (R451): ignored by a source that does not watch, suppressed while the source is under its self-test
(R459); in the hold-off an event restarts the 328 ticks. -/
def execTamperEvent (src : Nat) (detail : W32) (s : State) : Out :=
  .next (if !tamperWatches s src || bistHides s src then s
    else
      let d := tamperDetail s src detail
      let s1 := glazeShow src d s
      if (getTSrc s src).hold.isSome then modTSrc src (fun x => { x with hold := some s.slot }) s1
      else tamperCount src d s1)

/-- TAMPER_WINDOW_EXPIRY (R451): a window whose W has passed closes with the count at 0. -/
def execTamperWindowExpiry (src : Nat) (s : State) : Out :=
  .next (if src < 8 then modTSrc src (fun x => x) s else s)

/-- TAMPER_HOLDOFF_END (R451): a hold-off ends when 328 ticks have passed without an event. -/
def execTamperHoldoffEnd (src : Nat) (s : State) : Out :=
  .next (if src < 8 then modTSrc src (fun x => x) s else s)

/-- MESH_RESEED (R449): the LFSR takes a word of the DRBG while the DRBG serves requests; else it runs on unseeded. -/
def execMeshReseed (s : State) : Out :=
  .next (if s.tmp.run && s.sgr.trngOk then
      let (b, s1) := drawRandom 8 s
      { s1 with tmp.lfsr := BitVec.ofNat 64 (ofLe b) }
    else s)

/-! ### Self-test (R459) -/

/-- A test of a source is refused. -/
def bistRefused (s : State) (src : Nat) : Bool :=
  !metering s || !bit (tamperCtl s src) 0 || tamperFused s src || s.tmp.bistActive ||
    (match (getTSrc s src).lastBist with
     | some t => s.slot - t < 1000 * msSlots
     | none => false)

/-- A write of TMP_BIST (R459). -/
def writeBist (v : W32) (s : State) : State :=
  let src := fld v 2 0
  let s1 := { s with tmp.bistSel := BitVec.ofNat 3 src }
  if !bit v 8 then s1
  else if bistRefused s src then { s1 with tmp.bistResult := 3 }
  else { s1 with tmp.bistActive := true, tmp.bistAt := s.slot, tmp.bistSrc := BitVec.ofNat 3 src, tmp.bistCount := satInc s.tmp.bistCount }

/-- TMP_BIST_START: the register is exposed from FIRED, written by a host, and not in a fail-stop (R401, R478). -/
def execTmpBistStart (v : W32) (s : State) : Out :=
  .next (if !s.boot.fired || isWorker s || s.flt.phase == .safe then s else writeBist v s)

/-- TMP_BIST_END: the suppression ends at the detection, or after 10 ms; a test without a detection within 1 ms of the
stimulus fails and raises BIST_FAIL. -/
def execTmpBistEnd (detected : Bool) (s : State) : Out :=
  .next (if !s.tmp.bistActive || (!detected && s.slot < s.tmp.bistAt + 10 * msSlots) then s
    else
      let pass := detected && s.slot ≤ s.tmp.bistAt + msSlots
      let s1 := modTSrc s.tmp.bistSrc.toNat (fun x => { x with lastBist := some s.slot })
        { s with tmp.bistActive := false, tmp.bistResult := if pass then 1 else 2 }
      if pass then s1 else raise 14 2 s1)

/-! ### Drain (R458) -/

/-- A drained entry's record waits for its append. -/
def tamperDraining (s : State) : Bool := s.nvs.logQueue.any (fun r => r.typ == 0x00E0)

/-- TAMPER_LOG_DRAIN: in METERING the oldest entry becomes a Kiln log record; it leaves the log once the record has
been appended. -/
def execTamperLogDrain (s : State) : Out :=
  .next (match s.tmp.log with
    | [] => s
    | e :: _ =>
      if !metering s || tamperDraining s then s
      else
        let inv := bitAt (((rd e.bytes 7 1).testBit 5)) 3
        let (w, q) : W64 × Nat := match e.wheel with
          | some (p, q) => (p, q.toNat / 16 * 16 + q.toNat % 8 + inv)
          | none => (0, 3 + inv + bitAt (isWorker s) 5)
        let st : Stamp := ⟨w, BitVec.ofNat 32 (rd e.bytes 0 4), BitVec.ofNat 16 (rd e.bytes 4 2), BitVec.ofNat 16 q⟩
        let s1 := logRec 0x00E0 st (addrBytes s 0 ++ e.bytes ++ zeros 4) s
        if rd e.bytes 9 1 ≠ 0 then raise 14 3 s1 else s1)

/-! ### Register images (R461) -/

def tamperBits (f : Nat → Bool) : Nat := (List.range 8).foldl (fun a i => a + bitAt (f i) i) 0

/-- TMP_STAT: no command brings the level of a source's condition, so LIVE of a watching source is a free value (log
entry 31). -/
def tmpStatImage (s : State) : W32 :=
  BitVec.ofNat 32 (bitAt (s.tmp.run && s.boot.st == .hold) 24
    + tamperBits (fun i => (getTSrc s i).hold.isSome) * 2 ^ 16
    + (s.tmp.alarmed.toNat) * 2 ^ 8
    + tamperBits (fun i => tamperWatches s i && Config.freeBit (s.free + i)))

def tmpScfgImage (s : State) : W32 :=
  let src := s.tmp.sidx.toNat
  let b := ((gTamper s.sgr.guard_).drop (4 * src)).take 4
  if tamperFused s src then 0 else BitVec.ofNat 32 (rd b 2 1 * 2 ^ 16 + rd b 1 1 * 2 ^ 8 + rd b 0 1 % 128)

def tmpScntImage (s : State) : W32 :=
  let x := getTSrc s s.tmp.sidx.toNat
  if tamperFused s s.tmp.sidx.toNat then 0 else BitVec.ofNat 32 (x.alarms.toNat * 2 ^ 16 + x.count.toNat)

def tmpGlazeImage (s : State) : W32 :=
  if tamperFused s 0 then 0 else BitVec.ofNat 32 (s.tmp.failing.toNat * 2 ^ 16 + s.tmp.track.toNat * 2 ^ 8 + bitAt s.tmp.run 0)

def tmpBistImage (s : State) : W32 :=
  BitVec.ofNat 32 (s.tmp.bistCount.toNat * 2 ^ 24 + s.tmp.bistResult.toNat * 2 ^ 16 + bitAt s.tmp.bistActive 9
    + s.tmp.bistSel.toNat)

def tmpBklogImage (s : State) : W32 :=
  BitVec.ofNat 32 (s.tmp.drained.toNat * 2 ^ 16 + s.tmp.dropped.toNat * 2 ^ 8 + s.tmp.log.length)

end Sys2Proof.Machine
end

