-- ==== Sys2Proof/Machine/ConfigSet.lean ====
section
/-!
DEFINITION. CONFIG_SET and the configuration items of Q2 (R353, R354): their fields, what is refused at configuration,
how an accepted item takes effect, and how RESTORE loads it.
-/
namespace Sys2Proof.Machine

/-- The fields an item carries, as a mask, and the number of its indices (R354); none for an unknown item. -/
def itemMask (item : Nat) : Option (Nat × Nat) :=
  match item with
  | 0x0101 => some (0x00001F1F, 1)
  | 0x0102 => some (0xFFFF00FF, 2)
  | 0x0103 => some (0xFFFFFFFF, 1)
  | 0x0104 => some (0xE70003FF, 48)
  | 0x0105 => some (0x0000FFFF, 48)
  | 0x0106 => some (0x0000FFFF, 1)
  | 0x0201 => some (0x00000007, 1)
  | 0x0202 => some (0xBFBFBFBF, 3)
  | 0x0203 => some (0x00000007, 5)
  | 0x0301 => some (0x00000003, 1)
  | 0x0302 => some (0x8F8F8F8F, 1)
  | 0x0303 => some (0xFFFFFFFF, 1)
  | 0x0304 => some (0xFFFFFFFF, 1)
  | 0x0305 => some (0x0000FFFF, 1)
  | 0x0306 => some (0x00000003, 1)
  | 0x0307 => some (0x0000FFFF, 1)
  | 0x0401 => some (0x000000FF, 1)
  | 0x0501 => some (0x00000F03, 1)
  | 0x0502 => some (0xFFFFFFFF, 4)
  | 0x0503 => some (0xFFFFFFFF, 1)
  | 0x0504 => some (0xFFFFFFFF, 1)
  | 0x0701 => some (0x00000007, 1)
  | 0x0A01 => some (0x000007FF, 1)
  | 0x0A02 => some (0xFFFF00FF, 1)
  | 0x0A03 => some (0x80001F03, 1)
  | 0x0A04 => some (0xEEEEEEEE, 1)
  | 0x0A05 => some (0xFFFFFFFF, 1)
  | _ => none

/-- Every item with its number of indices, in the order of R354. -/
def allItems : List (Nat × Nat) :=
  [(0x0101, 1), (0x0102, 2), (0x0103, 1), (0x0104, 48), (0x0105, 48), (0x0106, 1), (0x0201, 1), (0x0202, 3), (0x0203, 5)]
  ++ [(0x0301, 1), (0x0302, 1), (0x0303, 1), (0x0304, 1), (0x0305, 1), (0x0306, 1), (0x0307, 1), (0x0401, 1), (0x0501, 1)]
  ++ [(0x0502, 4), (0x0503, 1), (0x0504, 1), (0x0701, 1), (0x0A01, 1), (0x0A02, 1), (0x0A03, 1), (0x0A04, 1), (0x0A05, 1)]

/-- The Q2 record of an item. -/
def itemKey (item index : Nat) : Nat := nvKey .config (item * 64 + index)

/-- The newest accepted auxiliary, tap and voltage-event configurations. -/
def axNewest (s : State) : W32 × W32 × W32 := s.afe.axNext.getD (s.afe.axcfg, s.afe.axscan0, s.afe.axscan1)
def tapNewest (s : State) : List W32 := s.dec.tapNext.getD s.dec.tapsel
def pqNewest (s : State) : W32 × List W32 × W32 × W32 := s.pq.next.getD (s.pq.cfg, s.pq.udin, s.pq.thr0, s.pq.thr1)

/-- The entries of three tap registers: enable and channel code. -/
def tapEntries (sel : List W32) : List (Bool × Nat) :=
  (List.range 12).map (fun t => let b := tapByte sel t; (b ≥ 128, b % 64))

/-- Voltage-event thresholds that R200 accepts. -/
def thrOk (t0 t1 : W32) : Bool :=
  let dip := fld t0 15 0
  let swell := fld t0 31 16
  let int := fld t1 15 0
  let hyst := fld t1 31 16
  int < dip && dip + hyst ≤ 1000 && 1000 < swell && swell ≤ 2000 && 1 ≤ hyst && hyst ≤ 100

/-- A scan list of 0 in SCAN mode, for one multiplexer (R66). -/
def scanEmpty (cfg scan : W32) (a : Nat) : Bool := fld cfg (8 * a + 1) (8 * a) == 2 && fld scan 7 0 == 0

/-- What an item's own rule refuses with RANGE. -/
def itemRange (s : State) (item index : Nat) (v : W32) : Bool :=
  let (ax, sc0, sc1) := axNewest s
  match item with
  | 0x0101 => fld v 1 0 == 3 || fld v 9 8 == 3 || scanEmpty v sc0 0 || scanEmpty v sc1 1
  | 0x0102 => fld v 31 16 < 96 || scanEmpty ax v index
  | 0x0104 => fld v 30 29 == 3 || (bit v 31 && fld v 9 0 == 0)
  | 0x0201 => fld v 2 0 > 4
  | 0x0202 => (List.range 4).any (fun j => fld v (8 * j + 5) (8 * j) ≥ 60)
  | 0x0203 => (f3Stored s (fld v 2 0)).isNone
  | 0x0401 => (List.range 4).any (fun j => fld v (2 * j + 1) (2 * j) == 3)
  | 0x0501 => fld v 1 0 == 3
  | 0x0502 => v == 0
  | 0x0503 => !thrOk v s.pq.thr1
  | 0x0504 => !thrOk s.pq.thr0 v
  | 0x0701 => fld v 2 0 == 7
  | 0x0A01 => let t : Int := (BitVec.ofNat 11 (fld v 10 0)).toInt; t < -537 || t > 537
  | 0x0A04 => (List.range 8).any (fun e => bit v (4 * e + 3) && fld v (4 * e + 2) (4 * e + 1) == 0)
  | 0x0A05 => (List.range 8).any (fun e => fld v (4 * e + 3) (4 * e) > 10)
  | _ => false

/-- What an item's own rule refuses with CONFLICT: two enabled taps of one channel (R98), a ball that carries another
function (R489). -/
def itemConflict (s : State) (item index : Nat) (v : W32) : Bool :=
  match item with
  | 0x0202 =>
    let l := ((tapEntries (lmod (tapNewest s) index (fun _ => v))).filter (·.1)).map (·.2)
    !distinct l
  | 0x0A03 => bit v 31 && !claimOk s (fld v 12 8) fnSQW 0
  | _ => false

/-- The square wave takes its configuration: the new ball is claimed, the old one released (R328, R490). -/
def sqwApply (v : W32) (s : State) : State :=
  let old := s.rtc.sqw
  let ball := fld v 12 8
  let s1 := if bit old 31 && (!bit v 31 || fld old 12 8 != ball) then freeBall (fld old 12 8) fnSQW 0 s else s
  let s2 := { s1 with rtc.sqw := v }
  if bit v 31 then sqwDrive (claim ball fnSQW 0 s2) else s2

/-- Event inputs that become enabled take their first sample as the accepted level, without an entry (R329): no command
brings that level, so it is a free value (log entry 8). -/
def evApply (v : W32) (s : State) : State :=
  let fresh (e : Nat) : Bool := bit v (4 * e + 3) && !bit s.rtc.evcfg (4 * e + 3)
  let lv := (List.range 8).foldl (fun b e => if fresh e then setBit b e (Config.freeBit (s.free + e)) else b) s.rtc.evLevel
  { s with rtc.evcfg := v, rtc.evLevel := lv, free := s.free + 8 }

/-- Registers of the Wheel by item. -/
def whlItem (item : Nat) (v : W32) (r : WhlRegs) : WhlRegs :=
  match item with
  | 0x0301 => { r with cfg := v }
  | 0x0302 => { r with reflist := v }
  | 0x0303 => { r with ofs01 := v }
  | 0x0304 => { r with ofs23 := v }
  | 0x0305 => { r with vnom := v }
  | 0x0306 => { r with synccfg := v }
  | _ => { r with bcfg := v }

def pqItem (item index : Nat) (v : W32) (q : W32 × List W32 × W32 × W32) : W32 × List W32 × W32 × W32 :=
  match item with
  | 0x0501 => (v, q.2.1, q.2.2.1, q.2.2.2)
  | 0x0502 => (q.1, lmod q.2.1 index (fun _ => v), q.2.2.1, q.2.2.2)
  | 0x0503 => (q.1, q.2.1, v, q.2.2.2)
  | _ => (q.1, q.2.1, q.2.2.1, v)

def axItem (item index : Nat) (v : W32) (a : W32 × W32 × W32) : W32 × W32 × W32 :=
  if item = 0x0101 then (v, a.2.1, a.2.2) else if index = 0 then (a.1, v, a.2.2) else (a.1, a.2.1, v)

def tripItem (item index : Nat) (v : W32) (t : TripCfg) : TripCfg :=
  match item with
  | 0x0104 => { t with cfg := tput t.cfg index v }
  | 0x0105 => { t with map := tput t.map index (BitVec.ofNat 16 v.toNat) }
  | _ => { t with latch := BitVec.ofNat 16 v.toNat }

/-- Items that act on acceptance in service and in RESTORE alike: shadow limits, RMS block length, optical rate, RTC. -/
def itemDirect (item : Nat) (v : W32) (s : State) : State :=
  match item with
  | 0x0103 => { s with afe.shcfg := v }
  | 0x0201 => { s with dec.crmscfg := v }
  | 0x0701 => { s with trf.maxbaud := BitVec.ofNat 3 v.toNat }
  | 0x0A01 => { s with rtc.trim := BitVec.ofNat 11 v.toNat }
  | 0x0A02 => { s with rtc.tcomp := v }
  | 0x0A03 => sqwApply v s
  | 0x0A04 => evApply v s
  | 0x0A05 => { s with rtc.evdeb := v }
  | _ => s

/-- The block number of an item. -/
def itemBlock (item : Nat) : Nat := item / 256

/-- An accepted item takes effect as its defining rule gives: most at the instant of a row of their own. -/
def itemAccept (item index : Nat) (v : W32) (s : State) : State :=
  if item = 0x0101 ∨ item = 0x0102 then { s with afe.axNext := some (axItem item index v (axNewest s)) }
  else if item = 0x0104 ∨ item = 0x0105 ∨ item = 0x0106 then
    { s with afe.tripNext := some (tripItem item index v (s.afe.tripNext.getD s.afe.trip)) }
  else if item = 0x0202 then { s with dec.tapNext := some (lmod (tapNewest s) index (fun _ => v)) }
  else if itemBlock item = 3 then { s with whl.next := whlItem item v s.whl.next }
  else if item = 0x0401 then { s with pnt.rotNext := some v }
  else if itemBlock item = 5 then { s with pq.next := some (pqItem item index v (pqNewest s)) }
  else itemDirect item v s

/-- RESTORE loads an item: it is in force at once; NOM60 stands as FUSE read it (R59). -/
def itemLoad (item index : Nat) (v : W32) (s : State) : State :=
  if item = 0x0101 ∨ item = 0x0102 then
    let (a, b, c) := axItem item index v (s.afe.axcfg, s.afe.axscan0, s.afe.axscan1)
    { s with afe.axcfg := a, afe.axscan0 := b, afe.axscan1 := c }
  else if item = 0x0104 ∨ item = 0x0105 ∨ item = 0x0106 then { s with afe.trip := tripItem item index v s.afe.trip }
  else if item = 0x0202 then { s with dec.tapsel := lmod s.dec.tapsel index (fun _ => v) }
  else if itemBlock item = 3 then { s with whl.regs := whlItem item v s.whl.regs, whl.next := whlItem item v s.whl.next }
  else if item = 0x0401 then { s with pnt.rot := v }
  else if itemBlock item = 5 then
    let (a, b, c, d) := pqItem item index v (s.pq.cfg, s.pq.udin, s.pq.thr0, s.pq.thr1)
    { s with pq.cfg := a, pq.udin := b, pq.thr0 := c, pq.thr1 := d }
  else if item = 0x0A03 && bit v 31 then
    let (s1, ok) := claimRestore (fld v 12 8) fnSQW 0 s
    if ok then itemDirect item v s1 else { s1 with rtc.sqw := setBit v 31 false }
  else itemDirect item v s

/-- The stored value of an item. -/
def itemStored (s : State) (item index : Nat) : Option W32 :=
  match nvRead s (itemKey item index) with
  | some (.word v) => some v
  | _ => none

/-- Every stored item is loaded, in the order of R354. -/
def loadItems (s : State) : State :=
  allItems.foldl (fun (t : State) (x : Nat × Nat) => (List.range x.2).foldl (fun u i =>
    match itemStored u x.1 i with
    | some v => itemLoad x.1 i v u
    | none => u) t) s

/-- CONFIG_SET (R353). -/
def execConfigSet (r : Req) (s : State) : Out :=
  ring0 0x01 (· == 16) r s (fun w s =>
    let b := r.buf
    let item := rd b 0 2
    let index := rd b 2 2
    let v : W32 := BitVec.ofNat 32 (rd b 4 4)
    let form := match itemMask item with
      | none => false
      | some (m, n) => index < n && v &&& ~~~ (BitVec.ofNat 32 m) == 0 && zerosAt b 8 4
    match firstBad [(!crcOk b 12 (b.take 12), statusRange), (!form, statusRange), (itemRange s item index v, statusRange),
        (itemConflict s item index v, statusConflict)] with
    | some st => .fail st s
    | none => writeCmd (itemKey item index) (.word v) 1 w (itemAccept item index v) s)

end Sys2Proof.Machine
end

