-- ==== Sys2Proof/Machine/Restore.lean ====
section
/-!
DEFINITION. The last gasp (R294-R296) and RESTORE (R299, R300, R412): what the last gasp holds, the totals and tariff
registers (R292, R244), the boundary completed and caught up (R242, R243), credit (R254), the loads of RESTORE.
-/
namespace Sys2Proof.Machine

/-! ### Last gasp (R294-R296) -/

/-- A valid seal (R296). -/
def sealed (a : Option LgArea) : Option LgArea := match a with
  | some x => if x.cleared then none else some x
  | none => none

/-- The target area is LGB when LGA holds the newest valid seal, else LGA (R294). -/
def lgTargetB (s : State) : Bool :=
  match sealed s.nvs.lga, sealed s.nvs.lgb with
  | some a, some b => !seqNewer b.seq a.seq
  | some _, none => true
  | _, _ => false

def lgNewestSeq (s : State) : W32 :=
  match sealed s.nvs.lga, sealed s.nvs.lgb with
  | some a, some b => if seqNewer b.seq a.seq then b.seq else a.seq
  | some a, none => a.seq
  | none, some b => b.seq
  | none, none => 0

/-- The first boundary write that is not committed (R242). -/
def openBoundary (s : State) : Option (Nat × Nat × Nat) :=
  ((s.nvs.groups.drop (if s.nvs.gstep ≥ 4 then 1 else 0)).find? (·.bnd.isSome)).bind (·.bnd)

/-- The last point whose writes of that step were committed; 0xFFFF for none. -/
def openPoint (s : State) (u step : Nat) : W16 :=
  match s.nvs.bdone with
  | some (u', st', p) => if u' == u && st' == step then BitVec.ofNat 16 p else 0xFFFF
  | none => 0xFFFF

/-- The log records that a last gasp holds, in order, with their sequences (R295, R307, R472, R276). -/
def lgRecords (g : LgRun) (bstep : Nat) (s : State) : List Rec :=
  let pd (lost : Nat) : Rec := ⟨0x0021, 0, s.pnt.frozenAt, addrBytes s 0 ++ [g.cause] ++ le 1 bstep ++ zeros 2
    ++ le 4 s.nvs.session.toNat ++ le 4 lost⟩
  let fs : List Rec := if g.cause == 3 then
      ⟨0x0023, 0, pathStamp s (s.slot - g.t0), addrBytes s 0 ++ le 1 15 ++ le 1 1 ++ zeros 2
        ++ padTo 32 (le 4 s.flt.reason.toNat ++ le 8 s.flt.fsTick.toNat ++ le 1 0)⟩ :: failsafeRecs s
    else []
  let all := fs ++ s.nvs.logQueue
  (pd (1 + all.length - 28) :: all).zipIdx.map (fun x => { x.1 with seq := s.nvs.logHead + 1 + BitVec.ofNat 32 x.2 })

/-- A point's credit as formed with the totals of the last gasp (R254, R295). -/
def lgCredit (s : State) (p : Nat) : CredSt :=
  withRefs s p (getCred s p)

/-- The content of a last gasp, assembled in SRAM (R294 step 4). -/
def lgContent (g : LgRun) (s : State) : LgArea :=
  let ob := openBoundary s
  let bstep := match ob with
    | some b => b.2.1
    | none => 0
  let recs := lgRecords g bstep s
  let held := recs.take 28
  { cleared := false
    session := s.nvs.session
    seq := lgNewestSeq s + 1
    used := if ob.isSome then 65536 else 40960
    stamp := s.pnt.frozenAt
    cause := g.cause
    bstep := bstep
    bpoint := match ob with
      | some b => openPoint s b.1 b.2.1
      | none => 0xFFFF
    bsec := match ob, s.trf.bnd with
      | some _, some b => BitVec.ofNat 32 b.1
      | _, _ => 0
    tariffs := BitVec.ofNat 64 (sumN ((List.range 16).map (fun c =>
      if calOn s s.trf.active c then nth s.trf.tariff c 0 % 16 * 16 ^ c else 0)))
    held := held.length
    lost := BitVec.ofNat 16 (recs.length - 28)
    mirror := s.nvs.mirror
    elapsed := 0
    totals := s.pnt.pts.map (fun (p : Nat × Pt) => (p.1, p.2.accA))
    credit := s.crd.cred.map (fun (p : Nat × CredSt) => (p.1, lgCredit s p.1))
    prepay := (s.crd.pcfg.filter (fun (p : Nat × CreditCfg) => p.2.prepay)).map (·.1)
    second := s.pnt.frozenSec
    log := held
    btotals := match ob, s.trf.bnd with
      | some _, some b => b.2
      | _, _ => [] }

/-- The freeze of a fail-stop in METERING, at the first wheel sample after its instant (R475 step 1): pending changes of
outputs that fire later are cancelled (R272), and a bank calibration ends (R216). Every other last gasp found the engines
frozen. -/
def lgFreeze (s : State) : State :=
  if s.boot.st == .failstop && s.nvs.ready then
    if s.pnt.frozen then calAbort s
    else
      let t := dropPending (freeze { s with boot.st := .metering })
      { t with boot.st := .failstop }
  else s

/-- Content is assembled, an uncommitted group is abandoned; 161 or 257 page commits are left (R294 steps 3 to 6). -/
def lgAssemble (g : LgRun) (s : State) : State :=
  let s1 := lgFreeze s
  let a := lgContent g s1
  { s1 with nvs.lg := some { g with area := a, left := some (if a.used == 65536 then 257 else 161) },
            nvs.groups := [], nvs.gstep := 0, nvs.gleft := 0 }

def putArea (b : Bool) (a : LgArea) (s : State) : State :=
  if b then { s with nvs.lgb := some a } else { s with nvs.lga := some a }

/-- The target's seal is cleared (R294 step 4). -/
def clearSeal (s : State) : State :=
  let b := lgTargetB s
  let old := if b then s.nvs.lgb else s.nvs.lga
  putArea b { old.getD emptyArea with cleared := true } s

/-! ### Kiln log and mirror at restore (R303, R305) -/

/-- Valid slots of the log. -/
def logValid (s : State) : List Rec :=
  (s.nvs.log.filter (fun (x : Nat × Rec) => !s.nvs.logBad.contains x.1)).map (·.2)

/-- The head is the valid slot with the newest sequence. -/
def logNewest (s : State) : W32 :=
  match logValid s with
  | [] => 0
  | r :: t => t.foldl (fun a x => if seqNewer x.seq a then x.seq else a) r.seq

/-- The mirror resumes at its persisted position: every retained record from there on is queued again (R305). -/
def mirrorResume (pos : W32) (s : State) : State :=
  let s1 := gapCheck { s with nvs.mirror := pos }
  let n := (s1.nvs.logHead - s1.nvs.mirror).toNat + 1
  if n > 16384 then s1
  else (List.range n).foldl (fun t i =>
    match logAt t (s1.nvs.mirror + BitVec.ofNat 32 i) with
    | some r => mirrorRec r t
    | none => t) s1

/-! ### Doubled records (R290, R524) -/

/-- The keys of the doubled records that have been written; the Saggar's records are FUSE's (R400 step 2). -/
def recKeys (s : State) : List Nat :=
  ((s.nvs.recs.map (fun (x : Nat × NvSlot) => x.1 / 2)).eraseDups).filter (fun k => !saggarKey k)

/-- Neither copy valid: the outcome that the owning chapter assigns (R217, R277), else NV_RECORD_LOST. -/
def recLost (key : Nat) (s : State) : State :=
  if key / 2 ^ 24 == NvKind.code .selfcal then s
  else if key / 2 ^ 24 == NvKind.code .credit then raise 8 1 s
  else raise 9 3 s

/-- The check and repair of one doubled record (R290). A copy that was never written stands as shipped, older than any. -/
def repairRec (key : Nat) (s : State) : State :=
  let put (c : Nat) (x : NvSlot) (t : State) : State := { t with nvs.recs := tput t.nvs.recs (2 * key + c) x }
  let bad (c : Nat) : Bool := match copyOf s key c with
    | some x => x.bad
    | none => false
  match soundCopy s key 0, soundCopy s key 1 with
  | some a, some b => if a.seq == b.seq then s else if seqNewer b.seq a.seq then put 0 b s else put 1 a s
  | some a, none =>
    if bad 1 then raise 9 2 { put 1 a s with nvs.rebuilt := satInc s.nvs.rebuilt } else put 1 a s
  | none, some b =>
    if bad 0 then raise 9 2 { put 0 b s with nvs.rebuilt := satInc s.nvs.rebuilt } else put 0 b s
  | none, none => if bad 0 || bad 1 then recLost key s else s

/-- A DIRTY copy of a calendar image is rebuilt from the CLEAN copy of the same image (R524). -/
def repairImage (s : State) (x : Nat) : State :=
  if tgetD s.nvs.dirty x false then
    let lo := x * 2 ^ 14
    let src := (if x % 2 = 0 then x + 1 else x - 1) * 2 ^ 14
    let rest := s.nvs.images.filter (fun (e : Nat × List Byte) => e.1 / 2 ^ 14 != x)
    let copied := (s.nvs.images.filter (fun (e : Nat × List Byte) => e.1 / 2 ^ 14 == src / 2 ^ 14)).map
      (fun (e : Nat × List Byte) => (lo + e.1 % 2 ^ 14, e.2))
    { s with nvs.images := copied.foldl (fun t e => tput t e.1 e.2) rest, nvs.dirty := tput s.nvs.dirty x false }
  else s

def repairAll (s : State) : State :=
  [0, 1, 2, 3].foldl repairImage ((recKeys s).foldl (fun t k => repairRec k t) s)

/-! ### The current last gasp (R300) -/

/-- The current area: its seal is valid and of the session record's session. -/
def currentArea (s : State) : Option (Bool × LgArea) :=
  let ok (a : Option LgArea) : Option LgArea := (sealed a).bind (fun x => if x.session == s.nvs.session then some x else none)
  match ok s.nvs.lga, ok s.nvs.lgb with
  | some a, some b => if seqNewer b.seq a.seq then some (true, b) else some (false, a)
  | some a, none => some (false, a)
  | none, some b => some (true, b)
  | none, none => none

/-- R299 step 3, R300. -/
def chooseArea (s : State) : State :=
  let torn := s.nvs.lga.any (·.cleared) || s.nvs.lgb.any (·.cleared)
  match currentArea s with
  | some (b, a) => { s with nvs.lgCurrent := true, nvs.lgTorn := false, nvs.lgAreaUsed := b, nvs.lgBoundary := a.bstep != 0,
                            nvs.lgCause := BitVec.ofNat 2 a.cause.toNat, nvs.lgElapsed := a.elapsed, nvs.logLost := a.lost }
  | none => raise 9 6 { s with nvs.lgCurrent := false, nvs.lgTorn := torn }

/-! ### Totals (R292, R244 step 1) -/

/-- The eight slots of a spread counter; every slot leaves Idmen at 0 (R291). -/
def spreadSlots (s : State) (i : Nat) : List (Option W48) := tgetD s.nvs.spread i (List.replicate 8 (some 0))

/-- Comparison of counts mod 2^48: `a` is newer than `b` (R292). -/
def newer48 (a b : W48) : Bool := let d := (a - b).toNat; 1 ≤ d && d ≤ 2 ^ 47

/-- The newest valid slot of a counter and its index; of equal counts the last slot. -/
def spreadNewest (l : List (Option W48)) : Option (Nat × W48) :=
  l.zipIdx.foldl (fun (a : Option (Nat × W48)) (x : Option W48 × Nat) =>
    match x.1, a with
    | none, _ => a
    | some v, none => some (x.2, v)
    | some v, some (i, w) => if v == w || newer48 v w then some (x.2, v) else some (i, w)) none

/-- The 64-bit count congruent to a slot's count that lies nearest a reference count (R292). -/
def nearestCount (v : W48) (ref : Nat) : Nat :=
  let base := ref / 2 ^ 48 * 2 ^ 48 + v.toNat
  let dist (a : Nat) : Nat := if a ≥ ref then a - ref else ref - a
  let up := base + 2 ^ 48
  let best := if dist up < dist base then up else base
  (if base ≥ 2 ^ 48 && dist (base - 2 ^ 48) < dist best then base - 2 ^ 48 else best) % 2 ^ 64

/-- The tariff-register set record of a point, or the shipped one: registers and totals of 0, tariff 1. -/
def setRec (s : State) (p : Nat) : TarSet :=
  match nvRead s (nvKey .tariff p) with
  | some (.tariff t) => t
  | _ => ⟨zeroRegs, List.replicate 8 0, 1, 0⟩

/-- A total at restore: the newer of the spread-counter and the last-gasp value; SPREAD_LOST without a valid slot. -/
def totalOf (lg : Option LgArea) (p q : Nat) (s : State) : Nat × Bool :=
  let ref := nth (setRec s p).totals q 0 / 2 ^ 32
  let g := (lg.bind (fun a => tget a.totals p)).map (fun l => nth l q 0)
  match spreadNewest (spreadSlots s (8 * p + q)), g with
  | none, some v => (v, true)
  | none, none => (nth (setRec s p).totals q 0, true)
  | some (_, c), none => (nearestCount c ref * 2 ^ 32, false)
  | some (_, c), some v =>
    let n := nearestCount c ref
    if (v / 2 ^ 32 + 2 ^ 64 - n) % 2 ^ 64 < 2 ^ 63 then (v, false) else (n * 2 ^ 32, false)

/-- Points whose totals the store holds or that are defined. -/
def storedPts (lg : Option LgArea) (s : State) : List Nat :=
  let a := match lg with
    | some x => x.totals.map (·.1)
    | none => []
  let b := s.nvs.spread.map (fun (x : Nat × List (Option W48)) => x.1 / 8)
  let c := (s.nvs.recs.map (fun (x : Nat × NvSlot) => x.1 / 2)).filterMap (fun k =>
    if k / 2 ^ 24 == NvKind.code .tariff then some (k % 2 ^ 24) else none)
  (sortBy (fun x y => decide (x ≤ y)) (a ++ b ++ c ++ s.pnt.pts.map (·.1))).eraseDups

def setTotals (p : Nat) (l : List Nat) (s : State) : State := setPt p { getPt s p with accA := l, accB := l } s

/-- The totals of a point are set (R244 step 1). -/
def restoreTotals (lg : Option LgArea) (p : Nat) (s : State) : State :=
  let l := (List.range 8).map (fun q => totalOf lg p q s)
  let s1 := setTotals p (l.map (·.1)) s
  (l.filter (·.2)).foldl (fun t _ => raise 9 4 t) s1

/-! ### Tariff registers and the incomplete boundary (R244 steps 2 to 4, R242) -/

/-- `to − from` per quantity (mod 2^96), and `a + b`. -/
def sub96 (a b : List Nat) : List Nat := List.zipWith (fun a b => (a + 2 ^ 96 - b % 2 ^ 96) % 2 ^ 96) a b

/-- A total below the reference total of the set record is raised to it (R244 step 4): counts compare; a residue that
the spread counter does not hold is no fall of the total. -/
def raiseTotals (p : Nat) (s : State) : State × Bool :=
  let ref := (setRec s p).totals
  let low (t r : Nat) : Bool := (t / 2 ^ 32 + 2 ^ 64 - r / 2 ^ 32 % 2 ^ 64) % 2 ^ 64 ≥ 2 ^ 63
  let now := (getPt s p).accA
  let new := List.zipWith (fun t r => if low t r || (t / 2 ^ 32 == r / 2 ^ 32 && t < r) then r else t) now ref
  (setTotals p new s, (List.zipWith low now ref).any id)

/-- Energy enters the registers of a tariff. -/
def addTo (p t : Nat) (e : List Nat) (s : State) : State :=
  { s with trf.regs := tput s.trf.regs p (lmod (getRegs s p) (t - 1) (fun r => add96 r e)) }

/-- The registers of a point up to the incomplete boundary, or up to its total (R244 steps 2 and 3). -/
def reconcile (bnd : Option (Nat × Tab (List Nat))) (p : Nat) (s : State) : State :=
  let t := setRec s p
  let (s1, back) := raiseTotals p { s with trf.regs := tput s.trf.regs p t.regs }
  let s2 := if back then raise 7 1 s1 else s1
  let now := (getPt s2 p).accA
  match bnd with
  | some (u, b) =>
    if t.sec < u then addTo p t.tariff (sub96 (tgetD b p now) t.totals) s2 else addTo p t.tariff (sub96 now t.totals) s2
  | none => addTo p t.tariff (sub96 now t.totals) s2

/-- A point's snapshot of the boundary stands in the store: its newest one is of that instant and index, and no command's. -/
def snapStands (u : Nat) (idx : Option Nat) (s : State) (p : Nat) : Bool :=
  match (snapsOf s p).head? with
  | some (_, b) => rd b 36 4 == u % 2 ^ 32 && some (rd b 32 2) == idx && rd b 28 2 / 4 % 2 == 0
  | none => false

/-- A point whose interval closed at the boundary and was not yet opened again: its interval-state record has none open. -/
def closedAt (s : State) (p : Nat) : Bool :=
  match nvRead s (nvKey .interval p) with
  | some (.interval i) => i.open_.isNone
  | _ => false

/-- The incomplete boundary's records are rebuilt from the totals at it, and the energy since enters the tariffs in force
after it (R242, R244). Steps already committed show in the persisted state: an activation in the active image and its instant,
a close in the interval state, a snapshot in its slot and in LAST, a register set in its own instant. What was not committed
is done as in service, and the intervals that closed at the boundary open there. -/
def completeBoundary (lg : LgArea) (s : State) : State :=
  let u := fullSec s lg.bsec
  let after := s.pnt.pts
  let old := (definedPts s).filter (fun p => (setRec s p).sec < u)
  let atS : Tab Pt := after.map (fun (x : Nat × Pt) => match tget lg.btotals x.1 with
    | some b => (x.1, { x.2 with accA := b, accB := b })
    | none => x)
  let b0 : Bnd := ⟨u, u, s.trf.armed == some lg.bsec, false, 0, none, 0, true, definedPts s, s.trf.lastAct == some lg.bsec, [],
    some old⟩
  let img := b0.image s
  let idx := billIdx s img u
  let snap := if lg.bstep ≤ 3 && billAt s img u then snapDue s idx else none
  let closed := (definedPts s).filter (closedAt s)
  let s1 := { s with pnt.pts := atS, trf.tariff := tariffsAt s img (u - 1) }
  let s2 := boundary { b0 with snap := snap, skip := (definedPts s).filter (snapStands u snap s) } s1
  let s3 := { closed.foldl (fun t p => openInt u 5 0 p t) s2 with pnt.pts := after }
  old.foldl (fun t p => addTo p (ptTariff t p) (sub96 (getPt t p).accA (tgetD lg.btotals p (getPt t p).accA)) t) s3

/-! ### Credit (R299 step 5, R254) -/

/-- Credit of a point: record fields, with C, r, state, EC_ACTIVE and REMOTE_OFF of the current last gasp. -/
def restoreCredit (lg : Option LgArea) (p : Nat) (s : State) : State :=
  let r := match nvRead s (nvKey .credit p) with
    | some (.credit c) => c
    | _ => Init.credSt
  let c := match lg.bind (fun a => tget a.credit p) with
    | some g => { r with c := g.c, r := g.r, st := g.st, ec := g.ec, remoteOff := g.remoteOff, refPos := g.refPos,
                         refNeg := g.refNeg, refTar := g.refTar }
    | none => r
  debitRestart p (setCred p c s)

/-! ### FROZEN seconds (R295, R299 step 6) -/

/-- The second record of a point rebuilt from its partial entry, the totals and the freeze stamps. -/
def frozenRec (a : LgArea) (p : Nat) (e : List Byte) (s : State) : Rec :=
  let cal := ptCal s p
  let (pf, _) := powerFactor (rdI e 0 8) (rdI e 16 8)
  ⟨0x0060, s.pnt.seq, a.stamp,
    ptAddr s p ++ le 2 (rd e 32 2 + 512) ++ le 1 (rd e 28 1) ++ le 1 (a.tariffs.toNat / 16 ^ cal % 16 + 16 * cal)
      ++ (e.drop 24).take 4 ++ e.take 24 ++ leI 2 pf ++ le 1 (rd e 29 1) ++ le 1 (rd e 30 1)
      ++ (tgetD a.totals p (getPt s p).accA).foldl (fun b c => b ++ le 8 (c / 2 ^ 32)) []⟩

/-! ### Loads of RESTORE (R412 step 2) -/

/-- Channel records (R139): registers, and both banks of the phase pairs (R120). -/
def loadChans (s : State) : State :=
  let s1 := (List.range 60).foldl (fun t c =>
    match nvRead t (nvKey .channel c) with
    | some (.bytes b) =>
      let x := chanRecOf b
      { t with pnt.chan := tput t.pnt.chan c x, pnt.chanB := tput t.pnt.chanB c x, afe.chan := cfgSet c x.setup t.afe.chan, afe.chanNext := cfgSet c x.setup t.afe.chanNext }
    | _ => t) s
  let s2 := (List.range 60).foldl (fun t c => loadBoth (phasePair c) (phaseBank (getChan t c).adj (feedSlot t c)) t) s1
  writeCodes (List.range 65) s2

/-- Point definitions (R137, R138): the one that took effect last, and beside it one that never did, which waits for the
first turn boundary. The store keeps the definition in force with its generation (log entry 106). -/
def loadPoints (s : State) : State :=
  (List.range 256).foldl (fun t p =>
    match nvRead t (nvKey .pointDef p) with
    | some (.bytes b) =>
      let d := pdefOf b
      let x := getPt t p
      match nvRead t (nvKey .pointDef (256 + p)) with
      | some (.bytes e) =>
        let o := pdefOf (e.drop 1)
        setPt p { x with dfn := asDef o, dfnB := asDef o, gen := BitVec.ofNat 8 (rd e 0 1), chk := o.check
                         next := if e.drop 1 == b then none else some d } t
      | _ => setPt p { x with next := some d } t
    | _ => t) s

/-- Coefficient banks (R108). -/
def loadBanks (s : State) : State :=
  let s1 := (List.range 5).foldl (fun t g =>
    let n := match itemStored t 0x0203 g with
      | some v => fld v 2 0
      | none => 0
    match f3Stored t n with
    | some l => loadBoth g (l, BitVec.ofNat 4 n, 0x400000) t
    | none => t) s
  loadBoth 5 (tapStored, 0, 0x400000) s1

/-- Shadows that rotate start on their first enabled channel (R73); the pair of one that serves a channel, or is retired,
is loaded for that channel (R120). -/
def loadShadows (s : State) : State :=
  [0, 1, 2].foldl (fun t b =>
    if (getShadow t b).st == .rotate then startDwell b (nextMirror t b 15) t
    else loadBoth (phasePair (60 + b)) (phaseBank (getChan t (mirrorCh b (getShadow t b))).adj (48 + b)) t) s

/-- Prepayment and CTL configurations (R274, R275). -/
def loadCredit (s : State) : State :=
  let s1 := (List.range 256).foldl (fun t p =>
    match nvRead t (nvKey .creditCfg p) with
    | some (.bytes b) => { t with crd.pcfg := tput t.crd.pcfg p (creditOf b) }
    | _ => t) s
  (List.range 16).foldl (fun t n =>
    match nvRead t (nvKey .ctlCfg n) with
    | some (.bytes b) =>
      let c := ctlOf b
      let (t1, ok) := if c.en then claimRestore c.ball.toNat fnCTL n t else (t, false)
      let g := if ok && c.kind == 2 then (freeGen t1).map (fun g => BitVec.ofNat 4 g) else none
      setCtl n { getCtl t1 n with cfg := { c with en := ok }, gen := g } t1
    | _ => t) s1

/-- The ball of an enabled constant-frequency channel is claimed. -/
def claimCf (n : Nat) (w : W32) (s : State) : State × Bool :=
  if cfEn w then claimRestore (cfBall w) fnCF n s else (s, false)

/-- The generator of a channel that runs. -/
def genFor (on : Bool) (s : State) : Option (BitVec 4) :=
  if on then (freeGen s).map (fun g => BitVec.ofNat 4 g) else none

/-- One constant-frequency channel from its stored configuration. -/
def loadCfOne (n : Nat) (b : List Byte) (s : State) : State :=
  let x := claimCf n (cfWord b) s
  setCf n { getCf x.1 n with
    cfg := setBit (cfWord b) 31 x.2, const := BitVec.ofNat 32 (rd b 4 4), live := x.2, gen := genFor x.2 x.1 } x.1

/-- CF outputs (R162). -/
def loadCf (s : State) : State :=
  (List.range 8).foldl (fun t n =>
    match nvRead t (nvKey .config (0x10000 + n)) with
    | some (.bytes b) => loadCfOne n b t
    | _ => t) s

/-- ECREQ balls are claimed after the others (R490). -/
def loadEcreq (s : State) : State :=
  s.crd.pcfg.foldl (fun (t : State) (p : Nat × CreditCfg) =>
    if p.2.ecreqEn then
      let (t1, ok) := claimRestore p.2.ball.toNat fnECREQ 0 t
      { t1 with crd.pcfg := tput t1.crd.pcfg p.1 { p.2 with ecreqEn := ok } }
    else t) s

/-- Subscriptions and capture requests (R187, R194). -/
def loadPq (s : State) : State :=
  let fresh := (List.range 16).all (fun e => (nvRead s (subKey e)).isNone)
  let s0 := if fresh then
      (List.range 4).foldl (fun t e => ownWrite (subKey e) (.bytes (subBytes e (defaultSub e))) 1 t) s
    else s
  let s1 := (List.range 16).foldl (fun t e =>
    let x := match nvRead t (subKey e) with
      | some (.bytes b) => subOf b
      | _ => if fresh then defaultSub e else Init.subEnt
    { t with pq.subs := tput t.pq.subs e x }) s0
  (List.range 8).foldl (fun t r =>
    match nvRead t (nvKey .pqSub (16 + r)) with
    | some (.bytes b) => { t with pq.reqs := tput t.pq.reqs r (capReqOf b) }
    | _ => t) s1

/-- The sequence that follows the newest of the stored snapshots (R239, R10). -/
def nextSnapSeq (s : State) : W32 :=
  let l := s.nvs.recs.filterMap (fun (x : Nat × NvSlot) =>
    if x.1 / 2 / 2 ^ 24 == NvKind.code .snapshot then
      match nvRead s (x.1 / 2) with
      | some (.bytes b) => some (BitVec.ofNat 32 (rd b 0 4))
      | _ => none
    else none)
  match l with
  | [] => 0
  | a :: t => t.foldl (fun m x => if seqNewer x m then x else m) a + 1

/-- Calendar images and the engine's chip-wide and per-point state (R231, R235, R244); the snapshots' sequence goes on. -/
def loadTrf (s : State) : State :=
  let ents := s.nvs.images.filter (fun (e : Nat × List Byte) => e.1 / 2 ^ 14 % 2 == 0)
  let s1 := { s with trf.img := ents.foldl (fun t e => tput t (imgEnt (e.1 / 2 ^ 15 == 1) (e.1 % 2 ^ 14)) e.2) [] }
  let s2 := match nvRead s1 (nvKey .trfState 0) with
    | some (.trfState l a i x) => { s1 with trf.last := l, trf.armed := a, trf.active := i, trf.lastAct := x }
    | _ => s1
  let s3 := (List.range 256).foldl (fun t p =>
    match nvRead t (nvKey .interval p) with
    | some (.interval i) => setInt p i t
    | _ => t) s2
  { s3 with trf.snapSeq := nextSnapSeq s3 }

/-- A manager's rings and position tables (R378, R396). -/
def loadCoil (s : State) : State :=
  if isManager s then
    (List.range 4).foldl (fun t k =>
      let t1 := match nvRead t (nvKey .coilTable k) with
        | some (.table x) => setCRing k { getCRing t k with table := x } t
        | _ => t
      match nvRead t1 (nvKey .coilRing k) with
      | some (.word w) => ringApply k w false t1
      | _ => t1) s
  else s

/-- The multiplexers take the configuration loaded (R66, R87). -/
def loadMuxes (s : State) : State := (List.range 2).foldl (muxConfig 0) s

/-- R412 step 2. The claims of balls follow the order of R490: optical port, CTL, CF, square wave, ECREQ. -/
def loadAll (s : State) : State :=
  let s1 := optApply (gOptEn s.sgr.guard_) (loadShadows (loadBanks (loadPoints (loadChans s))))
  loadCoil (loadTrf (loadPq (loadEcreq (loadMuxes (loadItems (loadCf (loadCredit s1)))))))

/-! ### The sequence of R299 -/

/-- Step 4 and the boundary of step 7, for every point the store knows. -/
def restoreRegs (lg : Option LgArea) (s : State) : State :=
  let pts := storedPts lg s
  let s1 := pts.foldl (fun t p => restoreTotals lg p t) s
  let bnd := lg.bind (fun a => if a.bstep == 0 then none else some (fullSec s a.bsec, a.btotals))
  pts.foldl (fun t p => reconcile bnd p t) s1

/-- Step 6: the FROZEN seconds are queued, and the last gasp's log records stand in their slots. -/
def restoreGasp (a : LgArea) (s : State) : State :=
  let s1 := a.second.foldl (fun (t : State) (e : Nat × List Byte) => deliver2 (frozenRec a e.1 e.2 t) t) s
  { s1 with nvs.log := a.log.foldl (fun t r => tput t (r.seq.toNat % 16384) r) s1.nvs.log
            nvs.logBad := s1.nvs.logBad.filter (fun k => !a.log.any (fun r => r.seq.toNat % 16384 == k)) }

/-- Step 7: the incomplete boundary is completed, then catch-up runs (R243). The records that are formed here carry the
freeze stamp (R236); without a current last gasp there is none, and the tariffs before are those at the latest Open field
(log entry 110). -/
def restoreBoundaries (lg : Option LgArea) (s : State) : State :=
  let now := s.rtc.s
  let opens := (definedPts s).filterMap (fun p => (getInt s p).open_)
  let s1 := match lg with
    | some a =>
      let t := { s with trf.lastEnd := a.stamp }
      if a.bstep == 0 then { t with trf.tariff := (List.range 16).map (fun c => a.tariffs.toNat / 16 ^ c % 16) }
      else completeBoundary a t
    | none => { s with trf.tariff := tariffsAt s s.trf.active (opens.foldl max 0) }
  let from_ (p : Nat) : Nat := match lg with
    | some a => fullSec s a.stamp.sec
    | none => ((getInt s1 p).open_).getD now
  if (definedPts s1).any (fun p => from_ p > now) then catchBack now s1 else catchUp from_ now s1

/-- A clock record of what the RTC domain kept (R325), with the second and the flags as `o` holds them. -/
def keptRec (kind : Nat) (o s : State) : State :=
  rtcRecord kind (rtcFlags o.rtc.invalid o.rtc.wrap o.rtc.invalid o.rtc.wrap) o.rtc.s (rtcFrac o) o.rtc.s 0 s

/-- A reset of the RTC domain is logged (R315). -/
def logRtcReset (o s : State) : State :=
  if o.rtc.resetSeen then { keptRec 4 o s with rtc.resetSeen := false } else s

/-- A commit of the kept clock set is logged (R322). -/
def logKeptSet (o s : State) : State := match o.rtc.kept with
  | some k => { rtcRecord (if k.abs then 1 else 2) k.flags.toNat k.oldS k.oldFrac k.newS k.step s with rtc.kept := none, rtc.setPend := false }
  | none => s

/-- A wrap of the seconds is logged (R319). -/
def logRtcWrap (o s : State) : State :=
  if o.rtc.wrapPend then
    { rtcRecord 3 (rtcFlags o.rtc.invalid o.rtc.wrap o.rtc.invalid true) (rtcRange % 2 ^ 34) 0 0 (-(rtcRange * 65536 : Nat)) s with
      rtc.wrapPend := false }
  else s

/-- A stop of the oscillator is raised and logged (R325). -/
def logOscStop (o s : State) : State :=
  if o.rtc.oscStopped then
    { (if o.rtc.oscRun then raise 10 1 else raiseLive 10 1) (keptRec 5 o s) with rtc.oscStopped := false }
  else s

/-- The oscillator's start again is logged (R325). -/
def logOscStart (o s : State) : State :=
  if o.rtc.oscRan then { keptRec 6 o s with rtc.oscRan := false } else s

/-- The fail-stop of an earlier session is recorded once (R480). -/
def logPrevStop (lg : Option LgArea) (s : State) : State :=
  if bit s.flt.prev 31 then
    let held := lg.any (fun a => a.log.any (fun x => x.typ == 0x0023 && rd x.body 4 1 == 15 && rd x.body 5 1 == 1))
    let s5 := if held then s
      else blockEvent 15 1 (le 4 s.flt.prev.toNat ++ le 8 s.flt.fsTick.toNat ++ le 1 1) s
    { s5 with flt.prev := setBit s5.flt.prev 31 false }
  else s

/-- RTC records and the fail-stop of an earlier session that RESTORE logs (R315, R319, R322, R325, R480). -/
def restorePending (lg : Option LgArea) (s : State) : State :=
  logPrevStop lg (logOscStart s (logOscStop s (logRtcWrap s (logKeptSet s (logRtcReset s s)))))

/-- The power-up record (R308). -/
def powerUpRec (prev : W32) (s : State) : State :=
  let n := s.nvs
  let flags := bitAt n.lgCurrent 0 + bitAt n.lgTorn 1 + bitAt n.replayed 2 + bitAt (n.rebuilt != 0) 3
  logRec 0x0022 (nowStamp s) (addrBytes s 0 ++ le 2 flags ++ zeros 2 ++ le 4 n.session.toNat ++ le 4 prev.toNat
    ++ le 2 n.logLost.toNat ++ le 2 (bitAt n.replayed 0) ++ le 2 n.rebuilt.toNat ++ zeros 2) s

/-- What comes into force with a group's record (R76, R217, R256, R257). -/
def applyEff (e : GroupEff) (s : State) : State :=
  match e with
  | .token p b => tokenApply p b s
  | .grant p => grant 0 p s
  | .retire b => retireNow b s
  | .trims ms ds => applyTrims ms ds s
  | .cf n => cfWritten n s

/-- One queued group is written, with what it brings into force. -/
def flushGroup (s : State) (g : Group) : State :=
  let t := { s with nvs := { applyGroup g s.nvs with nGroups := s.nvs.nGroups + 1 } }
  match g.eff with
  | some e => applyEff e t
  | none => t

/-- Every queued commit group is written (RESTORE outlasts its own writes, R412). -/
def flushGroups (s : State) : State :=
  s.nvs.groups.foldl flushGroup { s with nvs.groups := [], nvs.gstep := 0, nvs.gleft := 0, nvs.bdone := none }

/-- The session number that the store holds. -/
def storedSession (s : State) : W32 :=
  match nvRead s (nvKey .session 0) with
  | some (.word w) => w
  | _ => 0

/-- The mirror position: of the last-gasp image, else of the store. -/
def storedMirror (lg : Option LgArea) (s : State) : W32 :=
  match lg, nvRead s (nvKey .mirror 0) with
  | some a, _ => a.mirror
  | none, some (.word w) => w
  | none, _ => 1

/-- Every credit record and configuration. -/
def restoreCredits (lg : Option LgArea) (s : State) : State :=
  ((s.crd.pcfg.map (·.1) ++ s.crd.cred.map (·.1)).eraseDups).foldl (fun t p => restoreCredit lg p t) s

/-- The registers, the credits, what the last gasp carries, and the boundaries. -/
def restoreFrom (lg : Option LgArea) (s : State) : State :=
  let s1 := restoreCredits lg (restoreRegs lg s)
  restoreBoundaries lg (match lg with
    | some a => restoreGasp a s1
    | none => s1)

/-- The log and its mirror resume; a new session begins, and with it the frame counters (R385). -/
def restoreLogs (lg : Option LgArea) (sess : W32) (s : State) : State :=
  let s1 := { s with nvs.logHead := logNewest s }
  let s2 := restorePending lg (mirrorResume (storedMirror lg s1) s1)
  ownWrite (nvKey .session 0) (.word (sess + 1)) 1 { s2 with
    nvs.session := sess + 1
    coil.ownCtr := 0
    coil.w.ownCtr := 0
    sgr.upMark := if usedSince s2 6 then 1 else 0 }

/-- Steps 1 to 8 of R299 with the loads of R412. -/
def restoreAll (s : State) : State :=
  let s1 := repairAll s
  let sess := storedSession s1
  let s2 := chooseArea (loadAll { s1 with nvs.session := sess })
  let lg := (currentArea s2).map (·.2)
  let s3 := restoreLogs lg sess (restoreFrom lg s2)
  flushGroups (powerUpRec sess { s3 with nvs.ready := true })

end Sys2Proof.Machine
end

