-- ==== Sys2Proof/Machine/Power.lean ====
section
/-!
DEFINITION. Power and resets: POR (R397-R399), the power-fail warning and the last gasp (R293-R298), RESETn and
function-level resets (R362, R416, R477), the backup supply (R314, R315), page commits and the spread-counter pass
(R281, R286, R291).
-/
namespace Sys2Proof.Machine

/-! ### POR (R397, R398, R520) -/

/-- The Kiln array through a POR (R398). -/
def porNvs (n : Nvs) : Nvs :=
  { Init.nvs with
    recs := n.recs, images := n.images, dirty := n.dirty, spread := n.spread, log := n.log, logBad := n.logBad
    journal := n.journal, journalBad := n.journalBad, lga := n.lga, lgb := n.lgb }

/-- The RTC through a POR: the requesters' freezes end, and BADDATE and VBAT_LOW, which the backup domain does not hold,
clear; a staged set stands only from GO on, and its requester is gone (R313, R322, R333). -/
def porRtc (r : Rtc) : Rtc :=
  let r1 := { r with shadows := [], badDate := false, vbatLow := false }
  match r.staged with
  | some ⟨abs, _, true⟩ => { r1 with staged := some ⟨abs, none, true⟩ }
  | _ => { r1 with staged := none, stage0 := 0, stage1 := 0, stage2 := 0, ofs := 0, cmode := false }

/-- The tamper monitors through a POR: the log, the settings of TP0 to TP3 and their filters stand; the alarms are
counted afresh (R313, R450, R451). -/
def porTmp (t : Tmp) : Tmp :=
  { Init.tmp with
    bkSet := t.bkSet, dropped := t.dropped
    log := t.log.map (fun e => { e with wheel := none })
    srcs := (t.srcs.filter (fun p => p.1 ≥ 4)).map (fun p => (p.1, { p.2 with alarms := 0, lastBist := none })) }

/-- Enter POR with its cause: every register takes its reset value and every SRAM is cleared; the Kiln array and the
backup domain stand (R398, R419, R520). -/
def enterPor (cause : BitVec 4) (s : State) : State :=
  { State.reset with
    pending := s.pending, free := s.free, out := s.out, slot := s.slot, porSlot := s.slot, fuses := s.fuses
    boot := { Init.boot with cause := cause, resetnLow := s.boot.resetnLow }
    flt := { Init.flt with prev := s.flt.prev, fsTick := s.flt.fsTick }
    nvs := porNvs s.nvs, rtc := porRtc s.rtc, tmp := porTmp s.tmp
    pin := { Init.pin with jtag := s.pin.jtag }
    sgr := { Init.sgr with rootA := s.sgr.rootA, rootB := s.sgr.rootB } }

/-- The page commit in progress ends and a committed group completes its home writes (R286, R416). -/
def finishCommitted (s : State) : State :=
  match s.nvs.groups with
  | g :: _ =>
    { s with nvs := { (if s.nvs.gstep ≥ 3 then applyGroup g s.nvs else s.nvs) with groups := [], gstep := 0, gleft := 0 } }
  | [] => { s with nvs.gstep := 0, nvs.gleft := 0 }

/-- POWER_ON (R397). -/
def execPowerOn (s : State) : Out :=
  .next (if mainPower s then s else enterPor 1 { s with rtc.onVbat := false, rtc.sub := 0 })

/-- BACKUP_ENTER (R397). -/
def execBackupEnter (s : State) : Out :=
  .next (if s.boot.st == .off then { s with boot.st := .backup, rtc.onVbat := true } else s)

/-- A count that differs from its newest slot goes into the next slot (R291). -/
def spreadWrite (i : Nat) (c : Nat) (s : State) : State :=
  let l := spreadSlots s i
  let v : W48 := BitVec.ofNat 48 c
  let put (k : Nat) : State := { s with nvs.spread := tput s.nvs.spread i (lmod l k (fun _ => some v)) }
  match spreadNewest l with
  | some (k, w) => if w == v then s else put ((k + 1) % 8)
  | none => put 0

/-- The counters of the pass that is due, with their counts. -/
def spreadList (s : State) : List (Nat × Nat) :=
  s.nvs.spreadDue.flatMap (fun (p : Nat × List Nat) => p.2.zipIdx.map (fun x => (8 * p.1 + x.2, x.1)))

/-- A spread-counter pass may write: A and B agreed at the close, and the array is open (R291, R476). -/
def spreadOpen (s : State) : Bool := metering s && s.pnt.cmpOk && storeOpen s

/-- What a cut leaves of the spread-counter pass in progress: each counter's word is old or new, as a free value decides
(R280, R292). -/
def cutSpread (s : State) : State :=
  if spreadOpen s then
    (spreadList s).foldl (fun t x =>
      let (b, u) := drawBit t
      if b then spreadWrite x.1 x.2 u else u) s
  else s

/-- What a cut leaves of the page commit in progress of a last gasp: the seal that is being cleared, or the one that is
being written, is old or new (R280, R294, R297). -/
def cutGasp (s : State) : State :=
  match s.nvs.lg with
  | some ⟨_, _, some n, a⟩ =>
    let (b, t) := drawBit s
    if n = 1 then (if b then putArea (lgTargetB s) a t else t)
    else if n = (if a.used == 65536 then 257 else 161) then (if b then clearSeal t else t)
    else t
  | _ => s

/-- BROWN_OUT (R399): no last gasp; the page commit in progress tears (R280). -/
def execBrownOut (s : State) : Out :=
  .next (if running s then enterPor 4 (cutJournal (cutAppend (cutSpread (cutGasp s)))) else s)

/-! ### Last gasp by request (R294, R298, R416) -/

/-- A RESETn in METERING: the last gasp with cause 2, and then POR; under PROT 3 nothing is written (R302). -/
def resetMetering (s : State) : State :=
  if s.nvs.lg.isSome then { s with flt.remembered := some 2 }
  else if s.nvs.lgDone || s.nvs.inhibit then enterPor 2 (finishCommitted s)
  else if s.nvs.prot == 3 then enterPor 2 (finishCommitted (freeze s))
  else startLastGasp 2 (dropPending (freeze s))

/-- A reset in a fail-stop: it ends one escalated from a SEVERE fault, at once from step 5 on and else once step 5 is
done; a GRAVE one ignores it (R416, R477). -/
def resetFailstop (cause : BitVec 4) (s : State) : State :=
  if s.flt.kind == .grave then s
  else if s.flt.phase == .safe then enterPor cause s
  else { s with flt.remembered := some cause }

/-- RESETN_ASSERT (R416). -/
def execResetnAssert (s : State) : Out :=
  let s1 := { s with boot.resetnLow := true }
  .next (if !running s then s1
    else if metering s then resetMetering s1
    else if s.boot.st == .failstop then resetFailstop 2 s1
    else enterPor 2 (finishCommitted s1))

/-- FUNCTION_LEVEL_RESET (R362, R417, R477): the function is reset; in a fail-stop from a SEVERE fault it acts as RESETn. -/
def execFunctionLevelReset (s : State) : Out :=
  .next (if isWorker s || !s.hif.linkUp then s
    else
      let s1 := dropTransfer (hifReset s)
      let s2 := { s1 with hif.flr := s1.hif.flr + 1 }
      if s.boot.st == .failstop then resetFailstop 3 s2 else s2)

/-! ### The power-fail warning (R293, R294, R298) -/

/-- POWER_FAIL_WARNING: in METERING everything freezes at kf and the last gasp starts; before it, writing stops. -/
def execPowerFailWarning (s : State) : Out :=
  let s1 := { s with nvs.warn := true, tmp.muted := true }
  .next (if !running s || s.nvs.warn then s
    else if metering s then
      if s.nvs.lg.isSome || s.nvs.lgDone then s1
      else if s.nvs.prot == 3 then stopWrites (dropPending (freeze s1))
      else startLastGasp 1 (dropPending (freeze s1))
    else if s.nvs.lg.isSome then s1
    else stopWrites s1)

/-- POWER_FAIL_RELEASE (R293). -/
def execPowerFailRelease (s : State) : Out := .next { s with nvs.warn := false }

/-- POWER_RESTORE_RESTART (R298): VSENSE has stayed above 1.25 V for 50 ms after the store was inhibited. A fail-stop ends
only as R477 gives. -/
def execPowerRestoreRestart (s : State) : Out :=
  .next (if running s && (s.nvs.lgDone || s.nvs.inhibit) && !s.nvs.warn && s.nvs.lg.isNone && s.flt.phase == .none then
      enterPor 5 (finishCommitted s)
    else s)

/-! ### Page commits (R281, R286, R294) -/

/-- The group at the front is committed: what comes into force with it does so, once. -/
def groupCommitted (s : State) : State :=
  match s.nvs.groups with
  | g :: rest => match g.eff with
    | some e => applyEff e { s with nvs.groups := { g with eff := none } :: rest }
    | none => s
  | [] => s

/-- A page commit of the front group; at the end of its step 3 what it brings into force follows, and the Saggar goes on
once one of its groups is committed. -/
def commitPage (s : State) : State :=
  let tag := match s.nvs.gstep, s.nvs.groups with
    | 3, ⟨.recs t _, _, _, _, _, _⟩ :: _ => t
    | _, _ => 0
  let s1 := if s.nvs.gstep = 3 then groupCommitted (groupPage s) else groupPage s
  if tag = 0 then s1 else sagCommitted tag s1

/-- Microseconds since the start of a last gasp. -/
def lgMicros (g : LgRun) (s : State) : W16 := satN 16 ((s.slot - g.t0) * 1000 / 24576)

/-- The last gasp has ended (R298, R416, R475): reset follows cause 2 and a remembered RESETn; a fail-stop goes on to its
step 3; else the device waits for VSENSE. -/
def lgEnd (g : LgRun) (s : State) : State :=
  let s1 := { s with nvs.lg := none, nvs.lgDone := true, nvs.inhibit := true }
  if g.cause == 2 then enterPor 2 s1
  else if failed s1 then { s1 with flt.phase := .lastGasp, flt.wroteLg := g.cause == 3 }
  else match s1.flt.remembered with
    | some c => enterPor c s1
    | none => s1

/-- One page commit of steps 4 to 6 of R294: the seal cleared, the data pages, the seal. -/
def lgPage (g : LgRun) (n : Nat) (s : State) : State :=
  let total := if g.area.used == 65536 then 257 else 161
  let g1 := if n = 2 then { g with area := { g.area with elapsed := lgMicros g s } } else g
  let s1 := if n = total then clearSeal s else s
  if n ≤ 1 then lgEnd g (putArea (lgTargetB s) g.area s1)
  else { s1 with nvs.lg := some { g1 with left := some (n - 1) } }

/-- A page commit ends while a last gasp runs (R294 step 3): one in progress ends, a committed group completes, an
uncommitted one is abandoned; then steps 4 to 6. -/
def lgCommit (g : LgRun) (s : State) : State :=
  match g.left with
  | some n => lgPage g n s
  | none =>
    if s.nvs.gstep ≥ 3 then
      let s1 := commitPage s
      if s1.nvs.gstep = 0 then lgAssemble g s1 else s1
    else
      let s1 := lgAssemble g s
      match s.nvs.groups.isEmpty, s1.nvs.lg with
      | true, some g1 => lgPage g1 (g1.left.getD 161) s1
      | _, _ => s1

/-- PAGE_COMMIT_DONE (R281, R286, R294). -/
def execPageCommitDone (s : State) : Out :=
  .next (if !running s then s
    else match s.nvs.lg with
      | some g => lgCommit g s
      | none =>
        if s.nvs.inhibit && s.nvs.gstep < 3 then s else commitPage s)

/-! ### Spread counters (R291, R476) -/

/-- SPREAD_COUNTER_PASS: the changed counters of the second that closed, unless A and B differed; the mirror position is
kept with it. -/
def execSpreadCounterPass (s : State) : Out :=
  .next (if !spreadOpen s then s
    else
      let s1 := (spreadList s).foldl (fun t x => spreadWrite x.1 x.2 t) s
      let s2 := { s1 with nvs.spreadDue := [] }
      if nvRead s2 (nvKey .mirror 0) == some (.word s.nvs.mirror) then s2
      else ownWrite (nvKey .mirror 0) (.word s.nvs.mirror) 1 s2)

/-! ### The backup supply (R314, R315, R502) -/

/-- BACKUP_SWITCHOVER: the domain runs on VBAT; in POR, VDDIO out of range means that main power is absent. -/
def execBackupSwitchover (s : State) : Out :=
  let s1 := { s with rtc.onVbat := true }
  .next (if s.boot.st == .por then { s1 with boot.st := .backup } else s1)

/-- BACKUP_RESET: clock, trim, event inputs, FIFO, tamper log, battery-backed RAM with the root secret, settings of the pin
monitors, FLT_PREV and BOOT_CAUSE take their reset values; on VBAT alone the chip is off. -/
def execBackupReset (s : State) : Out :=
  .next <| noteQual s { s with
    rtc := { Init.rtc with inReset := true, resetSeen := true, bkpReset := s.rtc.bkpReset, onVbat := s.rtc.onVbat, sub := s.rtc.sub }
    flt.prev := 0
    flt.fsTick := if failed s then s.flt.fsTick else 0
    boot.cause := 1
    boot.st := if s.boot.st == .backup then .off else s.boot.st
    tmp := { s.tmp with log := [], dropped := 0, bkSet := [], srcs := s.tmp.srcs.filter (fun p => p.1 < 4) }
    sgr.rootA := Init.rootCopy
    sgr.rootB := Init.rootCopy }

/-- BACKUP_RESET_END: the RTC counts from 2000-01-01. -/
def execBackupResetEnd (s : State) : Out :=
  .next (if s.rtc.inReset then { s with rtc := { s.rtc with inReset := false, oscRun := true } } else s)

end Sys2Proof.Machine
end

