-- ==== Sys2Proof/Machine/Boot.lean ====
section
/-!
DEFINITION. From power to metering: the end of POR and FUSE (R20, R22, R398, R400), the MPLL's first lock and the end of
CAL (R33, R69, R101, R211), image transfer and verification (R401-R411), RESTORE's end (R412), HOLD (R415), the
processor complex (R17-R19), and a fail-stop's safe state (R475, R477, R478).
-/
namespace Sys2Proof.Machine

/-! ### FUSE (R400) -/

/-- The payload of the guarded-settings record, as far as a copy of it can be read. -/
def guardBytes (s : State) : List Byte := (guardRec s (nvKey .guarded 0) (shippedGuard s)).getD (shippedGuard s)

/-- A locked role that the strapped role differs from (R22). Straps that select no role are STRAP_INVALID whatever is
locked (R20). -/
def lockedAway (s : State) : Option Role :=
  let g := guardBytes s
  if strapRole s != .noRole && gLocked g && gLockRole g != roleNum (strapRole s) then
    some (match gLockRole g with
      | 0 => .standalone
      | 1 => .manager
      | _ => .worker)
  else none

/-- Recorded substitutions and retirements act from the power-up on (R76). -/
def loadSubsts (s : State) : State :=
  [0, 1, 2].foldl (fun t b =>
    match nvRead t (substKey b) with
    | some (.nat v) =>
      if v % 8 == 5 then setShadow b { getShadow t b with st := .retired } t
      else if v % 8 == 4 then setShadow b { getShadow t b with st := .substituted, subst := BitVec.ofNat 4 (v / 8), mirror := BitVec.ofNat 4 (v / 8) } t
      else t
    | _ => t) s

/-- Steps 2 and 3 of FUSE with the role decided on: journal, guarded records, NOM60, keys; the tamper monitors start with
the record's settings and an LFSR seeded from the entropy source (R400, R449, R457). -/
def fuseSteps (role : Role) (s : State) : State :=
  let s1 := fuseSaggar { resolveJournal s with boot.role := role }
  let nom : Bool := match itemStored s1 0x0301 0 with
    | some v => bit v 0
    | none => false
  let cfg : W32 := if nom then 1 else 0
  let (r, s2) := drawRandom 8 { s1 with whl := { s1.whl with regs := { s1.whl.regs with cfg := cfg }, next := { s1.whl.next with cfg := cfg } } }
  { s2 with tmp := { s2.tmp with run := true, lfsr := BitVec.ofNat 64 (ofLe r) } }

/-- A worker's Coil transmitters are on from the role decision (R368, R493). -/
def portsOn (s : State) : State :=
  if isWorker s then [0, 1].foldl (fun t p => setPort p { getPort t p with tx := true } t) s else s

/-- Steps 4 and 5: the role takes effect, or the device enters HOLD or FAILSTOP; the Wheel starts; a worker waits for its
ring, any other chip goes on to CAL. -/
def fuseRole (away : Bool) (s : State) : State :=
  if failed s then s
  else if s.boot.role == .noRole then raise 17 1 s
  else
    let s1 := wheelStart (loadSubsts (portsOn s))
    if away then raiseLive 17 0 { s1 with boot := { s1.boot with st := .hold, holdCause := 1 } }
    else
      let s2 := if strapMismatch s1 then raiseLive 17 0 s1 else s1
      if isWorker s2 then s2 else { s2 with boot.st := .cal }

/-- POR_END (R398, R400): the hold of POR completes; the straps are sampled and FUSE runs. -/
def execPorEnd (straps : BitVec 2) (fuseParityOk : Bool) (s : State) : Out :=
  .next (if s.boot.st != .por then s
    else
      let s1 := { s with
        porSlot := s.slot
        boot := { s.boot with st := .fuse, strap := straps, resetnLow := false }
        rtc := { s.rtc with bkpReset := s.rtc.resetSeen, onVbat := false }
        tmp.muted := false }
      let s1 := if s1.rtc.bkpReset then raise 10 0 s1 else s1
      if !fuseParityOk then raise 17 2 s1
      else
        let away := lockedAway s1
        fuseRole away.isSome (fuseSteps (away.getD (strapRole s1)) s1))

/-- MPLL_LOCK (R33, R69, R101, R103): at its first lock the grid starts at the first slot 0, and every stream settles; a
worker on the ring's clock enters CAL. The change to the ring's clock happens once per POR, and ends an unlock on XTAL
(R70). -/
def execMpllLock (onRing : Bool) (s : State) : Out :=
  let ring := onRing && isWorker s
  .next (if !running s || (s.afe.everLocked && (!ring || s.afe.ringSrc)) then s
    else
      let p := ring && !bit s.afe.rclk 0 && bit s.afe.rclk 1
      let first := !s.afe.everLocked
      let s1 := { s with
        afe := { s.afe with mpllLock := true, everLocked := true, ringSrc := ring, port := p
                            rclk := if ring && s.afe.rclk == 0 then 1 else s.afe.rclk }
        dec := if first then { s.dec with run := true, gSlot := s.slot } else s.dec }
      let s2 := if first then settleNow (List.range 63) { s1 with whl.u := gridU s1 s1.whl }
        else clockBack 7 s1
      if ring && s.boot.st == .fuse then { s2 with boot.st := .cal } else s2)

/-! ### The image store (R402-R408) -/

/-- A 16-byte unit of the image, zero where none is held. -/
def imgUnit (s : State) (i : Nat) : List Byte := tgetD s.boot.img.units i (zeros 16)
/-- `n` units from unit `i` on. -/
def imgRange (s : State) (i n : Nat) : List Byte := (List.range n).flatMap (fun k => imgUnit s (i + k))
def hdrBytes (s : State) : List Byte := imgRange s 0 32
def imgL (s : State) : Nat := rd (hdrBytes s) 8 4
def imgA (s : State) : Nat := rd (hdrBytes s) 12 4
def legalSeg (s : State) : List Byte := imgRange s 32 (imgL s / 16)
def appSeg (s : State) : List Byte := imgRange s (32 + imgL s / 16) (imgA s / 16)

/-- Lengths of R405: 8,704 to 2,097,664 in units of 16. -/
def totalOk (n : Nat) : Bool := 8704 ≤ n && n ≤ 2097664 && n % 16 == 0

/-- A range that does not lie in the transfer in whole units. -/
def rangeBad (ofs n total : Nat) : Bool := ofs % 16 != 0 || n % 16 != 0 || ofs + n > total

/-- Bytes are stored at their image offset; the first ones fix the total and begin the transfer (R405). -/
def storeImage (ofs total : Nat) (data : List Byte) (s : State) : State :=
  let units := (List.range (data.length / 16)).foldl (fun t i => tput t (ofs / 16 + i) ((data.drop (16 * i)).take 16))
    s.boot.img.units
  let s1 := { s with boot.img := { s.boot.img with total := some total, units := units, state := 1 } }
  { s1 with boot := { s1.boot with id := BitVec.ofNat 32 (rd (hdrBytes s1) 36 4), lrel := BitVec.ofNat 32 (rd (hdrBytes s1) 16 4),
                                   arel := BitVec.ofNat 32 (rd (hdrBytes s1) 20 4) } }

/-- Verification is running (R407, R415). -/
def verifying (s : State) : Bool := s.boot.st == .verify || (s.boot.st == .hold && s.boot.img.endAcc && !s.boot.fired)

/-- The status that the boot state gives an image request: NOT_READY in FAILSTOP, DENIED after FIRED (R405, R406, R408). -/
def imageState (s : State) : List (Bool × W16) :=
  [(s.boot.st == .failstop, statusNotReady), (s.boot.fired, statusDenied)]

/-- IMAGE_DATA (R405). -/
def execImageData (r : Req) (s : State) : Out :=
  let w := reqWaiter r 8 0x80
  let ofs := rd r.inl 0 4
  let total := rd r.inl 4 4
  .next (match firstBad (imageState s ++ [(s.boot.img.endAcc, statusBusy), (!totalOk total, statusRange),
      (s.boot.img.total.any (· != total), statusRange), (rangeBad ofs r.buf.length total, statusRange)]) with
    | some st => complete w st 0 [] s
    | none => complete w statusOk 0 [] (storeImage ofs total r.buf s))

/-- IMAGE_END (R406): verification starts once CAL has ended; the request completes with its result. -/
def execImageEnd (r : Req) (s : State) : Out :=
  let w := reqWaiter r 8 0x81
  .next (match firstBad ([(r.buf.length != 8, statusBadLength)] ++ imageState s ++ [(s.boot.img.endAcc, statusBusy),
      (!zerosAt r.buf 4 4 || s.boot.img.total != some (rd r.buf 0 4) || !imageComplete s, statusRange)]) with
    | some st => complete w st 0 [] s
    | none => waitReq w { s with
        boot := { s.boot with img := { s.boot.img with endAcc := true, endWait := some w }, abort := false
                              st := if s.boot.st == .greenware then .verify else s.boot.st } })

/-- IMAGE_ABORT (R407). An IMAGE_END that still waits for CAL ends with a status the manual does not give (log entry 33). -/
def execImageAbort (r : Req) (s : State) : Out :=
  let w := reqWaiter r 8 0x82
  .next (match firstBad ([(r.buf.length != 4, statusBadLength)] ++ imageState s ++ [(verifying s, statusBusy),
      (!zerosAt r.buf 0 4, statusRange)]) with
    | some st => complete w st 0 [] s
    | none =>
      let s1 := match s.boot.img.endWait with
        | some e => let (n, t) := drawNat s; complete e (BitVec.ofNat 16 n) 0 [] t
        | none => s
      complete w statusOk 0 [] (dropImage s1))

/-- The reply of IMAGE_INFO (R407). -/
def imageInfoReply (s : State) : List Byte :=
  let b := s.boot
  (hdrBytes s).take 384 ++ le 1 (bootNum b.st) ++ le 1 b.img.state.toNat ++ le 1 b.result.toNat
    ++ le 1 (if b.match_ == 7 then 0xFF else b.match_.toNat) ++ le 4 (16 * b.img.units.length) ++ [s.sgr.appr] ++ zeros 55

/-- IMAGE_INFO (R407, R408). -/
def execImageInfo (r : Req) (s : State) : Out :=
  let w := reqWaiter r 8 0x83
  .next (match firstBad [(s.boot.st == .failstop, statusNotReady), (r.buf.length < 448, statusBadLength)] with
    | some st => complete w st 0 [] s
    | none => complete w statusOk 0 (imageInfoReply s) s)

/-- IMAGE (R391, R411): a worker stores a broadcast's bytes; once every unit is held it enters VERIFY when CAL has
ended. -/
def execImageFrame (f : Frame) (s : State) : Out :=
  let ofs := rd f.payload 0 4
  let total := rd f.payload 4 4
  let data := f.payload.drop 8
  .next (if !isWorker s || !running s || f.dst != 0xFF || f.cls != 3 || f.typ != 1 then s
    else if frameBad f then countCrc s
    else if s.boot.fired || s.boot.st == .failstop || s.boot.img.endAcc || f.payload.length < 8 || !totalOk total
        || s.boot.img.total.any (· != total) || rangeBad ofs data.length total then s
    else
      let s1 := storeImage ofs total data s
      if imageComplete s1 then
        { s1 with boot := { s1.boot with img := { s1.boot.img with endAcc := true }, abort := false
                                         st := if s1.boot.st == .greenware then .verify else s1.boot.st } }
      else s1)

/-! ### Leaving CAL (R211, R397, R406, R415) -/

def enterGreenware (s : State) : State :=
  let s1 := { s with boot := { s.boot with st := .greenware, greenSlot := some s.slot } }
  if isWorker s1 && s1.sgr.ident then sendNeed s1 else s1

/-- POWERUP_CAL_WRITE (R211 steps 5 and 6): the trims are written and CAL is left. -/
def execPowerupCalWrite (s : State) : Out :=
  .next (if s.boot.st != .cal || !powerupDone s then s
    else
      let s1 := powerupWrite s
      let s2 := { s1 with boot.calDone := true }
      if s2.boot.st != .cal then s2
      else if s2.boot.fired then { s2 with boot.st := .restore }
      else if s2.boot.img.endAcc then { s2 with boot.st := .verify }
      else enterGreenware s2)

/-! ### Verification (R409, R410) -/

/-- Step 1 of R409. -/
def headerBad (s : State) : Bool :=
  let h := hdrBytes s
  let l := imgL s
  let a := imgA s
  h.take 4 != [0x4B, 0x51, 0x49, 0x4D] || rd h 4 2 != 1 || rd h 6 2 != 0x6048
    || l < 4096 || l > 524288 || l % 16 != 0 || a < 4096 || a > 1572864 || a % 16 != 0
    || rd h 24 4 % 4 != 0 || rd h 24 4 ≥ l || rd h 28 4 % 4 != 0 || rd h 28 4 ≥ a
    || !zerosAt h 136 248 || !zerosAt h 480 32 || s.boot.img.total != some (512 + l + a)

/-- The ENABLED slot whose fused digest is the legal digest (R403). -/
def approvedSlot (s : State) : Option Nat :=
  (List.range 4).find? (fun i => fld s.sgr.appr (2 * i + 1) (2 * i) == 2 && Config.fusedDigest i == ((hdrBytes s).drop 40).take 48)

/-- Result code and completion of a verification: the first check that fails (R409). -/
def verifyResult (s : State) : Nat × W16 :=
  let h := hdrBytes s
  if headerBad s then (1, statusRange)
  else if s.boot.abort then (6, statusTamperAbort)
  else if !Config.ecdsaVerify Config.imageKey (Config.sha384 (h.take 384)) ((h.drop 384).take 96) then (2, statusAuthFail)
  else if Config.sha384 (legalSeg s) != (h.drop 40).take 48 then (3, statusAuthFail)
  else if Config.sha384 (appSeg s) != (h.drop 88).take 48 then (4, statusAuthFail)
  else if (approvedSlot s).isNone then (5, statusDenied)
  else (0, statusOk)

/-- The image is of the releases that the manual describes: L2.0 and the A3 line (R4). -/
def describedImage (s : State) : Bool :=
  (hdrBytes s).drop 16 |>.take 6 |> (· == [0x4C, 2, 0, 0, 0x41, 3])

/-- Microseconds from power-good, 50 ms before the end of POR (R398, log entry 32). -/
def sincePower (s : State) : W32 := satN 32 (50000 + (s.slot - s.porSlot) * 1000 / 24576)

/-- The end of an IMAGE_END. -/
def endImage (st : W16) (s : State) : State :=
  let s1 := { s with boot.img := { s.boot.img with endAcc := false, endWait := none }, boot.abort := false }
  match s.boot.img.endWait with
  | some w => complete w st 0 [] s1
  | none => s1

/-- The vectors that stayed pending until FIRED (R401, R457). -/
def pendVectors (s : State) : State :=
  (List.range 15).foldl (fun t i => blkSignal (i + 1) false t) s

/-- The image is FIRED: the cores start, and RESTORE follows but in HOLD (R409, R415). -/
def fireImage (s : State) : State :=
  pendVectors <| endImage statusOk { s with
    boot := { s.boot with fired := true, result := 0, match_ := BitVec.ofNat 3 ((approvedSlot s).getD 7), tfired := sincePower s
                          img := { s.boot.img with state := 2 }, st := if s.boot.st == .verify then .restore else s.boot.st }
    cpx := { s.cpx with lcp := true, acp0 := true, acp1 := true } }

/-- The image is refused: the SRAMs and the header store are cleared (R410). -/
def refuseImage (code : Nat) (st : W16) (s : State) : State :=
  let s1 := endImage st s
  let s2 := { s1 with
    boot := { s1.boot with
      img := { Init.image with state := 3 }, id := 0, lrel := 0, arel := 0, refusals := satInc s1.boot.refusals
      result := BitVec.ofNat 4 code, st := if s1.boot.st == .verify then .greenware else s1.boot.st
      greenSlot := if s1.boot.st == .verify && s1.boot.greenSlot.isNone then some s1.slot else s1.boot.greenSlot
      refusedSlot := some s1.slot } }
  raise 17 3 s2

/-- VERIFY_DONE (R409, R410). -/
def execVerifyDone (s : State) : Out :=
  if !verifying s then .next s
  else
    let (code, st) := verifyResult s
    if code != 0 then .next (refuseImage code st s)
    else if describedImage s then .next (fireImage s)
    else .fault .otherImage

/-- 1.5 s have passed since link-up, or on a worker since GREENWARE began (R418). -/
def imageWaited (s : State) : Bool :=
  match (if isWorker s then s.boot.greenSlot else s.hif.linkSlot) with
  | some t => s.slot ≥ t + 36864000
  | none => false

/-- IMAGE_WAIT (R418): once per POR. -/
def execImageWait (s : State) : Out :=
  .next (if !running s || s.boot.waitRaised || s.boot.fired || imageComplete s || !imageWaited s then s
    else raise 17 4 { s with boot.waitRaised := true })

/-! ### RESTORE ends (R272, R412, R493) -/

/-- The function balls start to drive (R272, R493): CTL to their logical states, CF and EVOUT inactive, OPT_TX at the
mark, GPIO outputs, and the square wave. -/
def driveAll (s : State) : State :=
  let s1 := driveOutputs s
  let s2 := (List.range 8).foldl (fun t n =>
    let x := getCf t n
    if x.live then driveBall (cfBall x.cfg) (cfLevel x.cfg false) t else t) s1
  let s3 := (List.range 4).foldl (fun t j =>
    let w := nth t.pin.evout j 0
    if bit w 31 then driveBall (fld w 28 24) false t else t) s2
  let s4 := if s3.trf.optEn then driveBall 30 true s3 else s3
  sqwDrive ((List.range 32).foldl (fun t n => gpioApply n t) s4)

/-- A GRAVE fault raised in RESTORE: FAILSTOP, and nothing further is written or metered (R412, R475). -/
def restoreFailed (s s1 : State) : State :=
  let a := repairAll s
  { s1 with
    nvs := { s1.nvs with recs := a.nvs.recs, images := a.nvs.images, dirty := a.nvs.dirty, log := s.nvs.log
                         spread := s.nvs.spread, groups := [], gstep := 0, gleft := 0, ready := false }
    rtc := s.rtc
    flt.prev := s1.flt.reason }

/-- What METERING starts with: the Rogowski integrators (R145), and RESUMED of the first second (R159). -/
def meterStart (s : State) : State :=
  { s with pnt := { s.pnt with
      resumed := true
      ws := s.pnt.ws.map (fun (q : Nat × WStream) => (q.1, { q.2 with rog := Init.rog, rogB := Init.rog })) } }

/-- RESTORE_DONE (R412): all of RESTORE, then METERING, unless a GRAVE fault was raised on the way. -/
def execRestoreDone (s : State) : Out :=
  .next (if s.boot.st != .restore || failed s then s
    else
      let s1 := restoreAll s
      if failed s1 then restoreFailed s s1 else driveAll (frozenStart (meterStart { s1 with boot.st := .metering })))

/-! ### The processor complex (R17-R19) -/

/-- ACP_FW_WRITE (R17): the write has no effect. -/
def execAcpFwWrite (s : State) : Out :=
  .next (if s.cpx.acp0 || s.cpx.acp1 then raise 16 0 { s with cpx.fwRefused := satInc s.cpx.fwRefused } else s)

/-- LCP_MISMATCH (R18). -/
def execLcpMismatch (s : State) : Out := .next (if s.cpx.lcp then raise 16 1 s else s)

/-- ACP_WDOG (R19): both ACPs are restarted. -/
def execAcpWdog (core : Nat) (s : State) : Out :=
  .next (if !(if core = 0 then s.cpx.acp0 else s.cpx.acp1) || failed s then s
    else raiseLive 16 2 { s with cpx := { s.cpx with acp0 := false, acp1 := false, restarts := satInc s.cpx.restarts } })

/-- ACP_RESTART_DONE (R19, R466). -/
def execAcpRestartDone (s : State) : Out :=
  .next (if !s.boot.fired || s.cpx.acp0 || failed s then s
    else resolve 16 2 (fallLive 16 2 { s with cpx := { s.cpx with acp0 := true, acp1 := true } }))

/-! ### The safe state of a fail-stop (R475, R477, R478) -/

/-- Requests accepted and not complete end NOT_READY (R478). -/
def endRequests (s : State) : State :=
  let s1 := orphanAll s
  { s1 with hif.rings := s1.hif.rings.map (fun (p : Nat × Ring) => (p.1, { p.2 with
      acc := p.2.acc.map (fun a => if a.done.isNone && !p.2.bufs.any (fun b => b.idx == a.idx) then
        { a with done := some ⟨statusNotReady, 0, 0, []⟩ } else a)
      queue := p.2.queue.map (fun q => { q with hold := none }) })) }

/-- Step 3: outputs without angle alignment; EVOUT and SYNCOUT low, OPT_TX at the mark (R272, R493). -/
def safeBalls (s : State) : State :=
  let s1 := if s.nvs.ready then safeOutputs s else s
  let s2 := (List.range 4).foldl (fun t j =>
    let w := nth t.pin.evout j 0
    if bit w 31 && (getBall t (fld w 28 24)).drive then driveBall (fld w 28 24) false t else t) s1
  { s2 with pin.syncout := false, trf.opt := { s2.trf.opt with st := .idle } }

/-- FAILSTOP_SAFE_STATE (R475 steps 3 to 5): outputs, FAILn, the FAILSTOP record; the Wheel runs on in holdover; a
remembered reset acts. Where the last gasp was skipped, the engines freeze first (step 1). -/
def execFailstopSafeState (s : State) : Out :=
  .next (if s.nvs.lg.isSome || !(s.flt.phase == .begun || s.flt.phase == .lastGasp) then s
    else
      let b := fld s.flt.reason 20 16
      let s1 := endRequests (safeBalls (if s.flt.phase != .begun then s else if s.nvs.ready then lgFreeze s else calAbort s))
      let s2 := noteQual s1 { s1 with
        pin.failn := true, flt.phase := .safe, cpx.lcp := false
        whl := { s1.whl with hold := true, lock := false, slew := false, selected := false,
                             pherr := if isWorker s then 0 else s1.whl.pherr } }
      let s3 := sendVector (blkVector b) (fltRec0 b (fld s.flt.reason 4 0) 4 s2)
      match s3.flt.remembered with
      | some c => if s3.flt.kind == .severe then enterPor c s3 else s3
      | none => s3)

end Sys2Proof.Machine
end

