-- ==== Sys2Proof/Machine/Escalate.lean ====
section
/-!
DEFINITION. The commands of the fault logic: clearing of sticky bits (R464), grace timers (R467), escalation windows
and resolution spans (R466, R468), parity errors (R465).
-/
namespace Sys2Proof.Machine

/-- FLT_BIDX selects a block (R481); 0 and 19 to 31 select none. -/
def fltSel (s : State) : Option Nat :=
  let b := s.flt.bidx.toNat
  if 1 ≤ b && b ≤ 18 then some b else none

/-- Bits written 1 clear unless their condition is live (R464). -/
def fstatClear (v : W32) (s : State) : State :=
  match fltSel s with
  | some b => modBlk b (fun k => { k with fstat := k.fstat &&& ~~~ (v &&& ~~~ k.flive) }) s
  | none => s

/-- FLT_FSTAT_CLEAR (R464, R478): a host's write, from FIRED on, in fail-stop too. -/
def execFltFstatClear (v : W32) (s : State) : Out := .next (if s.boot.fired && !isWorker s then fstatClear v s else s)

/-- The unresolved SEVERE source that decides a grace expiry: the one that started the timer, else the earliest one
still unresolved (R467, R474). -/
def graceCause (k : BlkFlt) (g : Grace) : Option Nat :=
  if (tgetD k.srcs g.src Init.srcSt).severe.isSome then some g.src
  else
    (k.srcs.foldl (fun (best : Option (Nat × W64)) p => match p.2.severe, best with
      | some t, some (i, u) => if t.toNat < u.toNat then some (p.1, t) else some (i, u)
      | some t, none => some (p.1, t)
      | none, b => b) none).map (·.1)

/-- GRACE_EXPIRY (R467): when the timer reaches 0, fail-stop begins while a SEVERE fault of the block is unresolved. -/
def execGraceExpiry (b : Nat) (s : State) : Out :=
  .next (match (getBlk s b).run with
    | none => s
    | some g =>
      if s.slot < g.start + g.ms * msSlots then s
      else
      let s1 := modBlk b (fun k => { k with run := none }) s
      match graceCause (getBlk s b) g with
      | some src => failStop true (getSrc s b src).esc .severe b src s1
      | none => s1)

/-- ESC_WINDOW_EXPIRY (R468): the window closes with the count at 0 once its W has passed. -/
def execEscWindowExpiry (b src : Nat) (s : State) : Out :=
  .next (if (getSrc s b src).win.any (fun o => !winOpen s o) then modSrc b src (fun x => { x with win := none, count := 0 }) s else s)

/-- ESC_RESOLVE_SPAN (R466): a span of W has passed without a raise, and LIVE is 0. -/
def execEscResolveSpan (b src : Nat) (s : State) : Out :=
  let x := getSrc s b src
  .next (if x.esc && x.span.any (fun o => !winOpen s o) && !bit (getBlk s b).flive src then resolve b src s else s)

/-- The sources of R465 that a parity error raises: filter state, DFT state, key RAM, fault state. -/
def paritySrc (b src : Nat) : Bool :=
  (b == 2 && src == 1) || (b == 5 && src == 1) || (b == 13 && src == 6) || (b == 15 && src == 0)

/-- PARITY_ERROR_DETECT (R465). -/
def execParityErrorDetect (b src : Nat) (s : State) : Out := .next (if mainPower s && paritySrc b src then raise b src s else s)

end Sys2Proof.Machine
end

