-- ==== Sys2Proof/Machine/Turn.lean ====
section
/-!
DEFINITION. The Wheel's turn boundary (R36-R40, R122, R153), scheduled actions (R46-R50, R51), and RTC commits with all
their consequences (R157, R179, R245, R263, R319, R322).
-/
namespace Sys2Proof.Machine

/-! ### The turn boundary -/

/-- A worker's SYNC of whose flagged beacons it has accepted neither is missed once the turn they named has come
(R56). -/
def syncMissed (s : State) : State :=
  match s.whl.syncMissTurn with
  | none => s
  | some t =>
    if turnLater t.toNat (turnOf s.whl.pos).toNat then s
    else
      let s1 := { s with whl.syncMissTurn := none }
      if s.whl.sync.isSome then s1 else raise 3 4 s1

/-- At the boundary that begins turn T the advance of a CTL entry is read afresh from the frequency estimate, unless its
firing position lies before T: it is fixed from the boundary that begins its own turn on (R47). -/
def rereadAdvance (s : State) : State :=
  { s with whl.ang := s.whl.ang.map (fun (p : Nat × AngEnt) =>
      if p.2.en && p.2.kind == 1 && !p.2.every && (firePos p.2 - s.whl.pos).toNat < 2 ^ 63 then
        (p.1, { p.2 with adv := ctlAdvance (getCtl s p.1).cfg.delay.toNat s.whl.freq })
      else p) }

/-- The turn that begins joins the resampler's schedule; accumulation takes it up when METERING runs unfrozen (R122,
R153, R413). -/
def beginTurn (s : State) : State :=
  let live := metering s && !s.pnt.frozen
  let t : RsTurn := ⟨turnOf s.whl.pos, s.whl.u, s.whl.delta, s.whl.hold || s.whl.nolock, live⟩
  let s1 := { s with
    pnt := { s.pnt with run := live, rs := if s.dec.run then s.pnt.rs ++ [t] else s.pnt.rs }
    boot.tmeter := if live && s.boot.tmeter == 0 then sincePower s else s.boot.tmeter }
  match s.pnt.rotNext with
  | some r => { s1 with pnt := { s1.pnt with rot := r, rotNext := none } }
  | none => s1

/-- What a turn boundary brings to the other blocks while metrology runs. -/
def boundaryWork (s : State) : State :=
  if failed s then s else freezeBoundary (stuckTurn (dwellTurn (evoutTurn s)))

/-- WHEEL_TURN_BOUNDARY (R122): `est` is the estimate of R38. -/
def execWheelTurnBoundary (est : W32) (s : State) : Out :=
  .next (if !s.whl.run then s
    else
      let s1 := rereadAdvance (noteQual s (wheelAngle0 est (toBoundary s)))
      let s2 := syncMissed { s1 with whl := whlRegsTurn s1.whl }
      coilTurn (boundaryWork (beginTurn s2)))

/-! ### Angle actions (R46, R47) -/

/-- A ONCE entry clears its ENABLE once it has fired. -/
def angFired (n : Nat) (e : AngEnt) (s : State) : State :=
  if e.every then s else { s with whl.ang := tput s.whl.ang n { e with en := false } }

/-- An entry of WHL_ADATA as BAR0 shows it; entry 63 is the beacon's (R46, R51). -/
def angShown (s : State) (n : Nat) : AngEnt :=
  if n = 63 then
    (if isManager s then ⟨0, BitVec.ofNat 16 (fld s.whl.regs.bcfg 15 0), true, true, false, 4, 0, 0⟩ else Init.angEnt)
  else tgetD s.whl.ang n Init.angEnt

/-- ANGLE_ACTION_FIRE (R46, R47, R51): entry 63 is a manager's beacon; the others act by their kind. -/
def execAngleActionFire (n : Nat) (s : State) : Out :=
  .next (if n = 63 then (if isManager s && s.whl.run && fireDue (angShown s 63) s then emitBeacon s else s)
    else match tget s.whl.ang n with
      | none => s
      | some e =>
        if !e.en || !s.whl.run || !fireDue e s then s
        else match e.kind.toNat with
          | 1 => angFired n e (ctlFire n s)
          | 2 => noteCond 1 s.slot (firePos e) (angFired n e s)
          | 3 => if metering s then driveBall e.target.toNat true (angFired n e s) else s
          | _ => s)

/-! ### RTC actions (R49, R50) -/

/-- RTC_ACTION_FIRE (R49): at the first tick at or after the instant. The boundaries that an entry announces are processed
at the accounting of turns (R227). -/
def execRtcActionFire (n : Nat) (s : State) : Out :=
  .next (match tget s.whl.rtcAct n with
    | none => s
    | some e =>
      if !e.armed || (2 * rtcTicks s.rtc : Nat) < rtcInstant s.rtc.s e then s
      else
        let e1 := if e.periodic then { e with k := e.k + 1, clockSet := false } else { e with en := false, clockSet := false }
        { s with whl.rtcAct := tput s.whl.rtcAct n e1 })

/-- The first k whose instant lies after `t`, for a PERIOD entry whose START is at `first`. -/
def nextK (first t : Int) (period : Nat) : Nat := if first > t then 0 else ((t - first) / (period * 65536) + 1).toNat

/-- RTC actions when a commit moves the clock from `c` to `n`, both in 2^-16 s (R50). -/
def commitActions (c n : Int) (s : State) : State :=
  let act (e : RtcEnt) : RtcEnt :=
    if !e.armed then e
    else
      let sec := (c / 65536).toNat
      let i := rtcInstant sec e
      let passed := n > c && c < i && i ≤ n
      let first := rtcInstant sec { e with k := 0 }
      if e.periodic then { e with k := nextK first n e.period.toNat, clockSet := passed || e.clockSet }
      else if passed then { e with en := false, clockSet := true }
      else e
  { s with whl.rtcAct := s.whl.rtcAct.map (fun (p : Nat × RtcEnt) => (p.1, act p.2)) }

/-! ### RTC commits (R322, R323, R319) -/

/-- In METERING a commit acts on every block (R323): the boundaries up to the old time, the close of the open second and of
the open power-quality intervals, then R245 and the control calendar at the new time; `kind` and `flags` as R324. -/
def commitAll (kind flags : Nat) (c : Nat) (cFrac : W16) (n : Nat) (step : Int) (set : State → State) (s : State) : State :=
  let s1 := if s.trf.doneTo + 1 < c then boundariesTo (c - 1) s else s
  let st := s1.pnt.secEnd.getD (nowStamp s1)
  let s2 := if s1.pnt.second.isSome then secondCred (closeSecond st 256 s1) else s1
  let s3 := set (pqCommit s2)
  let s4 := rtcRecord kind flags c cFrac n step s3
  evalControl n (trfCommit c n s4)

/-- The legal image runs and forms records. -/
def legalRuns (s : State) : Bool := metering s && s.nvs.lg.isNone && !s.nvs.lgDone

/-- The clock takes a committed time; an absolute commit clears RTC_INVALID, RTC_WRAP and BADDATE (R322). -/
def setClock (abs : Bool) (t : Nat) (s : State) : State :=
  { s with rtc := { countEdge ((t : Int) - (rtcTicks s.rtc + 1)) s.rtc with
      s := t / 32768, pre := BitVec.ofNat 15 t, sub := 0, held := false, staged := none
      invalid := s.rtc.invalid && !abs, wrap := s.rtc.wrap && !abs, badDate := s.rtc.badDate && !abs } }

/-- The end of the request that staged a commit. -/
def stagedDone (g : Staged) (st : W16) (s : State) : State :=
  match g.w with
  | some w => complete w st 0 [] s
  | none => s

/-- RTC_COMMIT_TICK (R322): the staged commit takes effect at its tick, which a stopped oscillator does not give. The old time is the one this tick would have
brought. A date or a result out of range leaves the time unchanged. -/
def execRtcCommitTick (s : State) : Out :=
  .next (noteQual s <| match s.rtc.staged with
    | none => s
    | some g =>
      if !g.go || s.rtc.inReset || !s.rtc.oscRun then s
      else match commitTicks s.rtc g.abs with
        | none => stagedDone g statusBadDate { s with rtc := { s.rtc with staged := none, badDate := true } }
        | some t =>
          let old := rtcTicks s.rtc + tickCounts s.rtc
          let c := old / 32768
          let cf : W16 := BitVec.ofNat 16 (2 * (old % 32768))
          let step : Int := 2 * ((t : Int) - old)
          let flags := rtcFlags s.rtc.invalid s.rtc.wrap (s.rtc.invalid && !g.abs) (s.rtc.wrap && !g.abs)
          let moved (u : State) : State := sqwCommit (commitActions (2 * old) (2 * t) u)
          if legalRuns s then
            stagedDone g statusOk (commitAll (if g.abs then 1 else 2) flags c cf (t / 32768) step (fun u => moved (setClock g.abs t u)) s)
          else
            let s1 := setClock g.abs t s
            let s2 := { s1 with rtc := { s1.rtc with
              setPend := true, kept := some ⟨g.abs, c, cf, t / 32768, step, BitVec.ofNat 8 flags⟩ } }
            stagedDone g statusOk (if running s then moved s2 else s2))

/-- RTC_WRAP (R319): the tick after 2399-12-31 23:59:59. In METERING it is a commit from the end of the range back to 0. -/
def execRtcWrap (s : State) : Out :=
  let set (u : State) : State := { u with rtc := { u.rtc with s := 0, pre := 0, wrap := true } }
  .next (noteQual s <| if s.rtc.s + 1 != rtcRange || s.rtc.pre != 0x7FFF || !s.rtc.oscRun || s.rtc.inReset then s
    else
      let flags := rtcFlags s.rtc.invalid s.rtc.wrap s.rtc.invalid true
      let moved (u : State) : State := sqwCommit (commitActions (rtcRange * 65536 : Nat) 0 u)
      if legalRuns s then commitAll 3 flags rtcRange 0 0 (-(rtcRange * 65536 : Nat)) (fun u => moved (set u)) s
      else
        let s1 := set s
        let s2 := { s1 with rtc.wrapPend := true }
        if running s then moved s2 else s2)

end Sys2Proof.Machine
end

