-- ==== Sys2Proof/Machine/RegMap.lean ====
section
/-!
DEFINITION. BAR0 as it reads (R519, chapter "Register summary"): one table of offsets and values per block, and what a
read does beside returning the value (R8, R59, R278, R320, R481).
-/
namespace Sys2Proof.Machine

def w32 (n : Nat) : W32 := BitVec.ofNat 32 n
/-- Bits 31 to 0 and 63 to 32 of a 64-bit value. -/
def lo32 (w : W64) : W32 := w32 w.toNat
def hi32 (w : W64) : W32 := w32 (w.toNat / 2 ^ 32)

/-! ### GLB, AFE -/

/-- MISMATCH of GLB_ROLE: the effective or the locked role is not the strapped one. -/
def roleMismatch (s : State) : Bool :=
  roleShown s != s.boot.strap.toNat || (gLocked s.sgr.guard_ && gLockRole s.sgr.guard_ != s.boot.strap.toNat)

def glbRole (s : State) : W32 :=
  let loaded := s.boot.st != .por && s.boot.st != .off && s.boot.st != .backup
  if loaded then
    w32 (bitAt (roleMismatch s) 16 + gLockRole s.sgr.guard_ * 2 ^ 12 + bitAt (gLocked s.sgr.guard_) 8 + roleShown s * 16
      + s.boot.strap.toNat)
  else 0

def cpxStat (s : State) : W32 :=
  w32 (s.cpx.fwRefused.toNat * 2 ^ 16 + s.boot.img.state.toNat * 2 ^ 8 + s.cpx.restarts.toNat * 16 + bitAt s.cpx.acp1 2
    + bitAt s.cpx.acp0 1 + bitAt s.cpx.lcp 0)

def glbRegs (s : State) : Tab W32 :=
  [(0x0000, w32 (0x60480001 + s.fuses.variant.toNat * 2 ^ 8)), (0x0004, glbRole s), (0x0008, cpxStat s)]

/-- Comparator that AFE_TRIPIDX shows; 48 to 63 show zeros. -/
def tripShown (s : State) (f : Nat → W32) : W32 := if s.afe.tripidx.toNat < 48 then f s.afe.tripidx.toNat else 0

def afeRegs (s : State) : Tab W32 :=
  let a := s.afe
  [(0x0400, a.chan.vcfg), (0x0404, nth a.chan.icfg 0 0), (0x0408, nth a.chan.icfg 1 0), (0x040C, nth a.chan.icfg 2 0),
   (0x0410, nth a.chan.icfg 3 0), (0x0414, nth a.chan.icfg 4 0), (0x0418, nth a.chan.icfg 5 0),
   (0x0420, nth a.chan.sens 0 0), (0x0424, nth a.chan.sens 1 0), (0x0428, nth a.chan.sens 2 0),
   (0x0430, a.axcfg), (0x0434, a.axscan0), (0x0438, a.axscan1),
   (0x043C, axstatImage s), (0x0440, clkstatImage s), (0x0444, w32 a.iso.toNat),
   (0x0448, modMaskImage a.ovr 0), (0x044C, modMaskImage a.ovr 1), (0x0450, modMaskImage a.ovr 2),
   (0x0454, a.shcfg), (0x0458, shstatImage (getShadow s 0)), (0x045C, shstatImage (getShadow s 1)),
   (0x0460, shstatImage (getShadow s 2)),
   (0x0464, modMaskImage a.stuck 0), (0x0468, modMaskImage a.stuck 1), (0x046C, modMaskImage a.stuck 2),
   (0x0470, w32 a.tripidx.toNat), (0x0474, tripShown s (tripCfgOf a.trip)),
   (0x0478, tripShown s (fun k => w32 (tgetD a.trip.map k 0).toNat)),
   (0x0480, w32 a.trip.latch.toNat), (0x0484, w32 (a.level.toNat * 2 ^ 16 + a.latched.toNat)),
   (0x0488, w32 a.src.toNat), (0x048C, w32 (a.src.toNat / 2 ^ 32))]

/-! ### DEC, WHL -/

def decRegs (s : State) : Tab W32 :=
  let d := s.dec
  [(0x0800, d.crmscfg), (0x0804, nth d.tapsel 0 0), (0x0808, nth d.tapsel 1 0), (0x080C, nth d.tapsel 2 0),
   (0x0810, w32 (bitAt d.gridSync 1 + bitAt d.run 0)), (0x0814, syncStatImage s), (0x0818, coefStatImage s),
   (0x081C, setImage s false), (0x0820, setImage s true), (0x0824, w32 (d.replaced.toNat * 2 ^ 16 + d.fades.toNat)),
   (0x0828, w32 d.pfidx.toNat), (0x082C, pfStatImage s), (0x0830, w32 d.crmsidx.toNat),
   (0x0834, if d.crmsidx.toNat ≤ 64 then (getStrm s d.crmsidx.toNat).rms else 0)]

/-- WHL_ADATA1. -/
def adata1 (e : AngEnt) : W32 :=
  w32 (bitAt e.value 26 + bitAt e.every 25 + bitAt e.en 24 + e.angle.toNat * 2 ^ 8 + e.turn.toNat / 2 ^ 32)

def whlRegs (s : State) : Tab W32 :=
  let w := s.whl
  let e := angShown s w.aidx.toNat
  let r := tgetD w.rtcAct w.ridx.toNat Init.rtcEnt
  [(0x0C00, w.regs.cfg), (0x0C04, w.regs.reflist), (0x0C08, w.regs.ofs01), (0x0C0C, w.regs.ofs23), (0x0C10, w.regs.vnom),
   (0x0C14, whlStatImage s), (0x0C18, w.freq), (0x0C1C, w.pherr), (0x0C20, lo32 (nowStamp s).wheel), (0x0C24, w.lposHi),
   (0x0C28, w.lsec), (0x0C2C, w32 w.lfrac.toNat), (0x0C30, w.regs.synccfg),
   (0x0C34, w32 (bitAt w.sync.isSome 24 + w.merged.toNat * 2 ^ 16 + w.syncCount.toNat)), (0x0C38, w.regs.bcfg),
   (0x0C40, w32 w.aidx.toNat), (0x0C44, w32 e.turn.toNat), (0x0C48, adata1 e),
   (0x0C4C, w32 (e.kind.toNat * 32 + e.target.toNat)), (0x0C50, lo32 w.amiss), (0x0C54, hi32 w.amiss),
   (0x0C60, w32 w.ridx.toNat), (0x0C64, r.sec), (0x0C68, w32 (bitAt r.clockSet 18 + bitAt r.periodic 17 + bitAt r.armed 16 + r.frac.toNat)),
   (0x0C6C, r.period), (0x0C70, w.rmiss)]

/-! ### PNT, PQ -/

/-- The channel whose calibration a stream takes: its own, or the one a shadow mirrors or serves (R116, R120). -/
def alChan (s : State) (m : Nat) : Nat :=
  if m < 60 then m
  else
    let sh := getShadow s (m - 60)
    12 + 16 * (m - 60) + (if sh.st == .substituted then sh.subst.toNat else sh.mirror.toNat)

/-- PNT_ALADJ. -/
def alAdj (s : State) : W32 :=
  let m := s.pnt.alidx.toNat
  if m < 63 then w32 (BitVec.ofInt 13 (getChan s (alChan s m)).adj).toNat else 0

/-- PNT_ALDLY. -/
def alDly (s : State) : W32 :=
  let m := s.pnt.alidx.toNat
  let p := getPair s (phasePair m)
  if m < 63 then w32 (if p.active then p.dlyB else p.dlyA).toNat else 0

def pntRegs (s : State) : Tab W32 :=
  let p := s.pnt
  let x := getPt s p.pidx.toNat
  let c := getChan s p.chidx.toNat
  let f := getCf s p.cfidx.toNat
  [(0x1000, pntStatImage s), (0x1004, p.rot), (0x1008, w32 p.pidx.toNat), (0x100C, pdefImage x), (0x1010, plegImage x 0),
   (0x1014, plegImage x 1), (0x1018, plegImage x 2), (0x101C, pstatImage s x), (0x1020, w32 p.chidx.toNat),
   (0x1024, if p.chidx.toNat < 60 then c.fs else 0), (0x1028, if p.chidx.toNat < 60 then c.gcal else 0),
   (0x1030, w32 p.cfidx.toNat), (0x1034, f.cfg), (0x1038, f.const), (0x103C, cfStatImage s p.cfidx.toNat),
   (0x1040, w32 (bitAt p.cmpOk 16 + p.cmpCount.toNat)), (0x1050, w32 p.axidx.toNat),
   (0x1054, axvalImage s p.axidx.toNat), (0x1200, w32 p.alidx.toNat), (0x1204, alAdj s), (0x1208, alDly s),
   (0x120C, s.whl.delta), (0x1210, w32 (p.lastTurn.toNat % 2 ^ 24 * 2 ^ 8 + p.lastK.toNat))]

def pqRegs (s : State) : Tab W32 :=
  let p := s.pq
  let e := tgetD p.subs p.subIdx.toNat Init.subEnt
  let q := tgetD p.reqs p.capIdx.toNat Init.capReq
  let rate (k : Nat) : W32 := if isManager s then w32 (tgetD p.ringRate k 0) else 0
  [(0x1400, p.cfg), (0x1404, nth p.udin 0 0), (0x1408, nth p.udin 1 0), (0x140C, nth p.udin 2 0), (0x1410, nth p.udin 3 0),
   (0x1414, p.thr0), (0x1418, p.thr1), (0x141C, pqStatImage s), (0x1420, p.winCount), (0x1430, w32 p.subIdx.toNat),
   (0x1434, subCfgImage e), (0x1438, w32 (subRate e)), (0x1440, rate 0), (0x1444, rate 1), (0x1448, rate 2),
   (0x144C, rate 3), (0x1450, capStatImage s), (0x1454, w32 p.capIdx.toNat), (0x1458, capCfgImage q),
   (0x145C, lo32 q.cmask), (0x1460, hi32 q.cmask), (0x1464, q.pre), (0x1468, q.post), (0x146C, w32 q.angle.toNat),
   (0x1470, w32 (p.dropAgg.toNat * 2 ^ 16 + p.dropShort.toNat)), (0x1478, w32 p.hcIdx.toNat),
   (0x147C, if p.hcIdx.toNat < 12 then tgetD p.hc p.hcIdx.toNat 0 else 0)]

/-! ### CAL, TRF, CRD -/

def calRegs (s : State) : Tab W32 :=
  let c := s.cal
  let m := c.midx.toNat
  [(0x1800, calStatImage s), (0x1804, c.count), (0x1808, c.sec), (0x180C, w32 c.frac.toNat), (0x1810, 0x051F0148),
   (0x1814, 0x01000C4A), (0x1818, w32 (c.used.toNat * 2 ^ 16 + c.meas.toNat)), (0x1820, modMaskImage c.rej 0),
   (0x1824, modMaskImage c.rej 1), (0x1828, modMaskImage c.rej 2), (0x1830, w32 m), (0x1834, calTrimImage s m),
   (0x1838, calDeltaImage s m), (0x183C, calMofsImage s m), (0x1840, calMgainImage s m), (0x1844, calMnoiseImage s m)]

def optNum : OptSt → Nat
  | .idle => 0
  | .ident => 1
  | .option => 2
  | .readout => 3

def trfRegs (s : State) : Tab W32 :=
  let t := s.trf
  [(0x1C00, trfStatImage s), (0x1C04, w32 (imgId s t.active)), (0x1C08, w32 (imgCrc s t.active)), (0x1C0C, t.armed.getD 0),
   (0x1C10, trfLocalImage s), (0x1C14, trfBillImage s), (0x1C18, trfDemImage s), (0x1C1C, w32 t.calIdx.toNat),
   (0x1C20, trfCalImage s), (0x1C24, if metering s then w32 (nextBoundary s s.rtc.s) else 0), (0x1C28, if rd (entry s t.active 8192) 0 1 = 0x11 then w32 (rd (entry s t.active 8192) 4 4) else 0),
   (0x1C2C, w32 (bitAt t.optEn 31 + t.maxbaud.toNat)),
   (0x1C30, w32 (t.optSessions.toNat * 2 ^ 16 + t.optDrop.toNat * 2 ^ 8 + optNum t.opt.st))]

def crdRegs (s : State) : Tab W32 :=
  let p := s.crd.pidx.toNat
  let g := getPcfg s p
  let n := s.crd.ctlidx.toNat
  let x := (getCtl s n).cfg
  [(0x2000, crdStatImage s), (0x2004, w32 p), (0x2008, crdPcfgImage g), (0x200C, crdPstatImage s p),
   (0x2010, lo32 (BitVec.ofInt 64 (getCred s p).c)), (0x2014, s.crd.credHi), (0x2018, lo32 ((getCred s p).serial.getD 0)),
   (0x201C, s.crd.serHi), (0x2020, g.low), (0x2024, g.rc), (0x2028, g.ecAmt), (0x2040, w32 n),
   (0x2044, ctlCfgImage (getCtl s n)), (0x2048, w32 (x.angOn.toNat * 2 ^ 16 + x.angOff.toNat)), (0x204C, x.delay),
   (0x2050, x.period), (0x2054, w32 (x.minHold.toNat * 2 ^ 16 + x.defDuty.toNat)), (0x2058, ctlStatImage s n),
   (0x2060, pgMapImage s 0), (0x2064, pgMapImage s 1), (0x2068, pgMapImage s 2), (0x206C, pgMapImage s 3),
   (0x2070, w32 (s.crd.tokAcc.toNat * 2 ^ 16 + s.crd.tokRef.toNat))]

/-! ### NVS, RTC -/

/-- A group stands between step 1 and step 5 (R286): the front one, unless a page commit of higher priority comes before its
step 1 (R281). -/
def journalBusy (s : State) : Bool :=
  !s.nvs.groups.isEmpty && (s.nvs.gstep != 0
    || (s.nvs.lg.isNone && !s.nvs.inhibit && s.nvs.spreadDue.isEmpty && s.nvs.logQueue.isEmpty))

/-- NVS_STAT. No rule says when the scrubber reads within its 24 hours, so SCRUB is a free value (log entry 5). -/
def nvsStat (s : State) : W32 :=
  let n := s.nvs
  w32 (min n.groups.length 16 * 2 ^ 8 + bitAt (n.prot == 3) 6 + bitAt (Config.freeBit s.free) 5
    + bitAt (journalBusy s) 4 + bitAt n.lgDone 3 + bitAt n.lg.isSome 2 + bitAt n.warn 1 + bitAt n.ready 0)

def nvsRegs (s : State) : Tab W32 :=
  let n := s.nvs
  [(0x2400, w32 n.prot.toNat), (0x2404, nvsStat s), (0x2408, n.session),
   (0x240C, w32 (bitAt n.lgCurrent 31 + bitAt n.lgTorn 30 + bitAt n.lgAreaUsed 29 + bitAt n.lgBoundary 28
      + n.lgCause.toNat * 2 ^ 26 + n.lgElapsed.toNat)),
   (0x2410, w32 (n.corr.toNat * 2 ^ 16 + n.uncorr.toNat)), (0x2414, w32 (n.passes.toNat * 2 ^ 16 + n.scrubPage.toNat)),
   (0x2418, n.logHead), (0x241C, n.mirror), (0x2420, w32 (n.gap.toNat * 2 ^ 16 + n.logLost.toNat)),
   (0x2424, w32 (n.refused.toNat * 2 ^ 16 + n.nGroups.toNat)), (0x2428, w32 (bitAt n.replayed 16 + n.rebuilt.toNat))]

/-- The time registers as BAR0, requester 0, reads them (R320): RTC_SEC always captures afresh. -/
def rtcRegs (s : State) : Tab W32 :=
  let r := s.rtc
  let t := (readTime s 0).1
  [(0x2800, rtcSecImage r.s (rtcFrac s)), (0x2804, rtcMinImage t), (0x2808, rtcHourImage t), (0x280C, rtcDayImage t),
   (0x2810, rtcMonImage t), (0x2814, rtcEpochImage t), (0x2818, rtcYearImage t), (0x281C, rtcStatImage s),
   (0x2820, r.stage0), (0x2824, r.stage1), (0x2828, r.stage2), (0x282C, lo32 r.ofs), (0x2830, hi32 r.ofs),
   (0x2834, w32 (bitAt r.cmode 1)), (0x2838, w32 (r.comp.toNat * 2 ^ 16 + r.trim.toNat)), (0x283C, r.tcomp),
   (0x2840, r.sqw), (0x2844, r.evcfg), (0x2848, r.evdeb), (0x284C, rtcEvstatImage s)]

/-! ### HIF, COIL, SAG, TMP -/

/-- HIF_STAT; INTX reads 1 only with a link up, as its reset value 0 asks (DEDUCED, log entry 72). -/
def hifStat (s : State) : W32 :=
  let h := s.hif
  w32 (bitAt (!s.boot.fired) 5 + bitAt h.d3 4 + bitAt (h.linkUp && !h.msixEn) 3 + bitAt h.speed 1 + bitAt h.linkUp 0)

def rstat (n : Nat) (r : Ring) : W32 :=
  w32 (bitAt r.active 31 + bitAt r.dmaErr 30 + bitAt r.dbErr 29 + bitAt r.cfgErr 28 + min (outstanding n r) 32)

def hifRegs (s : State) : Tab W32 :=
  let n := s.hif.ridx.toNat
  let r := getRing s n
  [(0x2C00, hifStat s), (0x2C04, w32 n), (0x2C08, lo32 r.base), (0x2C0C, hi32 r.base), (0x2C10, lo32 r.cmp),
   (0x2C14, hi32 r.cmp), (0x2C18, lo32 r.shd), (0x2C1C, hi32 r.shd),
   (0x2C20, w32 (bitAt r.en 31 + r.coal.toNat * 2 ^ 16 + r.size.toNat)), (0x2C24, rstat n r), (0x2C28, r.head), (0x2C2C, r.tail),
   (0x2C30, w32 (min ((undelivered r).length + r.queue.length) 0xFFFF * 2 ^ 16 + maxRec n)), (0x2C34, r.drop),
   (0x2C40, s.hif.istat), (0x2C44, s.hif.imask), (0x2C48, w32 (s.hif.flr.toNat * 2 ^ 16 + s.hif.linkDown.toNat)),
   (0x2F00, s.hif.pba), (0x2F04, 0)]

/-- A word of the MSI-X table; a vector is masked at reset, as the PCIe layout gives it (log entry 4). -/
def msixEnt (s : State) (v : Nat) : MsixEnt := tgetD s.hif.msix v ⟨0, 0, 0, 1⟩
def msixWord (s : State) (off : Nat) : W32 :=
  let e := msixEnt s ((off - 0x2D00) / 16)
  match (off - 0x2D00) % 16 / 4 with
  | 0 => e.lo
  | 1 => e.hi
  | 2 => e.data
  | _ => e.ctl

/-- COIL_WIDLO and COIL_WIDHI; position 0 shows zeros. -/
def coilIdent (s : State) : W64 :=
  if isManager s && s.coil.widxPos != 0 then (getEnt s s.coil.widxRing.toNat s.coil.widxPos.toNat).ident else 0

def coilRegs (s : State) : Tab W32 :=
  let c := s.coil
  let mgr (x : W32) : W32 := if isManager s || s.boot.role == .noRole then x else 0
  let wk (x : W32) : W32 := if isWorker s then x else 0
  [(0x3000, coilStat s), (0x3004, mgr (getCRing s 0).cfg), (0x3008, mgr (getCRing s 1).cfg), (0x300C, mgr (getCRing s 2).cfg),
   (0x3010, mgr (getCRing s 3).cfg), (0x3014, mgr (coilRstat s 0)), (0x3018, mgr (coilRstat s 1)),
   (0x301C, mgr (coilRstat s 2)), (0x3020, mgr (coilRstat s 3)),
   (0x3030, coilPstat s 0), (0x3034, coilPstat s 1), (0x3038, coilPstat s 2), (0x303C, coilPstat s 3), (0x3040, coilPstat s 4),
   (0x3044, coilPstat s 5), (0x3048, coilPstat s 6), (0x304C, coilPstat s 7),
   (0x3050, coilLdly s 0), (0x3054, coilLdly s 1), (0x3058, coilLdly s 2), (0x305C, coilLdly s 3), (0x3060, coilLdly s 4),
   (0x3064, coilLdly s 5), (0x3068, coilLdly s 6), (0x306C, coilLdly s 7),
   (0x3070, wk (w32 (c.w.ring.toNat * 2 ^ 16 + c.w.pos.toNat * 2 ^ 8))), (0x3074, wk c.w.d), (0x3078, coilRtcofs s),
   (0x3080, w32 (c.widxRing.toNat * 2 ^ 8 + c.widxPos.toNat)), (0x3084, coilWinfo s), (0x3088, lo32 (coilIdent s)),
   (0x308C, hi32 (coilIdent s)), (0x3090, w32 (c.replay.toNat * 2 ^ 16 + c.tagFail.toNat)), (0x3094, w32 c.crc.toNat)]

/-- SAG_STAT. A wedge pass is one step of the model, so WEDGE reads 0 between steps. -/
def sagStat (s : State) : W32 :=
  let g := s.sgr
  let busy := g.change.isSome || g.ops.any (fun o => match o with
    | .change _ => true
    | _ => false)
  w32 (bitAt busy 5 + bitAt g.trngOk 3 + bitAt (gClaimed g.guard_) 2 + bitAt g.keyed 1 + bitAt g.ident 0)

def sagRegs (s : State) : Tab W32 :=
  let g := s.sgr
  let k := getSlot s g.sidx.toNat
  [(0x3400, sagStat s), (0x3404, lo32 (identNum s)), (0x3408, hi32 (identNum s)), (0x340C, w32 (gCounter g.guard_)),
   (0x3410, w32 g.sidx.toNat), (0x3414, w32 (policyOf s g.sidx.toNat)), (0x3418, w32 (k.gen.toNat % 2 ^ 16 * 2 ^ 16 + k.st.toNat)),
   (0x341C, w32 (g.passes.toNat * 2 ^ 16 + g.maxWait.toNat)), (0x3420, w32 (g.refAuth.toNat * 2 ^ 16 + g.refStale.toNat))]

def tmpRegs (s : State) : Tab W32 :=
  [(0x3800, tmpStatImage s), (0x3804, w32 s.tmp.sidx.toNat), (0x3808, tmpScfgImage s), (0x380C, tmpScntImage s),
   (0x3810, tmpGlazeImage s), (0x3814, tmpBistImage s), (0x3818, tmpBklogImage s)]

/-! ### FLT, PIN, BOOT -/

/-- FLT_STAT: the fail-stop shows from step 5 of R475 on; else STATE is 1 while a grace timer runs. -/
def fltStat (s : State) : W32 :=
  let runs := (List.range 18).foldl (fun a i => a + bitAt (getBlk s (i + 1)).run.isSome i) 0
  let st := if s.flt.phase == .safe then (if s.flt.kind == .grave then 3 else 2) else if runs != 0 then 1 else 0
  w32 (st * 2 ^ 30 + bitAt s.flt.wroteLg 29 + runs)

/-- A register of the selected block; the blocks 0 and 19 to 31 show zeros. -/
def blkShown (s : State) (f : BlkFlt → W32) : W32 :=
  match fltSel s with
  | some b => f (getBlk s b)
  | none => 0

def srcShown (s : State) (f : SrcSt → W32) : W32 := blkShown s (fun k => f (tgetD k.srcs s.flt.sidx.toNat Init.srcSt))

/-- FLT_GSTAT. -/
def gstat (s : State) : W32 :=
  blkShown s (fun k => match k.run with
    | some g => w32 (2 ^ 31 + putAt g.src 5 16 + putAt (graceLeft s s.flt.bidx.toNat) 16 0)
    | none => 0)

/-- The tick of t_f; 0 when no fail-stop. -/
def fsTickShown (s : State) : W64 := if failed s then s.flt.fsTick else 0

def fltRegs (s : State) : Tab W32 :=
  let f := s.flt
  [(0x3C00, fltStat s), (0x3C04, f.reason), (0x3C08, f.prev), (0x3C0C, lo32 (faultTick s)), (0x3C10, f.tickHi),
   (0x3C14, lo32 (fsTickShown s)), (0x3C18, f.fsTickHi), (0x3C20, w32 f.bidx.toNat), (0x3C24, blkShown s (·.fstat)),
   (0x3C28, blkShown s (·.flive)), (0x3C2C, blkShown s (·.fmask)), (0x3C30, blkShown s (fun k => w32 k.esc.toNat)),
   (0x3C34, blkShown s (fun k => w32 k.grace.toNat)), (0x3C38, gstat s), (0x3C40, w32 f.sidx.toNat),
   (0x3C44, srcShown s (fun x => w32 (x.raises.toNat * 2 ^ 16 + x.count.toNat * 2 ^ 8 + bitAt x.esc 1))),
   (0x3C48, srcShown s (fun x => lo32 x.first)), (0x3C4C, f.firstHi), (0x3C50, srcShown s (fun x => lo32 x.last)),
   (0x3C54, f.lastHi)]

def pinRegs (s : State) : Tab W32 :=
  let p := s.pin
  [(0x3D00, w32 p.fbidx.toNat), (0x3D04, fbcfgImage s p.fbidx.toNat), (0x3D08, p.tripSlew), (0x3D10, gpioEn s),
   (0x3D14, p.gpioDir), (0x3D18, p.gpioOut),
   (0x3D1C, (List.range 32).foldl (fun (w : W32) n => setBit w n (ballLevel s n)) 0), (0x3D20, p.refused), (0x3D24, p.mism0),
   (0x3D28, p.mism1), (0x3D40, nth p.evout 0 0), (0x3D44, nth p.evout 1 0), (0x3D48, nth p.evout 2 0),
   (0x3D4C, nth p.evout 3 0)]

/-- BOOT_STAT.WAIT: the ring (a worker in FUSE), the image, or the end of CAL. -/
def bootWait (s : State) : Nat :=
  match s.boot.st with
  | .fuse => if isWorker s then 1 else 0
  | .greenware => 2
  | .cal => if s.boot.img.endAcc then 3 else 0
  | _ => 0

def bootRegs (s : State) : Tab W32 :=
  let b := s.boot
  [(0x3E00, w32 (b.holdCause.toNat * 2 ^ 12 + bootWait s * 2 ^ 8 + bitAt (imageComplete s) 4 + bootNum b.st)),
   (0x3E04, w32 b.cause.toNat), (0x3E08, w32 (if b.fired then 0 else b.img.total.getD 0)), (0x3E0C, w32 (16 * b.img.units.length)), (0x3E10, b.id),
   (0x3E14, b.lrel), (0x3E18, b.arel), (0x3E1C, w32 (b.match_.toNat * 2 ^ 8 + s.sgr.appr.toNat)),
   (0x3E20, w32 (b.refusals.toNat * 2 ^ 16 + b.result.toNat)), (0x3E24, b.tfired), (0x3E28, b.tmeter)]

/-! ### The whole of BAR0 -/

/-- The registers of the 1 KiB window that holds an offset (R519). -/
def windowRegs (s : State) (off : Nat) : Tab W32 :=
  match off / 0x400 with
  | 0 => glbRegs s
  | 1 => afeRegs s
  | 2 => decRegs s
  | 3 => whlRegs s
  | 4 => pntRegs s
  | 5 => pqRegs s
  | 6 => calRegs s
  | 7 => trfRegs s
  | 8 => crdRegs s
  | 9 => nvsRegs s
  | 10 => rtcRegs s
  | 11 => hifRegs s
  | 12 => coilRegs s
  | 13 => sagRegs s
  | 14 => tmpRegs s
  | 15 => if off < 0x3D00 then fltRegs s else if off < 0x3E00 then pinRegs s else bootRegs s
  | _ => []

/-- The registers that BAR0 exposes (R401, R521): all from FIRED on; before it GLB, HIF and BOOT. -/
def exposed (s : State) (off : Nat) : Bool :=
  s.boot.fired || off < 0x400 || (0x2C00 ≤ off && off < 0x3000) || (0x3E00 ≤ off && off < 0x3E30)

/-- What BAR0 shows at an offset; an offset that no table lists reads 0 (R519). -/
def regImage (s : State) (off : Nat) : W32 :=
  if !exposed s off then 0
  else if 0x2D00 ≤ off && off < 0x2F00 then (if off % 4 = 0 then msixWord s off else 0)
  else tgetD (windowRegs s off) off 0

/-! ### What a read does -/

/-- The fields of access RC (R8): a read clears them. -/
def clearRc (off : Nat) (s : State) : State :=
  if 0x3030 ≤ off && off ≤ 0x304C && off % 4 = 0 then
    let p := (off - 0x3030) / 4
    setPort p { getPort s p with errors := 0 } s
  else match off with
    | 0x0008 => { s with cpx.fwRefused := 0 }
    | 0x1470 => { s with pq.dropAgg := 0, pq.dropShort := 0 }
    | 0x2070 => { s with crd.tokRef := 0 }
    | 0x2410 => { s with nvs.corr := 0 }
    | 0x2420 => { s with nvs.gap := 0 }
    | 0x2424 => { s with nvs.refused := 0 }
    | 0x2C34 => modRing s.hif.ridx.toNat (fun r => { r with drop := 0 }) s
    | 0x3090 => { s with coil.replay := 0, coil.tagFail := 0 }
    | 0x3094 => { s with coil.crc := 0 }
    | 0x3420 => { s with sgr.refAuth := 0, sgr.refStale := 0 }
    | _ => s

/-- A LO register latches its HI register (R59, R278, R481). -/
def latchHi (off : Nat) (s : State) : State :=
  match off with
  | 0x0C20 => latchPos s
  | 0x2010 => { s with crd.credHi := hi32 (BitVec.ofInt 64 (getCred s s.crd.pidx.toNat).c) }
  | 0x2018 => { s with crd.serHi := hi32 ((getCred s s.crd.pidx.toNat).serial.getD 0) }
  | 0x3C0C => { s with flt.tickHi := hi32 (faultTick s) }
  | 0x3C14 => { s with flt.fsTickHi := hi32 (fsTickShown s) }
  | 0x3C48 => { s with flt.firstHi := srcShown s (fun x => hi32 x.first) }
  | 0x3C50 => { s with flt.lastHi := srcShown s (fun x => hi32 x.last) }
  | _ => s

/-- RTC_SEC captures the shadows of BAR0, RTC_YEAR ends their freeze (R320). -/
def timeRead (off : Nat) (s : State) : State :=
  match off with
  | 0x2800 => captureTime 0 s
  | 0x2818 => { s with rtc.shadows := tdel s.rtc.shadows 0 }
  | _ => s

/-- Every effect of a read of BAR0. -/
def readSide (off : Nat) (s : State) : State := if exposed s off then timeRead off (latchHi off (clearRc off s)) else s

/-- A read of BAR0: its value, and the state after it. -/
def readReg (off : Nat) (s : State) : W32 × State := (regImage s off, readSide off s)

end Sys2Proof.Machine
end

