-- ==== Sys2Proof/Machine/RegAcc.lean ====
section
/-!
DEFINITION. Accesses to BAR0: reads by the host, writes under the access codes (R8, R478, R481, R496), REG_READ (R355),
and the COMMAND frame by which a worker runs the manager's requests (R387).
-/
namespace Sys2Proof.Machine

/-! ### Who reaches BAR0 -/

/-- A host reaches BAR0: not a worker's, which has none (R24), nor without main power. -/
def hostOn (s : State) : Bool := !isWorker s && mainPower s

/-- The index registers, which select what others show (R478). -/
def indexRegs : List Nat :=
  [0x0470, 0x0828, 0x0830, 0x0C40, 0x0C60, 0x1008, 0x1020, 0x1030, 0x1050, 0x1200, 0x1430, 0x1454, 0x1478, 0x1830, 0x1C1C,
   0x2004, 0x2040, 0x2C04, 0x3080, 0x3410, 0x3804, 0x3C20, 0x3C40, 0x3D00]

/-- Writes that a fail-stop still takes from its step 5 on (R478). -/
def failstopWrites (off : Nat) : Bool :=
  (0x2C00 ≤ off && off < 0x3000) || off == 0x3C24 || off == 0x3C2C || off == 0x3800 || indexRegs.contains off

/-- A write of BAR0 acts: a host's, on an exposed register, not ignored in a fail-stop. -/
def writable (s : State) (off : Nat) : Bool :=
  hostOn s && exposed s off && (s.flt.phase != .safe || failstopWrites off)

/-! ### Reads -/

/-- A read of BAR0 by the host: the value returned and the effects of the read. -/
def hostRead (off : Nat) (s : State) : State :=
  if hostOn s then
    let (v, s1) := readReg off s
    emit (.readVal off v) s1
  else s

/-- RC_READ (R8). -/
def execRcRead (off : Nat) (s : State) : Out := .next (hostRead off s)

/-- LATCHED_PAIR_READ (R278, R481). -/
def execLatchedPairRead (off : Nat) (s : State) : Out := .next (hostRead off s)

/-! ### W1C fields -/

/-- Bits of a modulator mask that a word in the layout of AFE_OVR0 to AFE_OVR2 names. -/
def ovrMask (i : Nat) (v : W32) : BitVec 65 :=
  BitVec.ofNat 65 (match i with
    | 0 => v.toNat * 2 ^ 12
    | 1 => fld v 15 0 * 2 ^ 44 + fld v 18 16 * 2 ^ 60 + fld v 20 19 * 2 ^ 63
    | _ => fld v 11 0)

/-- A write to a register with W1C fields clears the bits written as 1 (R8). -/
def clearW1c (off : Nat) (v : W32) (s : State) : State :=
  match off with
  | 0x0448 => { s with afe.ovr := s.afe.ovr &&& ~~~ ovrMask 0 v }
  | 0x044C => { s with afe.ovr := s.afe.ovr &&& ~~~ ovrMask 1 v }
  | 0x0450 => { s with afe.ovr := s.afe.ovr &&& ~~~ ovrMask 2 v }
  | 0x281C => { s with rtc.badDate := s.rtc.badDate && !bit v 2 }
  | 0x2C24 => modRing s.hif.ridx.toNat (fun r => { r with dbErr := r.dbErr && !bit v 29, cfgErr := r.cfgErr && !bit v 28 }) s
  | 0x2C40 => { s with hif.istat := s.hif.istat &&& ~~~ v }
  | 0x3800 => { s with tmp.alarmed := s.tmp.alarmed &&& ~~~ BitVec.ofNat 8 (fld v 15 8) }
  | 0x3C24 => fstatClear v s
  | 0x3D20 => { s with pin.refused := s.pin.refused &&& ~~~ v }
  | 0x3D24 => { s with pin.mism0 := s.pin.mism0 &&& ~~~ v }
  | 0x3D28 => { s with pin.mism1 := s.pin.mism1 &&& ~~~ v }
  | _ => s

/-- W1C_WRITE (R8). -/
def execW1cWrite (off : Nat) (v : W32) (s : State) : Out := .next (if writable s off then clearW1c off v s else s)

/-! ### RW fields -/

/-- A write of an index register. -/
def setIndex (off : Nat) (v : W32) (s : State) : State :=
  let n := v.toNat
  match off with
  | 0x0470 => { s with afe.tripidx := BitVec.ofNat 6 n }
  | 0x0828 => { s with dec.pfidx := BitVec.ofNat 6 n }
  | 0x0830 => { s with dec.crmsidx := BitVec.ofNat 7 n }
  | 0x0C40 => { s with whl.aidx := BitVec.ofNat 6 n }
  | 0x0C60 => { s with whl.ridx := BitVec.ofNat 5 n }
  | 0x1008 => { s with pnt.pidx := BitVec.ofNat 8 n }
  | 0x1020 => { s with pnt.chidx := BitVec.ofNat 6 n }
  | 0x1030 => { s with pnt.cfidx := BitVec.ofNat 3 n }
  | 0x1050 => { s with pnt.axidx := BitVec.ofNat 4 n }
  | 0x1200 => { s with pnt.alidx := BitVec.ofNat 6 n }
  | 0x1430 => { s with pq.subIdx := BitVec.ofNat 4 n }
  | 0x1454 => { s with pq.capIdx := BitVec.ofNat 3 n }
  | 0x1478 => { s with pq.hcIdx := BitVec.ofNat 4 n }
  | 0x1830 => { s with cal.midx := BitVec.ofNat 7 n }
  | 0x1C1C => { s with trf.calIdx := BitVec.ofNat 4 n }
  | 0x2004 => { s with crd.pidx := BitVec.ofNat 8 n }
  | 0x2040 => { s with crd.ctlidx := BitVec.ofNat 4 n }
  | 0x2C04 => { s with hif.ridx := BitVec.ofNat 4 n }
  | 0x3080 => { s with coil.widxRing := BitVec.ofNat 2 (fld v 9 8), coil.widxPos := BitVec.ofNat 7 (fld v 6 0) }
  | 0x3410 => { s with sgr.sidx := BitVec.ofNat 6 n }
  | 0x3804 => { s with tmp.sidx := BitVec.ofNat 3 n }
  | 0x3C20 => { s with flt.bidx := BitVec.ofNat 5 n }
  | 0x3C40 => { s with flt.sidx := BitVec.ofNat 5 n }
  | 0x3D00 => { s with pin.fbidx := BitVec.ofNat 5 n }
  | _ => s

/-- Half of a 64-bit address replaced; `hi` tells which. -/
def setHalf (w : W64) (hi : Bool) (v : W32) : W64 :=
  BitVec.ofNat 64 (if hi then v.toNat * 2 ^ 32 + w.toNat % 2 ^ 32 else w.toNat / 2 ^ 32 * 2 ^ 32 + v.toNat)

/-- A write of an address register of the selected ring: ignored while EN is 1; reserved low bits read 0 (R338). -/
def ringAddr (off : Nat) (v : W32) (r : Ring) : Ring :=
  if r.en then r
  else match off with
    | 0x2C08 => { r with base := setHalf r.base false (v &&& 0xFFFFFFC0) }
    | 0x2C0C => { r with base := setHalf r.base true v }
    | 0x2C10 => { r with cmp := setHalf r.cmp false (v &&& 0xFFFFFFC0) }
    | 0x2C14 => { r with cmp := setHalf r.cmp true v }
    | 0x2C18 => { r with shd := setHalf r.shd false (v &&& 0xFFFFFFF8) }
    | 0x2C1C => { r with shd := setHalf r.shd true v }
    | _ => r

/-- A write into the MSI-X table (R336, log entry 34); an entry unmasked sends its pending message. -/
def writeMsix (off : Nat) (v : W32) (s : State) : State :=
  let n := (off - 0x2D00) / 16
  let e := msixEnt s n
  let e1 : MsixEnt := match (off - 0x2D00) % 16 / 4 with
    | 0 => { e with lo := v &&& 0xFFFFFFFC }
    | 1 => { e with hi := v }
    | 2 => { e with data := v }
    | _ => { e with ctl := v &&& 1 }
  let s1 := { s with hif.msix := tput s.hif.msix n e1 }
  if s1.hif.d3 then s1 else sendPending s1

/-- HIF registers other than the index register. -/
def setHif (off : Nat) (v : W32) (s : State) : State :=
  if 0x2D00 ≤ off && off < 0x2F00 then (if off % 4 = 0 then writeMsix off v s else s)
  else match off with
    | 0x2C20 => rcfgWrite v s
    | 0x2C44 => { s with hif.imask := v }
    | _ => modRing s.hif.ridx.toNat (ringAddr off v) s

/-- A change of the selected block's fault settings; a mask that uncovers a set bit sends the vector (R470). -/
def setBlkReg (f : BlkFlt → BlkFlt) (s : State) : State :=
  match fltSel s with
  | none => s
  | some b =>
    let s1 := modBlk b f s
    if !pendSummary b (getBlk s b) && pendSummary b (getBlk s1 b) then sendVector (blkVector b) s1 else s1

/-- FLT_ESC: N is written; a W code that names no window is ignored (R481). -/
def escWrite (v : W32) (k : BlkFlt) : BlkFlt :=
  let w := if winBad (BitVec.ofNat 8 (fld v 15 8)) then fld k.esc 15 8 else fld v 15 8
  { k with esc := BitVec.ofNat 16 (w * 2 ^ 8 + fld v 7 0) }

/-- FLT_GRACE: a value outside 1 to 60,000 is ignored (R481). -/
def graceWrite (v : W32) (k : BlkFlt) : BlkFlt :=
  if 1 ≤ fld v 15 0 && fld v 15 0 ≤ 60000 then { k with grace := BitVec.ofNat 16 (fld v 15 0) } else k

/-- The registers a host sets outside HIF and the index registers (R459, R481, R492, R496). -/
def setOther (off : Nat) (v : W32) (s : State) : State :=
  match off with
  | 0x3814 => writeBist v s
  | 0x3C2C => setBlkReg (fun k => { k with fmask := v }) s
  | 0x3C30 => setBlkReg (escWrite v) s
  | 0x3C34 => setBlkReg (graceWrite v) s
  | 0x3D04 => modBall s.pin.fbidx.toNat (fun b => { b with slew := BitVec.ofNat 2 (fld v 1 0) }) s
  | 0x3D08 => { s with pin.tripSlew := v }
  | 0x3D10 => writeGpioEn v s
  | 0x3D14 => writeGpioDir v s
  | 0x3D18 => writeGpioOut v s
  | 0x3D40 => writeEvout 0 v s
  | 0x3D44 => writeEvout 1 v s
  | 0x3D48 => writeEvout 2 v s
  | 0x3D4C => writeEvout 3 v s
  | _ => s

/-- The RW and W1S fields of a register. -/
def setRw (off : Nat) (v : W32) (s : State) : State :=
  if indexRegs.contains off then setIndex off v s
  else if 0x2C00 ≤ off && off < 0x3000 then setHif off v s
  else setOther off v s

/-- REG_WRITE (R8): each field as its access code says; RO, RC and RG fields ignore the write. -/
def execRegWrite (off : Nat) (v : W32) (s : State) : Out :=
  .next (if writable s off then setRw off v (clearW1c off v s) else s)

/-! ### REG_READ (R355) -/

/-- `n` registers read in ascending order, with the effects of each read. -/
def readRegs : Nat → Nat → State → List W32 × State
  | 0, _, s => ([], s)
  | n + 1, off, s =>
    let (v, s1) := readReg off s
    let (l, s2) := readRegs n (off + 4) s1
    (v :: l, s2)

def execRegRead (r : Req) (s : State) : Out :=
  ring0 0x02 (· == 8) r s (fun w s =>
    let off := rd r.buf 0 2
    let n := rd r.buf 2 2
    if off % 4 != 0 || n = 0 || n > 64 || off + 4 * n > 0x4000 || !zerosAt r.buf 4 4 then .fail statusRange s
    else
      let st := nowStamp s
      let (l, s1) := readRegs n off s
      let q := s1.hif.ring1Seq
      let body := addrBytes s 0 ++ le 4 r.tag.toNat ++ le 2 off ++ le 2 n ++ zeros 4 ++ l.flatMap (fun v => le 4 v.toNat)
      let rec_ : Rec := ⟨0x00C1, q, st, body⟩
      .wait (pushResult 1 q rec_.bytes w ⟨statusOk, 0, q, []⟩ { s1 with hif.ring1Seq := q + 1 }))

/-! ### COMMAND (R387) -/

/-- The state that a meaning leads to. -/
def outState (o : Out) (s : State) : State :=
  match o with
  | .next t => t
  | _ => s

/-- The Ring 0 requests that a manager forwards. -/
def runRing0 (op : Nat) (r : Req) (s : State) : Option Out :=
  match op with
  | 0x01 => some (execConfigSet r s)
  | 0x02 => some (execRegRead r s)
  | 0x03 => some (execSync r s)
  | 0x04 => some (execTripClear r s)
  | 0x05 => some (execLogReplay r s)
  | 0x06 => some (execSnapReplay r s)
  | 0x10 => some (execChanCal r s)
  | 0x11 => some (execPointDef r s)
  | 0x12 => some (execF3Store r s)
  | 0x13 => some (execCfCfg r s)
  | 0x14 => some (execCoefSwap r s)
  | 0x18 => some (execCalBank r s)
  | 0x20 => some (execPqSubscribe r s)
  | 0x21 => some (execCapCfg r s)
  | 0x22 => some (execCapArm r s)
  | 0x23 => some (execCapTrigger r s)
  | 0x24 => some (execCapRelease r s)
  | 0x28 => some (execTrfLoad r s)
  | 0x29 => some (execTrfArm r s)
  | 0x2A => some (execTrfCtledit r s)
  | 0x2B => some (execTrfSnap r s)
  | 0x30 => some (execCreditCfg r s)
  | 0x31 => some (execCtlCfg r s)
  | 0x38 => some (execRtcSet r s)
  | _ => none

/-- The request of a COMMAND payload, run as this chip's own ring would run it; none for a ring and opcode without a
command. -/
def runCommand (ring op : Nat) (r : Req) (s : State) : Option Out :=
  match ring, op with
  | 0, _ => runRing0 op r s
  | 11, 0x60 => some (execCreditToken r s)
  | 11, 0x61 => some (execCreditEc r s)
  | 11, 0x62 => some (execCtlSwitch r s)
  | 13, 0x90 => some (execRingSet r s)
  | 13, 0x91 => some (execRingInfo r s)
  | 13, 0x92 => some (execEnumerate r s)
  | _, _ => none

/-- COMMAND (R387, R24): authenticated, the worker checks and runs the request and answers with REPLY. In a fail-stop no
image runs it (R475, R478). -/
def execCommandFrame (f : Frame) (s : State) : Out :=
  .next (workerAuth 1 0 f (fun s =>
    let b := f.payload
    let op := rd b 1 1
    let tag : W32 := BitVec.ofNat 32 (rd b 4 4)
    let r : Req := ⟨.coil, tag, tag, false, zeros 16, b.drop 8⟩
    if b.length < 8 || failed s then s
    else match runCommand (rd b 0 1) op r s with
      | some o => outState o s
      | none => complete (reqWaiter r (rd b 0 1 % 16) (BitVec.ofNat 8 op)) statusBadOpcode 0 [] s) s)

end Sys2Proof.Machine
end

