-- ==== Sys2Proof/Machine/Dispatch.lean ====
section
/-!
DEFINITION. What each command does: one arm per command of the table.
-/
namespace Sys2Proof.Machine

def exec (i : Instr) (s : State) : Host.Outcome State Fault Refusal :=
  match i with
  | .powerOn => Sys2Proof.Machine.execPowerOn s
  | .backupEnter => Sys2Proof.Machine.execBackupEnter s
  | .porEnd straps fuseParityOk => Sys2Proof.Machine.execPorEnd straps fuseParityOk s
  | .brownOut => Sys2Proof.Machine.execBrownOut s
  | .resetnAssert => Sys2Proof.Machine.execResetnAssert s
  | .mpllLock onRing => Sys2Proof.Machine.execMpllLock onRing s
  | .rclkLoss port => Sys2Proof.Machine.execRclkLoss port s
  | .rclkReturn port => Sys2Proof.Machine.execRclkReturn port s
  | .mpllUnlock => Sys2Proof.Machine.execMpllUnlock s
  | .mpllRelock => Sys2Proof.Machine.execMpllRelock s
  | .vrefFault => Sys2Proof.Machine.execVrefFault s
  | .vrefWaitTimeout => Sys2Proof.Machine.execVrefWaitTimeout s
  | .powerupCalAttemptEnd group => Sys2Proof.Machine.execPowerupCalAttemptEnd group s
  | .powerupCalWrite => Sys2Proof.Machine.execPowerupCalWrite s
  | .calRetryStart group => Sys2Proof.Machine.execCalRetryStart group s
  | .imageData r => Sys2Proof.Machine.execImageData r s
  | .imageEnd r => Sys2Proof.Machine.execImageEnd r s
  | .imageAbort r => Sys2Proof.Machine.execImageAbort r s
  | .imageInfo r => Sys2Proof.Machine.execImageInfo r s
  | .verifyDone => Sys2Proof.Machine.execVerifyDone s
  | .restoreDone => Sys2Proof.Machine.execRestoreDone s
  | .imageWait => Sys2Proof.Machine.execImageWait s
  | .acpFwWrite => Sys2Proof.Machine.execAcpFwWrite s
  | .lcpMismatch => Sys2Proof.Machine.execLcpMismatch s
  | .acpWdog core => Sys2Proof.Machine.execAcpWdog core s
  | .acpRestartDone => Sys2Proof.Machine.execAcpRestartDone s
  | .wheelTurnBoundary est => Sys2Proof.Machine.execWheelTurnBoundary est s
  | .refHalfCycle entry rising => Sys2Proof.Machine.execRefHalfCycle entry rising s
  | .refRevert => Sys2Proof.Machine.execRefRevert s
  | .refListApply => Sys2Proof.Machine.execRefListApply s
  | .wheelCoastEnd => Sys2Proof.Machine.execWheelCoastEnd s
  | .angleActionFire entry => Sys2Proof.Machine.execAngleActionFire entry s
  | .rtcActionFire entry => Sys2Proof.Machine.execRtcActionFire entry s
  | .beaconReceive b => Sys2Proof.Machine.execBeaconReceive b s
  | .beaconLost flagged => Sys2Proof.Machine.execBeaconLost flagged s
  | .syncinEdge falling => Sys2Proof.Machine.execSyncinEdge falling s
  | .syncExecute => Sys2Proof.Machine.execSyncExecute s
  | .syncoutPulseEnd => Sys2Proof.Machine.execSyncoutPulseEnd s
  | .whlPosloRead => Sys2Proof.Machine.execWhlPosloRead s
  | .integratorReset m => Sys2Proof.Machine.execIntegratorReset m s
  | .coarseSample m bits => Sys2Proof.Machine.execCoarseSample m bits s
  | .coarseRmsBlock m => Sys2Proof.Machine.execCoarseRmsBlock m s
  | .modulatorStuck m => Sys2Proof.Machine.execModulatorStuck m s
  | .shadowCompareTurn b => Sys2Proof.Machine.execShadowCompareTurn b s
  | .shadowDwellAdvance b => Sys2Proof.Machine.execShadowDwellAdvance b s
  | .shadowSelfcheckStep b => Sys2Proof.Machine.execShadowSelfcheckStep b s
  | .auxDwellEnd a => Sys2Proof.Machine.execAuxDwellEnd a s
  | .auxSettlingEnd a => Sys2Proof.Machine.execAuxSettlingEnd a s
  | .auxConfigApply => Sys2Proof.Machine.execAuxConfigApply s
  | .channelConfigApply => Sys2Proof.Machine.execChannelConfigApply s
  | .tripConfigApply => Sys2Proof.Machine.execTripConfigApply s
  | .tripComparatorAssert k samples => Sys2Proof.Machine.execTripComparatorAssert k samples s
  | .tripComparatorRelease k => Sys2Proof.Machine.execTripComparatorRelease k s
  | .tripStretchEnd n => Sys2Proof.Machine.execTripStretchEnd n s
  | .coefFadeStart pair => Sys2Proof.Machine.execCoefFadeStart pair s
  | .coefFadeEnd pair => Sys2Proof.Machine.execCoefFadeEnd pair s
  | .fadeDeferred pair => Sys2Proof.Machine.execFadeDeferred pair s
  | .tapConfigApply => Sys2Proof.Machine.execTapConfigApply s
  | .coefCrcCheck pair upset => Sys2Proof.Machine.execCoefCrcCheck pair upset s
  | .slotOverrun slot => Sys2Proof.Machine.execSlotOverrun slot s
  | .rsRomCrcCheck differs => Sys2Proof.Machine.execRsRomCrcCheck differs s
  | .alignedSampleWrite => Sys2Proof.Machine.execAlignedSampleWrite s
  | .wheelSampleWrite => Sys2Proof.Machine.execWheelSampleWrite s
  | .turnAccount => Sys2Proof.Machine.execTurnAccount s
  | .pointDefEffect p => Sys2Proof.Machine.execPointDefEffect p s
  | .chanCalEffect c => Sys2Proof.Machine.execChanCalEffect c s
  | .kappaCheck bad => Sys2Proof.Machine.execKappaCheck bad s
  | .cfPulseStart n => Sys2Proof.Machine.execCfPulseStart n s
  | .cfPulseEnd n => Sys2Proof.Machine.execCfPulseEnd n s
  | .cfCfgEffect n => Sys2Proof.Machine.execCfCfgEffect n s
  | .harmonicWindowAnalyse => Sys2Proof.Machine.execHarmonicWindowAnalyse s
  | .supraWindowAnalyse t => Sys2Proof.Machine.execSupraWindowAnalyse t s
  | .halfCycleRms => Sys2Proof.Machine.execHalfCycleRms s
  | .pqConfigApply => Sys2Proof.Machine.execPqConfigApply s
  | .captureTrigger c => Sys2Proof.Machine.execCaptureTrigger c s
  | .captureFillEnd => Sys2Proof.Machine.execCaptureFillEnd s
  | .tempTrimTick meas => Sys2Proof.Machine.execTempTrimTick meas s
  | .trimWrite g => Sys2Proof.Machine.execTrimWrite g s
  | .bankCalHoldStart => Sys2Proof.Machine.execBankCalHoldStart s
  | .bankCalIsolate => Sys2Proof.Machine.execBankCalIsolate s
  | .bankCalAttemptEnd => Sys2Proof.Machine.execBankCalAttemptEnd s
  | .bankCalWrite => Sys2Proof.Machine.execBankCalWrite s
  | .bankCalRelease => Sys2Proof.Machine.execBankCalRelease s
  | .optRequest chars => Sys2Proof.Machine.execOptRequest chars s
  | .optIdentSend => Sys2Proof.Machine.execOptIdentSend s
  | .optAck chars => Sys2Proof.Machine.execOptAck chars s
  | .optReadout => Sys2Proof.Machine.execOptReadout s
  | .optTimeout => Sys2Proof.Machine.execOptTimeout s
  | .ecreqPress ball => Sys2Proof.Machine.execEcreqPress ball s
  | .overrideExpiry n => Sys2Proof.Machine.execOverrideExpiry n s
  | .pwmPeriod n => Sys2Proof.Machine.execPwmPeriod n s
  | .ctlCfgEffect n => Sys2Proof.Machine.execCtlCfgEffect n s
  | .powerFailWarning => Sys2Proof.Machine.execPowerFailWarning s
  | .powerFailRelease => Sys2Proof.Machine.execPowerFailRelease s
  | .powerRestoreRestart => Sys2Proof.Machine.execPowerRestoreRestart s
  | .pageCommitDone => Sys2Proof.Machine.execPageCommitDone s
  | .logAppend => Sys2Proof.Machine.execLogAppend s
  | .spreadCounterPass => Sys2Proof.Machine.execSpreadCounterPass s
  | .scrubRead err place => Sys2Proof.Machine.execScrubRead err place s
  | .eccErrorDetect block double place => Sys2Proof.Machine.execEccErrorDetect block double place s
  | .backupReset => Sys2Proof.Machine.execBackupReset s
  | .backupResetEnd => Sys2Proof.Machine.execBackupResetEnd s
  | .rtcWrap => Sys2Proof.Machine.execRtcWrap s
  | .rtcSecRead who => Sys2Proof.Machine.execRtcSecRead who s
  | .rtcYearRead who => Sys2Proof.Machine.execRtcYearRead who s
  | .rtcFreezeExpiry who => Sys2Proof.Machine.execRtcFreezeExpiry who s
  | .rtcCommitGo => Sys2Proof.Machine.execRtcCommitGo s
  | .rtcCommitTick => Sys2Proof.Machine.execRtcCommitTick s
  | .oscStop => Sys2Proof.Machine.execOscStop s
  | .oscRun => Sys2Proof.Machine.execOscRun s
  | .trimWindow => Sys2Proof.Machine.execTrimWindow s
  | .tcompUpdate => Sys2Proof.Machine.execTcompUpdate s
  | .vbatCheck low => Sys2Proof.Machine.execVbatCheck low s
  | .backupSwitchover => Sys2Proof.Machine.execBackupSwitchover s
  | .eventInputEdge e rising => Sys2Proof.Machine.execEventInputEdge e rising s
  | .eventFifoDrain => Sys2Proof.Machine.execEventFifoDrain s
  | .sqwEdge => Sys2Proof.Machine.execSqwEdge s
  | .linkTrained speed5 => Sys2Proof.Machine.execLinkTrained speed5 s
  | .perstAssert => Sys2Proof.Machine.execPerstAssert s
  | .linkDown => Sys2Proof.Machine.execLinkDown s
  | .functionLevelReset => Sys2Proof.Machine.execFunctionLevelReset s
  | .d3hotEnter => Sys2Proof.Machine.execD3hotEnter s
  | .d0Return => Sys2Proof.Machine.execD0Return s
  | .ringEnable value => Sys2Proof.Machine.execRingEnable value s
  | .ringDisable value => Sys2Proof.Machine.execRingDisable value s
  | .ringCfgWrite value => Sys2Proof.Machine.execRingCfgWrite value s
  | .doorbellWrite ring t => Sys2Proof.Machine.execDoorbellWrite ring t s
  | .descriptorAccept ring descs => Sys2Proof.Machine.execDescriptorAccept ring descs s
  | .completionWrite ring => Sys2Proof.Machine.execCompletionWrite ring s
  | .receiveBufferComplete ring d => Sys2Proof.Machine.execReceiveBufferComplete ring d s
  | .receiveCoalesceExpiry ring => Sys2Proof.Machine.execReceiveCoalesceExpiry ring s
  | .dmaReadError ring => Sys2Proof.Machine.execDmaReadError ring s
  | .commandForwardTimeout ring slot => Sys2Proof.Machine.execCommandForwardTimeout ring slot s
  | .configSet r => Sys2Proof.Machine.execConfigSet r s
  | .regRead r => Sys2Proof.Machine.execRegRead r s
  | .sync r => Sys2Proof.Machine.execSync r s
  | .tripClear r => Sys2Proof.Machine.execTripClear r s
  | .logReplay r => Sys2Proof.Machine.execLogReplay r s
  | .snapReplay r => Sys2Proof.Machine.execSnapReplay r s
  | .chanCal r => Sys2Proof.Machine.execChanCal r s
  | .pointDef r => Sys2Proof.Machine.execPointDef r s
  | .f3Store r => Sys2Proof.Machine.execF3Store r s
  | .cfCfg r => Sys2Proof.Machine.execCfCfg r s
  | .coefSwap r => Sys2Proof.Machine.execCoefSwap r s
  | .calBank r => Sys2Proof.Machine.execCalBank r s
  | .pqSubscribe r => Sys2Proof.Machine.execPqSubscribe r s
  | .capCfg r => Sys2Proof.Machine.execCapCfg r s
  | .capArm r => Sys2Proof.Machine.execCapArm r s
  | .capTrigger r => Sys2Proof.Machine.execCapTrigger r s
  | .capRelease r => Sys2Proof.Machine.execCapRelease r s
  | .trfLoad r => Sys2Proof.Machine.execTrfLoad r s
  | .trfArm r => Sys2Proof.Machine.execTrfArm r s
  | .trfCtledit r => Sys2Proof.Machine.execTrfCtledit r s
  | .trfSnap r => Sys2Proof.Machine.execTrfSnap r s
  | .creditCfg r => Sys2Proof.Machine.execCreditCfg r s
  | .ctlCfg r => Sys2Proof.Machine.execCtlCfg r s
  | .rtcSet r => Sys2Proof.Machine.execRtcSet r s
  | .creditToken r => Sys2Proof.Machine.execCreditToken r s
  | .creditEc r => Sys2Proof.Machine.execCreditEc r s
  | .ctlSwitch r => Sys2Proof.Machine.execCtlSwitch r s
  | .attest r => Sys2Proof.Machine.execAttest r s
  | .certRead r => Sys2Proof.Machine.execCertRead r s
  | .guardChange r => Sys2Proof.Machine.execGuardChange r s
  | .guardRead r => Sys2Proof.Machine.execGuardRead r s
  | .keyLoad r => Sys2Proof.Machine.execKeyLoad r s
  | .keyErase r => Sys2Proof.Machine.execKeyErase r s
  | .keyInfo r => Sys2Proof.Machine.execKeyInfo r s
  | .random r => Sys2Proof.Machine.execRandom r s
  | .keyRelay r => Sys2Proof.Machine.execKeyRelay r s
  | .ringSet r => Sys2Proof.Machine.execRingSet r s
  | .ringInfo r => Sys2Proof.Machine.execRingInfo r s
  | .enumerate r => Sys2Proof.Machine.execEnumerate r s
  | .streamStart r => Sys2Proof.Machine.execStreamStart r s
  | .streamStop r => Sys2Proof.Machine.execStreamStop r s
  | .streamBuf r => Sys2Proof.Machine.execStreamBuf r s
  | .linkSyncGain port => Sys2Proof.Machine.execLinkSyncGain port s
  | .linkSyncLoss port invalid => Sys2Proof.Machine.execLinkSyncLoss port invalid s
  | .lfailReceive port => Sys2Proof.Machine.execLfailReceive port s
  | .linkHeal port => Sys2Proof.Machine.execLinkHeal port s
  | .frameForward f => Sys2Proof.Machine.execFrameForward f s
  | .frameDiscard f => Sys2Proof.Machine.execFrameDiscard f s
  | .enumFrame f hop pathDelay => Sys2Proof.Machine.execEnumFrame f hop pathDelay s
  | .helloFrame f h => Sys2Proof.Machine.execHelloFrame f h s
  | .helloTimer => Sys2Proof.Machine.execHelloTimer s
  | .enumerationStart ring => Sys2Proof.Machine.execEnumerationStart ring s
  | .enumerationEnd ring => Sys2Proof.Machine.execEnumerationEnd ring s
  | .assignFrame f a => Sys2Proof.Machine.execAssignFrame f a s
  | .statusFrame f st => Sys2Proof.Machine.execStatusFrame f st s
  | .statusSend => Sys2Proof.Machine.execStatusSend s
  | .workerLost ring pos => Sys2Proof.Machine.execWorkerLost ring pos s
  | .delayReq f t2 => Sys2Proof.Machine.execDelayReq f t2 s
  | .delayResp f turnaround t4 => Sys2Proof.Machine.execDelayResp f turnaround t4 s
  | .delayMeasureStart port t1 => Sys2Proof.Machine.execDelayMeasureStart port t1 s
  | .commandFrame f => Sys2Proof.Machine.execCommandFrame f s
  | .replyFrame f => Sys2Proof.Machine.execReplyFrame f s
  | .creditFrame f => Sys2Proof.Machine.execCreditFrame f s
  | .ackFrame f => Sys2Proof.Machine.execAckFrame f s
  | .keyFrame f => Sys2Proof.Machine.execKeyFrame f s
  | .reportRecords f => Sys2Proof.Machine.execReportRecords f s
  | .bulkRecords f => Sys2Proof.Machine.execBulkRecords f s
  | .segmentTimeout ring pos hostRing seq => Sys2Proof.Machine.execSegmentTimeout ring pos hostRing seq s
  | .reportRetransmit ctr => Sys2Proof.Machine.execReportRetransmit ctr s
  | .imageNeed f => Sys2Proof.Machine.execImageNeed f s
  | .imageNeedTimer => Sys2Proof.Machine.execImageNeedTimer s
  | .imageFrame f => Sys2Proof.Machine.execImageFrame f s
  | .trngHealthFail => Sys2Proof.Machine.execTrngHealthFail s
  | .trngRestartDone => Sys2Proof.Machine.execTrngRestartDone s
  | .drbgReseed => Sys2Proof.Machine.execDrbgReseed s
  | .wedgePass => Sys2Proof.Machine.execWedgePass s
  | .rootInvert => Sys2Proof.Machine.execRootInvert s
  | .slotRewrap slot => Sys2Proof.Machine.execSlotRewrap slot s
  | .tamperEvent src detail => Sys2Proof.Machine.execTamperEvent src detail s
  | .tamperWindowExpiry src => Sys2Proof.Machine.execTamperWindowExpiry src s
  | .tamperHoldoffEnd src => Sys2Proof.Machine.execTamperHoldoffEnd src s
  | .meshReseed => Sys2Proof.Machine.execMeshReseed s
  | .tmpBistStart value => Sys2Proof.Machine.execTmpBistStart value s
  | .tmpBistEnd detected => Sys2Proof.Machine.execTmpBistEnd detected s
  | .tamperLogDrain => Sys2Proof.Machine.execTamperLogDrain s
  | .fltFstatClear value => Sys2Proof.Machine.execFltFstatClear value s
  | .graceExpiry block => Sys2Proof.Machine.execGraceExpiry block s
  | .escWindowExpiry block src => Sys2Proof.Machine.execEscWindowExpiry block src s
  | .escResolveSpan block src => Sys2Proof.Machine.execEscResolveSpan block src s
  | .failstopSafeState => Sys2Proof.Machine.execFailstopSafeState s
  | .parityErrorDetect block src => Sys2Proof.Machine.execParityErrorDetect block src s
  | .pinGpioenWrite value => Sys2Proof.Machine.execPinGpioenWrite value s
  | .pinEvoutWrite j value => Sys2Proof.Machine.execPinEvoutWrite j value s
  | .evoutPulseEnd j => Sys2Proof.Machine.execEvoutPulseEnd j s
  | .driveMismatch ball => Sys2Proof.Machine.execDriveMismatch ball s
  | .jtagInstruction code => Sys2Proof.Machine.execJtagInstruction code s
  | .rcRead off => Sys2Proof.Machine.execRcRead off s
  | .w1cWrite off value => Sys2Proof.Machine.execW1cWrite off value s
  | .latchedPairRead off => Sys2Proof.Machine.execLatchedPairRead off s
  | .regWrite off value => Sys2Proof.Machine.execRegWrite off value s
  | .powerupCalStart theta => Sys2Proof.Machine.execPowerupCalStart theta s
  | .keyOperationEnd => Sys2Proof.Machine.execKeyOperationEnd s
  | .configurationRequest msix intDis => Sys2Proof.Machine.execConfigurationRequest msix intDis s

end Sys2Proof.Machine
end

