-- ==== Sys2Proof/Safety.lean ====
section
/-!
DEFINITION. The terms of the claims: the blocks a command may change (`foot`), the state with those blocks hidden
(`hide`), and the invariants of the machine.
-/
namespace Sys2Proof
open Sys2Proof.Machine

/-- A set of blocks of the state. Three parts count as blocks of their own: `bootSt`, the boot state; `store`, the
Kiln store's records, images and spread counters; `jtag`, the TAP's instruction. The queue and the fuses are in no set. -/
structure Mask where
  free : Bool := false
  out : Bool := false
  slot : Bool := false
  porSlot : Bool := false
  boot : Bool := false
  bootSt : Bool := false
  cpx : Bool := false
  whl : Bool := false
  flt : Bool := false
  hif : Bool := false
  coil : Bool := false
  nvs : Bool := false
  store : Bool := false
  rtc : Bool := false
  afe : Bool := false
  pin : Bool := false
  jtag : Bool := false
  dec : Bool := false
  pnt : Bool := false
  pq : Bool := false
  cal : Bool := false
  trf : Bool := false
  crd : Bool := false
  sgr : Bool := false
  tmp : Bool := false
  deriving DecidableEq, Repr

/-- `s` with the blocks of `m` at fixed values: two states agree outside `m` when they are equal so hidden. -/
def hide (m : Mask) (s : State) : State where
  pending := s.pending
  fuses := s.fuses
  free := if m.free then 0 else s.free
  out := if m.out then [] else s.out
  slot := if m.slot then 0 else s.slot
  porSlot := if m.porSlot then 0 else s.porSlot
  boot := { (if m.boot then Init.boot else s.boot) with st := if m.bootSt then .off else s.boot.st }
  cpx := if m.cpx then Init.cpx else s.cpx
  whl := if m.whl then Init.whl else s.whl
  flt := if m.flt then Init.flt else s.flt
  hif := if m.hif then Init.hif else s.hif
  coil := if m.coil then Init.coil else s.coil
  nvs := { (if m.nvs then Init.nvs else s.nvs) with
    recs := if m.store then [] else s.nvs.recs
    images := if m.store then [] else s.nvs.images
    dirty := if m.store then [] else s.nvs.dirty
    spread := if m.store then [] else s.nvs.spread }
  rtc := if m.rtc then Init.rtc else s.rtc
  afe := if m.afe then Init.afe else s.afe
  pin := { (if m.pin then Init.pin else s.pin) with jtag := if m.jtag then .idcode else s.pin.jtag }
  dec := if m.dec then Init.dec else s.dec
  pnt := if m.pnt then Init.pnt else s.pnt
  pq := if m.pq then Init.pq else s.pq
  cal := if m.cal then Init.cal else s.cal
  trf := if m.trf then Init.trf else s.trf
  crd := if m.crd then Init.crd else s.crd
  sgr := if m.sgr then Init.sgr else s.sgr
  tmp := if m.tmp then Init.tmp else s.tmp

/-- The blocks that raising a fault may change: its summary and latches, the fail-stop it may lead to, the record of it,
the vector and the report. -/
def faultBlocks : Mask := { out := true, bootSt := true, cpx := true, flt := true, hif := true, coil := true, nvs := true }

/-- The blocks that each command may change. -/
def foot : Instr → Mask
  | .powerOn =>
      { porSlot := true, boot := true, bootSt := true, cpx := true, whl := true, flt := true, hif := true, coil := true, nvs := true, store := true, rtc := true, afe := true, pin := true, jtag := true, dec := true, pnt := true, pq := true, cal := true, trf := true, crd := true, sgr := true, tmp := true }
  | .backupEnter => { bootSt := true, rtc := true }
  | .porEnd _ _ =>
      { faultBlocks with free := true, porSlot := true, boot := true, whl := true, store := true, rtc := true, afe := true, sgr := true, tmp := true }
  | .brownOut =>
      { free := true, porSlot := true, boot := true, bootSt := true, cpx := true, whl := true, flt := true, hif := true, coil := true, nvs := true, store := true, rtc := true, afe := true, pin := true, jtag := true, dec := true, pnt := true, pq := true, cal := true, trf := true, crd := true, sgr := true, tmp := true }
  | .resetnAssert =>
      { faultBlocks with free := true, porSlot := true, boot := true, whl := true, store := true, rtc := true, afe := true, pin := true, jtag := true, dec := true, pnt := true, pq := true, cal := true, trf := true, crd := true, sgr := true, tmp := true }
  | .mpllLock _ => { faultBlocks with whl := true, afe := true, dec := true, pnt := true, pq := true }
  | .rclkLoss _ =>
      { faultBlocks with free := true, whl := true, afe := true, dec := true, pnt := true, pq := true, cal := true, trf := true, crd := true }
  | .rclkReturn _ => { faultBlocks with afe := true, pnt := true, pq := true }
  | .mpllUnlock =>
      { faultBlocks with free := true, whl := true, afe := true, dec := true, pnt := true, pq := true, cal := true, trf := true, crd := true }
  | .mpllRelock => { faultBlocks with afe := true, pnt := true, pq := true }
  | .vrefFault => { faultBlocks with afe := true }
  | .vrefWaitTimeout => { faultBlocks with afe := true }
  | .powerupCalAttemptEnd _ => { faultBlocks with cal := true }
  | .powerupCalWrite => { faultBlocks with boot := true, afe := true, dec := true, cal := true }
  | .calRetryStart _ => { cal := true }
  | .imageData _ => { out := true, boot := true, hif := true, coil := true }
  | .imageEnd _ => { out := true, boot := true, bootSt := true, hif := true, coil := true }
  | .imageAbort _ => { free := true, out := true, boot := true, hif := true, coil := true }
  | .imageInfo _ => { out := true, hif := true, coil := true }
  | .verifyDone => { faultBlocks with boot := true }
  | .restoreDone =>
      { faultBlocks with free := true, whl := true, store := true, rtc := true, afe := true, pin := true, dec := true, pnt := true, pq := true, cal := true, trf := true, crd := true, sgr := true }
  | .imageWait => { faultBlocks with boot := true }
  | .acpFwWrite => faultBlocks
  | .lcpMismatch => faultBlocks
  | .acpWdog _ => faultBlocks
  | .acpRestartDone => { out := true, cpx := true, flt := true, hif := true, coil := true, nvs := true }
  | .wheelTurnBoundary _ =>
      { faultBlocks with free := true, slot := true, boot := true, whl := true, rtc := true, afe := true, dec := true, pnt := true, pq := true, cal := true, trf := true, crd := true }
  | .refHalfCycle _ _ => { faultBlocks with whl := true }
  | .refRevert => { whl := true }
  | .refListApply => { faultBlocks with whl := true }
  | .wheelCoastEnd => { whl := true }
  | .angleActionFire _ => { out := true, whl := true, coil := true, nvs := true, pin := true, pq := true, crd := true }
  | .rtcActionFire _ => { whl := true }
  | .beaconReceive _ => { faultBlocks with whl := true }
  | .beaconLost _ => { faultBlocks with whl := true }
  | .syncinEdge _ => { whl := true }
  | .syncExecute => { whl := true, nvs := true, pin := true, dec := true, pnt := true, pq := true }
  | .syncoutPulseEnd => { pin := true }
  | .whlPosloRead => { out := true, whl := true }
  | .integratorReset _ => { dec := true }
  | .coarseSample _ _ => { faultBlocks with afe := true, dec := true, pq := true, cal := true }
  | .coarseRmsBlock _ => { dec := true }
  | .modulatorStuck _ =>
      { faultBlocks with free := true, whl := true, afe := true, dec := true, pnt := true, pq := true, cal := true, trf := true, crd := true }
  | .shadowCompareTurn _ => { afe := true, dec := true, pnt := true }
  | .shadowDwellAdvance _ => { faultBlocks with afe := true, dec := true, cal := true }
  | .shadowSelfcheckStep _ => { faultBlocks with afe := true, dec := true, pnt := true }
  | .auxDwellEnd _ => { faultBlocks with afe := true, pnt := true }
  | .auxSettlingEnd _ => { afe := true }
  | .auxConfigApply => { afe := true }
  | .channelConfigApply => { faultBlocks with afe := true, dec := true, pnt := true, cal := true }
  | .tripConfigApply => { nvs := true, afe := true, pq := true }
  | .tripComparatorAssert _ _ => { nvs := true, afe := true, pq := true }
  | .tripComparatorRelease _ => { nvs := true, afe := true, pq := true }
  | .tripStretchEnd _ => { nvs := true, afe := true, pq := true }
  | .coefFadeStart _ => { nvs := true, dec := true, pnt := true }
  | .coefFadeEnd _ => { dec := true }
  | .fadeDeferred _ => faultBlocks
  | .tapConfigApply => { dec := true }
  | .coefCrcCheck _ _ => { faultBlocks with dec := true }
  | .slotOverrun _ => faultBlocks
  | .rsRomCrcCheck _ => faultBlocks
  | .alignedSampleWrite => { pnt := true }
  | .wheelSampleWrite => { faultBlocks with pnt := true, pq := true }
  | .turnAccount => { faultBlocks with free := true, whl := true, pnt := true, trf := true, crd := true }
  | .pointDefEffect _ => { nvs := true, pnt := true, trf := true }
  | .chanCalEffect _ => { faultBlocks with afe := true, dec := true, pnt := true, cal := true }
  | .kappaCheck _ => faultBlocks
  | .cfPulseStart _ => { pin := true, pnt := true }
  | .cfPulseEnd _ => { pin := true, pnt := true }
  | .cfCfgEffect _ => { pin := true, pnt := true }
  | .harmonicWindowAnalyse => { faultBlocks with free := true, pq := true }
  | .supraWindowAnalyse _ => { faultBlocks with dec := true, pq := true }
  | .halfCycleRms => { nvs := true, pq := true }
  | .pqConfigApply => { pq := true }
  | .captureTrigger _ => { pq := true }
  | .captureFillEnd => { faultBlocks with whl := true, pq := true }
  | .tempTrimTick _ => { cal := true }
  | .trimWrite _ => { faultBlocks with afe := true, cal := true }
  | .bankCalHoldStart => { whl := true, afe := true, pnt := true, cal := true }
  | .bankCalIsolate => { afe := true, dec := true, cal := true }
  | .bankCalAttemptEnd => { faultBlocks with cal := true }
  | .bankCalWrite => { faultBlocks with afe := true, dec := true, cal := true }
  | .bankCalRelease => { out := true, hif := true, coil := true, nvs := true, afe := true, pnt := true, cal := true }
  | .optRequest _ => { trf := true }
  | .optIdentSend => { faultBlocks with trf := true }
  | .optAck _ => { faultBlocks with trf := true }
  | .optReadout => { faultBlocks with free := true, trf := true }
  | .optTimeout => { faultBlocks with trf := true }
  | .ecreqPress _ => { nvs := true, crd := true }
  | .overrideExpiry _ => { crd := true }
  | .pwmPeriod _ => { pin := true, crd := true }
  | .ctlCfgEffect _ => { pin := true, crd := true }
  | .powerFailWarning =>
      { faultBlocks with free := true, whl := true, afe := true, dec := true, pnt := true, pq := true, cal := true, trf := true, crd := true, tmp := true }
  | .powerFailRelease => { nvs := true }
  | .powerRestoreRestart =>
      { porSlot := true, boot := true, bootSt := true, cpx := true, whl := true, flt := true, hif := true, coil := true, nvs := true, store := true, rtc := true, afe := true, pin := true, jtag := true, dec := true, pnt := true, pq := true, cal := true, trf := true, crd := true, sgr := true, tmp := true }
  | .pageCommitDone =>
      { faultBlocks with free := true, porSlot := true, boot := true, whl := true, store := true, rtc := true, afe := true, pin := true, jtag := true, dec := true, pnt := true, pq := true, cal := true, trf := true, crd := true, sgr := true, tmp := true }
  | .logAppend => { faultBlocks with rtc := true, tmp := true }
  | .spreadCounterPass => { nvs := true, store := true }
  | .scrubRead _ _ => { faultBlocks with store := true }
  | .eccErrorDetect _ _ _ => { faultBlocks with store := true }
  | .backupReset => { boot := true, bootSt := true, whl := true, flt := true, rtc := true, sgr := true, tmp := true }
  | .backupResetEnd => { rtc := true }
  | .rtcWrap =>
      { faultBlocks with free := true, whl := true, rtc := true, pin := true, pnt := true, pq := true, trf := true, crd := true }
  | .rtcSecRead _ => { out := true, rtc := true }
  | .rtcYearRead _ => { out := true, rtc := true }
  | .rtcFreezeExpiry _ => { rtc := true }
  | .rtcCommitGo => { rtc := true }
  | .rtcCommitTick =>
      { faultBlocks with free := true, whl := true, rtc := true, pin := true, pnt := true, pq := true, trf := true, crd := true }
  | .oscStop => { faultBlocks with whl := true, rtc := true }
  | .oscRun => { flt := true, nvs := true, rtc := true }
  | .trimWindow => { rtc := true }
  | .tcompUpdate => { free := true, rtc := true }
  | .vbatCheck _ => { faultBlocks with rtc := true }
  | .backupSwitchover => { bootSt := true, rtc := true }
  | .eventInputEdge _ _ => { rtc := true }
  | .eventFifoDrain => faultBlocks
  | .sqwEdge => { rtc := true, pin := true }
  | .linkTrained _ => { hif := true }
  | .perstAssert => { boot := true, hif := true, coil := true, nvs := true, rtc := true, cal := true, sgr := true }
  | .linkDown => { faultBlocks with boot := true, rtc := true, cal := true, sgr := true }
  | .functionLevelReset =>
      { porSlot := true, boot := true, bootSt := true, cpx := true, whl := true, flt := true, hif := true, coil := true, nvs := true, store := true, rtc := true, afe := true, pin := true, jtag := true, dec := true, pnt := true, pq := true, cal := true, trf := true, crd := true, sgr := true, tmp := true }
  | .d3hotEnter => { hif := true }
  | .d0Return => { out := true, hif := true }
  | .ringEnable _ => faultBlocks
  | .ringDisable _ => faultBlocks
  | .ringCfgWrite _ => faultBlocks
  | .doorbellWrite _ _ => faultBlocks
  | .descriptorAccept _ _ => { hif := true }
  | .completionWrite _ => { faultBlocks with whl := true, pq := true }
  | .receiveBufferComplete _ _ => { hif := true, pq := true }
  | .receiveCoalesceExpiry _ => { hif := true, pq := true }
  | .dmaReadError _ => faultBlocks
  | .commandForwardTimeout _ _ => { faultBlocks with sgr := true }
  | .configSet _ =>
      { faultBlocks with free := true, whl := true, rtc := true, afe := true, pin := true, dec := true, pnt := true, pq := true, trf := true }
  | .regRead _ => { faultBlocks with whl := true, rtc := true, pq := true, crd := true, sgr := true }
  | .sync _ => { out := true, whl := true, hif := true, coil := true }
  | .tripClear _ => { out := true, hif := true, coil := true, nvs := true, afe := true, pq := true }
  | .logReplay _ => faultBlocks
  | .snapReplay _ => faultBlocks
  | .chanCal _ => { faultBlocks with afe := true, dec := true, pnt := true }
  | .pointDef _ => { faultBlocks with pnt := true }
  | .f3Store _ => faultBlocks
  | .cfCfg _ => { faultBlocks with pin := true, pnt := true }
  | .coefSwap _ => { out := true, hif := true, coil := true, dec := true }
  | .calBank _ => { out := true, hif := true, coil := true, cal := true }
  | .pqSubscribe _ => { faultBlocks with pq := true }
  | .capCfg _ => { faultBlocks with pq := true }
  | .capArm _ => { faultBlocks with whl := true, pq := true }
  | .capTrigger _ => { faultBlocks with whl := true, pq := true }
  | .capRelease _ => { out := true, whl := true, hif := true, coil := true, pq := true }
  | .trfLoad _ => { faultBlocks with trf := true }
  | .trfArm _ => { out := true, whl := true, hif := true, coil := true, nvs := true, trf := true }
  | .trfCtledit _ => { faultBlocks with trf := true }
  | .trfSnap _ => { faultBlocks with free := true, trf := true }
  | .creditCfg _ => { faultBlocks with pin := true, crd := true }
  | .ctlCfg _ => { faultBlocks with pin := true, crd := true }
  | .rtcSet _ => { out := true, hif := true, coil := true, rtc := true }
  | .creditToken _ => { faultBlocks with crd := true, sgr := true }
  | .creditEc _ => faultBlocks
  | .ctlSwitch _ => { out := true, hif := true, coil := true, nvs := true, crd := true }
  | .attest _ => { faultBlocks with free := true, sgr := true }
  | .certRead _ => { faultBlocks with free := true, sgr := true }
  | .guardChange _ => { faultBlocks with free := true, sgr := true }
  | .guardRead _ => { faultBlocks with free := true, sgr := true }
  | .keyLoad _ => { faultBlocks with free := true, sgr := true }
  | .keyErase _ => { faultBlocks with free := true, sgr := true }
  | .keyInfo _ => { faultBlocks with free := true, sgr := true }
  | .random _ => { faultBlocks with free := true, sgr := true }
  | .keyRelay _ => { faultBlocks with sgr := true }
  | .ringSet _ => { faultBlocks with pq := true }
  | .ringInfo _ => { out := true, hif := true, coil := true }
  | .enumerate _ => { out := true, hif := true, coil := true }
  | .streamStart _ => { out := true, hif := true, coil := true }
  | .streamStop _ => { out := true, hif := true, coil := true }
  | .streamBuf _ => { out := true, hif := true, coil := true, pq := true }
  | .linkSyncGain _ => { free := true, out := true, coil := true, sgr := true }
  | .linkSyncLoss _ _ => faultBlocks
  | .lfailReceive _ => faultBlocks
  | .linkHeal _ => { free := true, out := true, coil := true, nvs := true, sgr := true }
  | .frameForward _ => { out := true, coil := true }
  | .frameDiscard _ => faultBlocks
  | .enumFrame _ _ _ => { free := true, out := true, coil := true, sgr := true }
  | .helloFrame _ _ => { faultBlocks with free := true, sgr := true }
  | .helloTimer => { free := true, out := true, coil := true, sgr := true }
  | .enumerationStart _ => { out := true, coil := true }
  | .enumerationEnd _ => { faultBlocks with pq := true }
  | .assignFrame _ _ => faultBlocks
  | .statusFrame _ _ => { faultBlocks with pq := true }
  | .statusSend => { out := true, coil := true }
  | .workerLost _ _ => { faultBlocks with pq := true }
  | .delayReq _ _ => { out := true, coil := true }
  | .delayResp _ _ _ => { coil := true }
  | .delayMeasureStart _ _ => { out := true, coil := true }
  | .commandFrame _ =>
      { faultBlocks with free := true, whl := true, rtc := true, afe := true, pin := true, dec := true, pnt := true, pq := true, cal := true, trf := true, crd := true, sgr := true }
  | .replyFrame _ => { faultBlocks with pq := true }
  | .creditFrame _ => { faultBlocks with whl := true, pq := true }
  | .ackFrame _ => { faultBlocks with whl := true, pq := true }
  | .keyFrame _ => { faultBlocks with free := true, sgr := true }
  | .reportRecords _ => faultBlocks
  | .bulkRecords _ => faultBlocks
  | .segmentTimeout _ _ _ _ => { coil := true }
  | .reportRetransmit _ => { out := true, coil := true }
  | .imageNeed _ => { out := true, coil := true }
  | .imageNeedTimer => { out := true }
  | .imageFrame _ => { boot := true, bootSt := true, coil := true }
  | .trngHealthFail => { faultBlocks with sgr := true }
  | .trngRestartDone => { free := true, out := true, flt := true, hif := true, coil := true, nvs := true, sgr := true }
  | .drbgReseed => { free := true, sgr := true }
  | .wedgePass => { free := true, sgr := true }
  | .rootInvert => { sgr := true }
  | .slotRewrap _ => { free := true, nvs := true, sgr := true }
  | .tamperEvent _ _ => { faultBlocks with boot := true, crd := true, sgr := true, tmp := true }
  | .tamperWindowExpiry _ => { tmp := true }
  | .tamperHoldoffEnd _ => { tmp := true }
  | .meshReseed => { free := true, sgr := true, tmp := true }
  | .tmpBistStart _ => { tmp := true }
  | .tmpBistEnd _ => { faultBlocks with tmp := true }
  | .tamperLogDrain => faultBlocks
  | .fltFstatClear _ => { flt := true }
  | .graceExpiry _ => faultBlocks
  | .escWindowExpiry _ _ => { flt := true }
  | .escResolveSpan _ _ => { out := true, flt := true, hif := true, coil := true, nvs := true }
  | .failstopSafeState =>
      { faultBlocks with free := true, porSlot := true, boot := true, whl := true, store := true, rtc := true, afe := true, pin := true, jtag := true, dec := true, pnt := true, pq := true, cal := true, trf := true, crd := true, sgr := true, tmp := true }
  | .parityErrorDetect _ _ => faultBlocks
  | .pinGpioenWrite _ => { pin := true }
  | .pinEvoutWrite _ _ => { whl := true, pin := true }
  | .evoutPulseEnd _ => { pin := true }
  | .driveMismatch _ => { faultBlocks with pin := true }
  | .jtagInstruction _ => { out := true, jtag := true }
  | .rcRead _ =>
      { out := true, cpx := true, whl := true, flt := true, hif := true, coil := true, nvs := true, rtc := true, pq := true, crd := true, sgr := true }
  | .w1cWrite _ _ => { flt := true, hif := true, rtc := true, afe := true, pin := true, tmp := true }
  | .latchedPairRead _ =>
      { out := true, cpx := true, whl := true, flt := true, hif := true, coil := true, nvs := true, rtc := true, pq := true, crd := true, sgr := true }
  | .regWrite _ _ =>
      { faultBlocks with whl := true, rtc := true, afe := true, pin := true, dec := true, pnt := true, pq := true, cal := true, trf := true, crd := true, sgr := true, tmp := true }
  | .powerupCalStart _ => { faultBlocks with store := true, afe := true, dec := true, cal := true }
  | .keyOperationEnd => { faultBlocks with free := true, crd := true, sgr := true }
  | .configurationRequest _ _ => { out := true, hif := true }

/-! ### How a claim speaks of an outcome -/

/-- The command ends in a next state of which `P` holds. -/
def ends (o : Out) (P : State → Prop) : Prop := ∃ t, o = .next t ∧ P t

/-- `t` is the chip in POR, with its cause, after `s`: registers at their reset values, the store's records, the clock,
the fuses and the last fail-stop's reason as they were (R398). -/
def porOf (cause : BitVec 4) (s t : State) : Prop :=
  t.boot.st = .por ∧ t.boot.cause = cause ∧ t.boot.fired = false ∧ t.flt.phase = .none ∧ t.flt.prev = s.flt.prev ∧
  t.cpx = State.reset.cpx ∧ t.whl = State.reset.whl ∧ t.hif = State.reset.hif ∧ t.coil = State.reset.coil ∧
  t.afe = State.reset.afe ∧ t.dec = State.reset.dec ∧ t.pnt = State.reset.pnt ∧ t.pq = State.reset.pq ∧
  t.cal = State.reset.cal ∧ t.trf = State.reset.trf ∧ t.crd = State.reset.crd ∧
  t.nvs.recs = s.nvs.recs ∧ t.rtc.s = s.rtc.s ∧ t.rtc.pre = s.rtc.pre ∧ t.fuses = s.fuses

/-- The Ring 0 commands whose checks before their own are the common ones: opcode, length check and request. -/
def ring0Cmd : Instr → Option (Byte × (Nat → Bool) × Req)
  | .configSet r => some (0x01, (· == 16), r)
  | .regRead r => some (0x02, (· == 8), r)
  | .tripClear r => some (0x04, (· == 4), r)
  | .logReplay r => some (0x05, (· == 8), r)
  | .snapReplay r => some (0x06, (· == 4), r)
  | .chanCal r => some (0x10, (· == 16), r)
  | .pointDef r => some (0x11, (· == 32), r)
  | .f3Store r => some (0x12, (· == 200), r)
  | .cfCfg r => some (0x13, (· == 16), r)
  | .calBank r => some (0x18, (· == 8), r)
  | .capCfg r => some (0x21, (· == 32), r)
  | .capArm r => some (0x22, (· == 4), r)
  | .capTrigger r => some (0x23, (· == 4), r)
  | .capRelease r => some (0x24, (· == 4), r)
  | .trfLoad r => some (0x28, loadLenOk r.buf, r)
  | .trfArm r => some (0x29, (· == 12), r)
  | .trfSnap r => some (0x2B, (· == 4), r)
  | .creditCfg r => some (0x30, (· == 24), r)
  | .ctlCfg r => some (0x31, (· == 32), r)
  | .rtcSet r => some (0x38, (· == 16), r)
  | .trfCtledit r => some (0x2A, loadLenOk r.buf, r)
  | _ => none

/-- A Ring 0 request of `n` record bytes for this chip itself, in METERING. -/
@[reducible] def ownRing0 (n : Nat) (r : Req) (s : State) : Prop := metering s = true ∧ r.buf.length = n ∧ cmdDest r s = .own

/-- A Ring 11 request of `n` record bytes that carries this chip's own address, in METERING. -/
@[reducible] def ownRing11 (n : Nat) (r : Req) (s : State) : Prop :=
  metering s = true ∧ r.buf.length = n ∧ rd r.buf 0 4 < 2 ^ 17 ∧
  (r.via = .coil ∨ addrCheck s (rd r.buf 0 4 / 2 ^ 15) (rd r.buf 0 4 / 2 ^ 8 % 128) = .own)

/-- A Ring 9 request of `op` from this chip's own host that passes the common checks: in METERING, or from FIRED on where the
request is served before it (R439). -/
@[reducible] def ownRing9 (op : Nat) (r : Req) (s : State) : Prop :=
  r.via = .host ∧ (if sagEarly op then s.boot.fired = true else metering s = true) ∧ 8 ≤ r.buf.length ∧ sagLen op (r.buf.drop 8) = true ∧
  zerosAt r.buf 4 4 = true ∧ rd r.buf 0 4 % 256 = 0 ∧ rd r.buf 0 4 < 2 ^ 17 ∧
  addrCheck s (rd r.buf 0 4 / 2 ^ 15) (rd r.buf 0 4 / 2 ^ 8 % 128) = .own

/-- The Saggar request that such a Ring 9 request becomes. -/
def sagReq (op : Nat) (r : Req) (s : State) : SReq :=
  ⟨reqWaiter r 9 (BitVec.ofNat 8 op), nowStamp s, 0, rd r.buf 0 4 % 2 ^ 17 / 256 * 256, r.buf.drop 8⟩

/-- A frame that a worker takes as its manager's: for this worker, sound, tagged under K_down and beyond the last one. -/
def fromManager (cls typ : Nat) (f : Frame) (s : State) : Prop :=
  forWorker s f = true ∧ f.cls = cls ∧ f.typ = typ ∧ frameBad f = false ∧
  (∃ key, slotKey s 5 = some key ∧ tagOk key f = true) ∧ s.coil.w.enumerated = true ∧ ctrAfter (frameCtr f) s.coil.w.down = true

/-- A frame that a manager takes as an enumerated worker's: on its ring, sound, tagged under K_up and beyond the last one. -/
def fromWorker (cls typ : Nat) (f : Frame) (s : State) : Prop :=
  forManager s f = true ∧ f.cls = cls ∧ f.typ = typ ∧ frameBad f = false ∧
  (∃ key, upKey s f.ring f.src = some key ∧ tagOk key f = true) ∧
  ((getEnt s f.ring f.src).state = 2 ∨ (getEnt s f.ring f.src).state = 3 ∨ (getEnt s f.ring f.src).state = 4) ∧
  ctrAfter (frameCtr f) (getEnt s f.ring f.src).last = true

/-- Source `i` of block `b` has its FSTAT bit set. -/
@[reducible] def latched (b i : Nat) (t : State) : Prop := bit (getBlk t b).fstat i = true

/-! ### Invariants -/

/-- With the JTAG lock fuse set the TAP holds IDCODE (R494). -/
@[reducible] def tapLocked (s : State) : Prop := s.fuses.jtagLock = true → s.pin.jtag = .idcode

/-- The canonical form of the Kiln store's tables: addresses strictly rising. -/
@[reducible] def storeWf (s : State) : Prop :=
  tsorted s.nvs.recs = true ∧ tsorted s.nvs.images = true ∧ tsorted s.nvs.dirty = true ∧ tsorted s.nvs.spread = true

end Sys2Proof
end

