-- ==== Sys2Proof/Certificates/Slice0/Obligations.lean ====
section
/-!
DEFINITION. The statements about the block, for the provers. Each names in its docstring the rules it follows; its clauses
speak of every state and operand that meet their hypotheses.
-/
open Sys2Proof Sys2Proof.Machine

/-- A step takes the command in front and carries it out on the state with the rest of the queue; on an empty queue one
slot clock passes (the model's choice, log entry 2). -/
def Obligations.StepRunsFront : Prop := ∀ (c : Instr) (rest : List Instr) (s : State),
  (s.pending = c :: rest → step s = exec c { s with pending := rest }) ∧
  (s.pending = [] → step s = .next (idleStep s) ∧ (idleStep s).slot = s.slot + 1 ∧ (idleStep s).nvs = s.nvs ∧
    (idleStep s).pnt = s.pnt)

/-- Every command but VERIFY_DONE ends in a next state, and every command leaves each block outside its footprint as it
was: the queue of commands and the fuses always, and each of the other blocks unless `foot` names it for the command. -/
def Obligations.CommandFrame : Prop := ∀ (c : Instr) (s : State),
  (c ≠ .verifyDone → ends (exec c s) (fun t => hide (foot c) t = hide (foot c) s)) ∧
  (∀ t, exec c s = .next t → hide (foot c) t = hide (foot c) s)

/-- With the JTAG lock fuse set the TAP stays in IDCODE over every step. -/
def Obligations.TapStaysLocked : Prop := ∀ s t : State, tapLocked s → step s = .next t → tapLocked t

/-- The store's tables keep their canonical form, addresses strictly rising, over every step. -/
def Obligations.StoreStaysCanonical : Prop := ∀ s t : State, storeWf s → step s = .next t → storeWf t

/-- Right after reset: POR, caused by power-on, no image, no link, no lock but holdover and NOLOCK, the backup domain's
clock at 2000-01-01 and invalid, no fault, an empty queue; and the two invariants hold. -/
def Obligations.ResetState : Prop := let s := State.reset
  s.boot.st = .por ∧ s.boot.cause = 1 ∧ s.boot.fired = false ∧ s.hif.linkUp = false ∧ s.whl.lock = false ∧ s.whl.hold = true ∧
  s.whl.nolock = true ∧ s.whl.freq = 0x03200000 ∧ s.rtc.s = 0 ∧ s.rtc.invalid = true ∧ s.flt.phase = .none ∧ s.flt.reason = 0 ∧
  s.pending = [] ∧ (∀ off, exposed s off = true → off < 0x400 ∨ (0x2C00 ≤ off ∧ off < 0x3000) ∨ (0x3E00 ≤ off ∧ off < 0x3E30)) ∧
  tapLocked s ∧ storeWf s

/-- The common checks of the Ring 0 commands: NOT_READY before METERING, BAD_LENGTH, the status of the address check, and
the forwarding of a request for a worker. -/
def Obligations.CommonChecks : Prop := ∀ (c : Instr) (op : Byte) (lenOk : Nat → Bool) (r : Req) (s : State),
  ring0Cmd c = some (op, lenOk, r) →
  (metering s = false → exec c s = .next (complete (reqWaiter r 0 op) statusNotReady 0 [] s)) ∧
  (metering s = true → lenOk r.buf.length = false →
    exec c s = .next (complete (reqWaiter r 0 op) statusBadLength 0 [] s)) ∧
  (∀ st, metering s = true → lenOk r.buf.length = true → cmdDest r s = .refused st →
    exec c s = .next (complete (reqWaiter r 0 op) st 0 [] s)) ∧
  (∀ k pos, metering s = true → lenOk r.buf.length = true → cmdDest r s = .worker k pos →
    exec c s = .next (forward (reqWaiter r 0 op) k pos r.buf s))

/-- POWER_ON, BROWN_OUT, RESETN_ASSERT before METERING and POWER_RESTORE_RESTART lead to POR with the cause of each;
every register of the metering, host, Coil, Wheel and fault blocks then has its reset value, and the store's records,
the backup domain's time and the fuses stand; after all but the brown-out the log stands too (R397, R398, R399, R416,
R419). A group that was committed when a RESETn came is written home first (R286, R416). A RESETn ends a fail-stop that
came from a SEVERE fault and stands in its safe state, and a GRAVE one ignores it (R416, R477). In METERING a RESETn and a
power-fail warning start a last gasp and freeze metering; before METERING a warning stops every further write; the
warning's end is a level only (R293, R294, R298, R416). -/
def Obligations.PowerEvents : Prop :=
  (∀ s : State,
    (mainPower s = false → ends (exec .powerOn s) (fun t => porOf 1 s t ∧ t.nvs.log = s.nvs.log)) ∧
    (running s = true → ends (exec .brownOut s) (porOf 4 s)) ∧
    (running s = true → metering s = false → s.boot.st ≠ .failstop →
      (s.nvs.gstep < 3 → ends (exec .resetnAssert s) (fun t => porOf 2 s t ∧ t.nvs.log = s.nvs.log)) ∧
      (∀ g rest, s.nvs.groups = g :: rest → 3 ≤ s.nvs.gstep → ends (exec .resetnAssert s) (fun t =>
        t.boot.st = .por ∧ t.boot.cause = 2 ∧ t.nvs.recs = (applyGroup g s.nvs).recs ∧ t.nvs.groups = []))) ∧
    (running s = true → s.boot.st = .failstop →
      (s.flt.kind ≠ .grave → s.flt.phase = .safe → ends (exec .resetnAssert s) (porOf 2 s)) ∧
      (s.flt.kind = .grave → exec .resetnAssert s = .next { s with boot.resetnLow := true })) ∧
    (running s = true → s.nvs.inhibit = true → s.nvs.warn = false → s.nvs.lg = none → s.flt.phase = .none →
      s.nvs.gstep < 3 → ends (exec .powerRestoreRestart s) (fun t => porOf 5 s t ∧ t.nvs.log = s.nvs.log))) ∧
  (∀ s : State, running s = true → s.nvs.lg = none → s.nvs.lgDone = false →
    s.nvs.inhibit = false → s.nvs.prot ≠ 3 → s.nvs.warn = false →
    (metering s = true → ends (exec .resetnAssert s) (fun t =>
      t.nvs.lg.isSome = true ∧ t.pnt.frozen = true ∧ t.boot.resetnLow = true)) ∧
    (metering s = true → ends (exec .powerFailWarning s) (fun t =>
      t.nvs.lg.isSome = true ∧ t.pnt.frozen = true ∧ t.tmp.muted = true)) ∧
    (metering s = false → ends (exec .powerFailWarning s) (fun t =>
      t.nvs.warn = true ∧ t.nvs.inhibit = true ∧ t.nvs.lg = none ∧ t.tmp.muted = true))) ∧
  (∀ s : State, exec .powerFailRelease s = .next { s with nvs.warn := false })

/-- BACKUP_ENTER leads from OFF to BACKUP; BACKUP_SWITCHOVER puts the domain on VBAT; the end of the backup domain's
reset lets the clock count from 2000-01-01 (R314, R315, R397). POR_END dates the session from the present slot, samples
the straps, takes the mark of a backup reset over and leaves POR and VBAT; a parity error in the fuses is a fail-stop (R315,
R398, R400). -/
def Obligations.BackupAndFuse : Prop :=
  (∀ s : State,
    (s.boot.st = .off → exec .backupEnter s = .next { s with boot.st := .backup, rtc.onVbat := true }) ∧
    (s.boot.st ≠ .por → exec .backupSwitchover s = .next { s with rtc.onVbat := true }) ∧
    (s.boot.st = .por → exec .backupSwitchover s = .next { s with rtc.onVbat := true, boot.st := .backup }) ∧
    ends (exec .backupReset s) (fun t =>
      t.rtc.s = 0 ∧ t.rtc.pre = 0 ∧ t.rtc.invalid = true ∧ t.rtc.inReset = true ∧ t.rtc.staged = none ∧ t.rtc.fifo = [] ∧
      t.tmp.log = [] ∧ t.sgr.rootA = Init.rootCopy ∧ t.sgr.rootB = Init.rootCopy ∧ t.flt.prev = 0 ∧ t.boot.cause = 1 ∧
      t.pin = s.pin ∧ t.nvs = s.nvs ∧ t.pnt = s.pnt ∧ t.trf = s.trf ∧ t.crd = s.crd ∧ t.hif = s.hif) ∧
    (s.rtc.inReset = true → exec .backupResetEnd s = .next { s with rtc.inReset := false, rtc.oscRun := true })) ∧
  (∀ (straps : BitVec 2) (s : State), s.boot.st = .por →
    ends (exec (.porEnd straps true) s) (fun t =>
      t.porSlot = s.slot ∧ t.boot.strap = straps ∧ t.boot.st ≠ .por ∧ t.rtc.onVbat = false ∧
      t.rtc.bkpReset = s.rtc.resetSeen ∧ t.tmp.muted = false) ∧
    (s.flt.phase = .none → ends (exec (.porEnd straps false) s) (fun t =>
      t.boot.st = .failstop ∧ latched 17 2 t)))

/-- Image requests on Ring 8 before FIRED and outside FAILSTOP: data in the transfer's range is stored and the request
completes OK, whether the transfer begins with it or goes on; the end of a complete image is taken over, waits for its
result and starts verification in GREENWARE; an abort outside a verification drops the transfer, and completes OK; the
header and the states are read with OK (R405, R406, R407). -/
def Obligations.ImageRequests : Prop := ∀ (r : Req) (s : State), s.boot.st ≠ .failstop → s.boot.fired = false →
  (s.boot.img.endAcc = false → totalOk (rd r.inl 4 4) = true →
    s.boot.img.total = none ∨ s.boot.img.total = some (rd r.inl 4 4) →
    rangeBad (rd r.inl 0 4) r.buf.length (rd r.inl 4 4) = false →
    exec (.imageData r) s =
      .next (complete (reqWaiter r 8 0x80) statusOk 0 [] (storeImage (rd r.inl 0 4) (rd r.inl 4 4) r.buf s))) ∧
  (r.buf.length = 8 → zerosAt r.buf 4 4 = true → s.boot.img.total = some (rd r.buf 0 4) → imageComplete s = true →
    s.boot.img.endAcc = false → ends (exec (.imageEnd r) s) (fun t =>
      t.boot.st = (if s.boot.st = .greenware then .verify else s.boot.st) ∧ t.boot.img.endAcc = true ∧
      t.boot.img.endWait = some (reqWaiter r 8 0x81) ∧ t.boot.abort = false ∧ t.boot.img.units = s.boot.img.units)) ∧
  (r.buf.length = 4 → zerosAt r.buf 0 4 = true → verifying s = false →
    ends (exec (.imageAbort r) s) (fun t => t.boot.img.total = none ∧ t.boot.img.units = [] ∧ t.boot.img.endAcc = false ∧
      t.boot.st = s.boot.st ∧ ∃ u, t = complete (reqWaiter r 8 0x82) statusOk 0 [] (dropImage u)) ∧
    (s.boot.img.endWait = none →
      exec (.imageAbort r) s = .next (complete (reqWaiter r 8 0x82) statusOk 0 [] (dropImage s)))) ∧
  (448 ≤ r.buf.length → exec (.imageInfo r) s = .next (complete (reqWaiter r 8 0x83) statusOk 0 (imageInfoReply s) s))

/-- After FIRED, Ring 8 serves IMAGE_INFO alone: IMAGE_DATA, IMAGE_END and IMAGE_ABORT complete DENIED. Outside a
verification no command changes the image but one that leads to POR, and POR holds no image: the host downloads again
(R408). -/
def Obligations.AfterFired : Prop := ∀ (r : Req) (s : State), s.boot.fired = true → s.boot.st ≠ .failstop →
  exec (.imageData r) s = .next (complete (reqWaiter r 8 0x80) statusDenied 0 [] s) ∧
  (r.buf.length = 8 → exec (.imageEnd r) s = .next (complete (reqWaiter r 8 0x81) statusDenied 0 [] s)) ∧
  (r.buf.length = 4 → exec (.imageAbort r) s = .next (complete (reqWaiter r 8 0x82) statusDenied 0 [] s)) ∧
  (448 ≤ r.buf.length → exec (.imageInfo r) s = .next (complete (reqWaiter r 8 0x83) statusOk 0 (imageInfoReply s) s)) ∧
  (∀ c t, s.boot.st ≠ .verify → exec c s = .next t →
    t.boot.img = s.boot.img ∨ (t.boot.st = .por ∧ t.boot.fired = false ∧ t.boot.img = Init.image)) ∧
  (running s = true → ends (exec .brownOut s) (fun t => t.boot.st = .por ∧ t.boot.fired = false ∧ t.boot.img = Init.image))

/-- A worker before FIRED and outside FAILSTOP stores the bytes of a broadcast IMAGE frame that the transfer takes, the
first or a later one; once every unit is held it takes the image over, and goes from GREENWARE to VERIFY (R391, R411). -/
def Obligations.ImageByCoil : Prop := ∀ (f : Frame) (s : State), isWorker s = true → running s = true → f.dst = 0xFF → f.cls = 3 →
  f.typ = 1 → frameBad f = false → s.boot.fired = false → s.boot.st ≠ .failstop → s.boot.img.endAcc = false →
  8 ≤ f.payload.length → totalOk (rd f.payload 4 4) = true →
  s.boot.img.total = none ∨ s.boot.img.total = some (rd f.payload 4 4) →
  rangeBad (rd f.payload 0 4) (f.payload.drop 8).length (rd f.payload 4 4) = false →
  let u := storeImage (rd f.payload 0 4) (rd f.payload 4 4) (f.payload.drop 8) s
  ends (exec (.imageFrame f) s) (fun t =>
    t.boot.img.total = some (rd f.payload 4 4) ∧ t.boot.img.units = u.boot.img.units ∧ t.boot.img.endAcc = imageComplete u ∧
    t.boot.st = (if imageComplete u = true ∧ s.boot.st = .greenware then .verify else s.boot.st) ∧
    t = { s with boot := t.boot })

/-- Verification: an image whose every check passes is FIRED, the cores run and RESTORE follows; a failing one is
refused, its store cleared and the boot state GREENWARE again, with IMAGE_REFUSED raised (R409, R410). The one fault
of the model: a genuine image of a release that the manual does not describe (R4). RESTORE ends in METERING, unless a
GRAVE fault raised on the way has led to FAILSTOP; CAL ends in RESTORE, VERIFY or GREENWARE as the image stands
(R211, R397, R412). IMAGE_WAIT is raised once, where no image is held 1.5 s after link-up, on a worker after GREENWARE
began (R418). An image data request is answered NOT_READY in FAILSTOP and DENIED after FIRED, and then stores nothing
(R405, R408). -/
def Obligations.BootEnds : Prop :=
  (∀ s : State, s.boot.st = .verify → s.boot.fired = false →
    (describedImage s = true → ends (exec .verifyDone s) (fun t => (verifyResult s).1 = 0 →
      t.boot.st = .restore ∧ t.boot.fired = true ∧ t.boot.result = 0 ∧ t.cpx.lcp = true ∧ t.cpx.acp0 = true ∧ t.cpx.acp1 = true)) ∧
    ((verifyResult s).1 ≠ 0 → ends (exec .verifyDone s) (fun t =>
      t.boot.st = .greenware ∧ t.boot.fired = false ∧ t.boot.img.state = 3 ∧ t.boot.img.units = [] ∧
      t.boot.result = BitVec.ofNat 4 (verifyResult s).1 ∧ latched 17 3 t)) ∧
    (headerBad s = true → (verifyResult s).1 = 1)) ∧
  (∀ s : State,
    exec .verifyDone s = .fault .otherImage ↔
      verifying s = true ∧ (verifyResult s).1 = 0 ∧ describedImage s = false) ∧
  (∀ s : State,
    (s.boot.st = .restore → failed s = false → ends (exec .restoreDone s) (fun t =>
      failed (restoreAll s) = false → t.boot.st = .metering)) ∧
    (s.boot.st = .cal → powerupDone s = true → ends (exec .powerupCalWrite s) (fun t =>
      t.boot.calDone = true ∧
      (failed (powerupWrite s) = false → failed s = false →
        t.boot.st = if s.boot.fired then .restore else if s.boot.img.endAcc then .verify else .greenware)))) ∧
  (∀ s : State, running s = true → s.boot.waitRaised = false → s.boot.fired = false →
    imageComplete s = false → imageWaited s = true →
    ends (exec .imageWait s) (fun t => t.boot.waitRaised = true ∧ latched 17 4 t ∧ exec .imageWait t = .next t)) ∧
  (∀ (r : Req) (s : State),
    (s.boot.st = .failstop → exec (.imageData r) s = .next (complete (reqWaiter r 8 0x80) statusNotReady 0 [] s)) ∧
    (s.boot.st ≠ .failstop → s.boot.fired = true →
      exec (.imageData r) s = .next (complete (reqWaiter r 8 0x80) statusDenied 0 [] s)))

/-- A mismatch between the two cores of the LCP is a GRAVE fault: it latches its source, and begins a GRAVE fail-stop
where none was in force (R18). -/
def Obligations.LcpMismatchIsGrave : Prop := ∀ s : State, s.cpx.lcp = true →
  srcClass 16 1 = some .grave ∧ ends (exec .lcpMismatch s) (latched 16 1) ∧
  (s.flt.phase = .none → ends (exec .lcpMismatch s) (fun t =>
    t.boot.st = .failstop ∧ t.flt.phase = .begun ∧ t.flt.kind = .grave ∧ t.flt.reason = reasonWord false false 3 16 1))

/-- The processor complex: a write to the instruction SRAM while an ACP runs is refused and counted; a watchdog of a
running ACP stops both and is counted, and their restart sets both running and ends its fault (R17, R19). The safe state,
once the last gasp has ended or where there was none: FAILn is driven, SYNCOUT is low, the LCP stands, the Wheel is in holdover
without lock; the store's records, the totals and the reason stand after a last gasp; a reset remembered in a
fail-stop from a SEVERE fault leads to POR (R475, R477). -/
def Obligations.ProcessorsAndSafeState : Prop :=
  (∀ s : State,
    (s.cpx.acp0 = true ∨ s.cpx.acp1 = true → ends (exec .acpFwWrite s) (fun t =>
      t.cpx = { s.cpx with fwRefused := satInc s.cpx.fwRefused } ∧ latched 16 0 t ∧ t.boot = s.boot)) ∧
    (∀ core, (if core = 0 then s.cpx.acp0 else s.cpx.acp1) = true → failed s = false → bit (getBlk s 16).flive 2 = false →
      ends (exec (.acpWdog core) s) (fun t =>
        t.cpx = { s.cpx with acp0 := false, acp1 := false, restarts := satInc s.cpx.restarts } ∧ latched 16 2 t ∧
        bit (getBlk t 16).flive 2 = true ∧ t.boot = s.boot)) ∧
    (s.boot.fired = true → s.cpx.acp0 = false → failed s = false → ends (exec .acpRestartDone s) (fun t =>
      t.cpx = { s.cpx with acp0 := true, acp1 := true } ∧ bit (getBlk t 16).flive 2 = false ∧
      (getSrc t 16 2).severe = none ∧ t.boot = s.boot))) ∧
  (∀ s : State, s.nvs.lg = none →
    (s.flt.phase = .begun ∨ s.flt.phase = .lastGasp → s.flt.remembered = none → ends (exec .failstopSafeState s) (fun t =>
      t.pin.failn = true ∧ t.pin.syncout = false ∧ t.flt.phase = .safe ∧ t.cpx.lcp = false ∧
      t.whl.hold = true ∧ t.whl.lock = false)) ∧
    (s.flt.phase = .lastGasp → s.flt.remembered = none → ends (exec .failstopSafeState s) (fun t =>
      t.nvs.recs = s.nvs.recs ∧ t.pnt = s.pnt ∧ t.flt.reason = s.flt.reason ∧ t.boot.st = s.boot.st)) ∧
    (∀ c, s.flt.phase = .lastGasp → s.flt.remembered = some c → s.flt.kind = .severe →
      ends (exec .failstopSafeState s) (fun t => t.boot.st = .por ∧ t.boot.cause = c ∧ t.nvs.recs = s.nvs.recs)))

/-- The page commits of the group in front, in the order of R286: its marker cleared, its pages into the journal, the
commit with which the request that waits on it ends and the group counts as written, its home pages, its retirement.
A page commit of a last gasp counts its pages down, and the last one
puts the seal's content into the area (R281, R286, R294). The spread counters: a count that differs from its newest slot
goes into the next of its eight slots, and a spread pass leaves none due (R291, R476). -/
def Obligations.StoreWrites : Prop :=
  (∀ (g : Group) (rest : List Group) (s : State), running s = true → s.nvs.lg = none →
    s.nvs.inhibit = false → s.nvs.groups = g :: rest →
    (s.nvs.gstep = 0 → exec .pageCommitDone s = .next { s with nvs.gstep := 2, nvs.gleft := g.pages }) ∧
    (s.nvs.gstep = 2 → 1 < s.nvs.gleft → exec .pageCommitDone s = .next { s with nvs.gleft := s.nvs.gleft - 1 }) ∧
    (s.nvs.gstep = 2 → s.nvs.gleft ≤ 1 → exec .pageCommitDone s = .next { s with nvs.gstep := 3, nvs.gleft := 1 }) ∧
    (∀ key c v q, s.nvs.gstep = 3 → g.act = .record key c v q → g.eff = none →
      exec .pageCommitDone s = .next (releaseWaiter g { s with nvs := { s.nvs with
        gstep := 4, gleft := g.pages, nGroups := s.nvs.nGroups + 1, bdone := bndDone g rest s.nvs.bdone, journalBad := false } })) ∧
    (s.nvs.gstep = 4 → 1 < s.nvs.gleft → exec .pageCommitDone s = .next { s with nvs.gleft := s.nvs.gleft - 1 }) ∧
    (s.nvs.gstep = 4 → s.nvs.gleft ≤ 1 →
      exec .pageCommitDone s = .next { s with nvs := { applyGroup g s.nvs with gstep := 5, gleft := 1 } }) ∧
    (s.nvs.gstep = 5 → exec .pageCommitDone s = .next { s with nvs.groups := rest, nvs.gstep := 0, nvs.gleft := 0 })) ∧
  (∀ (g : LgRun) (n : Nat) (s : State), running s = true → s.nvs.lg = some g → g.left = some n →
    (2 < n → n < 161 → exec .pageCommitDone s = .next { s with nvs.lg := some { g with left := some (n - 1) } }) ∧
    (n ≤ 1 → g.cause = 1 → s.flt.phase = .none → s.flt.remembered = none → ends (exec .pageCommitDone s) (fun t =>
      t.nvs.lg = none ∧ t.nvs.lgDone = true ∧ t.nvs.inhibit = true ∧ t.nvs.recs = s.nvs.recs ∧ t.pnt = s.pnt ∧
      (if lgTargetB s then t.nvs.lgb else t.nvs.lga) = some g.area))) ∧
  (∀ s : State, metering s = true → s.pnt.cmpOk = true → s.nvs.lg = none →
    s.nvs.inhibit = false → s.nvs.prot ≠ 3 →
    ends (exec .spreadCounterPass s) (fun t => t.nvs.spreadDue = [] ∧ t.nvs.recs = s.nvs.recs ∧ t.pnt = s.pnt) ∧
    (s.nvs.spreadDue = [] → ends (exec .spreadCounterPass s) (fun t => t.nvs.spread = s.nvs.spread)) ∧
    (∀ p c k w, s.nvs.spreadDue = [(p, [c])] → spreadNewest (spreadSlots s (8 * p)) = some (k, w) → w ≠ BitVec.ofNat 48 c →
      ends (exec .spreadCounterPass s) (fun t => t.nvs.spread = tput s.nvs.spread (8 * p)
        (lmod (spreadSlots s (8 * p)) ((k + 1) % 8) (fun _ => some (BitVec.ofNat 48 c))))))

/-- The turn boundary: the clocks reach angle 0; the store, the fuses, the pins and the keys stand. The Wheel's own part
of it: the turn count goes up by one with the angle at 0, the phase steps by 256 Δ_T units, and the next Δ_T follows
the rate, which slewing moves by at most 1 % (R32, R40, R122); a selected reference that neither coasts nor is held
gives the estimate as the frequency and the phase error of its last positive-going crossing (R36-R38), and without one
the frequency stands (R39). LOCK follows the phase error: the fourth consecutive turn within 0.05° sets it and clears HOLD
and NOLOCK, the second consecutive turn beyond 0.2° clears it, any other turn leaves it (R37, R40). -/
def Obligations.TurnBoundary : Prop :=
  (∀ (est : W32) (s : State), s.whl.run = true →
    ends (exec (.wheelTurnBoundary est) s) (fun t =>
      t.slot = s.slot + slotsToBoundary s.whl ∧ t.nvs.recs = s.nvs.recs ∧ t.fuses = s.fuses ∧ t.pin = s.pin ∧
      t.sgr = s.sgr) ∧
    (let w := (wheelAngle0 est s).whl
     w.pos = turnStart ((turnOf s.whl.pos).toNat + 1) ∧ angleOf w.pos = 0 ∧ w.prevDelta = s.whl.delta ∧
     w.u = s.whl.u + BitVec.ofNat 63 (256 * s.whl.delta.toNat) ∧ (∃ r, w.delta = deltaOf r) ∧
     (isWorker s = false → s.whl.selected = true → s.whl.coast = false → refHeld s = false →
       w.freq = est ∧ w.pherr = BitVec.ofInt 32 (refError s)) ∧
     (isWorker s = false → s.whl.selected = false → w.freq = s.whl.freq ∧ w.lock = s.whl.lock ∧ w.slew = false))) ∧
  (∀ (freq : W32) (err : Int) (n : Nat), freq.toNat - freq.toNat / 100 ≤ slewedRate freq err n ∧
    slewedRate freq err n ≤ freq.toNat + freq.toNat / 100 ∧ slewedRate freq 0 n = freq.toNat) ∧
  (∀ (err : Int) (w : Whl),
    (3 ≤ w.goodTurns → err.natAbs ≤ 2330 → (lockTurn err w).lock = true ∧ (lockTurn err w).hold = false ∧ (lockTurn err w).nolock = false) ∧
    (1 ≤ w.badTurns → 9320 < err.natAbs → (lockTurn err w).lock = false ∧ (lockTurn err w).hold = w.hold) ∧
    (w.goodTurns < 3 → err.natAbs ≤ 2330 → (lockTurn err w).goodTurns = w.goodTurns + 1 ∧ (lockTurn err w).lock = w.lock ∧
      (lockTurn err w).hold = w.hold) ∧
    (w.badTurns = 0 → 9320 < err.natAbs → (lockTurn err w).badTurns = 1 ∧ (lockTurn err w).lock = w.lock) ∧
    (err.natAbs ≤ 9320 → 2330 < err.natAbs → (lockTurn err w).goodTurns = 0 ∧ (lockTurn err w).badTurns = 0 ∧
      (lockTurn err w).lock = w.lock))

/-- A half-cycle of an enabled entry of the reference list is judged on its channel's fine samples; an entry that is not
active is only noted, and with none selected one that qualifies is taken; the loss of the active entry starts holdover
with HOLD set, LOCK clear and REF_LOST, and with no other qualified entry ALL_REF_LOST and the frequency held (R35,
R36, R39). REVERT takes an earlier entry that has stayed qualified for 10 s; without it nothing changes (R41). A change
of the list takes effect with its offsets and is never a loss: the active entry is kept where it stands as it was,
else the first qualified one is taken (R522). -/
def Obligations.References : Prop :=
  (∀ (n : Nat) (rising : Bool) (s : State), n < 4 → isWorker s = false →
    s.flt.phase ≠ .safe → s.whl.run = true → refEn s.whl.regs.reflist n = true → setHeld s (refCh s.whl.regs.reflist n) = false →
    let at_ := s.slot - fineDelay
    let e := judgeRef (getRef s.whl n) (fld s.whl.regs.vnom 15 0) (halfCycleSq s n at_).1 (halfCycleSq s n at_).2 at_ rising s.slot
    let refs := tput s.whl.refs n e
    (s.whl.selected = true → s.whl.active.toNat ≠ n →
      exec (.refHalfCycle n rising) s = .next { s with whl.refs := refs }) ∧
    (s.whl.selected = false → e.qual = true →
      exec (.refHalfCycle n rising) s = .next { s with whl := selectRef n { s.whl with refs := refs } }) ∧
    (s.whl.selected = false → e.qual = false →
      exec (.refHalfCycle n rising) s = .next { s with whl.refs := refs }) ∧
    (s.whl.selected = true → s.whl.active.toNat = n → (getRef s.whl n).qual = true → e.qual = false →
      ends (exec (.refHalfCycle n rising) s) (fun t =>
        latched 3 0 t ∧ t.whl.hold = true ∧ t.whl.lock = false ∧ t.whl.refs = refs ∧ t.boot = s.boot ∧ t.pnt = s.pnt ∧
        t.nvs.recs = s.nvs.recs ∧
        (firstQual { s.whl with refs := refs } [(n + 1) % 4, (n + 2) % 4, (n + 3) % 4, n] = none →
          latched 3 1 t ∧ t.whl.selected = false ∧ t.whl.freq = s.whl.heldFreq)))) ∧
  (∀ s : State, isWorker s = false →
    (∀ n, bit s.whl.regs.cfg 1 = true → s.whl.selected = true →
      firstQual s.whl ((List.range s.whl.active.toNat).filter (settledRef s)) = some n →
      exec .refRevert s = .next { s with whl := selectRef n s.whl }) ∧
    (bit s.whl.regs.cfg 1 = false → exec .refRevert s = .next s) ∧
    (let a := s.whl.active.toNat
     let kept := refEn s.whl.next.reflist a && refEn s.whl.regs.reflist a &&
       refCh s.whl.regs.reflist a == refCh s.whl.next.reflist a
     let w : Whl := { s.whl with
       regs := { s.whl.regs with reflist := s.whl.next.reflist, ofs01 := s.whl.next.ofs01, ofs23 := s.whl.next.ofs23 }
       refs := requalify s.whl.regs.reflist s.whl.next.reflist s.whl.refs }
     (s.whl.selected = false ∨ kept = true → exec .refListApply s = .next { s with whl := w }) ∧
     (∀ n, s.whl.selected = true → kept = false → firstQual w [0, 1, 2, 3] = some n →
       exec .refListApply s = .next { s with whl := selectRef n w })))

/-- SYNC: the selected edge of SYNCIN, where it is enabled, and the request SYNC each fix one execution or merge into the
one that waits, which is counted (R54, R55, R56, R357): 16 slot clocks on for the ball of a standalone chip, the first
turn at least 1 ms on for its request, two turns after the next beacon for a manager. The execution counts, records itself,
drives SYNCOUT and lets the Wheel coast; SYNCOUT and the coasting each fall at their own end (R36, R57). -/
def Obligations.SyncRequests : Prop := ∀ (falling : Bool) (r : Req) (s : State),
  (isWorker s = false → bit s.whl.regs.synccfg 0 = true → bit s.whl.regs.synccfg 1 = falling →
    exec (.syncinEdge falling) s = .next (syncRequest true s)) ∧
  (isWorker s = true ∨ bit s.whl.regs.synccfg 0 = false ∨ bit s.whl.regs.synccfg 1 ≠ falling →
    exec (.syncinEdge falling) s = .next s) ∧
  (∀ q b, s.whl.sync = some q → syncRequest b s = { s with whl.merged := satInc s.whl.merged }) ∧
  (s.whl.sync = none →
    (isManager s = false →
      syncRequest true s = { s with whl.sync := some ⟨none, some (s.slot + 16), s.slot, 0⟩ } ∧
      syncRequest false s = { s with whl.sync := some ⟨some (BitVec.ofNat 40 (commandTurn s.whl)), none, s.slot, 0⟩ }) ∧
    (∀ b, isManager s = true →
      syncRequest b s = { s with whl.sync := some ⟨some (BitVec.ofNat 40 (beaconTurn s.whl + 2)), none, s.slot, 2⟩ })) ∧
  (metering s = true → r.buf.length = 4 → r.via = .host → cmdDest r s = .own → zerosAt r.buf 0 4 = true →
    exec (.sync r) s = .next (complete (reqWaiter r 0 0x03) statusOk 0 [] (syncRequest false s))) ∧
  (∀ q, s.whl.sync = some q → ends (exec .syncExecute s) (fun t =>
    t.whl.sync = none ∧ t.whl.syncCount = s.whl.syncCount + 1 ∧ t.whl.coast = true ∧ t.pin.syncout = true ∧ t.boot = s.boot ∧
    t.nvs.logQueue.length = s.nvs.logQueue.length + 1)) ∧
  (s.whl.sync = none → exec .syncExecute s = .next s) ∧
  exec .syncoutPulseEnd s = .next { s with pin.syncout := false } ∧
  exec .wheelCoastEnd s = .next { s with whl.coast := false }

/-- A read of WHL_POSLO latches the two stamps together; before FIRED the register reads 0 and nothing is latched (R59,
R401). The three requesters of the clock: a read of the seconds captures the time and freezes it for that requester,
a read of the year shows what was captured and ends the freeze, and so does its expiry, 1 ms after the capture and not
before (R320); at BAR0 the two registers read 0 before FIRED (R401). -/
def Obligations.LatchedReads : Prop :=
  (∀ s : State,
    (s.boot.fired = true → ends (exec .whlPosloRead s) (fun t =>
      t.whl.lposLo = BitVec.ofNat 32 (nowStamp s).wheel.toNat ∧ t.whl.lposHi = BitVec.ofNat 32 ((nowStamp s).wheel.toNat / 2 ^ 32) ∧
      t.whl.lsec = (nowStamp s).sec ∧ t.whl.lfrac = (nowStamp s).frac ∧ t.out = .readVal 0x0C20 t.whl.lposLo :: s.out ∧
      t = { s with whl := t.whl, out := t.out })) ∧
    (s.boot.fired = false →
      exec .whlPosloRead s = .next { s with out := .readVal 0x0C20 0 :: s.out } ∧
      exec (.rtcSecRead 0) s = .next { s with out := .readVal 0x2800 0 :: s.out } ∧
      exec (.rtcYearRead 0) s = .next { s with out := .readVal 0x2818 0 :: s.out })) ∧
  (∀ (who : Nat) (s : State), who < 3 →
    (who ≠ 0 ∨ s.boot.fired = true →
      exec (.rtcSecRead who) s = .next { s with
        rtc.shadows := tput s.rtc.shadows who ⟨s.rtc.s, rtcFrac s, s.slot⟩
        out := .readVal 0x2800 (rtcSecImage s.rtc.s (rtcFrac s)) :: s.out } ∧
      exec (.rtcYearRead who) s = .next { s with
        rtc.shadows := tdel s.rtc.shadows who
        out := .readVal 0x2818 (rtcYearImage (readTime s who).1) :: s.out }) ∧
    (∀ h, tget s.rtc.shadows who = some h → s.slot - h.at_ < msSlots → exec (.rtcFreezeExpiry who) s = .next s) ∧
    (∀ h, tget s.rtc.shadows who = some h → msSlots ≤ s.slot - h.at_ →
      exec (.rtcFreezeExpiry who) s = .next { s with rtc.shadows := tdel s.rtc.shadows who }) ∧
    (tget s.rtc.shadows who = none → exec (.rtcFreezeExpiry who) s = .next s))

/-- Scheduled actions. An armed angle entry fires at its slot-cycle boundary and not before: a CTL entry fires its output,
a CAPTURE entry gives the capture its instant, an EVOUT entry drives its ball in METERING, and a ONCE entry is then no
longer enabled; a manager's beacon entry emits its beacon (R46, R47, R51). An armed RTC entry fires once its instant has
come and not before: a PERIOD entry counts on, a ONCE entry ends (R49). -/
def Obligations.ScheduledActions : Prop := ∀ (n : Nat) (s : State),
  (∀ e, n ≠ 63 → tget s.whl.ang n = some e → e.en = true → s.whl.run = true →
    (fireDue e s = false → exec (.angleActionFire n) s = .next s) ∧
    (fireDue e s = true →
      (e.kind = 1 → exec (.angleActionFire n) s = .next (angFired n e (ctlFire n s))) ∧
      (e.kind = 2 → exec (.angleActionFire n) s = .next (noteCond 1 s.slot (firePos e) (angFired n e s))) ∧
      (e.kind = 3 → metering s = true →
        exec (.angleActionFire n) s = .next (driveBall e.target.toNat true (angFired n e s)))) ∧
    (e.every = false → tget (angFired n e s).whl.ang n = some { e with en := false }) ∧
    (e.every = true → angFired n e s = s)) ∧
  (isManager s = true → s.whl.run = true → fireDue (angShown s 63) s = true →
    exec (.angleActionFire 63) s = .next (emitBeacon s)) ∧
  (∀ e, tget s.whl.rtcAct n = some e → e.armed = true →
    (((2 * rtcTicks s.rtc : Nat) : Int) < rtcInstant s.rtc.s e → exec (.rtcActionFire n) s = .next s) ∧
    (rtcInstant s.rtc.s e ≤ ((2 * rtcTicks s.rtc : Nat) : Int) →
      (e.periodic = true → exec (.rtcActionFire n) s =
        .next { s with whl.rtcAct := tput s.whl.rtcAct n { e with k := e.k + 1, clockSet := false } }) ∧
      (e.periodic = false → exec (.rtcActionFire n) s =
        .next { s with whl.rtcAct := tput s.whl.rtcAct n { e with en := false, clockSet := false } })))

/-- RTC_SET stages a date or a shift and waits for its commit; another is BUSY while one is staged; RTC_COMMIT_GO hands
the staged set to the backup domain (R321, R322). The commit tick brings the staged time and an absolute one clears
RTC_INVALID; out of METERING the set is kept for the restore. A time that does not exist leaves the clock and sets BADDATE
(R322, R413). Before it is handed over, or with the oscillator stopped, a set does not take effect. The tick after
2399-12-31 23:59:59 leads to second 0 with RTC_WRAP set (R319). -/
def Obligations.ClockSetting : Prop :=
  (∀ (r : Req) (s : State), ownRing0 16 r s → zerosAt r.buf 1 3 = true → zerosAt r.buf 14 2 = true →
    (s.rtc.staged = none → s.rtc.invalid = false → rd r.buf 0 1 = 1 → rdI r.buf 4 8 % 2 = 0 → rd r.buf 12 2 = 0 →
      exec (.rtcSet r) s = .next (waitReq (reqWaiter r 0 0x38) { s with
        rtc.staged := some ⟨false, some (reqWaiter r 0 0x38), false⟩, rtc.ofs := BitVec.ofInt 64 (rdI r.buf 4 8) })) ∧
    (s.rtc.staged = none → rd r.buf 0 1 = 0 → rd r.buf 11 1 = 0 → rd r.buf 12 2 % 2 = 0 →
      dateOk (rd r.buf 4 2) (rd r.buf 6 1) (rd r.buf 7 1) (rd r.buf 8 1) (rd r.buf 9 1) (rd r.buf 10 1) = true →
      ends (exec (.rtcSet r) s) (fun t =>
        t.rtc.staged = some ⟨true, some (reqWaiter r 0 0x38), false⟩ ∧ t.rtc.s = s.rtc.s ∧ t.rtc.pre = s.rtc.pre ∧
        t.rtc.stage0 = BitVec.ofNat 32 (rd r.buf 8 1 * 2 ^ 16 + rd r.buf 9 1 * 2 ^ 8 + rd r.buf 10 1) ∧
        t.rtc.stage1 = BitVec.ofNat 32 (rd r.buf 4 2 * 2 ^ 16 + rd r.buf 6 1 * 2 ^ 8 + rd r.buf 7 1) ∧
        t.rtc.stage2 = BitVec.ofNat 32 (rd r.buf 12 2 * 2 ^ 16))) ∧
    (∀ g, s.rtc.staged = some g → rd r.buf 0 1 = 1 → rdI r.buf 4 8 % 2 = 0 → rd r.buf 12 2 = 0 →
      exec (.rtcSet r) s = .next (complete (reqWaiter r 0 0x38) statusBusy 0 [] s))) ∧
  (∀ (g : Staged) (s : State), s.rtc.staged = some g →
    exec .rtcCommitGo s = .next { s with rtc.staged := some { g with go := true }, rtc.cmode := !g.abs } ∧
    (g.go = false ∨ s.rtc.oscRun = false → exec .rtcCommitTick s = .next s) ∧
    (g.go = true → s.rtc.inReset = false → s.rtc.oscRun = true →
      (commitTicks s.rtc g.abs = none → ends (exec .rtcCommitTick s) (fun t =>
        t.rtc = { s.rtc with staged := none, badDate := true })) ∧
      (∀ n, commitTicks s.rtc g.abs = some n → ends (exec .rtcCommitTick s) (fun t =>
        t.rtc.s = n / 32768 ∧ t.rtc.pre = BitVec.ofNat 15 n ∧ t.rtc.staged = none ∧
        t.rtc.invalid = (s.rtc.invalid && !g.abs) ∧ (legalRuns s = false → t.rtc.setPend = true))))) ∧
  (∀ s : State, s.rtc.s + 1 = rtcRange → s.rtc.pre = 0x7FFF → s.rtc.oscRun = true → s.rtc.inReset = false →
    ends (exec .rtcWrap s) (fun t => t.rtc.s = 0 ∧ t.rtc.pre = 0 ∧ t.rtc.wrap = true))

/-- The crystal's stop invalidates the clock at once and its return counts on from the held value with RTC_INVALID set,
each with its record, or without main power marked for the restore (R325); the trim window takes the clamped sum of TRIM
and COMP (R326); COMP follows the temperature (R327). The battery check reports a low battery while it is low (R332);
the square wave's ball takes the level that the time gives, from METERING on while its function drives it (R328). -/
def Obligations.ClockService : Prop :=
  (∀ s : State,
    (s.rtc.oscRun = true → mainPower s = false → ends (exec .oscStop s) (fun t =>
      t.rtc = { s.rtc with oscRun := false, invalid := true, oscStopped := true } ∧ t.flt = s.flt ∧ t.nvs = s.nvs)) ∧
    (s.rtc.oscRun = true → mainPower s = true → bit (getBlk s 10).flive 1 = false → ends (exec .oscStop s) (fun t =>
      t.rtc = { s.rtc with oscRun := false, invalid := true } ∧ latched 10 1 t ∧ s.nvs.logQueue.length < t.nvs.logQueue.length)) ∧
    (s.rtc.oscRun = false → mainPower s = true → ends (exec .oscRun s) (fun t =>
      t.rtc = { s.rtc with oscRun := true } ∧ t.nvs.logQueue.length = s.nvs.logQueue.length + 1)) ∧
    (s.rtc.oscRun = false → mainPower s = false → ends (exec .oscRun s) (fun t =>
      t.rtc = { s.rtc with oscRun := true, oscRan := true } ∧ t.nvs = s.nvs)) ∧
    exec .trimWindow s = .next { s with rtc.a := max (-537) (min 537 (s.rtc.trim.toInt + s.rtc.comp.toInt)),
                                        rtc.winTick := 0, rtc.adjDone := 0 } ∧
    (mainPower s = true →
      let d := s.cal.meas.toInt - (BitVec.ofNat 16 (fld s.rtc.tcomp 31 16)).toInt
      let c := rndAway (((fld s.rtc.tcomp 7 0 : Nat) : Int) * d * d * 4096) 1000000000
      (c ≤ 1023 → exec .tcompUpdate s = .next { s with rtc.comp := BitVec.ofInt 11 c }) ∧
      (1023 < c → ends (exec .tcompUpdate s) (fun t => t = { s with free := t.free, rtc.comp := t.rtc.comp })))) ∧
  (∀ s : State,
    (mainPower s = true → bit (getBlk s 10).flive 2 = false → ends (exec (.vbatCheck true) s) (fun t =>
      t.rtc.vbatLow = true ∧ latched 10 2 t)) ∧
    (mainPower s = true → ends (exec (.vbatCheck false) s) (fun t =>
      t.rtc.vbatLow = false ∧ bit (getBlk t 10).flive 2 = false)) ∧
    (let n := fld s.rtc.sqw 12 8
     (bit s.rtc.sqw 31 = true → (getBall s n).func = fnSQW → metering s = true ∨ s.boot.st = .failstop →
       exec .sqwEdge s = .next (driveBall n (sqwNow s.rtc) { s with rtc.sqwLevel := sqwNow s.rtc })) ∧
     (bit s.rtc.sqw 31 = false ∨ (getBall s n).func ≠ fnSQW ∨ (metering s = false ∧ s.boot.st ≠ .failstop) →
       exec .sqwEdge s = .next s)))

/-- An accepted change of an event input's level on a selected edge enters the FIFO of 16, or is dropped and counted where
it is full; on the other edge only the level is noted (R329, R330). In METERING the oldest entry becomes a record, one at a
time, and dropped events are reported with it (R330, R331). -/
def Obligations.EventInputs : Prop :=
  (∀ (e : Nat) (rising : Bool) (s : State), e < 8 → s.rtc.inReset = false →
    bit s.rtc.evcfg (4 * e + 3) = true → bit s.rtc.evLevel e = !rising →
    let edge := fld s.rtc.evcfg (4 * e + 2) (4 * e + 1)
    let sel := if rising then edge % 2 == 1 else decide (2 ≤ edge)
    (sel = true → s.rtc.fifo.length < 16 → ends (exec (.eventInputEdge e rising) s) (fun t =>
      t = { s with rtc := t.rtc } ∧ t.rtc.evLevel = setBit s.rtc.evLevel e rising ∧
      ∃ x, t.rtc.fifo = s.rtc.fifo ++ [x] ∧ x.input = e ∧ x.rising = rising ∧ x.invalid = s.rtc.invalid ∧ x.backup = !mainPower s)) ∧
    (sel = true → 16 ≤ s.rtc.fifo.length → exec (.eventInputEdge e rising) s =
      .next { s with rtc.evLevel := setBit s.rtc.evLevel e rising, rtc.dropped := satInc s.rtc.dropped }) ∧
    (sel = false → exec (.eventInputEdge e rising) s = .next { s with rtc.evLevel := setBit s.rtc.evLevel e rising })) ∧
  (∀ s : State, metering s = true →
    (∀ e l, s.nvs.logQueue.any (fun r => r.typ == 0x00B0) = false → s.rtc.fifo = e :: l →
      (s.rtc.dropped = 0 → ends (exec .eventFifoDrain s) (fun t =>
        t = { s with nvs := t.nvs } ∧ ∃ x, t.nvs.logQueue = s.nvs.logQueue ++ [x] ∧ x.typ = 0x00B0 ∧ x.stamp.sec = e.sec ∧
          x.stamp.frac = e.frac ∧ x.stamp.wheel = e.wheel)) ∧
      (s.rtc.dropped ≠ 0 → ends (exec .eventFifoDrain s) (fun t => latched 10 3 t ∧ t.rtc = s.rtc))) ∧
    (s.nvs.logQueue.any (fun r => r.typ == 0x00B0) = true → exec .eventFifoDrain s = .next s))

/-- At its first lock the MPLL starts the engine's slots and their grid; on a worker the lock on the ring's clock ends the
wait in FUSE, and a later one moves it to the ring (R33, R69, R101, R397). The loss of the port in use moves the MPLL to the
other port where that carries a clock, else it holds, with RCLK_LOST raised, and in METERING accumulation freezes; a
return ends the holdover; on XTAL a loss of lock raises MPLL_UNLOCK and a new lock ends it (R30, R70). A reference out of
tolerance, or not within it in time in CAL, is a fail-stop (R72, R211). -/
def Obligations.ClockSources : Prop :=
  (∀ s : State, running s = true →
    (s.afe.everLocked = false → ends (exec (.mpllLock false) s) (fun t =>
      t.afe.mpllLock = true ∧ t.afe.everLocked = true ∧ t.dec.run = true ∧ t.dec.gSlot = s.slot ∧ t.boot = s.boot ∧ t.flt = s.flt)) ∧
    (s.afe.everLocked = false → isWorker s = true → s.boot.st = .fuse → ends (exec (.mpllLock true) s) (fun t =>
      t.boot = { s.boot with st := .cal } ∧ t.afe.ringSrc = true ∧ t.dec.run = true ∧ t.dec.gSlot = s.slot)) ∧
    (s.afe.everLocked = true → s.afe.ringSrc = false → isWorker s = true → ends (exec (.mpllLock true) s) (fun t =>
      t.afe.ringSrc = true ∧ t.afe.mpllLock = true ∧ t.dec = s.dec))) ∧
  (∀ (p : Nat) (s : State), p < 2 → s.afe.everLocked = true → s.afe.ringSrc = true →
    (s.afe.hold = false → s.afe.port = (p == 1) → bit s.afe.rclk (1 - p) = true → exec (.rclkLoss p) s =
      .next { s with afe.rclk := setBit s.afe.rclk p false, afe.port := !s.afe.port }) ∧
    (s.afe.hold = false → s.afe.port = (p == 1) → bit s.afe.rclk (1 - p) = false → bit (getBlk s 1).flive 6 = false →
      ends (exec (.rclkLoss p) s) (fun t => t.afe.hold = true ∧ t.afe.mpllLock = false ∧ bit t.afe.rclk p = false ∧
        (metering s = true → t.pnt.frozen = true) ∧ (metering s = false → latched 1 6 t))) ∧
    (s.afe.hold = true ∨ s.afe.port ≠ (p == 1) →
      exec (.rclkLoss p) s = .next { s with afe.rclk := setBit s.afe.rclk p false }) ∧
    (s.afe.hold = true → ends (exec (.rclkReturn p) s) (fun t =>
      t.afe.hold = false ∧ t.afe.mpllLock = true ∧ t.afe.port = (p == 1) ∧ bit (getBlk t 1).flive 6 = false)) ∧
    (s.afe.hold = false → exec (.rclkReturn p) s = .next { s with afe.rclk := setBit s.afe.rclk p true })) ∧
  (∀ s : State, s.afe.everLocked = true → s.afe.ringSrc = false →
    (s.afe.mpllLock = true → bit (getBlk s 1).flive 7 = false → ends (exec .mpllUnlock s) (fun t =>
      t.afe.mpllLock = false ∧ (metering s = true → t.pnt.frozen = true) ∧ (metering s = false → latched 1 7 t))) ∧
    (s.afe.mpllLock = false → ends (exec .mpllRelock s) (fun t =>
      t.afe.mpllLock = true ∧ bit (getBlk t 1).flive 7 = false))) ∧
  (∀ s : State, s.flt.phase = .none →
    (mainPower s = true → s.boot.st ≠ .por → ends (exec .vrefFault s) (fun t =>
      t.afe.vrefOk = false ∧ latched 1 8 t ∧ t.boot.st = .failstop)) ∧
    (s.boot.st = .cal → s.cal.st = .idle → ends (exec .vrefWaitTimeout s) (fun t =>
      t.afe.vrefOk = false ∧ latched 1 8 t ∧ t.boot.st = .failstop)))

/-- The rotating shadow: after its dwell it takes the next enabled channel and keeps the count for the last turn's
judgement; a turn that agrees clears the count of disagreements, one that disagrees counts, the fourth makes the
channel suspect (R73, R74, R75). The self-check of a shadow: its levels are judged turn by turn, a passed check reconnects
it, its record is queued, and once that is written the fade to it begins with SHADOW_SUBST raised; a failed check ends
the sequence; the end of the fade leaves the shadow serving the channel (R75, R76). -/
def Obligations.Shadows : Prop :=
  (∀ (b : Nat) (s : State), b < 3 → (getShadow s b).st = .rotate →
    let x := getShadow s b
    let j := x.mirror.toNat
    (∀ k, x.dwell = 15 → nextMirror s b j = some k → ends (exec (.shadowDwellAdvance b) s) (fun t =>
      (getShadow t b).mirror = BitVec.ofNat 4 k ∧ (getShadow t b).dwell = 0 ∧
      (getShadow t b).disagree = 0 ∧ (getShadow t b).prev = some (x.mirror, x.disagree) ∧ (getShadow t b).st = .rotate)) ∧
    (x.dwell.toNat < 15 → exec (.shadowDwellAdvance b) s = .next s) ∧
    (turnLag s + 2 ≤ x.dwell.toNat → comparable b j s = true →
      (turnAgrees b j s = true →
        exec (.shadowCompareTurn b) s = .next (setShadow b { x with disagree := 0 } s)) ∧
      (turnAgrees b j s = false → x.disagree.toNat < 3 →
        exec (.shadowCompareTurn b) s = .next (setShadow b { x with disagree := x.disagree + 1 } s)) ∧
      (turnAgrees b j s = false → 3 ≤ x.disagree.toNat →
        exec (.shadowCompareTurn b) s = .next (declareSuspect b j true s))) ∧
    (x.dwell.toNat < turnLag s → ∀ m d, x.prev = some (m, d) → comparable b m.toNat s = true →
      turnAgrees b m.toNat s = false → 3 ≤ d.toNat → exec (.shadowCompareTurn b) s = .next (declareSuspect b m.toNat true s)) ∧
    (∀ k now, (getShadow (declareSuspect b k now s) b).st = .selfcheck ∧
      (getShadow (declareSuspect b k now s) b).mirror = BitVec.ofNat 4 k)) ∧
  (∀ (b : Nat) (s : State), b < 3 →
    let x := getShadow s b
    let step := exec (.shadowSelfcheckStep b) s
    (x.st = .selfcheck →
      (x.turn = 1 → step = .next (setShadow b (nextLevel 2 (levelPassed 0 x) x s) s)) ∧
      (x.turn = 2 → step = .next (setShadow b (nextLevel 3 (x.ok && levelPassed 8000 x) x s) s)) ∧
      (x.turn = 3 → x.ok = true → levelPassed (-8000) x = true →
        ends step (fun t => (getShadow t b).st = .reconnect ∧ (getShadow t b).turn = 4)) ∧
      (x.turn = 3 → (x.ok && levelPassed (-8000) x) = false → step = .next (failCheck b s))) ∧
    (x.st = .reconnect →
      (x.turn = 4 → step = .next (writeSubst b 4 x.mirror.toNat (setShadow b { x with turn := 5 } s))) ∧
      (x.turn ≠ 4 → substWritten s b = true → ends step (fun t =>
        (getShadow t b).st = .fade ∧ (getShadow t b).subst = x.mirror ∧ latched 1 1 t)) ∧
      (x.turn ≠ 4 → substWritten s b = false → step = .next s)) ∧
    (x.st = .fade → ends step (fun t => (getShadow t b).st = .substituted ∧ (getShadow t b).subst = x.subst ∧ t.flt = s.flt)) ∧
    (x.st = .rotate → step = .next s))

/-- A stuck modulator is noted once and acted on by its kind: a voltage one stops accumulation with VMOD_STUCK raised, the
channel of a rotating shadow becomes suspect, a rotating shadow is retired, an auxiliary one raises AUX_STUCK; where its
group is being calibrated it waits (R77, R78, R79). The checks of the engine: a coefficient CRC that differs from the
bank's load CRC, a slot overrun and a ROM CRC that differs are fail-stops; a CRC that agrees raises nothing (R113, R114,
R134). -/
def Obligations.FrontEndFaults : Prop :=
  (∀ (m : Nat) (s : State), m < 65 → s.dec.run = true → modOn s m = true →
    let s1 : State := { s with afe.stuck := setBit s.afe.stuck m true }
    (bit s.afe.stuck m = true → exec (.modulatorStuck m) s = .next s) ∧
    (bit s.afe.stuck m = false → groupBusy s (modGroup m) = true →
      exec (.modulatorStuck m) s = .next { s1 with afe.stuckWait := s.afe.stuckWait ++ [m] }) ∧
    (bit s.afe.stuck m = false → groupBusy s (modGroup m) = false →
      (63 ≤ m → ends (exec (.modulatorStuck m) s) (fun t => bit t.afe.stuck m = true ∧ latched 1 5 t)) ∧
      (60 ≤ m → m < 63 → (getShadow s (m - 60)).st = .rotate → exec (.modulatorStuck m) s = .next (retire (m - 60) s1)) ∧
      (12 ≤ m → m < 60 → (getShadow s ((m - 12) / 16)).st = .rotate →
        exec (.modulatorStuck m) s = .next (declareSuspect ((m - 12) / 16) ((m - 12) % 16) false s1)) ∧
      (m < 12 → bit (getBlk s 1).flive 4 = false → ends (exec (.modulatorStuck m) s) (fun t =>
        bit t.afe.stuck m = true ∧ (metering s = true → t.pnt.frozen = true) ∧ (metering s = false → latched 1 4 t))))) ∧
  (∀ (n : Nat) (s : State), s.flt.phase = .none →
    (∀ u, n < 69 → bankCrc (upsetBank u (getPair s n).old) ≠ (if (getPair s n).active then (getPair s n).crcB else (getPair s n).crcA) →
      ends (exec (.coefCrcCheck n (some u)) s) (fun t => latched 2 2 t ∧ t.boot.st = .failstop)) ∧
    (bankCrc (getPair s n).old = (if (getPair s n).active then (getPair s n).crcB else (getPair s n).crcA) → n < 69 →
      ends (exec (.coefCrcCheck n none) s) (fun t => getPair t n = getPair s n ∧ t = { s with dec := t.dec })) ∧
    ends (exec (.slotOverrun n) s) (fun t => latched 2 0 t ∧ t.boot.st = .failstop) ∧
    ends (exec (.rsRomCrcCheck true) s) (fun t => latched 4 0 t ∧ t.boot.st = .failstop) ∧
    exec (.rsRomCrcCheck false) s = .next s)

/-- The trip comparators. One that has been asserted on as many slot clocks as its qualifier asks sets its ASSERTED and SRC
bits and the level of each TRIPn it maps to; on fewer, or not enabled, it changes nothing (R81, R82, R83). A release clears
ASSERTED and leaves SRC and every latched TRIPn. The end of the stretch lets an unlatched level fall; an accepted
configuration takes effect as a whole (R83, R87). TRIP_CLEAR clears the latches of its mask whose comparators have
released, and leaves the others (R83, R357). -/
def Obligations.TripComparators : Prop := ∀ (k : Nat) (s : State), k < 48 →
  (∀ samples, tripEn s.afe.trip k = true → fld (tripCfgOf s.afe.trip k) 26 24 ≤ samples →
    ends (exec (.tripComparatorAssert k samples) s) (fun t =>
      bit t.afe.asserted k = true ∧ bit t.afe.src k = true ∧
      (∀ n, n < 16 → bit (tripMap s.afe.trip k) n = true → bit t.afe.level n = true) ∧ t.boot = s.boot ∧ t.pnt = s.pnt)) ∧
  (∀ samples, tripEn s.afe.trip k = false ∨ samples < fld (tripCfgOf s.afe.trip k) 26 24 →
    exec (.tripComparatorAssert k samples) s = .next s) ∧
  ends (exec (.tripComparatorRelease k) s) (fun t =>
    bit t.afe.asserted k = false ∧ t.afe.src = s.afe.src ∧ (∀ n, n < 16 → bit s.afe.latched n = true → bit t.afe.latched n = true)) ∧
  (∀ n, n < 16 → bit s.afe.trip.latch n = false → tripOr s n = false → bit s.afe.latched n = false →
    ends (exec (.tripStretchEnd n) s) (fun t => bit t.afe.stretch n = false ∧ bit t.afe.level n = false)) ∧
  (∀ c, s.afe.tripNext = some c → ends (exec .tripConfigApply s) (fun t =>
    t.afe.trip = c ∧ t.afe.tripNext = none ∧ (tripEn c k = false → bit t.afe.asserted k = false))) ∧
  (s.afe.tripNext = none → exec .tripConfigApply s = .next s) ∧
  (∀ r, ownRing0 4 r s → rd r.buf 0 2 ≠ 0 → zerosAt r.buf 2 2 = true → exec (.tripClear r) s =
    .next (complete (reqWaiter r 0 0x04) statusOk 0 [] (tripClear (BitVec.ofNat 16 (rd r.buf 0 2)) s))) ∧
  (∀ (mask : W16) (n : Nat), n < 16 →
    (tripClear mask s).afe.src = s.afe.asserted ∧
    (bit mask n = true → tripOr s n = false → bit (tripClear mask s).afe.latched n = false) ∧
    (bit mask n = false → bit s.afe.latched n = true → bit (tripClear mask s).afe.latched n = true))

/-- An accepted channel record, once it is written and its group is not held by a calibration, takes effect as a whole: the
front end's configuration and the channel's calibration in both datapaths, and the record before stays for the turn that is
still to be accounted (R87, R139, R155). An accepted point definition, once it is written, takes effect with a new generation and
its record queued; the accumulators stand, and its open interval is marked (R138, R155, R158). One whose record is not written yet
waits (R138, R139). -/
def Obligations.DefinitionsTakeEffect : Prop :=
  (∀ (c : Nat) (x : ChanRec) (s : State), c < 60 → tget s.pnt.chanNext c = some x →
    (unwritten s (nvKey .channel c) = false → (s.cal.held && s.cal.group.toNat == modGroup c) = false →
      ends (exec (.chanCalEffect c) s) (fun t =>
        t.pnt.chanNext = tdel s.pnt.chanNext c ∧ tget t.pnt.chan c = some x ∧ tget t.pnt.chanB c = some x ∧
        t.afe.chan = cfgSet c x.setup s.afe.chan ∧ (tget t.pnt.chanWas c).map (·.2.1) = some (getChan s c)) ∧
      (s.pnt.chanNext = [(c, x)] → exec .channelConfigApply s = exec (.chanCalEffect c) s)) ∧
    (unwritten s (nvKey .channel c) = true → exec (.chanCalEffect c) s = .next s)) ∧
  (∀ (p : Nat) (d : PDef) (s : State), (getPt s p).next = some d →
    (unwritten s (nvKey .pointDef p) = false → ends (exec (.pointDefEffect p) s) (fun t =>
      (getPt t p).dfn = asDef d ∧ (getPt t p).dfnB = asDef d ∧ (getPt t p).next = none ∧ (getPt t p).gen = (getPt s p).gen + 1 ∧
      (getPt t p).accA = (getPt s p).accA ∧ (getPt t p).accB = (getPt s p).accB ∧
      (tgetD t.trf.ints p Init.intSt).flags = setBit (tgetD s.trf.ints p Init.intSt).flags 8 true ∧
      t.nvs.logQueue.length = s.nvs.logQueue.length + 1 ∧
      t = { s with pnt := t.pnt, nvs := t.nvs, trf := t.trf })) ∧
    (unwritten s (nvKey .pointDef p) = true → exec (.pointDefEffect p) s = .next s))

/-- The streams: eight modulator bits make one coarse sample, an integrator reset forces OVR for 1,024 bits, a coarse RMS
block shows its result and starts afresh, with a changed length at a boundary of it, a changed tap entry is disturbed (R62,
R93, R94, R98, R115). An aligned sample is written once every slot holds the fine sample four beyond it, and not before; a
wheel sample once eight aligned samples lie beyond its index, and after sample 255 the turn is whole (R117, R126). -/
def Obligations.StreamsAndSamples : Prop :=
  (∀ (m : Nat) (s : State), m < 65 → s.dec.run = true →
    (∀ bits, ends (exec (.coarseSample m bits) s) (fun t =>
      (getStrm t m).nC = (getStrm s m).nC + 1 ∧ t.dec.run = true ∧ t.dec.gSlot = s.dec.gSlot ∧ t.nvs.recs = s.nvs.recs ∧ t.trf = s.trf ∧ t.crd = s.crd)) ∧
    exec (.integratorReset m) s = .next (setStrm m { getStrm s m with forced := 1024 } s) ∧
    ((getStrm s m).rmsL ≤ (getStrm s m).rmsCnt → ends (exec (.coarseRmsBlock m) s) (fun t =>
      (getStrm t m).rms = crmsImage (getStrm s m) ∧ (getStrm t m).rmsCnt = 0 ∧ (getStrm t m).rmsS = 0 ∧
      ((getStrm s m).nC % crmsLen s.dec.crmscfg = 0 → (getStrm t m).rmsL = crmsLen s.dec.crmscfg) ∧
      t = { s with dec := t.dec })) ∧
    ((getStrm s m).rmsCnt < (getStrm s m).rmsL → exec (.coarseRmsBlock m) s = .next s)) ∧
  (∀ (sel : List W32) (s : State), s.dec.tapNext = some sel → ends (exec .tapConfigApply s) (fun t =>
    t.dec.tapsel = sel ∧ t.dec.tapNext = none ∧ t = { s with dec := t.dec } ∧
    (∀ e, e < 12 → tapByte s.dec.tapsel e ≠ tapByte sel e → getTap t e = ⟨0, [], some s.slot, false⟩) ∧
    (∀ e, e < 12 → tapByte s.dec.tapsel e = tapByte sel e → getTap t e = getTap s e))) ∧
  (∀ s : State,
    (s.dec.run = true → (List.range 63).any (fun m => (getStrm s m).fineN < s.pnt.alN + 1 + 4) = false →
      ends (exec .alignedSampleWrite s) (fun t =>
        t.pnt.alN = s.pnt.alN + 1 ∧ t = { s with pnt := t.pnt } ∧
        (∀ m, m < 63 → (getWs t m).al.head? = some (alignedOf s m (s.pnt.alN + 1)).1))) ∧
    ((List.range 63).any (fun m => (getStrm s m).fineN < s.pnt.alN + 1 + 4) = true → exec .alignedSampleWrite s = .next s) ∧
    (∀ u rest, s.pnt.rs = u :: rest →
      (s.pnt.rsK ≠ 255 → 8 ≤ rsAhead s (rsIndex u s.pnt.rsK).1 → ends (exec .wheelSampleWrite s) (fun t =>
        t.pnt.rsK = s.pnt.rsK + 1 ∧ t.pnt.lastTurn = u.turn ∧ t.pnt.lastK = BitVec.ofNat 8 s.pnt.rsK ∧ t.pnt.turnDone = s.pnt.turnDone)) ∧
      (s.pnt.rsK = 255 → 8 ≤ rsAhead s (rsIndex u 255).1 → ends (exec .wheelSampleWrite s) (fun t =>
        t.pnt.rs = rest ∧ t.pnt.rsK = 0 ∧ t.pnt.lastTurn = u.turn ∧ t.pnt.lastK = 255 ∧
        t.pnt.turnDone.map (·.turn) = some u.turn)) ∧
      (rsAhead s (rsIndex u s.pnt.rsK).1 < 8 → exec .wheelSampleWrite s = .next s)))

/-- Coefficient pairs: an armed pair starts its fade at the boundary, or is deferred where a modulator that feeds it is
isolated; once every stream has passed the fade's last step the banks change places, and a queued set is armed; not before
(R110, R111, R112, R114). COEF_SWAP of the tap's inline set, or of a stored F3 set with coefficient sum 2^23, arms its pair
and completes OK; an accepted request of a fading pair waits in its queue (R108, R109, R111). -/
def Obligations.Coefficients : Prop :=
  (∀ (i : Nat) (s : State), i < 69 →
    let p := getPair s i
    (p.armed = true → p.fading = false →
      (feedIsolated s i = false → ends (exec (.coefFadeStart i) s) (fun t =>
        (getPair t i).fading = true ∧ (getPair t i).armed = false ∧ (getPair t i).at_ = s.slot ∧ (getPair t i).active = p.active)) ∧
      (feedIsolated s i = true → ends (exec (.coefFadeStart i) s) (fun t =>
        (getPair t i).deferred = true ∧ (getPair t i).fading = false ∧ (getPair t i).armed = true ∧ t = { s with dec := t.dec }))) ∧
    (p.armed = false ∨ p.fading = true → exec (.coefFadeStart i) s = .next s) ∧
    (p.fading = true → fadeOver i s = true → ends (exec (.coefFadeEnd i) s) (fun t =>
      (getPair t i).active = !p.active ∧ (getPair t i).fading = false ∧ (getPair t i).queued = none ∧
      (getPair t i).armed = (p.armed || p.queued.isSome) ∧ t.dec.fades = s.dec.fades + 1 ∧ t = { s with dec := t.dec })) ∧
    (p.fading = true → fadeOver i s = false → exec (.coefFadeEnd i) s = .next s) ∧
    (p.deferred = true → ends (exec (.fadeDeferred i) s) (latched 2 3)) ∧
    (∀ b, p.fading = true → getPair (armPair i b s) i = { p with queued := some b }) ∧
    (∀ b, p.fading = false → (getPair (armPair i b s) i).armed = true)) ∧
  (∀ (r : Req) (s : State), metering s = true → cmdDest r s = .own → rd r.buf 1 1 ≤ 4 → rd r.buf 3 1 ≤ 7 →
    (let c := (List.range 47).map (fun i => rdI r.buf (12 + 4 * i) 4)
     200 ≤ r.buf.length → rd r.buf 0 1 = 1 → rd r.buf 1 1 = 0 → rd r.buf 2 1 = 0 → rd r.buf 4 2 = 47 →
     crcOk r.buf 8 ((r.buf.drop 12).take 188) = true → coefRange c = true →
     exec (.coefSwap r) s = .next (complete (reqWaiter r 0 0x14) statusOk 0 [] (armPair 5 (some (c, 0xF, 0)) s))) ∧
    (∀ c, 12 ≤ r.buf.length → rd r.buf 0 1 = 0 → rd r.buf 2 1 = 1 → rd r.buf 4 2 = 0 → rd r.buf 8 4 = 0 →
     f3Stored s (rd r.buf 3 1) = some c → coefRange c = true → f3Sum c = 8388608 →
     exec (.coefSwap r) s = .next (complete (reqWaiter r 0 0x14) statusOk 0 []
       (armPair (rd r.buf 1 1) (some (c, BitVec.ofNat 4 (rd r.buf 3 1), 0)) s))))

/-- Ring 0 commands whose record goes to the store: where every check of the command passes, PROT allows the write and no
freeze of R14 stands, the record joins the commit queue in two copies, the request completes OK when the second is committed, and
the command's setting is taken over (R137, R139, R141, R162, R187, R194, R290). A stored command whose write PROT forbids
is refused DENIED, counted in REFUSED with PROT_REFUSED raised, and sets nothing (R302). -/
def Obligations.StoredCommands : Prop :=
  (∀ (r : Req) (s : State), gasped s = false →
    let b := r.buf
    let w (op : Byte) : Waiter := reqWaiter r 0 op
    (ownRing0 16 r s → crcOk b 12 (b.take 12) = true → chanBad b = false →
      let c := rd b 0 1
      let x := chanRecOf b
      (bit x.setup 7 = true ∨ cfgEn s.afe.chanNext c = false ∨
        s.pnt.pts.any (fun p => (p.2.dfn.any (usesChan · c)) || (p.2.next.any (usesChan · c))) = false) →
      (x.adj = (chanNextOf s c).adj ∨ pfBusy s c = false) → writeForbidden s (nvKey .channel c) = false →
      ends (exec (.chanCal r) s) (fun t =>
        t.pnt.chanNext = tput s.pnt.chanNext c x ∧ t.afe.chanNext = cfgSet c x.setup s.afe.chanNext ∧
        t.nvs.groups = (commitRec (nvKey .channel c) (.bytes b) 1 (some (w 0x10, statusOk)) s).nvs.groups ∧
        t.nvs.recs = s.nvs.recs ∧ (x.adj = (chanNextOf s c).adj → t.dec = s.dec))) ∧
    (ownRing0 32 r s → crcOk b 28 (b.take 28) = true → pdefBad b = false →
      (pdefOf b).legs.any (fun l => !cfgEn s.afe.chanNext l.v || !cfgEn s.afe.chanNext (iIdx l.i)) = false →
      dupCurrent (pdefOf b).legs = false → writeForbidden s (nvKey .pointDef (rd b 0 1)) = false →
      exec (.pointDef r) s = .next (waitReq (w 0x11) (commitRec (nvKey .pointDef (rd b 0 1)) (.bytes b) 1 (some (w 0x11, statusOk))
        (setPt (rd b 0 1) { getPt s (rd b 0 1) with next := some (pdefOf b) } s)))) ∧
    (ownRing0 200 r s → crcOk b 4 (b.drop 8) = true → 1 ≤ rd b 0 1 → rd b 0 1 ≤ 7 → zerosAt b 1 3 = true →
      coefRange ((List.range 48).map (fun i => rdI b (8 + 4 * i) 4)) = true →
      f3Sum ((List.range 48).map (fun i => rdI b (8 + 4 * i) 4)) = 8388608 → writeForbidden s (nvKey .f3set (rd b 0 1)) = false →
      exec (.f3Store r) s = .next (waitReq (w 0x12)
        (commitRec (nvKey .f3set (rd b 0 1)) (.bytes b) 1 (some (w 0x12, statusOk)) s))) ∧
    (ownRing0 16 r s → crcOk b 12 (b.take 12) = true → cfBad b = false →
      let n := rd b 0 1
      let c := cfWord b
      (cfEn c = true → (getPt s (cfPoint c)).dfn.isSome = true ∧ claimOk s (cfBall c) fnCF n = true ∧
        ((getCf s n).gen.isSome = true ∨ (freeGen s).isSome = true)) →
      writeForbidden s (cfKey n) = false →
      exec (.cfCfg r) s = .next (waitReq (w 0x13) (commitDone (cfKey n) (.bytes b) 1
        (some (w 0x13, statusOk)) (some (.cf n)) (cfAccept n c (BitVec.ofNat 32 (rd b 4 4)) s)))) ∧
    (ownRing0 32 r s → capBad s b = false → s.pq.cap.state = 0 ∨ s.pq.cap.owner.toNat ≠ rd b 0 1 →
      writeForbidden s (capKey (rd b 0 1)) = false →
      exec (.capCfg r) s = .next (waitReq (w 0x21) (commitRec (capKey (rd b 0 1)) (.bytes b) 1 (some (w 0x21, statusOk))
        { s with pq.reqs := tput s.pq.reqs (rd b 0 1) (capReqOf b) }))) ∧
    (ownRing0 48 r s → subBad b = false → writeForbidden s (subKey (rd b 0 1)) = false →
      let n := rd b 0 1
      exec (.pqSubscribe r) s = .next (waitReq (w 0x20) (commitRec (subKey n) (.bytes b) 1 (some (w 0x20, statusOk))
        { s with pq := { s.pq with subs := tput s.pq.subs n (subOf b), subWas := tput s.pq.subWas n (s.slot, getSub s n) } })))) ∧
  (∀ (r : Req) (s : State), ownRing0 200 r s →
    crcOk r.buf 4 (r.buf.drop 8) = true → 1 ≤ rd r.buf 0 1 → rd r.buf 0 1 ≤ 7 → zerosAt r.buf 1 3 = true →
    coefRange ((List.range 48).map (fun i => rdI r.buf (8 + 4 * i) 4)) = true →
    f3Sum ((List.range 48).map (fun i => rdI r.buf (8 + 4 * i) 4)) = 8388608 → writeForbidden s (nvKey .f3set (rd r.buf 0 1)) = true →
    exec (.f3Store r) s = .next (complete (reqWaiter r 0 0x12) statusDenied 0 [] (protRefuse s))) ∧
  (∀ (key : Nat) (v : NvVal) (pages : Nat) (w : Waiter) (f : State → State) (s : State), writeForbidden s key = true →
    writeCmd key v pages w f s = .fail statusDenied (protRefuse s) ∧
    (protRefuse s).nvs.refused = satInc s.nvs.refused ∧ (protRefuse s).nvs.groups = s.nvs.groups ∧ latched 9 8 (protRefuse s) ∧
    (protRefuse s).nvs.recs = s.nvs.recs ∧ (protRefuse s).pnt = s.pnt)

/-- A whole turn is accounted once: it is taken out of the schedule, and one that does not accumulate, or that a freeze
stopped, feeds nothing (R152, R153, R163). Pulses: a pending pulse starts where 0.5 ms and twice the high time have passed since
the one before, drives the ball active and ends inactive; a changed output, once it is written, takes effect between pulses (R164,
R165). A parity check of the held copies that fails is a fail-stop (R167). -/
def Obligations.AccountingAndPulses : Prop :=
  (∀ (u : RsTurn) (s : State), s.pnt.turnDone = some u →
    (u.live = true → metering s = true → s.pnt.frozen = false →
      exec .turnAccount s = .next (accountTurn u { s with pnt.turnDone := none })) ∧
    (u.live = false ∨ metering s = false ∨ s.pnt.frozen = true →
      exec .turnAccount s = .next (cfStop { s with pnt.turnDone := none }))) ∧
  (∀ (n : Nat) (s : State), n < 8 →
    let x := getCf s n
    let gap := x.started.map (fun t => s.slot - t)
    (x.live = true → x.high = false → 0 < x.pend → gap.any (fun g => g < 12288 || g < 2 * x.lastHigh) = false →
      ends (exec (.cfPulseStart n) s) (fun t =>
        (getCf t n).pend = x.pend - 1 ∧ (getCf t n).high = true ∧ (getCf t n).started = some s.slot ∧ (getCf t n).acc = x.acc ∧
        (getBall t (cfBall x.cfg)).drive = true ∧ (getBall t (cfBall x.cfg)).lvl = cfLevel x.cfg true ∧
        t = { s with pnt := t.pnt, pin := t.pin })) ∧
    (x.live = false ∨ x.high = true ∨ x.pend = 0 ∨ gap.any (fun g => g < 12288 || g < 2 * x.lastHigh) = true →
      exec (.cfPulseStart n) s = .next s) ∧
    (x.high = true → ends (exec (.cfPulseEnd n) s) (fun t =>
      (getCf t n).high = false ∧ (getCf t n).pend = x.pend ∧ (getBall t (cfBall x.cfg)).lvl = cfLevel x.cfg false)) ∧
    (∀ w k, x.high = false → x.next = some (w, k) → unwritten s (cfKey n) = false → ends (exec (.cfCfgEffect n) s) (fun t =>
      (getCf t n).cfg = w ∧ (getCf t n).const = k ∧ (getCf t n).next = none ∧ (getCf t n).live = cfEn w)) ∧
    (x.next.isSome = true → x.high = true ∨ unwritten s (cfKey n) = true → exec (.cfCfgEffect n) s = .next s) ∧
    (s.flt.phase = .none → ends (exec (.kappaCheck true) s) (fun t => latched 4 3 t ∧ t.boot.st = .failstop)) ∧
    exec (.kappaCheck false) s = .next s)

/-- The auxiliary multiplexers: after its dwell an input with unflagged samples gives a reading, a scan moves to the next
listed input with SETTLING, and the samples are counted afresh; before, and with the multiplexer off, nothing changes;
settling ends, and a configuration takes effect as a whole (R66, R67, R87, R161). -/
def Obligations.AuxiliaryInputs : Prop := ∀ (a : Nat) (s : State), a < 2 →
  (let m := getMux s a
   let s1 := if 0 < m.cnt then auxReading a s else s
   let nx := axNextIn (axList s a) m.cur.toNat
   let fresh (u : State) : State := setMux a { getMux u a with sum := 0, cnt := 0, ovr := false, cal := false, n := 0 } u
   (axMode s.afe.axcfg a ≠ 0 → axDwell s a ≤ m.n →
     (axMode s.afe.axcfg a = 2 → nx ≠ m.cur.toNat → exec (.auxDwellEnd a) s = .next (muxSwitch a nx s1)) ∧
     (axMode s.afe.axcfg a ≠ 2 ∨ nx = m.cur.toNat → exec (.auxDwellEnd a) s = .next (fresh s1))) ∧
   (axMode s.afe.axcfg a = 0 ∨ m.n < axDwell s a → exec (.auxDwellEnd a) s = .next s) ∧
   ((auxReading a s).pnt.seq = s.pnt.seq + 1 ∧ ∃ x, (auxReading a s).pnt.ax = tput s.pnt.ax (8 * a + m.cur.toNat) x)) ∧
  exec (.auxSettlingEnd a) s = .next (setMux a { getMux s a with settle := false } s) ∧
  (∀ c l0 l1, s.afe.axNext = some (c, l0, l1) → ends (exec .auxConfigApply s) (fun t =>
    t.afe.axcfg = c ∧ t.afe.axscan0 = l0 ∧ t.afe.axscan1 = l1 ∧ t.afe.axNext = none ∧ t = { s with afe := t.afe } ∧
    (axMode c a = 1 → axMode s.afe.axcfg a ≠ 1 →
      (getMux t a).cur = BitVec.ofNat 3 (axSel c a) ∧ (getMux t a).settle = true))) ∧
  (s.afe.axNext = none → exec .auxConfigApply s = .next s)

/-- Captures: an enabled request is armed, its trigger or a command starts the filling, the end of the filling starts the
delivery, and a release returns to IDLE; a request while another is in use is BUSY and counted, a condition of a request
that is not armed is missed (R195, R196, R197). The raw stream starts, stops with its empty buffers returned, and takes
buffers (R359). -/
def Obligations.CapturesAndStream : Prop :=
  (∀ (r : Req) (s : State), ownRing0 4 r s → capCmdBad s r.buf = false →
    let n := rd r.buf 0 1
    let w (op : Byte) : Waiter := reqWaiter r 0 op
    (s.pq.cap.state = 0 → exec (.capArm r) s = .next (complete (w 0x22) statusOk 0 [] (capArmed n s))) ∧
    (s.pq.cap.state ≠ 0 → exec (.capArm r) s =
      .next (complete (w 0x22) statusBusy 0 [] { s with pq.cap.busy := satInc s.pq.cap.busy })) ∧
    (s.pq.cap.state = 0 →
      exec (.capTrigger r) s = .next (complete (w 0x23) statusOk 0 [] (capCommandFire (capSeed (capArmed n s))))) ∧
    (s.pq.cap.state = 1 → s.pq.cap.owner.toNat = n →
      exec (.capTrigger r) s = .next (complete (w 0x23) statusOk 0 [] (capCommandFire s))) ∧
    (s.pq.cap.state ≠ 0 → s.pq.cap.owner.toNat = n → ends (exec (.capRelease r) s) (fun t =>
      t.pq.cap.state = 0 ∧ t.pq.cap.segs = [] ∧ t.pq.cap.missed = s.pq.cap.missed ∧ t.pq.reqs = s.pq.reqs))) ∧
  (∀ s : State, (capCommandFire s).pq.cap.state = 2 ∧ (capCommandFire s).pq.cap.number = s.pq.cap.number + 1) ∧
  (∀ (n : Nat) (s : State), n < 8 → (getReq s n).en = true → (getReq s n).trigger ≠ 0 →
    (∀ t p, s.pq.cap.state = 1 → s.pq.cap.owner.toNat = n → tget s.pq.cand (getReq s n).trigger.toNat = some (t, p) →
      exec (.captureTrigger n) s = .next (capFire t p s)) ∧
    (s.pq.cap.state ≠ 1 ∨ s.pq.cap.owner.toNat ≠ n →
      exec (.captureTrigger n) s = .next { s with pq.cap.missed := satInc s.pq.cap.missed })) ∧
  (∀ s : State, s.pq.cap.state = 2 →
    s.pq.cap.stop.isSome = true ∨ (∀ c, c < 64 → bit (capOwner s).cmask c = true →
      postDone s.pq.cap.trig (capOwner s).post.toNat (tgetD s.pq.cap.ch c []) = true) →
    exec .captureFillEnd s = .next (capDeliver s)) ∧
  (∀ (r : Req) (s : State), metering s = true →
    (r.buf.length = 16 → rd r.buf 0 1 ≤ 3 → zerosAt r.buf 1 7 = true → maskOk s (rd r.buf 0 1) (BitVec.ofNat 64 (rd r.buf 8 8)) = true →
      popCount (BitVec.ofNat 64 (rd r.buf 8 8)) * wordLen (rd r.buf 0 1) * srcRate s (rd r.buf 0 1) ≤ 8000000 →
      s.hif.stream.run = false → ends (exec (.streamStart r) s) (fun t =>
        t.hif.stream.run = true ∧ t.hif.stream.source = rd r.buf 0 1 ∧ t.hif.stream.mask = BitVec.ofNat 64 (rd r.buf 8 8) ∧
        t.hif.stream.block = 0 ∧ t.hif.stream.gap = false ∧ t.hif.stream.store = [])) ∧
    (r.buf.length = 4 → zerosAt r.buf 0 4 = true → s.hif.stream.run = true → ends (exec (.streamStop r) s) (fun t =>
      t.hif.stream.run = false ∧ t.hif.stream.stopAt = some r.slot ∧ (getRing t 15).bufs = [])) ∧
    (64 + max 1 (instLen s.hif.stream) ≤ r.buf.length →
      ends (exec (.streamBuf r) s) (fun t => t.hif.stream.run = s.hif.stream.run ∧ t.pnt = s.pnt ∧ t.nvs = s.nvs) ∧
      (r.via = .host → (getRing s 15).bufs = [] → s.hif.stream.run = true → s.hif.stream.store = [] →
        ends (exec (.streamBuf r) s) (fun t => (getRing t 15).bufs = [⟨r.slot, r.tag, r.irq, r.buf.length, []⟩]))))

/-- The record of CAP_ARM, CAP_TRIGGER and CAP_RELEASE: another length completes BAD_LENGTH, a request above 7 or a
nonzero reserved byte RANGE (R358). -/
def Obligations.CaptureRecordForm : Prop := ∀ (r : Req) (s : State), metering s = true →
  (r.buf.length ≠ 4 →
    exec (.capArm r) s = .next (complete (reqWaiter r 0 0x22) statusBadLength 0 [] s) ∧
    exec (.capTrigger r) s = .next (complete (reqWaiter r 0 0x23) statusBadLength 0 [] s) ∧
    exec (.capRelease r) s = .next (complete (reqWaiter r 0 0x24) statusBadLength 0 [] s)) ∧
  (r.buf.length = 4 → cmdDest r s = .own → 7 < rd r.buf 0 1 ∨ zerosAt r.buf 1 3 = false →
    exec (.capArm r) s = .next (complete (reqWaiter r 0 0x22) statusRange 0 [] s) ∧
    exec (.capTrigger r) s = .next (complete (reqWaiter r 0 0x23) statusRange 0 [] s) ∧
    exec (.capRelease r) s = .next (complete (reqWaiter r 0 0x24) statusRange 0 [] s))

/-- Power quality: a whole or shortened window is analysed, counted, and the next begins afresh, and before its end nothing
is analysed (R169, R170); a tap's window of 1,920 samples is taken out, also in a freeze (R176); at wheel samples 0 and
128 of a turn every enabled voltage channel shows its half-cycle value (R190); a changed configuration takes effect at a turn
boundary (R192, R200). -/
def Obligations.QualityWindows : Prop := ∀ s : State,
  (s.pq.win.active = true → (winTurns s ≤ s.pq.win.turns ∨ s.pq.win.short = true) → ends (exec .harmonicWindowAnalyse s) (fun t =>
    t.pq.win = Init.hwin ∧ t.pq.winCount = s.pq.winCount + 1 ∧ t.pnt = s.pnt ∧ t.trf = s.trf ∧ t.nvs.recs = s.nvs.recs)) ∧
  (s.pq.win.active = false ∨ (s.pq.win.turns < winTurns s ∧ s.pq.win.short = false) → exec .harmonicWindowAnalyse s = .next s) ∧
  (∀ n, n < 12 → tapEn s n = true → 1920 ≤ (getTap s n).smps.length → metering s = true →
    ends (exec (.supraWindowAnalyse n) s) (fun t => (getTap t n).smps = [] ∧ t.pnt = s.pnt ∧ t.nvs.recs = s.nvs.recs)) ∧
  (∀ u k, newestTurn s = some (u, k) → k = 0 ∨ k = 128 → u.live = true → 256 ≤ (getWs s 0).prev.length →
    ends (exec .halfCycleRms s) (fun t => t = { s with pq := t.pq, nvs := t.nvs } ∧
      (∀ c, c < 12 → chanEn s c = true → tget t.pq.hc c =
        some (BitVec.ofNat 32 (bitAt (decide (s.pnt.holdAge < 256)) 31 + bitAt (bit (halfRms s u.turn c).2 flOvr) 30 +
          min (halfRms s u.turn c).1 (2 ^ 30 - 1)))) ∧
      (∀ c, c < 12 → chanEn s c = false → tget t.pq.hc c = tget s.pq.hc c))) ∧
  (∀ c u t0 t1, s.pq.next = some (c, u, t0, t1) → ends (exec .pqConfigApply s) (fun t =>
    t.pq.cfg = c ∧ t.pq.udin = u ∧ t.pq.thr0 = t0 ∧ t.pq.thr1 = t1 ∧ t.pq.next = none ∧ t = { s with pq := t.pq })) ∧
  (s.pq.next = none → exec .pqConfigApply s = .next s)

/-- Power-up calibration: it starts once the reference and the lock stand, on all groups at once; an attempt ends when
every modulator still to be measured has its levels, not before; a plausible modulator ends its group, else a
retry follows after a gap, and after the fourth attempt the modulator is rejected with CAL_REJECT (R208, R209, R210,
R211). The trims follow the temperature in steps of 0.5 °C, and a group's changed codes are written together, but not
while its calibration withholds them (R203, R206). -/
def Obligations.PowerUpCalibration : Prop := ∀ s : State,
  (∀ th, s.boot.st = .cal → s.cal.st = .idle → s.afe.vrefOk = true → s.afe.mpllLock = true → s.afe.hold = false →
    ends (exec (.powerupCalStart th) s) (fun t =>
      t.cal.st = .powerup ∧ t.cal.used = th ∧ t.cal.timer = true ∧ t.cal.isol = true ∧ t.cal.rejected = false)) ∧
  (∀ g m, g < 8 → s.cal.st = .powerup → (getGrp s g).done = false → (getGrp s g).gap = false → (getGrp s g).todo = [m] →
    let j := judgeCal (getCalMod s m)
    ((getCalMod s m).lvl < 3 → exec (.powerupCalAttemptEnd g) s = .next s) ∧
    (3 ≤ (getCalMod s m).lvl →
      (j.ok = true → ends (exec (.powerupCalAttemptEnd g) s) (fun t =>
        (getGrp t g).done = true ∧ (getGrp t g).todo = [] ∧ getCalMod t m = j ∧ t = { s with cal := t.cal })) ∧
      (j.ok = false → (getGrp s g).attempt < 3 → ends (exec (.powerupCalAttemptEnd g) s) (fun t =>
        (getGrp t g).gap = true ∧ (getGrp t g).done = false ∧ (getGrp t g).todo = [m] ∧ t.cal.rej = s.cal.rej)) ∧
      (j.ok = false → 3 ≤ (getGrp s g).attempt → ends (exec (.powerupCalAttemptEnd g) s) (fun t =>
        (getGrp t g).done = true ∧ t.cal.rej = setBit s.cal.rej m true ∧ t.cal.rejected = true ∧
        (s.cal.rejected = false → latched 6 0 t))))) ∧
  (∀ g, g < 8 → (getGrp s g).gap = true → ends (exec (.calRetryStart g) s) (fun t =>
    (getGrp t g).gap = false ∧ (getGrp t g).attempt = (getGrp s g).attempt + 1 ∧ (getGrp t g).todo = (getGrp s g).todo ∧
    t.cal.st = (if s.cal.st = .gap then .measure else s.cal.st) ∧ t = { s with cal := t.cal })) ∧
  (∀ g, (getGrp s g).gap = false → exec (.calRetryStart g) s = .next s) ∧
  (∀ meas, s.cal.timer = true → ends (exec (.tempTrimTick meas) s) (fun t => t.cal.meas = meas ∧ t.cal.mods = s.cal.mods ∧
    t.cal.used = (if 8 ≤ (meas.toInt - s.cal.used.toInt).natAbs then meas else s.cal.used) ∧ t = { s with cal := t.cal })) ∧
  (∀ g, s.cal.trimDue.contains g = true → trimHeld s g = false → ends (exec (.trimWrite g) s) (fun t =>
    t.cal.trimDue.contains g = false ∧ t.cal.deltas = s.cal.deltas ∧
    ∀ m ∈ measurable s g, (getCalMod t m).o = (appliedCodes s m).1 ∧ (getCalMod t m).g = (appliedCodes s m).2.1)) ∧
  (∀ g, s.cal.trimDue.contains g = false ∨ trimHeld s g = true → exec (.trimWrite g) s = .next s)

/-- A bank calibration on command: it waits for its boundary and for the bank's shadow, holds, isolates, is measured, written
at Bw, and released at Br, where its event enters the log and CAL_BANK completes OK; a second command is BUSY (R79, R212, R213,
R217, R218, R219). -/
def Obligations.BankCalibration : Prop := ∀ s : State,
  let g := s.cal.group.toNat
  (∀ r, ownRing0 8 r s → rd r.buf 0 1 ≤ 7 → zerosAt r.buf 1 7 = true → (measurable s (rd r.buf 0 1)).isEmpty = false →
    (s.cal.st = .idle → ends (exec (.calBank r) s) (fun t =>
      t.cal.st = .waitB0 ∧ t.cal.pending = true ∧ t.cal.group.toNat = rd r.buf 0 1 ∧
      t.cal.waiter = some (reqWaiter r 0 0x18) ∧ t.afe = s.afe)) ∧
    (s.cal.st ≠ .idle → exec (.calBank r) s = .next (complete (reqWaiter r 0 0x18) statusBusy 0 [] s))) ∧
  (s.cal.st = .waitB0 → shadowBusy s g = false → ends (exec .bankCalHoldStart s) (fun t =>
    t.cal.st = .measure ∧ t.cal.held = true ∧ t.cal.pending = false ∧
    (∀ c ∈ groupChans g, (getWs t c).sw = some (turnOf s.whl.pos, 1)) ∧ t.nvs = s.nvs)) ∧
  (s.cal.st = .waitB0 → shadowBusy s g = true → exec .bankCalHoldStart s = .next s) ∧
  (s.cal.st = .measure → s.cal.isol = false → ends (exec .bankCalIsolate s) (fun t =>
    t.cal.isol = true ∧ t.cal.st = .measure ∧ (getGrp t g).attempt = 0 ∧ (getGrp t g).gap = false ∧
    (getGrp t g).todo = measurable s g)) ∧
  (s.cal.st = .measure → s.cal.isol = true →
    (levelsDone s g = true → ends (exec .bankCalAttemptEnd s) (fun t =>
      t.cal.st = if (getGrp t g).done then .waitWrite else .gap)) ∧
    (levelsDone s g = false → exec .bankCalAttemptEnd s = .next s)) ∧
  (s.cal.st = .waitWrite → ends (exec .bankCalWrite s) (fun t =>
    t.cal.st = .release ∧ t.cal.isol = false ∧ t.cal.trimDue.contains g = false ∧
    ((measurable s g).any (fun m => (getCalMod s m).ok) = true →
      t.cal.count = s.cal.count + 1 ∧ t.cal.wstamp = some (nowStamp s)))) ∧
  (s.cal.st = .release →
    ends (exec .bankCalRelease s) (fun t =>
      t.cal.st = .idle ∧ t.cal.held = false ∧ t.cal.waiter = none ∧
      (∀ c ∈ groupChans g, (getWs t c).sw = some (turnOf s.whl.pos, 0)) ∧ t.nvs.logQueue.length = s.nvs.logQueue.length + 1) ∧
    (∀ w, s.cal.waiter = some w → ∃ u, exec .bankCalRelease s = .next (complete w statusOk 0 [] u)))

/-- Tariff requests: TRF_LOAD queues its entries for the inactive image, which takes them, and is BUSY while one is armed;
TRF_ARM arms an instant, the next second for 0, after its checks, or clears the arming; TRF_CTLEDIT queues an edit of the
active image's control section; TRF_SNAP of one point takes its snapshot, and what cannot be done is refused (R229, R230, R232,
R238). From a freeze of R14 on each waits without effect (R14). -/
def Obligations.TariffRequests : Prop := ∀ (r : Req) (s : State), metering s = true → cmdDest r s = .own →
  let b := r.buf
  let img := !s.trf.active
  (loadLenOk b b.length = true → crcOk b 4 (b.drop 8) = true →
    (rd b 2 2 ≤ 4095 → rd b 0 2 + rd b 2 2 ≤ 8192 →
      (s.trf.armed = none → protForbids s.nvs.prot 2 = false → gasped s = false →
        exec (.trfLoad r) s = .next (waitReq (reqWaiter r 0 0x28)
          (imageWrite img (loadEntries b) (some (reqWaiter r 0 0x28, statusOk)) none (putEntries img (loadEntries b) s)))) ∧
      (s.trf.armed = none → protForbids s.nvs.prot 2 = false → gasped s = true →
        exec (.trfLoad r) s = .next (waitReq (reqWaiter r 0 0x28) s)) ∧
      (s.trf.armed.isSome = true → exec (.trfLoad r) s = .next (complete (reqWaiter r 0 0x28) statusBusy 0 [] s))) ∧
    (8193 ≤ rd b 0 2 → rd b 2 2 ≤ 511 → rd b 0 2 + rd b 2 2 ≤ 12288 → protForbids s.nvs.prot 2 = false → gasped s = false →
      let se := putEntries s.trf.active (loadEntries b) (editedControl s)
      let all := (8192, ctlHeader se s.trf.active) :: loadEntries b
      controlBody se s.trf.active = true →
      exec (.trfCtledit r) s = .next (waitReq (reqWaiter r 0 0x2A)
        (imageWrite s.trf.active all (some (reqWaiter r 0 0x2A, statusOk)) none
          { s with trf.ctlPend := s.trf.ctlPend ++ [(none, all)] })))) ∧
  (b.length = 12 → gasped s = false →
    (rd b 0 4 = 0xFFFFFFFF → ends (exec (.trfArm r) s) (fun t => t.trf.armed = none ∧ t.trf.active = s.trf.active)) ∧
    (rd b 0 4 ≠ 0xFFFFFFFF → s.rtc.invalid = true →
      exec (.trfArm r) s = .next (complete (reqWaiter r 0 0x29) statusDenied 0 [] s)) ∧
    (rd b 0 4 ≠ 0xFFFFFFFF → s.rtc.invalid = false →
      rd b 4 4 = imgId s img → rd b 8 4 = imgCrc s img → imageValid s img = true → controlValid s img = true →
      (definedPts s).all (fun p => calOn s img (ptCal s p)) = true →
      (rd b 0 4 = 0 → ends (exec (.trfArm r) s) (fun t => t.trf.active = s.trf.active ∧
        t.trf.armed = some (BitVec.ofNat 32 (s.rtc.s + 1)))) ∧
      (rd b 0 4 ≠ 0 → s.rtc.s < fullSec s (BitVec.ofNat 32 (rd b 0 4)) → ends (exec (.trfArm r) s) (fun t =>
        t.trf.active = s.trf.active ∧ t.trf.armed = some (BitVec.ofNat 32 (rd b 0 4)))) ∧
      (rd b 0 4 ≠ 0 → fullSec s (BitVec.ofNat 32 (rd b 0 4)) ≤ s.rtc.s →
        exec (.trfArm r) s = .next (complete (reqWaiter r 0 0x29) statusBadDate 0 [] s)))) ∧
  (∀ p, b.length = 4 → rd b 0 2 = p → p ≠ 0xFFFF → zerosAt b 2 2 = true →
    ((getPt s p).dfn = none → exec (.trfSnap r) s = .next (complete (reqWaiter r 0 0x2B) statusRange 0 [] s)) ∧
    ((getPt s p).dfn.isSome = true → bwrite s = true →
      exec (.trfSnap r) s = .next (complete (reqWaiter r 0 0x2B) statusBusy 0 [] s)) ∧
    ((getPt s p).dfn.isSome = true → bwrite s = false → protForbids s.nvs.prot 1 = true →
      exec (.trfSnap r) s = .next (complete (reqWaiter r 0 0x2B) statusDenied 0 [] (protRefuse s))) ∧
    ((getPt s p).dfn.isSome = true → bwrite s = false → protForbids s.nvs.prot 1 = false → gasped s = false →
      ends (exec (.trfSnap r) s) (fun t => t.pnt = s.pnt ∧ t.trf.armed = s.trf.armed ∧ t.trf.snapSeq = s.trf.snapSeq + 1 ∧
        t.nvs.recs = s.nvs.recs ∧ s.nvs.groups.length < t.nvs.groups.length)))

/-- The optical port while it works: a well-formed request for an address that the chip serves opens a session with the
rate limit in force, the identification offers that limit, an option of at most it leads to the readout, anything else and the
time-out end the session with its record and no answer, and the readout sends its lines and ends with its record (R246, R247,
R249). -/
def Obligations.OpticalPort : Prop := ∀ s : State,
  (∀ c a, optWorks s = true → s.trf.opt.st = .idle → optRequestAddr c = some a → optDest s a ≠ .refused statusRange →
    (∀ st, optDest s a = .refused st → st = statusUnavailable) →
    exec (.optRequest c) s = .next { s with trf.optSessions := s.trf.optSessions + 1,
                                            trf.opt := ⟨.ident, a.1, a.2, 0, nowStamp s, s.slot, s.trf.maxbaud⟩ }) ∧
  (∀ c, optWorks s = false ∨ s.trf.opt.st ≠ .idle ∨ optRequestAddr c = none → exec (.optRequest c) s = .next s) ∧
  (optWorks s = true → s.trf.opt.st = .ident → exec .optIdentSend s = .next (emit (.optical
    ([0x2F, 0x49, 0x44, 0x4D, BitVec.ofNat 8 (0x30 + s.trf.opt.z.toNat), 0x4B, 0x51, 0x36, 0x30, 0x34, 0x38, 0x0D, 0x0A]))
    { s with trf.opt.st := .option })) ∧
  (∀ z : Nat, optWorks s = true → s.trf.opt.st = .option → z ≤ s.trf.opt.z.toNat →
    exec (.optAck [0x06, 0x30, BitVec.ofNat 8 (0x30 + z), 0x30, 0x0D, 0x0A]) s =
      .next { s with trf.opt.st := .readout, trf.opt.rate := z }) ∧
  (∀ z : Nat, optWorks s = true → s.trf.opt.st = .option → s.trf.opt.z.toNat < z → z < 200 →
    ends (exec (.optAck [0x06, 0x30, BitVec.ofNat 8 (0x30 + z), 0x30, 0x0D, 0x0A]) s) (fun t =>
      t.trf.opt.st = .idle ∧ t.out = s.out ∧ t.trf.optSeq = s.trf.optSeq + 1)) ∧
  (optWorks s = true → s.trf.opt.st = .option → ends (exec .optTimeout s) (fun t =>
    t.trf.opt.st = .idle ∧ t.out = s.out ∧ t.trf.optSeq = s.trf.optSeq + 1)) ∧
  (s.trf.opt.st ≠ .option → exec .optTimeout s = .next s ∧ ∀ c, exec (.optAck c) s = .next s) ∧
  (optWorks s = true → s.trf.opt.st = .readout → ends (exec .optReadout s) (fun t =>
    t.trf.opt.st = .idle ∧ t.trf.optSeq = s.trf.optSeq + 1 ∧ t.pnt = s.pnt ∧ t.crd = s.crd ∧
    (optDest s (s.trf.opt.ring, s.trf.opt.pos) = .own →
      let text := (ownLines s).flatten ++ [0x21, 0x0D, 0x0A, 0x03]
      t.out = .optical ([0x02] ++ text ++ [bcc text]) :: s.out)))

/-- Credit requests, until a freeze of R14. CREDIT_CFG that passes its checks takes the point's configuration over and waits
for its record; CTL_CFG that passes its checks waits for its record and its boundary. CREDIT_EC that is eligible waits for
its record, and is denied otherwise, with a record of the refusal; a press of the local input grants an eligible point at
once and only records an ineligible one. A token with the chip's identity waits for its tag, one with another identity is
AUTH_FAIL, counted and raised; with its committed record a grant sets EC_ACTIVE, and a token sets the serial and C and
clears EC_ACTIVE above 0 (R254-R258, R274, R275). -/
def Obligations.CreditRequests : Prop := ∀ (r : Req) (s : State),
  let b := r.buf
  let p := rd b 0 1
  let g := creditOf b
  let c := ctlOf b
  let out := ctlNewest s g.disc.toNat
  (ownRing0 24 r s → crcOk b 20 (b.take 20) = true → creditBad b = false →
    (g.prepay = true ∨ g.discEn = true → ptDefined s p = true) → (g.discEn = true → out.en = true ∧ out.kind = 0) →
    (g.discEn = true → ∀ x ∈ s.crd.pcfg, x.1 ≠ p → x.2.discEn = true → x.2.disc ≠ g.disc) →
    (g.ecreqEn = true → claimOk s g.ball.toNat fnECREQ 0 = true) →
    writeForbidden s (nvKey .creditCfg p) = false → gasped s = false → ends (exec (.creditCfg r) s) (fun t =>
      t.crd.pcfg = tput s.crd.pcfg p g ∧ t.nvs.recs = s.nvs.recs ∧ t.pnt = s.pnt)) ∧
  (ownRing0 32 r s → crcOk b 28 (b.take 28) = true → ctlBad b = false →
    (c.en = true → claimOk s c.ball.toNat fnCTL p = true) →
    (c.en = true → c.kind = 2 → (getCtl s p).gen.isSome = true ∨ (freeGen s).isSome = true) →
    (namer s p = none ∨ c.en = true ∧ c.kind = (ctlNewest s p).kind) →
    writeForbidden s (nvKey .ctlCfg p) = false → gasped s = false →
    exec (.ctlCfg r) s = .next (waitReq (reqWaiter r 0 0x31)
      (commitRec (nvKey .ctlCfg p) (.bytes b) 1 (some (reqWaiter r 0 0x31, statusOk)) (ctlAccept p c s)))) ∧
  (ownRing11 8 r s → zerosAt b 4 4 = true → (getPt s p).dfn.isSome = true →
    (eligible s p = true → writeForbidden s (nvKey .credit p) = false → gasped s = false →
      let n := effCred (getPcfg s p) p (credNewest s p) (.grant p)
      n.ec = true ∧ n.c = (credNewest s p).c ∧
      exec (.creditEc r) s = .next (waitReq (reqWaiter r 11 0x61) (commitRecEff (nvKey .credit p) (.credit (withRefs s p n)) 1
        (some (reqWaiter r 11 0x61, statusOk)) (some (.grant p)) s))) ∧
    (eligible s p = false → exec (.creditEc r) s = .next (complete (reqWaiter r 11 0x61) statusDenied 0 []
      (ptEvent evEcRefused p statusDenied.toNat 0 0 s)))) ∧
  (metering s = true → b.length = 96 → tokenBad b = false → rd b 4 4 < 2 ^ 17 →
    (r.via = .coil ∨ addrCheck s (rd b 4 4 / 2 ^ 15) (rd b 4 4 / 2 ^ 8 % 128) = .own) → (getPt s (rd b 4 1)).dfn.isSome = true →
    (getPcfg s (rd b 4 1)).prepay = true →
    ((b.drop 32).take 8 = identBytes → (slotKey s 2).isSome = true → exec (.creditToken r) s =
      .next (waitReq (reqWaiter r 11 0x60) { s with sgr.ops := s.sgr.ops ++ [.token (reqWaiter r 11 0x60) b] })) ∧
    ((b.drop 32).take 8 ≠ identBytes → ends (exec (.creditToken r) s) (fun t =>
      t.crd.tokRef = satInc s.crd.tokRef ∧ latched 8 0 t ∧ t.crd.cred = s.crd.cred ∧ t.sgr.ops = s.sgr.ops))) ∧
  (∀ ball x, metering s = true → gasped s = false → (getBall s ball).func = fnECREQ →
    s.crd.pcfg.filter (fun p => p.2.ecreqEn && p.2.ball.toNat == ball) = [x] → x.2.recon ≠ 1 →
    (eligible s x.1 = true → exec (.ecreqPress ball) s = .next (writeCred x.1 (grant 1 x.1 s)) ∧
      (getCred (writeCred x.1 (grant 1 x.1 s)) x.1).ec = true) ∧
    (eligible s x.1 = false →
      exec (.ecreqPress ball) s = .next (ptEvent evEcRefused x.1 (0x80 + statusDenied.toNat) 0 0 s))) ∧
  (∀ ball, gasped s = true → exec (.ecreqPress ball) s = .next s) ∧
  (∀ q w rest, s.nvs.groups = w :: rest →
    (w.eff = some (.grant q) → (getCred (groupCommitted s) q).ec = true ∧ (getCred (groupCommitted s) q).c = (getCred s q).c) ∧
    (∀ k, w.eff = some (.token q k) → let n := getCred (groupCommitted s) q
      n.serial = some (BitVec.ofNat 64 (rd k 8 8)) ∧ (n.ec = true → n.c ≤ 0) ∧
      n.c = (if rd k 24 1 = 1 then satC ((getCred s q).c + rd k 16 8) else (rd k 16 8 : Int))))

/-- Control outputs, until a freeze of R14. CTL_SWITCH forces a LOADCTL output ON or OFF or a PWM output OFF or to a duty,
until its time or with no end, releases the override, and sets or clears REMOTE_OFF of a DISCONNECT output's point or
confirms its reconnection; an override expires at its time; an accepted configuration takes effect once its record is
written and no change is pending; a PWM period starts its pulse, and keeps its duty from a freeze on (R261, R262, R266,
R267, R271, R272, R275). -/
def Obligations.ControlOutputs : Prop := ∀ (n : Nat) (s : State),
  let x := getCtl s n
  (∀ r, ownRing11 16 r s → switchBad r.buf = false → rd r.buf 4 1 = n → switchKindBad s r.buf = false → gasped s = false →
    let act := rd r.buf 5 1
    let d := rd r.buf 8 4
    let exp := if d = 0 then none else some (s.slot + d * 24576000)
    (x.cfg.kind ≠ 0 → act = 0 → exec (.ctlSwitch r) s = .next (complete (reqWaiter r 11 0x62) statusOk 0 []
      (setCtl n { x with ovr := none } s))) ∧
    (x.cfg.kind ≠ 0 → act = 1 → ends (exec (.ctlSwitch r) s) (fun t =>
      (getCtl t n).ovr = some (0, exp) ∧ t.crd.cred = s.crd.cred)) ∧
    (x.cfg.kind = 2 → act = 2 → ends (exec (.ctlSwitch r) s) (fun t =>
      (getCtl t n).ovr = some (rd r.buf 12 2, exp) ∧ t.crd.cred = s.crd.cred)) ∧
    (x.cfg.kind = 1 → act = 2 → ends (exec (.ctlSwitch r) s) (fun t =>
      (getCtl t n).ovr = some (1, exp) ∧ t.crd.cred = s.crd.cred)) ∧
    (∀ p, x.cfg.kind = 0 → namer s n = some p → act = 0 ∨ act = 1 → ends (exec (.ctlSwitch r) s) (fun t =>
      (getCred t p).remoteOff = (act == 1) ∧ (getCred t p).force = (act == 1 && rd r.buf 6 1 == 1) ∧
      (getCred t p).c = (getCred s p).c ∧ t.crd.ctl = s.crd.ctl)) ∧
    (∀ p, x.cfg.kind = 0 → namer s n = some p → act = 3 → exec (.ctlSwitch r) s = .next (
      if (getCred s p).st = 5 then complete (reqWaiter r 11 0x62) statusOk 0 []
        (setCred p { getCred s p with confirm := true } s)
      else complete (reqWaiter r 11 0x62) statusDenied 0 [] s))) ∧
  (∀ v u, x.ovr = some (v, some u) → u ≤ s.slot → exec (.overrideExpiry n) s = .next (setCtl n { x with ovr := none } s)) ∧
  (∀ v u, x.ovr = some (v, some u) → s.slot < u → exec (.overrideExpiry n) s = .next s) ∧
  (x.ovr = none ∨ (∃ v, x.ovr = some (v, none)) → exec (.overrideExpiry n) s = .next s) ∧
  (∀ c, unwritten s (nvKey .ctlCfg n) = false → x.next = some c → x.pend = none → ends (exec (.ctlCfgEffect n) s) (fun t =>
    (getCtl t n).cfg = c ∧ (getCtl t n).next = none ∧ t.crd.cred = s.crd.cred ∧ t.pnt = s.pnt)) ∧
  (unwritten s (nvKey .ctlCfg n) = true ∨ x.next = none ∨ x.pend.isSome = true → exec (.ctlCfgEffect n) s = .next s) ∧
  (x.cfg.en = true → x.cfg.kind = 2 → (getBall s x.cfg.ball.toNat).drive = true → exec (.pwmPeriod n) s = .next (
    if gasped s = true then setCtl n { x with lastFire := some s.slot } s else pwmStart n s)) ∧
  (x.cfg.en = false ∨ x.cfg.kind ≠ 2 ∨ (getBall s x.cfg.ball.toNat).drive = false → exec (.pwmPeriod n) s = .next s)

/-- The store's own service. An append takes the oldest waiting record under the next sequence. A scrub read moves to the
next page, counts and corrects a single-bit error and raises a double-bit one that is not masked. A double-bit error in a
copy of a doubled record with a valid other copy is rebuilt at once in service and left invalid for RESTORE before; without
a valid other copy it is raised. The SRAMs' errors raise their blocks' sources (R28, R303, R310, R465). -/
def Obligations.StoreErrors : Prop := ∀ s : State,
  (∀ x rest, s.nvs.ready = true → s.nvs.lg = none → s.nvs.inhibit = false → s.nvs.logQueue = x :: rest →
    ends (exec .logAppend s) (fun t => t.nvs.logHead = s.nvs.logHead + 1 ∧ t.nvs.recs = s.nvs.recs ∧ t.pnt = s.pnt ∧
      (s.nvs.prot ≠ 3 → logAt t (s.nvs.logHead + 1) = some { x with seq := s.nvs.logHead + 1 }))) ∧
  (s.nvs.ready = false ∨ s.nvs.lg.isSome = true ∨ s.nvs.inhibit = true ∨ s.nvs.logQueue = [] →
    exec .logAppend s = .next s) ∧
  (∀ place, s.boot.st ≠ .off → s.boot.st ≠ .backup → s.boot.st ≠ .por →
    ends (exec (.scrubRead .clean place) s) (fun t =>
      t.nvs.scrubPage = s.nvs.scrubPage + 1 ∧
      t.nvs.passes = (if s.nvs.scrubPage = 0x7FFF then s.nvs.passes + 1 else s.nvs.passes) ∧ t = { s with nvs := t.nvs }) ∧
    ends (exec (.scrubRead .single place) s) (fun t =>
      t.nvs.scrubPage = s.nvs.scrubPage + 1 ∧ t.nvs.corr = satInc s.nvs.corr ∧ latched 9 0 t ∧ t.boot = s.boot ∧
      t.nvs.recs = s.nvs.recs) ∧
    ((∀ key c, place ≠ .kilnCopy key c) → ends (exec (.scrubRead .double place) s) (fun t =>
      t.nvs.scrubPage = s.nvs.scrubPage + 1 ∧ t.nvs.uncorr = satInc s.nvs.uncorr ∧ latched 9 1 t ∧ t.nvs.recs = s.nvs.recs))) ∧
  (∀ err place, s.boot.st = .off ∨ s.boot.st = .backup ∨ s.boot.st = .por → exec (.scrubRead err place) s = .next s) ∧
  (∀ b key c, c < 2 →
    (∀ o, soundCopy s key (1 - c) = some o → s.nvs.ready = true → ends (exec (.eccErrorDetect b true (.kilnCopy key c)) s) (fun t =>
      copyOf t key c = some o ∧ t.nvs.rebuilt = satInc s.nvs.rebuilt ∧ t.nvs.uncorr = satInc s.nvs.uncorr ∧ latched 9 2 t)) ∧
    (∀ o, soundCopy s key (1 - c) = some o → s.nvs.ready = false → ends (exec (.eccErrorDetect b true (.kilnCopy key c)) s) (fun t =>
      validCopy t key c = none ∧ t.nvs.uncorr = satInc s.nvs.uncorr ∧ t.flt = s.flt)) ∧
    (soundCopy s key (1 - c) = none → ends (exec (.eccErrorDetect b true (.kilnCopy key c)) s) (fun t =>
      validCopy t key c = none ∧ t.nvs.uncorr = satInc s.nvs.uncorr ∧ latched 9 1 t))) ∧
  (∀ b, 1 ≤ b → b ≤ 18 → ends (exec (.eccErrorDetect b false .sram) s) (latched b 30) ∧
    ends (exec (.eccErrorDetect b true .sram) s) (latched b 31)) ∧
  (∀ b, ends (exec (.eccErrorDetect b true .capture) s) (latched 5 2) ∧
    ends (exec (.eccErrorDetect b false .capture) s) (latched 5 30))

/-- Fault escalation: a host's write of 1 clears the sticky bits whose condition has gone, in the block that FLT_BIDX
selects. A grace timer at its end, over an unresolved SEVERE fault of its block, is a fail-stop with its reason, and stops
otherwise. An escalation window at its end closes with its count at 0. A span without a raise resolves the escalated source.
A parity error raises its source (R464, R465, R466, R467, R468, R474). -/
def Obligations.FaultEscalation : Prop := ∀ (b src : Nat) (s : State),
  (∀ v : W32, s.boot.fired = true → isWorker s = false → s.flt.bidx.toNat = b → 1 ≤ b → b ≤ 18 →
    ends (exec (.fltFstatClear v) s) (fun t =>
      (getBlk t b).fstat = (getBlk s b).fstat &&& ~~~ (v &&& ~~~ (getBlk s b).flive) ∧ (getBlk t b).srcs = (getBlk s b).srcs ∧
      (∀ c, c ≠ b → getBlk t c = getBlk s c) ∧ t = { s with flt := t.flt })) ∧
  (∀ v : W32, s.boot.fired = false ∨ isWorker s = true ∨ s.flt.bidx.toNat = 0 ∨ 18 < s.flt.bidx.toNat →
    exec (.fltFstatClear v) s = .next s) ∧
  (∀ g, (getBlk s b).run = some g → g.start + g.ms * msSlots ≤ s.slot →
    (∀ i, graceCause (getBlk s b) g = some i → s.flt.phase = .none → ends (exec (.graceExpiry b) s) (fun t =>
      t.boot.st = .failstop ∧ t.flt.phase = .begun ∧ (getBlk t b).run = none ∧
      t.flt.reason = reasonWord true (getSrc s b i).esc 2 b i)) ∧
    ((getSrc s b g.src).severe.isSome = true → graceCause (getBlk s b) g = some g.src) ∧
    (graceCause (getBlk s b) g = none → ends (exec (.graceExpiry b) s) (fun t =>
      (getBlk t b).run = none ∧ (getBlk t b).srcs = (getBlk s b).srcs ∧ t = { s with flt := t.flt }))) ∧
  ((getBlk s b).run = none ∨ (∃ g, (getBlk s b).run = some g ∧ s.slot < g.start + g.ms * msSlots) →
    exec (.graceExpiry b) s = .next s) ∧
  (∀ o, (getSrc s b src).win = some o →
    (o.start + winSlots o.w ≤ s.slot → ends (exec (.escWindowExpiry b src) s) (fun t =>
      (getSrc t b src).win = none ∧ (getSrc t b src).count = 0 ∧ (getSrc t b src).raises = (getSrc s b src).raises)) ∧
    (s.slot < o.start + winSlots o.w → exec (.escWindowExpiry b src) s = .next s)) ∧
  (∀ o, (getSrc s b src).esc = true → (getSrc s b src).span = some o → (getSrc s b src).severe.isSome = true →
    bit (getBlk s b).flive src = false →
    (o.start + winSlots o.w ≤ s.slot → ends (exec (.escResolveSpan b src) s) (fun t =>
      (getSrc t b src).esc = false ∧ (getSrc t b src).severe = none ∧ (getSrc t b src).span = none ∧ t.boot = s.boot)) ∧
    (s.slot < o.start + winSlots o.w → exec (.escResolveSpan b src) s = .next s)) ∧
  ((getSrc s b src).esc = false ∨ bit (getBlk s b).flive src = true → exec (.escResolveSpan b src) s = .next s) ∧
  (mainPower s = true → paritySrc b src = true → ends (exec (.parityErrorDetect b src) s) (latched b src)) ∧
  (mainPower s = false ∨ paritySrc b src = false → exec (.parityErrorDetect b src) s = .next s)

/-- The PCIe link of a chip that is no worker: training brings it up; PERSTn takes the function down, disables every ring and
discards what it had accepted, in any state, and a loss of link does so from FIRED on and is raised; D3hot stops DMA and
messages until D0; a configuration request sets MSI-X Enable and Interrupt Disable (R334, R336, R362, R364). A function-level
reset resets the function's rings, and nothing of metering, the store's records or the clock; it ends a fail-stop that came
from a SEVERE fault, and a GRAVE one ignores it (R362, R417, R477). A worker's function does none of these (R24). -/
def Obligations.HostLink : Prop :=
  (∀ s : State, isWorker s = false →
    (∀ g5, s.boot.st ≠ .off → s.boot.st ≠ .backup → s.boot.st ≠ .por → ends (exec (.linkTrained g5) s) (fun t =>
      t.hif.linkUp = true ∧ t.hif.speed = g5 ∧ t.hif.perstLow = false ∧ t.hif.linkSlot.isSome = true ∧
      t = { s with hif := t.hif })) ∧
    ends (exec .perstAssert s) (fun t =>
      t.hif.linkUp = false ∧ t.hif.perstLow = true ∧ t.hif.linkDown = s.hif.linkDown + 1 ∧ t.hif.msixEn = false ∧
      (∀ p ∈ t.hif.rings, p.2.en = false ∧ p.2.acc = []) ∧ t.pnt = s.pnt ∧ t.nvs.recs = s.nvs.recs ∧ t.boot.st = s.boot.st) ∧
    (s.hif.linkUp = true → s.boot.fired = true → ends (exec .linkDown s) (fun t =>
      t.hif.linkUp = false ∧ latched 11 4 t ∧ t.hif.linkDown = s.hif.linkDown + 1 ∧ t.pnt = s.pnt ∧ t.nvs.recs = s.nvs.recs)) ∧
    (s.hif.linkUp = true → s.boot.fired = false → ends (exec .linkDown s) (fun t =>
      t.hif.linkUp = false ∧ t.hif.linkDown = s.hif.linkDown + 1 ∧ t.flt = s.flt)) ∧
    (s.hif.linkUp = true → exec .d3hotEnter s = .next { s with hif.d3 := true }) ∧
    (∀ m d, s.hif.linkUp = true → s.hif.d3 = true → exec (.configurationRequest m d) s =
      .next { s with hif.msixEn := m, hif.intDis := d }) ∧
    (∀ m d, s.hif.linkUp = true → s.hif.d3 = false → ends (exec (.configurationRequest m d) s) (fun t =>
      t.hif.msixEn = m ∧ t.hif.intDis = d ∧ t.hif.rings = s.hif.rings ∧
      (m = true → ∀ v, v < 32 → bit t.hif.pba v = true → bit (tgetD t.hif.msix v ⟨0, 0, 0, 1⟩).ctl 0 = true)))) ∧
  (∀ s : State,
    (s.hif.d3 = true → ends (exec .d0Return s) (fun t => t.hif.d3 = false ∧ t.hif.rings = s.hif.rings)) ∧
    (s.hif.d3 = false → exec .d0Return s = .next s) ∧
    (isWorker s = true ∨ s.hif.linkUp = false →
      exec .linkDown s = .next s ∧ exec .d3hotEnter s = .next s ∧ exec .functionLevelReset s = .next s ∧
      ∀ m d, exec (.configurationRequest m d) s = .next s) ∧
    (isWorker s = true → exec .perstAssert s = .next s ∧ ∀ g5, exec (.linkTrained g5) s = .next s)) ∧
  (∀ s : State, isWorker s = false → s.hif.linkUp = true →
    (s.boot.st ≠ .failstop → ends (exec .functionLevelReset s) (fun t =>
      t.hif.flr = s.hif.flr + 1 ∧ (∀ p ∈ t.hif.rings, p.2.en = false ∧ p.2.acc = []) ∧ t.pnt = s.pnt ∧ t.trf = s.trf ∧
      t.crd = s.crd ∧ t.nvs.recs = s.nvs.recs ∧ t.nvs.log = s.nvs.log ∧ t.whl = s.whl ∧ t.pin = s.pin ∧ t.rtc.s = s.rtc.s)) ∧
    (s.boot.st = .failstop → s.flt.kind ≠ .grave → s.flt.phase = .safe → ends (exec .functionLevelReset s) (porOf 3 s)) ∧
    (s.boot.st = .failstop → s.flt.kind ≠ .grave → s.flt.phase ≠ .safe → ends (exec .functionLevelReset s) (fun t =>
      t.flt.remembered = some 3 ∧ t.boot.st = .failstop ∧ t.nvs.recs = s.nvs.recs)) ∧
    (s.boot.st = .failstop → s.flt.kind = .grave → ends (exec .functionLevelReset s) (fun t =>
      t.hif.flr = s.hif.flr + 1 ∧ t.flt = s.flt ∧ t.boot.st = .failstop ∧ t.nvs.recs = s.nvs.recs)))

/-- Ring set-up of the ring that HIF_RIDX selects, on a chip that is no worker. A write that sets EN enables a disabled ring
whose addresses are good, with head, tail and head shadow 0; one that clears EN disables an enabled ring, whose undelivered
records wait again; both are HIF_RCFG writes. SIZE or COAL out of range, or a bad address on enabling, refuses the write as a
whole. A doorbell within the ring moves its tail; one beyond it, or of a disabled ring, is refused (R338, R339). A ring that
is still active cannot be enabled again (the model's choice, log entry 23). -/
def Obligations.RingSetUp : Prop := ∀ (v : W32) (s : State), isWorker s = false →
  let n := s.hif.ridx.toNat
  let r := getRing s n
  (rcfgBad v = false → r.en = false →
    (r.active = false → addrsBad r (fld v 4 0) = false → ends (exec (.ringEnable v) s) (fun t =>
      (getRing t n).en = true ∧ (getRing t n).head = 0 ∧ (getRing t n).tail = 0 ∧ (getRing t n).size.toNat = fld v 4 0 ∧
      (getRing t n).coal.toNat = fld v 25 16 ∧ t.out = .headShadow n 0 :: s.out ∧ t.flt = s.flt)) ∧
    (r.active = false → addrsBad r (fld v 4 0) = true → ends (exec (.ringEnable v) s) (fun t =>
      (getRing t n).en = false ∧ (getRing t n).size = r.size ∧ (getRing t n).cfgErr = true ∧ latched 11 0 t)) ∧
    (r.active = true → exec (.ringEnable v) s = .next s) ∧
    ends (exec (.ringDisable v) s) (fun t =>
      (getRing t n).en = false ∧ (getRing t n).size.toNat = fld v 4 0 ∧ (getRing t n).coal.toNat = fld v 25 16 ∧ t.out = s.out)) ∧
  (rcfgBad v = false → r.en = true →
    exec (.ringEnable v) s = .next s ∧ ends (exec (.ringDisable v) s) (fun t =>
      (getRing t n).en = false ∧ (getRing t n).bufs = [] ∧ (getRing t n).head = r.head ∧
      (getRing t n).queue = r.bufs.flatMap (·.recs) ++ r.queue ∧ t.out = s.out)) ∧
  exec (.ringCfgWrite v) s = exec (if bit v 31 then .ringEnable v else .ringDisable v) s ∧
  (rcfgBad v = true → ∀ i ∈ [Instr.ringCfgWrite v, .ringEnable v, .ringDisable v], ends (exec i s) (fun t =>
    (getRing t n).en = r.en ∧ (getRing t n).size = r.size ∧ (getRing t n).coal = r.coal ∧ (getRing t n).cfgErr = true ∧
    latched 11 0 t)) ∧
  (∀ k (u : W32), k ≤ 15 → let q := getRing s k
    let valid := (u - q.head).toNat ≤ 2 ^ q.size.toNat ∧ (u - q.tail).toNat ≤ 2 ^ q.size.toNat
    (q.en = true ∧ valid → ends (exec (.doorbellWrite k u) s) (fun t =>
      getRing t k = { q with tail := u } ∧ t = { s with hif := t.hif })) ∧
    (¬ (q.en = true ∧ valid) → ends (exec (.doorbellWrite k u) s) (fun t =>
      (getRing t k).dbErr = true ∧ (getRing t k).tail = q.tail ∧ latched 11 1 t)))

/-- Ring traffic, on a ring that DMA may use. Posted descriptors are accepted in index order, as many as the queue takes: a
single one without an end where it passes the first checks, else ended with its status. The ended descriptors at the head are
completed in order, with the head shadow. A receive buffer takes whole records: it ends OK when the next one does not fit or,
with COAL 0, when the queue is empty, ends OVERSIZE when the first one is too long, and else waits for the coalescing time
(R337, R339, R341, R343, R345, R347). -/
def Obligations.RingTraffic : Prop := ∀ (n : Nat) (s : State), dmaOk s n = true →
  let r := getRing s n
  (r.en = true → r.dmaErr = false → ringServed s n = true →
    (∀ d : Desc, (r.tail - r.fetched).toNat = 1 → bit d.flags 1 = false → outstanding n r < 32 →
      ends (exec (.descriptorAccept n [d]) s) (fun t =>
        (getRing t n).fetched = r.fetched + 1 ∧
        (getRing t n).acc = r.acc ++ [⟨r.fetched, d.tag, bit d.flags 0, d.len, r.fetched,
          (chainBad s n [d]).map (fun st => ⟨st, 0, 0, []⟩), []⟩] ∧ t = { s with hif := t.hif })) ∧
    (∀ ds, ends (exec (.descriptorAccept n ds) s) (fun t => ∃ more,
      (getRing t n).acc = r.acc ++ more ∧ more.length ≤ (r.tail - r.fetched).toNat ∧
      (getRing t n).fetched = r.fetched + BitVec.ofNat 32 more.length ∧ (getRing t n).head = r.head ∧
      (∀ i (h : i < more.length), more[i].idx = r.fetched + BitVec.ofNat 32 i)))) ∧
  (∀ ds, r.en = false ∨ r.dmaErr = true ∨ ringServed s n = false → exec (.descriptorAccept n ds) s = .next s) ∧
  (∀ a x rest, r.acc = a :: x :: rest → a.done.isSome = true → x.done = none → a.irq = false → a.recs = [] → n ≠ 1 → n ≠ 10 →
    ends (exec (.completionWrite n) s) (fun t =>
      (getRing t n).acc = x :: rest ∧ (getRing t n).head = r.head + 1 ∧
      (∃ d, a.done = some d ∧
        t.out = .headShadow n (r.head + 1) :: .completion n a.idx a.tag d.status d.len d.seq d.data :: s.out))) ∧
  (ends (exec (.completionWrite n) s) (fun t =>
    (getRing t n).head = r.head + BitVec.ofNat 32 (r.acc.takeWhile (·.done.isSome)).length)) ∧
  (∀ x rest, r.acc = x :: rest → x.done = none → exec (.completionWrite n) s = .next s) ∧
  (r.acc = [] → exec (.completionWrite n) s = .next s) ∧
  (∀ d a b q rest, r.en = true → r.dmaErr = false → ringServed s n = true → receiveRing n = true → r.tail = r.fetched →
    r.bufs = [b] → r.acc = [a] → a.idx = b.idx → r.queue = q :: rest →
    (b.recs = [] → b.len < q.bytes.length → ends (exec (.receiveBufferComplete n d) s) (fun t =>
      (getRing t n).acc = [{ a with done := some ⟨0x0001, q.bytes.length, 0, []⟩, recs := [] }] ∧
      (getRing t n).bufs = [] ∧ (getRing t n).queue = r.queue ∧ (getRing t n).head = r.head)) ∧
    (b.recs = [] → q.bytes.length ≤ b.len → rest = [] → r.coal = 0 → ends (exec (.receiveBufferComplete n d) s) (fun t =>
      (getRing t n).acc = [{ a with done := some ⟨statusOk, q.bytes.length, q.seq, q.bytes⟩, recs := [q] }] ∧
      (getRing t n).bufs = [] ∧ (getRing t n).queue = [] ∧ (getRing t n).head = r.head)) ∧
    (b.recs = [] → q.bytes.length ≤ b.len → rest = [] → r.coal ≠ 0 → ends (exec (.receiveBufferComplete n d) s) (fun t =>
      (getRing t n).acc = [a] ∧ (getRing t n).bufs = [{ b with recs := [q] }] ∧ (getRing t n).queue = [])) ∧
    (b.recs ≠ [] → b.len < queueBytes b.recs + q.bytes.length → ends (exec (.receiveBufferComplete n d) s) (fun t =>
      (getRing t n).acc = [{ a with done := some (okDone b), recs := b.recs }] ∧ (getRing t n).bufs = [] ∧
      (getRing t n).queue = r.queue))) ∧
  (∀ a b, r.en = true → r.dmaErr = false → ringServed s n = true → n ≠ 15 → r.bufs = [b] → r.acc = [a] → a.idx = b.idx →
    b.recs ≠ [] → r.queue = [] → ends (exec (.receiveCoalesceExpiry n) s) (fun t =>
      (getRing t n).acc = [{ a with done := some (okDone b), recs := b.recs }] ∧ (getRing t n).bufs = [] ∧
      (getRing t n).queue = []))

/-- A DMA read error stops its ring until the host disables and enables it again; nothing is completed for it, and what a
receive buffer held waits for its delivery again (R363). -/
def Obligations.DmaErrorStopsRing : Prop := ∀ (n : Nat) (s : State),
  let r := getRing s n
  (dmaOk s n = true → r.en = true → r.dmaErr = false → ends (exec (.dmaReadError n) s) (fun t =>
    (getRing t n).dmaErr = true ∧ latched 11 2 t ∧ (getRing t n).acc = r.acc ∧ (getRing t n).head = r.head ∧
    (n ≠ 14 → (getRing t n).queue = r.bufs.flatMap (·.recs) ++ r.queue))) ∧
  (r.dmaErr = true → (∀ ds, exec (.descriptorAccept n ds) s = .next s) ∧ (∀ d, exec (.receiveBufferComplete n d) s = .next s) ∧
    exec (.receiveCoalesceExpiry n) s = .next s) ∧
  (dmaOk s n = false ∨ r.en = false ∨ r.dmaErr = true → exec (.dmaReadError n) s = .next s) ∧
  (∀ v, isWorker s = false → s.hif.ridx.toNat = n → rcfgBad v = false →
    (r.en = true → ends (exec (.ringDisable v) s) (fun t => (getRing t n).en = false ∧ (getRing t n).dmaErr = r.dmaErr)) ∧
    (r.en = false → r.active = false → addrsBad r (fld v 4 0) = false → ends (exec (.ringEnable v) s) (fun t =>
      (getRing t n).en = true ∧ (getRing t n).dmaErr = false)))

/-- Ring 0 requests of the configuration and host chapters. CONFIG_SET of an item whose fields are good takes it over and
waits for its record, until a freeze of R14, from which on it waits without effect; a bad one is RANGE or CONFLICT. REG_READ
delivers the registers' values on Ring 1 and completes. LOG_REPLAY and SNAP_REPLAY deliver what is retained, and leave the
store and the mirror alone. A forwarded request that is not answered in 2 s ends UNAVAILABLE (R14, R352, R353, R355, R356). -/
def Obligations.HostRequests : Prop := ∀ (r : Req) (s : State),
  let b := r.buf
  let item := rd b 0 2
  let index := rd b 2 2
  let v : W32 := BitVec.ofNat 32 (rd b 4 4)
  (∀ m k, ownRing0 16 r s → crcOk b 12 (b.take 12) = true → itemMask item = some (m, k) → index < k →
    v &&& ~~~ (BitVec.ofNat 32 m) = 0 → zerosAt b 8 4 = true → itemRange s item index v = false →
    (itemConflict s item index v = false → writeForbidden s (itemKey item index) = false →
      exec (.configSet r) s = .next (waitReq (reqWaiter r 0 0x01) (if gasped s = true then s else
        commitRec (itemKey item index) (.word v) 1 (some (reqWaiter r 0 0x01, statusOk)) (itemAccept item index v s)))) ∧
    (itemConflict s item index v = true →
      exec (.configSet r) s = .next (complete (reqWaiter r 0 0x01) statusConflict 0 [] s))) ∧
  (ownRing0 16 r s → crcOk b 12 (b.take 12) = false ∨ itemMask item = none ∨ itemRange s item index v = true →
    exec (.configSet r) s = .next (complete (reqWaiter r 0 0x01) statusRange 0 [] s)) ∧
  (ownRing0 8 r s → zerosAt b 4 4 = true → item % 4 = 0 → 1 ≤ index → index ≤ 64 → item + 4 * index ≤ 0x4000 →
    ends (exec (.regRead r) s) (fun t =>
      t.hif.ring1Seq = s.hif.ring1Seq + 1 ∧ t.nvs.recs = s.nvs.recs ∧ t.crd.cred = s.crd.cred ∧ t.pnt = s.pnt) ∧
    (index = 1 → isWorker s = false → (undelivered (getRing s 1)).length + (getRing s 1).queue.length < 64 →
      ends (exec (.regRead r) s) (fun t => ∃ q, (getRing t 1).queue = (getRing s 1).queue ++ [q] ∧
        q.bytes = Rec.bytes ⟨0x00C1, s.hif.ring1Seq, nowStamp s, addrBytes s 0 ++ le 4 r.tag.toNat ++ le 2 item ++ le 2 1
          ++ zeros 4 ++ le 4 (regImage s item).toNat⟩))) ∧
  (ownRing0 8 r s → item % 4 ≠ 0 ∨ index = 0 ∨ 64 < index ∨ 0x4000 < item + 4 * index →
    exec (.regRead r) s = .next (complete (reqWaiter r 0 0x02) statusRange 0 [] s)) ∧
  (ownRing0 8 r s → 1 ≤ rd b 4 4 → rd b 4 4 ≤ 16384 → ends (exec (.logReplay r) s) (fun t =>
    t.nvs.log = s.nvs.log ∧ t.nvs.mirror = s.nvs.mirror ∧ t.nvs.recs = s.nvs.recs ∧ t.pnt = s.pnt)) ∧
  (ownRing0 8 r s → rd b 4 4 = 1 →
    (∀ x, logAt s (BitVec.ofNat 32 (rd b 0 4)) = some x →
      exec (.logReplay r) s = .next (complete (reqWaiter r 0 0x05) statusOk 0 [] (deliver 5 ⟨x.seq, x.bytes, none, none⟩ s))) ∧
    (logAt s (BitVec.ofNat 32 (rd b 0 4)) = none →
      exec (.logReplay r) s = .next (complete (reqWaiter r 0 0x05) statusOk 0 [] s))) ∧
  (ownRing0 8 r s → rd b 4 4 = 0 ∨ 16384 < rd b 4 4 →
    exec (.logReplay r) s = .next (complete (reqWaiter r 0 0x05) statusRange 0 [] s)) ∧
  (ownRing0 4 r s → zerosAt b 2 2 = true →
    (item = 0xFFFF → ends (exec (.snapReplay r) s) (fun t => t.nvs.recs = s.nvs.recs ∧ t.trf = s.trf ∧ t.pnt = s.pnt)) ∧
    (item < 256 → (getPt s item).dfn.isSome = true →
      ends (exec (.snapReplay r) s) (fun t => t.nvs.recs = s.nvs.recs ∧ t.trf = s.trf ∧ t.pnt = s.pnt) ∧
      (∀ x, snapsOf s item = [x] → exec (.snapReplay r) s = .next (complete (reqWaiter r 0 0x06) statusOk 0 []
        (deliver 4 ⟨BitVec.ofNat 32 (rd x.2 0 4), x.2, none, none⟩ s)))) ∧
    (item ≠ 0xFFFF → 256 ≤ item ∨ (getPt s item).dfn = none →
      exec (.snapReplay r) s = .next (complete (reqWaiter r 0 0x06) statusRange 0 [] s))) ∧
  (∀ f ring slot, s.hif.fwd.find? (fun f => f.w.ring == ring && f.w.slot == slot) = some f →
    let s1 := { s with hif.fwd := s.hif.fwd.filter (fun x => !(x.w.ring == ring && x.w.slot == slot)) }
    (2000 * msSlots ≤ s.slot - f.at_ → f.w.ring ≠ 9 →
      exec (.commandForwardTimeout ring slot) s = .next (complete f.w statusUnavailable 0 [] s1)) ∧
    (2000 * msSlots ≤ s.slot - f.at_ → f.w.ring = 9 → exec (.commandForwardTimeout ring slot) s = .next
      (sagDone ⟨f.w, f.stamp, 0, f.wring * 2 ^ 15 + f.wpos * 2 ^ 8, []⟩ statusUnavailable [] s1)) ∧
    (s.slot - f.at_ < 2000 * msSlots → exec (.commandForwardTimeout ring slot) s = .next s)) ∧
  (∀ ring slot, s.hif.fwd.find? (fun f => f.w.ring == ring && f.w.slot == slot) = none →
    exec (.commandForwardTimeout ring slot) s = .next s)

/-- Register accesses: a read of an exposed register returns its value, clears an RC field and latches a pair's upper half; an
unexposed one reads 0 without effect. A W1C write clears the bits written 1 alone; an index register takes its field; a write
to a register that is not exposed, or that a fail-stop ignores, has no effect (R8, R401, R478). No access changes the store's
records, the credits or the fuses. -/
def Obligations.RegisterAccess : Prop := ∀ (off : Nat) (v : W32) (s : State),
  (hostOn s = true → exec (.rcRead off) s = .next (emit (.readVal off (readReg off s).1) (readReg off s).2) ∧
    exec (.latchedPairRead off) s = exec (.rcRead off) s) ∧
  (hostOn s = false → exec (.rcRead off) s = .next s ∧ exec (.latchedPairRead off) s = .next s ∧
    exec (.w1cWrite off v) s = .next s ∧ exec (.regWrite off v) s = .next s) ∧
  (hostOn s = true → exposed s off = false → exec (.rcRead off) s = .next { s with out := .readVal off 0 :: s.out } ∧
    exec (.latchedPairRead off) s = .next { s with out := .readVal off 0 :: s.out }) ∧
  (hostOn s = true → exposed s 0x2410 = true → ends (exec (.rcRead 0x2410) s) (fun t =>
    t = { s with nvs.corr := 0, out := .readVal 0x2410 (regImage s 0x2410) :: s.out })) ∧
  (hostOn s = true → exposed s 0x3C0C = true → ends (exec (.latchedPairRead 0x3C0C) s) (fun t =>
    t = { s with flt.tickHi := hi32 (faultTick s), out := .readVal 0x3C0C (regImage s 0x3C0C) :: s.out })) ∧
  (exposed s off = false → exec (.w1cWrite off v) s = .next s ∧ exec (.regWrite off v) s = .next s) ∧
  (s.flt.phase = .safe → failstopWrites off = false →
    exec (.w1cWrite off v) s = .next s ∧ exec (.regWrite off v) s = .next s) ∧
  (∀ i ∈ [Instr.rcRead off, .latchedPairRead off, .w1cWrite off v, .regWrite off v], ends (exec i s) (fun t =>
    t.nvs.recs = s.nvs.recs ∧ t.crd.cred = s.crd.cred ∧ t.fuses = s.fuses ∧ t.pnt.pts = s.pnt.pts)) ∧
  (writable s 0x3D24 = true → exec (.w1cWrite 0x3D24 v) s = .next { s with pin.mism0 := s.pin.mism0 &&& ~~~ v }) ∧
  (writable s 0x2C40 = true → exec (.w1cWrite 0x2C40 v) s = .next { s with hif.istat := s.hif.istat &&& ~~~ v }) ∧
  (writable s 0x1008 = true → exec (.regWrite 0x1008 v) s = .next { s with pnt.pidx := BitVec.ofNat 8 v.toNat }) ∧
  (writable s 0x3D08 = true → exec (.regWrite 0x3D08 v) s = .next { s with pin.tripSlew := v })

/-- Before the application image is FIRED, only the GLB, HIF and BOOT registers are exposed: every other offset reads 0
and ignores writes (R521). -/
def Obligations.ExposedBeforeFired : Prop := ∀ (off : Nat) (v : W32) (s : State), s.boot.fired = false → hostOn s = true →
  0x400 ≤ off → (off < 0x2C00 ∨ 0x3000 ≤ off) → (off < 0x3E00 ∨ 0x3E30 ≤ off) →
  exec (.rcRead off) s = .next { s with out := .readVal off 0 :: s.out } ∧
  exec (.latchedPairRead off) s = .next { s with out := .readVal off 0 :: s.out } ∧
  exec (.w1cWrite off v) s = .next s ∧ exec (.regWrite off v) s = .next s

/-- Pin ownership. A host's GPIO write claims a free ball as an input and gives it back; an EVOUT write with EN claims its
ball and sets its angle action, a refused claim sets PIN_REFUSED, and one without EN releases them; the pulse ends low. A
mismatch of a ball that is driven is latched and raised. The TAP takes an instruction while its lock fuse is clear, and IDCODE
puts the code out (R489, R490, R492, R494, R495). -/
def Obligations.PinOwnership : Prop := ∀ (n : Nat) (s : State),
  (∀ v : W32, n < 32 → pinWritable s = true → ends (exec (.pinGpioenWrite v) s) (fun t =>
    (bit v n = true → (getBall s n).func = 0 → (getBall t n).func = fnGPIO ∧ (getBall t n).drive = (getBall s n).drive) ∧
    (bit v n = true → (getBall s n).func = fnGPIO → getBall t n = getBall s n) ∧
    (bit v n = true → (getBall s n).func ≠ 0 → (getBall s n).func ≠ fnGPIO →
      (getBall t n) = getBall s n ∧ bit t.pin.refused n = true) ∧
    (bit v n = false → (getBall s n).func = fnGPIO → (getBall t n).func = 0 ∧ (getBall t n).drive = false) ∧
    (bit v n = false → (getBall s n).func ≠ fnGPIO → getBall t n = getBall s n) ∧ t = { s with pin := t.pin })) ∧
  (∀ v : W32, pinWritable s = false → exec (.pinGpioenWrite v) s = .next s ∧ exec (.pinEvoutWrite n v) s = .next s) ∧
  (∀ v : W32, n < 4 → pinWritable s = true → s.pin.evout.length = 4 → bit (nth s.pin.evout n 0x00010000) 31 = false → bit v 31 = true →
    let k := fld v 28 24
    (claimOk s k fnEVOUT n = true → ends (exec (.pinEvoutWrite n v) s) (fun t =>
      (getBall t k).func = fnEVOUT ∧ (getBall t k).owner = n ∧ bit (nth t.pin.evout n 0) 31 = true ∧
      tget t.whl.ang (59 + n) = some (evoutEntry (nth t.pin.evout n 0)) ∧ t.pin.refused = s.pin.refused)) ∧
    (claimOk s k fnEVOUT n = false → ends (exec (.pinEvoutWrite n v) s) (fun t =>
      bit t.pin.refused k = true ∧ bit (nth t.pin.evout n 0) 31 = false ∧ t.pin.fb = s.pin.fb ∧ t.whl = s.whl))) ∧
  (∀ v : W32, n < 4 → pinWritable s = true → s.pin.evout.length = 4 → bit (nth s.pin.evout n 0x00010000) 31 = true →
    bit v 31 = false → let k := fld (nth s.pin.evout n 0x00010000) 28 24
    ends (exec (.pinEvoutWrite n v) s) (fun t => (getBall t k).func = 0 ∧ (getBall t k).drive = false ∧
      bit (nth t.pin.evout n 0) 31 = false ∧ tget t.whl.ang (59 + n) = none)) ∧
  (n < 4 → bit (nth s.pin.evout n 0) 31 = true → (getBall s (fld (nth s.pin.evout n 0) 28 24)).func = fnEVOUT →
    ends (exec (.evoutPulseEnd n) s) (fun t => (getBall t (fld (nth s.pin.evout n 0) 28 24)).lvl = false ∧ t = { s with pin := t.pin })) ∧
  (running s = true → scanActs s = false →
    (n < 32 → (getBall s n).drive = true → ends (exec (.driveMismatch n) s) (fun t =>
      bit t.pin.mism0 n = true ∧ latched 18 0 t ∧ t.pin.fb = s.pin.fb)) ∧
    (n < 32 → (getBall s n).drive = false → exec (.driveMismatch n) s = .next s) ∧
    (32 ≤ n → n < 49 → ends (exec (.driveMismatch n) s) (fun t =>
      bit t.pin.mism1 (n - 32) = true ∧ latched 18 0 t ∧ t.pin.fb = s.pin.fb)) ∧
    (s.pin.failn = true → ends (exec (.driveMismatch 49) s) (fun t => bit t.pin.mism1 17 = true ∧ latched 18 0 t))) ∧
  (running s = false ∨ scanActs s = true → exec (.driveMismatch n) s = .next s) ∧
  (∀ c, s.fuses.jtagLock = false → mainPower s = true →
    (c ≠ .idcode → exec (.jtagInstruction c) s = .next { s with pin.jtag := c }) ∧
    (c = .idcode → exec (.jtagInstruction c) s = .next { s with pin.jtag := c, out := .tapData 0x16048B47 :: s.out })) ∧
  (∀ c, s.fuses.jtagLock = true ∨ mainPower s = false → exec (.jtagInstruction c) s = .next s)

/-- Tamper. An event of a source that watches and is not under its self-test counts in its window, in the hold-off only
restarts it, and as the N-th of its window is an alarm: counted, shown, with a new hold-off and every key operation aborted.
A window whose W has passed closes with its count at 0 and a hold-off ends 328 ticks after its last event, neither before.
The mesh reseeds from the DRBG while it serves. A self-test is refused or runs: a detection within 1 ms passes, a later one
fails, and so do 10 ms without one. In METERING the oldest entry becomes a log record (R449, R451, R455, R458, R459). -/
def Obligations.TamperMonitors : Prop := ∀ (src : Nat) (d : W32) (s : State), src < 8 →
  let x := getTSrc s src
  let k := (if x.win.isSome then x.count.toNat else 0) + 1
  let raw (t : State) := tgetD t.tmp.srcs src Init.tsrc
  (tamperWatches s src = false ∨ bistHides s src = true → exec (.tamperEvent src d) s = .next s) ∧
  (tamperWatches s src = true → bistHides s src = false →
    (x.hold.isSome = true → ends (exec (.tamperEvent src d) s) (fun t =>
      getTSrc t src = { x with hold := some s.slot } ∧ t = { s with tmp := t.tmp })) ∧
    (x.hold = none → k < tamperN s src → 0 < tamperWin s src → ends (exec (.tamperEvent src d) s) (fun t =>
      getTSrc t src = { x with win := some (x.win.getD s.slot), count := BitVec.ofNat 8 k } ∧ t = { s with tmp := t.tmp })) ∧
    (x.hold = none → tamperN s src ≤ k → ends (exec (.tamperEvent src d) s) (fun t =>
      getTSrc t src = { x with win := none, count := 0, alarms := satInc x.alarms, hold := some s.slot } ∧
      bit t.tmp.alarmed src = true ∧ t.sgr.ops = [] ∧ t.nvs.recs = s.nvs.recs))) ∧
  (∀ w, (raw s).win = some w →
    (w + tamperWin s src ≤ s.slot → ends (exec (.tamperWindowExpiry src) s) (fun t =>
      (raw t).win = none ∧ (raw t).count = 0 ∧ (raw t).alarms = (raw s).alarms ∧ t = { s with tmp := t.tmp })) ∧
    (s.slot < w + tamperWin s src → ends (exec (.tamperWindowExpiry src) s) (fun t =>
      (raw t).win = some w ∧ (raw t).count = (raw s).count))) ∧
  (∀ h, (raw s).hold = some h →
    (h + 328 * 750 ≤ s.slot → ends (exec (.tamperHoldoffEnd src) s) (fun t =>
      (raw t).hold = none ∧ (raw t).alarms = (raw s).alarms ∧ t = { s with tmp := t.tmp })) ∧
    (s.slot < h + 328 * 750 → ends (exec (.tamperHoldoffEnd src) s) (fun t => (raw t).hold = some h))) ∧
  (s.tmp.run = true → s.sgr.trngOk = true → ends (exec .meshReseed s) (fun t =>
    t.tmp = { s.tmp with lfsr := t.tmp.lfsr } ∧ t.pnt = s.pnt ∧ t.sgr.guard_ = s.sgr.guard_)) ∧
  (s.tmp.run = false ∨ s.sgr.trngOk = false → exec .meshReseed s = .next s) ∧
  (s.boot.fired = true → isWorker s = false → s.flt.phase ≠ .safe → fld d 2 0 = src →
    (bit d 8 = false → exec (.tmpBistStart d) s = .next { s with tmp.bistSel := BitVec.ofNat 3 src }) ∧
    (bit d 8 = true → bistRefused s src = true → exec (.tmpBistStart d) s =
      .next { s with tmp := { s.tmp with bistSel := BitVec.ofNat 3 src, bistResult := 3 } }) ∧
    (bit d 8 = true → bistRefused s src = false → ends (exec (.tmpBistStart d) s) (fun t =>
      t.tmp.bistActive = true ∧ t.tmp.bistSrc.toNat = src ∧ t.tmp.bistAt = s.slot ∧
      t.tmp.bistCount = satInc s.tmp.bistCount ∧ t = { s with tmp := t.tmp }))) ∧
  (s.tmp.bistActive = true →
    (s.slot ≤ s.tmp.bistAt + msSlots → ends (exec (.tmpBistEnd true) s) (fun t =>
      t.tmp.bistActive = false ∧ t.tmp.bistResult = 1 ∧ t.flt = s.flt)) ∧
    (s.tmp.bistAt + msSlots < s.slot → ends (exec (.tmpBistEnd true) s) (fun t =>
      t.tmp.bistActive = false ∧ t.tmp.bistResult = 2 ∧ latched 14 2 t)) ∧
    (s.tmp.bistAt + 10 * msSlots ≤ s.slot → ends (exec (.tmpBistEnd false) s) (fun t =>
      t.tmp.bistActive = false ∧ t.tmp.bistResult = 2 ∧ latched 14 2 t)) ∧
    (s.slot < s.tmp.bistAt + 10 * msSlots → exec (.tmpBistEnd false) s = .next s)) ∧
  (∀ e rest, s.tmp.log = e :: rest → metering s = true → tamperDraining s = false →
    ends (exec .tamperLogDrain s) (fun t => t.tmp = s.tmp ∧
      (∃ q more, t.nvs.logQueue = s.nvs.logQueue ++ q :: more ∧ q.typ = 0x00E0) ∧
      (rd e.bytes 9 1 ≠ 0 → latched 14 3 t))) ∧
  (s.tmp.log = [] ∨ metering s = false ∨ tamperDraining s = true → exec .tamperLogDrain s = .next s)

/-- The links of a ring. Sync comes and goes with LFAIL and a wrap, in the first sync an unassigned worker says HELLO; a manager
records a break, a split and a healing, also of a link between workers. The link delay is the rounded mean of up to eight
measurements, half the round trip less the turnaround. A worker forwards what is not its own, turned back at a wrap, adds its
path to a beacon and drops it at a wrap, and counts what its destination must discard (R368, R370, R371, R372, R373, R377,
R379, R381, R385, R386). -/
def Obligations.RingLinks : Prop := ∀ (p : Nat) (s : State),
  let x := getPort s p
  (portUsed s p = true →
    (x.seen = true ∨ isWorker s = false ∨ s.coil.w.enumerated = true → exec (.linkSyncGain p) s =
      .next (setPort p { x with sync := true, seen := true } s)) ∧
    (x.seen = false → isWorker s = true → s.coil.w.enumerated = false → s.sgr.trngOk = true → s.coil.w.chal ≠ [] →
      exec (.linkSyncGain p) s = .next (emit (.hello p 0xFE
        ⟨identNum s, 0xFF, 0xFF, BitVec.ofNat 4 (bootNum s.boot.st), s.coil.w.chal⟩) (setPort p { x with sync := true, seen := true } s))) ∧
    (isManager s = false → ∀ bad, ends (exec (.linkSyncLoss p bad) s) (fun t =>
        (getPort t p).sync = false ∧ (getPort t p).wrap = true ∧ (getPort t p).delay = none ∧
        (getPort t p).errors = satAdd x.errors bad ∧ t.out = .lfail p :: s.out ∧ t.flt = s.flt) ∧
      ends (exec (.lfailReceive p) s) (fun t =>
        (getPort t p).lfail = true ∧ (getPort t p).wrap = true ∧ (getPort t p).sync = x.sync ∧ t.out = s.out)) ∧
    (isManager s = true → ∀ bad, ∀ i ∈ [Instr.linkSyncLoss p bad, .lfailReceive p],
      let k := p / 2
      let q := (linkOf s p).2
      ((getCRing s k).down = [] → ends (exec i s) (fun t =>
        (getPort t p).wrap = true ∧ (getCRing t k).down = [q] ∧ latched 12 0 t)) ∧
      (∀ a, (getCRing s k).down = [a] → a ≠ q → ends (exec i s) (fun t =>
        (getPort t p).wrap = true ∧ (getCRing t k).split = true ∧ latched 12 1 t))) ∧
    (x.sync = true → isWorker s = true → s.coil.w.enumerated = true →
      exec (.linkHeal p) s = .next (setPort p { x with lfail := false, healed := x.wrap } s)) ∧
    (x.sync = true → isManager s = true → (getCRing s (p / 2)).down = [(linkOf s p).2] → ends (exec (.linkHeal p) s) (fun t =>
      (getCRing t (p / 2)).down = [] ∧ (getPort t p).lfail = false ∧ (getPort t p).healed = x.wrap ∧ t.flt = s.flt)) ∧
    (x.sync = false → exec (.linkHeal p) s = .next s) ∧
    (∀ t1, x.wrap = false → exec (.delayMeasureStart p t1) s =
      .next (emit (.delayReq p) (setPort p { x with t1 := some t1 } s)))) ∧
  (isManager s = true → 8 ≤ p → let l := linkOf s p
    l.1 < 4 → ringEn s l.1 = true → ∀ bad,
    ((getCRing s l.1).down = [] → ends (exec (.linkSyncLoss p bad) s) (fun t => (getCRing t l.1).down = [l.2] ∧ latched 12 0 t)) ∧
    ((getCRing s l.1).down = [l.2] → ends (exec (.linkHeal p) s) (fun t => (getCRing t l.1).down = [] ∧ t.flt = s.flt))) ∧
  (∀ f t2, portUsed s f.port = true → f.cls = 0 → f.typ = 2 → frameBad f = false →
    exec (.delayReq f t2) s = .next (emit (.delayResp f.port) s)) ∧
  (∀ f t1 ta t4, portUsed s f.port = true → f.cls = 0 → f.typ = 3 → frameBad f = false → (getPort s f.port).t1 = some t1 →
    let m := ((t4 - t1 - ta).toNat / 2 :: (getPort s f.port).meas).take 8
    ends (exec (.delayResp f ta t4) s) (fun t => (getPort t f.port).meas = m ∧ (getPort t f.port).t1 = none ∧
      (getPort t f.port).delay = some (satN 24 ((2 * sumN m + m.length) / (2 * m.length))))) ∧
  (∀ f, isWorker s = true → f.port ≤ 1 → mainPower s = true →
    (s.coil.w.enumerated = false ∨ f.dst ≠ s.coil.w.pos.toNat ∨ f.ring ≠ s.coil.w.ring.toNat) →
    (f.cls ≠ 0 ∨ f.typ = 4 ∨ f.typ = 5 → exec (.frameForward f) s =
      .next (emit (.frame { f with port := if (getPort s (1 - f.port)).wrap then f.port else 1 - f.port }) s)) ∧
    (f.cls = 0 → f.typ = 0 → let u := unwrapAll s
      ((getPort u (1 - f.port)).wrap = false → exec (.frameForward f) s =
        .next (emit (.frame { (sealFrame { f with payload := splice f.payload 12 (le 4 (rd f.payload 12 4 + linkDelay u f.port + 1536)) })
          with port := 1 - f.port }) u)) ∧
      ((getPort u (1 - f.port)).wrap = true → exec (.frameForward f) s = .next u))) ∧
  (∀ f, s.coil.w.enumerated = true → f.dst = s.coil.w.pos.toNat → f.ring = s.coil.w.ring.toNat →
    exec (.frameForward f) s = .next s) ∧
  (∀ f, forWorker s f = true ∨ forManager s f = true → frameBad f = true →
    exec (.frameDiscard f) s = .next { s with coil.crc := satInc s.coil.crc }) ∧
  (∀ f key, forWorker s f = true → frameBad f = false → bit f.flags 0 = true → slotKey s 5 = some key →
    (tagOk key f = false → ends (exec (.frameDiscard f) s) (fun t => t.coil.tagFail = satInc s.coil.tagFail ∧ latched 12 7 t ∧
      t.coil.w = { s.coil.w with dnUses := s.coil.w.dnUses + 1 })) ∧
    (tagOk key f = true → ctrAfter (frameCtr f) s.coil.w.down = false → ends (exec (.frameDiscard f) s) (fun t =>
      t.coil.replay = satInc s.coil.replay ∧ latched 12 7 t ∧ t.coil.w.down = s.coil.w.down))) ∧
  (∀ f key, forManager s f = true → frameBad f = false → bit f.flags 0 = true → upKey s f.ring f.src = some key →
    (tagOk key f = false → ends (exec (.frameDiscard f) s) (fun t => t.coil.tagFail = satInc s.coil.tagFail ∧ latched 12 7 t)) ∧
    (tagOk key f = true → ctrAfter (frameCtr f) (getEnt s f.ring f.src).last = false → ends (exec (.frameDiscard f) s) (fun t =>
      t.coil.replay = satInc s.coil.replay ∧ latched 12 7 t ∧ (getEnt t f.ring f.src).last = (getEnt s f.ring f.src).last)))

/-- Beacons at a worker. The first one of the selected direction sets the Wheel; one near the own position sets the frequency
and leaves its residual to slewing, and the fourth in a row within 32 units sets LOCK; a far one is rejected, and the third in a
row is holdover; one of the other direction is only noted, unless the selected one has stopped. Two turns without a beacon are
holdover, and a SYNC whose flagged beacons those were is missed (R39, R52, R56, R59, R381). That LOCK falls with holdover
alone is the model's choice (log entry 88). -/
def Obligations.WorkerBeacons : Prop := ∀ (b : Beacon) (s : State), isWorker s = true →
  let p := if b.ccw then 1 else 0
  let w := s.coil.w
  let d := b.pathDelay.toNat + linkDelay (unwrapAll s) p
  let want := b.pos + BitVec.ofNat 64 ((2 * d * b.freq.toNat + 1000000000) / 2000000000)
  let res := (s.whl.pos - want).toInt
  let far := turnOf want ≠ turnOf s.whl.pos ∨ 2 ^ 24 < res.natAbs * 360
  let gone := (getPort (unwrapAll s) (1 - p)).wrap = true ∨ dirStopped w (turnOf b.pos) d = true
  (s.whl.run = true → s.flt.phase ≠ .safe →
    (w.ccw = b.ccw ∨ gone ∨ (w.dCw = none ∧ w.dCcw = none ∧ w.enumerated = false) →
      (s.whl.nolock = true → ends (exec (.beaconReceive b) s) (fun t =>
        t.whl.pos = want ∧ t.whl.freq = b.freq ∧ t.coil.w.d = BitVec.ofNat 32 d ∧ t.coil.w.ccw = b.ccw ∧ t.flt = s.flt)) ∧
      (s.whl.nolock = false → ¬ far → ends (exec (.beaconReceive b) s) (fun t =>
        t.whl.pos = s.whl.pos ∧ t.whl.freq = b.freq ∧ t.whl.pherr = BitVec.ofInt 32 res ∧ t.whl.bMissed = 0 ∧
        t.whl.bRejects = 0 ∧ (s.whl.lock = true ∨ (res.natAbs ≤ 32 ∧ 3 ≤ s.whl.bGood) → t.whl.lock = true ∧
          t.whl.hold = bit b.state 1) ∧
        t.coil.w.d = BitVec.ofNat 32 d ∧ t.coil.w.ccw = b.ccw ∧ t.flt = s.flt)) ∧
      (s.whl.nolock = false → far → ends (exec (.beaconReceive b) s) (fun t =>
        t.whl.pos = s.whl.pos ∧ t.whl.freq = s.whl.freq ∧ latched 3 3 t ∧
        (2 ≤ s.whl.bRejects → s.whl.bMissed < 2 → t.whl.hold = true ∧ t.whl.lock = false ∧ latched 3 2 t)))) ∧
    (w.ccw ≠ b.ccw → ¬ gone → (w.dCw.isSome = true ∨ w.dCcw.isSome = true ∨ w.enumerated = true) →
      ends (exec (.beaconReceive b) s) (fun t =>
        t.whl = s.whl ∧ t.coil.w.d = w.d ∧ t.coil.w.ccw = w.ccw ∧
        (if b.ccw then t.coil.w.dCcw else t.coil.w.dCw) = some (BitVec.ofNat 32 d)))) ∧
  (s.whl.run = false ∨ s.flt.phase = .safe → exec (.beaconReceive b) s = .next s) ∧
  (∀ flagged,
    (s.whl.bMissed < 2 → ends (exec (.beaconLost flagged) s) (fun t =>
      t.whl.hold = true ∧ t.whl.lock = false ∧ t.whl.pos = s.whl.pos ∧ latched 3 2 t)) ∧
    (flagged = true → s.whl.sync = none → ends (exec (.beaconLost flagged) s) (fun t =>
      t.whl.pos = s.whl.pos ∧ latched 3 4 t)) ∧
    (2 ≤ s.whl.bMissed → flagged = false ∨ s.whl.sync.isSome = true → exec (.beaconLost flagged) s = .next s))

/-- Enumeration of a ring: it starts on both ports; a HELLO of a known or, while the table is filled, a new worker takes its
position, one of an unknown worker is FOREIGN; ASSIGN and STATUS bind the worker by their challenges; a STATUS moves its entry
and a LOST one starts a fresh exchange; a worker silent for 1.0 s is LOST, and the end settles the ring (R376, R377, R378,
R389, R393). Ring 13, of a manager in METERING: RING_SET takes the configuration over and waits for its record, until a freeze
of R14; RING_INFO replies with the ring and its workers; ENUMERATE starts an enumeration or is BUSY; elsewhere each is
NOT_READY (R392, R393). -/
def Obligations.EnumerationAndRing13 : Prop :=
  (∀ (k : Nat) (s : State), k < 4 →
    (isManager s = true → ringEn s k = true → (getCRing s k).enumerating = false → ends (exec (.enumerationStart k) s) (fun t =>
      (getCRing t k).enumerating = true ∧ (getCRing t k).found = 0 ∧ (getCRing t k).hellos = [] ∧
      (getCRing t k).table = (getCRing s k).table ∧ t.nvs = s.nvs)) ∧
    (isManager s = false ∨ ringEn s k = false ∨ (getCRing s k).enumerating = true →
      exec (.enumerationStart k) s = .next s) ∧
    (isManager s = true → (getCRing s k).enumerating = true → ends (exec (.enumerationEnd k) s) (fun t =>
      (getCRing t k).enumerating = false ∧ (getCRing t k).enumWaits = [] ∧ t.nvs.recs = s.nvs.recs)) ∧
    (isManager s = true → (getCRing s k).enumerating = false → exec (.enumerationEnd k) s = .next s) ∧
    (isWorker s = true → exec (.enumerationEnd k) s = .next { s with coil.w := selectDir s.coil.w }) ∧
    (∀ f h, forManager s f = true → f.cls = 0 → f.typ = 4 → frameBad f = false → let c := getCRing s f.ring
      (c.enumerating = true → h.hopCw ≠ 0xFF ∨ h.hopCcw ≠ 0xFF ∧ c.renumber = false →
        c.hellos.any (fun x => x.ident == h.ident) = false → c.refused.contains h.ident = false → s.sgr.trngOk = true →
        (∀ pos, posOf c h = some pos → ends (exec (.helloFrame f h) s) (fun t =>
          tget (getCRing t f.ring).table pos = some h.ident ∧ (getCRing t f.ring).hellos = c.hellos ++ [h] ∧
          (getEnt t f.ring pos).ident = h.ident)) ∧
        (posOf c h = none → ends (exec (.helloFrame f h) s) (fun t =>
          (getCRing t f.ring).table = c.table ∧ (getCRing t f.ring).hellos = c.hellos ∧
          (getCRing t f.ring).refused = c.refused ++ [h.ident] ∧ latched 12 4 t))) ∧
      (c.enumerating = false → f.src = 0xFE → c.refused.contains h.ident = false →
        c.enumStart = 0 ∨ 100 * msSlots ≤ s.slot - c.enumStart → ends (exec (.helloFrame f h) s) (fun t =>
          (getCRing t f.ring).enumerating = true ∧ (getCRing t f.ring).table = c.table))) ∧
    (isWorker s = false ∨ s.coil.w.enumerated = true → exec .helloTimer s = .next s) ∧
    (isWorker s = true → s.coil.w.enumerated = false → s.sgr.trngOk = true → s.coil.w.chal ≠ [] →
      let h : Hello := ⟨identNum s, 0xFF, 0xFF, BitVec.ofNat 4 (bootNum s.boot.st), s.coil.w.chal⟩
      let u := if (getPort s 0).sync then emit (.hello 0 0xFE h) s else s
      exec .helloTimer s = .next (if (getPort s 1).sync then emit (.hello 1 0xFE h) u else u)) ∧
    (∀ f hop d, isWorker s = true → f.port ≤ 1 → f.cls = 0 → f.typ = 1 → frameBad f = false →
      ends (exec (.enumFrame f hop d) s) (fun t =>
        (if f.port = 0 then t.coil.w.hopCw else t.coil.w.hopCcw) = BitVec.ofNat 8 (hop + 1) ∧
        (if f.port = 0 then t.coil.w.dCw else t.coil.w.dCcw) = some (d + BitVec.ofNat 32 (linkDelay s f.port)) ∧
        t.coil.w.enumerated = s.coil.w.enumerated)) ∧
    (∀ f a key, isWorker s = true → f.cls = 1 → f.typ = 2 → frameBad f = false → slotKey s 5 = some key → tagOk key f = true →
      f.payload = assignPayload a → ctrAfter (frameCtr f) s.coil.w.down = true → s.coil.w.chal ≠ [] →
      a.challenge = s.coil.w.chal → a.ring ≤ 3 → 1 ≤ a.pos → a.pos ≤ 127 → ends (exec (.assignFrame f a) s) (fun t =>
        t.coil.w.enumerated = true ∧ t.coil.w.ring.toNat = a.ring ∧ t.coil.w.pos.toNat = a.pos ∧ t.coil.w.chal = [] ∧
        t.coil.w.down = some (frameCtr f))) ∧
    (∀ f st key, forManager s f = true → f.cls = 1 → f.typ = 3 → frameBad f = false → upKey s f.ring f.src = some key →
      tagOk key f = true → f.payload = statusPayload st → ctrAfter (frameCtr f) (getEnt s f.ring f.src).last = true →
      let e := getEnt s f.ring f.src
      let fresh := e.chal ≠ [] ∧ st.challenge = e.chal
      (fresh ∨ e.state = 2 ∨ e.state = 3 ∨ e.state = 4 → ends (exec (.statusFrame f st) s) (fun t =>
        (getEnt t f.ring f.src).state = stateOf st.boot ∧ (getEnt t f.ring f.src).d = st.d ∧
        (getEnt t f.ring f.src).last = some (frameCtr f) ∧ (fresh → (getEnt t f.ring f.src).chal = []) ∧
        (stateOf st.boot = 4 → e.state ≠ 4 → latched 12 3 t))) ∧
      (¬ fresh → e.state = 5 → (getCRing s f.ring).enumerating = false → ends (exec (.statusFrame f st) s) (fun t =>
        (getCRing t f.ring).enumerating = true ∧ (getEnt t f.ring f.src).state = 5))) ∧
    (isWorker s = true → s.coil.w.enumerated = true → exec .statusSend s = .next (sendStatus [] s)) ∧
    (isWorker s = false ∨ s.coil.w.enumerated = false → exec .statusSend s = .next s) ∧
    (∀ pos, isManager s = true → let e := getEnt s k pos
      e.state = 2 ∨ e.state = 3 ∨ e.state = 4 →
      (1000 * msSlots ≤ s.slot - e.heard → ends (exec (.workerLost k pos) s) (fun t =>
        (getEnt t k pos).state = 5 ∧ latched 12 2 t)) ∧
      (s.slot - e.heard < 1000 * msSlots → exec (.workerLost k pos) s = .next s))) ∧
  (∀ (r : Req) (s : State),
    let b := r.buf
    let k := rd b 0 1
    (isManager s = true → metering s = true → b.length = 8 → k ≤ 3 → rd b 1 1 ≤ 7 → rd b 2 1 ≤ 127 → zerosAt b 3 5 = true →
      (writeForbidden s (nvKey .coilRing k) = true → exec (.ringSet r) s =
        .next (complete (reqWaiter r 13 0x90) statusDenied 0 [] (protRefuse s))) ∧
      (writeForbidden s (nvKey .coilRing k) = false →
        (gasped s = true → exec (.ringSet r) s = .next (waitReq (reqWaiter r 13 0x90) s)) ∧
        (gasped s = false → ends (exec (.ringSet r) s) (fun t =>
          (getCRing t k).cfg = BitVec.ofNat 32 (rd b 1 1 % 2 * 2 ^ 31 + rd b 1 1 / 2 % 2 * 2 ^ 30 + rd b 2 1) ∧
          t.nvs.recs = s.nvs.recs)))) ∧
    (isManager s = true → metering s = true → 4080 ≤ b.length → k ≤ 3 →
      exec (.ringInfo r) s = .next (complete (reqWaiter r 13 0x91) statusOk 0 (ringInfoReply s k) s)) ∧
    (isManager s = true → metering s = true → b.length = 4 → k ≤ 3 → zerosAt b 1 3 = true → ringEn s k = true →
      ((getCRing s k).enumerating = true → exec (.enumerate r) s = .next (complete (reqWaiter r 13 0x92) statusBusy 0 [] s)) ∧
      ((getCRing s k).enumerating = false → ends (exec (.enumerate r) s) (fun t =>
        (getCRing t k).enumerating = true ∧ (getCRing t k).enumWaits = (getCRing s k).enumWaits ++ [reqWaiter r 13 0x92]))) ∧
    (isManager s = false ∨ metering s = false →
      exec (.ringSet r) s = .next (complete (reqWaiter r 13 0x90) statusNotReady 0 [] s) ∧
      exec (.ringInfo r) s = .next (complete (reqWaiter r 13 0x91) statusNotReady 0 [] s) ∧
      exec (.enumerate r) s = .next (complete (reqWaiter r 13 0x92) statusNotReady 0 [] s)))

/-- Records, credit and commands over a ring. A whole record in one segment joins its host ring's queue as it was; a record
that is not whole after 1 s is discarded. Credit and acknowledgements move the worker's counters and its mirror, a frame without
acknowledgement for 20 ms takes a new counter. A worker runs a command as its own ring would, a reply ends its request at the
manager. An image is asked for, 10 s after a refusal at the earliest, and broadcast at most once in 100 ms. A KEY frame reaches
the worker that it names, under the ring keys or the envelope keys, and its result ends the manager's request (R305, R375, R387,
R388, R391, R411, R442). -/
def Obligations.CoilTraffic : Prop := ∀ (f : Frame) (s : State),
  let p := f.payload
  (fromManager 1 4 f s → ends (exec (.creditFrame f) s) (fun t => t.coil.w.down = some (frameCtr f) ∧
    t.coil.w.enumerated = true ∧ t.nvs.recs = s.nvs.recs ∧ (s.coil.w.report = [] → s.coil.w.bulk = [] →
      t.coil.w.credR = min (2 ^ 32) (s.coil.w.credR + rd p 0 4) ∧
      t.coil.w.credB = min (2 ^ 32) (s.coil.w.credB + rd p 4 4) ∧ t.out = s.out))) ∧
  (fromManager 1 5 f s → ends (exec (.ackFrame f) s) (fun t => t.coil.w.down = some (frameCtr f) ∧ t.nvs.recs = s.nvs.recs ∧
    (s.coil.w.report = [] → s.coil.w.bulk = [] →
      t.coil.w.sent = s.coil.w.sent.filter (fun x => !(ackCtrs p).contains x.ctr)) ∧
    (∀ x q, s.coil.w.sent = [x] → (ackCtrs p).contains x.ctr = true → x.recs = [(5, q)] →
      seqNewer (q + 1) s.nvs.mirror = true → t.nvs.mirror = q + 1))) ∧
  (∀ c x, isWorker s = true → s.coil.w.sent.find? (fun x => x.ctr == c) = some x → (slotKey s 6).isSome = true →
    (20 * msSlots ≤ s.slot - x.at_ → ends (exec (.reportRetransmit c) s) (fun t =>
      t.coil.w.sent = s.coil.w.sent.map (fun y => if y.ctr == c then { y with ctr := s.coil.w.ownCtr, at_ := s.slot } else y) ∧
      t.coil.w.ownCtr = s.coil.w.ownCtr + 1)) ∧
    (s.slot - x.at_ < 20 * msSlots → exec (.reportRetransmit c) s = .next s)) ∧
  (fromWorker 2 0 f s → ends (exec (.reportRecords f) s) (fun t => (getEnt t f.ring f.src).last = some (frameCtr f) ∧
    (getEnt t f.ring f.src).state = (getEnt s f.ring f.src).state ∧
    (∀ ring, ∀ q : QRec, ring ∈ [2, 3, 4, 5, 12, 14] → q.log = none → q.hold = none → 0 < q.bytes.length →
      q.bytes.length ≤ 2036 → p = segment ring 0 q q.bytes.length → s.coil.joins = [] →
      tget (getEnt s f.ring f.src).newest ring = none → queueOver ring ((getRing s ring).queue ++ [q]) = false →
      (getRing t ring).queue = (getRing s ring).queue ++ [q] ∧ t.coil.joins = []))) ∧
  (∀ ring, ∀ q : QRec, ring = 6 ∨ ring = 7 → forManager s f = true → f.cls = 3 → f.typ = 0 → frameBad f = false →
    ((getEnt s f.ring f.src).state = 2 ∨ (getEnt s f.ring f.src).state = 3 ∨ (getEnt s f.ring f.src).state = 4) →
    q.log = none → q.hold = none → 0 < q.bytes.length → q.bytes.length ≤ 2036 → p = segment ring 0 q q.bytes.length →
    s.coil.joins = [] → tget (getEnt s f.ring f.src).newest ring = none →
    ends (exec (.bulkRecords f) s) (fun t => (getRing t ring).queue = (getRing s ring).queue ++ [q] ∧ t.coil.joins = [])) ∧
  (∀ k pos ring seq, ends (exec (.segmentTimeout k pos ring seq) s) (fun t => t = { s with coil := t.coil } ∧
    ∀ j, j ∈ t.coil.joins ↔ j ∈ s.coil.joins ∧
      ¬ (j.ring = k ∧ j.pos = pos ∧ j.host = ring ∧ j.seq = seq ∧ 1000 * msSlots ≤ s.slot - j.start))) ∧
  (fromManager 1 0 f s → 8 ≤ p.length →
    let s1 := { s with coil.w := { s.coil.w with down := some (frameCtr f), dnUses := s.coil.w.dnUses + 1 } }
    let r : Req := ⟨.coil, BitVec.ofNat 32 (rd p 4 4), BitVec.ofNat 32 (rd p 4 4), false, zeros 16, p.drop 8⟩
    (failed s = true → exec (.commandFrame f) s = .next s1) ∧
    (failed s = false → (∀ o, runCommand (rd p 0 1) (rd p 1 1) r s1 = some o → exec (.commandFrame f) s = .next (outState o s1)) ∧
      (rd p 0 1 = 0 → rd p 1 1 = 4 → exec (.commandFrame f) s = exec (.tripClear r) s1) ∧
      (rd p 0 1 = 11 → rd p 1 1 = 0x61 → exec (.commandFrame f) s = exec (.creditEc r) s1) ∧
      (runCommand (rd p 0 1) (rd p 1 1) r s1 = none → exec (.commandFrame f) s =
        .next (complete (reqWaiter r (rd p 0 1 % 16) (BitVec.ofNat 8 (rd p 1 1))) statusBadOpcode 0 [] s1)))) ∧
  (∀ x, fromWorker 1 1 f s → fwdOf s f.ring f.src (BitVec.ofNat 32 (rd p 4 4)) = some x → rd p 1 1 = x.op.toNat →
    ends (exec (.replyFrame f) s) (fun t => (getEnt t f.ring f.src).last = some (frameCtr f) ∧
      ∀ y ∈ t.hif.fwd, y.mtag ≠ x.mtag)) ∧
  (forManager s f = true → f.cls = 0 → f.typ = 5 → frameBad f = false → let c := getCRing s f.ring
    (s.boot.fired = false ∨ (∃ t, c.lastCast = some t ∧ s.slot - t < 100 * msSlots) → exec (.imageNeed f) s = .next s) ∧
    (s.boot.fired = true → (∀ t, c.lastCast = some t → 100 * msSlots ≤ s.slot - t) → ends (exec (.imageNeed f) s) (fun t =>
      (getCRing t f.ring).lastCast = some s.slot ∧ t.boot = s.boot))) ∧
  (isWorker s = true → s.boot.st = .greenware ∨ s.boot.st = .hold → s.boot.fired = false →
    (imageComplete s = false → (∀ t, s.boot.refusedSlot = some t → t + 245760000 ≤ s.slot) →
      exec .imageNeedTimer s = .next (sendNeed s)) ∧
    (imageComplete s = true ∨ (∃ t, s.boot.refusedSlot = some t ∧ s.slot < t + 245760000) →
      exec .imageNeedTimer s = .next s)) ∧
  (isWorker s = true → f.cls = 1 → f.typ = 6 →
    (p.take 8 ≠ identBytes → exec (.keyFrame f) s = .next s) ∧
    (f.dst = 0xFF → 12 ≤ p.length → p.take 8 = identBytes → rd p 8 1 = 0 →
      (rd p 9 1 = 0 → fromManager 1 6 f s → ends (exec (.keyFrame f) s) (fun t => t.coil.w.down = some (frameCtr f))) ∧
      (rd p 9 1 = 1 → frameBad f = false → f.session = 0xFFFFFFFF → envelopeOp (rd p 10 1) = true → tagOk kFdn f = true →
        (s.sgr.envDown.toNat < f.ctr.toNat → ends (exec (.keyFrame f) s) (fun t => t.sgr.envDown = f.ctr)) ∧
        (f.ctr.toNat ≤ s.sgr.envDown.toNat → ends (exec (.keyFrame f) s) (fun t =>
          t.sgr.envDown = s.sgr.envDown ∧ t.coil.replay = satInc s.coil.replay ∧ latched 12 7 t))))) ∧
  (isManager s = true → f.cls = 1 → f.typ = 6 → bit f.flags 1 = true → 12 ≤ p.length → rd p 8 1 = 1 → f.ring = f.port / 2 →
    ringEn s f.ring = true → frameBad f = false →
    (∀ key x, rd p 9 1 = 0 → upKey s f.ring f.src = some key → tagOk key f = true →
      ctrAfter (frameCtr f) (getEnt s f.ring f.src).last = true → keyFwd s f.ring f.src (rd p 10 1) = some x →
      ends (exec (.keyFrame f) s) (fun t => (getEnt t f.ring f.src).last = some (frameCtr f) ∧
        ∀ y ∈ t.hif.fwd, y.mtag ≠ x.mtag)) ∧
    (rd p 9 1 ≠ 0 → f.session = 0xFFFFFFFF → ends (exec (.keyFrame f) s) (fun t =>
      t.sgr.seq = s.sgr.seq + 1 ∧ (getRing t 10).queue.length = (getRing s 10).queue.length + 1)))

/-- Saggar requests of the own host: each ends in one result record. A signature, a change record and a key load are key
operations that wait; what fails their first checks ends at once, a stale change record counted and raised. KEY_ERASE empties
a slot whose policy lets it, and is DENIED of another; KEY_INFO shows a slot; RANDOM answers from the DRBG while it serves; a
manager passes an envelope frame on. The end of a key operation takes the oldest: a token whose tag is good waits for its credit
record, and one whose tag differs is AUTH_FAIL and counted (R256, R420, R432, R437, R439, R441, R442, R443, R444, R445). -/
def Obligations.SaggarRequests : Prop := ∀ (r : Req) (s : State),
  let body := r.buf.drop 8
  let i := rd body 0 1
  (ownRing9 0x40 r s →
    (s.sgr.trngOk = true → ends (exec (.attest r) s) (fun t =>
      t.sgr.ops = s.sgr.ops ++ [.attest (sagReq 0x40 r s)] ∧ t.sgr.seq = s.sgr.seq)) ∧
    (s.sgr.trngOk = false → exec (.attest r) s = .next (sagDone (sagReq 0x40 r s) statusNotReady [] s))) ∧
  (ownRing9 0x41 r s → exec (.certRead r) s = .next (sagDone (sagReq 0x41 r s) statusOk certBytes s)) ∧
  (ownRing9 0x42 r s →
    (changeBad s body = none → ends (exec (.guardChange r) s) (fun t =>
      t.sgr.ops = s.sgr.ops ++ [.change (sagReq 0x42 r s)] ∧ t.sgr.guard_ = s.sgr.guard_)) ∧
    (changeBad s body = some statusStale → ends (exec (.guardChange r) s) (fun t =>
      t.sgr.refStale = satInc s.sgr.refStale ∧ latched 13 5 t ∧ t.sgr.ops = s.sgr.ops ∧ t.sgr.guard_ = s.sgr.guard_))) ∧
  (ownRing9 0x43 r s → exec (.guardRead r) s =
    .next (sagDone (sagReq 0x43 r s) statusOk (guardNormal s s.sgr.guard_ ++ apprPayload s) s)) ∧
  (ownRing9 0x44 r s →
    (loadBad s body = none → ends (exec (.keyLoad r) s) (fun t =>
      t.sgr.ops = s.sgr.ops ++ [.load (sagReq 0x44 r s) (policyOf s (rd body 8 1))] ∧ t.sgr.slots = s.sgr.slots)) ∧
    (∀ st, loadBad s body = some st → exec (.keyLoad r) s = .next (sagDone (sagReq 0x44 r s) st [] s))) ∧
  (ownRing9 0x45 r s → i ≤ 63 → zerosAt body 1 3 = true →
    ((policyOf s i).testBit 4 = true → ends (exec (.keyErase r) s) (fun t =>
      getSlot t i = Init.kslot ∧ t.sgr.seq = s.sgr.seq + 1 ∧ t.nvs.recs = s.nvs.recs)) ∧
    ((policyOf s i).testBit 4 = false → exec (.keyErase r) s = .next (sagDone (sagReq 0x45 r s) statusDenied [] s))) ∧
  (ownRing9 0x46 r s → i ≤ 63 → zerosAt body 1 3 = true → exec (.keyInfo r) s = .next (sagDone (sagReq 0x46 r s) statusOk
    (le 1 i ++ le 1 (getSlot s i).st.toNat ++ zeros 2 ++ le 4 (policyOf s i)
      ++ le 4 (if i ≤ 4 ∨ i = 7 ∨ i = 8 then 0 else (getSlot s i).gen.toNat) ++ slotCheck s i) s)) ∧
  (ownRing9 0x47 r s → 1 ≤ rd body 0 2 → rd body 0 2 ≤ 1024 → zerosAt body 2 2 = true → exec (.random r) s = .next (
    if s.sgr.trngOk = true then sagDone (sagReq 0x47 r s) statusOk (drawRandom (rd body 0 2) s).1 (drawRandom (rd body 0 2) s).2
    else sagDone (sagReq 0x47 r s) statusNotReady [] s)) ∧
  (r.via = .host → s.boot.fired = true → 48 ≤ r.buf.length → r.buf.length ≤ 2084 → zerosAt r.buf 4 4 = true →
    rd r.buf 0 4 % 2 ^ 15 = 0 → rd r.buf 0 4 < 2 ^ 17 →
    (isManager s = true → ringEn s (rd r.buf 0 4 / 2 ^ 15) = true → ends (exec (.keyRelay r) s) (fun t =>
      t.sgr.seq = s.sgr.seq + 1 ∧ ∃ f : Frame, f.payload = r.buf.drop 36 ∧ f.ring = rd r.buf 0 4 / 2 ^ 15 ∧ .frame f ∈ t.out)) ∧
    (isManager s = false → exec (.keyRelay r) s = .next (sagDone (sagReq 0x48 r s) statusNotReady [] s))) ∧
  (s.sgr.ops = [] → exec .keyOperationEnd s = .next s) ∧
  (∀ op rest, s.sgr.ops = op :: rest → ends (exec .keyOperationEnd s) (fun t => t.sgr.ops = rest)) ∧
  (∀ q rest, s.sgr.ops = .attest q :: rest → ends (exec .keyOperationEnd s) (fun t =>
    t.sgr.ops = rest ∧ t.sgr.seq = s.sgr.seq + 1)) ∧
  (∀ w b rest, s.sgr.ops = .token w b :: rest → let p := rd b 4 1
    let s1 := { s with sgr.ops := rest }
    (slotKey s 2 = none → exec .keyOperationEnd s = .next (complete w statusNotReady 0 [] s1)) ∧
    (∀ k, slotKey s 2 = some k →
      (Config.hmac k (b.take 48) ≠ (b.drop 48).take 48 → ends (exec .keyOperationEnd s) (fun t =>
        t.crd.tokRef = satInc s.crd.tokRef ∧ latched 8 0 t ∧ t.crd.cred = s.crd.cred ∧ t.nvs.groups = s.nvs.groups)) ∧
      ((∀ n, (credNewest s p).serial = some n → n.toNat < rd b 8 8) →
        (rd b 24 1 = 1 → (credNewest s p).c + rd b 16 8 ≤ 2 ^ 63 - 1) → writeForbidden s (nvKey .credit p) = false →
        gasped s = false → ends (exec .keyOperationEnd s) (fun t => Config.hmac k (b.take 48) = (b.drop 48).take 48 →
          t = wedgeSlot 2 (waitReq w (commitRecEff (nvKey .credit p)
            (.credit (withRefs s1 p (effCred (getPcfg s p) p (credNewest s p) (.token p b)))) 1 (some (w, statusOk))
            (some (.token p b)) s1))))))

/-- The Saggar's own work. A wedge pass gives every key and the root fresh shares and never changes a key, and puts a loaded key
that waits in force; an inversion in backup changes the shares of the newest root copy alone; a rewrapped slot keeps its key
under the next generation, with its record in a commit group, until a freeze of R14. A failed TRNG stops the DRBG and is raised
until its restart, which reseeds it; a reseed does too (R14, R422, R428, R431, R432, R433, R466). -/
def Obligations.KeysKeepTheirValue : Prop := ∀ s : State,
  (s.sgr.trngOk = true →
    (∀ i, (getSlot s i).taken.key.v.length = (getSlot s i).taken.key.m.length) →
    ends (exec .wedgePass s) (fun t => t.sgr.passes = s.sgr.passes + 1 ∧ t.nvs = s.nvs ∧
      (∀ i, (getSlot t i).key.key = (getSlot s i).taken.key.key ∧ (getSlot t i).st = (getSlot s i).taken.st ∧
        (getSlot t i).gen = (getSlot s i).taken.gen ∧ (getSlot t i).next = none) ∧
      (∀ r b, newestRoot s = some (r, b) → r.share.v.length = r.share.m.length →
        ∃ r', newestRoot t = some (r', !b) ∧ r'.share.key = r.share.key ∧ r'.gen = r.gen + 1 ∧ r'.kcv = r.kcv))) ∧
  (s.sgr.trngOk = false → exec .wedgePass s = .next s ∧ exec .drbgReseed s = .next s) ∧
  (s.boot.st = .backup → ends (exec .rootInvert s) (fun t =>
    t.sgr.rootA.share.key = s.sgr.rootA.share.key ∧ t.sgr.rootB.share.key = s.sgr.rootB.share.key ∧
    (∀ r b, newestRoot s = some (r, b) → (if b then t.sgr.rootA else t.sgr.rootB).share =
      ⟨r.share.v.map (fun x => ~~~ x), r.share.m.map (fun x => ~~~ x)⟩) ∧ t = { s with sgr := t.sgr })) ∧
  (s.boot.st ≠ .backup → exec .rootInvert s = .next s) ∧
  (∀ i, slotNums.contains i = true → (wrapRoot s).isSome = true → (getSlot s i).taken.st = 1 →
    (newestKey s i).2 = (getSlot s i).taken.gen → s.sgr.trngOk = true → gasped s = false →
    ends (exec (.slotRewrap i) s) (fun t =>
      getSlot t i = { (getSlot s i).taken with gen := (getSlot s i).taken.gen + 1 } ∧
      t.nvs.groups.length = s.nvs.groups.length + 1 ∧ t.nvs.recs = s.nvs.recs)) ∧
  (∀ i, wrapRoot s = none ∨ (getSlot s i).taken.st ≠ 1 ∨ s.sgr.trngOk = false ∨ gasped s = true →
    exec (.slotRewrap i) s = .next s) ∧
  (running s = true → bit (getBlk s 13).flive 0 = false → ends (exec .trngHealthFail s) (fun t =>
    t.sgr.trngOk = false ∧ latched 13 0 t ∧ bit (getBlk t 13).flive 0 = true)) ∧
  (running s = true → bit (getBlk s 13).flive 0 = true → exec .trngHealthFail s = .next { s with sgr.trngOk := false }) ∧
  (running s = false → exec .trngHealthFail s = .next s) ∧
  (bit (getBlk s 13).flive 0 = true → ends (exec .trngRestartDone s) (fun t =>
    t.sgr.trngOk = true ∧ t.sgr.reqs = 0 ∧ bit (getBlk t 13).flive 0 = false ∧ (getSrc t 13 0).severe = none)) ∧
  (bit (getBlk s 13).flive 0 = false → exec .trngRestartDone s = .next s) ∧
  (s.sgr.trngOk = true → exec .drbgReseed s = .next { s with sgr.reqs := 0, free := s.free + 1 })
end

