-- ==== Sys2Proof/Laws/Foot.lean ====
section
/-!
SUPPORT. What each operation of the machine leaves unchanged: with the blocks it may change hidden, the state after is the
state before. One lemma per operation.
-/
namespace Sys2Proof.Laws
open Sys2Proof.Machine

/-- A block of the mask is hidden. -/
class Hidden (b : Bool) : Prop where
  eq : b = true

/-- A block is hidden or the same. -/
def Hid {α : Type} (b : Bool) (x y : α) : Prop := b = true ∨ x = y

@[simp ↓] theorem hid_rfl {α : Type} (b : Bool) (x : α) : Hid b x x = True := by simp [Hid]
@[simp ↓] theorem hid_on {α : Type} (b : Bool) [h : Hidden b] (x y : α) : Hid b x y = True := by simp [Hid, h.eq]

theorem sel_eq {α : Type} {b : Bool} {x y : α} (d : α) (h : Hid b x y) : (if b = true then d else x) = (if b = true then d else y) := by
  rcases h with h | h <;> simp [h]

/-- The boot block without its state, or the state, is hidden or the same. -/
def HidBoot (μ : Mask) (x y : Boot) : Prop :=
  (if μ.bootSt = true then BootSt.off else x.st) = (if μ.bootSt = true then BootSt.off else y.st) ∧
  { (if μ.boot = true then Init.boot else x) with st := .off } = { (if μ.boot = true then Init.boot else y) with st := .off }

/-- The store, or the rest of its block, is hidden or the same. -/
def HidNvs (μ : Mask) (x y : Nvs) : Prop :=
  { (if μ.nvs = true then Init.nvs else x) with recs := [], images := [], dirty := [], spread := [] } =
    { (if μ.nvs = true then Init.nvs else y) with recs := [], images := [], dirty := [], spread := [] } ∧
  (if μ.store = true then [] else x.recs) = (if μ.store = true then [] else y.recs) ∧
  (if μ.store = true then [] else x.images) = (if μ.store = true then [] else y.images) ∧
  (if μ.store = true then [] else x.dirty) = (if μ.store = true then [] else y.dirty) ∧
  (if μ.store = true then [] else x.spread) = (if μ.store = true then [] else y.spread)

@[simp ↓] theorem hidBoot_rfl (μ : Mask) (x : Boot) : HidBoot μ x x = True := by simp [HidBoot]
@[simp ↓] theorem hidBoot_both (μ : Mask) [h : Hidden μ.boot] [h1 : Hidden μ.bootSt] (x y : Boot) : HidBoot μ x y = True := by
  simp [HidBoot, h.eq, h1.eq]
@[simp ↓] theorem hidBoot_st (μ : Mask) [h : Hidden μ.bootSt] (y : Boot) (v_st : BootSt) :
    HidBoot μ (Boot.mk v_st y.cause y.holdCause y.strap y.role y.img y.fired y.id y.lrel y.arel y.match_ y.refusals y.result y.tfired y.tmeter y.waitRaised y.calDone y.greenSlot y.refusedSlot y.resetnLow y.abort) y = True := by
  by_cases hb : μ.boot = true <;> simp [HidBoot, h.eq, hb]
@[simp ↓] theorem hidBoot_rest (μ : Mask) [h : Hidden μ.boot] (y : Boot) (v_cause v_holdCause v_strap v_role v_img v_fired v_id v_lrel v_arel v_match_ v_refusals v_result v_tfired v_tmeter v_waitRaised v_calDone v_greenSlot v_refusedSlot v_resetnLow v_abort) :
    HidBoot μ (Boot.mk y.st v_cause v_holdCause v_strap v_role v_img v_fired v_id v_lrel v_arel v_match_ v_refusals v_result v_tfired v_tmeter v_waitRaised v_calDone v_greenSlot v_refusedSlot v_resetnLow v_abort) y = True := by
  simp [HidBoot, h.eq]
@[simp ↓] theorem hidNvs_rfl (μ : Mask) (x : Nvs) : HidNvs μ x x = True := by simp [HidNvs]
@[simp ↓] theorem hidNvs_both (μ : Mask) [h : Hidden μ.nvs] [h1 : Hidden μ.store] (x y : Nvs) : HidNvs μ x y = True := by
  simp [HidNvs, h.eq, h1.eq]
@[simp ↓] theorem hidNvs_store (μ : Mask) [h : Hidden μ.store] (y : Nvs) (v_recs v_images v_dirty v_spread) :
    HidNvs μ (Nvs.mk y.prot v_recs v_images v_dirty v_spread y.spreadDue y.log y.logBad y.logHead y.logQueue y.logSram y.mirror y.gap y.logLost y.groups y.gstep y.gleft y.journal y.journalBad y.nGroups y.bdone y.refused y.session y.ready y.warn y.inhibit y.lg y.lgDone y.lga y.lgb y.lgCurrent y.lgTorn y.lgAreaUsed y.lgBoundary y.lgCause y.lgElapsed y.corr y.uncorr y.scrubPage y.passes y.replayed y.rebuilt) y = True := by
  by_cases hb : μ.nvs = true <;> simp [HidNvs, h.eq, hb]
@[simp ↓] theorem hidNvs_rest (μ : Mask) [h : Hidden μ.nvs] (y : Nvs) (v_prot v_spreadDue v_log v_logBad v_logHead v_logQueue v_logSram v_mirror v_gap v_logLost v_groups v_gstep v_gleft v_journal v_journalBad v_nGroups v_bdone v_refused v_session v_ready v_warn v_inhibit v_lg v_lgDone v_lga v_lgb v_lgCurrent v_lgTorn v_lgAreaUsed v_lgBoundary v_lgCause v_lgElapsed v_corr v_uncorr v_scrubPage v_passes v_replayed v_rebuilt) :
    HidNvs μ (Nvs.mk v_prot y.recs y.images y.dirty y.spread v_spreadDue v_log v_logBad v_logHead v_logQueue v_logSram v_mirror v_gap v_logLost v_groups v_gstep v_gleft v_journal v_journalBad v_nGroups v_bdone v_refused v_session v_ready v_warn v_inhibit v_lg v_lgDone v_lga v_lgb v_lgCurrent v_lgTorn v_lgAreaUsed v_lgBoundary v_lgCause v_lgElapsed v_corr v_uncorr v_scrubPage v_passes v_replayed v_rebuilt) y = True := by
  simp [HidNvs, h.eq]
theorem sel_boot {μ : Mask} {x y : Boot} (h : HidBoot μ x y) :
    { (if μ.boot = true then Init.boot else x) with st := if μ.bootSt = true then .off else x.st } =
    { (if μ.boot = true then Init.boot else y) with st := if μ.bootSt = true then .off else y.st } := by
  obtain ⟨h1, h2⟩ := h
  rw [h1]
  exact congrArg (fun b : Boot => { b with st := if μ.bootSt = true then .off else y.st }) h2
theorem sel_nvs {μ : Mask} {x y : Nvs} (h : HidNvs μ x y) :
    { (if μ.nvs = true then Init.nvs else x) with
      recs := if μ.store = true then [] else x.recs, images := if μ.store = true then [] else x.images
      dirty := if μ.store = true then [] else x.dirty, spread := if μ.store = true then [] else x.spread } =
    { (if μ.nvs = true then Init.nvs else y) with
      recs := if μ.store = true then [] else y.recs, images := if μ.store = true then [] else y.images
      dirty := if μ.store = true then [] else y.dirty, spread := if μ.store = true then [] else y.spread } := by
  obtain ⟨h1, h2, h3, h4, h5⟩ := h
  rw [h2, h3, h4, h5]
  exact congrArg (fun n : Nvs => { n with
    recs := if μ.store = true then [] else y.recs, images := if μ.store = true then [] else y.images
    dirty := if μ.store = true then [] else y.dirty, spread := if μ.store = true then [] else y.spread }) h1

theorem hide_with {μ : Mask} (t : State) (free out slot porSlot boot cpx whl flt hif coil nvs rtc afe dec pnt pq cal trf crd sgr tmp)
    (h_free : Hid μ.free free t.free) (h_out : Hid μ.out out t.out) (h_slot : Hid μ.slot slot t.slot) (h_porSlot : Hid μ.porSlot porSlot t.porSlot) (h_boot : HidBoot μ boot t.boot) (h_cpx : Hid μ.cpx cpx t.cpx) (h_whl : Hid μ.whl whl t.whl) (h_flt : Hid μ.flt flt t.flt) (h_hif : Hid μ.hif hif t.hif) (h_coil : Hid μ.coil coil t.coil) (h_nvs : HidNvs μ nvs t.nvs) (h_rtc : Hid μ.rtc rtc t.rtc) (h_afe : Hid μ.afe afe t.afe) (h_dec : Hid μ.dec dec t.dec) (h_pnt : Hid μ.pnt pnt t.pnt) (h_pq : Hid μ.pq pq t.pq) (h_cal : Hid μ.cal cal t.cal) (h_trf : Hid μ.trf trf t.trf) (h_crd : Hid μ.crd crd t.crd) (h_sgr : Hid μ.sgr sgr t.sgr) (h_tmp : Hid μ.tmp tmp t.tmp) :
    hide μ (State.mk t.pending free out slot porSlot t.fuses boot cpx whl flt hif coil nvs rtc afe t.pin dec pnt pq cal trf crd sgr tmp) = hide μ t := by
  simp only [hide, sel_eq _ h_free, sel_eq _ h_out, sel_eq _ h_slot, sel_eq _ h_porSlot, sel_boot h_boot, sel_eq _ h_cpx, sel_eq _ h_whl, sel_eq _ h_flt, sel_eq _ h_hif, sel_eq _ h_coil, sel_nvs h_nvs, sel_eq _ h_rtc, sel_eq _ h_afe, sel_eq _ h_dec, sel_eq _ h_pnt, sel_eq _ h_pq, sel_eq _ h_cal, sel_eq _ h_trf, sel_eq _ h_crd, sel_eq _ h_sgr, sel_eq _ h_tmp]
theorem hide_with_pin {μ : Mask} (t : State) (free out slot porSlot boot cpx whl flt hif coil nvs rtc afe dec pnt pq cal trf crd sgr tmp p_fbidx p_fb p_tripSlew p_gpioDir p_gpioOut p_refused p_mism0 p_mism1 p_evout p_failn p_syncout p_clkreq) [h_pin : Hidden μ.pin]
    (h_free : Hid μ.free free t.free) (h_out : Hid μ.out out t.out) (h_slot : Hid μ.slot slot t.slot) (h_porSlot : Hid μ.porSlot porSlot t.porSlot) (h_boot : HidBoot μ boot t.boot) (h_cpx : Hid μ.cpx cpx t.cpx) (h_whl : Hid μ.whl whl t.whl) (h_flt : Hid μ.flt flt t.flt) (h_hif : Hid μ.hif hif t.hif) (h_coil : Hid μ.coil coil t.coil) (h_nvs : HidNvs μ nvs t.nvs) (h_rtc : Hid μ.rtc rtc t.rtc) (h_afe : Hid μ.afe afe t.afe) (h_dec : Hid μ.dec dec t.dec) (h_pnt : Hid μ.pnt pnt t.pnt) (h_pq : Hid μ.pq pq t.pq) (h_cal : Hid μ.cal cal t.cal) (h_trf : Hid μ.trf trf t.trf) (h_crd : Hid μ.crd crd t.crd) (h_sgr : Hid μ.sgr sgr t.sgr) (h_tmp : Hid μ.tmp tmp t.tmp) :
    hide μ (State.mk t.pending free out slot porSlot t.fuses boot cpx whl flt hif coil nvs rtc afe
      (Pin.mk p_fbidx p_fb p_tripSlew p_gpioDir p_gpioOut p_refused p_mism0 p_mism1 p_evout p_failn p_syncout p_clkreq t.pin.jtag) dec pnt pq cal trf crd sgr tmp) = hide μ t := by
  simp only [hide, h_pin.eq, sel_eq _ h_free, sel_eq _ h_out, sel_eq _ h_slot, sel_eq _ h_porSlot, sel_boot h_boot, sel_eq _ h_cpx, sel_eq _ h_whl, sel_eq _ h_flt, sel_eq _ h_hif, sel_eq _ h_coil, sel_nvs h_nvs, sel_eq _ h_rtc, sel_eq _ h_afe, sel_eq _ h_dec, sel_eq _ h_pnt, sel_eq _ h_pq, sel_eq _ h_cal, sel_eq _ h_trf, sel_eq _ h_crd, sel_eq _ h_sgr, sel_eq _ h_tmp, if_true]
theorem hide_with_jtag {μ : Mask} (t : State) (free out slot porSlot boot cpx whl flt hif coil nvs rtc afe dec pnt pq cal trf crd sgr tmp pin) [h_pin : Hidden μ.pin] [h_jtag : Hidden μ.jtag]
    (h_free : Hid μ.free free t.free) (h_out : Hid μ.out out t.out) (h_slot : Hid μ.slot slot t.slot) (h_porSlot : Hid μ.porSlot porSlot t.porSlot) (h_boot : HidBoot μ boot t.boot) (h_cpx : Hid μ.cpx cpx t.cpx) (h_whl : Hid μ.whl whl t.whl) (h_flt : Hid μ.flt flt t.flt) (h_hif : Hid μ.hif hif t.hif) (h_coil : Hid μ.coil coil t.coil) (h_nvs : HidNvs μ nvs t.nvs) (h_rtc : Hid μ.rtc rtc t.rtc) (h_afe : Hid μ.afe afe t.afe) (h_dec : Hid μ.dec dec t.dec) (h_pnt : Hid μ.pnt pnt t.pnt) (h_pq : Hid μ.pq pq t.pq) (h_cal : Hid μ.cal cal t.cal) (h_trf : Hid μ.trf trf t.trf) (h_crd : Hid μ.crd crd t.crd) (h_sgr : Hid μ.sgr sgr t.sgr) (h_tmp : Hid μ.tmp tmp t.tmp) :
    hide μ (State.mk t.pending free out slot porSlot t.fuses boot cpx whl flt hif coil nvs rtc afe pin dec pnt pq cal trf crd sgr tmp) = hide μ t := by
  simp only [hide, h_pin.eq, h_jtag.eq, sel_eq _ h_free, sel_eq _ h_out, sel_eq _ h_slot, sel_eq _ h_porSlot, sel_boot h_boot, sel_eq _ h_cpx, sel_eq _ h_whl, sel_eq _ h_flt, sel_eq _ h_hif, sel_eq _ h_coil, sel_nvs h_nvs, sel_eq _ h_rtc, sel_eq _ h_afe, sel_eq _ h_dec, sel_eq _ h_pnt, sel_eq _ h_pq, sel_eq _ h_cal, sel_eq _ h_trf, sel_eq _ h_crd, sel_eq _ h_sgr, sel_eq _ h_tmp, if_true]

theorem same_pending {μ : Mask} {s t : State} (h : hide μ t = hide μ s) : t.pending = s.pending := by
  simpa [hide] using congrArg State.pending h
theorem same_fuses {μ : Mask} {s t : State} (h : hide μ t = hide μ s) : t.fuses = s.fuses := by
  simpa [hide] using congrArg State.fuses h
theorem same_free {μ : Mask} {s t : State} (h : hide μ t = hide μ s) (hm : μ.free = false) : t.free = s.free := by
  simpa [hide, hm] using congrArg State.free h
theorem same_out {μ : Mask} {s t : State} (h : hide μ t = hide μ s) (hm : μ.out = false) : t.out = s.out := by
  simpa [hide, hm] using congrArg State.out h
theorem same_slot {μ : Mask} {s t : State} (h : hide μ t = hide μ s) (hm : μ.slot = false) : t.slot = s.slot := by
  simpa [hide, hm] using congrArg State.slot h
theorem same_porSlot {μ : Mask} {s t : State} (h : hide μ t = hide μ s) (hm : μ.porSlot = false) : t.porSlot = s.porSlot := by
  simpa [hide, hm] using congrArg State.porSlot h
theorem same_cpx {μ : Mask} {s t : State} (h : hide μ t = hide μ s) (hm : μ.cpx = false) : t.cpx = s.cpx := by
  simpa [hide, hm] using congrArg State.cpx h
theorem same_whl {μ : Mask} {s t : State} (h : hide μ t = hide μ s) (hm : μ.whl = false) : t.whl = s.whl := by
  simpa [hide, hm] using congrArg State.whl h
theorem same_flt {μ : Mask} {s t : State} (h : hide μ t = hide μ s) (hm : μ.flt = false) : t.flt = s.flt := by
  simpa [hide, hm] using congrArg State.flt h
theorem same_hif {μ : Mask} {s t : State} (h : hide μ t = hide μ s) (hm : μ.hif = false) : t.hif = s.hif := by
  simpa [hide, hm] using congrArg State.hif h
theorem same_coil {μ : Mask} {s t : State} (h : hide μ t = hide μ s) (hm : μ.coil = false) : t.coil = s.coil := by
  simpa [hide, hm] using congrArg State.coil h
theorem same_rtc {μ : Mask} {s t : State} (h : hide μ t = hide μ s) (hm : μ.rtc = false) : t.rtc = s.rtc := by
  simpa [hide, hm] using congrArg State.rtc h
theorem same_afe {μ : Mask} {s t : State} (h : hide μ t = hide μ s) (hm : μ.afe = false) : t.afe = s.afe := by
  simpa [hide, hm] using congrArg State.afe h
theorem same_dec {μ : Mask} {s t : State} (h : hide μ t = hide μ s) (hm : μ.dec = false) : t.dec = s.dec := by
  simpa [hide, hm] using congrArg State.dec h
theorem same_pnt {μ : Mask} {s t : State} (h : hide μ t = hide μ s) (hm : μ.pnt = false) : t.pnt = s.pnt := by
  simpa [hide, hm] using congrArg State.pnt h
theorem same_pq {μ : Mask} {s t : State} (h : hide μ t = hide μ s) (hm : μ.pq = false) : t.pq = s.pq := by
  simpa [hide, hm] using congrArg State.pq h
theorem same_cal {μ : Mask} {s t : State} (h : hide μ t = hide μ s) (hm : μ.cal = false) : t.cal = s.cal := by
  simpa [hide, hm] using congrArg State.cal h
theorem same_trf {μ : Mask} {s t : State} (h : hide μ t = hide μ s) (hm : μ.trf = false) : t.trf = s.trf := by
  simpa [hide, hm] using congrArg State.trf h
theorem same_crd {μ : Mask} {s t : State} (h : hide μ t = hide μ s) (hm : μ.crd = false) : t.crd = s.crd := by
  simpa [hide, hm] using congrArg State.crd h
theorem same_sgr {μ : Mask} {s t : State} (h : hide μ t = hide μ s) (hm : μ.sgr = false) : t.sgr = s.sgr := by
  simpa [hide, hm] using congrArg State.sgr h
theorem same_tmp {μ : Mask} {s t : State} (h : hide μ t = hide μ s) (hm : μ.tmp = false) : t.tmp = s.tmp := by
  simpa [hide, hm] using congrArg State.tmp h
theorem same_boot {μ : Mask} {s t : State} (h : hide μ t = hide μ s) (hm : μ.boot = false) (hs : μ.bootSt = false) : t.boot = s.boot := by
  have h1 : { t.boot with st := t.boot.st } = { s.boot with st := s.boot.st } := by simpa [hide, hm, hs] using congrArg State.boot h
  exact h1
theorem same_bootSt {μ : Mask} {s t : State} (h : hide μ t = hide μ s) (hs : μ.bootSt = false) : t.boot.st = s.boot.st := by
  simpa [hide, hs] using congrArg (fun u => u.boot.st) h
theorem same_bootRest {μ : Mask} {s t : State} (h : hide μ t = hide μ s) (hm : μ.boot = false) :
    { t.boot with st := .off } = { s.boot with st := .off } := by
  have h1 := congrArg (fun u : State => { u.boot with st := .off }) h
  simpa [hide, hm] using h1
theorem same_nvs {μ : Mask} {s t : State} (h : hide μ t = hide μ s) (hm : μ.nvs = false) (hs : μ.store = false) : t.nvs = s.nvs := by
  have h1 : { t.nvs with recs := t.nvs.recs, images := t.nvs.images, dirty := t.nvs.dirty, spread := t.nvs.spread } =
      { s.nvs with recs := s.nvs.recs, images := s.nvs.images, dirty := s.nvs.dirty, spread := s.nvs.spread } := by
    simpa [hide, hm, hs] using congrArg State.nvs h
  exact h1
theorem same_recs {μ : Mask} {s t : State} (h : hide μ t = hide μ s) (hs : μ.store = false) : t.nvs.recs = s.nvs.recs := by
  simpa [hide, hs] using congrArg (fun u => u.nvs.recs) h
theorem same_images {μ : Mask} {s t : State} (h : hide μ t = hide μ s) (hs : μ.store = false) : t.nvs.images = s.nvs.images := by
  simpa [hide, hs] using congrArg (fun u => u.nvs.images) h
theorem same_spread {μ : Mask} {s t : State} (h : hide μ t = hide μ s) (hs : μ.store = false) : t.nvs.spread = s.nvs.spread := by
  simpa [hide, hs] using congrArg (fun u => u.nvs.spread) h
theorem same_jtag {μ : Mask} {s t : State} (h : hide μ t = hide μ s) (hm : μ.jtag = false) : t.pin.jtag = s.pin.jtag := by
  simpa [hide, hm] using congrArg (fun u => u.pin.jtag) h
theorem same_pin {μ : Mask} {s t : State} (h : hide μ t = hide μ s) (hm : μ.pin = false) (hj : μ.jtag = false) : t.pin = s.pin := by
  have h1 : { t.pin with jtag := t.pin.jtag } = { s.pin with jtag := s.pin.jtag } := by simpa [hide, hm, hj] using congrArg State.pin h
  exact h1

@[simp ↓] theorem hide_ite {μ : Mask} (c : Prop) [Decidable c] (a b : State) : hide μ (if c then a else b) = if c then hide μ a else hide μ b := by
  split <;> rfl
theorem hide_foldl {μ : Mask} {α : Type} {f : State → α → State} (h : ∀ t x, hide μ (f t x) = hide μ t) (l : List α) (s : State) :
    hide μ (l.foldl f s) = hide μ s := by
  induction l generalizing s with
  | nil => rfl
  | cons x t ih => rw [List.foldl_cons, ih, h]
theorem hide_fst_ite {μ : Mask} {α : Type} {x : State} (c : Prop) [Decidable c] (a b : State × α) (h1 : hide μ a.1 = x) (h2 : hide μ b.1 = x) :
    hide μ (if c then a else b).1 = x := by split <;> assumption
theorem hide_ite_of {μ : Mask} {x : State} (c : Prop) [Decidable c] (a b : State) (h1 : hide μ a = x) (h2 : hide μ b = x) :
    hide μ (if c then a else b) = x := by split <;> assumption

/-- A meaning that ends in a next state gives one equal to `x` outside the mask. -/
def kept (μ : Mask) (x : State) : Out → Prop
  | .next t => hide μ t = x
  | _ => True
@[simp] theorem kept_next {μ : Mask} (x t : State) : kept μ x (.next t) = (hide μ t = x) := rfl
@[simp] theorem kept_fault {μ : Mask} (x : State) (t) : kept μ x (.fault t) = True := rfl
@[simp] theorem kept_ite {μ : Mask} (x : State) (c : Prop) [Decidable c] (a b : Out) :
    kept μ x (if c then a else b) = if c then kept μ x a else kept μ x b := by
  split <;> rfl

/-- The state that a request's answer carries. -/
def ansState : Ans → State
  | .done _ s => s
  | .reply _ _ s => s
  | .fail _ s => s
  | .wait s => s
@[simp] theorem ansState_done (a s) : ansState (.done a s) = s := rfl
@[simp] theorem ansState_reply (a b s) : ansState (.reply a b s) = s := rfl
@[simp] theorem ansState_fail (a s) : ansState (.fail a s) = s := rfl
@[simp] theorem ansState_wait (s) : ansState (.wait s) = s := rfl
@[simp] theorem ansState_ite (c : Prop) [Decidable c] (a b : Ans) : ansState (if c then a else b) = if c then ansState a else ansState b := by
  split <;> rfl

end Sys2Proof.Laws
end

