-- ==== Sys2Proof/Laws/FootOps.lean ====
section
/-!
SUPPORT. What the operations of Machine/Ops.lean leave unchanged.
-/
set_option linter.unusedSimpArgs false
set_option linter.unusedTactic false
set_option linter.unreachableTactic false
namespace Sys2Proof.Laws
open Sys2Proof.Machine

@[simp ↓] theorem hide_noteQual {μ : Mask} [Hidden μ.whl] (s0 s : State) :
    hide μ (noteQual s0 s) = hide μ s := by
  unfold noteQual
  (try dsimp -proj only)
  first
  | (simp [↓hide_with, ↓hide_with_pin, hide_foldl]; done)
  | ((repeat' split) <;> simp [↓hide_with, ↓hide_with_pin, hide_foldl])

@[simp ↓] theorem hide_emit {μ : Mask} [Hidden μ.out] (e : OutEv) (s : State) :
    hide μ (emit e s) = hide μ s := by
  unfold emit
  (try dsimp -proj only)
  first
  | (simp [↓hide_with, ↓hide_with_pin, hide_foldl]; done)
  | ((repeat' split) <;> simp [↓hide_with, ↓hide_with_pin, hide_foldl])

@[simp ↓] theorem hide_drawBit {μ : Mask} [Hidden μ.free] (s : State) :
    hide μ (drawBit s).2 = hide μ s := by
  unfold drawBit
  (try dsimp -proj only)
  first
  | (simp [↓hide_with, ↓hide_with_pin, hide_foldl]; done)
  | ((repeat' split) <;> simp [↓hide_with, ↓hide_with_pin, hide_foldl])

@[simp ↓] theorem hide_drawNat {μ : Mask} [Hidden μ.free] (s : State) :
    hide μ (drawNat s).2 = hide μ s := by
  unfold drawNat
  (try dsimp -proj only)
  first
  | (simp [↓hide_with, ↓hide_with_pin, hide_foldl]; done)
  | ((repeat' split) <;> simp [↓hide_with, ↓hide_with_pin, hide_foldl])

@[simp ↓] theorem hide_drawRandom {μ : Mask} [Hidden μ.free] [Hidden μ.sgr] (n : Nat) (s : State) :
    hide μ (drawRandom n s).2 = hide μ s := by
  unfold drawRandom
  (try dsimp -proj only)
  first
  | (simp [↓hide_with, ↓hide_with_pin, hide_foldl]; done)
  | ((repeat' split) <;> simp [↓hide_with, ↓hide_with_pin, hide_foldl])

@[simp ↓] theorem hide_sendVector {μ : Mask} [Hidden μ.out] [Hidden μ.hif] (v : Nat) (s : State) :
    hide μ (sendVector v s) = hide μ s := by
  unfold sendVector
  (try dsimp -proj only)
  first
  | (simp [↓hide_with, ↓hide_with_pin, hide_foldl]; done)
  | ((repeat' split) <;> simp [↓hide_with, ↓hide_with_pin, hide_foldl])

@[simp ↓] theorem hide_setRing {μ : Mask} [Hidden μ.hif] (r : Nat) (x : Ring) (s : State) :
    hide μ (setRing r x s) = hide μ s := by
  unfold setRing
  (try dsimp -proj only)
  first
  | (simp [↓hide_with, ↓hide_with_pin, hide_foldl]; done)
  | ((repeat' split) <;> simp [↓hide_with, ↓hide_with_pin, hide_foldl])

@[simp ↓] theorem hide_modRing {μ : Mask} [Hidden μ.hif] (r : Nat) (f : Ring → Ring) (s : State) :
    hide μ (modRing r f s) = hide μ s := by
  unfold modRing
  (try dsimp -proj only)
  first
  | (simp [↓hide_with, ↓hide_with_pin, hide_foldl]; done)
  | ((repeat' split) <;> simp [↓hide_with, ↓hide_with_pin, hide_foldl])

@[simp ↓] theorem hide_enqRaw {μ : Mask} [Hidden μ.hif] [Hidden μ.coil] (ring : Nat) (q : QRec) (s : State) :
    hide μ (enqRaw ring q s).1 = hide μ s := by
  unfold enqRaw
  (try dsimp -proj only)
  first
  | (simp [↓hide_with, ↓hide_with_pin, hide_foldl]; done)
  | ((repeat' split) <;> simp [↓hide_with, ↓hide_with_pin, hide_foldl])

@[simp ↓] theorem hide_sendUp {μ : Mask} [Hidden μ.out] [Hidden μ.coil] (cls typ : Nat) (payload : List Byte) (s : State) :
    hide μ (sendUp cls typ payload s) = hide μ s := by
  unfold sendUp
  (try dsimp -proj only)
  first
  | (simp [↓hide_with, ↓hide_with_pin, hide_foldl]; done)
  | ((repeat' split) <;> simp [↓hide_with, ↓hide_with_pin, hide_foldl])

@[simp ↓] theorem hide_complete {μ : Mask} [Hidden μ.out] [Hidden μ.hif] [Hidden μ.coil] (w : Waiter) (status : W16) (seq : W32) (data : List Byte) (s : State) :
    hide μ (complete w status seq data s) = hide μ s := by
  unfold complete
  (try dsimp -proj only)
  first
  | (simp [↓hide_with, ↓hide_with_pin, hide_foldl]; done)
  | ((repeat' split) <;> simp [↓hide_with, ↓hide_with_pin, hide_foldl])

@[simp ↓] theorem hide_waitReq {μ : Mask} [Hidden μ.hif] (w : Waiter) (s : State) :
    hide μ (waitReq w s) = hide μ s := by
  unfold waitReq
  (try dsimp -proj only)
  first
  | (simp [↓hide_with, ↓hide_with_pin, hide_foldl]; done)
  | ((repeat' split) <;> simp [↓hide_with, ↓hide_with_pin, hide_foldl])

@[simp ↓] theorem hide_answer {μ : Mask} [Hidden μ.out] [Hidden μ.hif] [Hidden μ.coil] (w : Waiter) (a : Ans) : hide μ (answer w a) = hide μ (ansState a) := by
  cases a <;> simp [answer]

@[simp ↓] theorem hide_logRec {μ : Mask} [Hidden μ.nvs] (typ : Nat) (st : Stamp) (body : List Byte) (s : State) :
    hide μ (logRec typ st body s) = hide μ s := by
  unfold logRec
  (try dsimp -proj only)
  first
  | (simp [↓hide_with, ↓hide_with_pin, hide_foldl]; done)
  | ((repeat' split) <;> simp [↓hide_with, ↓hide_with_pin, hide_foldl])

@[simp ↓] theorem hide_blockEventAt {μ : Mask} [Hidden μ.nvs] (st : Stamp) (block code p : Nat) (detail : List Byte) (s : State) :
    hide μ (blockEventAt st block code p detail s) = hide μ s := by
  unfold blockEventAt
  (try dsimp -proj only)
  first
  | (simp [↓hide_with, ↓hide_with_pin, hide_foldl]; done)
  | ((repeat' split) <;> simp [↓hide_with, ↓hide_with_pin, hide_foldl])

@[simp ↓] theorem hide_blockEvent {μ : Mask} [Hidden μ.nvs] (block code : Nat) (detail : List Byte) (s : State) :
    hide μ (blockEvent block code detail s) = hide μ s := by
  unfold blockEvent
  (try dsimp -proj only)
  first
  | (simp [↓hide_with, ↓hide_with_pin, hide_foldl]; done)
  | ((repeat' split) <;> simp [↓hide_with, ↓hide_with_pin, hide_foldl])

@[simp ↓] theorem hide_pushGroups {μ : Mask} [Hidden μ.nvs] (gs : List Group) (s : State) :
    hide μ (pushGroups gs s) = hide μ s := by
  unfold pushGroups
  (try dsimp -proj only)
  first
  | (simp [↓hide_with, ↓hide_with_pin, hide_foldl]; done)
  | ((repeat' split) <;> simp [↓hide_with, ↓hide_with_pin, hide_foldl])

@[simp ↓] theorem hide_commitRecEff {μ : Mask} [Hidden μ.nvs] (key : Nat) (v : NvVal) (pages : Nat) (w : Option (Waiter × W16)) (eff : Option GroupEff) (s : State) :
    hide μ (commitRecEff key v pages w eff s) = hide μ s := by
  unfold commitRecEff
  (try dsimp -proj only)
  first
  | (simp [↓hide_with, ↓hide_with_pin, hide_foldl]; done)
  | ((repeat' split) <;> simp [↓hide_with, ↓hide_with_pin, hide_foldl])

@[simp ↓] theorem hide_commitDone {μ : Mask} [Hidden μ.nvs] (key : Nat) (v : NvVal) (pages : Nat) (w : Option (Waiter × W16)) (eff : Option GroupEff) (s : State) :
    hide μ (commitDone key v pages w eff s) = hide μ s := by
  unfold commitDone
  (try dsimp -proj only)
  first
  | (simp [↓hide_with, ↓hide_with_pin, hide_foldl]; done)
  | ((repeat' split) <;> simp [↓hide_with, ↓hide_with_pin, hide_foldl])

@[simp ↓] theorem hide_commitRec {μ : Mask} [Hidden μ.nvs] (key : Nat) (v : NvVal) (pages : Nat) (w : Option (Waiter × W16)) (s : State) :
    hide μ (commitRec key v pages w s) = hide μ s := by
  unfold commitRec
  (try dsimp -proj only)
  first
  | (simp [↓hide_with, ↓hide_with_pin, hide_foldl]; done)
  | ((repeat' split) <;> simp [↓hide_with, ↓hide_with_pin, hide_foldl])

@[simp ↓] theorem hide_ownWrite {μ : Mask} [Hidden μ.nvs] (key : Nat) (v : NvVal) (pages : Nat) (s : State) :
    hide μ (ownWrite key v pages s) = hide μ s := by
  unfold ownWrite
  (try dsimp -proj only)
  first
  | (simp [↓hide_with, ↓hide_with_pin, hide_foldl]; done)
  | ((repeat' split) <;> simp [↓hide_with, ↓hide_with_pin, hide_foldl])

end Sys2Proof.Laws
end

