-- ==== Sys2Proof/Laws/FootFlags.lean ====
section
/-!
SUPPORT. What the operations of Machine/Flags.lean leave unchanged.
-/
set_option linter.unusedSimpArgs false
set_option linter.unusedTactic false
set_option linter.unreachableTactic false
namespace Sys2Proof.Laws
open Sys2Proof.Machine

@[simp ↓] theorem hide_setBlk {μ : Mask} [Hidden μ.flt] (b : Nat) (x : BlkFlt) (s : State) :
    hide μ (setBlk b x s) = hide μ s := by
  unfold setBlk
  (try dsimp -proj only)
  first
  | (simp [↓hide_with, ↓hide_with_pin, hide_foldl]; done)
  | ((repeat' split) <;> simp [↓hide_with, ↓hide_with_pin, hide_foldl])

@[simp ↓] theorem hide_modBlk {μ : Mask} [Hidden μ.flt] (b : Nat) (f : BlkFlt → BlkFlt) (s : State) :
    hide μ (modBlk b f s) = hide μ s := by
  unfold modBlk
  (try dsimp -proj only)
  first
  | (simp [↓hide_with, ↓hide_with_pin, hide_foldl]; done)
  | ((repeat' split) <;> simp [↓hide_with, ↓hide_with_pin, hide_foldl])

@[simp ↓] theorem hide_modSrc {μ : Mask} [Hidden μ.flt] (b src : Nat) (f : SrcSt → SrcSt) (s : State) :
    hide μ (modSrc b src f s) = hide μ s := by
  unfold modSrc
  (try dsimp -proj only)
  first
  | (simp [↓hide_with, ↓hide_with_pin, hide_foldl]; done)
  | ((repeat' split) <;> simp [↓hide_with, ↓hide_with_pin, hide_foldl])

@[simp ↓] theorem hide_fltRecord {μ : Mask} [Hidden μ.flt] [Hidden μ.hif] [Hidden μ.coil] (b src kind : Nat) (s : State) :
    hide μ (fltRecord b src kind s).1 = hide μ s := by
  unfold fltRecord
  (try dsimp -proj only)
  first
  | (simp [↓hide_with, ↓hide_with_pin, hide_foldl]; done)
  | ((repeat' split) <;> simp [↓hide_with, ↓hide_with_pin, hide_foldl])

@[simp ↓] theorem hide_fltRec0 {μ : Mask} [Hidden μ.flt] [Hidden μ.hif] [Hidden μ.coil] (b src kind : Nat) (s : State) :
    hide μ (fltRec0 b src kind s) = hide μ s := by
  unfold fltRec0
  (try dsimp -proj only)
  first
  | (simp [↓hide_with, ↓hide_with_pin, hide_foldl]; done)
  | ((repeat' split) <;> simp [↓hide_with, ↓hide_with_pin, hide_foldl])

@[simp ↓] theorem hide_stopWrites {μ : Mask} [Hidden μ.nvs] (s : State) :
    hide μ (stopWrites s) = hide μ s := by
  unfold stopWrites
  (try dsimp -proj only)
  first
  | (simp [↓hide_with, ↓hide_with_pin, hide_foldl]; done)
  | ((repeat' split) <;> simp [↓hide_with, ↓hide_with_pin, hide_foldl])

@[simp ↓] theorem hide_startLastGasp {μ : Mask} [Hidden μ.nvs] (cause : Byte) (s : State) :
    hide μ (startLastGasp cause s) = hide μ s := by
  unfold startLastGasp
  (try dsimp -proj only)
  first
  | (simp [↓hide_with, ↓hide_with_pin, hide_foldl]; done)
  | ((repeat' split) <;> simp [↓hide_with, ↓hide_with_pin, hide_foldl])

@[simp ↓] theorem hide_failStop {μ : Mask} [Hidden μ.out] [Hidden μ.bootSt] [Hidden μ.cpx] [Hidden μ.flt] [Hidden μ.hif] [Hidden μ.coil] [Hidden μ.nvs] (grace count : Bool) (cls : Cls) (b src : Nat) (s : State) :
    hide μ (failStop grace count cls b src s) = hide μ s := by
  unfold failStop
  cases s.flt.phase <;> dsimp only
  · generalize hs : ({ s with
      flt.reason := reasonWord grace count cls.num b src, flt.prev := reasonWord grace count cls.num b src,
      flt.fsTick := faultTick s, flt.kind := cls, flt.phase := .begun,
      boot.st := .failstop, cpx.acp0 := false, cpx.acp1 := false } : State) = t
    have ht : hide μ t = hide μ s := by rw [← hs]; simp [↓hide_with]
    repeat' split
    all_goals simp [ht]
  all_goals
    repeat' split
    all_goals simp [↓hide_with]

@[simp ↓] theorem hide_beginSevere {μ : Mask} [Hidden μ.flt] [Hidden μ.nvs] (b src : Nat) (s : State) :
    hide μ (beginSevere b src s) = hide μ s := by
  unfold beginSevere
  (try dsimp -proj only)
  first
  | (simp [↓hide_with, ↓hide_with_pin, hide_foldl]; done)
  | ((repeat' split) <;> simp [↓hide_with, ↓hide_with_pin, hide_foldl])

@[simp ↓] theorem hide_noteRaise {μ : Mask} [Hidden μ.flt] (b src : Nat) (s : State) :
    hide μ (noteRaise b src s) = hide μ s := by
  unfold noteRaise
  (try dsimp -proj only)
  first
  | (simp [↓hide_with, ↓hide_with_pin, hide_foldl]; done)
  | ((repeat' split) <;> simp [↓hide_with, ↓hide_with_pin, hide_foldl])

@[simp ↓] theorem hide_countWindow {μ : Mask} [Hidden μ.flt] (b src : Nat) (s : State) :
    hide μ (countWindow b src s).1 = hide μ s := by
  unfold countWindow
  (try dsimp -proj only)
  first
  | (simp [↓hide_with, ↓hide_with_pin, hide_foldl]; done)
  | ((repeat' split) <;> simp [↓hide_with, ↓hide_with_pin, hide_foldl])

@[simp ↓] theorem hide_blkSignal {μ : Mask} [Hidden μ.out] [Hidden μ.hif] (b : Nat) (before : Bool) (s : State) :
    hide μ (blkSignal b before s) = hide μ s := by
  unfold blkSignal
  (try dsimp -proj only)
  first
  | (simp [↓hide_with, ↓hide_with_pin, hide_foldl]; done)
  | ((repeat' split) <;> simp [↓hide_with, ↓hide_with_pin, hide_foldl])

@[simp ↓] theorem hide_withReason {μ : Mask} [Hidden μ.flt] (w : W32) (s : State) : hide μ (withReason w s) = hide μ s := by
  unfold withReason
  simp [↓hide_with]

@[simp ↓] theorem hide_raise0 {μ : Mask} [Hidden μ.out] [Hidden μ.bootSt] [Hidden μ.cpx] [Hidden μ.flt] [Hidden μ.hif] [Hidden μ.coil] [Hidden μ.nvs] (b src : Nat) (s : State) :
    hide μ (raise0 b src s) = hide μ s := by
  unfold raise0
  (try dsimp -proj only)
  first
  | (simp [↓hide_with, ↓hide_with_pin, hide_foldl]; done)
  | ((repeat' split) <;> simp [↓hide_with, ↓hide_with_pin, hide_foldl])

@[simp ↓] theorem hide_noteDrop {μ : Mask} [Hidden μ.out] [Hidden μ.bootSt] [Hidden μ.cpx] [Hidden μ.flt] [Hidden μ.hif] [Hidden μ.coil] [Hidden μ.nvs] (ring : Nat) (s : State) :
    hide μ (noteDrop ring s) = hide μ s := by
  unfold noteDrop
  (try dsimp -proj only)
  first
  | (simp [↓hide_with, ↓hide_with_pin, hide_foldl]; done)
  | ((repeat' split) <;> simp [↓hide_with, ↓hide_with_pin, hide_foldl])

@[simp ↓] theorem hide_raise {μ : Mask} [Hidden μ.out] [Hidden μ.bootSt] [Hidden μ.cpx] [Hidden μ.flt] [Hidden μ.hif] [Hidden μ.coil] [Hidden μ.nvs] (b src : Nat) (s : State) :
    hide μ (raise b src s) = hide μ s := by
  unfold raise
  (try dsimp -proj only)
  first
  | (simp [↓hide_with, ↓hide_with_pin, hide_foldl]; done)
  | ((repeat' split) <;> simp [↓hide_with, ↓hide_with_pin, hide_foldl])

@[simp ↓] theorem hide_raiseLive {μ : Mask} [Hidden μ.out] [Hidden μ.bootSt] [Hidden μ.cpx] [Hidden μ.flt] [Hidden μ.hif] [Hidden μ.coil] [Hidden μ.nvs] (b src : Nat) (s : State) :
    hide μ (raiseLive b src s) = hide μ s := by
  unfold raiseLive
  (try dsimp -proj only)
  first
  | (simp [↓hide_with, ↓hide_with_pin, hide_foldl]; done)
  | ((repeat' split) <;> simp [↓hide_with, ↓hide_with_pin, hide_foldl])

@[simp ↓] theorem hide_fallLive {μ : Mask} [Hidden μ.flt] (b src : Nat) (s : State) :
    hide μ (fallLive b src s) = hide μ s := by
  unfold fallLive
  (try dsimp -proj only)
  first
  | (simp [↓hide_with, ↓hide_with_pin, hide_foldl]; done)
  | ((repeat' split) <;> simp [↓hide_with, ↓hide_with_pin, hide_foldl])

@[simp ↓] theorem hide_resolve {μ : Mask} [Hidden μ.out] [Hidden μ.flt] [Hidden μ.hif] [Hidden μ.coil] [Hidden μ.nvs] (b src : Nat) (s : State) :
    hide μ (resolve b src s) = hide μ s := by
  unfold resolve
  (try dsimp -proj only)
  first
  | (simp [↓hide_with, ↓hide_with_pin, hide_foldl]; done)
  | ((repeat' split) <;> simp [↓hide_with, ↓hide_with_pin, hide_foldl])

@[simp ↓] theorem hide_deliver {μ : Mask} [Hidden μ.out] [Hidden μ.bootSt] [Hidden μ.cpx] [Hidden μ.flt] [Hidden μ.hif] [Hidden μ.coil] [Hidden μ.nvs] (ring : Nat) (q : QRec) (s : State) :
    hide μ (deliver ring q s) = hide μ s := by
  unfold deliver
  (try dsimp -proj only)
  first
  | (simp [↓hide_with, ↓hide_with_pin, hide_foldl]; done)
  | ((repeat' split) <;> simp [↓hide_with, ↓hide_with_pin, hide_foldl])

@[simp ↓] theorem hide_deliverRec {μ : Mask} [Hidden μ.out] [Hidden μ.bootSt] [Hidden μ.cpx] [Hidden μ.flt] [Hidden μ.hif] [Hidden μ.coil] [Hidden μ.nvs] (ring : Nat) (r : Rec) (s : State) :
    hide μ (deliverRec ring r s) = hide μ s := by
  unfold deliverRec
  (try dsimp -proj only)
  first
  | (simp [↓hide_with, ↓hide_with_pin, hide_foldl]; done)
  | ((repeat' split) <;> simp [↓hide_with, ↓hide_with_pin, hide_foldl])

@[simp ↓] theorem hide_protRefuse {μ : Mask} [Hidden μ.out] [Hidden μ.bootSt] [Hidden μ.cpx] [Hidden μ.flt] [Hidden μ.hif] [Hidden μ.coil] [Hidden μ.nvs] (s : State) :
    hide μ (protRefuse s) = hide μ s := by
  unfold protRefuse
  (try dsimp -proj only)
  first
  | (simp [↓hide_with, ↓hide_with_pin, hide_foldl]; done)
  | ((repeat' split) <;> simp [↓hide_with, ↓hide_with_pin, hide_foldl])

end Sys2Proof.Laws
end

