-- ==== Sys2Proof/Laws/FootKiln.lean ====
section
/-!
SUPPORT. What the operations of Machine/Kiln.lean leave unchanged.
-/
set_option linter.unusedSimpArgs false
set_option linter.unusedTactic false
set_option linter.unreachableTactic false
namespace Sys2Proof.Laws
open Sys2Proof.Machine

@[simp ↓] theorem hide_releaseWaiter {μ : Mask} [Hidden μ.out] [Hidden μ.hif] [Hidden μ.coil] (g : Group) (s : State) :
    hide μ (releaseWaiter g s) = hide μ s := by
  unfold releaseWaiter
  (try dsimp -proj only)
  first
  | (simp [↓hide_with, ↓hide_with_pin, hide_foldl]; done)
  | ((repeat' split) <;> simp [↓hide_with, ↓hide_with_pin, hide_foldl])

@[simp ↓] theorem hide_noteCtlEdit {μ : Mask} [Hidden μ.trf] (g : Group) (s : State) :
    hide μ (noteCtlEdit g s) = hide μ s := by
  unfold noteCtlEdit
  (try dsimp -proj only)
  first
  | (simp [↓hide_with, ↓hide_with_pin, hide_foldl]; done)
  | ((repeat' split) <;> simp [↓hide_with, ↓hide_with_pin, hide_foldl])

@[simp ↓] theorem hide_groupPage {μ : Mask} [Hidden μ.out] [Hidden μ.hif] [Hidden μ.coil] [Hidden μ.nvs] [Hidden μ.store] [Hidden μ.trf] (s : State) :
    hide μ (groupPage s) = hide μ s := by
  unfold groupPage
  (try dsimp -proj only)
  first
  | (simp [↓hide_with, ↓hide_with_pin, hide_foldl]; done)
  | ((repeat' split) <;> simp [↓hide_with, ↓hide_with_pin, hide_foldl])

@[simp ↓] theorem hide_resolveJournal {μ : Mask} [Hidden μ.out] [Hidden μ.bootSt] [Hidden μ.cpx] [Hidden μ.flt] [Hidden μ.hif] [Hidden μ.coil] [Hidden μ.nvs] [Hidden μ.store] (s : State) :
    hide μ (resolveJournal s) = hide μ s := by
  unfold resolveJournal
  (try dsimp -proj only)
  first
  | (simp [↓hide_with, ↓hide_with_pin, hide_foldl]; done)
  | ((repeat' split) <;> simp [↓hide_with, ↓hide_with_pin, hide_foldl])

@[simp ↓] theorem hide_cutJournal {μ : Mask} [Hidden μ.free] [Hidden μ.nvs] (s : State) :
    hide μ (cutJournal s) = hide μ s := by
  unfold cutJournal
  (try dsimp -proj only)
  first
  | (simp [↓hide_with, ↓hide_with_pin, hide_foldl]; done)
  | ((repeat' split) <;> simp [↓hide_with, ↓hide_with_pin, hide_foldl])

@[simp ↓] theorem hide_gapCheck {μ : Mask} [Hidden μ.out] [Hidden μ.bootSt] [Hidden μ.cpx] [Hidden μ.flt] [Hidden μ.hif] [Hidden μ.coil] [Hidden μ.nvs] (s : State) :
    hide μ (gapCheck s) = hide μ s := by
  unfold gapCheck
  (try dsimp -proj only)
  first
  | (simp [↓hide_with, ↓hide_with_pin, hide_foldl]; done)
  | ((repeat' split) <;> simp [↓hide_with, ↓hide_with_pin, hide_foldl])

@[simp ↓] theorem hide_mirrorRec {μ : Mask} [Hidden μ.out] [Hidden μ.bootSt] [Hidden μ.cpx] [Hidden μ.flt] [Hidden μ.hif] [Hidden μ.coil] [Hidden μ.nvs] (r : Rec) (s : State) :
    hide μ (mirrorRec r s) = hide μ s := by
  unfold mirrorRec
  (try dsimp -proj only)
  first
  | (simp [↓hide_with, ↓hide_with_pin, hide_foldl]; done)
  | ((repeat' split) <;> simp [↓hide_with, ↓hide_with_pin, hide_foldl])

@[simp ↓] theorem hide_drainStored {μ : Mask} [Hidden μ.rtc] [Hidden μ.tmp] (r : Rec) (s : State) :
    hide μ (drainStored r s) = hide μ s := by
  unfold drainStored
  (try dsimp -proj only)
  first
  | (simp [↓hide_with, ↓hide_with_pin, hide_foldl]; done)
  | ((repeat' split) <;> simp [↓hide_with, ↓hide_with_pin, hide_foldl])

@[simp ↓] theorem hide_cutAppend {μ : Mask} [Hidden μ.free] [Hidden μ.nvs] (s : State) :
    hide μ (cutAppend s) = hide μ s := by
  unfold cutAppend
  (try dsimp -proj only)
  first
  | (simp [↓hide_with, ↓hide_with_pin, hide_foldl]; done)
  | ((repeat' split) <;> simp [↓hide_with, ↓hide_with_pin, hide_foldl])

@[simp ↓] theorem hide_appendLog {μ : Mask} [Hidden μ.out] [Hidden μ.bootSt] [Hidden μ.cpx] [Hidden μ.flt] [Hidden μ.hif] [Hidden μ.coil] [Hidden μ.nvs] [Hidden μ.rtc] [Hidden μ.tmp] (s : State) :
    hide μ (appendLog s) = hide μ s := by
  unfold appendLog
  (try dsimp -proj only)
  first
  | (simp [↓hide_with, ↓hide_with_pin, hide_foldl]; done)
  | ((repeat' split) <;> simp [↓hide_with, ↓hide_with_pin, hide_foldl])

@[simp ↓] theorem hide_execLogAppend {μ : Mask} [Hidden μ.out] [Hidden μ.bootSt] [Hidden μ.cpx] [Hidden μ.flt] [Hidden μ.hif] [Hidden μ.coil] [Hidden μ.nvs] [Hidden μ.rtc] [Hidden μ.tmp] (s : State) :
    kept μ (hide μ s) (execLogAppend s) := by
  unfold execLogAppend
  (try dsimp -proj only)
  first
  | (simp [↓hide_with, ↓hide_with_pin, hide_foldl]; done)
  | ((repeat' split) <;> simp [↓hide_with, ↓hide_with_pin, hide_foldl])

@[simp ↓] theorem hide_kilnSingle {μ : Mask} [Hidden μ.out] [Hidden μ.bootSt] [Hidden μ.cpx] [Hidden μ.flt] [Hidden μ.hif] [Hidden μ.coil] [Hidden μ.nvs] (s : State) :
    hide μ (kilnSingle s) = hide μ s := by
  unfold kilnSingle
  (try dsimp -proj only)
  first
  | (simp [↓hide_with, ↓hide_with_pin, hide_foldl]; done)
  | ((repeat' split) <;> simp [↓hide_with, ↓hide_with_pin, hide_foldl])

@[simp ↓] theorem hide_kilnDouble {μ : Mask} [Hidden μ.out] [Hidden μ.bootSt] [Hidden μ.cpx] [Hidden μ.flt] [Hidden μ.hif] [Hidden μ.coil] [Hidden μ.nvs] (s : State) :
    hide μ (kilnDouble s) = hide μ s := by
  unfold kilnDouble
  (try dsimp -proj only)
  first
  | (simp [↓hide_with, ↓hide_with_pin, hide_foldl]; done)
  | ((repeat' split) <;> simp [↓hide_with, ↓hide_with_pin, hide_foldl])

@[simp ↓] theorem hide_kilnCopyDouble {μ : Mask} [Hidden μ.out] [Hidden μ.bootSt] [Hidden μ.cpx] [Hidden μ.flt] [Hidden μ.hif] [Hidden μ.coil] [Hidden μ.nvs] [Hidden μ.store] (key copy : Nat) (s : State) :
    hide μ (kilnCopyDouble key copy s) = hide μ s := by
  unfold kilnCopyDouble
  (try dsimp -proj only)
  first
  | (simp [↓hide_with, ↓hide_with_pin, hide_foldl]; done)
  | ((repeat' split) <;> simp [↓hide_with, ↓hide_with_pin, hide_foldl])

@[simp ↓] theorem hide_kilnSpreadDouble {μ : Mask} [Hidden μ.out] [Hidden μ.bootSt] [Hidden μ.cpx] [Hidden μ.flt] [Hidden μ.hif] [Hidden μ.coil] [Hidden μ.nvs] [Hidden μ.store] (i sl : Nat) (s : State) :
    hide μ (kilnSpreadDouble i sl s) = hide μ s := by
  unfold kilnSpreadDouble
  (try dsimp -proj only)
  first
  | (simp [↓hide_with, ↓hide_with_pin, hide_foldl]; done)
  | ((repeat' split) <;> simp [↓hide_with, ↓hide_with_pin, hide_foldl])

@[simp ↓] theorem hide_kilnPlaceDouble {μ : Mask} [Hidden μ.out] [Hidden μ.bootSt] [Hidden μ.cpx] [Hidden μ.flt] [Hidden μ.hif] [Hidden μ.coil] [Hidden μ.nvs] [Hidden μ.store] (place : EccPlace) (s : State) :
    hide μ (kilnPlaceDouble place s) = hide μ s := by
  unfold kilnPlaceDouble
  (try dsimp -proj only)
  first
  | (simp [↓hide_with, ↓hide_with_pin, hide_foldl]; done)
  | ((repeat' split) <;> simp [↓hide_with, ↓hide_with_pin, hide_foldl])

@[simp ↓] theorem hide_execEccErrorDetect {μ : Mask} [Hidden μ.out] [Hidden μ.bootSt] [Hidden μ.cpx] [Hidden μ.flt] [Hidden μ.hif] [Hidden μ.coil] [Hidden μ.nvs] [Hidden μ.store] (block : Nat) (double : Bool) (place : EccPlace) (s : State) :
    kept μ (hide μ s) (execEccErrorDetect block double place s) := by
  unfold execEccErrorDetect
  (try dsimp -proj only)
  first
  | (simp [↓hide_with, ↓hide_with_pin, hide_foldl]; done)
  | ((repeat' split) <;> simp [↓hide_with, ↓hide_with_pin, hide_foldl])

@[simp ↓] theorem hide_execScrubRead {μ : Mask} [Hidden μ.out] [Hidden μ.bootSt] [Hidden μ.cpx] [Hidden μ.flt] [Hidden μ.hif] [Hidden μ.coil] [Hidden μ.nvs] [Hidden μ.store] (err : EccKind) (place : EccPlace) (s : State) :
    kept μ (hide μ s) (execScrubRead err place s) := by
  unfold execScrubRead
  (try dsimp -proj only)
  first
  | (simp [↓hide_with, ↓hide_with_pin, hide_foldl]; done)
  | ((repeat' split) <;> simp [↓hide_with, ↓hide_with_pin, hide_foldl])

end Sys2Proof.Laws
end

