-- ==== Sys2Proof/Laws/FootOperands.lean ====
section
/-!
SUPPORT. What the operations of Machine/Operands.lean leave unchanged.
-/
set_option linter.unusedSimpArgs false
set_option linter.unusedTactic false
set_option linter.unreachableTactic false
namespace Sys2Proof.Laws
open Sys2Proof.Machine

@[simp ↓] theorem hide_setCRing {μ : Mask} [Hidden μ.coil] (k : Nat) (x : CRing) (s : State) :
    hide μ (setCRing k x s) = hide μ s := by
  unfold setCRing
  (try dsimp -proj only)
  first
  | (simp [↓hide_with, ↓hide_with_pin, hide_foldl]; done)
  | ((repeat' split) <;> simp [↓hide_with, ↓hide_with_pin, hide_foldl])

@[simp ↓] theorem hide_setEnt {μ : Mask} [Hidden μ.coil] (k pos : Nat) (e : WEnt) (s : State) :
    hide μ (setEnt k pos e s) = hide μ s := by
  unfold setEnt
  (try dsimp -proj only)
  first
  | (simp [↓hide_with, ↓hide_with_pin, hide_foldl]; done)
  | ((repeat' split) <;> simp [↓hide_with, ↓hide_with_pin, hide_foldl])

@[simp ↓] theorem hide_setPort {μ : Mask} [Hidden μ.coil] (p : Nat) (x : Port) (s : State) :
    hide μ (setPort p x s) = hide μ s := by
  unfold setPort
  (try dsimp -proj only)
  first
  | (simp [↓hide_with, ↓hide_with_pin, hide_foldl]; done)
  | ((repeat' split) <;> simp [↓hide_with, ↓hide_with_pin, hide_foldl])

@[simp ↓] theorem hide_sendDown {μ : Mask} [Hidden μ.out] [Hidden μ.coil] (k pos cls typ : Nat) (payload : List Byte) (s : State) :
    hide μ (sendDown k pos cls typ payload s) = hide μ s := by
  unfold sendDown
  (try dsimp -proj only)
  first
  | (simp [↓hide_with, ↓hide_with_pin, hide_foldl]; done)
  | ((repeat' split) <;> simp [↓hide_with, ↓hide_with_pin, hide_foldl])

@[simp ↓] theorem hide_forward {μ : Mask} [Hidden μ.out] [Hidden μ.hif] [Hidden μ.coil] (w : Waiter) (k pos : Nat) (buf : List Byte) (s : State) :
    hide μ (forward w k pos buf s) = hide μ s := by
  unfold forward
  (try dsimp -proj only)
  first
  | (simp [↓hide_with, ↓hide_with_pin, hide_foldl]; done)
  | ((repeat' split) <;> simp [↓hide_with, ↓hide_with_pin, hide_foldl])

@[simp ↓] theorem hide_ring0 {μ : Mask} [Hidden μ.out] [Hidden μ.hif] [Hidden μ.coil] (op : Byte) (lenOk : Nat → Bool) (r : Req) (s : State) (body : Waiter → State → Ans)
    (h : hide μ (ansState (body (reqWaiter r 0 op) s)) = hide μ s) : kept μ (hide μ s) (ring0 op lenOk r s body) := by
  unfold ring0
  dsimp only
  repeat' split
  all_goals simp [h]

@[simp ↓] theorem hide_writeCmd {μ : Mask} [Hidden μ.out] [Hidden μ.bootSt] [Hidden μ.cpx] [Hidden μ.flt] [Hidden μ.hif] [Hidden μ.coil] [Hidden μ.nvs] (key : Nat) (v : NvVal) (pages : Nat) (w : Waiter) (f : State → State) (s : State)
    (h : hide μ (f s) = hide μ s) : hide μ (ansState (writeCmd key v pages w f s)) = hide μ s := by
  unfold writeCmd
  split <;> simp [h]

@[simp ↓] theorem hide_writeCmdEff {μ : Mask} [Hidden μ.out] [Hidden μ.bootSt] [Hidden μ.cpx] [Hidden μ.flt] [Hidden μ.hif] [Hidden μ.coil] [Hidden μ.nvs] (key : Nat) (v : NvVal) (pages : Nat) (w : Waiter) (eff : Option GroupEff) (f : State → State) (s : State)
    (h : hide μ (f s) = hide μ s) : hide μ (ansState (writeCmdEff key v pages w eff f s)) = hide μ s := by
  unfold writeCmdEff
  (repeat' split) <;> simp [h]

end Sys2Proof.Laws
end

