-- ==== Sys2Proof/Laws/FootPin.lean ====
section
/-!
SUPPORT. What the operations of Machine/Pin.lean leave unchanged.
-/
set_option linter.unusedSimpArgs false
set_option linter.unusedTactic false
set_option linter.unreachableTactic false
namespace Sys2Proof.Laws
open Sys2Proof.Machine

@[simp ↓] theorem hide_modBall {μ : Mask} [Hidden μ.pin] (n : Nat) (f : Ball → Ball) (s : State) :
    hide μ (modBall n f s) = hide μ s := by
  unfold modBall
  (try dsimp -proj only)
  first
  | (simp [↓hide_with, ↓hide_with_pin, hide_foldl]; done)
  | ((repeat' split) <;> simp [↓hide_with, ↓hide_with_pin, hide_foldl])

@[simp ↓] theorem hide_claim {μ : Mask} [Hidden μ.pin] (n : Nat) (f : BitVec 4) (owner : Nat) (s : State) :
    hide μ (claim n f owner s) = hide μ s := by
  unfold claim
  (try dsimp -proj only)
  first
  | (simp [↓hide_with, ↓hide_with_pin, hide_foldl]; done)
  | ((repeat' split) <;> simp [↓hide_with, ↓hide_with_pin, hide_foldl])

@[simp ↓] theorem hide_claimRestore {μ : Mask} [Hidden μ.pin] (n : Nat) (f : BitVec 4) (owner : Nat) (s : State) :
    hide μ (claimRestore n f owner s).1 = hide μ s := by
  unfold claimRestore
  (try dsimp -proj only)
  first
  | (simp [↓hide_with, ↓hide_with_pin, hide_foldl]; done)
  | ((repeat' split) <;> simp [↓hide_with, ↓hide_with_pin, hide_foldl])

@[simp ↓] theorem hide_release {μ : Mask} [Hidden μ.pin] (n : Nat) (s : State) :
    hide μ (release n s) = hide μ s := by
  unfold release
  (try dsimp -proj only)
  first
  | (simp [↓hide_with, ↓hide_with_pin, hide_foldl]; done)
  | ((repeat' split) <;> simp [↓hide_with, ↓hide_with_pin, hide_foldl])

@[simp ↓] theorem hide_driveBall {μ : Mask} [Hidden μ.pin] (n : Nat) (lvl : Bool) (s : State) :
    hide μ (driveBall n lvl s) = hide μ s := by
  unfold driveBall
  (try dsimp -proj only)
  first
  | (simp [↓hide_with, ↓hide_with_pin, hide_foldl]; done)
  | ((repeat' split) <;> simp [↓hide_with, ↓hide_with_pin, hide_foldl])

@[simp ↓] theorem hide_undrive {μ : Mask} [Hidden μ.pin] (n : Nat) (s : State) :
    hide μ (undrive n s) = hide μ s := by
  unfold undrive
  (try dsimp -proj only)
  first
  | (simp [↓hide_with, ↓hide_with_pin, hide_foldl]; done)
  | ((repeat' split) <;> simp [↓hide_with, ↓hide_with_pin, hide_foldl])

@[simp ↓] theorem hide_gpioApply {μ : Mask} [Hidden μ.pin] (n : Nat) (s : State) :
    hide μ (gpioApply n s) = hide μ s := by
  unfold gpioApply
  (try dsimp -proj only)
  first
  | (simp [↓hide_with, ↓hide_with_pin, hide_foldl]; done)
  | ((repeat' split) <;> simp [↓hide_with, ↓hide_with_pin, hide_foldl])

@[simp ↓] theorem hide_gpioEnBit {μ : Mask} [Hidden μ.pin] (v : W32) (s : State) (n : Nat) :
    hide μ (gpioEnBit v s n) = hide μ s := by
  unfold gpioEnBit
  (try dsimp -proj only)
  first
  | (simp [↓hide_with, ↓hide_with_pin, hide_foldl]; done)
  | ((repeat' split) <;> simp [↓hide_with, ↓hide_with_pin, hide_foldl])

@[simp ↓] theorem hide_writeGpioEn {μ : Mask} [Hidden μ.pin] (v : W32) (s : State) :
    hide μ (writeGpioEn v s) = hide μ s := by
  unfold writeGpioEn
  (try dsimp -proj only)
  first
  | (simp [↓hide_with, ↓hide_with_pin, hide_foldl]; done)
  | ((repeat' split) <;> simp [↓hide_with, ↓hide_with_pin, hide_foldl])

@[simp ↓] theorem hide_execPinGpioenWrite {μ : Mask} [Hidden μ.pin] (v : W32) (s : State) :
    kept μ (hide μ s) (execPinGpioenWrite v s) := by
  unfold execPinGpioenWrite
  (try dsimp -proj only)
  first
  | (simp [↓hide_with, ↓hide_with_pin, hide_foldl]; done)
  | ((repeat' split) <;> simp [↓hide_with, ↓hide_with_pin, hide_foldl])

@[simp ↓] theorem hide_writeGpioDir {μ : Mask} [Hidden μ.pin] (v : W32) (s : State) :
    hide μ (writeGpioDir v s) = hide μ s := by
  unfold writeGpioDir
  (try dsimp -proj only)
  first
  | (simp [↓hide_with, ↓hide_with_pin, hide_foldl]; done)
  | ((repeat' split) <;> simp [↓hide_with, ↓hide_with_pin, hide_foldl])

@[simp ↓] theorem hide_writeGpioOut {μ : Mask} [Hidden μ.pin] (v : W32) (s : State) :
    hide μ (writeGpioOut v s) = hide μ s := by
  unfold writeGpioOut
  (try dsimp -proj only)
  first
  | (simp [↓hide_with, ↓hide_with_pin, hide_foldl]; done)
  | ((repeat' split) <;> simp [↓hide_with, ↓hide_with_pin, hide_foldl])

@[simp ↓] theorem hide_writeEvout {μ : Mask} [Hidden μ.whl] [Hidden μ.pin] (j : Nat) (v : W32) (s : State) :
    hide μ (writeEvout j v s) = hide μ s := by
  unfold writeEvout
  (try dsimp -proj only)
  first
  | (simp [↓hide_with, ↓hide_with_pin, hide_foldl]; done)
  | ((repeat' split) <;> simp [↓hide_with, ↓hide_with_pin, hide_foldl])

@[simp ↓] theorem hide_execPinEvoutWrite {μ : Mask} [Hidden μ.whl] [Hidden μ.pin] (j : Nat) (v : W32) (s : State) :
    kept μ (hide μ s) (execPinEvoutWrite j v s) := by
  unfold execPinEvoutWrite
  (try dsimp -proj only)
  first
  | (simp [↓hide_with, ↓hide_with_pin, hide_foldl]; done)
  | ((repeat' split) <;> simp [↓hide_with, ↓hide_with_pin, hide_foldl])

@[simp ↓] theorem hide_execEvoutPulseEnd {μ : Mask} [Hidden μ.pin] (j : Nat) (s : State) :
    kept μ (hide μ s) (execEvoutPulseEnd j s) := by
  unfold execEvoutPulseEnd
  (try dsimp -proj only)
  first
  | (simp [↓hide_with, ↓hide_with_pin, hide_foldl]; done)
  | ((repeat' split) <;> simp [↓hide_with, ↓hide_with_pin, hide_foldl])

@[simp ↓] theorem hide_evoutTurn {μ : Mask} [Hidden μ.whl] (s : State) :
    hide μ (evoutTurn s) = hide μ s := by
  unfold evoutTurn
  (try dsimp -proj only)
  first
  | (simp [↓hide_with, ↓hide_with_pin, hide_foldl]; done)
  | ((repeat' split) <;> simp [↓hide_with, ↓hide_with_pin, hide_foldl])

@[simp ↓] theorem hide_execDriveMismatch {μ : Mask} [Hidden μ.out] [Hidden μ.bootSt] [Hidden μ.cpx] [Hidden μ.flt] [Hidden μ.hif] [Hidden μ.coil] [Hidden μ.nvs] [Hidden μ.pin] (n : Nat) (s : State) :
    kept μ (hide μ s) (execDriveMismatch n s) := by
  unfold execDriveMismatch
  (try dsimp -proj only)
  first
  | (simp [↓hide_with, ↓hide_with_pin, hide_foldl]; done)
  | ((repeat' split) <;> simp [↓hide_with, ↓hide_with_pin, hide_foldl])

theorem hide_setJtag {μ : Mask} [h : Hidden μ.jtag] (c : Jtag) (s : State) :
    hide μ { s with pin := { s.pin with jtag := c } } = hide μ s := by
  cases hp : μ.pin <;> simp [hide, h.eq, hp]

@[simp ↓] theorem hide_execJtagInstruction {μ : Mask} [Hidden μ.out] [Hidden μ.jtag] (c : Jtag) (s : State) :
    kept μ (hide μ s) (execJtagInstruction c s) := by
  unfold execJtagInstruction
  (repeat' split) <;> simp [hide_setJtag]

end Sys2Proof.Laws
end

