-- ==== Sys2Proof/Laws/FootRtc.lean ====
section
/-!
SUPPORT. What the operations of Machine/Rtc.lean leave unchanged.
-/
set_option linter.unusedSimpArgs false
set_option linter.unusedTactic false
set_option linter.unreachableTactic false
namespace Sys2Proof.Laws
open Sys2Proof.Machine

@[simp ↓] theorem hide_rtcRecord {μ : Mask} [Hidden μ.nvs] (kind flags : Nat) (oldS : Nat) (oldFrac : W16) (newS : Nat) (step : Int) (s : State) :
    hide μ (rtcRecord kind flags oldS oldFrac newS step s) = hide μ s := by
  unfold rtcRecord
  (try dsimp -proj only)
  first
  | (simp [↓hide_with, ↓hide_with_pin, hide_foldl]; done)
  | ((repeat' split) <;> simp [↓hide_with, ↓hide_with_pin, hide_foldl])

@[simp ↓] theorem hide_captureTime {μ : Mask} [Hidden μ.rtc] (who : Nat) (s : State) :
    hide μ (captureTime who s) = hide μ s := by
  unfold captureTime
  (try dsimp -proj only)
  first
  | (simp [↓hide_with, ↓hide_with_pin, hide_foldl]; done)
  | ((repeat' split) <;> simp [↓hide_with, ↓hide_with_pin, hide_foldl])

@[simp ↓] theorem hide_execRtcSecRead {μ : Mask} [Hidden μ.out] [Hidden μ.rtc] (who : Nat) (s : State) :
    kept μ (hide μ s) (execRtcSecRead who s) := by
  unfold execRtcSecRead
  (try dsimp -proj only)
  first
  | (simp [↓hide_with, ↓hide_with_pin, hide_foldl]; done)
  | ((repeat' split) <;> simp [↓hide_with, ↓hide_with_pin, hide_foldl])

@[simp ↓] theorem hide_execRtcYearRead {μ : Mask} [Hidden μ.out] [Hidden μ.rtc] (who : Nat) (s : State) :
    kept μ (hide μ s) (execRtcYearRead who s) := by
  unfold execRtcYearRead
  (try dsimp -proj only)
  first
  | (simp [↓hide_with, ↓hide_with_pin, hide_foldl]; done)
  | ((repeat' split) <;> simp [↓hide_with, ↓hide_with_pin, hide_foldl])

@[simp ↓] theorem hide_execRtcFreezeExpiry {μ : Mask} [Hidden μ.rtc] (who : Nat) (s : State) :
    kept μ (hide μ s) (execRtcFreezeExpiry who s) := by
  unfold execRtcFreezeExpiry
  (try dsimp -proj only)
  first
  | (simp [↓hide_with, ↓hide_with_pin, hide_foldl]; done)
  | ((repeat' split) <;> simp [↓hide_with, ↓hide_with_pin, hide_foldl])

@[simp ↓] theorem hide_rtcSet {μ : Mask} [Hidden μ.rtc] (r : Req) (w : Waiter) (s : State) :
    hide μ (ansState (rtcSet r w s)) = hide μ s := by
  unfold rtcSet
  (try dsimp -proj only)
  first
  | (simp [↓hide_with, ↓hide_with_pin, hide_foldl]; done)
  | ((repeat' split) <;> simp [↓hide_with, ↓hide_with_pin, hide_foldl])

@[simp ↓] theorem hide_execRtcSet {μ : Mask} [Hidden μ.out] [Hidden μ.hif] [Hidden μ.coil] [Hidden μ.rtc] (r : Req) (s : State) :
    kept μ (hide μ s) (execRtcSet r s) := by
  unfold execRtcSet
  (try dsimp -proj only)
  refine hide_ring0 _ _ _ _ _ ?_
  (try dsimp -proj only)
  first
  | (simp [↓hide_with, ↓hide_with_pin, hide_foldl]; done)
  | ((repeat' split) <;> simp [↓hide_with, ↓hide_with_pin, hide_foldl])

@[simp ↓] theorem hide_execRtcCommitGo {μ : Mask} [Hidden μ.rtc] (s : State) :
    kept μ (hide μ s) (execRtcCommitGo s) := by
  unfold execRtcCommitGo
  (try dsimp -proj only)
  first
  | (simp [↓hide_with, ↓hide_with_pin, hide_foldl]; done)
  | ((repeat' split) <;> simp [↓hide_with, ↓hide_with_pin, hide_foldl])

@[simp ↓] theorem hide_execOscStop {μ : Mask} [Hidden μ.out] [Hidden μ.bootSt] [Hidden μ.cpx] [Hidden μ.whl] [Hidden μ.flt] [Hidden μ.hif] [Hidden μ.coil] [Hidden μ.nvs] [Hidden μ.rtc] (s : State) :
    kept μ (hide μ s) (execOscStop s) := by
  unfold execOscStop
  (try dsimp -proj only)
  first
  | (simp [↓hide_with, ↓hide_with_pin, hide_foldl]; done)
  | ((repeat' split) <;> simp [↓hide_with, ↓hide_with_pin, hide_foldl])

@[simp ↓] theorem hide_execOscRun {μ : Mask} [Hidden μ.flt] [Hidden μ.nvs] [Hidden μ.rtc] (s : State) :
    kept μ (hide μ s) (execOscRun s) := by
  unfold execOscRun
  (try dsimp -proj only)
  first
  | (simp [↓hide_with, ↓hide_with_pin, hide_foldl]; done)
  | ((repeat' split) <;> simp [↓hide_with, ↓hide_with_pin, hide_foldl])

@[simp ↓] theorem hide_execTrimWindow {μ : Mask} [Hidden μ.rtc] (s : State) :
    kept μ (hide μ s) (execTrimWindow s) := by
  unfold execTrimWindow
  (try dsimp -proj only)
  first
  | (simp [↓hide_with, ↓hide_with_pin, hide_foldl]; done)
  | ((repeat' split) <;> simp [↓hide_with, ↓hide_with_pin, hide_foldl])

@[simp ↓] theorem hide_execVbatCheck {μ : Mask} [Hidden μ.out] [Hidden μ.bootSt] [Hidden μ.cpx] [Hidden μ.flt] [Hidden μ.hif] [Hidden μ.coil] [Hidden μ.nvs] [Hidden μ.rtc] (low : Bool) (s : State) :
    kept μ (hide μ s) (execVbatCheck low s) := by
  unfold execVbatCheck
  (try dsimp -proj only)
  first
  | (simp [↓hide_with, ↓hide_with_pin, hide_foldl]; done)
  | ((repeat' split) <;> simp [↓hide_with, ↓hide_with_pin, hide_foldl])

@[simp ↓] theorem hide_sqwDrive {μ : Mask} [Hidden μ.rtc] [Hidden μ.pin] (s : State) :
    hide μ (sqwDrive s) = hide μ s := by
  unfold sqwDrive
  (try dsimp -proj only)
  first
  | (simp [↓hide_with, ↓hide_with_pin, hide_foldl]; done)
  | ((repeat' split) <;> simp [↓hide_with, ↓hide_with_pin, hide_foldl])

@[simp ↓] theorem hide_sqwCommit {μ : Mask} [Hidden μ.rtc] [Hidden μ.pin] (s : State) :
    hide μ (sqwCommit s) = hide μ s := by
  unfold sqwCommit
  (try dsimp -proj only)
  first
  | (simp [↓hide_with, ↓hide_with_pin, hide_foldl]; done)
  | ((repeat' split) <;> simp [↓hide_with, ↓hide_with_pin, hide_foldl])

@[simp ↓] theorem hide_execSqwEdge {μ : Mask} [Hidden μ.rtc] [Hidden μ.pin] (s : State) :
    kept μ (hide μ s) (execSqwEdge s) := by
  unfold execSqwEdge
  (try dsimp -proj only)
  first
  | (simp [↓hide_with, ↓hide_with_pin, hide_foldl]; done)
  | ((repeat' split) <;> simp [↓hide_with, ↓hide_with_pin, hide_foldl])

@[simp ↓] theorem hide_execEventInputEdge {μ : Mask} [Hidden μ.rtc] (e : Nat) (rising : Bool) (s : State) :
    kept μ (hide μ s) (execEventInputEdge e rising s) := by
  unfold execEventInputEdge
  (try dsimp -proj only)
  first
  | (simp [↓hide_with, ↓hide_with_pin, hide_foldl]; done)
  | ((repeat' split) <;> simp [↓hide_with, ↓hide_with_pin, hide_foldl])

@[simp ↓] theorem hide_execEventFifoDrain {μ : Mask} [Hidden μ.out] [Hidden μ.bootSt] [Hidden μ.cpx] [Hidden μ.flt] [Hidden μ.hif] [Hidden μ.coil] [Hidden μ.nvs] (s : State) :
    kept μ (hide μ s) (execEventFifoDrain s) := by
  unfold execEventFifoDrain
  (try dsimp -proj only)
  first
  | (simp [↓hide_with, ↓hide_with_pin, hide_foldl]; done)
  | ((repeat' split) <;> simp [↓hide_with, ↓hide_with_pin, hide_foldl])

end Sys2Proof.Laws
end

