-- ==== Sys2Proof/Laws/FootWheel.lean ====
section
/-!
SUPPORT. What the operations of Machine/Wheel.lean leave unchanged.
-/
set_option linter.unusedSimpArgs false
set_option linter.unusedTactic false
set_option linter.unreachableTactic false
namespace Sys2Proof.Laws
open Sys2Proof.Machine

@[simp ↓] theorem hide_advance {μ : Mask} [Hidden μ.slot] [Hidden μ.rtc] (n : Nat) (s : State) :
    hide μ (advance n s) = hide μ s := by
  unfold advance
  (try dsimp -proj only)
  first
  | (simp [↓hide_with, ↓hide_with_pin, hide_foldl]; done)
  | ((repeat' split) <;> simp [↓hide_with, ↓hide_with_pin, hide_foldl])

@[simp ↓] theorem hide_idleStep {μ : Mask} [Hidden μ.slot] [Hidden μ.whl] [Hidden μ.rtc] (s : State) :
    hide μ (idleStep s) = hide μ s := by
  unfold idleStep
  (try dsimp -proj only)
  first
  | (simp [↓hide_with, ↓hide_with_pin, hide_foldl]; done)
  | ((repeat' split) <;> simp [↓hide_with, ↓hide_with_pin, hide_foldl])

@[simp ↓] theorem hide_wheelStart {μ : Mask} [Hidden μ.whl] (s : State) : hide μ (wheelStart s) = hide μ s := by
  unfold wheelStart; dsimp -proj only; simp [↓hide_with]

@[simp ↓] theorem hide_holdoverEnter {μ : Mask} [Hidden μ.out] [Hidden μ.bootSt] [Hidden μ.cpx] [Hidden μ.whl] [Hidden μ.flt] [Hidden μ.hif] [Hidden μ.coil] [Hidden μ.nvs] (s : State) :
    hide μ (holdoverEnter s) = hide μ s := by
  unfold holdoverEnter
  (try dsimp -proj only)
  first
  | (simp [↓hide_with, ↓hide_with_pin, hide_foldl]; done)
  | ((repeat' split) <;> simp [↓hide_with, ↓hide_with_pin, hide_foldl])

@[simp ↓] theorem hide_execRefHalfCycle {μ : Mask} [Hidden μ.out] [Hidden μ.bootSt] [Hidden μ.cpx] [Hidden μ.whl] [Hidden μ.flt] [Hidden μ.hif] [Hidden μ.coil] [Hidden μ.nvs] (n : Nat) (rising : Bool) (s : State) :
    kept μ (hide μ s) (execRefHalfCycle n rising s) := by
  unfold execRefHalfCycle
  (try dsimp -proj only)
  first
  | (simp [↓hide_with, ↓hide_with_pin, hide_foldl]; done)
  | ((repeat' split) <;> simp [↓hide_with, ↓hide_with_pin, hide_foldl])

@[simp ↓] theorem hide_execRefRevert {μ : Mask} [Hidden μ.whl] (s : State) :
    kept μ (hide μ s) (execRefRevert s) := by
  unfold execRefRevert
  (try dsimp -proj only)
  first
  | (simp [↓hide_with, ↓hide_with_pin, hide_foldl]; done)
  | ((repeat' split) <;> simp [↓hide_with, ↓hide_with_pin, hide_foldl])

@[simp ↓] theorem hide_execRefListApply {μ : Mask} [Hidden μ.out] [Hidden μ.bootSt] [Hidden μ.cpx] [Hidden μ.whl] [Hidden μ.flt] [Hidden μ.hif] [Hidden μ.coil] [Hidden μ.nvs] (s : State) :
    kept μ (hide μ s) (execRefListApply s) := by
  unfold execRefListApply
  (try dsimp -proj only)
  first
  | (simp [↓hide_with, ↓hide_with_pin, hide_foldl]; done)
  | ((repeat' split) <;> simp [↓hide_with, ↓hide_with_pin, hide_foldl])

@[simp ↓] theorem hide_wheelAngle0 {μ : Mask} [Hidden μ.free] [Hidden μ.whl] (est : W32) (s : State) :
    hide μ (wheelAngle0 est s) = hide μ s := by
  unfold wheelAngle0
  (try dsimp -proj only)
  first
  | (simp [↓hide_with, ↓hide_with_pin, hide_foldl]; done)
  | ((repeat' split) <;> simp [↓hide_with, ↓hide_with_pin, hide_foldl])

@[simp ↓] theorem hide_toBoundary {μ : Mask} [Hidden μ.slot] [Hidden μ.whl] [Hidden μ.rtc] (s : State) : hide μ (toBoundary s) = hide μ s := by
  unfold toBoundary; dsimp -proj only; simp [↓hide_with]

@[simp ↓] theorem hide_syncRequest {μ : Mask} [Hidden μ.whl] (ball : Bool) (s : State) :
    hide μ (syncRequest ball s) = hide μ s := by
  unfold syncRequest
  (try dsimp -proj only)
  first
  | (simp [↓hide_with, ↓hide_with_pin, hide_foldl]; done)
  | ((repeat' split) <;> simp [↓hide_with, ↓hide_with_pin, hide_foldl])

@[simp ↓] theorem hide_execSyncinEdge {μ : Mask} [Hidden μ.whl] (falling : Bool) (s : State) :
    kept μ (hide μ s) (execSyncinEdge falling s) := by
  unfold execSyncinEdge
  (try dsimp -proj only)
  first
  | (simp [↓hide_with, ↓hide_with_pin, hide_foldl]; done)
  | ((repeat' split) <;> simp [↓hide_with, ↓hide_with_pin, hide_foldl])

@[simp ↓] theorem hide_execSync {μ : Mask} [Hidden μ.out] [Hidden μ.whl] [Hidden μ.hif] [Hidden μ.coil] (r : Req) (s : State) :
    kept μ (hide μ s) (execSync r s) := by
  unfold execSync
  (try dsimp -proj only)
  first
  | (simp [↓hide_with, ↓hide_with_pin, hide_foldl]; done)
  | ((repeat' split) <;> simp [↓hide_with, ↓hide_with_pin, hide_foldl])

@[simp ↓] theorem hide_execSyncoutPulseEnd {μ : Mask} [Hidden μ.pin] (s : State) :
    kept μ (hide μ s) (execSyncoutPulseEnd s) := by
  unfold execSyncoutPulseEnd
  (try dsimp -proj only)
  first
  | (simp [↓hide_with, ↓hide_with_pin, hide_foldl]; done)
  | ((repeat' split) <;> simp [↓hide_with, ↓hide_with_pin, hide_foldl])

@[simp ↓] theorem hide_execWheelCoastEnd {μ : Mask} [Hidden μ.whl] (s : State) :
    kept μ (hide μ s) (execWheelCoastEnd s) := by
  unfold execWheelCoastEnd
  (try dsimp -proj only)
  first
  | (simp [↓hide_with, ↓hide_with_pin, hide_foldl]; done)
  | ((repeat' split) <;> simp [↓hide_with, ↓hide_with_pin, hide_foldl])

@[simp ↓] theorem hide_latchPos {μ : Mask} [Hidden μ.whl] (s : State) :
    hide μ (latchPos s) = hide μ s := by
  unfold latchPos
  (try dsimp -proj only)
  first
  | (simp [↓hide_with, ↓hide_with_pin, hide_foldl]; done)
  | ((repeat' split) <;> simp [↓hide_with, ↓hide_with_pin, hide_foldl])

@[simp ↓] theorem hide_execWhlPosloRead {μ : Mask} [Hidden μ.out] [Hidden μ.whl] (s : State) :
    kept μ (hide μ s) (execWhlPosloRead s) := by
  unfold execWhlPosloRead
  (try dsimp -proj only)
  first
  | (simp [↓hide_with, ↓hide_with_pin, hide_foldl]; done)
  | ((repeat' split) <;> simp [↓hide_with, ↓hide_with_pin, hide_foldl])

@[simp ↓] theorem hide_armRtc {μ : Mask} [Hidden μ.whl] (n : Nat) (e : RtcEnt) (s : State) :
    hide μ (armRtc n e s) = hide μ s := by
  unfold armRtc
  (try dsimp -proj only)
  first
  | (simp [↓hide_with, ↓hide_with_pin, hide_foldl]; done)
  | ((repeat' split) <;> simp [↓hide_with, ↓hide_with_pin, hide_foldl])

@[simp ↓] theorem hide_armOnce {μ : Mask} [Hidden μ.out] [Hidden μ.bootSt] [Hidden μ.cpx] [Hidden μ.whl] [Hidden μ.flt] [Hidden μ.hif] [Hidden μ.coil] [Hidden μ.nvs] (n : Nat) (e : AngEnt) (s : State) :
    hide μ (armOnce n e s).1 = hide μ s := by
  unfold armOnce
  apply hide_fst_ite
  · simp [↓hide_with]
  · simp [↓hide_with]

end Sys2Proof.Laws
end

