-- ==== Sys2Proof/Laws/FootDec.lean ====
section
/-!
SUPPORT. What the operations of Machine/Dec.lean leave unchanged.
-/
set_option linter.unusedSimpArgs false
set_option linter.unusedTactic false
set_option linter.unreachableTactic false
namespace Sys2Proof.Laws
open Sys2Proof.Machine

@[simp ↓] theorem hide_setShadow {μ : Mask} [Hidden μ.afe] (b : Nat) (x : ShadowMod) (s : State) :
    hide μ (setShadow b x s) = hide μ s := by
  unfold setShadow
  (try dsimp -proj only)
  first
  | (simp [↓hide_with, ↓hide_with_pin, hide_foldl]; done)
  | ((repeat' split) <;> simp [↓hide_with, ↓hide_with_pin, hide_foldl])

@[simp ↓] theorem hide_setStrm {μ : Mask} [Hidden μ.dec] (m : Nat) (x : Strm) (s : State) :
    hide μ (setStrm m x s) = hide μ s := by
  unfold setStrm
  (try dsimp -proj only)
  first
  | (simp [↓hide_with, ↓hide_with_pin, hide_foldl]; done)
  | ((repeat' split) <;> simp [↓hide_with, ↓hide_with_pin, hide_foldl])

@[simp ↓] theorem hide_setCalMod {μ : Mask} [Hidden μ.cal] (m : Nat) (x : CalMod) (s : State) :
    hide μ (setCalMod m x s) = hide μ s := by
  unfold setCalMod
  (try dsimp -proj only)
  first
  | (simp [↓hide_with, ↓hide_with_pin, hide_foldl]; done)
  | ((repeat' split) <;> simp [↓hide_with, ↓hide_with_pin, hide_foldl])

@[simp ↓] theorem hide_setGrp {μ : Mask} [Hidden μ.cal] (g : Nat) (x : CalGrp) (s : State) :
    hide μ (setGrp g x s) = hide μ s := by
  unfold setGrp
  (try dsimp -proj only)
  first
  | (simp [↓hide_with, ↓hide_with_pin, hide_foldl]; done)
  | ((repeat' split) <;> simp [↓hide_with, ↓hide_with_pin, hide_foldl])

@[simp ↓] theorem hide_setPair {μ : Mask} [Hidden μ.dec] (i : Nat) (x : Pair) (s : State) :
    hide μ (setPair i x s) = hide μ s := by
  unfold setPair
  (try dsimp -proj only)
  first
  | (simp [↓hide_with, ↓hide_with_pin, hide_foldl]; done)
  | ((repeat' split) <;> simp [↓hide_with, ↓hide_with_pin, hide_foldl])

@[simp ↓] theorem hide_decStep {μ : Mask} [Hidden μ.dec] (m : Nat) (bits : Byte) (s : State) :
    hide μ (decStep m bits s).1 = hide μ s := by
  unfold decStep
  (try dsimp -proj only)
  first
  | (simp [↓hide_with, ↓hide_with_pin, hide_foldl]; done)
  | ((repeat' split) <;> simp [↓hide_with, ↓hide_with_pin, hide_foldl])

@[simp ↓] theorem hide_execCoarseRmsBlock {μ : Mask} [Hidden μ.dec] (m : Nat) (s : State) :
    kept μ (hide μ s) (execCoarseRmsBlock m s) := by
  unfold execCoarseRmsBlock
  (try dsimp -proj only)
  first
  | (simp [↓hide_with, ↓hide_with_pin, hide_foldl]; done)
  | ((repeat' split) <;> simp [↓hide_with, ↓hide_with_pin, hide_foldl])

@[simp ↓] theorem hide_execIntegratorReset {μ : Mask} [Hidden μ.dec] (m : Nat) (s : State) :
    kept μ (hide μ s) (execIntegratorReset m s) := by
  unfold execIntegratorReset
  (try dsimp -proj only)
  first
  | (simp [↓hide_with, ↓hide_with_pin, hide_foldl]; done)
  | ((repeat' split) <;> simp [↓hide_with, ↓hide_with_pin, hide_foldl])

@[simp ↓] theorem hide_settleNow {μ : Mask} [Hidden μ.dec] (ms : List Nat) (s : State) :
    hide μ (settleNow ms s) = hide μ s := by
  unfold settleNow
  (try dsimp -proj only)
  first
  | (simp [↓hide_with, ↓hide_with_pin, hide_foldl]; done)
  | ((repeat' split) <;> simp [↓hide_with, ↓hide_with_pin, hide_foldl])

@[simp ↓] theorem hide_isolate {μ : Mask} [Hidden μ.afe] [Hidden μ.dec] (ms : List Nat) (s : State) :
    hide μ (isolate ms s) = hide μ s := by
  unfold isolate
  (try dsimp -proj only)
  first
  | (simp [↓hide_with, ↓hide_with_pin, hide_foldl]; done)
  | ((repeat' split) <;> simp [↓hide_with, ↓hide_with_pin, hide_foldl])

@[simp ↓] theorem hide_reconnect {μ : Mask} [Hidden μ.afe] [Hidden μ.dec] (ms : List Nat) (s : State) :
    hide μ (reconnect ms s) = hide μ s := by
  unfold reconnect
  (try dsimp -proj only)
  first
  | (simp [↓hide_with, ↓hide_with_pin, hide_foldl]; done)
  | ((repeat' split) <;> simp [↓hide_with, ↓hide_with_pin, hide_foldl])

@[simp ↓] theorem hide_loadBoth {μ : Mask} [Hidden μ.dec] (i : Nat) (b : List Int × BitVec 4 × BitVec 24) (s : State) :
    hide μ (loadBoth i b s) = hide μ s := by
  unfold loadBoth
  (try dsimp -proj only)
  first
  | (simp [↓hide_with, ↓hide_with_pin, hide_foldl]; done)
  | ((repeat' split) <;> simp [↓hide_with, ↓hide_with_pin, hide_foldl])

@[simp ↓] theorem hide_armPair {μ : Mask} [Hidden μ.dec] (i : Nat) (b : Option (List Int × BitVec 4 × BitVec 24)) (s : State) :
    hide μ (armPair i b s) = hide μ s := by
  unfold armPair
  (try dsimp -proj only)
  first
  | (simp [↓hide_with, ↓hide_with_pin, hide_foldl]; done)
  | ((repeat' split) <;> simp [↓hide_with, ↓hide_with_pin, hide_foldl])

@[simp ↓] theorem hide_withdraw {μ : Mask} [Hidden μ.dec] (i : Nat) (s : State) :
    hide μ (withdraw i s) = hide μ s := by
  unfold withdraw
  (try dsimp -proj only)
  first
  | (simp [↓hide_with, ↓hide_with_pin, hide_foldl]; done)
  | ((repeat' split) <;> simp [↓hide_with, ↓hide_with_pin, hide_foldl])

@[simp ↓] theorem hide_execCoefSwap {μ : Mask} [Hidden μ.out] [Hidden μ.hif] [Hidden μ.coil] [Hidden μ.dec] (r : Req) (s : State) :
    kept μ (hide μ s) (execCoefSwap r s) := by
  unfold execCoefSwap
  (try dsimp -proj only)
  first
  | (simp [↓hide_with, ↓hide_with_pin, hide_foldl]; done)
  | ((repeat' split) <;> simp [↓hide_with, ↓hide_with_pin, hide_foldl])

@[simp ↓] theorem hide_fadeFromZero {μ : Mask} [Hidden μ.dec] [Hidden μ.pnt] (i : Nat) (s : State) :
    hide μ (fadeFromZero i s) = hide μ s := by
  unfold fadeFromZero
  (try dsimp -proj only)
  first
  | (simp [↓hide_with, ↓hide_with_pin, hide_foldl]; done)
  | ((repeat' split) <;> simp [↓hide_with, ↓hide_with_pin, hide_foldl])

@[simp ↓] theorem hide_startFade {μ : Mask} [Hidden μ.nvs] [Hidden μ.dec] [Hidden μ.pnt] (i : Nat) (s : State) :
    hide μ (startFade i s) = hide μ s := by
  unfold startFade
  (try dsimp -proj only)
  first
  | (simp [↓hide_with, ↓hide_with_pin, hide_foldl]; done)
  | ((repeat' split) <;> simp [↓hide_with, ↓hide_with_pin, hide_foldl])

@[simp ↓] theorem hide_execCoefFadeStart {μ : Mask} [Hidden μ.nvs] [Hidden μ.dec] [Hidden μ.pnt] (i : Nat) (s : State) :
    kept μ (hide μ s) (execCoefFadeStart i s) := by
  unfold execCoefFadeStart
  (try dsimp -proj only)
  first
  | (simp [↓hide_with, ↓hide_with_pin, hide_foldl]; done)
  | ((repeat' split) <;> simp [↓hide_with, ↓hide_with_pin, hide_foldl])

@[simp ↓] theorem hide_execCoefFadeEnd {μ : Mask} [Hidden μ.dec] (i : Nat) (s : State) :
    kept μ (hide μ s) (execCoefFadeEnd i s) := by
  unfold execCoefFadeEnd
  (try dsimp -proj only)
  first
  | (simp [↓hide_with, ↓hide_with_pin, hide_foldl]; done)
  | ((repeat' split) <;> simp [↓hide_with, ↓hide_with_pin, hide_foldl])

@[simp ↓] theorem hide_execFadeDeferred {μ : Mask} [Hidden μ.out] [Hidden μ.bootSt] [Hidden μ.cpx] [Hidden μ.flt] [Hidden μ.hif] [Hidden μ.coil] [Hidden μ.nvs] (i : Nat) (s : State) :
    kept μ (hide μ s) (execFadeDeferred i s) := by
  unfold execFadeDeferred
  (try dsimp -proj only)
  first
  | (simp [↓hide_with, ↓hide_with_pin, hide_foldl]; done)
  | ((repeat' split) <;> simp [↓hide_with, ↓hide_with_pin, hide_foldl])

@[simp ↓] theorem hide_execTapConfigApply {μ : Mask} [Hidden μ.dec] (s : State) :
    kept μ (hide μ s) (execTapConfigApply s) := by
  unfold execTapConfigApply
  (try dsimp -proj only)
  first
  | (simp [↓hide_with, ↓hide_with_pin, hide_foldl]; done)
  | ((repeat' split) <;> simp [↓hide_with, ↓hide_with_pin, hide_foldl])

@[simp ↓] theorem hide_execCoefCrcCheck {μ : Mask} [Hidden μ.out] [Hidden μ.bootSt] [Hidden μ.cpx] [Hidden μ.flt] [Hidden μ.hif] [Hidden μ.coil] [Hidden μ.nvs] [Hidden μ.dec] (pair : Nat) (upset : Option (Nat × BitVec 24)) (s : State) :
    kept μ (hide μ s) (execCoefCrcCheck pair upset s) := by
  unfold execCoefCrcCheck
  (try dsimp -proj only)
  first
  | (simp [↓hide_with, ↓hide_with_pin, hide_foldl]; done)
  | ((repeat' split) <;> simp [↓hide_with, ↓hide_with_pin, hide_foldl])

@[simp ↓] theorem hide_execSlotOverrun {μ : Mask} [Hidden μ.out] [Hidden μ.bootSt] [Hidden μ.cpx] [Hidden μ.flt] [Hidden μ.hif] [Hidden μ.coil] [Hidden μ.nvs] (_slot : Nat) (s : State) :
    kept μ (hide μ s) (execSlotOverrun _slot s) := by
  unfold execSlotOverrun
  (try dsimp -proj only)
  first
  | (simp [↓hide_with, ↓hide_with_pin, hide_foldl]; done)
  | ((repeat' split) <;> simp [↓hide_with, ↓hide_with_pin, hide_foldl])

@[simp ↓] theorem hide_execRsRomCrcCheck {μ : Mask} [Hidden μ.out] [Hidden μ.bootSt] [Hidden μ.cpx] [Hidden μ.flt] [Hidden μ.hif] [Hidden μ.coil] [Hidden μ.nvs] (differs : Bool) (s : State) :
    kept μ (hide μ s) (execRsRomCrcCheck differs s) := by
  unfold execRsRomCrcCheck
  (try dsimp -proj only)
  first
  | (simp [↓hide_with, ↓hide_with_pin, hide_foldl]; done)
  | ((repeat' split) <;> simp [↓hide_with, ↓hide_with_pin, hide_foldl])

end Sys2Proof.Laws
end

