-- ==== Sys2Proof/Laws/FootCapture.lean ====
section
/-!
SUPPORT. What the operations of Machine/Capture.lean leave unchanged.
-/
set_option linter.unusedSimpArgs false
set_option linter.unusedTactic false
set_option linter.unreachableTactic false
namespace Sys2Proof.Laws
open Sys2Proof.Machine

@[simp ↓] theorem hide_capPush {μ : Mask} [Hidden μ.pq] (src n : Nat) (idx : Int) (w : Nat) (s : State) :
    hide μ (capPush src n idx w s) = hide μ s := by
  unfold capPush
  (try dsimp -proj only)
  first
  | (simp [↓hide_with, ↓hide_with_pin, hide_foldl]; done)
  | ((repeat' split) <;> simp [↓hide_with, ↓hide_with_pin, hide_foldl])

@[simp ↓] theorem hide_streamPush {μ : Mask} [Hidden μ.hif] (src n : Nat) (idx : Int) (w : Nat) (s : State) :
    hide μ (streamPush src n idx w s) = hide μ s := by
  unfold streamPush
  (try dsimp -proj only)
  first
  | (simp [↓hide_with, ↓hide_with_pin, hide_foldl]; done)
  | ((repeat' split) <;> simp [↓hide_with, ↓hide_with_pin, hide_foldl])

@[simp ↓] theorem hide_sinks {μ : Mask} [Hidden μ.hif] [Hidden μ.pq] (src n : Nat) (idx : Int) (x : Smp) (s : State) :
    hide μ (sinks src n idx x s) = hide μ s := by
  unfold sinks
  (try dsimp -proj only)
  first
  | (simp [↓hide_with, ↓hide_with_pin, hide_foldl]; done)
  | ((repeat' split) <;> simp [↓hide_with, ↓hide_with_pin, hide_foldl])

@[simp ↓] theorem hide_noteCond {μ : Mask} [Hidden μ.pq] (kind : Nat) (t : Int) (pos : W64) (s : State) :
    hide μ (noteCond kind t pos s) = hide μ s := by
  unfold noteCond
  (try dsimp -proj only)
  first
  | (simp [↓hide_with, ↓hide_with_pin, hide_foldl]; done)
  | ((repeat' split) <;> simp [↓hide_with, ↓hide_with_pin, hide_foldl])

@[simp ↓] theorem hide_noteAt {μ : Mask} [Hidden μ.pq] (kind : Nat) (t : Int) (s : State) :
    hide μ (noteAt kind t s) = hide μ s := by
  unfold noteAt
  (try dsimp -proj only)
  first
  | (simp [↓hide_with, ↓hide_with_pin, hide_foldl]; done)
  | ((repeat' split) <;> simp [↓hide_with, ↓hide_with_pin, hide_foldl])

@[simp ↓] theorem hide_capFire {μ : Mask} [Hidden μ.pq] (t : Int) (pos : W64) (s : State) :
    hide μ (capFire t pos s) = hide μ s := by
  unfold capFire
  (try dsimp -proj only)
  first
  | (simp [↓hide_with, ↓hide_with_pin, hide_foldl]; done)
  | ((repeat' split) <;> simp [↓hide_with, ↓hide_with_pin, hide_foldl])

@[simp ↓] theorem hide_capArmed {μ : Mask} [Hidden μ.out] [Hidden μ.bootSt] [Hidden μ.cpx] [Hidden μ.whl] [Hidden μ.flt] [Hidden μ.hif] [Hidden μ.coil] [Hidden μ.nvs] [Hidden μ.pq] (r : Nat) (s : State) :
    hide μ (capArmed r s) = hide μ s := by
  unfold capArmed
  (try dsimp -proj only)
  first
  | (simp [↓hide_with, ↓hide_with_pin, hide_foldl]; done)
  | ((repeat' split) <;> simp [↓hide_with, ↓hide_with_pin, hide_foldl])

@[simp ↓] theorem hide_capDone {μ : Mask} [Hidden μ.out] [Hidden μ.bootSt] [Hidden μ.cpx] [Hidden μ.whl] [Hidden μ.flt] [Hidden μ.hif] [Hidden μ.coil] [Hidden μ.nvs] [Hidden μ.pq] (s : State) :
    hide μ (capDone s) = hide μ s := by
  unfold capDone
  (try dsimp -proj only)
  first
  | (simp [↓hide_with, ↓hide_with_pin, hide_foldl]; done)
  | ((repeat' split) <;> simp [↓hide_with, ↓hide_with_pin, hide_foldl])

@[simp ↓] theorem hide_execCaptureTrigger {μ : Mask} [Hidden μ.pq] (r : Nat) (s : State) :
    kept μ (hide μ s) (execCaptureTrigger r s) := by
  unfold execCaptureTrigger
  (try dsimp -proj only)
  first
  | (simp [↓hide_with, ↓hide_with_pin, hide_foldl]; done)
  | ((repeat' split) <;> simp [↓hide_with, ↓hide_with_pin, hide_foldl])

@[simp ↓] theorem hide_execCapCfg {μ : Mask} [Hidden μ.out] [Hidden μ.bootSt] [Hidden μ.cpx] [Hidden μ.flt] [Hidden μ.hif] [Hidden μ.coil] [Hidden μ.nvs] [Hidden μ.pq] (r : Req) (s : State) :
    kept μ (hide μ s) (execCapCfg r s) := by
  unfold execCapCfg
  (try dsimp -proj only)
  refine hide_ring0 _ _ _ _ _ ?_
  (try dsimp -proj only)
  first
  | (simp [↓hide_with, ↓hide_with_pin, hide_foldl]; done)
  | ((repeat' split) <;> simp [↓hide_with, ↓hide_with_pin, hide_foldl])

@[simp ↓] theorem hide_capBusy {μ : Mask} [Hidden μ.pq] (s : State) :
    hide μ (ansState (capBusy s)) = hide μ s := by
  unfold capBusy
  (try dsimp -proj only)
  first
  | (simp [↓hide_with, ↓hide_with_pin, hide_foldl]; done)
  | ((repeat' split) <;> simp [↓hide_with, ↓hide_with_pin, hide_foldl])

@[simp ↓] theorem hide_execCapArm {μ : Mask} [Hidden μ.out] [Hidden μ.bootSt] [Hidden μ.cpx] [Hidden μ.whl] [Hidden μ.flt] [Hidden μ.hif] [Hidden μ.coil] [Hidden μ.nvs] [Hidden μ.pq] (r : Req) (s : State) :
    kept μ (hide μ s) (execCapArm r s) := by
  unfold execCapArm
  (try dsimp -proj only)
  refine hide_ring0 _ _ _ _ _ ?_
  (try dsimp -proj only)
  first
  | (simp [↓hide_with, ↓hide_with_pin, hide_foldl]; done)
  | ((repeat' split) <;> simp [↓hide_with, ↓hide_with_pin, hide_foldl])

@[simp ↓] theorem hide_capCommandFire {μ : Mask} [Hidden μ.pq] (s : State) :
    hide μ (capCommandFire s) = hide μ s := by
  unfold capCommandFire
  (try dsimp -proj only)
  first
  | (simp [↓hide_with, ↓hide_with_pin, hide_foldl]; done)
  | ((repeat' split) <;> simp [↓hide_with, ↓hide_with_pin, hide_foldl])

@[simp ↓] theorem hide_capSeed {μ : Mask} [Hidden μ.pq] (s : State) :
    hide μ (capSeed s) = hide μ s := by
  unfold capSeed
  (try dsimp -proj only)
  first
  | (simp [↓hide_with, ↓hide_with_pin, hide_foldl]; done)
  | ((repeat' split) <;> simp [↓hide_with, ↓hide_with_pin, hide_foldl])

@[simp ↓] theorem hide_execCapTrigger {μ : Mask} [Hidden μ.out] [Hidden μ.bootSt] [Hidden μ.cpx] [Hidden μ.whl] [Hidden μ.flt] [Hidden μ.hif] [Hidden μ.coil] [Hidden μ.nvs] [Hidden μ.pq] (r : Req) (s : State) :
    kept μ (hide μ s) (execCapTrigger r s) := by
  unfold execCapTrigger
  (try dsimp -proj only)
  refine hide_ring0 _ _ _ _ _ ?_
  (try dsimp -proj only)
  first
  | (simp [↓hide_with, ↓hide_with_pin, hide_foldl]; done)
  | ((repeat' split) <;> simp [↓hide_with, ↓hide_with_pin, hide_foldl])

@[simp ↓] theorem hide_dropSegs {μ : Mask} [Hidden μ.hif] [Hidden μ.coil] (s : State) :
    hide μ (dropSegs s) = hide μ s := by
  unfold dropSegs
  (try dsimp -proj only)
  first
  | (simp [↓hide_with, ↓hide_with_pin, hide_foldl]; done)
  | ((repeat' split) <;> simp [↓hide_with, ↓hide_with_pin, hide_foldl])

@[simp ↓] theorem hide_execCapRelease {μ : Mask} [Hidden μ.out] [Hidden μ.whl] [Hidden μ.hif] [Hidden μ.coil] [Hidden μ.pq] (r : Req) (s : State) :
    kept μ (hide μ s) (execCapRelease r s) := by
  unfold execCapRelease
  (try dsimp -proj only)
  refine hide_ring0 _ _ _ _ _ ?_
  (try dsimp -proj only)
  first
  | (simp [↓hide_with, ↓hide_with_pin, hide_foldl]; done)
  | ((repeat' split) <;> simp [↓hide_with, ↓hide_with_pin, hide_foldl])

@[simp ↓] theorem hide_capDeliver {μ : Mask} [Hidden μ.out] [Hidden μ.bootSt] [Hidden μ.cpx] [Hidden μ.whl] [Hidden μ.flt] [Hidden μ.hif] [Hidden μ.coil] [Hidden μ.nvs] [Hidden μ.pq] (s : State) :
    hide μ (capDeliver s) = hide μ s := by
  unfold capDeliver
  (try dsimp -proj only)
  first
  | (simp [↓hide_with, ↓hide_with_pin, hide_foldl]; done)
  | ((repeat' split) <;> simp [↓hide_with, ↓hide_with_pin, hide_foldl])

@[simp ↓] theorem hide_execCaptureFillEnd {μ : Mask} [Hidden μ.out] [Hidden μ.bootSt] [Hidden μ.cpx] [Hidden μ.whl] [Hidden μ.flt] [Hidden μ.hif] [Hidden μ.coil] [Hidden μ.nvs] [Hidden μ.pq] (s : State) :
    kept μ (hide μ s) (execCaptureFillEnd s) := by
  unfold execCaptureFillEnd
  (try dsimp -proj only)
  first
  | (simp [↓hide_with, ↓hide_with_pin, hide_foldl]; done)
  | ((repeat' split) <;> simp [↓hide_with, ↓hide_with_pin, hide_foldl])

@[simp ↓] theorem hide_capSegDone {μ : Mask} [Hidden μ.out] [Hidden μ.bootSt] [Hidden μ.cpx] [Hidden μ.whl] [Hidden μ.flt] [Hidden μ.hif] [Hidden μ.coil] [Hidden μ.nvs] [Hidden μ.pq] (seq : W32) (s : State) :
    hide μ (capSegDone seq s) = hide μ s := by
  unfold capSegDone
  (try dsimp -proj only)
  first
  | (simp [↓hide_with, ↓hide_with_pin, hide_foldl]; done)
  | ((repeat' split) <;> simp [↓hide_with, ↓hide_with_pin, hide_foldl])

@[simp ↓] theorem hide_capTruncate {μ : Mask} [Hidden μ.pq] (s : State) :
    hide μ (capTruncate s) = hide μ s := by
  unfold capTruncate
  (try dsimp -proj only)
  first
  | (simp [↓hide_with, ↓hide_with_pin, hide_foldl]; done)
  | ((repeat' split) <;> simp [↓hide_with, ↓hide_with_pin, hide_foldl])

@[simp ↓] theorem hide_capRephase {μ : Mask} [Hidden μ.pq] (s0 : State) :
    hide μ (capRephase s0) = hide μ s0 := by
  unfold capRephase
  (try dsimp -proj only)
  first
  | (simp [↓hide_with, ↓hide_with_pin, hide_foldl]; done)
  | ((repeat' split) <;> simp [↓hide_with, ↓hide_with_pin, hide_foldl])

@[simp ↓] theorem hide_execStreamStart {μ : Mask} [Hidden μ.out] [Hidden μ.hif] [Hidden μ.coil] (r : Req) (s : State) :
    kept μ (hide μ s) (execStreamStart r s) := by
  unfold execStreamStart
  (try dsimp -proj only)
  first
  | (simp [↓hide_with, ↓hide_with_pin, hide_foldl]; done)
  | ((repeat' split) <;> simp [↓hide_with, ↓hide_with_pin, hide_foldl])

@[simp ↓] theorem hide_execStreamStop {μ : Mask} [Hidden μ.out] [Hidden μ.hif] [Hidden μ.coil] (r : Req) (s : State) :
    kept μ (hide μ s) (execStreamStop r s) := by
  unfold execStreamStop
  (try dsimp -proj only)
  first
  | (simp [↓hide_with, ↓hide_with_pin, hide_foldl]; done)
  | ((repeat' split) <;> simp [↓hide_with, ↓hide_with_pin, hide_foldl])

end Sys2Proof.Laws
end

