-- ==== Sys2Proof/Laws/FootSample.lean ====
section
/-!
SUPPORT. What the operations of Machine/Sample.lean leave unchanged.
-/
set_option linter.unusedSimpArgs false
set_option linter.unusedTactic false
set_option linter.unreachableTactic false
namespace Sys2Proof.Laws
open Sys2Proof.Machine

@[simp ↓] theorem hide_ovrLive {μ : Mask} [Hidden μ.out] [Hidden μ.bootSt] [Hidden μ.cpx] [Hidden μ.flt] [Hidden μ.hif] [Hidden μ.coil] [Hidden μ.nvs] (s : State) :
    hide μ (ovrLive s) = hide μ s := by
  unfold ovrLive
  (try dsimp -proj only)
  first
  | (simp [↓hide_with, ↓hide_with_pin, hide_foldl]; done)
  | ((repeat' split) <;> simp [↓hide_with, ↓hide_with_pin, hide_foldl])

@[simp ↓] theorem hide_tapPush {μ : Mask} [Hidden μ.hif] [Hidden μ.dec] [Hidden μ.pq] (t : Nat) (n : Int) (x : Smp) (s : State) :
    hide μ (tapPush t n x s) = hide μ s := by
  unfold tapPush
  (try dsimp -proj only)
  first
  | (simp [↓hide_with, ↓hide_with_pin, hide_foldl]; done)
  | ((repeat' split) <;> simp [↓hide_with, ↓hide_with_pin, hide_foldl])

@[simp ↓] theorem hide_auxPush {μ : Mask} [Hidden μ.afe] (a : Nat) (n : Int) (x : Smp) (s : State) :
    hide μ (auxPush a n x s) = hide μ s := by
  unfold auxPush
  (try dsimp -proj only)
  first
  | (simp [↓hide_with, ↓hide_with_pin, hide_foldl]; done)
  | ((repeat' split) <;> simp [↓hide_with, ↓hide_with_pin, hide_foldl])

@[simp ↓] theorem hide_calFine {μ : Mask} [Hidden μ.cal] (m : Nat) (t : Int) (x : Smp) (s : State) :
    hide μ (calFine m t x s) = hide μ s := by
  unfold calFine
  (try dsimp -proj only)
  first
  | (simp [↓hide_with, ↓hide_with_pin, hide_foldl]; done)
  | ((repeat' split) <;> simp [↓hide_with, ↓hide_with_pin, hide_foldl])

@[simp ↓] theorem hide_checkFine {μ : Mask} [Hidden μ.afe] (b : Nat) (t : Int) (x : Smp) (s : State) :
    hide μ (checkFine b t x s) = hide μ s := by
  unfold checkFine
  (try dsimp -proj only)
  first
  | (simp [↓hide_with, ↓hide_with_pin, hide_foldl]; done)
  | ((repeat' split) <;> simp [↓hide_with, ↓hide_with_pin, hide_foldl])

@[simp ↓] theorem hide_chanSinks {μ : Mask} [Hidden μ.hif] [Hidden μ.pq] (src m : Nat) (n : Int) (x : Smp) (s : State) :
    hide μ (chanSinks src m n x s) = hide μ s := by
  unfold chanSinks
  (try dsimp -proj only)
  first
  | (simp [↓hide_with, ↓hide_with_pin, hide_foldl]; done)
  | ((repeat' split) <;> simp [↓hide_with, ↓hide_with_pin, hide_foldl])

@[simp ↓] theorem hide_coarseOvr {μ : Mask} [Hidden μ.afe] [Hidden μ.pq] (m : Nat) (n : Int) (s : State) :
    hide μ (coarseOvr m n s) = hide μ s := by
  unfold coarseOvr
  (try dsimp -proj only)
  first
  | (simp [↓hide_with, ↓hide_with_pin, hide_foldl]; done)
  | ((repeat' split) <;> simp [↓hide_with, ↓hide_with_pin, hide_foldl])

@[simp ↓] theorem hide_coarseOut {μ : Mask} [Hidden μ.out] [Hidden μ.bootSt] [Hidden μ.cpx] [Hidden μ.flt] [Hidden μ.hif] [Hidden μ.coil] [Hidden μ.nvs] [Hidden μ.afe] [Hidden μ.pq] (m : Nat) (n : Int) (c : Smp) (s : State) :
    hide μ (coarseOut m n c s) = hide μ s := by
  unfold coarseOut
  (try dsimp -proj only)
  first
  | (simp [↓hide_with, ↓hide_with_pin, hide_foldl]; done)
  | ((repeat' split) <;> simp [↓hide_with, ↓hide_with_pin, hide_foldl])

@[simp ↓] theorem hide_tapOut {μ : Mask} [Hidden μ.hif] [Hidden μ.dec] [Hidden μ.pq] (o : Option (Nat × Int × Smp)) (s : State) :
    hide μ (tapOut o s) = hide μ s := by
  unfold tapOut
  (try dsimp -proj only)
  first
  | (simp [↓hide_with, ↓hide_with_pin, hide_foldl]; done)
  | ((repeat' split) <;> simp [↓hide_with, ↓hide_with_pin, hide_foldl])

@[simp ↓] theorem hide_fineOut {μ : Mask} [Hidden μ.hif] [Hidden μ.afe] [Hidden μ.pq] [Hidden μ.cal] (m : Nat) (n t : Int) (x : Smp) (s : State) :
    hide μ (fineOut m n t x s) = hide μ s := by
  unfold fineOut
  (try dsimp -proj only)
  first
  | (simp [↓hide_with, ↓hide_with_pin, hide_foldl]; done)
  | ((repeat' split) <;> simp [↓hide_with, ↓hide_with_pin, hide_foldl])

@[simp ↓] theorem hide_execCoarseSample {μ : Mask} [Hidden μ.out] [Hidden μ.bootSt] [Hidden μ.cpx] [Hidden μ.flt] [Hidden μ.hif] [Hidden μ.coil] [Hidden μ.nvs] [Hidden μ.afe] [Hidden μ.dec] [Hidden μ.pq] [Hidden μ.cal] (m : Nat) (bits : Byte) (s : State) :
    kept μ (hide μ s) (execCoarseSample m bits s) := by
  unfold execCoarseSample
  (try dsimp -proj only)
  first
  | (simp [↓hide_with, ↓hide_with_pin, hide_foldl]; done)
  | ((repeat' split) <;> simp [↓hide_with, ↓hide_with_pin, hide_foldl])

@[simp ↓] theorem hide_setWs {μ : Mask} [Hidden μ.pnt] (m : Nat) (x : WStream) (s : State) :
    hide μ (setWs m x s) = hide μ s := by
  unfold setWs
  (try dsimp -proj only)
  first
  | (simp [↓hide_with, ↓hide_with_pin, hide_foldl]; done)
  | ((repeat' split) <;> simp [↓hide_with, ↓hide_with_pin, hide_foldl])

@[simp ↓] theorem hide_execAlignedSampleWrite {μ : Mask} [Hidden μ.pnt] (s : State) :
    kept μ (hide μ s) (execAlignedSampleWrite s) := by
  unfold execAlignedSampleWrite
  (try dsimp -proj only)
  first
  | (simp [↓hide_with, ↓hide_with_pin, hide_foldl]; done)
  | ((repeat' split) <;> simp [↓hide_with, ↓hide_with_pin, hide_foldl])

@[simp ↓] theorem hide_modeFrom {μ : Mask} [Hidden μ.pnt] (m : Nat) (turn : BitVec 40) (md : Nat) (s : State) :
    hide μ (modeFrom m turn md s) = hide μ s := by
  unfold modeFrom
  (try dsimp -proj only)
  first
  | (simp [↓hide_with, ↓hide_with_pin, hide_foldl]; done)
  | ((repeat' split) <;> simp [↓hide_with, ↓hide_with_pin, hide_foldl])

@[simp ↓] theorem hide_holdNow {μ : Mask} [Hidden μ.pnt] (m : Nat) (s : State) :
    hide μ (holdNow m s) = hide μ s := by
  unfold holdNow
  (try dsimp -proj only)
  first
  | (simp [↓hide_with, ↓hide_with_pin, hide_foldl]; done)
  | ((repeat' split) <;> simp [↓hide_with, ↓hide_with_pin, hide_foldl])

@[simp ↓] theorem hide_setCf {μ : Mask} [Hidden μ.pnt] (n : Nat) (x : Cf) (s : State) :
    hide μ (setCf n x s) = hide μ s := by
  unfold setCf
  (try dsimp -proj only)
  first
  | (simp [↓hide_with, ↓hide_with_pin, hide_foldl]; done)
  | ((repeat' split) <;> simp [↓hide_with, ↓hide_with_pin, hide_foldl])

@[simp ↓] theorem hide_cfDrain {μ : Mask} [Hidden μ.out] [Hidden μ.bootSt] [Hidden μ.cpx] [Hidden μ.flt] [Hidden μ.hif] [Hidden μ.coil] [Hidden μ.nvs] [Hidden μ.pnt] (n q fuel : Nat) (s : State) : hide μ (cfDrain n q fuel s) = hide μ s := by
  induction fuel generalizing s with
  | zero => rfl
  | succ k ih => rw [cfDrain]; dsimp -proj only; split <;> simp [ih]

@[simp ↓] theorem hide_cfFeed {μ : Mask} [Hidden μ.out] [Hidden μ.bootSt] [Hidden μ.cpx] [Hidden μ.flt] [Hidden μ.hif] [Hidden μ.coil] [Hidden μ.nvs] [Hidden μ.pnt] (k : Nat) (s : State) : hide μ (cfFeed k s) = hide μ s := by
  unfold cfFeed
  split
  · rfl
  · refine hide_foldl (fun t n => ?_) _ _
    (try dsimp -proj only)
    split <;> simp

@[simp ↓] theorem hide_winTurn {μ : Mask} [Hidden μ.pq] (t : RsTurn) (s0 : State) :
    hide μ (winTurn t s0) = hide μ s0 := by
  unfold winTurn
  (try dsimp -proj only)
  first
  | (simp [↓hide_with, ↓hide_with_pin, hide_foldl]; done)
  | ((repeat' split) <;> simp [↓hide_with, ↓hide_with_pin, hide_foldl])

@[simp ↓] theorem hide_writeStreams {μ : Mask} [Hidden μ.pnt] (t : RsTurn) (k d : Nat) (rom : Nat) (s : State) :
    hide μ (writeStreams t k d rom s) = hide μ s := by
  unfold writeStreams
  (try dsimp -proj only)
  first
  | (simp [↓hide_with, ↓hide_with_pin, hide_foldl]; done)
  | ((repeat' split) <;> simp [↓hide_with, ↓hide_with_pin, hide_foldl])

@[simp ↓] theorem hide_sinkStreams {μ : Mask} [Hidden μ.hif] [Hidden μ.pq] (t : RsTurn) (k : Nat) (s : State) :
    hide μ (sinkStreams t k s) = hide μ s := by
  unfold sinkStreams
  (try dsimp -proj only)
  first
  | (simp [↓hide_with, ↓hide_with_pin, hide_foldl]; done)
  | ((repeat' split) <;> simp [↓hide_with, ↓hide_with_pin, hide_foldl])

@[simp ↓] theorem hide_nextSample {μ : Mask} [Hidden μ.pnt] [Hidden μ.pq] (t : RsTurn) (rest : List RsTurn) (k : Nat) (s0 : State) :
    hide μ (nextSample t rest k s0) = hide μ s0 := by
  unfold nextSample
  (try dsimp -proj only)
  first
  | (simp [↓hide_with, ↓hide_with_pin, hide_foldl]; done)
  | ((repeat' split) <;> simp [↓hide_with, ↓hide_with_pin, hide_foldl])

@[simp ↓] theorem hide_execWheelSampleWrite {μ : Mask} [Hidden μ.out] [Hidden μ.bootSt] [Hidden μ.cpx] [Hidden μ.flt] [Hidden μ.hif] [Hidden μ.coil] [Hidden μ.nvs] [Hidden μ.pnt] [Hidden μ.pq] (s : State) :
    kept μ (hide μ s) (execWheelSampleWrite s) := by
  unfold execWheelSampleWrite
  (try dsimp -proj only)
  first
  | (simp [↓hide_with, ↓hide_with_pin, hide_foldl]; done)
  | ((repeat' split) <;> simp [↓hide_with, ↓hide_with_pin, hide_foldl])

@[simp ↓] theorem hide_rephase {μ : Mask} [Hidden μ.whl] [Hidden μ.dec] [Hidden μ.pnt] [Hidden μ.pq] (s : State) : hide μ (rephase s) = hide μ s := by
  unfold rephase
  (try dsimp -proj only)
  simp [↓hide_with]

@[simp ↓] theorem hide_execSyncExecute {μ : Mask} [Hidden μ.whl] [Hidden μ.nvs] [Hidden μ.pin] [Hidden μ.dec] [Hidden μ.pnt] [Hidden μ.pq] (s : State) :
    kept μ (hide μ s) (execSyncExecute s) := by
  unfold execSyncExecute
  (try dsimp -proj only)
  first
  | (simp [↓hide_with, ↓hide_with_pin, hide_foldl]; done)
  | ((repeat' split) <;> simp [↓hide_with, ↓hide_with_pin, hide_foldl])

end Sys2Proof.Laws
end

