-- ==== Sys2Proof/Laws/FootPoints.lean ====
section
/-!
SUPPORT. What the operations of Machine/Points.lean leave unchanged.
-/
set_option linter.unusedSimpArgs false
set_option linter.unusedTactic false
set_option linter.unreachableTactic false
namespace Sys2Proof.Laws
open Sys2Proof.Machine

@[simp ↓] theorem hide_setPt {μ : Mask} [Hidden μ.pnt] (p : Nat) (x : Pt) (s : State) :
    hide μ (setPt p x s) = hide μ s := by
  unfold setPt
  (try dsimp -proj only)
  first
  | (simp [↓hide_with, ↓hide_with_pin, hide_foldl]; done)
  | ((repeat' split) <;> simp [↓hide_with, ↓hide_with_pin, hide_foldl])

@[simp ↓] theorem hide_accountPt {μ : Mask} [Hidden μ.pnt] (tn : RsTurn) (s : State) (p : Nat) :
    hide μ (accountPt tn s p) = hide μ s := by
  unfold accountPt
  (try dsimp -proj only)
  first
  | (simp [↓hide_with, ↓hide_with_pin, hide_foldl]; done)
  | ((repeat' split) <;> simp [↓hide_with, ↓hide_with_pin, hide_foldl])

@[simp ↓] theorem hide_accountPartial {μ : Mask} [Hidden μ.pnt] (tn : RsTurn) (kf : Nat) (s : State) (p : Nat) :
    hide μ (accountPartial tn kf s p) = hide μ s := by
  unfold accountPartial
  (try dsimp -proj only)
  first
  | (simp [↓hide_with, ↓hide_with_pin, hide_foldl]; done)
  | ((repeat' split) <;> simp [↓hide_with, ↓hide_with_pin, hide_foldl])

@[simp ↓] theorem hide_swapDefs {μ : Mask} [Hidden μ.pnt] (turn : BitVec 40) (s : State) :
    hide μ (swapDefs turn s) = hide μ s := by
  unfold swapDefs
  (try dsimp -proj only)
  first
  | (simp [↓hide_with, ↓hide_with_pin, hide_foldl]; done)
  | ((repeat' split) <;> simp [↓hide_with, ↓hide_with_pin, hide_foldl])

@[simp ↓] theorem hide_clearPrev {μ : Mask} [Hidden μ.pnt] (f : Pt → Bool) (s : State) :
    hide μ (clearPrev f s) = hide μ s := by
  unfold clearPrev
  (try dsimp -proj only)
  first
  | (simp [↓hide_with, ↓hide_with_pin, hide_foldl]; done)
  | ((repeat' split) <;> simp [↓hide_with, ↓hide_with_pin, hide_foldl])

@[simp ↓] theorem hide_deliver2 {μ : Mask} [Hidden μ.out] [Hidden μ.bootSt] [Hidden μ.cpx] [Hidden μ.flt] [Hidden μ.hif] [Hidden μ.coil] [Hidden μ.nvs] [Hidden μ.pnt] (r : Rec) (s : State) :
    hide μ (deliver2 r s) = hide μ s := by
  unfold deliver2
  (try dsimp -proj only)
  first
  | (simp [↓hide_with, ↓hide_with_pin, hide_foldl]; done)
  | ((repeat' split) <;> simp [↓hide_with, ↓hide_with_pin, hide_foldl])

@[simp ↓] theorem hide_out2 {μ : Mask} [Hidden μ.out] [Hidden μ.bootSt] [Hidden μ.cpx] [Hidden μ.flt] [Hidden μ.hif] [Hidden μ.coil] [Hidden μ.nvs] [Hidden μ.pnt] (extra : Nat) (r : Rec) (s : State) :
    hide μ (out2 extra r s) = hide μ s := by
  unfold out2
  (try dsimp -proj only)
  first
  | (simp [↓hide_with, ↓hide_with_pin, hide_foldl]; done)
  | ((repeat' split) <;> simp [↓hide_with, ↓hide_with_pin, hide_foldl])

@[simp ↓] theorem hide_closePt {μ : Mask} [Hidden μ.out] [Hidden μ.bootSt] [Hidden μ.cpx] [Hidden μ.flt] [Hidden μ.hif] [Hidden μ.coil] [Hidden μ.nvs] [Hidden μ.pnt] (st : Stamp) (extra : Nat) (s : State) (p : Nat) :
    hide μ (closePt st extra s p) = hide μ s := by
  unfold closePt
  (try dsimp -proj only)
  first
  | (simp [↓hide_with, ↓hide_with_pin, hide_foldl]; done)
  | ((repeat' split) <;> simp [↓hide_with, ↓hide_with_pin, hide_foldl])

@[simp ↓] theorem hide_compareAcc {μ : Mask} [Hidden μ.out] [Hidden μ.bootSt] [Hidden μ.cpx] [Hidden μ.flt] [Hidden μ.hif] [Hidden μ.coil] [Hidden μ.nvs] [Hidden μ.pnt] (s : State) :
    hide μ (compareAcc s) = hide μ s := by
  unfold compareAcc
  (try dsimp -proj only)
  first
  | (simp [↓hide_with, ↓hide_with_pin, hide_foldl]; done)
  | ((repeat' split) <;> simp [↓hide_with, ↓hide_with_pin, hide_foldl])

@[simp ↓] theorem hide_closeSecond {μ : Mask} [Hidden μ.out] [Hidden μ.bootSt] [Hidden μ.cpx] [Hidden μ.flt] [Hidden μ.hif] [Hidden μ.coil] [Hidden μ.nvs] [Hidden μ.pnt] (st : Stamp) (extra : Nat) (s : State) :
    hide μ (closeSecond st extra s) = hide μ s := by
  unfold closeSecond
  (try dsimp -proj only)
  first
  | (simp [↓hide_with, ↓hide_with_pin, hide_foldl]; done)
  | ((repeat' split) <;> simp [↓hide_with, ↓hide_with_pin, hide_foldl])

@[simp ↓] theorem hide_execChanCal {μ : Mask} [Hidden μ.out] [Hidden μ.bootSt] [Hidden μ.cpx] [Hidden μ.flt] [Hidden μ.hif] [Hidden μ.coil] [Hidden μ.nvs] [Hidden μ.afe] [Hidden μ.dec] [Hidden μ.pnt] (r : Req) (s : State) :
    kept μ (hide μ s) (execChanCal r s) := by
  unfold execChanCal
  (try dsimp -proj only)
  refine hide_ring0 _ _ _ _ _ ?_
  (try dsimp -proj only)
  first
  | (simp [↓hide_with, ↓hide_with_pin, hide_foldl]; done)
  | ((repeat' split) <;> simp [↓hide_with, ↓hide_with_pin, hide_foldl])

@[simp ↓] theorem hide_execPointDef {μ : Mask} [Hidden μ.out] [Hidden μ.bootSt] [Hidden μ.cpx] [Hidden μ.flt] [Hidden μ.hif] [Hidden μ.coil] [Hidden μ.nvs] [Hidden μ.pnt] (r : Req) (s : State) :
    kept μ (hide μ s) (execPointDef r s) := by
  unfold execPointDef
  (try dsimp -proj only)
  refine hide_ring0 _ _ _ _ _ ?_
  (try dsimp -proj only)
  first
  | (simp [↓hide_with, ↓hide_with_pin, hide_foldl]; done)
  | ((repeat' split) <;> simp [↓hide_with, ↓hide_with_pin, hide_foldl])

@[simp ↓] theorem hide_noteNewDef {μ : Mask} [Hidden μ.trf] (p : Nat) (s : State) :
    hide μ (noteNewDef p s) = hide μ s := by
  unfold noteNewDef
  (try dsimp -proj only)
  first
  | (simp [↓hide_with, ↓hide_with_pin, hide_foldl]; done)
  | ((repeat' split) <;> simp [↓hide_with, ↓hide_with_pin, hide_foldl])

@[simp ↓] theorem hide_execPointDefEffect {μ : Mask} [Hidden μ.nvs] [Hidden μ.pnt] [Hidden μ.trf] (p : Nat) (s : State) :
    kept μ (hide μ s) (execPointDefEffect p s) := by
  unfold execPointDefEffect
  (try dsimp -proj only)
  first
  | (simp [↓hide_with, ↓hide_with_pin, hide_foldl]; done)
  | ((repeat' split) <;> simp [↓hide_with, ↓hide_with_pin, hide_foldl])

@[simp ↓] theorem hide_execF3Store {μ : Mask} [Hidden μ.out] [Hidden μ.bootSt] [Hidden μ.cpx] [Hidden μ.flt] [Hidden μ.hif] [Hidden μ.coil] [Hidden μ.nvs] (r : Req) (s : State) :
    kept μ (hide μ s) (execF3Store r s) := by
  unfold execF3Store
  (try dsimp -proj only)
  refine hide_ring0 _ _ _ _ _ ?_
  (try dsimp -proj only)
  first
  | (simp [↓hide_with, ↓hide_with_pin, hide_foldl]; done)
  | ((repeat' split) <;> simp [↓hide_with, ↓hide_with_pin, hide_foldl])

@[simp ↓] theorem hide_setCtl {μ : Mask} [Hidden μ.crd] (n : Nat) (x : Ctl) (s : State) :
    hide μ (setCtl n x s) = hide μ s := by
  unfold setCtl
  (try dsimp -proj only)
  first
  | (simp [↓hide_with, ↓hide_with_pin, hide_foldl]; done)
  | ((repeat' split) <;> simp [↓hide_with, ↓hide_with_pin, hide_foldl])

@[simp ↓] theorem hide_freeBall {μ : Mask} [Hidden μ.pin] (n : Nat) (f : BitVec 4) (owner : Nat) (s : State) :
    hide μ (freeBall n f owner s) = hide μ s := by
  unfold freeBall
  (try dsimp -proj only)
  first
  | (simp [↓hide_with, ↓hide_with_pin, hide_foldl]; done)
  | ((repeat' split) <;> simp [↓hide_with, ↓hide_with_pin, hide_foldl])

@[simp ↓] theorem hide_cfAccept {μ : Mask} [Hidden μ.pin] [Hidden μ.pnt] (n : Nat) (w k : W32) (s : State) :
    hide μ (cfAccept n w k s) = hide μ s := by
  unfold cfAccept
  (try dsimp -proj only)
  first
  | (simp [↓hide_with, ↓hide_with_pin, hide_foldl]; done)
  | ((repeat' split) <;> simp [↓hide_with, ↓hide_with_pin, hide_foldl])

@[simp ↓] theorem hide_cfWritten {μ : Mask} [Hidden μ.pin] (n : Nat) (s : State) :
    hide μ (cfWritten n s) = hide μ s := by
  unfold cfWritten
  (try dsimp -proj only)
  first
  | (simp [↓hide_with, ↓hide_with_pin, hide_foldl]; done)
  | ((repeat' split) <;> simp [↓hide_with, ↓hide_with_pin, hide_foldl])

@[simp ↓] theorem hide_execCfCfg {μ : Mask} [Hidden μ.out] [Hidden μ.bootSt] [Hidden μ.cpx] [Hidden μ.flt] [Hidden μ.hif] [Hidden μ.coil] [Hidden μ.nvs] [Hidden μ.pin] [Hidden μ.pnt] (r : Req) (s : State) :
    kept μ (hide μ s) (execCfCfg r s) := by
  unfold execCfCfg
  (try dsimp -proj only)
  refine hide_ring0 _ _ _ _ _ ?_
  (try dsimp -proj only)
  first
  | (simp [↓hide_with, ↓hide_with_pin, hide_foldl]; done)
  | ((repeat' split) <;> simp [↓hide_with, ↓hide_with_pin, hide_foldl])

@[simp ↓] theorem hide_execCfCfgEffect {μ : Mask} [Hidden μ.pin] [Hidden μ.pnt] (n : Nat) (s : State) :
    kept μ (hide μ s) (execCfCfgEffect n s) := by
  unfold execCfCfgEffect
  (try dsimp -proj only)
  first
  | (simp [↓hide_with, ↓hide_with_pin, hide_foldl]; done)
  | ((repeat' split) <;> simp [↓hide_with, ↓hide_with_pin, hide_foldl])

@[simp ↓] theorem hide_cfStop {μ : Mask} [Hidden μ.pnt] (s : State) :
    hide μ (cfStop s) = hide μ s := by
  unfold cfStop
  (try dsimp -proj only)
  first
  | (simp [↓hide_with, ↓hide_with_pin, hide_foldl]; done)
  | ((repeat' split) <;> simp [↓hide_with, ↓hide_with_pin, hide_foldl])

@[simp ↓] theorem hide_cfTurn {μ : Mask} [Hidden μ.pnt] (s : State) :
    hide μ (cfTurn s) = hide μ s := by
  unfold cfTurn
  (try dsimp -proj only)
  first
  | (simp [↓hide_with, ↓hide_with_pin, hide_foldl]; done)
  | ((repeat' split) <;> simp [↓hide_with, ↓hide_with_pin, hide_foldl])

@[simp ↓] theorem hide_execCfPulseStart {μ : Mask} [Hidden μ.pin] [Hidden μ.pnt] (n : Nat) (s : State) :
    kept μ (hide μ s) (execCfPulseStart n s) := by
  unfold execCfPulseStart
  (try dsimp -proj only)
  first
  | (simp [↓hide_with, ↓hide_with_pin, hide_foldl]; done)
  | ((repeat' split) <;> simp [↓hide_with, ↓hide_with_pin, hide_foldl])

@[simp ↓] theorem hide_execCfPulseEnd {μ : Mask} [Hidden μ.pin] [Hidden μ.pnt] (n : Nat) (s : State) :
    kept μ (hide μ s) (execCfPulseEnd n s) := by
  unfold execCfPulseEnd
  (try dsimp -proj only)
  first
  | (simp [↓hide_with, ↓hide_with_pin, hide_foldl]; done)
  | ((repeat' split) <;> simp [↓hide_with, ↓hide_with_pin, hide_foldl])

@[simp ↓] theorem hide_execKappaCheck {μ : Mask} [Hidden μ.out] [Hidden μ.bootSt] [Hidden μ.cpx] [Hidden μ.flt] [Hidden μ.hif] [Hidden μ.coil] [Hidden μ.nvs] (bad : Bool) (s : State) :
    kept μ (hide μ s) (execKappaCheck bad s) := by
  unfold execKappaCheck
  (try dsimp -proj only)
  first
  | (simp [↓hide_with, ↓hide_with_pin, hide_foldl]; done)
  | ((repeat' split) <;> simp [↓hide_with, ↓hide_with_pin, hide_foldl])

@[simp ↓] theorem hide_setMux {μ : Mask} [Hidden μ.afe] (a : Nat) (x : AuxMux) (s : State) :
    hide μ (setMux a x s) = hide μ s := by
  unfold setMux
  (try dsimp -proj only)
  first
  | (simp [↓hide_with, ↓hide_with_pin, hide_foldl]; done)
  | ((repeat' split) <;> simp [↓hide_with, ↓hide_with_pin, hide_foldl])

@[simp ↓] theorem hide_muxSwitch {μ : Mask} [Hidden μ.afe] (a i : Nat) (s : State) :
    hide μ (muxSwitch a i s) = hide μ s := by
  unfold muxSwitch
  (try dsimp -proj only)
  first
  | (simp [↓hide_with, ↓hide_with_pin, hide_foldl]; done)
  | ((repeat' split) <;> simp [↓hide_with, ↓hide_with_pin, hide_foldl])

@[simp ↓] theorem hide_auxReading {μ : Mask} [Hidden μ.out] [Hidden μ.bootSt] [Hidden μ.cpx] [Hidden μ.flt] [Hidden μ.hif] [Hidden μ.coil] [Hidden μ.nvs] [Hidden μ.pnt] (a : Nat) (s : State) :
    hide μ (auxReading a s) = hide μ s := by
  unfold auxReading
  (try dsimp -proj only)
  first
  | (simp [↓hide_with, ↓hide_with_pin, hide_foldl]; done)
  | ((repeat' split) <;> simp [↓hide_with, ↓hide_with_pin, hide_foldl])

@[simp ↓] theorem hide_execAuxDwellEnd {μ : Mask} [Hidden μ.out] [Hidden μ.bootSt] [Hidden μ.cpx] [Hidden μ.flt] [Hidden μ.hif] [Hidden μ.coil] [Hidden μ.nvs] [Hidden μ.afe] [Hidden μ.pnt] (a : Nat) (s : State) :
    kept μ (hide μ s) (execAuxDwellEnd a s) := by
  unfold execAuxDwellEnd
  (try dsimp -proj only)
  first
  | (simp [↓hide_with, ↓hide_with_pin, hide_foldl]; done)
  | ((repeat' split) <;> simp [↓hide_with, ↓hide_with_pin, hide_foldl])

@[simp ↓] theorem hide_execAuxSettlingEnd {μ : Mask} [Hidden μ.afe] (a : Nat) (s : State) :
    kept μ (hide μ s) (execAuxSettlingEnd a s) := by
  unfold execAuxSettlingEnd
  (try dsimp -proj only)
  first
  | (simp [↓hide_with, ↓hide_with_pin, hide_foldl]; done)
  | ((repeat' split) <;> simp [↓hide_with, ↓hide_with_pin, hide_foldl])

@[simp ↓] theorem hide_muxConfig {μ : Mask} [Hidden μ.afe] (old : W32) (s : State) (a : Nat) :
    hide μ (muxConfig old s a) = hide μ s := by
  unfold muxConfig
  (try dsimp -proj only)
  first
  | (simp [↓hide_with, ↓hide_with_pin, hide_foldl]; done)
  | ((repeat' split) <;> simp [↓hide_with, ↓hide_with_pin, hide_foldl])

@[simp ↓] theorem hide_execAuxConfigApply {μ : Mask} [Hidden μ.afe] (s : State) :
    kept μ (hide μ s) (execAuxConfigApply s) := by
  unfold execAuxConfigApply
  (try dsimp -proj only)
  first
  | (simp [↓hide_with, ↓hide_with_pin, hide_foldl]; done)
  | ((repeat' split) <;> simp [↓hide_with, ↓hide_with_pin, hide_foldl])

end Sys2Proof.Laws
end

