-- ==== Sys2Proof/Laws/FootQuality.lean ====
section
/-!
SUPPORT. What the operations of Machine/Quality.lean leave unchanged.
-/
set_option linter.unusedSimpArgs false
set_option linter.unusedTactic false
set_option linter.unreachableTactic false
namespace Sys2Proof.Laws
open Sys2Proof.Machine

@[simp ↓] theorem hide_removeResult {μ : Mask} [Hidden μ.hif] [Hidden μ.coil] (q : QRec) (s : State) :
    hide μ (removeResult q s) = hide μ s := by
  unfold removeResult
  (try dsimp -proj only)
  first
  | (simp [↓hide_with, ↓hide_with_pin, hide_foldl]; done)
  | ((repeat' split) <;> simp [↓hide_with, ↓hide_with_pin, hide_foldl])

@[simp ↓] theorem hide_countDrop {μ : Mask} [Hidden μ.out] [Hidden μ.bootSt] [Hidden μ.cpx] [Hidden μ.flt] [Hidden μ.hif] [Hidden μ.coil] [Hidden μ.nvs] [Hidden μ.pq] (interval : Nat) (s : State) :
    hide μ (countDrop interval s) = hide μ s := by
  unfold countDrop
  (try dsimp -proj only)
  first
  | (simp [↓hide_with, ↓hide_with_pin, hide_foldl]; done)
  | ((repeat' split) <;> simp [↓hide_with, ↓hide_with_pin, hide_foldl])

@[simp ↓] theorem hide_makeRoom {μ : Mask} [Hidden μ.out] [Hidden μ.bootSt] [Hidden μ.cpx] [Hidden μ.flt] [Hidden μ.hif] [Hidden μ.coil] [Hidden μ.nvs] [Hidden μ.pq] (n fuel : Nat) (s : State) : hide μ (makeRoom n fuel s) = hide μ s := by
  induction fuel generalizing s with
  | zero => rfl
  | succ k ih =>
    unfold makeRoom
    (try dsimp -proj only)
    repeat' split
    all_goals simp [ih]

@[simp ↓] theorem hide_deliverPq {μ : Mask} [Hidden μ.out] [Hidden μ.bootSt] [Hidden μ.cpx] [Hidden μ.flt] [Hidden μ.hif] [Hidden μ.coil] [Hidden μ.nvs] [Hidden μ.pq] (r : Rec) (s : State) :
    hide μ (deliverPq r s) = hide μ s := by
  unfold deliverPq
  (try dsimp -proj only)
  first
  | (simp [↓hide_with, ↓hide_with_pin, hide_foldl]; done)
  | ((repeat' split) <;> simp [↓hide_with, ↓hide_with_pin, hide_foldl])

@[simp ↓] theorem hide_setRates {μ : Mask} [Hidden μ.pq] (s : State) :
    hide μ (setRates s) = hide μ s := by
  unfold setRates
  (try dsimp -proj only)
  first
  | (simp [↓hide_with, ↓hide_with_pin, hide_foldl]; done)
  | ((repeat' split) <;> simp [↓hide_with, ↓hide_with_pin, hide_foldl])

@[simp ↓] theorem hide_execPqSubscribe {μ : Mask} [Hidden μ.out] [Hidden μ.bootSt] [Hidden μ.cpx] [Hidden μ.flt] [Hidden μ.hif] [Hidden μ.coil] [Hidden μ.nvs] [Hidden μ.pq] (r : Req) (s : State) :
    kept μ (hide μ s) (execPqSubscribe r s) := by
  unfold execPqSubscribe
  (try dsimp -proj only)
  first
  | (simp [↓hide_with, ↓hide_with_pin, hide_foldl]; done)
  | ((repeat' split) <;> simp [↓hide_with, ↓hide_with_pin, hide_foldl])

@[simp ↓] theorem hide_produce {μ : Mask} [Hidden μ.out] [Hidden μ.bootSt] [Hidden μ.cpx] [Hidden μ.flt] [Hidden μ.hif] [Hidden μ.coil] [Hidden μ.nvs] [Hidden μ.pq] (kinds : List Nat) (interval extra : Nat) (at_ : Int) (pick : Nat → Nat → Option Agg) (whole : Nat → Nat) (s : State) :
    hide μ (produce kinds interval extra at_ pick whole s) = hide μ s := by
  unfold produce
  refine hide_foldl (fun t e => ?_) _ _
  refine hide_foldl (fun u j => ?_) _ _
  (try dsimp -proj only)
  repeat' split
  all_goals simp

@[simp ↓] theorem hide_closeSpan {μ : Mask} [Hidden μ.out] [Hidden μ.bootSt] [Hidden μ.cpx] [Hidden μ.flt] [Hidden μ.hif] [Hidden μ.coil] [Hidden μ.nvs] [Hidden μ.pq] (interval extra : Nat) (at_ : Int) (next : Span) (s : State) :
    hide μ (closeSpan interval extra at_ next s) = hide μ s := by
  unfold closeSpan
  (try dsimp -proj only)
  first
  | (simp [↓hide_with, ↓hide_with_pin, hide_foldl]; done)
  | ((repeat' split) <;> simp [↓hide_with, ↓hide_with_pin, hide_foldl])

@[simp ↓] theorem hide_addMembers {μ : Mask} [Hidden μ.pq] (interval : Nat) (ms : List (Nat × Nat × Member)) (s : State) :
    hide μ (addMembers interval ms s) = hide μ s := by
  unfold addMembers
  (try dsimp -proj only)
  first
  | (simp [↓hide_with, ↓hide_with_pin, hide_foldl]; done)
  | ((repeat' split) <;> simp [↓hide_with, ↓hide_with_pin, hide_foldl])

@[simp ↓] theorem hide_joinSpan {μ : Mask} [Hidden μ.out] [Hidden μ.bootSt] [Hidden μ.cpx] [Hidden μ.flt] [Hidden μ.hif] [Hidden μ.coil] [Hidden μ.nvs] [Hidden μ.pq] (interval : Nat) (at_ : Int) (start stop : Nat) (ms : List (Nat × Nat × Member)) (s : State) :
    hide μ (joinSpan interval at_ start stop ms s) = hide μ s := by
  unfold joinSpan
  (try dsimp -proj only)
  first
  | (simp [↓hide_with, ↓hide_with_pin, hide_foldl]; done)
  | ((repeat' split) <;> simp [↓hide_with, ↓hide_with_pin, hide_foldl])

@[simp ↓] theorem hide_execHarmonicWindowAnalyse {μ : Mask} [Hidden μ.free] [Hidden μ.out] [Hidden μ.bootSt] [Hidden μ.cpx] [Hidden μ.flt] [Hidden μ.hif] [Hidden μ.coil] [Hidden μ.nvs] [Hidden μ.pq] (s : State) :
    kept μ (hide μ s) (execHarmonicWindowAnalyse s) := by
  unfold execHarmonicWindowAnalyse
  (try dsimp -proj only)
  first
  | (simp [↓hide_with, ↓hide_with_pin, hide_foldl]; done)
  | ((repeat' split) <;> simp [↓hide_with, ↓hide_with_pin, hide_foldl])

@[simp ↓] theorem hide_closeTap {μ : Mask} [Hidden μ.out] [Hidden μ.bootSt] [Hidden μ.cpx] [Hidden μ.flt] [Hidden μ.hif] [Hidden μ.coil] [Hidden μ.nvs] [Hidden μ.pq] (t interval extra : Nat) (at_ : Int) (next : Span) (s : State) :
    hide μ (closeTap t interval extra at_ next s) = hide μ s := by
  unfold closeTap
  (try dsimp -proj only)
  first
  | (simp [↓hide_with, ↓hide_with_pin, hide_foldl]; done)
  | ((repeat' split) <;> simp [↓hide_with, ↓hide_with_pin, hide_foldl])

@[simp ↓] theorem hide_joinTap {μ : Mask} [Hidden μ.out] [Hidden μ.bootSt] [Hidden μ.cpx] [Hidden μ.flt] [Hidden μ.hif] [Hidden μ.coil] [Hidden μ.nvs] [Hidden μ.pq] (t interval : Nat) (at_ : Int) (stop : Nat) (m : Member) (s : State) :
    hide μ (joinTap t interval at_ stop m s) = hide μ s := by
  unfold joinTap
  (try dsimp -proj only)
  first
  | (simp [↓hide_with, ↓hide_with_pin, hide_foldl]; done)
  | ((repeat' split) <;> simp [↓hide_with, ↓hide_with_pin, hide_foldl])

@[simp ↓] theorem hide_closeShort {μ : Mask} [Hidden μ.out] [Hidden μ.bootSt] [Hidden μ.cpx] [Hidden μ.flt] [Hidden μ.hif] [Hidden μ.coil] [Hidden μ.nvs] [Hidden μ.pq] (t extra : Nat) (at_ : Int) (stop : Nat) (s : State) :
    hide μ (closeShort t extra at_ stop s) = hide μ s := by
  unfold closeShort
  (try dsimp -proj only)
  first
  | (simp [↓hide_with, ↓hide_with_pin, hide_foldl]; done)
  | ((repeat' split) <;> simp [↓hide_with, ↓hide_with_pin, hide_foldl])

@[simp ↓] theorem hide_execSupraWindowAnalyse {μ : Mask} [Hidden μ.out] [Hidden μ.bootSt] [Hidden μ.cpx] [Hidden μ.flt] [Hidden μ.hif] [Hidden μ.coil] [Hidden μ.nvs] [Hidden μ.dec] [Hidden μ.pq] (t : Nat) (s : State) :
    kept μ (hide μ s) (execSupraWindowAnalyse t s) := by
  unfold execSupraWindowAnalyse
  (try dsimp -proj only)
  first
  | (simp [↓hide_with, ↓hide_with_pin, hide_foldl]; done)
  | ((repeat' split) <;> simp [↓hide_with, ↓hide_with_pin, hide_foldl])

@[simp ↓] theorem hide_closeIntervals {μ : Mask} [Hidden μ.out] [Hidden μ.bootSt] [Hidden μ.cpx] [Hidden μ.flt] [Hidden μ.hif] [Hidden μ.coil] [Hidden μ.nvs] [Hidden μ.pq] (extra : Nat) (s : State) :
    hide μ (closeIntervals extra s) = hide μ s := by
  unfold closeIntervals
  (try dsimp -proj only)
  first
  | (simp [↓hide_with, ↓hide_with_pin, hide_foldl]; done)
  | ((repeat' split) <;> simp [↓hide_with, ↓hide_with_pin, hide_foldl])

@[simp ↓] theorem hide_pqCommit {μ : Mask} [Hidden μ.out] [Hidden μ.bootSt] [Hidden μ.cpx] [Hidden μ.flt] [Hidden μ.hif] [Hidden μ.coil] [Hidden μ.nvs] [Hidden μ.pq] (s : State) :
    hide μ (pqCommit s) = hide μ s := by
  unfold pqCommit
  (try dsimp -proj only)
  first
  | (simp [↓hide_with, ↓hide_with_pin, hide_foldl]; done)
  | ((repeat' split) <;> simp [↓hide_with, ↓hide_with_pin, hide_foldl])

@[simp ↓] theorem hide_endEvent {μ : Mask} [Hidden μ.nvs] [Hidden μ.pq] (key : Nat) (stop : Stamp) (extra : Nat) (s : State) :
    hide μ (endEvent key stop extra s) = hide μ s := by
  unfold endEvent
  (try dsimp -proj only)
  first
  | (simp [↓hide_with, ↓hide_with_pin, hide_foldl]; done)
  | ((repeat' split) <;> simp [↓hide_with, ↓hide_with_pin, hide_foldl])

@[simp ↓] theorem hide_endEvents {μ : Mask} [Hidden μ.nvs] [Hidden μ.pq] (stop : Stamp) (extra : Nat) (s : State) :
    hide μ (endEvents stop extra s) = hide μ s := by
  unfold endEvents
  (try dsimp -proj only)
  first
  | (simp [↓hide_with, ↓hide_with_pin, hide_foldl]; done)
  | ((repeat' split) <;> simp [↓hide_with, ↓hide_with_pin, hide_foldl])

@[simp ↓] theorem hide_evKind {μ : Mask} [Hidden μ.nvs] [Hidden μ.pq] (f : Refresh) (v g : Nat) (vals : List (Nat × Nat)) (flags : Nat) (s : State) (kind : Nat) :
    hide μ (evKind f v g vals flags s kind) = hide μ s := by
  unfold evKind
  (try dsimp -proj only)
  first
  | (simp [↓hide_with, ↓hide_with_pin, hide_foldl]; done)
  | ((repeat' split) <;> simp [↓hide_with, ↓hide_with_pin, hide_foldl])

@[simp ↓] theorem hide_showHalf {μ : Mask} [Hidden μ.pq] (hold : Bool) (vals : List (Nat × Nat × BitVec 6)) (s : State) :
    hide μ (showHalf hold vals s) = hide μ s := by
  unfold showHalf
  (try dsimp -proj only)
  first
  | (simp [↓hide_with, ↓hide_with_pin, hide_foldl]; done)
  | ((repeat' split) <;> simp [↓hide_with, ↓hide_with_pin, hide_foldl])

@[simp ↓] theorem hide_evGroup {μ : Mask} [Hidden μ.nvs] [Hidden μ.pq] (f : Refresh) (hold : Bool) (vals : List (Nat × Nat × BitVec 6)) (v : Nat) (g : Nat × List Nat) (s : State) :
    hide μ (evGroup f hold vals v g s) = hide μ s := by
  unfold evGroup
  (try dsimp -proj only)
  first
  | (simp [↓hide_with, ↓hide_with_pin, hide_foldl]; done)
  | ((repeat' split) <;> simp [↓hide_with, ↓hide_with_pin, hide_foldl])

@[simp ↓] theorem hide_evAll {μ : Mask} [Hidden μ.nvs] [Hidden μ.pq] (f : Refresh) (hold : Bool) (vals : List (Nat × Nat × BitVec 6)) (s : State) :
    hide μ (evAll f hold vals s) = hide μ s := by
  unfold evAll
  (try dsimp -proj only)
  first
  | (simp [↓hide_with, ↓hide_with_pin, hide_foldl]; done)
  | ((repeat' split) <;> simp [↓hide_with, ↓hide_with_pin, hide_foldl])

@[simp ↓] theorem hide_withEvCfg {μ : Mask} [Hidden μ.pq] (c : W32 × List W32 × W32 × W32) (f : State → State) (s : State)
    (h : ∀ u, hide μ (f u) = hide μ u) : hide μ (withEvCfg c f s) = hide μ s := by
  unfold withEvCfg
  simp [↓hide_with, h]

@[simp ↓] theorem hide_configEnd {μ : Mask} [Hidden μ.nvs] [Hidden μ.pq] (f : Refresh) (hold : Bool) (vals : List (Nat × Nat × BitVec 6)) (s : State) (key : Nat) :
    hide μ (configEnd f hold vals s key) = hide μ s := by
  unfold configEnd
  (try dsimp -proj only)
  first
  | (simp [↓hide_with, ↓hide_with_pin, hide_foldl]; done)
  | ((repeat' split) <;> simp [↓hide_with, ↓hide_with_pin, hide_foldl])

@[simp ↓] theorem hide_evRefresh {μ : Mask} [Hidden μ.nvs] [Hidden μ.pq] (f : Refresh) (turn : BitVec 40) (hold : Bool) (vals : List (Nat × Nat × BitVec 6)) (s : State) :
    hide μ (evRefresh f turn hold vals s) = hide μ s := by
  unfold evRefresh
  (try dsimp -proj only)
  first
  | (simp [↓hide_with, ↓hide_with_pin, hide_foldl]; done)
  | ((repeat' split) <;> simp [↓hide_with, ↓hide_with_pin, hide_foldl])

@[simp ↓] theorem hide_execHalfCycleRms {μ : Mask} [Hidden μ.nvs] [Hidden μ.pq] (s : State) :
    kept μ (hide μ s) (execHalfCycleRms s) := by
  unfold execHalfCycleRms
  (try dsimp -proj only)
  first
  | (simp [↓hide_with, ↓hide_with_pin, hide_foldl]; done)
  | ((repeat' split) <;> simp [↓hide_with, ↓hide_with_pin, hide_foldl])

@[simp ↓] theorem hide_execPqConfigApply {μ : Mask} [Hidden μ.pq] (s : State) :
    kept μ (hide μ s) (execPqConfigApply s) := by
  unfold execPqConfigApply
  (try dsimp -proj only)
  first
  | (simp [↓hide_with, ↓hide_with_pin, hide_foldl]; done)
  | ((repeat' split) <;> simp [↓hide_with, ↓hide_with_pin, hide_foldl])

@[simp ↓] theorem hide_pqFreeze {μ : Mask} [Hidden μ.out] [Hidden μ.bootSt] [Hidden μ.cpx] [Hidden μ.flt] [Hidden μ.hif] [Hidden μ.coil] [Hidden μ.nvs] [Hidden μ.pq] (st : Stamp) (s : State) :
    hide μ (pqFreeze st s) = hide μ s := by
  unfold pqFreeze
  (try dsimp -proj only)
  first
  | (simp [↓hide_with, ↓hide_with_pin, hide_foldl]; done)
  | ((repeat' split) <;> simp [↓hide_with, ↓hide_with_pin, hide_foldl])

end Sys2Proof.Laws
end

