-- ==== Sys2Proof/Laws/FootSelfcal.lean ====
section
/-!
SUPPORT. What the operations of Machine/Selfcal.lean leave unchanged.
-/
set_option linter.unusedSimpArgs false
set_option linter.unusedTactic false
set_option linter.unreachableTactic false
namespace Sys2Proof.Laws
open Sys2Proof.Machine

@[simp ↓] theorem hide_writeCodes {μ : Mask} [Hidden μ.out] [Hidden μ.bootSt] [Hidden μ.cpx] [Hidden μ.flt] [Hidden μ.hif] [Hidden μ.coil] [Hidden μ.nvs] [Hidden μ.cal] (ms : List Nat) (s : State) :
    hide μ (writeCodes ms s) = hide μ s := by
  unfold writeCodes
  (try dsimp -proj only)
  first
  | (simp [↓hide_with, ↓hide_with_pin, hide_foldl]; done)
  | ((repeat' split) <;> simp [↓hide_with, ↓hide_with_pin, hide_foldl])

@[simp ↓] theorem hide_noteTrim {μ : Mask} [Hidden μ.afe] (g : Nat) (s : State) :
    hide μ (noteTrim g s) = hide μ s := by
  unfold noteTrim
  (try dsimp -proj only)
  first
  | (simp [↓hide_with, ↓hide_with_pin, hide_foldl]; done)
  | ((repeat' split) <;> simp [↓hide_with, ↓hide_with_pin, hide_foldl])

@[simp ↓] theorem hide_execTempTrimTick {μ : Mask} [Hidden μ.cal] (meas : W16) (s : State) :
    kept μ (hide μ s) (execTempTrimTick meas s) := by
  unfold execTempTrimTick
  (try dsimp -proj only)
  first
  | (simp [↓hide_with, ↓hide_with_pin, hide_foldl]; done)
  | ((repeat' split) <;> simp [↓hide_with, ↓hide_with_pin, hide_foldl])

@[simp ↓] theorem hide_execTrimWrite {μ : Mask} [Hidden μ.out] [Hidden μ.bootSt] [Hidden μ.cpx] [Hidden μ.flt] [Hidden μ.hif] [Hidden μ.coil] [Hidden μ.nvs] [Hidden μ.afe] [Hidden μ.cal] (g : Nat) (s : State) :
    kept μ (hide μ s) (execTrimWrite g s) := by
  unfold execTrimWrite
  (try dsimp -proj only)
  first
  | (simp [↓hide_with, ↓hide_with_pin, hide_foldl]; done)
  | ((repeat' split) <;> simp [↓hide_with, ↓hide_with_pin, hide_foldl])

@[simp ↓] theorem hide_attemptEnd {μ : Mask} [Hidden μ.out] [Hidden μ.bootSt] [Hidden μ.cpx] [Hidden μ.flt] [Hidden μ.hif] [Hidden μ.coil] [Hidden μ.nvs] [Hidden μ.cal] (g : Nat) (s : State) :
    hide μ (attemptEnd g s) = hide μ s := by
  unfold attemptEnd
  (try dsimp -proj only)
  first
  | (simp [↓hide_with, ↓hide_with_pin, hide_foldl]; done)
  | ((repeat' split) <;> simp [↓hide_with, ↓hide_with_pin, hide_foldl])

@[simp ↓] theorem hide_startGroup {μ : Mask} [Hidden μ.cal] (g : Nat) (s : State) :
    hide μ (startGroup g s) = hide μ s := by
  unfold startGroup
  (try dsimp -proj only)
  first
  | (simp [↓hide_with, ↓hide_with_pin, hide_foldl]; done)
  | ((repeat' split) <;> simp [↓hide_with, ↓hide_with_pin, hide_foldl])

@[simp ↓] theorem hide_execCalRetryStart {μ : Mask} [Hidden μ.cal] (g : Nat) (s : State) :
    kept μ (hide μ s) (execCalRetryStart g s) := by
  unfold execCalRetryStart
  (try dsimp -proj only)
  first
  | (simp [↓hide_with, ↓hide_with_pin, hide_foldl]; done)
  | ((repeat' split) <;> simp [↓hide_with, ↓hide_with_pin, hide_foldl])

@[simp ↓] theorem hide_putDeltas {μ : Mask} [Hidden μ.cal] (ds : List (Nat × Int × Int)) (s : State) :
    hide μ (putDeltas ds s) = hide μ s := by
  unfold putDeltas
  (try dsimp -proj only)
  first
  | (simp [↓hide_with, ↓hide_with_pin, hide_foldl]; done)
  | ((repeat' split) <;> simp [↓hide_with, ↓hide_with_pin, hide_foldl])

@[simp ↓] theorem hide_applyTrims {μ : Mask} [Hidden μ.out] [Hidden μ.bootSt] [Hidden μ.cpx] [Hidden μ.flt] [Hidden μ.hif] [Hidden μ.coil] [Hidden μ.nvs] [Hidden μ.cal] (ms : List Nat) (ds : List (Nat × Int × Int)) (s : State) :
    hide μ (applyTrims ms ds s) = hide μ s := by
  unfold applyTrims
  (try dsimp -proj only)
  first
  | (simp [↓hide_with, ↓hide_with_pin, hide_foldl]; done)
  | ((repeat' split) <;> simp [↓hide_with, ↓hide_with_pin, hide_foldl])

@[simp ↓] theorem hide_calWrite {μ : Mask} [Hidden μ.out] [Hidden μ.bootSt] [Hidden μ.cpx] [Hidden μ.flt] [Hidden μ.hif] [Hidden μ.coil] [Hidden μ.nvs] [Hidden μ.cal] (power : Bool) (ms : List Nat) (s : State) :
    hide μ (calWrite power ms s) = hide μ s := by
  unfold calWrite
  (try dsimp -proj only)
  first
  | (simp [↓hide_with, ↓hide_with_pin, hide_foldl]; done)
  | ((repeat' split) <;> simp [↓hide_with, ↓hide_with_pin, hide_foldl])

@[simp ↓] theorem hide_calEvent {μ : Mask} [Hidden μ.nvs] (kind group attempts : Nat) (aborted : Bool) (rejects : List Nat) (restarted : Bool) (st : Stamp) (s : State) :
    hide μ (calEvent kind group attempts aborted rejects restarted st s) = hide μ s := by
  unfold calEvent
  (try dsimp -proj only)
  first
  | (simp [↓hide_with, ↓hide_with_pin, hide_foldl]; done)
  | ((repeat' split) <;> simp [↓hide_with, ↓hide_with_pin, hide_foldl])

@[simp ↓] theorem hide_loadCalRecord {μ : Mask} [Hidden μ.out] [Hidden μ.bootSt] [Hidden μ.cpx] [Hidden μ.flt] [Hidden μ.hif] [Hidden μ.coil] [Hidden μ.nvs] [Hidden μ.cal] (s : State) :
    hide μ (loadCalRecord s) = hide μ s := by
  unfold loadCalRecord
  (try dsimp -proj only)
  first
  | (simp [↓hide_with, ↓hide_with_pin, hide_foldl]; done)
  | ((repeat' split) <;> simp [↓hide_with, ↓hide_with_pin, hide_foldl])

@[simp ↓] theorem hide_readFactory {μ : Mask} [Hidden μ.out] [Hidden μ.bootSt] [Hidden μ.cpx] [Hidden μ.flt] [Hidden μ.hif] [Hidden μ.coil] [Hidden μ.nvs] [Hidden μ.store] (s : State) :
    hide μ (readFactory s) = hide μ s := by
  unfold readFactory
  (try dsimp -proj only)
  first
  | (simp [↓hide_with, ↓hide_with_pin, hide_foldl]; done)
  | ((repeat' split) <;> simp [↓hide_with, ↓hide_with_pin, hide_foldl])

@[simp ↓] theorem hide_execPowerupCalStart {μ : Mask} [Hidden μ.out] [Hidden μ.bootSt] [Hidden μ.cpx] [Hidden μ.flt] [Hidden μ.hif] [Hidden μ.coil] [Hidden μ.nvs] [Hidden μ.store] [Hidden μ.afe] [Hidden μ.dec] [Hidden μ.cal] (theta : W16) (s : State) :
    kept μ (hide μ s) (execPowerupCalStart theta s) := by
  unfold execPowerupCalStart
  (try dsimp -proj only)
  first
  | (simp [↓hide_with, ↓hide_with_pin, hide_foldl]; done)
  | ((repeat' split) <;> simp [↓hide_with, ↓hide_with_pin, hide_foldl])

@[simp ↓] theorem hide_execPowerupCalAttemptEnd {μ : Mask} [Hidden μ.out] [Hidden μ.bootSt] [Hidden μ.cpx] [Hidden μ.flt] [Hidden μ.hif] [Hidden μ.coil] [Hidden μ.nvs] [Hidden μ.cal] (g : Nat) (s : State) :
    kept μ (hide μ s) (execPowerupCalAttemptEnd g s) := by
  unfold execPowerupCalAttemptEnd
  (try dsimp -proj only)
  first
  | (simp [↓hide_with, ↓hide_with_pin, hide_foldl]; done)
  | ((repeat' split) <;> simp [↓hide_with, ↓hide_with_pin, hide_foldl])

@[simp ↓] theorem hide_powerupWrite {μ : Mask} [Hidden μ.out] [Hidden μ.bootSt] [Hidden μ.cpx] [Hidden μ.flt] [Hidden μ.hif] [Hidden μ.coil] [Hidden μ.nvs] [Hidden μ.afe] [Hidden μ.dec] [Hidden μ.cal] (s : State) :
    hide μ (powerupWrite s) = hide μ s := by
  unfold powerupWrite
  (try dsimp -proj only)
  first
  | (simp [↓hide_with, ↓hide_with_pin, hide_foldl]; done)
  | ((repeat' split) <;> simp [↓hide_with, ↓hide_with_pin, hide_foldl])

@[simp ↓] theorem hide_powerupAbort {μ : Mask} [Hidden μ.cal] (s : State) :
    hide μ (powerupAbort s) = hide μ s := by
  unfold powerupAbort
  (try dsimp -proj only)
  first
  | (simp [↓hide_with, ↓hide_with_pin, hide_foldl]; done)
  | ((repeat' split) <;> simp [↓hide_with, ↓hide_with_pin, hide_foldl])

@[simp ↓] theorem hide_execCalBank {μ : Mask} [Hidden μ.out] [Hidden μ.hif] [Hidden μ.coil] [Hidden μ.cal] (r : Req) (s : State) :
    kept μ (hide μ s) (execCalBank r s) := by
  unfold execCalBank
  (try dsimp -proj only)
  refine hide_ring0 _ _ _ _ _ ?_
  (try dsimp -proj only)
  first
  | (simp [↓hide_with, ↓hide_with_pin, hide_foldl]; done)
  | ((repeat' split) <;> simp [↓hide_with, ↓hide_with_pin, hide_foldl])

@[simp ↓] theorem hide_execBankCalHoldStart {μ : Mask} [Hidden μ.whl] [Hidden μ.afe] [Hidden μ.pnt] [Hidden μ.cal] (s : State) :
    kept μ (hide μ s) (execBankCalHoldStart s) := by
  unfold execBankCalHoldStart
  (try dsimp -proj only)
  first
  | (simp [↓hide_with, ↓hide_with_pin, hide_foldl]; done)
  | ((repeat' split) <;> simp [↓hide_with, ↓hide_with_pin, hide_foldl])

@[simp ↓] theorem hide_execBankCalIsolate {μ : Mask} [Hidden μ.afe] [Hidden μ.dec] [Hidden μ.cal] (s : State) :
    kept μ (hide μ s) (execBankCalIsolate s) := by
  unfold execBankCalIsolate
  (try dsimp -proj only)
  first
  | (simp [↓hide_with, ↓hide_with_pin, hide_foldl]; done)
  | ((repeat' split) <;> simp [↓hide_with, ↓hide_with_pin, hide_foldl])

@[simp ↓] theorem hide_execBankCalAttemptEnd {μ : Mask} [Hidden μ.out] [Hidden μ.bootSt] [Hidden μ.cpx] [Hidden μ.flt] [Hidden μ.hif] [Hidden μ.coil] [Hidden μ.nvs] [Hidden μ.cal] (s : State) :
    kept μ (hide μ s) (execBankCalAttemptEnd s) := by
  unfold execBankCalAttemptEnd
  (try dsimp -proj only)
  first
  | (simp [↓hide_with, ↓hide_with_pin, hide_foldl]; done)
  | ((repeat' split) <;> simp [↓hide_with, ↓hide_with_pin, hide_foldl])

@[simp ↓] theorem hide_execBankCalWrite {μ : Mask} [Hidden μ.out] [Hidden μ.bootSt] [Hidden μ.cpx] [Hidden μ.flt] [Hidden μ.hif] [Hidden μ.coil] [Hidden μ.nvs] [Hidden μ.afe] [Hidden μ.dec] [Hidden μ.cal] (s : State) :
    kept μ (hide μ s) (execBankCalWrite s) := by
  unfold execBankCalWrite
  (try dsimp -proj only)
  first
  | (simp [↓hide_with, ↓hide_with_pin, hide_foldl]; done)
  | ((repeat' split) <;> simp [↓hide_with, ↓hide_with_pin, hide_foldl])

@[simp ↓] theorem hide_resumeShadow {μ : Mask} [Hidden μ.afe] (g : Nat) (s : State) :
    hide μ (resumeShadow g s) = hide μ s := by
  unfold resumeShadow
  (try dsimp -proj only)
  first
  | (simp [↓hide_with, ↓hide_with_pin, hide_foldl]; done)
  | ((repeat' split) <;> simp [↓hide_with, ↓hide_with_pin, hide_foldl])

@[simp ↓] theorem hide_execBankCalRelease {μ : Mask} [Hidden μ.out] [Hidden μ.hif] [Hidden μ.coil] [Hidden μ.nvs] [Hidden μ.afe] [Hidden μ.pnt] [Hidden μ.cal] (s : State) :
    kept μ (hide μ s) (execBankCalRelease s) := by
  unfold execBankCalRelease
  (try dsimp -proj only)
  first
  | (simp [↓hide_with, ↓hide_with_pin, hide_foldl]; done)
  | ((repeat' split) <;> simp [↓hide_with, ↓hide_with_pin, hide_foldl])

@[simp ↓] theorem hide_calIdle {μ : Mask} [Hidden μ.cal] (s : State) : hide μ (calIdle s) = hide μ s := by
  unfold calIdle
  simp [↓hide_with]

@[simp ↓] theorem hide_calAbort {μ : Mask} [Hidden μ.out] [Hidden μ.hif] [Hidden μ.coil] [Hidden μ.nvs] [Hidden μ.afe] [Hidden μ.dec] [Hidden μ.pnt] [Hidden μ.cal] (s : State) :
    hide μ (calAbort s) = hide μ s := by
  unfold calAbort
  (try dsimp -proj only)
  first
  | (simp [↓hide_with, ↓hide_with_pin, hide_foldl]; done)
  | ((repeat' split) <;> simp [↓hide_with, ↓hide_with_pin, hide_foldl])

@[simp ↓] theorem hide_execTcompUpdate {μ : Mask} [Hidden μ.free] [Hidden μ.rtc] (s : State) :
    kept μ (hide μ s) (execTcompUpdate s) := by
  unfold execTcompUpdate
  (try dsimp -proj only)
  first
  | (simp [↓hide_with, ↓hide_with_pin, hide_foldl]; done)
  | ((repeat' split) <;> simp [↓hide_with, ↓hide_with_pin, hide_foldl])

end Sys2Proof.Laws
end

