-- ==== Sys2Proof/Laws/FootTariff.lean ====
section
/-!
SUPPORT. What the operations of Machine/Tariff.lean leave unchanged.
-/
set_option linter.unusedSimpArgs false
set_option linter.unusedTactic false
set_option linter.unreachableTactic false
namespace Sys2Proof.Laws
open Sys2Proof.Machine

@[simp ↓] theorem hide_setInt {μ : Mask} [Hidden μ.trf] (p : Nat) (x : IntSt) (s : State) :
    hide μ (setInt p x s) = hide μ s := by
  unfold setInt
  (try dsimp -proj only)
  first
  | (simp [↓hide_with, ↓hide_with_pin, hide_foldl]; done)
  | ((repeat' split) <;> simp [↓hide_with, ↓hide_with_pin, hide_foldl])

@[simp ↓] theorem hide_bndWrite {μ : Mask} [Hidden μ.nvs] (u step p key : Nat) (v : NvVal) (pages : Nat) (s : State) :
    hide μ (bndWrite u step p key v pages s) = hide μ s := by
  unfold bndWrite
  (try dsimp -proj only)
  first
  | (simp [↓hide_with, ↓hide_with_pin, hide_foldl]; done)
  | ((repeat' split) <;> simp [↓hide_with, ↓hide_with_pin, hide_foldl])

@[simp ↓] theorem hide_writeInt {μ : Mask} [Hidden μ.nvs] (u step p : Nat) (s : State) :
    hide μ (writeInt u step p s) = hide μ s := by
  unfold writeInt
  (try dsimp -proj only)
  first
  | (simp [↓hide_with, ↓hide_with_pin, hide_foldl]; done)
  | ((repeat' split) <;> simp [↓hide_with, ↓hide_with_pin, hide_foldl])

@[simp ↓] theorem hide_writeSet {μ : Mask} [Hidden μ.nvs] (u step p : Nat) (s : State) :
    hide μ (writeSet u step p s) = hide μ s := by
  unfold writeSet
  (try dsimp -proj only)
  first
  | (simp [↓hide_with, ↓hide_with_pin, hide_foldl]; done)
  | ((repeat' split) <;> simp [↓hide_with, ↓hide_with_pin, hide_foldl])

@[simp ↓] theorem hide_writeTrf {μ : Mask} [Hidden μ.nvs] (u step : Nat) (s : State) :
    hide μ (writeTrf u step s) = hide μ s := by
  unfold writeTrf
  (try dsimp -proj only)
  first
  | (simp [↓hide_with, ↓hide_with_pin, hide_foldl]; done)
  | ((repeat' split) <;> simp [↓hide_with, ↓hide_with_pin, hide_foldl])

@[simp ↓] theorem hide_closeInt {μ : Mask} [Hidden μ.out] [Hidden μ.bootSt] [Hidden μ.cpx] [Hidden μ.flt] [Hidden μ.hif] [Hidden μ.coil] [Hidden μ.nvs] [Hidden μ.trf] (img : Bool) (u step extra p : Nat) (s : State) :
    hide μ (closeInt img u step extra p s) = hide μ s := by
  unfold closeInt
  (try dsimp -proj only)
  first
  | (simp [↓hide_with, ↓hide_with_pin, hide_foldl]; done)
  | ((repeat' split) <;> simp [↓hide_with, ↓hide_with_pin, hide_foldl])

@[simp ↓] theorem hide_openInt {μ : Mask} [Hidden μ.nvs] [Hidden μ.trf] (u step : Nat) (flags : W16) (p : Nat) (s : State) :
    hide μ (openInt u step flags p s) = hide μ s := by
  unfold openInt
  (try dsimp -proj only)
  first
  | (simp [↓hide_with, ↓hide_with_pin, hide_foldl]; done)
  | ((repeat' split) <;> simp [↓hide_with, ↓hide_with_pin, hide_foldl])

@[simp ↓] theorem hide_clearHist {μ : Mask} [Hidden μ.trf] (p : Nat) (s : State) :
    hide μ (clearHist p s) = hide μ s := by
  unfold clearHist
  (try dsimp -proj only)
  first
  | (simp [↓hide_with, ↓hide_with_pin, hide_foldl]; done)
  | ((repeat' split) <;> simp [↓hide_with, ↓hide_with_pin, hide_foldl])

@[simp ↓] theorem hide_takeSnap {μ : Mask} [Hidden μ.free] [Hidden μ.out] [Hidden μ.bootSt] [Hidden μ.cpx] [Hidden μ.flt] [Hidden μ.hif] [Hidden μ.coil] [Hidden μ.nvs] [Hidden μ.trf] (u idx extra step p : Nat) (s : State) :
    hide μ (takeSnap u idx extra step p s) = hide μ s := by
  unfold takeSnap
  (try dsimp -proj only)
  first
  | (simp [↓hide_with, ↓hide_with_pin, hide_foldl]; done)
  | ((repeat' split) <;> simp [↓hide_with, ↓hide_with_pin, hide_foldl])

@[simp ↓] theorem hide_imageWrite {μ : Mask} [Hidden μ.nvs] (img : Bool) (ents : List (Nat × List Byte)) (w : Option (Waiter × W16)) (bnd : Option (Nat × Nat × Nat)) (s : State) :
    hide μ (imageWrite img ents w bnd s) = hide μ s := by
  unfold imageWrite
  (try dsimp -proj only)
  first
  | (simp [↓hide_with, ↓hide_with_pin, hide_foldl]; done)
  | ((repeat' split) <;> simp [↓hide_with, ↓hide_with_pin, hide_foldl])

@[simp ↓] theorem hide_putEntries {μ : Mask} [Hidden μ.trf] (img : Bool) (ents : List (Nat × List Byte)) (s : State) :
    hide μ (putEntries img ents s) = hide μ s := by
  unfold putEntries
  (try dsimp -proj only)
  first
  | (simp [↓hide_with, ↓hide_with_pin, hide_foldl]; done)
  | ((repeat' split) <;> simp [↓hide_with, ↓hide_with_pin, hide_foldl])

@[simp ↓] theorem hide_editedControl {μ : Mask} [Hidden μ.trf] (s : State) :
    hide μ (editedControl s) = hide μ s := by
  unfold editedControl
  (try dsimp -proj only)
  first
  | (simp [↓hide_with, ↓hide_with_pin, hide_foldl]; done)
  | ((repeat' split) <;> simp [↓hide_with, ↓hide_with_pin, hide_foldl])

@[simp ↓] theorem hide_activate {μ : Mask} [Hidden μ.nvs] [Hidden μ.trf] (u : Nat) (s : State) :
    hide μ (activate u s) = hide μ s := by
  unfold activate
  (try dsimp -proj only)
  first
  | (simp [↓hide_with, ↓hide_with_pin, hide_foldl]; done)
  | ((repeat' split) <;> simp [↓hide_with, ↓hide_with_pin, hide_foldl])

@[simp ↓] theorem hide_eachPt {μ : Mask} (f : Nat → State → State) (h : ∀ p t, hide μ (f p t) = hide μ t) (s : State) :
    hide μ (eachPt f s) = hide μ s := hide_foldl (fun t p => h p t) _ _

@[simp ↓] theorem hide_bndBegin {μ : Mask} [Hidden μ.nvs] [Hidden μ.trf] (b : Bnd) (s : State) :
    hide μ (bndBegin b s) = hide μ s := by
  unfold bndBegin
  (try dsimp -proj only)
  first
  | (simp [↓hide_with, ↓hide_with_pin, hide_foldl]; done)
  | ((repeat' split) <;> simp [↓hide_with, ↓hide_with_pin, hide_foldl])

@[simp ↓] theorem hide_bndClose {μ : Mask} [Hidden μ.out] [Hidden μ.bootSt] [Hidden μ.cpx] [Hidden μ.flt] [Hidden μ.hif] [Hidden μ.coil] [Hidden μ.nvs] [Hidden μ.trf] (b : Bnd) (img : Bool) (nt : List Nat) (s : State) :
    hide μ (bndClose b img nt s) = hide μ s := by
  refine hide_eachPt _ (fun p t => ?_) s
  simp

@[simp ↓] theorem hide_bndSnaps {μ : Mask} [Hidden μ.free] [Hidden μ.out] [Hidden μ.bootSt] [Hidden μ.cpx] [Hidden μ.flt] [Hidden μ.hif] [Hidden μ.coil] [Hidden μ.nvs] [Hidden μ.trf] (b : Bnd) (s : State) : hide μ (bndSnaps b s) = hide μ s := by
  have key : ∀ (f : Nat → State → State) (_ : ∀ p t, hide μ (f p t) = hide μ t) (t : State), hide μ (eachPt f t) = hide μ t :=
    fun f h t => hide_eachPt f h t
  unfold bndSnaps
  split
  · rfl
  · (try dsimp -proj only)
    simp [↓hide_with, key]

@[simp ↓] theorem hide_bndSwitch {μ : Mask} [Hidden μ.nvs] [Hidden μ.trf] (b : Bnd) (nt : List Nat) (s : State) : hide μ (bndSwitch b nt s) = hide μ s := by
  have key : ∀ (f : Nat → State → State) (_ : ∀ p t, hide μ (f p t) = hide μ t) (t : State), hide μ (eachPt f t) = hide μ t :=
    fun f h t => hide_eachPt f h t
  unfold bndSwitch
  (try dsimp -proj only)
  simp [↓hide_with, key, hide_foldl]

@[simp ↓] theorem hide_boundary {μ : Mask} [Hidden μ.free] [Hidden μ.out] [Hidden μ.bootSt] [Hidden μ.cpx] [Hidden μ.flt] [Hidden μ.hif] [Hidden μ.coil] [Hidden μ.nvs] [Hidden μ.trf] (b : Bnd) (s : State) : hide μ (boundary b s) = hide μ s := by
  unfold boundary
  (try dsimp -proj only)
  split
  · rw [hide_foldl (fun t p => by simp)]; simp
  · simp

@[simp ↓] theorem hide_serviceBoundary {μ : Mask} [Hidden μ.free] [Hidden μ.out] [Hidden μ.bootSt] [Hidden μ.cpx] [Hidden μ.flt] [Hidden μ.hif] [Hidden μ.coil] [Hidden μ.nvs] [Hidden μ.trf] (u : Nat) (s : State) :
    hide μ (serviceBoundary u s) = hide μ s := by
  unfold serviceBoundary
  (try dsimp -proj only)
  first
  | (simp [↓hide_with, ↓hide_with_pin, hide_foldl]; done)
  | ((repeat' split) <;> simp [↓hide_with, ↓hide_with_pin, hide_foldl])

@[simp ↓] theorem hide_armBoundary {μ : Mask} [Hidden μ.whl] (u : Nat) (s : State) :
    hide μ (armBoundary u s) = hide μ s := by
  unfold armBoundary
  (try dsimp -proj only)
  first
  | (simp [↓hide_with, ↓hide_with_pin, hide_foldl]; done)
  | ((repeat' split) <;> simp [↓hide_with, ↓hide_with_pin, hide_foldl])

@[simp ↓] theorem hide_boundariesTo {μ : Mask} [Hidden μ.free] [Hidden μ.out] [Hidden μ.bootSt] [Hidden μ.cpx] [Hidden μ.whl] [Hidden μ.flt] [Hidden μ.hif] [Hidden μ.coil] [Hidden μ.nvs] [Hidden μ.trf] (e : Nat) (s : State) :
    hide μ (boundariesTo e s) = hide μ s := by
  unfold boundariesTo
  (try dsimp -proj only)
  first
  | (simp [↓hide_with, ↓hide_with_pin, hide_foldl]; done)
  | ((repeat' split) <;> simp [↓hide_with, ↓hide_with_pin, hide_foldl])

@[simp ↓] theorem hide_ctlEditsTo {μ : Mask} [Hidden μ.trf] (e : Nat) (s : State) :
    hide μ (ctlEditsTo e s) = hide μ s := by
  unfold ctlEditsTo
  (try dsimp -proj only)
  first
  | (simp [↓hide_with, ↓hide_with_pin, hide_foldl]; done)
  | ((repeat' split) <;> simp [↓hide_with, ↓hide_with_pin, hide_foldl])

@[simp ↓] theorem hide_openFirst {μ : Mask} [Hidden μ.nvs] [Hidden μ.trf] (st : Stamp) (s : State) :
    hide μ (openFirst st s) = hide μ s := by
  unfold openFirst
  (try dsimp -proj only)
  first
  | (simp [↓hide_with, ↓hide_with_pin, hide_foldl]; done)
  | ((repeat' split) <;> simp [↓hide_with, ↓hide_with_pin, hide_foldl])

@[simp ↓] theorem hide_minuteSets {μ : Mask} [Hidden μ.nvs] [Hidden μ.trf] (u : Nat) (s : State) :
    hide μ (minuteSets u s) = hide μ s := by
  unfold minuteSets
  (try dsimp -proj only)
  first
  | (simp [↓hide_with, ↓hide_with_pin, hide_foldl]; done)
  | ((repeat' split) <;> simp [↓hide_with, ↓hide_with_pin, hide_foldl])

@[simp ↓] theorem hide_addIncs {μ : Mask} [Hidden μ.trf] (p : Nat) (s : State) :
    hide μ (addIncs p s) = hide μ s := by
  unfold addIncs
  (try dsimp -proj only)
  first
  | (simp [↓hide_with, ↓hide_with_pin, hide_foldl]; done)
  | ((repeat' split) <;> simp [↓hide_with, ↓hide_with_pin, hide_foldl])

@[simp ↓] theorem hide_noteTurn {μ : Mask} [Hidden μ.trf] (p : Nat) (s : State) :
    hide μ (noteTurn p s) = hide μ s := by
  unfold noteTurn
  (try dsimp -proj only)
  first
  | (simp [↓hide_with, ↓hide_with_pin, hide_foldl]; done)
  | ((repeat' split) <;> simp [↓hide_with, ↓hide_with_pin, hide_foldl])

@[simp ↓] theorem hide_trfCommit {μ : Mask} [Hidden μ.free] [Hidden μ.out] [Hidden μ.bootSt] [Hidden μ.cpx] [Hidden μ.whl] [Hidden μ.flt] [Hidden μ.hif] [Hidden μ.coil] [Hidden μ.nvs] [Hidden μ.trf] (c n : Nat) (s : State) :
    hide μ (trfCommit c n s) = hide μ s := by
  unfold trfCommit
  (try dsimp -proj only)
  first
  | (simp [↓hide_with, ↓hide_with_pin, hide_foldl]; done)
  | ((repeat' split) <;> simp [↓hide_with, ↓hide_with_pin, hide_foldl])

@[simp ↓] theorem hide_catchInstant {μ : Mask} [Hidden μ.free] [Hidden μ.out] [Hidden μ.bootSt] [Hidden μ.cpx] [Hidden μ.flt] [Hidden μ.hif] [Hidden μ.coil] [Hidden μ.nvs] [Hidden μ.trf] (u : Nat) (act : Bool) (snap : Option Nat) (pts : List Nat) (s : State) :
    hide μ (catchInstant u act snap pts s) = hide μ s := by
  unfold catchInstant
  (try dsimp -proj only)
  first
  | (simp [↓hide_with, ↓hide_with_pin, hide_foldl]; done)
  | ((repeat' split) <;> simp [↓hide_with, ↓hide_with_pin, hide_foldl])

@[simp ↓] theorem hide_outageHist {μ : Mask} [Hidden μ.trf] (stop c : Nat) (a : Option Nat) (p : Nat) (s : State) :
    hide μ (outageHist stop c a p s) = hide μ s := by
  unfold outageHist
  (try dsimp -proj only)
  first
  | (simp [↓hide_with, ↓hide_with_pin, hide_foldl]; done)
  | ((repeat' split) <;> simp [↓hide_with, ↓hide_with_pin, hide_foldl])

@[simp ↓] theorem hide_markOutage {μ : Mask} [Hidden μ.trf] (had : List Nat) (s : State) :
    hide μ (markOutage had s) = hide μ s := by
  unfold markOutage
  (try dsimp -proj only)
  first
  | (simp [↓hide_with, ↓hide_with_pin, hide_foldl]; done)
  | ((repeat' split) <;> simp [↓hide_with, ↓hide_with_pin, hide_foldl])

@[simp ↓] theorem hide_reopen {μ : Mask} [Hidden μ.nvs] [Hidden μ.trf] (from_ : Nat → Nat) (stop : Nat) (a : Option Nat) (had : List Nat) (s1 s : State) :
    hide μ (reopen from_ stop a had s1 s) = hide μ s := by
  unfold reopen
  refine hide_foldl (fun t p => ?_) _ _
  (try dsimp -proj only)
  split
  · simp
  · rfl

@[simp ↓] theorem hide_catchUp {μ : Mask} [Hidden μ.free] [Hidden μ.out] [Hidden μ.bootSt] [Hidden μ.cpx] [Hidden μ.whl] [Hidden μ.flt] [Hidden μ.hif] [Hidden μ.coil] [Hidden μ.nvs] [Hidden μ.trf] (from_ : Nat → Nat) (stop : Nat) (s : State) :
    hide μ (catchUp from_ stop s) = hide μ s := by
  unfold catchUp
  (try dsimp -proj only)
  first
  | (simp [↓hide_with, ↓hide_with_pin, hide_foldl]; done)
  | ((repeat' split) <;> simp [↓hide_with, ↓hide_with_pin, hide_foldl])

@[simp ↓] theorem hide_catchBack {μ : Mask} [Hidden μ.free] [Hidden μ.out] [Hidden μ.bootSt] [Hidden μ.cpx] [Hidden μ.whl] [Hidden μ.flt] [Hidden μ.hif] [Hidden μ.coil] [Hidden μ.nvs] [Hidden μ.trf] (stop : Nat) (s : State) :
    hide μ (catchBack stop s) = hide μ s := by
  unfold catchBack
  (try dsimp -proj only)
  first
  | (simp [↓hide_with, ↓hide_with_pin, hide_foldl]; done)
  | ((repeat' split) <;> simp [↓hide_with, ↓hide_with_pin, hide_foldl])

@[simp ↓] theorem hide_execTrfLoad {μ : Mask} [Hidden μ.out] [Hidden μ.bootSt] [Hidden μ.cpx] [Hidden μ.flt] [Hidden μ.hif] [Hidden μ.coil] [Hidden μ.nvs] [Hidden μ.trf] (r : Req) (s : State) :
    kept μ (hide μ s) (execTrfLoad r s) := by
  unfold execTrfLoad
  (try dsimp -proj only)
  refine hide_ring0 _ _ _ _ _ ?_
  (try dsimp -proj only)
  first
  | (simp [↓hide_with, ↓hide_with_pin, hide_foldl]; done)
  | ((repeat' split) <;> simp [↓hide_with, ↓hide_with_pin, hide_foldl])

@[simp ↓] theorem hide_execTrfArm {μ : Mask} [Hidden μ.out] [Hidden μ.whl] [Hidden μ.hif] [Hidden μ.coil] [Hidden μ.nvs] [Hidden μ.trf] (r : Req) (s : State) :
    kept μ (hide μ s) (execTrfArm r s) := by
  unfold execTrfArm
  (try dsimp -proj only)
  refine hide_ring0 _ _ _ _ _ ?_
  (try dsimp -proj only)
  first
  | (simp [↓hide_with, ↓hide_with_pin, hide_foldl]; done)
  | ((repeat' split) <;> simp [↓hide_with, ↓hide_with_pin, hide_foldl])

@[simp ↓] theorem hide_execTrfCtledit {μ : Mask} [Hidden μ.out] [Hidden μ.bootSt] [Hidden μ.cpx] [Hidden μ.flt] [Hidden μ.hif] [Hidden μ.coil] [Hidden μ.nvs] [Hidden μ.trf] (r : Req) (s : State) :
    kept μ (hide μ s) (execTrfCtledit r s) := by
  unfold execTrfCtledit
  (try dsimp -proj only)
  refine hide_ring0 _ _ _ _ _ ?_
  (try dsimp -proj only)
  first
  | (simp [↓hide_with, ↓hide_with_pin, hide_foldl]; done)
  | ((repeat' split) <;> simp [↓hide_with, ↓hide_with_pin, hide_foldl])

@[simp ↓] theorem hide_execTrfSnap {μ : Mask} [Hidden μ.free] [Hidden μ.out] [Hidden μ.bootSt] [Hidden μ.cpx] [Hidden μ.flt] [Hidden μ.hif] [Hidden μ.coil] [Hidden μ.nvs] [Hidden μ.trf] (r : Req) (s : State) :
    kept μ (hide μ s) (execTrfSnap r s) := by
  unfold execTrfSnap
  (try dsimp -proj only)
  refine hide_ring0 _ _ _ _ _ ?_
  (try dsimp -proj only)
  first
  | (simp [↓hide_with, ↓hide_with_pin, hide_foldl]; done)
  | ((repeat' split) <;> simp [↓hide_with, ↓hide_with_pin, hide_foldl])

end Sys2Proof.Laws
end

