-- ==== Sys2Proof/Laws/FootCredit.lean ====
section
/-!
SUPPORT. What the operations of Machine/Credit.lean leave unchanged.
-/
set_option linter.unusedSimpArgs false
set_option linter.unusedTactic false
set_option linter.unreachableTactic false
namespace Sys2Proof.Laws
open Sys2Proof.Machine

@[simp ↓] theorem hide_setCred {μ : Mask} [Hidden μ.crd] (p : Nat) (x : CredSt) (s : State) :
    hide μ (setCred p x s) = hide μ s := by
  unfold setCred
  (try dsimp -proj only)
  first
  | (simp [↓hide_with, ↓hide_with_pin, hide_foldl]; done)
  | ((repeat' split) <;> simp [↓hide_with, ↓hide_with_pin, hide_foldl])

@[simp ↓] theorem hide_crdRec {μ : Mask} [Hidden μ.nvs] (st : Stamp) (ev : Nat) (pt : Option Nat) (out detail : Nat) (amount serial : Nat) (s : State) :
    hide μ (crdRec st ev pt out detail amount serial s) = hide μ s := by
  unfold crdRec
  (try dsimp -proj only)
  first
  | (simp [↓hide_with, ↓hide_with_pin, hide_foldl]; done)
  | ((repeat' split) <;> simp [↓hide_with, ↓hide_with_pin, hide_foldl])

@[simp ↓] theorem hide_ptEvent {μ : Mask} [Hidden μ.nvs] (ev p detail amount serial : Nat) (s : State) :
    hide μ (ptEvent ev p detail amount serial s) = hide μ s := by
  unfold ptEvent
  (try dsimp -proj only)
  first
  | (simp [↓hide_with, ↓hide_with_pin, hide_foldl]; done)
  | ((repeat' split) <;> simp [↓hide_with, ↓hide_with_pin, hide_foldl])

@[simp ↓] theorem hide_writeCred {μ : Mask} [Hidden μ.nvs] (p : Nat) (s : State) :
    hide μ (writeCred p s) = hide μ s := by
  unfold writeCred
  (try dsimp -proj only)
  first
  | (simp [↓hide_with, ↓hide_with_pin, hide_foldl]; done)
  | ((repeat' split) <;> simp [↓hide_with, ↓hide_with_pin, hide_foldl])

@[simp ↓] theorem hide_secondCred {μ : Mask} [Hidden μ.nvs] (s : State) :
    hide μ (secondCred s) = hide μ s := by
  unfold secondCred
  (try dsimp -proj only)
  first
  | (simp [↓hide_with, ↓hide_with_pin, hide_foldl]; done)
  | ((repeat' split) <;> simp [↓hide_with, ↓hide_with_pin, hide_foldl])

@[simp ↓] theorem hide_debitTurn {μ : Mask} [Hidden μ.crd] (p : Nat) (s : State) :
    hide μ (debitTurn p s) = hide μ s := by
  unfold debitTurn
  (try dsimp -proj only)
  first
  | (simp [↓hide_with, ↓hide_with_pin, hide_foldl]; done)
  | ((repeat' split) <;> simp [↓hide_with, ↓hide_with_pin, hide_foldl])

@[simp ↓] theorem hide_debitRestart {μ : Mask} [Hidden μ.crd] (p : Nat) (s : State) :
    hide μ (debitRestart p s) = hide μ s := by
  unfold debitRestart
  (try dsimp -proj only)
  first
  | (simp [↓hide_with, ↓hide_with_pin, hide_foldl]; done)
  | ((repeat' split) <;> simp [↓hide_with, ↓hide_with_pin, hide_foldl])

@[simp ↓] theorem hide_reval {μ : Mask} [Hidden μ.nvs] [Hidden μ.crd] (p : Nat) (s : State) :
    hide μ (reval p s) = hide μ s := by
  unfold reval
  (try dsimp -proj only)
  first
  | (simp [↓hide_with, ↓hide_with_pin, hide_foldl]; done)
  | ((repeat' split) <;> simp [↓hide_with, ↓hide_with_pin, hide_foldl])

@[simp ↓] theorem hide_evalControl {μ : Mask} [Hidden μ.crd] (u : Nat) (s : State) :
    hide μ (evalControl u s) = hide μ s := by
  unfold evalControl
  (try dsimp -proj only)
  first
  | (simp [↓hide_with, ↓hide_with_pin, hide_foldl]; done)
  | ((repeat' split) <;> simp [↓hide_with, ↓hide_with_pin, hide_foldl])

@[simp ↓] theorem hide_armCtl {μ : Mask} [Hidden μ.out] [Hidden μ.bootSt] [Hidden μ.cpx] [Hidden μ.whl] [Hidden μ.flt] [Hidden μ.hif] [Hidden μ.coil] [Hidden μ.nvs] [Hidden μ.crd] (n : Nat) (on credit : Bool) (b : W64) (s : State) : hide μ (armCtl n on credit b s) = hide μ s := by
  unfold armCtl
  apply hide_ite_of
  · simp
  · simp

@[simp ↓] theorem hide_cancelCtl {μ : Mask} [Hidden μ.whl] [Hidden μ.nvs] [Hidden μ.crd] (n : Nat) (s : State) :
    hide μ (cancelCtl n s) = hide μ s := by
  unfold cancelCtl
  (try dsimp -proj only)
  first
  | (simp [↓hide_with, ↓hide_with_pin, hide_foldl]; done)
  | ((repeat' split) <;> simp [↓hide_with, ↓hide_with_pin, hide_foldl])

@[simp ↓] theorem hide_dropPending {μ : Mask} [Hidden μ.whl] [Hidden μ.crd] (s : State) :
    hide μ (dropPending s) = hide μ s := by
  unfold dropPending
  (try dsimp -proj only)
  first
  | (simp [↓hide_with, ↓hide_with_pin, hide_foldl]; done)
  | ((repeat' split) <;> simp [↓hide_with, ↓hide_with_pin, hide_foldl])

@[simp ↓] theorem hide_driveCtl {μ : Mask} [Hidden μ.pin] [Hidden μ.crd] (n : Nat) (on : Bool) (s : State) :
    hide μ (driveCtl n on s) = hide μ s := by
  unfold driveCtl
  (try dsimp -proj only)
  first
  | (simp [↓hide_with, ↓hide_with_pin, hide_foldl]; done)
  | ((repeat' split) <;> simp [↓hide_with, ↓hide_with_pin, hide_foldl])

@[simp ↓] theorem hide_pwmStart {μ : Mask} [Hidden μ.pin] [Hidden μ.crd] (n : Nat) (s : State) :
    hide μ (pwmStart n s) = hide μ s := by
  unfold pwmStart
  (try dsimp -proj only)
  first
  | (simp [↓hide_with, ↓hide_with_pin, hide_foldl]; done)
  | ((repeat' split) <;> simp [↓hide_with, ↓hide_with_pin, hide_foldl])

@[simp ↓] theorem hide_driveNow {μ : Mask} [Hidden μ.pin] [Hidden μ.crd] (n : Nat) (s : State) :
    hide μ (driveNow n s) = hide μ s := by
  unfold driveNow
  (try dsimp -proj only)
  first
  | (simp [↓hide_with, ↓hide_with_pin, hide_foldl]; done)
  | ((repeat' split) <;> simp [↓hide_with, ↓hide_with_pin, hide_foldl])

@[simp ↓] theorem hide_ctlFire {μ : Mask} [Hidden μ.nvs] [Hidden μ.pin] [Hidden μ.crd] (n : Nat) (s : State) :
    hide μ (ctlFire n s) = hide μ s := by
  unfold ctlFire
  (try dsimp -proj only)
  first
  | (simp [↓hide_with, ↓hide_with_pin, hide_foldl]; done)
  | ((repeat' split) <;> simp [↓hide_with, ↓hide_with_pin, hide_foldl])

@[simp ↓] theorem hide_switchTo {μ : Mask} [Hidden μ.out] [Hidden μ.bootSt] [Hidden μ.cpx] [Hidden μ.whl] [Hidden μ.flt] [Hidden μ.hif] [Hidden μ.coil] [Hidden μ.nvs] [Hidden μ.crd] (n : Nat) (want credit : Bool) (b : W64) (s : State) :
    hide μ (switchTo n want credit b s) = hide μ s := by
  unfold switchTo
  (try dsimp -proj only)
  first
  | (simp [↓hide_with, ↓hide_with_pin, hide_foldl]; done)
  | ((repeat' split) <;> simp [↓hide_with, ↓hide_with_pin, hide_foldl])

@[simp ↓] theorem hide_deferDue {μ : Mask} [Hidden μ.nvs] [Hidden μ.crd] (p : Nat) (s : State) :
    hide μ (deferDue p s) = hide μ s := by
  unfold deferDue
  (try dsimp -proj only)
  first
  | (simp [↓hide_with, ↓hide_with_pin, hide_foldl]; done)
  | ((repeat' split) <;> simp [↓hide_with, ↓hide_with_pin, hide_foldl])

@[simp ↓] theorem hide_decideDisc {μ : Mask} [Hidden μ.out] [Hidden μ.bootSt] [Hidden μ.cpx] [Hidden μ.whl] [Hidden μ.flt] [Hidden μ.hif] [Hidden μ.coil] [Hidden μ.nvs] [Hidden μ.crd] (live ready : Bool) (bpos : W64) (b n p : Nat) (s : State) :
    hide μ (decideDisc live ready bpos b n p s) = hide μ s := by
  unfold decideDisc
  (try dsimp -proj only)
  first
  | (simp [↓hide_with, ↓hide_with_pin, hide_foldl]; done)
  | ((repeat' split) <;> simp [↓hide_with, ↓hide_with_pin, hide_foldl])

@[simp ↓] theorem hide_decideLoad {μ : Mask} [Hidden μ.out] [Hidden μ.bootSt] [Hidden μ.cpx] [Hidden μ.whl] [Hidden μ.flt] [Hidden μ.hif] [Hidden μ.coil] [Hidden μ.nvs] [Hidden μ.crd] (bpos : W64) (bslot n : Nat) (s : State) :
    hide μ (decideLoad bpos bslot n s) = hide μ s := by
  unfold decideLoad
  (try dsimp -proj only)
  first
  | (simp [↓hide_with, ↓hide_with_pin, hide_foldl]; done)
  | ((repeat' split) <;> simp [↓hide_with, ↓hide_with_pin, hide_foldl])

@[simp ↓] theorem hide_decideCtl {μ : Mask} [Hidden μ.out] [Hidden μ.bootSt] [Hidden μ.cpx] [Hidden μ.whl] [Hidden μ.flt] [Hidden μ.hif] [Hidden μ.coil] [Hidden μ.nvs] [Hidden μ.crd] (live : Bool) (old : Tab CredSt) (bpos : W64) (b bslot n : Nat) (s : State) :
    hide μ (decideCtl live old bpos b bslot n s) = hide μ s := by
  unfold decideCtl
  (try dsimp -proj only)
  first
  | (simp [↓hide_with, ↓hide_with_pin, hide_foldl]; done)
  | ((repeat' split) <;> simp [↓hide_with, ↓hide_with_pin, hide_foldl])

@[simp ↓] theorem hide_decideAll {μ : Mask} [Hidden μ.out] [Hidden μ.bootSt] [Hidden μ.cpx] [Hidden μ.whl] [Hidden μ.flt] [Hidden μ.hif] [Hidden μ.coil] [Hidden μ.nvs] [Hidden μ.crd] (live : Bool) (old : Tab CredSt) (bpos : W64) (b bslot : Nat) (s : State) :
    hide μ (decideAll live old bpos b bslot s) = hide μ s := by
  unfold decideAll
  (try dsimp -proj only)
  first
  | (simp [↓hide_with, ↓hide_with_pin, hide_foldl]; done)
  | ((repeat' split) <;> simp [↓hide_with, ↓hide_with_pin, hide_foldl])

@[simp ↓] theorem hide_ring11 {μ : Mask} [Hidden μ.out] [Hidden μ.hif] [Hidden μ.coil] (op : Byte) (len : Nat) (bad : Bool) (r : Req) (s : State) (body : Waiter → State → Ans)
    (h : hide μ (ansState (body (reqWaiter r 11 op) s)) = hide μ s) : kept μ (hide μ s) (ring11 op len bad r s body) := by
  unfold ring11
  dsimp only
  repeat' split
  all_goals simp [h]

@[simp ↓] theorem hide_grant {μ : Mask} [Hidden μ.nvs] [Hidden μ.crd] (src p : Nat) (s : State) :
    hide μ (grant src p s) = hide μ s := by
  unfold grant
  (try dsimp -proj only)
  first
  | (simp [↓hide_with, ↓hide_with_pin, hide_foldl]; done)
  | ((repeat' split) <;> simp [↓hide_with, ↓hide_with_pin, hide_foldl])

@[simp ↓] theorem hide_tokenApply {μ : Mask} [Hidden μ.nvs] [Hidden μ.crd] (p : Nat) (b : List Byte) (s : State) :
    hide μ (tokenApply p b s) = hide μ s := by
  unfold tokenApply
  (try dsimp -proj only)
  first
  | (simp [↓hide_with, ↓hide_with_pin, hide_foldl]; done)
  | ((repeat' split) <;> simp [↓hide_with, ↓hide_with_pin, hide_foldl])

@[simp ↓] theorem hide_credWait {μ : Mask} [Hidden μ.nvs] (p : Nat) (w : Waiter) (e : GroupEff) (s : State) :
    hide μ (ansState (credWait p w e s)) = hide μ s := by
  unfold credWait
  split <;> simp

@[simp ↓] theorem hide_execCreditEc {μ : Mask} [Hidden μ.out] [Hidden μ.bootSt] [Hidden μ.cpx] [Hidden μ.flt] [Hidden μ.hif] [Hidden μ.coil] [Hidden μ.nvs] (r : Req) (s : State) :
    kept μ (hide μ s) (execCreditEc r s) := by
  unfold execCreditEc
  (try dsimp -proj only)
  refine hide_ring11 _ _ _ _ _ _ ?_
  (try dsimp -proj only)
  first
  | (simp [↓hide_with, ↓hide_with_pin, hide_foldl]; done)
  | ((repeat' split) <;> simp [↓hide_with, ↓hide_with_pin, hide_foldl])

@[simp ↓] theorem hide_execEcreqPress {μ : Mask} [Hidden μ.nvs] [Hidden μ.crd] (ball : Nat) (s : State) :
    kept μ (hide μ s) (execEcreqPress ball s) := by
  unfold execEcreqPress
  (try dsimp -proj only)
  first
  | (simp [↓hide_with, ↓hide_with_pin, hide_foldl]; done)
  | ((repeat' split) <;> simp [↓hide_with, ↓hide_with_pin, hide_foldl])

@[simp ↓] theorem hide_tokenRefuse {μ : Mask} [Hidden μ.out] [Hidden μ.bootSt] [Hidden μ.cpx] [Hidden μ.flt] [Hidden μ.hif] [Hidden μ.coil] [Hidden μ.nvs] [Hidden μ.crd] (st : W16) (b : List Byte) (s : State) :
    hide μ (tokenRefuse st b s) = hide μ s := by
  unfold tokenRefuse
  (try dsimp -proj only)
  first
  | (simp [↓hide_with, ↓hide_with_pin, hide_foldl]; done)
  | ((repeat' split) <;> simp [↓hide_with, ↓hide_with_pin, hide_foldl])

@[simp ↓] theorem hide_tokenJudge {μ : Mask} [Hidden μ.out] [Hidden μ.bootSt] [Hidden μ.cpx] [Hidden μ.flt] [Hidden μ.hif] [Hidden μ.coil] [Hidden μ.nvs] [Hidden μ.crd] (w : Waiter) (b : List Byte) (tag : Option (List Byte)) (s : State) :
    hide μ (ansState (tokenJudge w b tag s)) = hide μ s := by
  unfold tokenJudge
  (try dsimp -proj only)
  first
  | (simp [↓hide_with, ↓hide_with_pin, hide_foldl]; done)
  | ((repeat' split) <;> simp [↓hide_with, ↓hide_with_pin, hide_foldl])

@[simp ↓] theorem hide_execCtlSwitch {μ : Mask} [Hidden μ.out] [Hidden μ.hif] [Hidden μ.coil] [Hidden μ.nvs] [Hidden μ.crd] (r : Req) (s : State) :
    kept μ (hide μ s) (execCtlSwitch r s) := by
  unfold execCtlSwitch
  (try dsimp -proj only)
  refine hide_ring11 _ _ _ _ _ _ ?_
  (try dsimp -proj only)
  first
  | (simp [↓hide_with, ↓hide_with_pin, hide_foldl]; done)
  | ((repeat' split) <;> simp [↓hide_with, ↓hide_with_pin, hide_foldl])

@[simp ↓] theorem hide_execOverrideExpiry {μ : Mask} [Hidden μ.crd] (n : Nat) (s : State) :
    kept μ (hide μ s) (execOverrideExpiry n s) := by
  unfold execOverrideExpiry
  (try dsimp -proj only)
  first
  | (simp [↓hide_with, ↓hide_with_pin, hide_foldl]; done)
  | ((repeat' split) <;> simp [↓hide_with, ↓hide_with_pin, hide_foldl])

@[simp ↓] theorem hide_execPwmPeriod {μ : Mask} [Hidden μ.pin] [Hidden μ.crd] (n : Nat) (s : State) :
    kept μ (hide μ s) (execPwmPeriod n s) := by
  unfold execPwmPeriod
  (try dsimp -proj only)
  first
  | (simp [↓hide_with, ↓hide_with_pin, hide_foldl]; done)
  | ((repeat' split) <;> simp [↓hide_with, ↓hide_with_pin, hide_foldl])

@[simp ↓] theorem hide_dropEcreq {μ : Mask} [Hidden μ.pin] (n : Nat) (s : State) :
    hide μ (dropEcreq n s) = hide μ s := by
  unfold dropEcreq
  (try dsimp -proj only)
  first
  | (simp [↓hide_with, ↓hide_with_pin, hide_foldl]; done)
  | ((repeat' split) <;> simp [↓hide_with, ↓hide_with_pin, hide_foldl])

@[simp ↓] theorem hide_creditApply {μ : Mask} [Hidden μ.nvs] [Hidden μ.pin] [Hidden μ.crd] (p : Nat) (g : CreditCfg) (s : State) :
    hide μ (creditApply p g s) = hide μ s := by
  unfold creditApply
  (try dsimp -proj only)
  first
  | (simp [↓hide_with, ↓hide_with_pin, hide_foldl]; done)
  | ((repeat' split) <;> simp [↓hide_with, ↓hide_with_pin, hide_foldl])

@[simp ↓] theorem hide_execCreditCfg {μ : Mask} [Hidden μ.out] [Hidden μ.bootSt] [Hidden μ.cpx] [Hidden μ.flt] [Hidden μ.hif] [Hidden μ.coil] [Hidden μ.nvs] [Hidden μ.pin] [Hidden μ.crd] (r : Req) (s : State) :
    kept μ (hide μ s) (execCreditCfg r s) := by
  unfold execCreditCfg
  (try dsimp -proj only)
  refine hide_ring0 _ _ _ _ _ ?_
  (try dsimp -proj only)
  first
  | (simp [↓hide_with, ↓hide_with_pin, hide_foldl]; done)
  | ((repeat' split) <;> simp [↓hide_with, ↓hide_with_pin, hide_foldl])

@[simp ↓] theorem hide_ctlAccept {μ : Mask} [Hidden μ.pin] [Hidden μ.crd] (n : Nat) (c : CtlCfg) (s : State) :
    hide μ (ctlAccept n c s) = hide μ s := by
  unfold ctlAccept
  (try dsimp -proj only)
  first
  | (simp [↓hide_with, ↓hide_with_pin, hide_foldl]; done)
  | ((repeat' split) <;> simp [↓hide_with, ↓hide_with_pin, hide_foldl])

@[simp ↓] theorem hide_execCtlCfg {μ : Mask} [Hidden μ.out] [Hidden μ.bootSt] [Hidden μ.cpx] [Hidden μ.flt] [Hidden μ.hif] [Hidden μ.coil] [Hidden μ.nvs] [Hidden μ.pin] [Hidden μ.crd] (r : Req) (s : State) :
    kept μ (hide μ s) (execCtlCfg r s) := by
  unfold execCtlCfg
  (try dsimp -proj only)
  refine hide_ring0 _ _ _ _ _ ?_
  (try dsimp -proj only)
  first
  | (simp [↓hide_with, ↓hide_with_pin, hide_foldl]; done)
  | ((repeat' split) <;> simp [↓hide_with, ↓hide_with_pin, hide_foldl])

@[simp ↓] theorem hide_execCtlCfgEffect {μ : Mask} [Hidden μ.pin] [Hidden μ.crd] (n : Nat) (s : State) :
    kept μ (hide μ s) (execCtlCfgEffect n s) := by
  unfold execCtlCfgEffect
  (try dsimp -proj only)
  first
  | (simp [↓hide_with, ↓hide_with_pin, hide_foldl]; done)
  | ((repeat' split) <;> simp [↓hide_with, ↓hide_with_pin, hide_foldl])

@[simp ↓] theorem hide_driveOutputs {μ : Mask} [Hidden μ.pin] [Hidden μ.crd] (s : State) :
    hide μ (driveOutputs s) = hide μ s := by
  unfold driveOutputs
  (try dsimp -proj only)
  first
  | (simp [↓hide_with, ↓hide_with_pin, hide_foldl]; done)
  | ((repeat' split) <;> simp [↓hide_with, ↓hide_with_pin, hide_foldl])

@[simp ↓] theorem hide_safeOutputs {μ : Mask} [Hidden μ.whl] [Hidden μ.pin] [Hidden μ.crd] (s : State) :
    hide μ (safeOutputs s) = hide μ s := by
  unfold safeOutputs
  (try dsimp -proj only)
  first
  | (simp [↓hide_with, ↓hide_with_pin, hide_foldl]; done)
  | ((repeat' split) <;> simp [↓hide_with, ↓hide_with_pin, hide_foldl])

end Sys2Proof.Laws
end

