-- ==== Sys2Proof/Laws/FootAccount.lean ====
section
/-!
SUPPORT. What the operations of Machine/Account.lean leave unchanged.
-/
set_option linter.unusedSimpArgs false
set_option linter.unusedTactic false
set_option linter.unreachableTactic false
namespace Sys2Proof.Laws
open Sys2Proof.Machine

@[simp ↓] theorem hide_bookPt {μ : Mask} [Hidden μ.trf] [Hidden μ.crd] (p : Nat) (s : State) :
    hide μ (bookPt p s) = hide μ s := by
  unfold bookPt
  (try dsimp -proj only)
  first
  | (simp [↓hide_with, ↓hide_with_pin, hide_foldl]; done)
  | ((repeat' split) <;> simp [↓hide_with, ↓hide_with_pin, hide_foldl])

@[simp ↓] theorem hide_beforeIncs {μ : Mask} [Hidden μ.free] [Hidden μ.out] [Hidden μ.bootSt] [Hidden μ.cpx] [Hidden μ.whl] [Hidden μ.flt] [Hidden μ.hif] [Hidden μ.coil] [Hidden μ.nvs] [Hidden μ.pnt] [Hidden μ.trf] (e : Nat) (s : State) :
    hide μ (beforeIncs e s) = hide μ s := by
  unfold beforeIncs
  (try dsimp -proj only)
  first
  | (simp [↓hide_with, ↓hide_with_pin, hide_foldl]; done)
  | ((repeat' split) <;> simp [↓hide_with, ↓hide_with_pin, hide_foldl])

@[simp ↓] theorem hide_accountTurn {μ : Mask} [Hidden μ.free] [Hidden μ.out] [Hidden μ.bootSt] [Hidden μ.cpx] [Hidden μ.whl] [Hidden μ.flt] [Hidden μ.hif] [Hidden μ.coil] [Hidden μ.nvs] [Hidden μ.pnt] [Hidden μ.trf] [Hidden μ.crd] (t : RsTurn) (s0 : State) :
    hide μ (accountTurn t s0) = hide μ s0 := by
  unfold accountTurn
  (try dsimp -proj only)
  first
  | (simp [↓hide_with, ↓hide_with_pin, hide_foldl]; done)
  | ((repeat' split) <;> simp [↓hide_with, ↓hide_with_pin, hide_foldl])

@[simp ↓] theorem hide_execTurnAccount {μ : Mask} [Hidden μ.free] [Hidden μ.out] [Hidden μ.bootSt] [Hidden μ.cpx] [Hidden μ.whl] [Hidden μ.flt] [Hidden μ.hif] [Hidden μ.coil] [Hidden μ.nvs] [Hidden μ.pnt] [Hidden μ.trf] [Hidden μ.crd] (s : State) :
    kept μ (hide μ s) (execTurnAccount s) := by
  unfold execTurnAccount
  (try dsimp -proj only)
  first
  | (simp [↓hide_with, ↓hide_with_pin, hide_foldl]; done)
  | ((repeat' split) <;> simp [↓hide_with, ↓hide_with_pin, hide_foldl])

@[simp ↓] theorem hide_freezeTurn {μ : Mask} [Hidden μ.free] [Hidden μ.out] [Hidden μ.bootSt] [Hidden μ.cpx] [Hidden μ.whl] [Hidden μ.flt] [Hidden μ.hif] [Hidden μ.coil] [Hidden μ.nvs] [Hidden μ.pnt] [Hidden μ.trf] [Hidden μ.crd] (t : RsTurn) (kf : Nat) (s0 : State) :
    hide μ (freezeTurn t kf s0) = hide μ s0 := by
  unfold freezeTurn
  (try dsimp -proj only)
  first
  | (simp [↓hide_with, ↓hide_with_pin, hide_foldl]; done)
  | ((repeat' split) <;> simp [↓hide_with, ↓hide_with_pin, hide_foldl])

@[simp ↓] theorem hide_noteFreeze {μ : Mask} [Hidden μ.trf] (s : State) :
    hide μ (noteFreeze s) = hide μ s := by
  unfold noteFreeze
  (try dsimp -proj only)
  first
  | (simp [↓hide_with, ↓hide_with_pin, hide_foldl]; done)
  | ((repeat' split) <;> simp [↓hide_with, ↓hide_with_pin, hide_foldl])

@[simp ↓] theorem hide_freezeWhole {μ : Mask} [Hidden μ.free] [Hidden μ.out] [Hidden μ.bootSt] [Hidden μ.cpx] [Hidden μ.whl] [Hidden μ.flt] [Hidden μ.hif] [Hidden μ.coil] [Hidden μ.nvs] [Hidden μ.pnt] [Hidden μ.trf] [Hidden μ.crd] (s : State) :
    hide μ (freezeWhole s) = hide μ s := by
  unfold freezeWhole
  (try dsimp -proj only)
  first
  | (simp [↓hide_with, ↓hide_with_pin, hide_foldl]; done)
  | ((repeat' split) <;> simp [↓hide_with, ↓hide_with_pin, hide_foldl])

@[simp ↓] theorem hide_freezePart {μ : Mask} [Hidden μ.free] [Hidden μ.out] [Hidden μ.bootSt] [Hidden μ.cpx] [Hidden μ.whl] [Hidden μ.flt] [Hidden μ.hif] [Hidden μ.coil] [Hidden μ.nvs] [Hidden μ.pnt] [Hidden μ.trf] [Hidden μ.crd] (s : State) :
    hide μ (freezePart s) = hide μ s := by
  unfold freezePart
  (try dsimp -proj only)
  first
  | (simp [↓hide_with, ↓hide_with_pin, hide_foldl]; done)
  | ((repeat' split) <;> simp [↓hide_with, ↓hide_with_pin, hide_foldl])

@[simp ↓] theorem hide_freezeStop {μ : Mask} [Hidden μ.pnt] [Hidden μ.trf] (st : Stamp) (s : State) :
    hide μ (freezeStop st s) = hide μ s := by
  unfold freezeStop
  (try dsimp -proj only)
  first
  | (simp [↓hide_with, ↓hide_with_pin, hide_foldl]; done)
  | ((repeat' split) <;> simp [↓hide_with, ↓hide_with_pin, hide_foldl])

@[simp ↓] theorem hide_freeze {μ : Mask} [Hidden μ.free] [Hidden μ.out] [Hidden μ.bootSt] [Hidden μ.cpx] [Hidden μ.whl] [Hidden μ.flt] [Hidden μ.hif] [Hidden μ.coil] [Hidden μ.nvs] [Hidden μ.afe] [Hidden μ.dec] [Hidden μ.pnt] [Hidden μ.pq] [Hidden μ.cal] [Hidden μ.trf] [Hidden μ.crd] (s : State) :
    hide μ (freeze s) = hide μ s := by
  unfold freeze
  (try dsimp -proj only)
  first
  | (simp [↓hide_with, ↓hide_with_pin, hide_foldl]; done)
  | ((repeat' split) <;> simp [↓hide_with, ↓hide_with_pin, hide_foldl])

@[simp ↓] theorem hide_frozenStart {μ : Mask} [Hidden μ.pnt] [Hidden μ.pq] [Hidden μ.trf] (s : State) :
    hide μ (frozenStart s) = hide μ s := by
  unfold frozenStart
  (try dsimp -proj only)
  first
  | (simp [↓hide_with, ↓hide_with_pin, hide_foldl]; done)
  | ((repeat' split) <;> simp [↓hide_with, ↓hide_with_pin, hide_foldl])

@[simp ↓] theorem hide_outFrozen {μ : Mask} [Hidden μ.out] [Hidden μ.bootSt] [Hidden μ.cpx] [Hidden μ.flt] [Hidden μ.hif] [Hidden μ.coil] [Hidden μ.nvs] [Hidden μ.pnt] (s : State) :
    hide μ (outFrozen s) = hide μ s := by
  unfold outFrozen
  (try dsimp -proj only)
  first
  | (simp [↓hide_with, ↓hide_with_pin, hide_foldl]; done)
  | ((repeat' split) <;> simp [↓hide_with, ↓hide_with_pin, hide_foldl])

@[simp ↓] theorem hide_resume {μ : Mask} [Hidden μ.out] [Hidden μ.bootSt] [Hidden μ.cpx] [Hidden μ.flt] [Hidden μ.hif] [Hidden μ.coil] [Hidden μ.nvs] [Hidden μ.pnt] [Hidden μ.pq] (s : State) :
    hide μ (resume s) = hide μ s := by
  unfold resume
  (try dsimp -proj only)
  first
  | (simp [↓hide_with, ↓hide_with_pin, hide_foldl]; done)
  | ((repeat' split) <;> simp [↓hide_with, ↓hide_with_pin, hide_foldl])

@[simp ↓] theorem hide_freezeBoundary {μ : Mask} [Hidden μ.out] [Hidden μ.bootSt] [Hidden μ.cpx] [Hidden μ.whl] [Hidden μ.flt] [Hidden μ.hif] [Hidden μ.coil] [Hidden μ.nvs] [Hidden μ.trf] [Hidden μ.crd] (s : State) :
    hide μ (freezeBoundary s) = hide μ s := by
  unfold freezeBoundary
  (try dsimp -proj only)
  first
  | (simp [↓hide_with, ↓hide_with_pin, hide_foldl]; done)
  | ((repeat' split) <;> simp [↓hide_with, ↓hide_with_pin, hide_foldl])

end Sys2Proof.Laws
end

