-- ==== Sys2Proof/Laws/FootAfe.lean ====
section
/-!
SUPPORT. What the operations of Machine/Afe.lean leave unchanged.
-/
set_option linter.unusedSimpArgs false
set_option linter.unusedTactic false
set_option linter.unreachableTactic false
namespace Sys2Proof.Laws
open Sys2Proof.Machine

@[simp ↓] theorem hide_resumeIfClear {μ : Mask} [Hidden μ.out] [Hidden μ.bootSt] [Hidden μ.cpx] [Hidden μ.flt] [Hidden μ.hif] [Hidden μ.coil] [Hidden μ.nvs] [Hidden μ.pnt] [Hidden μ.pq] (s : State) :
    hide μ (resumeIfClear s) = hide μ s := by
  unfold resumeIfClear
  (try dsimp -proj only)
  first
  | (simp [↓hide_with, ↓hide_with_pin, hide_foldl]; done)
  | ((repeat' split) <;> simp [↓hide_with, ↓hide_with_pin, hide_foldl])

@[simp ↓] theorem hide_clockLost {μ : Mask} [Hidden μ.free] [Hidden μ.out] [Hidden μ.bootSt] [Hidden μ.cpx] [Hidden μ.whl] [Hidden μ.flt] [Hidden μ.hif] [Hidden μ.coil] [Hidden μ.nvs] [Hidden μ.afe] [Hidden μ.dec] [Hidden μ.pnt] [Hidden μ.pq] [Hidden μ.cal] [Hidden μ.trf] [Hidden μ.crd] (src : Nat) (s : State) :
    hide μ (clockLost src s) = hide μ s := by
  unfold clockLost
  (try dsimp -proj only)
  first
  | (simp [↓hide_with, ↓hide_with_pin, hide_foldl]; done)
  | ((repeat' split) <;> simp [↓hide_with, ↓hide_with_pin, hide_foldl])

@[simp ↓] theorem hide_clockBack {μ : Mask} [Hidden μ.out] [Hidden μ.bootSt] [Hidden μ.cpx] [Hidden μ.flt] [Hidden μ.hif] [Hidden μ.coil] [Hidden μ.nvs] [Hidden μ.pnt] [Hidden μ.pq] (src : Nat) (s : State) :
    hide μ (clockBack src s) = hide μ s := by
  unfold clockBack
  (try dsimp -proj only)
  first
  | (simp [↓hide_with, ↓hide_with_pin, hide_foldl]; done)
  | ((repeat' split) <;> simp [↓hide_with, ↓hide_with_pin, hide_foldl])

@[simp ↓] theorem hide_execRclkLoss {μ : Mask} [Hidden μ.free] [Hidden μ.out] [Hidden μ.bootSt] [Hidden μ.cpx] [Hidden μ.whl] [Hidden μ.flt] [Hidden μ.hif] [Hidden μ.coil] [Hidden μ.nvs] [Hidden μ.afe] [Hidden μ.dec] [Hidden μ.pnt] [Hidden μ.pq] [Hidden μ.cal] [Hidden μ.trf] [Hidden μ.crd] (port : Nat) (s : State) :
    kept μ (hide μ s) (execRclkLoss port s) := by
  unfold execRclkLoss
  (try dsimp -proj only)
  first
  | (simp [↓hide_with, ↓hide_with_pin, hide_foldl]; done)
  | ((repeat' split) <;> simp [↓hide_with, ↓hide_with_pin, hide_foldl])

@[simp ↓] theorem hide_execRclkReturn {μ : Mask} [Hidden μ.out] [Hidden μ.bootSt] [Hidden μ.cpx] [Hidden μ.flt] [Hidden μ.hif] [Hidden μ.coil] [Hidden μ.nvs] [Hidden μ.afe] [Hidden μ.pnt] [Hidden μ.pq] (port : Nat) (s : State) :
    kept μ (hide μ s) (execRclkReturn port s) := by
  unfold execRclkReturn
  (try dsimp -proj only)
  first
  | (simp [↓hide_with, ↓hide_with_pin, hide_foldl]; done)
  | ((repeat' split) <;> simp [↓hide_with, ↓hide_with_pin, hide_foldl])

@[simp ↓] theorem hide_execMpllUnlock {μ : Mask} [Hidden μ.free] [Hidden μ.out] [Hidden μ.bootSt] [Hidden μ.cpx] [Hidden μ.whl] [Hidden μ.flt] [Hidden μ.hif] [Hidden μ.coil] [Hidden μ.nvs] [Hidden μ.afe] [Hidden μ.dec] [Hidden μ.pnt] [Hidden μ.pq] [Hidden μ.cal] [Hidden μ.trf] [Hidden μ.crd] (s : State) :
    kept μ (hide μ s) (execMpllUnlock s) := by
  unfold execMpllUnlock
  (try dsimp -proj only)
  first
  | (simp [↓hide_with, ↓hide_with_pin, hide_foldl]; done)
  | ((repeat' split) <;> simp [↓hide_with, ↓hide_with_pin, hide_foldl])

@[simp ↓] theorem hide_execMpllRelock {μ : Mask} [Hidden μ.out] [Hidden μ.bootSt] [Hidden μ.cpx] [Hidden μ.flt] [Hidden μ.hif] [Hidden μ.coil] [Hidden μ.nvs] [Hidden μ.afe] [Hidden μ.pnt] [Hidden μ.pq] (s : State) :
    kept μ (hide μ s) (execMpllRelock s) := by
  unfold execMpllRelock
  (try dsimp -proj only)
  first
  | (simp [↓hide_with, ↓hide_with_pin, hide_foldl]; done)
  | ((repeat' split) <;> simp [↓hide_with, ↓hide_with_pin, hide_foldl])

@[simp ↓] theorem hide_execVrefFault {μ : Mask} [Hidden μ.out] [Hidden μ.bootSt] [Hidden μ.cpx] [Hidden μ.flt] [Hidden μ.hif] [Hidden μ.coil] [Hidden μ.nvs] [Hidden μ.afe] (s : State) :
    kept μ (hide μ s) (execVrefFault s) := by
  unfold execVrefFault
  (try dsimp -proj only)
  first
  | (simp [↓hide_with, ↓hide_with_pin, hide_foldl]; done)
  | ((repeat' split) <;> simp [↓hide_with, ↓hide_with_pin, hide_foldl])

@[simp ↓] theorem hide_execVrefWaitTimeout {μ : Mask} [Hidden μ.out] [Hidden μ.bootSt] [Hidden μ.cpx] [Hidden μ.flt] [Hidden μ.hif] [Hidden μ.coil] [Hidden μ.nvs] [Hidden μ.afe] (s : State) :
    kept μ (hide μ s) (execVrefWaitTimeout s) := by
  unfold execVrefWaitTimeout
  (try dsimp -proj only)
  first
  | (simp [↓hide_with, ↓hide_with_pin, hide_foldl]; done)
  | ((repeat' split) <;> simp [↓hide_with, ↓hide_with_pin, hide_foldl])

@[simp ↓] theorem hide_startDwell {μ : Mask} [Hidden μ.out] [Hidden μ.bootSt] [Hidden μ.cpx] [Hidden μ.flt] [Hidden μ.hif] [Hidden μ.coil] [Hidden μ.nvs] [Hidden μ.afe] [Hidden μ.dec] [Hidden μ.cal] (b : Nat) (j : Option Nat) (s : State) :
    hide μ (startDwell b j s) = hide μ s := by
  unfold startDwell
  (try dsimp -proj only)
  first
  | (simp [↓hide_with, ↓hide_with_pin, hide_foldl]; done)
  | ((repeat' split) <;> simp [↓hide_with, ↓hide_with_pin, hide_foldl])

@[simp ↓] theorem hide_declareSuspect {μ : Mask} [Hidden μ.afe] [Hidden μ.dec] [Hidden μ.pnt] (b j : Nat) (now : Bool) (s : State) :
    hide μ (declareSuspect b j now s) = hide μ s := by
  unfold declareSuspect
  (try dsimp -proj only)
  first
  | (simp [↓hide_with, ↓hide_with_pin, hide_foldl]; done)
  | ((repeat' split) <;> simp [↓hide_with, ↓hide_with_pin, hide_foldl])

@[simp ↓] theorem hide_execShadowCompareTurn {μ : Mask} [Hidden μ.afe] [Hidden μ.dec] [Hidden μ.pnt] (b : Nat) (s : State) :
    kept μ (hide μ s) (execShadowCompareTurn b s) := by
  unfold execShadowCompareTurn
  (try dsimp -proj only)
  first
  | (simp [↓hide_with, ↓hide_with_pin, hide_foldl]; done)
  | ((repeat' split) <;> simp [↓hide_with, ↓hide_with_pin, hide_foldl])

@[simp ↓] theorem hide_execShadowDwellAdvance {μ : Mask} [Hidden μ.out] [Hidden μ.bootSt] [Hidden μ.cpx] [Hidden μ.flt] [Hidden μ.hif] [Hidden μ.coil] [Hidden μ.nvs] [Hidden μ.afe] [Hidden μ.dec] [Hidden μ.cal] (b : Nat) (s : State) :
    kept μ (hide μ s) (execShadowDwellAdvance b s) := by
  unfold execShadowDwellAdvance
  (try dsimp -proj only)
  first
  | (simp [↓hide_with, ↓hide_with_pin, hide_foldl]; done)
  | ((repeat' split) <;> simp [↓hide_with, ↓hide_with_pin, hide_foldl])

@[simp ↓] theorem hide_dwellTurn {μ : Mask} [Hidden μ.afe] (s : State) :
    hide μ (dwellTurn s) = hide μ s := by
  unfold dwellTurn
  (try dsimp -proj only)
  first
  | (simp [↓hide_with, ↓hide_with_pin, hide_foldl]; done)
  | ((repeat' split) <;> simp [↓hide_with, ↓hide_with_pin, hide_foldl])

@[simp ↓] theorem hide_writeSubst {μ : Mask} [Hidden μ.nvs] (b st j : Nat) (s : State) :
    hide μ (writeSubst b st j s) = hide μ s := by
  unfold writeSubst
  (try dsimp -proj only)
  first
  | (simp [↓hide_with, ↓hide_with_pin, hide_foldl]; done)
  | ((repeat' split) <;> simp [↓hide_with, ↓hide_with_pin, hide_foldl])

@[simp ↓] theorem hide_retireNow {μ : Mask} [Hidden μ.out] [Hidden μ.bootSt] [Hidden μ.cpx] [Hidden μ.flt] [Hidden μ.hif] [Hidden μ.coil] [Hidden μ.nvs] [Hidden μ.afe] (b : Nat) (s : State) :
    hide μ (retireNow b s) = hide μ s := by
  unfold retireNow
  (try dsimp -proj only)
  first
  | (simp [↓hide_with, ↓hide_with_pin, hide_foldl]; done)
  | ((repeat' split) <;> simp [↓hide_with, ↓hide_with_pin, hide_foldl])

@[simp ↓] theorem hide_retire {μ : Mask} [Hidden μ.out] [Hidden μ.bootSt] [Hidden μ.cpx] [Hidden μ.flt] [Hidden μ.hif] [Hidden μ.coil] [Hidden μ.nvs] [Hidden μ.afe] (b : Nat) (s : State) :
    hide μ (retire b s) = hide μ s := by
  unfold retire
  (try dsimp -proj only)
  first
  | (simp [↓hide_with, ↓hide_with_pin, hide_foldl]; done)
  | ((repeat' split) <;> simp [↓hide_with, ↓hide_with_pin, hide_foldl])

@[simp ↓] theorem hide_failCheck {μ : Mask} [Hidden μ.out] [Hidden μ.bootSt] [Hidden μ.cpx] [Hidden μ.flt] [Hidden μ.hif] [Hidden μ.coil] [Hidden μ.nvs] [Hidden μ.afe] [Hidden μ.dec] [Hidden μ.pnt] (b : Nat) (s : State) :
    hide μ (failCheck b s) = hide μ s := by
  unfold failCheck
  (try dsimp -proj only)
  first
  | (simp [↓hide_with, ↓hide_with_pin, hide_foldl]; done)
  | ((repeat' split) <;> simp [↓hide_with, ↓hide_with_pin, hide_foldl])

@[simp ↓] theorem hide_startSubst {μ : Mask} [Hidden μ.out] [Hidden μ.bootSt] [Hidden μ.cpx] [Hidden μ.flt] [Hidden μ.hif] [Hidden μ.coil] [Hidden μ.nvs] [Hidden μ.afe] [Hidden μ.dec] [Hidden μ.pnt] (b : Nat) (s : State) :
    hide μ (startSubst b s) = hide μ s := by
  unfold startSubst
  (try dsimp -proj only)
  first
  | (simp [↓hide_with, ↓hide_with_pin, hide_foldl]; done)
  | ((repeat' split) <;> simp [↓hide_with, ↓hide_with_pin, hide_foldl])

@[simp ↓] theorem hide_execShadowSelfcheckStep {μ : Mask} [Hidden μ.out] [Hidden μ.bootSt] [Hidden μ.cpx] [Hidden μ.flt] [Hidden μ.hif] [Hidden μ.coil] [Hidden μ.nvs] [Hidden μ.afe] [Hidden μ.dec] [Hidden μ.pnt] (b : Nat) (s : State) :
    kept μ (hide μ s) (execShadowSelfcheckStep b s) := by
  unfold execShadowSelfcheckStep
  (try dsimp -proj only)
  first
  | (simp [↓hide_with, ↓hide_with_pin, hide_foldl]; done)
  | ((repeat' split) <;> simp [↓hide_with, ↓hide_with_pin, hide_foldl])

@[simp ↓] theorem hide_severeStop {μ : Mask} [Hidden μ.free] [Hidden μ.out] [Hidden μ.bootSt] [Hidden μ.cpx] [Hidden μ.whl] [Hidden μ.flt] [Hidden μ.hif] [Hidden μ.coil] [Hidden μ.nvs] [Hidden μ.afe] [Hidden μ.dec] [Hidden μ.pnt] [Hidden μ.pq] [Hidden μ.cal] [Hidden μ.trf] [Hidden μ.crd] (src : Nat) (s : State) :
    hide μ (severeStop src s) = hide μ s := by
  unfold severeStop
  (try dsimp -proj only)
  first
  | (simp [↓hide_with, ↓hide_with_pin, hide_foldl]; done)
  | ((repeat' split) <;> simp [↓hide_with, ↓hide_with_pin, hide_foldl])

@[simp ↓] theorem hide_stuckAct {μ : Mask} [Hidden μ.free] [Hidden μ.out] [Hidden μ.bootSt] [Hidden μ.cpx] [Hidden μ.whl] [Hidden μ.flt] [Hidden μ.hif] [Hidden μ.coil] [Hidden μ.nvs] [Hidden μ.afe] [Hidden μ.dec] [Hidden μ.pnt] [Hidden μ.pq] [Hidden μ.cal] [Hidden μ.trf] [Hidden μ.crd] (m : Nat) (s : State) :
    hide μ (stuckAct m s) = hide μ s := by
  unfold stuckAct
  (try dsimp -proj only)
  first
  | (simp [↓hide_with, ↓hide_with_pin, hide_foldl]; done)
  | ((repeat' split) <;> simp [↓hide_with, ↓hide_with_pin, hide_foldl])

@[simp ↓] theorem hide_execModulatorStuck {μ : Mask} [Hidden μ.free] [Hidden μ.out] [Hidden μ.bootSt] [Hidden μ.cpx] [Hidden μ.whl] [Hidden μ.flt] [Hidden μ.hif] [Hidden μ.coil] [Hidden μ.nvs] [Hidden μ.afe] [Hidden μ.dec] [Hidden μ.pnt] [Hidden μ.pq] [Hidden μ.cal] [Hidden μ.trf] [Hidden μ.crd] (m : Nat) (s : State) :
    kept μ (hide μ s) (execModulatorStuck m s) := by
  unfold execModulatorStuck
  (try dsimp -proj only)
  first
  | (simp [↓hide_with, ↓hide_with_pin, hide_foldl]; done)
  | ((repeat' split) <;> simp [↓hide_with, ↓hide_with_pin, hide_foldl])

@[simp ↓] theorem hide_stuckTurn {μ : Mask} [Hidden μ.free] [Hidden μ.out] [Hidden μ.bootSt] [Hidden μ.cpx] [Hidden μ.whl] [Hidden μ.flt] [Hidden μ.hif] [Hidden μ.coil] [Hidden μ.nvs] [Hidden μ.afe] [Hidden μ.dec] [Hidden μ.pnt] [Hidden μ.pq] [Hidden μ.cal] [Hidden μ.trf] [Hidden μ.crd] (s : State) :
    hide μ (stuckTurn s) = hide μ s := by
  unfold stuckTurn
  (try dsimp -proj only)
  first
  | (simp [↓hide_with, ↓hide_with_pin, hide_foldl]; done)
  | ((repeat' split) <;> simp [↓hide_with, ↓hide_with_pin, hide_foldl])

@[simp ↓] theorem hide_tripRec {μ : Mask} [Hidden μ.nvs] (st : Stamp) (n kind : Nat) (s : State) :
    hide μ (tripRec st n kind s) = hide μ s := by
  unfold tripRec
  (try dsimp -proj only)
  first
  | (simp [↓hide_with, ↓hide_with_pin, hide_foldl]; done)
  | ((repeat' split) <;> simp [↓hide_with, ↓hide_with_pin, hide_foldl])

@[simp ↓] theorem hide_tripBall {μ : Mask} [Hidden μ.nvs] [Hidden μ.afe] [Hidden μ.pq] (st : Stamp) (at_ : Int) (s : State) (n : Nat) :
    hide μ (tripBall st at_ s n) = hide μ s := by
  unfold tripBall
  (try dsimp -proj only)
  first
  | (simp [↓hide_with, ↓hide_with_pin, hide_foldl]; done)
  | ((repeat' split) <;> simp [↓hide_with, ↓hide_with_pin, hide_foldl])

@[simp ↓] theorem hide_tripAll {μ : Mask} [Hidden μ.nvs] [Hidden μ.afe] [Hidden μ.pq] (st : Stamp) (at_ : Int) (s : State) :
    hide μ (tripAll st at_ s) = hide μ s := by
  unfold tripAll
  (try dsimp -proj only)
  first
  | (simp [↓hide_with, ↓hide_with_pin, hide_foldl]; done)
  | ((repeat' split) <;> simp [↓hide_with, ↓hide_with_pin, hide_foldl])

@[simp ↓] theorem hide_execTripComparatorAssert {μ : Mask} [Hidden μ.nvs] [Hidden μ.afe] [Hidden μ.pq] (k samples : Nat) (s : State) :
    kept μ (hide μ s) (execTripComparatorAssert k samples s) := by
  unfold execTripComparatorAssert
  (try dsimp -proj only)
  first
  | (simp [↓hide_with, ↓hide_with_pin, hide_foldl]; done)
  | ((repeat' split) <;> simp [↓hide_with, ↓hide_with_pin, hide_foldl])

@[simp ↓] theorem hide_execTripComparatorRelease {μ : Mask} [Hidden μ.nvs] [Hidden μ.afe] [Hidden μ.pq] (k : Nat) (s : State) :
    kept μ (hide μ s) (execTripComparatorRelease k s) := by
  unfold execTripComparatorRelease
  (try dsimp -proj only)
  first
  | (simp [↓hide_with, ↓hide_with_pin, hide_foldl]; done)
  | ((repeat' split) <;> simp [↓hide_with, ↓hide_with_pin, hide_foldl])

@[simp ↓] theorem hide_execTripStretchEnd {μ : Mask} [Hidden μ.nvs] [Hidden μ.afe] [Hidden μ.pq] (n : Nat) (s : State) :
    kept μ (hide μ s) (execTripStretchEnd n s) := by
  unfold execTripStretchEnd
  (try dsimp -proj only)
  first
  | (simp [↓hide_with, ↓hide_with_pin, hide_foldl]; done)
  | ((repeat' split) <;> simp [↓hide_with, ↓hide_with_pin, hide_foldl])

@[simp ↓] theorem hide_execTripConfigApply {μ : Mask} [Hidden μ.nvs] [Hidden μ.afe] [Hidden μ.pq] (s : State) :
    kept μ (hide μ s) (execTripConfigApply s) := by
  unfold execTripConfigApply
  (try dsimp -proj only)
  first
  | (simp [↓hide_with, ↓hide_with_pin, hide_foldl]; done)
  | ((repeat' split) <;> simp [↓hide_with, ↓hide_with_pin, hide_foldl])

@[simp ↓] theorem hide_tripClear {μ : Mask} [Hidden μ.nvs] [Hidden μ.afe] [Hidden μ.pq] (mask : W16) (s : State) :
    hide μ (tripClear mask s) = hide μ s := by
  unfold tripClear
  (try dsimp -proj only)
  first
  | (simp [↓hide_with, ↓hide_with_pin, hide_foldl]; done)
  | ((repeat' split) <;> simp [↓hide_with, ↓hide_with_pin, hide_foldl])

@[simp ↓] theorem hide_execTripClear {μ : Mask} [Hidden μ.out] [Hidden μ.hif] [Hidden μ.coil] [Hidden μ.nvs] [Hidden μ.afe] [Hidden μ.pq] (r : Req) (s : State) :
    kept μ (hide μ s) (execTripClear r s) := by
  unfold execTripClear
  (try dsimp -proj only)
  refine hide_ring0 _ _ _ _ _ ?_
  (try dsimp -proj only)
  first
  | (simp [↓hide_with, ↓hide_with_pin, hide_foldl]; done)
  | ((repeat' split) <;> simp [↓hide_with, ↓hide_with_pin, hide_foldl])

@[simp ↓] theorem hide_chanApply {μ : Mask} [Hidden μ.out] [Hidden μ.bootSt] [Hidden μ.cpx] [Hidden μ.flt] [Hidden μ.hif] [Hidden μ.coil] [Hidden μ.nvs] [Hidden μ.afe] [Hidden μ.dec] [Hidden μ.pnt] [Hidden μ.cal] (c : Nat) (s : State) :
    hide μ (chanApply c s) = hide μ s := by
  unfold chanApply
  (try dsimp -proj only)
  first
  | (simp [↓hide_with, ↓hide_with_pin, hide_foldl]; done)
  | ((repeat' split) <;> simp [↓hide_with, ↓hide_with_pin, hide_foldl])

@[simp ↓] theorem hide_execChannelConfigApply {μ : Mask} [Hidden μ.out] [Hidden μ.bootSt] [Hidden μ.cpx] [Hidden μ.flt] [Hidden μ.hif] [Hidden μ.coil] [Hidden μ.nvs] [Hidden μ.afe] [Hidden μ.dec] [Hidden μ.pnt] [Hidden μ.cal] (s : State) :
    kept μ (hide μ s) (execChannelConfigApply s) := by
  unfold execChannelConfigApply
  (try dsimp -proj only)
  first
  | (simp [↓hide_with, ↓hide_with_pin, hide_foldl]; done)
  | ((repeat' split) <;> simp [↓hide_with, ↓hide_with_pin, hide_foldl])

@[simp ↓] theorem hide_execChanCalEffect {μ : Mask} [Hidden μ.out] [Hidden μ.bootSt] [Hidden μ.cpx] [Hidden μ.flt] [Hidden μ.hif] [Hidden μ.coil] [Hidden μ.nvs] [Hidden μ.afe] [Hidden μ.dec] [Hidden μ.pnt] [Hidden μ.cal] (c : Nat) (s : State) :
    kept μ (hide μ s) (execChanCalEffect c s) := by
  unfold execChanCalEffect
  (try dsimp -proj only)
  first
  | (simp [↓hide_with, ↓hide_with_pin, hide_foldl]; done)
  | ((repeat' split) <;> simp [↓hide_with, ↓hide_with_pin, hide_foldl])

end Sys2Proof.Laws
end

