-- ==== Sys2Proof/Laws/FootHif.lean ====
section
/-!
SUPPORT. What the operations of Machine/Hif.lean leave unchanged.
-/
set_option linter.unusedSimpArgs false
set_option linter.unusedTactic false
set_option linter.unreachableTactic false
namespace Sys2Proof.Laws
open Sys2Proof.Machine

@[simp ↓] theorem hide_cfgRefuse {μ : Mask} [Hidden μ.out] [Hidden μ.bootSt] [Hidden μ.cpx] [Hidden μ.flt] [Hidden μ.hif] [Hidden μ.coil] [Hidden μ.nvs] (n : Nat) (s : State) :
    hide μ (cfgRefuse n s) = hide μ s := by
  unfold cfgRefuse
  (try dsimp -proj only)
  first
  | (simp [↓hide_with, ↓hide_with_pin, hide_foldl]; done)
  | ((repeat' split) <;> simp [↓hide_with, ↓hide_with_pin, hide_foldl])

@[simp ↓] theorem hide_enableRing {μ : Mask} [Hidden μ.out] [Hidden μ.hif] (n : Nat) (v : W32) (s : State) :
    hide μ (enableRing n v s) = hide μ s := by
  unfold enableRing
  (try dsimp -proj only)
  first
  | (simp [↓hide_with, ↓hide_with_pin, hide_foldl]; done)
  | ((repeat' split) <;> simp [↓hide_with, ↓hide_with_pin, hide_foldl])

@[simp ↓] theorem hide_rcfgWrite {μ : Mask} [Hidden μ.out] [Hidden μ.bootSt] [Hidden μ.cpx] [Hidden μ.flt] [Hidden μ.hif] [Hidden μ.coil] [Hidden μ.nvs] (v : W32) (s : State) :
    hide μ (rcfgWrite v s) = hide μ s := by
  unfold rcfgWrite
  (try dsimp -proj only)
  first
  | (simp [↓hide_with, ↓hide_with_pin, hide_foldl]; done)
  | ((repeat' split) <;> simp [↓hide_with, ↓hide_with_pin, hide_foldl])

@[simp ↓] theorem hide_execRingEnable {μ : Mask} [Hidden μ.out] [Hidden μ.bootSt] [Hidden μ.cpx] [Hidden μ.flt] [Hidden μ.hif] [Hidden μ.coil] [Hidden μ.nvs] (v : W32) (s : State) :
    kept μ (hide μ s) (execRingEnable v s) := by
  unfold execRingEnable
  (try dsimp -proj only)
  first
  | (simp [↓hide_with, ↓hide_with_pin, hide_foldl]; done)
  | ((repeat' split) <;> simp [↓hide_with, ↓hide_with_pin, hide_foldl])

@[simp ↓] theorem hide_execRingDisable {μ : Mask} [Hidden μ.out] [Hidden μ.bootSt] [Hidden μ.cpx] [Hidden μ.flt] [Hidden μ.hif] [Hidden μ.coil] [Hidden μ.nvs] (v : W32) (s : State) :
    kept μ (hide μ s) (execRingDisable v s) := by
  unfold execRingDisable
  (try dsimp -proj only)
  first
  | (simp [↓hide_with, ↓hide_with_pin, hide_foldl]; done)
  | ((repeat' split) <;> simp [↓hide_with, ↓hide_with_pin, hide_foldl])

@[simp ↓] theorem hide_execRingCfgWrite {μ : Mask} [Hidden μ.out] [Hidden μ.bootSt] [Hidden μ.cpx] [Hidden μ.flt] [Hidden μ.hif] [Hidden μ.coil] [Hidden μ.nvs] (v : W32) (s : State) :
    kept μ (hide μ s) (execRingCfgWrite v s) := by
  unfold execRingCfgWrite
  (try dsimp -proj only)
  first
  | (simp [↓hide_with, ↓hide_with_pin, hide_foldl]; done)
  | ((repeat' split) <;> simp [↓hide_with, ↓hide_with_pin, hide_foldl])

@[simp ↓] theorem hide_execDoorbellWrite {μ : Mask} [Hidden μ.out] [Hidden μ.bootSt] [Hidden μ.cpx] [Hidden μ.flt] [Hidden μ.hif] [Hidden μ.coil] [Hidden μ.nvs] (n : Nat) (t : W32) (s : State) :
    kept μ (hide μ s) (execDoorbellWrite n t s) := by
  unfold execDoorbellWrite
  (try dsimp -proj only)
  first
  | (simp [↓hide_with, ↓hide_with_pin, hide_foldl]; done)
  | ((repeat' split) <;> simp [↓hide_with, ↓hide_with_pin, hide_foldl])

@[simp ↓] theorem hide_execDescriptorAccept {μ : Mask} [Hidden μ.hif] (n : Nat) (descs : List Desc) (s : State) :
    kept μ (hide μ s) (execDescriptorAccept n descs s) := by
  unfold execDescriptorAccept
  (try dsimp -proj only)
  first
  | (simp [↓hide_with, ↓hide_with_pin, hide_foldl]; done)
  | ((repeat' split) <;> simp [↓hide_with, ↓hide_with_pin, hide_foldl])

@[simp ↓] theorem hide_giveBlock {μ : Mask} [Hidden μ.hif] [Hidden μ.pq] (b : RxBuf) (k : Nat) (s : State) :
    hide μ (giveBlock b k s) = hide μ s := by
  unfold giveBlock
  (try dsimp -proj only)
  first
  | (simp [↓hide_with, ↓hide_with_pin, hide_foldl]; done)
  | ((repeat' split) <;> simp [↓hide_with, ↓hide_with_pin, hide_foldl])

@[simp ↓] theorem hide_streamStep {μ : Mask} [Hidden μ.hif] [Hidden μ.pq] (s : State) :
    hide μ (streamStep s) = hide μ s := by
  unfold streamStep
  (try dsimp -proj only)
  first
  | (simp [↓hide_with, ↓hide_with_pin, hide_foldl]; done)
  | ((repeat' split) <;> simp [↓hide_with, ↓hide_with_pin, hide_foldl])

@[simp ↓] theorem hide_execReceiveBufferComplete {μ : Mask} [Hidden μ.hif] [Hidden μ.pq] (n : Nat) (d : Desc) (s : State) :
    kept μ (hide μ s) (execReceiveBufferComplete n d s) := by
  unfold execReceiveBufferComplete
  (try dsimp -proj only)
  first
  | (simp [↓hide_with, ↓hide_with_pin, hide_foldl]; done)
  | ((repeat' split) <;> simp [↓hide_with, ↓hide_with_pin, hide_foldl])

@[simp ↓] theorem hide_execReceiveCoalesceExpiry {μ : Mask} [Hidden μ.hif] [Hidden μ.pq] (n : Nat) (s : State) :
    kept μ (hide μ s) (execReceiveCoalesceExpiry n s) := by
  unfold execReceiveCoalesceExpiry
  (try dsimp -proj only)
  first
  | (simp [↓hide_with, ↓hide_with_pin, hide_foldl]; done)
  | ((repeat' split) <;> simp [↓hide_with, ↓hide_with_pin, hide_foldl])

@[simp ↓] theorem hide_freeHolds {μ : Mask} [Hidden μ.out] [Hidden μ.hif] [Hidden μ.coil] (n : Nat) (s : State) :
    hide μ (freeHolds n s) = hide μ s := by
  unfold freeHolds
  (try dsimp -proj only)
  first
  | (simp [↓hide_with, ↓hide_with_pin, hide_foldl]; done)
  | ((repeat' split) <;> simp [↓hide_with, ↓hide_with_pin, hide_foldl])

@[simp ↓] theorem hide_pushResult {μ : Mask} [Hidden μ.out] [Hidden μ.bootSt] [Hidden μ.cpx] [Hidden μ.flt] [Hidden μ.hif] [Hidden μ.coil] [Hidden μ.nvs] (n : Nat) (seq : W32) (bytes : List Byte) (w : Waiter) (d : Done) (s : State) :
    hide μ (pushResult n seq bytes w d s) = hide μ s := by
  unfold pushResult
  (try dsimp -proj only)
  first
  | (simp [↓hide_with, ↓hide_with_pin, hide_foldl]; done)
  | ((repeat' split) <;> simp [↓hide_with, ↓hide_with_pin, hide_foldl])

@[simp ↓] theorem hide_delivered {μ : Mask} [Hidden μ.out] [Hidden μ.bootSt] [Hidden μ.cpx] [Hidden μ.whl] [Hidden μ.flt] [Hidden μ.hif] [Hidden μ.coil] [Hidden μ.nvs] [Hidden μ.pq] (n : Nat) (s : State) (q : QRec) : hide μ (delivered n s q) = hide μ s := by
  unfold delivered
  repeat' split
  all_goals simp [↓hide_with]

@[simp ↓] theorem hide_emitAcc {μ : Mask} [Hidden μ.out] (n : Nat) (s : State) (a : Machine.Acc) : hide μ (emitAcc n s a) = hide μ s := by
  unfold emitAcc
  split <;> simp

@[simp ↓] theorem hide_execCompletionWrite {μ : Mask} [Hidden μ.out] [Hidden μ.bootSt] [Hidden μ.cpx] [Hidden μ.whl] [Hidden μ.flt] [Hidden μ.hif] [Hidden μ.coil] [Hidden μ.nvs] [Hidden μ.pq] (n : Nat) (s : State) :
    kept μ (hide μ s) (execCompletionWrite n s) := by
  unfold execCompletionWrite
  (try dsimp -proj only)
  first
  | (simp [↓hide_with, ↓hide_with_pin, hide_foldl]; done)
  | ((repeat' split) <;> simp [↓hide_with, ↓hide_with_pin, hide_foldl])

@[simp ↓] theorem hide_execDmaReadError {μ : Mask} [Hidden μ.out] [Hidden μ.bootSt] [Hidden μ.cpx] [Hidden μ.flt] [Hidden μ.hif] [Hidden μ.coil] [Hidden μ.nvs] (n : Nat) (s : State) :
    kept μ (hide μ s) (execDmaReadError n s) := by
  unfold execDmaReadError
  (try dsimp -proj only)
  first
  | (simp [↓hide_with, ↓hide_with_pin, hide_foldl]; done)
  | ((repeat' split) <;> simp [↓hide_with, ↓hide_with_pin, hide_foldl])

@[simp ↓] theorem hide_orphanAll {μ : Mask} [Hidden μ.boot] [Hidden μ.hif] [Hidden μ.coil] [Hidden μ.nvs] [Hidden μ.rtc] [Hidden μ.cal] [Hidden μ.sgr] (s : State) :
    hide μ (orphanAll s) = hide μ s := by
  unfold orphanAll
  (try dsimp -proj only)
  first
  | (simp [↓hide_with, ↓hide_with_pin, hide_foldl]; done)
  | ((repeat' split) <;> simp [↓hide_with, ↓hide_with_pin, hide_foldl])

@[simp ↓] theorem hide_hifReset {μ : Mask} [Hidden μ.boot] [Hidden μ.hif] [Hidden μ.coil] [Hidden μ.nvs] [Hidden μ.rtc] [Hidden μ.cal] [Hidden μ.sgr] (s : State) :
    hide μ (hifReset s) = hide μ s := by
  unfold hifReset
  (try dsimp -proj only)
  first
  | (simp [↓hide_with, ↓hide_with_pin, hide_foldl]; done)
  | ((repeat' split) <;> simp [↓hide_with, ↓hide_with_pin, hide_foldl])

@[simp ↓] theorem hide_dropImage {μ : Mask} [Hidden μ.boot] (s : State) :
    hide μ (dropImage s) = hide μ s := by
  unfold dropImage
  (try dsimp -proj only)
  first
  | (simp [↓hide_with, ↓hide_with_pin, hide_foldl]; done)
  | ((repeat' split) <;> simp [↓hide_with, ↓hide_with_pin, hide_foldl])

@[simp ↓] theorem hide_dropTransfer {μ : Mask} [Hidden μ.boot] (s : State) :
    hide μ (dropTransfer s) = hide μ s := by
  unfold dropTransfer
  (try dsimp -proj only)
  first
  | (simp [↓hide_with, ↓hide_with_pin, hide_foldl]; done)
  | ((repeat' split) <;> simp [↓hide_with, ↓hide_with_pin, hide_foldl])

@[simp ↓] theorem hide_execLinkTrained {μ : Mask} [Hidden μ.hif] (speed5 : Bool) (s : State) :
    kept μ (hide μ s) (execLinkTrained speed5 s) := by
  unfold execLinkTrained
  (try dsimp -proj only)
  first
  | (simp [↓hide_with, ↓hide_with_pin, hide_foldl]; done)
  | ((repeat' split) <;> simp [↓hide_with, ↓hide_with_pin, hide_foldl])

@[simp ↓] theorem hide_execPerstAssert {μ : Mask} [Hidden μ.boot] [Hidden μ.hif] [Hidden μ.coil] [Hidden μ.nvs] [Hidden μ.rtc] [Hidden μ.cal] [Hidden μ.sgr] (s : State) :
    kept μ (hide μ s) (execPerstAssert s) := by
  unfold execPerstAssert
  (try dsimp -proj only)
  first
  | (simp [↓hide_with, ↓hide_with_pin, hide_foldl]; done)
  | ((repeat' split) <;> simp [↓hide_with, ↓hide_with_pin, hide_foldl])

@[simp ↓] theorem hide_execLinkDown {μ : Mask} [Hidden μ.out] [Hidden μ.boot] [Hidden μ.bootSt] [Hidden μ.cpx] [Hidden μ.flt] [Hidden μ.hif] [Hidden μ.coil] [Hidden μ.nvs] [Hidden μ.rtc] [Hidden μ.cal] [Hidden μ.sgr] (s : State) :
    kept μ (hide μ s) (execLinkDown s) := by
  unfold execLinkDown
  (try dsimp -proj only)
  first
  | (simp [↓hide_with, ↓hide_with_pin, hide_foldl]; done)
  | ((repeat' split) <;> simp [↓hide_with, ↓hide_with_pin, hide_foldl])

@[simp ↓] theorem hide_execD3hotEnter {μ : Mask} [Hidden μ.hif] (s : State) :
    kept μ (hide μ s) (execD3hotEnter s) := by
  unfold execD3hotEnter
  (try dsimp -proj only)
  first
  | (simp [↓hide_with, ↓hide_with_pin, hide_foldl]; done)
  | ((repeat' split) <;> simp [↓hide_with, ↓hide_with_pin, hide_foldl])

@[simp ↓] theorem hide_sendPending {μ : Mask} [Hidden μ.out] [Hidden μ.hif] (s : State) :
    hide μ (sendPending s) = hide μ s := by
  unfold sendPending
  (try dsimp -proj only)
  first
  | (simp [↓hide_with, ↓hide_with_pin, hide_foldl]; done)
  | ((repeat' split) <;> simp [↓hide_with, ↓hide_with_pin, hide_foldl])

@[simp ↓] theorem hide_execD0Return {μ : Mask} [Hidden μ.out] [Hidden μ.hif] (s : State) :
    kept μ (hide μ s) (execD0Return s) := by
  unfold execD0Return
  (try dsimp -proj only)
  first
  | (simp [↓hide_with, ↓hide_with_pin, hide_foldl]; done)
  | ((repeat' split) <;> simp [↓hide_with, ↓hide_with_pin, hide_foldl])

@[simp ↓] theorem hide_execConfigurationRequest {μ : Mask} [Hidden μ.out] [Hidden μ.hif] (msix intDis : Bool) (s : State) :
    kept μ (hide μ s) (execConfigurationRequest msix intDis s) := by
  unfold execConfigurationRequest
  (try dsimp -proj only)
  first
  | (simp [↓hide_with, ↓hide_with_pin, hide_foldl]; done)
  | ((repeat' split) <;> simp [↓hide_with, ↓hide_with_pin, hide_foldl])

theorem hide_dropFwd {μ : Mask} [Hidden μ.hif] (ring : Nat) (slot : W32) (s : State) (x : Fwd × State) (h : dropFwd ring slot s = some x) :
    hide μ x.2 = hide μ s := by
  unfold dropFwd at h
  split at h
  · cases h
  · cases h; simp [↓hide_with]

@[simp ↓] theorem hide_execLogReplay {μ : Mask} [Hidden μ.out] [Hidden μ.bootSt] [Hidden μ.cpx] [Hidden μ.flt] [Hidden μ.hif] [Hidden μ.coil] [Hidden μ.nvs] (r : Req) (s : State) : kept μ (hide μ s) (execLogReplay r s) := by
  unfold execLogReplay
  refine hide_ring0 _ _ _ _ _ ?_
  (try dsimp -proj only)
  split
  · simp
  · rw [ansState_done]
    refine hide_foldl (fun t i => ?_) _ _
    (try dsimp -proj only)
    split <;> simp

@[simp ↓] theorem hide_execSnapReplay {μ : Mask} [Hidden μ.out] [Hidden μ.bootSt] [Hidden μ.cpx] [Hidden μ.flt] [Hidden μ.hif] [Hidden μ.coil] [Hidden μ.nvs] (r : Req) (s : State) : kept μ (hide μ s) (execSnapReplay r s) := by
  unfold execSnapReplay
  refine hide_ring0 _ _ _ _ _ ?_
  (try dsimp -proj only)
  split
  · simp
  · rw [ansState_done]
    refine hide_foldl (fun t p => ?_) _ _
    refine hide_foldl (fun u x => ?_) _ _
    simp

@[simp ↓] theorem hide_execStreamBuf {μ : Mask} [Hidden μ.out] [Hidden μ.hif] [Hidden μ.coil] [Hidden μ.pq] (r : Req) (s : State) :
    kept μ (hide μ s) (execStreamBuf r s) := by
  unfold execStreamBuf
  (try dsimp -proj only)
  first
  | (simp [↓hide_with, ↓hide_with_pin, hide_foldl]; done)
  | ((repeat' split) <;> simp [↓hide_with, ↓hide_with_pin, hide_foldl])

end Sys2Proof.Laws
end

