-- ==== Sys2Proof/Laws/FootCoil.lean ====
section
/-!
SUPPORT. What the operations of Machine/Coil.lean leave unchanged.
-/
set_option linter.unusedSimpArgs false
set_option linter.unusedTactic false
set_option linter.unreachableTactic false
namespace Sys2Proof.Laws
open Sys2Proof.Machine

@[simp ↓] theorem hide_countCrc {μ : Mask} [Hidden μ.coil] (s : State) :
    hide μ (countCrc s) = hide μ s := by
  unfold countCrc
  (try dsimp -proj only)
  first
  | (simp [↓hide_with, ↓hide_with_pin, hide_foldl]; done)
  | ((repeat' split) <;> simp [↓hide_with, ↓hide_with_pin, hide_foldl])

@[simp ↓] theorem hide_rejectTag {μ : Mask} [Hidden μ.out] [Hidden μ.bootSt] [Hidden μ.cpx] [Hidden μ.flt] [Hidden μ.hif] [Hidden μ.coil] [Hidden μ.nvs] (s : State) :
    hide μ (rejectTag s) = hide μ s := by
  unfold rejectTag
  (try dsimp -proj only)
  first
  | (simp [↓hide_with, ↓hide_with_pin, hide_foldl]; done)
  | ((repeat' split) <;> simp [↓hide_with, ↓hide_with_pin, hide_foldl])

@[simp ↓] theorem hide_rejectReplay {μ : Mask} [Hidden μ.out] [Hidden μ.bootSt] [Hidden μ.cpx] [Hidden μ.flt] [Hidden μ.hif] [Hidden μ.coil] [Hidden μ.nvs] (s : State) :
    hide μ (rejectReplay s) = hide μ s := by
  unfold rejectReplay
  (try dsimp -proj only)
  first
  | (simp [↓hide_with, ↓hide_with_pin, hide_foldl]; done)
  | ((repeat' split) <;> simp [↓hide_with, ↓hide_with_pin, hide_foldl])

@[simp ↓] theorem hide_useDown {μ : Mask} [Hidden μ.coil] (s : State) :
    hide μ (useDown s) = hide μ s := by
  unfold useDown
  (try dsimp -proj only)
  first
  | (simp [↓hide_with, ↓hide_with_pin, hide_foldl]; done)
  | ((repeat' split) <;> simp [↓hide_with, ↓hide_with_pin, hide_foldl])

@[simp ↓] theorem hide_workerAuth {μ : Mask} [Hidden μ.out] [Hidden μ.bootSt] [Hidden μ.cpx] [Hidden μ.flt] [Hidden μ.hif] [Hidden μ.coil] [Hidden μ.nvs] (cls typ : Nat) (f : Frame) (k : State → State) (s : State)
    (h : ∀ t, hide μ (k t) = hide μ t) : hide μ (workerAuth cls typ f k s) = hide μ s := by
  unfold workerAuth
  (try dsimp -proj only)
  repeat' split
  all_goals simp [h, ↓hide_with]

@[simp ↓] theorem hide_managerAuth {μ : Mask} [Hidden μ.out] [Hidden μ.bootSt] [Hidden μ.cpx] [Hidden μ.flt] [Hidden μ.hif] [Hidden μ.coil] [Hidden μ.nvs] (cls typ : Nat) (f : Frame) (k : State → State) (s : State)
    (h : ∀ t, hide μ (k t) = hide μ t) : hide μ (managerAuth cls typ f k s) = hide μ s := by
  unfold managerAuth
  (try dsimp -proj only)
  repeat' split
  all_goals simp [h, ↓hide_with]

@[simp ↓] theorem hide_execFrameDiscard {μ : Mask} [Hidden μ.out] [Hidden μ.bootSt] [Hidden μ.cpx] [Hidden μ.flt] [Hidden μ.hif] [Hidden μ.coil] [Hidden μ.nvs] (f : Frame) (s : State) :
    kept μ (hide μ s) (execFrameDiscard f s) := by
  unfold execFrameDiscard
  (try dsimp -proj only)
  first
  | (simp [↓hide_with, ↓hide_with_pin, hide_foldl]; done)
  | ((repeat' split) <;> simp [↓hide_with, ↓hide_with_pin, hide_foldl])

@[simp ↓] theorem hide_needChal {μ : Mask} [Hidden μ.free] [Hidden μ.coil] [Hidden μ.sgr] (s : State) :
    hide μ (needChal s) = hide μ s := by
  unfold needChal
  (try dsimp -proj only)
  first
  | (simp [↓hide_with, ↓hide_with_pin, hide_foldl]; done)
  | ((repeat' split) <;> simp [↓hide_with, ↓hide_with_pin, hide_foldl])

@[simp ↓] theorem hide_sendHello {μ : Mask} [Hidden μ.free] [Hidden μ.out] [Hidden μ.coil] [Hidden μ.sgr] (port : Nat) (cw ccw : Byte) (s : State) :
    hide μ (sendHello port cw ccw s) = hide μ s := by
  unfold sendHello
  (try dsimp -proj only)
  first
  | (simp [↓hide_with, ↓hide_with_pin, hide_foldl]; done)
  | ((repeat' split) <;> simp [↓hide_with, ↓hide_with_pin, hide_foldl])

@[simp ↓] theorem hide_helloAll {μ : Mask} [Hidden μ.free] [Hidden μ.out] [Hidden μ.coil] [Hidden μ.sgr] (s : State) :
    hide μ (helloAll s) = hide μ s := by
  unfold helloAll
  (try dsimp -proj only)
  first
  | (simp [↓hide_with, ↓hide_with_pin, hide_foldl]; done)
  | ((repeat' split) <;> simp [↓hide_with, ↓hide_with_pin, hide_foldl])

@[simp ↓] theorem hide_execHelloTimer {μ : Mask} [Hidden μ.free] [Hidden μ.out] [Hidden μ.coil] [Hidden μ.sgr] (s : State) :
    kept μ (hide μ s) (execHelloTimer s) := by
  unfold execHelloTimer
  (try dsimp -proj only)
  first
  | (simp [↓hide_with, ↓hide_with_pin, hide_foldl]; done)
  | ((repeat' split) <;> simp [↓hide_with, ↓hide_with_pin, hide_foldl])

@[simp ↓] theorem hide_setDown {μ : Mask} [Hidden μ.coil] (k : Nat) (down : List Nat) (s : State) :
    hide μ (setDown k down s) = hide μ s := by
  unfold setDown
  (try dsimp -proj only)
  first
  | (simp [↓hide_with, ↓hide_with_pin, hide_foldl]; done)
  | ((repeat' split) <;> simp [↓hide_with, ↓hide_with_pin, hide_foldl])

@[simp ↓] theorem hide_ringBreak {μ : Mask} [Hidden μ.out] [Hidden μ.bootSt] [Hidden μ.cpx] [Hidden μ.flt] [Hidden μ.hif] [Hidden μ.coil] [Hidden μ.nvs] (k p : Nat) (s : State) :
    hide μ (ringBreak k p s) = hide μ s := by
  unfold ringBreak
  (try dsimp -proj only)
  first
  | (simp [↓hide_with, ↓hide_with_pin, hide_foldl]; done)
  | ((repeat' split) <;> simp [↓hide_with, ↓hide_with_pin, hide_foldl])

@[simp ↓] theorem hide_portDown {μ : Mask} [Hidden μ.coil] (p : Nat) (f : Port → Port) (s : State) :
    hide μ (portDown p f s) = hide μ s := by
  unfold portDown
  (try dsimp -proj only)
  first
  | (simp [↓hide_with, ↓hide_with_pin, hide_foldl]; done)
  | ((repeat' split) <;> simp [↓hide_with, ↓hide_with_pin, hide_foldl])

@[simp ↓] theorem hide_execLinkSyncGain {μ : Mask} [Hidden μ.free] [Hidden μ.out] [Hidden μ.coil] [Hidden μ.sgr] (p : Nat) (s : State) :
    kept μ (hide μ s) (execLinkSyncGain p s) := by
  unfold execLinkSyncGain
  (try dsimp -proj only)
  first
  | (simp [↓hide_with, ↓hide_with_pin, hide_foldl]; done)
  | ((repeat' split) <;> simp [↓hide_with, ↓hide_with_pin, hide_foldl])

@[simp ↓] theorem hide_execLinkSyncLoss {μ : Mask} [Hidden μ.out] [Hidden μ.bootSt] [Hidden μ.cpx] [Hidden μ.flt] [Hidden μ.hif] [Hidden μ.coil] [Hidden μ.nvs] (p invalid : Nat) (s : State) :
    kept μ (hide μ s) (execLinkSyncLoss p invalid s) := by
  unfold execLinkSyncLoss
  (try dsimp -proj only)
  first
  | (simp [↓hide_with, ↓hide_with_pin, hide_foldl]; done)
  | ((repeat' split) <;> simp [↓hide_with, ↓hide_with_pin, hide_foldl])

@[simp ↓] theorem hide_execLfailReceive {μ : Mask} [Hidden μ.out] [Hidden μ.bootSt] [Hidden μ.cpx] [Hidden μ.flt] [Hidden μ.hif] [Hidden μ.coil] [Hidden μ.nvs] (p : Nat) (s : State) :
    kept μ (hide μ s) (execLfailReceive p s) := by
  unfold execLfailReceive
  (try dsimp -proj only)
  first
  | (simp [↓hide_with, ↓hide_with_pin, hide_foldl]; done)
  | ((repeat' split) <;> simp [↓hide_with, ↓hide_with_pin, hide_foldl])

@[simp ↓] theorem hide_ringHeal {μ : Mask} [Hidden μ.coil] [Hidden μ.nvs] (k p : Nat) (s : State) :
    hide μ (ringHeal k p s) = hide μ s := by
  unfold ringHeal
  (try dsimp -proj only)
  first
  | (simp [↓hide_with, ↓hide_with_pin, hide_foldl]; done)
  | ((repeat' split) <;> simp [↓hide_with, ↓hide_with_pin, hide_foldl])

@[simp ↓] theorem hide_execLinkHeal {μ : Mask} [Hidden μ.free] [Hidden μ.out] [Hidden μ.coil] [Hidden μ.nvs] [Hidden μ.sgr] (p : Nat) (s : State) :
    kept μ (hide μ s) (execLinkHeal p s) := by
  unfold execLinkHeal
  (try dsimp -proj only)
  first
  | (simp [↓hide_with, ↓hide_with_pin, hide_foldl]; done)
  | ((repeat' split) <;> simp [↓hide_with, ↓hide_with_pin, hide_foldl])

@[simp ↓] theorem hide_unwrapAll {μ : Mask} [Hidden μ.coil] (s : State) :
    hide μ (unwrapAll s) = hide μ s := by
  unfold unwrapAll
  (try dsimp -proj only)
  first
  | (simp [↓hide_with, ↓hide_with_pin, hide_foldl]; done)
  | ((repeat' split) <;> simp [↓hide_with, ↓hide_with_pin, hide_foldl])

@[simp ↓] theorem hide_execFrameForward {μ : Mask} [Hidden μ.out] [Hidden μ.coil] (f : Frame) (s : State) :
    kept μ (hide μ s) (execFrameForward f s) := by
  unfold execFrameForward
  (try dsimp -proj only)
  first
  | (simp [↓hide_with, ↓hide_with_pin, hide_foldl]; done)
  | ((repeat' split) <;> simp [↓hide_with, ↓hide_with_pin, hide_foldl])

@[simp ↓] theorem hide_startEnum {μ : Mask} [Hidden μ.out] [Hidden μ.coil] (k : Nat) (s : State) :
    hide μ (startEnum k s) = hide μ s := by
  unfold startEnum
  (try dsimp -proj only)
  first
  | (simp [↓hide_with, ↓hide_with_pin, hide_foldl]; done)
  | ((repeat' split) <;> simp [↓hide_with, ↓hide_with_pin, hide_foldl])

@[simp ↓] theorem hide_execEnumerationStart {μ : Mask} [Hidden μ.out] [Hidden μ.coil] (k : Nat) (s : State) :
    kept μ (hide μ s) (execEnumerationStart k s) := by
  unfold execEnumerationStart
  (try dsimp -proj only)
  first
  | (simp [↓hide_with, ↓hide_with_pin, hide_foldl]; done)
  | ((repeat' split) <;> simp [↓hide_with, ↓hide_with_pin, hide_foldl])

@[simp ↓] theorem hide_execEnumFrame {μ : Mask} [Hidden μ.free] [Hidden μ.out] [Hidden μ.coil] [Hidden μ.sgr] (f : Frame) (hop : Nat) (pathDelay : W32) (s : State) :
    kept μ (hide μ s) (execEnumFrame f hop pathDelay s) := by
  unfold execEnumFrame
  (try dsimp -proj only)
  first
  | (simp [↓hide_with, ↓hide_with_pin, hide_foldl]; done)
  | ((repeat' split) <;> simp [↓hide_with, ↓hide_with_pin, hide_foldl])

@[simp ↓] theorem hide_deriveKeys {μ : Mask} [Hidden μ.free] [Hidden μ.sgr] (k pos : Nat) (ident : W64) (s : State) :
    hide μ (deriveKeys k pos ident s) = hide μ s := by
  unfold deriveKeys
  (try dsimp -proj only)
  first
  | (simp [↓hide_with, ↓hide_with_pin, hide_foldl]; done)
  | ((repeat' split) <;> simp [↓hide_with, ↓hide_with_pin, hide_foldl])

@[simp ↓] theorem hide_mapHello {μ : Mask} [Hidden μ.free] [Hidden μ.out] [Hidden μ.bootSt] [Hidden μ.cpx] [Hidden μ.flt] [Hidden μ.hif] [Hidden μ.coil] [Hidden μ.nvs] [Hidden μ.sgr] (k : Nat) (h : Hello) (s : State) :
    hide μ (mapHello k h s) = hide μ s := by
  unfold mapHello
  (try dsimp -proj only)
  first
  | (simp [↓hide_with, ↓hide_with_pin, hide_foldl]; done)
  | ((repeat' split) <;> simp [↓hide_with, ↓hide_with_pin, hide_foldl])

@[simp ↓] theorem hide_broadcast {μ : Mask} [Hidden μ.out] [Hidden μ.coil] (k : Nat) (s : State) :
    hide μ (broadcast k s) = hide μ s := by
  unfold broadcast
  (try dsimp -proj only)
  first
  | (simp [↓hide_with, ↓hide_with_pin, hide_foldl]; done)
  | ((repeat' split) <;> simp [↓hide_with, ↓hide_with_pin, hide_foldl])

@[simp ↓] theorem hide_execHelloFrame {μ : Mask} [Hidden μ.free] [Hidden μ.out] [Hidden μ.bootSt] [Hidden μ.cpx] [Hidden μ.flt] [Hidden μ.hif] [Hidden μ.coil] [Hidden μ.nvs] [Hidden μ.sgr] (f : Frame) (h : Hello) (s : State) :
    kept μ (hide μ s) (execHelloFrame f h s) := by
  unfold execHelloFrame
  (try dsimp -proj only)
  first
  | (simp [↓hide_with, ↓hide_with_pin, hide_foldl]; done)
  | ((repeat' split) <;> simp [↓hide_with, ↓hide_with_pin, hide_foldl])

@[simp ↓] theorem hide_leaveEnum {μ : Mask} [Hidden μ.out] [Hidden μ.hif] [Hidden μ.coil] [Hidden μ.pq] (k pos : Nat) (s : State) :
    hide μ (leaveEnum k pos s) = hide μ s := by
  unfold leaveEnum
  (try dsimp -proj only)
  first
  | (simp [↓hide_with, ↓hide_with_pin, hide_foldl]; done)
  | ((repeat' split) <;> simp [↓hide_with, ↓hide_with_pin, hide_foldl])

@[simp ↓] theorem hide_settleEnt {μ : Mask} [Hidden μ.out] [Hidden μ.hif] [Hidden μ.coil] [Hidden μ.pq] (k : Nat) (s : State) (p : Nat × W64) :
    hide μ (settleEnt k s p) = hide μ s := by
  unfold settleEnt
  (try dsimp -proj only)
  first
  | (simp [↓hide_with, ↓hide_with_pin, hide_foldl]; done)
  | ((repeat' split) <;> simp [↓hide_with, ↓hide_with_pin, hide_foldl])

@[simp ↓] theorem hide_admitSub {μ : Mask} [Hidden μ.out] [Hidden μ.hif] [Hidden μ.coil] [Hidden μ.nvs] [Hidden μ.pq] (k : Nat) (s : State) (x : Nat × Nat × SubEnt) :
    hide μ (admitSub k s x) = hide μ s := by
  unfold admitSub
  (try dsimp -proj only)
  first
  | (simp [↓hide_with, ↓hide_with_pin, hide_foldl]; done)
  | ((repeat' split) <;> simp [↓hide_with, ↓hide_with_pin, hide_foldl])

@[simp ↓] theorem hide_admitRing {μ : Mask} [Hidden μ.out] [Hidden μ.hif] [Hidden μ.coil] [Hidden μ.nvs] [Hidden μ.pq] (k : Nat) (ps : List Nat) (s : State) :
    hide μ (admitRing k ps s) = hide μ s := by
  unfold admitRing
  (try dsimp -proj only)
  first
  | (simp [↓hide_with, ↓hide_with_pin, hide_foldl]; done)
  | ((repeat' split) <;> simp [↓hide_with, ↓hide_with_pin, hide_foldl])

@[simp ↓] theorem hide_execEnumerationEnd {μ : Mask} [Hidden μ.out] [Hidden μ.bootSt] [Hidden μ.cpx] [Hidden μ.flt] [Hidden μ.hif] [Hidden μ.coil] [Hidden μ.nvs] [Hidden μ.pq] (k : Nat) (s : State) :
    kept μ (hide μ s) (execEnumerationEnd k s) := by
  unfold execEnumerationEnd
  (try dsimp -proj only)
  first
  | (simp [↓hide_with, ↓hide_with_pin, hide_foldl]; done)
  | ((repeat' split) <;> simp [↓hide_with, ↓hide_with_pin, hide_foldl])

@[simp ↓] theorem hide_sendStatus {μ : Mask} [Hidden μ.out] [Hidden μ.coil] (challenge : List Byte) (s : State) :
    hide μ (sendStatus challenge s) = hide μ s := by
  unfold sendStatus
  (try dsimp -proj only)
  first
  | (simp [↓hide_with, ↓hide_with_pin, hide_foldl]; done)
  | ((repeat' split) <;> simp [↓hide_with, ↓hide_with_pin, hide_foldl])

@[simp ↓] theorem hide_execAssignFrame {μ : Mask} [Hidden μ.out] [Hidden μ.bootSt] [Hidden μ.cpx] [Hidden μ.flt] [Hidden μ.hif] [Hidden μ.coil] [Hidden μ.nvs] (f : Frame) (a : Assign) (s : State) :
    kept μ (hide μ s) (execAssignFrame f a s) := by
  unfold execAssignFrame
  (try dsimp -proj only)
  first
  | (simp [↓hide_with, ↓hide_with_pin, hide_foldl]; done)
  | ((repeat' split) <;> simp [↓hide_with, ↓hide_with_pin, hide_foldl])

@[simp ↓] theorem hide_ownCommand {μ : Mask} [Hidden μ.out] [Hidden μ.hif] [Hidden μ.coil] (k pos : Nat) (op : Byte) (buf : List Byte) (s : State) :
    hide μ (ownCommand k pos op buf s) = hide μ s := by
  unfold ownCommand
  (try dsimp -proj only)
  first
  | (simp [↓hide_with, ↓hide_with_pin, hide_foldl]; done)
  | ((repeat' split) <;> simp [↓hide_with, ↓hide_with_pin, hide_foldl])

@[simp ↓] theorem hide_timeStep {μ : Mask} [Hidden μ.out] [Hidden μ.bootSt] [Hidden μ.cpx] [Hidden μ.flt] [Hidden μ.hif] [Hidden μ.coil] [Hidden μ.nvs] (k pos : Nat) (rec_ : List Byte) (step : Int) (s : State) :
    hide μ (timeStep k pos rec_ step s) = hide μ s := by
  unfold timeStep
  (try dsimp -proj only)
  first
  | (simp [↓hide_with, ↓hide_with_pin, hide_foldl]; done)
  | ((repeat' split) <;> simp [↓hide_with, ↓hide_with_pin, hide_foldl])

@[simp ↓] theorem hide_discipline {μ : Mask} [Hidden μ.out] [Hidden μ.bootSt] [Hidden μ.cpx] [Hidden μ.flt] [Hidden μ.hif] [Hidden μ.coil] [Hidden μ.nvs] (k pos : Nat) (st : WStatus) (s : State) :
    hide μ (discipline k pos st s) = hide μ s := by
  unfold discipline
  (try dsimp -proj only)
  first
  | (simp [↓hide_with, ↓hide_with_pin, hide_foldl]; done)
  | ((repeat' split) <;> simp [↓hide_with, ↓hide_with_pin, hide_foldl])

@[simp ↓] theorem hide_workerEvent {μ : Mask} [Hidden μ.nvs] (k pos : Nat) (st : BitVec 3) (s : State) :
    hide μ (workerEvent k pos st s) = hide μ s := by
  unfold workerEvent
  (try dsimp -proj only)
  first
  | (simp [↓hide_with, ↓hide_with_pin, hide_foldl]; done)
  | ((repeat' split) <;> simp [↓hide_with, ↓hide_with_pin, hide_foldl])

@[simp ↓] theorem hide_takeStatus {μ : Mask} [Hidden μ.out] [Hidden μ.bootSt] [Hidden μ.cpx] [Hidden μ.flt] [Hidden μ.hif] [Hidden μ.coil] [Hidden μ.nvs] [Hidden μ.pq] (k pos : Nat) (fresh : Bool) (st : WStatus) (s : State) :
    hide μ (takeStatus k pos fresh st s) = hide μ s := by
  unfold takeStatus
  (try dsimp -proj only)
  first
  | (simp [↓hide_with, ↓hide_with_pin, hide_foldl]; done)
  | ((repeat' split) <;> simp [↓hide_with, ↓hide_with_pin, hide_foldl])

@[simp ↓] theorem hide_execStatusFrame {μ : Mask} [Hidden μ.out] [Hidden μ.bootSt] [Hidden μ.cpx] [Hidden μ.flt] [Hidden μ.hif] [Hidden μ.coil] [Hidden μ.nvs] [Hidden μ.pq] (f : Frame) (st : WStatus) (s : State) :
    kept μ (hide μ s) (execStatusFrame f st s) := by
  unfold execStatusFrame
  (try dsimp -proj only)
  first
  | (simp [↓hide_with, ↓hide_with_pin, hide_foldl]; done)
  | ((repeat' split) <;> simp [↓hide_with, ↓hide_with_pin, hide_foldl])

@[simp ↓] theorem hide_execStatusSend {μ : Mask} [Hidden μ.out] [Hidden μ.coil] (s : State) :
    kept μ (hide μ s) (execStatusSend s) := by
  unfold execStatusSend
  (try dsimp -proj only)
  first
  | (simp [↓hide_with, ↓hide_with_pin, hide_foldl]; done)
  | ((repeat' split) <;> simp [↓hide_with, ↓hide_with_pin, hide_foldl])

@[simp ↓] theorem hide_execWorkerLost {μ : Mask} [Hidden μ.out] [Hidden μ.bootSt] [Hidden μ.cpx] [Hidden μ.flt] [Hidden μ.hif] [Hidden μ.coil] [Hidden μ.nvs] [Hidden μ.pq] (k pos : Nat) (s : State) :
    kept μ (hide μ s) (execWorkerLost k pos s) := by
  unfold execWorkerLost
  (try dsimp -proj only)
  first
  | (simp [↓hide_with, ↓hide_with_pin, hide_foldl]; done)
  | ((repeat' split) <;> simp [↓hide_with, ↓hide_with_pin, hide_foldl])

@[simp ↓] theorem hide_execDelayMeasureStart {μ : Mask} [Hidden μ.out] [Hidden μ.coil] (p : Nat) (t1 : W64) (s : State) :
    kept μ (hide μ s) (execDelayMeasureStart p t1 s) := by
  unfold execDelayMeasureStart
  (try dsimp -proj only)
  first
  | (simp [↓hide_with, ↓hide_with_pin, hide_foldl]; done)
  | ((repeat' split) <;> simp [↓hide_with, ↓hide_with_pin, hide_foldl])

@[simp ↓] theorem hide_execDelayReq {μ : Mask} [Hidden μ.out] [Hidden μ.coil] (f : Frame) (_t2 : W64) (s : State) :
    kept μ (hide μ s) (execDelayReq f _t2 s) := by
  unfold execDelayReq
  (try dsimp -proj only)
  first
  | (simp [↓hide_with, ↓hide_with_pin, hide_foldl]; done)
  | ((repeat' split) <;> simp [↓hide_with, ↓hide_with_pin, hide_foldl])

@[simp ↓] theorem hide_execDelayResp {μ : Mask} [Hidden μ.coil] (f : Frame) (turnaround t4 : W64) (s : State) :
    kept μ (hide μ s) (execDelayResp f turnaround t4 s) := by
  unfold execDelayResp
  (try dsimp -proj only)
  first
  | (simp [↓hide_with, ↓hide_with_pin, hide_foldl]; done)
  | ((repeat' split) <;> simp [↓hide_with, ↓hide_with_pin, hide_foldl])

@[simp ↓] theorem hide_emitBeacon {μ : Mask} [Hidden μ.out] [Hidden μ.whl] [Hidden μ.coil] (s : State) :
    hide μ (emitBeacon s) = hide μ s := by
  unfold emitBeacon
  (try dsimp -proj only)
  first
  | (simp [↓hide_with, ↓hide_with_pin, hide_foldl]; done)
  | ((repeat' split) <;> simp [↓hide_with, ↓hide_with_pin, hide_foldl])

@[simp ↓] theorem hide_beaconLoss {μ : Mask} [Hidden μ.out] [Hidden μ.bootSt] [Hidden μ.cpx] [Hidden μ.whl] [Hidden μ.flt] [Hidden μ.hif] [Hidden μ.coil] [Hidden μ.nvs] (s : State) :
    hide μ (beaconLoss s) = hide μ s := by
  unfold beaconLoss
  (try dsimp -proj only)
  first
  | (simp [↓hide_with, ↓hide_with_pin, hide_foldl]; done)
  | ((repeat' split) <;> simp [↓hide_with, ↓hide_with_pin, hide_foldl])

@[simp ↓] theorem hide_execBeaconLost {μ : Mask} [Hidden μ.out] [Hidden μ.bootSt] [Hidden μ.cpx] [Hidden μ.whl] [Hidden μ.flt] [Hidden μ.hif] [Hidden μ.coil] [Hidden μ.nvs] (flagged : Bool) (s : State) :
    kept μ (hide μ s) (execBeaconLost flagged s) := by
  unfold execBeaconLost
  (try dsimp -proj only)
  first
  | (simp [↓hide_with, ↓hide_with_pin, hide_foldl]; done)
  | ((repeat' split) <;> simp [↓hide_with, ↓hide_with_pin, hide_foldl])

@[simp ↓] theorem hide_beaconWheel {μ : Mask} [Hidden μ.out] [Hidden μ.bootSt] [Hidden μ.cpx] [Hidden μ.whl] [Hidden μ.flt] [Hidden μ.hif] [Hidden μ.coil] [Hidden μ.nvs] (b : Beacon) (d : Nat) (s : State) :
    hide μ (beaconWheel b d s) = hide μ s := by
  unfold beaconWheel
  (try dsimp -proj only)
  first
  | (simp [↓hide_with, ↓hide_with_pin, hide_foldl]; done)
  | ((repeat' split) <;> simp [↓hide_with, ↓hide_with_pin, hide_foldl])

@[simp ↓] theorem hide_execBeaconReceive {μ : Mask} [Hidden μ.out] [Hidden μ.bootSt] [Hidden μ.cpx] [Hidden μ.whl] [Hidden μ.flt] [Hidden μ.hif] [Hidden μ.coil] [Hidden μ.nvs] (b : Beacon) (s : State) :
    kept μ (hide μ s) (execBeaconReceive b s) := by
  unfold execBeaconReceive
  (try dsimp -proj only)
  first
  | (simp [↓hide_with, ↓hide_with_pin, hide_foldl]; done)
  | ((repeat' split) <;> simp [↓hide_with, ↓hide_with_pin, hide_foldl])

@[simp ↓] theorem hide_ring13 {μ : Mask} [Hidden μ.out] [Hidden μ.hif] [Hidden μ.coil] (op : Byte) (lenOk : Nat → Bool) (bad : List Byte → Bool) (r : Req) (s : State)
    (body : Waiter → State → Ans) (h : hide μ (ansState (body (reqWaiter r 13 op) s)) = hide μ s) :
    kept μ (hide μ s) (ring13 op lenOk bad r s body) := by
  unfold ring13
  dsimp only
  repeat' split
  all_goals simp [h]

@[simp ↓] theorem hide_ringApply {μ : Mask} [Hidden μ.out] [Hidden μ.hif] [Hidden μ.coil] [Hidden μ.pq] (k : Nat) (cfg : W32) (renum : Bool) (s : State) :
    hide μ (ringApply k cfg renum s) = hide μ s := by
  unfold ringApply
  (try dsimp -proj only)
  first
  | (simp [↓hide_with, ↓hide_with_pin, hide_foldl]; done)
  | ((repeat' split) <;> simp [↓hide_with, ↓hide_with_pin, hide_foldl])

@[simp ↓] theorem hide_execRingSet {μ : Mask} [Hidden μ.out] [Hidden μ.bootSt] [Hidden μ.cpx] [Hidden μ.flt] [Hidden μ.hif] [Hidden μ.coil] [Hidden μ.nvs] [Hidden μ.pq] (r : Req) (s : State) :
    kept μ (hide μ s) (execRingSet r s) := by
  unfold execRingSet
  (try dsimp -proj only)
  refine hide_ring13 _ _ _ _ _ _ ?_
  (try dsimp -proj only)
  first
  | (simp [↓hide_with, ↓hide_with_pin, hide_foldl]; done)
  | ((repeat' split) <;> simp [↓hide_with, ↓hide_with_pin, hide_foldl])

@[simp ↓] theorem hide_execRingInfo {μ : Mask} [Hidden μ.out] [Hidden μ.hif] [Hidden μ.coil] (r : Req) (s : State) :
    kept μ (hide μ s) (execRingInfo r s) := by
  unfold execRingInfo
  (try dsimp -proj only)
  refine hide_ring13 _ _ _ _ _ _ ?_
  (try dsimp -proj only)
  first
  | (simp [↓hide_with, ↓hide_with_pin, hide_foldl]; done)
  | ((repeat' split) <;> simp [↓hide_with, ↓hide_with_pin, hide_foldl])

@[simp ↓] theorem hide_execEnumerate {μ : Mask} [Hidden μ.out] [Hidden μ.hif] [Hidden μ.coil] (r : Req) (s : State) :
    kept μ (hide μ s) (execEnumerate r s) := by
  unfold execEnumerate
  (try dsimp -proj only)
  refine hide_ring13 _ _ _ _ _ _ ?_
  (try dsimp -proj only)
  first
  | (simp [↓hide_with, ↓hide_with_pin, hide_foldl]; done)
  | ((repeat' split) <;> simp [↓hide_with, ↓hide_with_pin, hide_foldl])

end Sys2Proof.Laws
end

