-- ==== Sys2Proof/Laws/FootCoilMsg.lean ====
section
/-!
SUPPORT. What the operations of Machine/CoilMsg.lean leave unchanged.
-/
set_option linter.unusedSimpArgs false
set_option linter.unusedTactic false
set_option linter.unreachableTactic false
namespace Sys2Proof.Laws
open Sys2Proof.Machine

theorem hide_sendReport {μ : Mask} [Hidden μ.out] [Hidden μ.coil] (s t : State) (h : sendReport s = some t) : hide μ t = hide μ s := by
  unfold sendReport at h
  dsimp -proj only at h
  split at h
  · cases h
  · cases h; simp [↓hide_with]

theorem hide_sendBulk {μ : Mask} [Hidden μ.out] [Hidden μ.bootSt] [Hidden μ.cpx] [Hidden μ.whl] [Hidden μ.flt] [Hidden μ.hif] [Hidden μ.coil] [Hidden μ.nvs] [Hidden μ.pq] (s t : State) (h : sendBulk s = some t) : hide μ t = hide μ s := by
  unfold sendBulk at h
  dsimp -proj only at h
  split at h
  · cases h
  · split at h
    · cases h
    · cases h
      split <;> simp [↓hide_with]

theorem hide_pumpLoop {μ : Mask} (send : State → Option State) (h : ∀ s t, send s = some t → hide μ t = hide μ s) (n : Nat) (s : State) :
    hide μ (pumpLoop send n s) = hide μ s := by
  induction n generalizing s with
  | zero => rfl
  | succ k ih =>
    rw [pumpLoop]
    split
    · rename_i t ht; rw [ih, h _ _ ht]
    · rfl

@[simp ↓] theorem hide_pump {μ : Mask} [Hidden μ.out] [Hidden μ.bootSt] [Hidden μ.cpx] [Hidden μ.whl] [Hidden μ.flt] [Hidden μ.hif] [Hidden μ.coil] [Hidden μ.nvs] [Hidden μ.pq] (s : State) : hide μ (pump s) = hide μ s := by
  unfold pump
  split
  · rfl
  · rw [hide_pumpLoop _ hide_sendBulk, hide_pumpLoop _ hide_sendReport]

@[simp ↓] theorem hide_execCreditFrame {μ : Mask} [Hidden μ.out] [Hidden μ.bootSt] [Hidden μ.cpx] [Hidden μ.whl] [Hidden μ.flt] [Hidden μ.hif] [Hidden μ.coil] [Hidden μ.nvs] [Hidden μ.pq] (f : Frame) (s : State) :
    kept μ (hide μ s) (execCreditFrame f s) := by
  unfold execCreditFrame
  (try dsimp -proj only)
  first
  | (simp [↓hide_with, ↓hide_with_pin, hide_foldl]; done)
  | ((repeat' split) <;> simp [↓hide_with, ↓hide_with_pin, hide_foldl])

@[simp ↓] theorem hide_recAcked {μ : Mask} [Hidden μ.nvs] (s : State) (x : Nat × W32) :
    hide μ (recAcked s x) = hide μ s := by
  unfold recAcked
  (try dsimp -proj only)
  first
  | (simp [↓hide_with, ↓hide_with_pin, hide_foldl]; done)
  | ((repeat' split) <;> simp [↓hide_with, ↓hide_with_pin, hide_foldl])

@[simp ↓] theorem hide_execAckFrame {μ : Mask} [Hidden μ.out] [Hidden μ.bootSt] [Hidden μ.cpx] [Hidden μ.whl] [Hidden μ.flt] [Hidden μ.hif] [Hidden μ.coil] [Hidden μ.nvs] [Hidden μ.pq] (f : Frame) (s : State) :
    kept μ (hide μ s) (execAckFrame f s) := by
  unfold execAckFrame
  (try dsimp -proj only)
  first
  | (simp [↓hide_with, ↓hide_with_pin, hide_foldl]; done)
  | ((repeat' split) <;> simp [↓hide_with, ↓hide_with_pin, hide_foldl])

@[simp ↓] theorem hide_execReportRetransmit {μ : Mask} [Hidden μ.out] [Hidden μ.coil] (ctr : W64) (s : State) :
    kept μ (hide μ s) (execReportRetransmit ctr s) := by
  unfold execReportRetransmit
  (try dsimp -proj only)
  first
  | (simp [↓hide_with, ↓hide_with_pin, hide_foldl]; done)
  | ((repeat' split) <;> simp [↓hide_with, ↓hide_with_pin, hide_foldl])

@[simp ↓] theorem hide_queueRemote {μ : Mask} [Hidden μ.out] [Hidden μ.bootSt] [Hidden μ.cpx] [Hidden μ.flt] [Hidden μ.hif] [Hidden μ.coil] [Hidden μ.nvs] (k pos ring : Nat) (seq : W32) (b : List Byte) (s : State) :
    hide μ (queueRemote k pos ring seq b s) = hide μ s := by
  unfold queueRemote
  (try dsimp -proj only)
  first
  | (simp [↓hide_with, ↓hide_with_pin, hide_foldl]; done)
  | ((repeat' split) <;> simp [↓hide_with, ↓hide_with_pin, hide_foldl])

@[simp ↓] theorem hide_takeSeg {μ : Mask} [Hidden μ.out] [Hidden μ.bootSt] [Hidden μ.cpx] [Hidden μ.flt] [Hidden μ.hif] [Hidden μ.coil] [Hidden μ.nvs] (cls k pos : Nat) (s : State) (x : Nat × Nat × Nat × W32 × List Byte) :
    hide μ (takeSeg cls k pos s x) = hide μ s := by
  unfold takeSeg
  (try dsimp -proj only)
  first
  | (simp [↓hide_with, ↓hide_with_pin, hide_foldl]; done)
  | ((repeat' split) <;> simp [↓hide_with, ↓hide_with_pin, hide_foldl])

@[simp ↓] theorem hide_renewCredit {μ : Mask} [Hidden μ.out] [Hidden μ.coil] (k pos : Nat) (s : State) :
    hide μ (renewCredit k pos s) = hide μ s := by
  unfold renewCredit
  (try dsimp -proj only)
  first
  | (simp [↓hide_with, ↓hide_with_pin, hide_foldl]; done)
  | ((repeat' split) <;> simp [↓hide_with, ↓hide_with_pin, hide_foldl])

@[simp ↓] theorem hide_execReportRecords {μ : Mask} [Hidden μ.out] [Hidden μ.bootSt] [Hidden μ.cpx] [Hidden μ.flt] [Hidden μ.hif] [Hidden μ.coil] [Hidden μ.nvs] (f : Frame) (s : State) :
    kept μ (hide μ s) (execReportRecords f s) := by
  unfold execReportRecords
  (try dsimp -proj only)
  first
  | (simp [↓hide_with, ↓hide_with_pin, hide_foldl]; done)
  | ((repeat' split) <;> simp [↓hide_with, ↓hide_with_pin, hide_foldl])

@[simp ↓] theorem hide_execBulkRecords {μ : Mask} [Hidden μ.out] [Hidden μ.bootSt] [Hidden μ.cpx] [Hidden μ.flt] [Hidden μ.hif] [Hidden μ.coil] [Hidden μ.nvs] (f : Frame) (s : State) :
    kept μ (hide μ s) (execBulkRecords f s) := by
  unfold execBulkRecords
  (try dsimp -proj only)
  first
  | (simp [↓hide_with, ↓hide_with_pin, hide_foldl]; done)
  | ((repeat' split) <;> simp [↓hide_with, ↓hide_with_pin, hide_foldl])

@[simp ↓] theorem hide_execSegmentTimeout {μ : Mask} [Hidden μ.coil] (k pos ring : Nat) (seq : W32) (s : State) :
    kept μ (hide μ s) (execSegmentTimeout k pos ring seq s) := by
  unfold execSegmentTimeout
  (try dsimp -proj only)
  first
  | (simp [↓hide_with, ↓hide_with_pin, hide_foldl]; done)
  | ((repeat' split) <;> simp [↓hide_with, ↓hide_with_pin, hide_foldl])

@[simp ↓] theorem hide_coilTurn {μ : Mask} [Hidden μ.out] [Hidden μ.bootSt] [Hidden μ.cpx] [Hidden μ.whl] [Hidden μ.flt] [Hidden μ.hif] [Hidden μ.coil] [Hidden μ.nvs] [Hidden μ.pq] (s : State) :
    hide μ (coilTurn s) = hide μ s := by
  unfold coilTurn
  (try dsimp -proj only)
  first
  | (simp [↓hide_with, ↓hide_with_pin, hide_foldl]; done)
  | ((repeat' split) <;> simp [↓hide_with, ↓hide_with_pin, hide_foldl])

@[simp ↓] theorem hide_endFwd {μ : Mask} [Hidden μ.out] [Hidden μ.bootSt] [Hidden μ.cpx] [Hidden μ.flt] [Hidden μ.hif] [Hidden μ.coil] [Hidden μ.nvs] [Hidden μ.pq] (f : Fwd) (status : W16) (data : List Byte) (s : State) :
    hide μ (endFwd f status data s) = hide μ s := by
  unfold endFwd
  (try dsimp -proj only)
  first
  | (simp [↓hide_with, ↓hide_with_pin, hide_foldl]; done)
  | ((repeat' split) <;> simp [↓hide_with, ↓hide_with_pin, hide_foldl])

@[simp ↓] theorem hide_execReplyFrame {μ : Mask} [Hidden μ.out] [Hidden μ.bootSt] [Hidden μ.cpx] [Hidden μ.flt] [Hidden μ.hif] [Hidden μ.coil] [Hidden μ.nvs] [Hidden μ.pq] (f : Frame) (s : State) : kept μ (hide μ s) (execReplyFrame f s) := by
  unfold execReplyFrame
  rw [kept_next]
  refine hide_managerAuth _ _ _ _ _ (fun t => ?_)
  (try dsimp -proj only)
  repeat' split
  all_goals simp

@[simp ↓] theorem hide_execImageNeed {μ : Mask} [Hidden μ.out] [Hidden μ.coil] (f : Frame) (s : State) :
    kept μ (hide μ s) (execImageNeed f s) := by
  unfold execImageNeed
  (try dsimp -proj only)
  first
  | (simp [↓hide_with, ↓hide_with_pin, hide_foldl]; done)
  | ((repeat' split) <;> simp [↓hide_with, ↓hide_with_pin, hide_foldl])

@[simp ↓] theorem hide_sendNeed {μ : Mask} [Hidden μ.out] (s : State) :
    hide μ (sendNeed s) = hide μ s := by
  unfold sendNeed
  (try dsimp -proj only)
  first
  | (simp [↓hide_with, ↓hide_with_pin, hide_foldl]; done)
  | ((repeat' split) <;> simp [↓hide_with, ↓hide_with_pin, hide_foldl])

@[simp ↓] theorem hide_execImageNeedTimer {μ : Mask} [Hidden μ.out] (s : State) :
    kept μ (hide μ s) (execImageNeedTimer s) := by
  unfold execImageNeedTimer
  (try dsimp -proj only)
  first
  | (simp [↓hide_with, ↓hide_with_pin, hide_foldl]; done)
  | ((repeat' split) <;> simp [↓hide_with, ↓hide_with_pin, hide_foldl])

end Sys2Proof.Laws
end

