-- ==== Sys2Proof/Laws/FootSaggar.lean ====
section
/-!
SUPPORT. What the operations of Machine/Saggar.lean leave unchanged.
-/
set_option linter.unusedSimpArgs false
set_option linter.unusedTactic false
set_option linter.unreachableTactic false
namespace Sys2Proof.Laws
open Sys2Proof.Machine

@[simp ↓] theorem hide_mkShare {μ : Mask} [Hidden μ.free] [Hidden μ.sgr] (key : List Byte) (s : State) :
    hide μ (mkShare key s).2 = hide μ s := by
  unfold mkShare
  (try dsimp -proj only)
  first
  | (simp [↓hide_with, ↓hide_with_pin, hide_foldl]; done)
  | ((repeat' split) <;> simp [↓hide_with, ↓hide_with_pin, hide_foldl])

@[simp ↓] theorem hide_wedge {μ : Mask} [Hidden μ.free] [Hidden μ.sgr] (x : Share) (s : State) :
    hide μ (wedge x s).2 = hide μ s := by
  unfold wedge
  (try dsimp -proj only)
  first
  | (simp [↓hide_with, ↓hide_with_pin, hide_foldl]; done)
  | ((repeat' split) <;> simp [↓hide_with, ↓hide_with_pin, hide_foldl])

@[simp ↓] theorem hide_setSlot {μ : Mask} [Hidden μ.sgr] (i : Nat) (k : KSlot) (s : State) :
    hide μ (setSlot i k s) = hide μ s := by
  unfold setSlot
  (try dsimp -proj only)
  first
  | (simp [↓hide_with, ↓hide_with_pin, hide_foldl]; done)
  | ((repeat' split) <;> simp [↓hide_with, ↓hide_with_pin, hide_foldl])

@[simp ↓] theorem hide_wedgeSlot {μ : Mask} [Hidden μ.free] [Hidden μ.sgr] (i : Nat) (s : State) :
    hide μ (wedgeSlot i s) = hide μ s := by
  unfold wedgeSlot
  (try dsimp -proj only)
  first
  | (simp [↓hide_with, ↓hide_with_pin, hide_foldl]; done)
  | ((repeat' split) <;> simp [↓hide_with, ↓hide_with_pin, hide_foldl])

@[simp ↓] theorem hide_deriveSlot {μ : Mask} [Hidden μ.free] [Hidden μ.sgr] (i : Nat) (key : List Byte) (s : State) :
    hide μ (deriveSlot i key s) = hide μ s := by
  unfold deriveSlot
  (try dsimp -proj only)
  first
  | (simp [↓hide_with, ↓hide_with_pin, hide_foldl]; done)
  | ((repeat' split) <;> simp [↓hide_with, ↓hide_with_pin, hide_foldl])

@[simp ↓] theorem hide_emptySlot {μ : Mask} [Hidden μ.sgr] (i : Nat) (s : State) :
    hide μ (emptySlot i s) = hide μ s := by
  unfold emptySlot
  (try dsimp -proj only)
  first
  | (simp [↓hide_with, ↓hide_with_pin, hide_foldl]; done)
  | ((repeat' split) <;> simp [↓hide_with, ↓hide_with_pin, hide_foldl])

@[simp ↓] theorem hide_writeRoot {μ : Mask} [Hidden μ.sgr] (x : Share) (kcv : List Byte) (s : State) :
    hide μ (writeRoot x kcv s) = hide μ s := by
  unfold writeRoot
  (try dsimp -proj only)
  first
  | (simp [↓hide_with, ↓hide_with_pin, hide_foldl]; done)
  | ((repeat' split) <;> simp [↓hide_with, ↓hide_with_pin, hide_foldl])

@[simp ↓] theorem hide_wedgeRoot {μ : Mask} [Hidden μ.free] [Hidden μ.sgr] (s : State) :
    hide μ (wedgeRoot s) = hide μ s := by
  unfold wedgeRoot
  (try dsimp -proj only)
  first
  | (simp [↓hide_with, ↓hide_with_pin, hide_foldl]; done)
  | ((repeat' split) <;> simp [↓hide_with, ↓hide_with_pin, hide_foldl])

@[simp ↓] theorem hide_wedgeCache {μ : Mask} [Hidden μ.free] [Hidden μ.sgr] (s : State) :
    hide μ (wedgeCache s) = hide μ s := by
  unfold wedgeCache
  (try dsimp -proj only)
  first
  | (simp [↓hide_with, ↓hide_with_pin, hide_foldl]; done)
  | ((repeat' split) <;> simp [↓hide_with, ↓hide_with_pin, hide_foldl])

@[simp ↓] theorem hide_execWedgePass {μ : Mask} [Hidden μ.free] [Hidden μ.sgr] (s : State) :
    kept μ (hide μ s) (execWedgePass s) := by
  unfold execWedgePass
  (try dsimp -proj only)
  first
  | (simp [↓hide_with, ↓hide_with_pin, hide_foldl]; done)
  | ((repeat' split) <;> simp [↓hide_with, ↓hide_with_pin, hide_foldl])

@[simp ↓] theorem hide_execRootInvert {μ : Mask} [Hidden μ.sgr] (s : State) :
    kept μ (hide μ s) (execRootInvert s) := by
  unfold execRootInvert
  (try dsimp -proj only)
  first
  | (simp [↓hide_with, ↓hide_with_pin, hide_foldl]; done)
  | ((repeat' split) <;> simp [↓hide_with, ↓hide_with_pin, hide_foldl])

@[simp ↓] theorem hide_execTrngHealthFail {μ : Mask} [Hidden μ.out] [Hidden μ.bootSt] [Hidden μ.cpx] [Hidden μ.flt] [Hidden μ.hif] [Hidden μ.coil] [Hidden μ.nvs] [Hidden μ.sgr] (s : State) :
    kept μ (hide μ s) (execTrngHealthFail s) := by
  unfold execTrngHealthFail
  (try dsimp -proj only)
  first
  | (simp [↓hide_with, ↓hide_with_pin, hide_foldl]; done)
  | ((repeat' split) <;> simp [↓hide_with, ↓hide_with_pin, hide_foldl])

@[simp ↓] theorem hide_execTrngRestartDone {μ : Mask} [Hidden μ.free] [Hidden μ.out] [Hidden μ.flt] [Hidden μ.hif] [Hidden μ.coil] [Hidden μ.nvs] [Hidden μ.sgr] (s : State) :
    kept μ (hide μ s) (execTrngRestartDone s) := by
  unfold execTrngRestartDone
  (try dsimp -proj only)
  first
  | (simp [↓hide_with, ↓hide_with_pin, hide_foldl]; done)
  | ((repeat' split) <;> simp [↓hide_with, ↓hide_with_pin, hide_foldl])

@[simp ↓] theorem hide_execDrbgReseed {μ : Mask} [Hidden μ.free] [Hidden μ.sgr] (s : State) :
    kept μ (hide μ s) (execDrbgReseed s) := by
  unfold execDrbgReseed
  (try dsimp -proj only)
  first
  | (simp [↓hide_with, ↓hide_with_pin, hide_foldl]; done)
  | ((repeat' split) <;> simp [↓hide_with, ↓hide_with_pin, hide_foldl])

@[simp ↓] theorem hide_slotPayload {μ : Mask} [Hidden μ.free] [Hidden μ.sgr] (i pol : Nat) (g : W32) (kcv kst key : List Byte) (s : State) :
    hide μ (slotPayload i pol g kcv kst key s).2 = hide μ s := by
  unfold slotPayload
  (try dsimp -proj only)
  first
  | (simp [↓hide_with, ↓hide_with_pin, hide_foldl]; done)
  | ((repeat' split) <;> simp [↓hide_with, ↓hide_with_pin, hide_foldl])

@[simp ↓] theorem hide_execSlotRewrap {μ : Mask} [Hidden μ.free] [Hidden μ.nvs] [Hidden μ.sgr] (i : Nat) (s : State) :
    kept μ (hide μ s) (execSlotRewrap i s) := by
  unfold execSlotRewrap
  (try dsimp -proj only)
  first
  | (simp [↓hide_with, ↓hide_with_pin, hide_foldl]; done)
  | ((repeat' split) <;> simp [↓hide_with, ↓hide_with_pin, hide_foldl])

@[simp ↓] theorem hide_writeRelay {μ : Mask} [Hidden μ.nvs] (s : State) :
    hide μ (writeRelay s) = hide μ s := by
  unfold writeRelay
  (try dsimp -proj only)
  first
  | (simp [↓hide_with, ↓hide_with_pin, hide_foldl]; done)
  | ((repeat' split) <;> simp [↓hide_with, ↓hide_with_pin, hide_foldl])

@[simp ↓] theorem hide_sendKey {μ : Mask} [Hidden μ.out] [Hidden μ.coil] [Hidden μ.nvs] [Hidden μ.sgr] (route : Nat) (op : Byte) (data : List Byte) (s : State) :
    hide μ (sendKey route op data s) = hide μ s := by
  unfold sendKey
  (try dsimp -proj only)
  first
  | (simp [↓hide_with, ↓hide_with_pin, hide_foldl]; done)
  | ((repeat' split) <;> simp [↓hide_with, ↓hide_with_pin, hide_foldl])

@[simp ↓] theorem hide_sagDone {μ : Mask} [Hidden μ.out] [Hidden μ.bootSt] [Hidden μ.cpx] [Hidden μ.flt] [Hidden μ.hif] [Hidden μ.coil] [Hidden μ.nvs] [Hidden μ.sgr] (r : SReq) (status : W16) (body : List Byte) (s : State) :
    hide μ (sagDone r status body s) = hide μ s := by
  unfold sagDone
  (try dsimp -proj only)
  first
  | (simp [↓hide_with, ↓hide_with_pin, hide_foldl]; done)
  | ((repeat' split) <;> simp [↓hide_with, ↓hide_with_pin, hide_foldl])

@[simp ↓] theorem hide_sagWait {μ : Mask} [Hidden μ.hif] [Hidden μ.sgr] (r : SReq) (op : KeyOp) (s : State) :
    hide μ (sagWait r op s) = hide μ s := by
  unfold sagWait
  (try dsimp -proj only)
  first
  | (simp [↓hide_with, ↓hide_with_pin, hide_foldl]; done)
  | ((repeat' split) <;> simp [↓hide_with, ↓hide_with_pin, hide_foldl])

@[simp ↓] theorem hide_sagCert {μ : Mask} [Hidden μ.out] [Hidden μ.bootSt] [Hidden μ.cpx] [Hidden μ.flt] [Hidden μ.hif] [Hidden μ.coil] [Hidden μ.nvs] [Hidden μ.sgr] (r : SReq) (s : State) :
    hide μ (sagCert r s) = hide μ s := by
  unfold sagCert
  (try dsimp -proj only)
  first
  | (simp [↓hide_with, ↓hide_with_pin, hide_foldl]; done)
  | ((repeat' split) <;> simp [↓hide_with, ↓hide_with_pin, hide_foldl])

@[simp ↓] theorem hide_sagGuardRead {μ : Mask} [Hidden μ.out] [Hidden μ.bootSt] [Hidden μ.cpx] [Hidden μ.flt] [Hidden μ.hif] [Hidden μ.coil] [Hidden μ.nvs] [Hidden μ.sgr] (r : SReq) (s : State) :
    hide μ (sagGuardRead r s) = hide μ s := by
  unfold sagGuardRead
  (try dsimp -proj only)
  first
  | (simp [↓hide_with, ↓hide_with_pin, hide_foldl]; done)
  | ((repeat' split) <;> simp [↓hide_with, ↓hide_with_pin, hide_foldl])

@[simp ↓] theorem hide_sagKeyErase {μ : Mask} [Hidden μ.out] [Hidden μ.bootSt] [Hidden μ.cpx] [Hidden μ.flt] [Hidden μ.hif] [Hidden μ.coil] [Hidden μ.nvs] [Hidden μ.sgr] (r : SReq) (s : State) :
    hide μ (sagKeyErase r s) = hide μ s := by
  unfold sagKeyErase
  (try dsimp -proj only)
  first
  | (simp [↓hide_with, ↓hide_with_pin, hide_foldl]; done)
  | ((repeat' split) <;> simp [↓hide_with, ↓hide_with_pin, hide_foldl])

@[simp ↓] theorem hide_sagKeyInfo {μ : Mask} [Hidden μ.out] [Hidden μ.bootSt] [Hidden μ.cpx] [Hidden μ.flt] [Hidden μ.hif] [Hidden μ.coil] [Hidden μ.nvs] [Hidden μ.sgr] (r : SReq) (s : State) :
    hide μ (sagKeyInfo r s) = hide μ s := by
  unfold sagKeyInfo
  (try dsimp -proj only)
  first
  | (simp [↓hide_with, ↓hide_with_pin, hide_foldl]; done)
  | ((repeat' split) <;> simp [↓hide_with, ↓hide_with_pin, hide_foldl])

@[simp ↓] theorem hide_sagRandom {μ : Mask} [Hidden μ.free] [Hidden μ.out] [Hidden μ.bootSt] [Hidden μ.cpx] [Hidden μ.flt] [Hidden μ.hif] [Hidden μ.coil] [Hidden μ.nvs] [Hidden μ.sgr] (r : SReq) (s : State) :
    hide μ (sagRandom r s) = hide μ s := by
  unfold sagRandom
  (try dsimp -proj only)
  first
  | (simp [↓hide_with, ↓hide_with_pin, hide_foldl]; done)
  | ((repeat' split) <;> simp [↓hide_with, ↓hide_with_pin, hide_foldl])

@[simp ↓] theorem hide_sagAttest {μ : Mask} [Hidden μ.out] [Hidden μ.bootSt] [Hidden μ.cpx] [Hidden μ.flt] [Hidden μ.hif] [Hidden μ.coil] [Hidden μ.nvs] [Hidden μ.sgr] (r : SReq) (s : State) :
    hide μ (sagAttest r s) = hide μ s := by
  unfold sagAttest
  (try dsimp -proj only)
  first
  | (simp [↓hide_with, ↓hide_with_pin, hide_foldl]; done)
  | ((repeat' split) <;> simp [↓hide_with, ↓hide_with_pin, hide_foldl])

@[simp ↓] theorem hide_sagKeyLoad {μ : Mask} [Hidden μ.out] [Hidden μ.bootSt] [Hidden μ.cpx] [Hidden μ.flt] [Hidden μ.hif] [Hidden μ.coil] [Hidden μ.nvs] [Hidden μ.sgr] (r : SReq) (s : State) :
    hide μ (sagKeyLoad r s) = hide μ s := by
  unfold sagKeyLoad
  (try dsimp -proj only)
  first
  | (simp [↓hide_with, ↓hide_with_pin, hide_foldl]; done)
  | ((repeat' split) <;> simp [↓hide_with, ↓hide_with_pin, hide_foldl])

@[simp ↓] theorem hide_loadEnd {μ : Mask} [Hidden μ.free] [Hidden μ.out] [Hidden μ.bootSt] [Hidden μ.cpx] [Hidden μ.flt] [Hidden μ.hif] [Hidden μ.coil] [Hidden μ.nvs] [Hidden μ.sgr] (r : SReq) (pol : Nat) (s : State) :
    hide μ (loadEnd r pol s) = hide μ s := by
  unfold loadEnd
  (try dsimp -proj only)
  first
  | (simp [↓hide_with, ↓hide_with_pin, hide_foldl]; done)
  | ((repeat' split) <;> simp [↓hide_with, ↓hide_with_pin, hide_foldl])

@[simp ↓] theorem hide_loadCommitted {μ : Mask} [Hidden μ.out] [Hidden μ.bootSt] [Hidden μ.cpx] [Hidden μ.flt] [Hidden μ.hif] [Hidden μ.coil] [Hidden μ.nvs] [Hidden μ.sgr] (s : State) :
    hide μ (loadCommitted s) = hide μ s := by
  unfold loadCommitted
  (try dsimp -proj only)
  first
  | (simp [↓hide_with, ↓hide_with_pin, hide_foldl]; done)
  | ((repeat' split) <;> simp [↓hide_with, ↓hide_with_pin, hide_foldl])

@[simp ↓] theorem hide_attestEnd {μ : Mask} [Hidden μ.free] [Hidden μ.out] [Hidden μ.bootSt] [Hidden μ.cpx] [Hidden μ.flt] [Hidden μ.hif] [Hidden μ.coil] [Hidden μ.nvs] [Hidden μ.sgr] (r : SReq) (s : State) :
    hide μ (attestEnd r s) = hide μ s := by
  unfold attestEnd
  (try dsimp -proj only)
  first
  | (simp [↓hide_with, ↓hide_with_pin, hide_foldl]; done)
  | ((repeat' split) <;> simp [↓hide_with, ↓hide_with_pin, hide_foldl])

@[simp ↓] theorem hide_changeRefuse {μ : Mask} [Hidden μ.out] [Hidden μ.bootSt] [Hidden μ.cpx] [Hidden μ.flt] [Hidden μ.hif] [Hidden μ.coil] [Hidden μ.nvs] [Hidden μ.sgr] (r : SReq) (st : W16) (s : State) :
    hide μ (changeRefuse r st s) = hide μ s := by
  unfold changeRefuse
  (try dsimp -proj only)
  first
  | (simp [↓hide_with, ↓hide_with_pin, hide_foldl]; done)
  | ((repeat' split) <;> simp [↓hide_with, ↓hide_with_pin, hide_foldl])

@[simp ↓] theorem hide_sagGuardChange {μ : Mask} [Hidden μ.out] [Hidden μ.bootSt] [Hidden μ.cpx] [Hidden μ.flt] [Hidden μ.hif] [Hidden μ.coil] [Hidden μ.nvs] [Hidden μ.sgr] (r : SReq) (s : State) :
    hide μ (sagGuardChange r s) = hide μ s := by
  unfold sagGuardChange
  (try dsimp -proj only)
  first
  | (simp [↓hide_with, ↓hide_with_pin, hide_foldl]; done)
  | ((repeat' split) <;> simp [↓hide_with, ↓hide_with_pin, hide_foldl])

theorem hide_rewrapSlot {μ : Mask} [Hidden μ.free] [Hidden μ.sgr] (kcv kst : List Byte) (acc : List (Nat × Nat × NvVal × W32) × List (Nat × W32) × State) (i : Nat) :
    hide μ (rewrapSlot kcv kst acc i).2.2 = hide μ acc.2.2 := by
  obtain ⟨rs, ks, s⟩ := acc
  unfold rewrapSlot
  (try dsimp -proj only)
  simp

theorem hide_rewrapSlots {μ : Mask} [Hidden μ.free] [Hidden μ.sgr] (kcv kst : List Byte) (l : List Nat) (acc : List (Nat × Nat × NvVal × W32) × List (Nat × W32) × State) :
    hide μ (l.foldl (rewrapSlot kcv kst) acc).2.2 = hide μ acc.2.2 := by
  induction l generalizing acc with
  | nil => rfl
  | cons i t ih => rw [List.foldl_cons, ih, hide_rewrapSlot]

@[simp ↓] theorem hide_takeWaiting {μ : Mask} [Hidden μ.sgr] (s : State) :
    hide μ (takeWaiting s) = hide μ s := by
  unfold takeWaiting
  (try dsimp -proj only)
  first
  | (simp [↓hide_with, ↓hide_with_pin, hide_foldl]; done)
  | ((repeat' split) <;> simp [↓hide_with, ↓hide_with_pin, hide_foldl])

@[simp ↓] theorem hide_applyTaken {μ : Mask} [Hidden μ.free] [Hidden μ.hif] [Hidden μ.nvs] [Hidden μ.sgr] (r : SReq) (s : State) : hide μ (applyTaken r s) = hide μ s := by
  unfold applyTaken
  (try dsimp -proj only)
  repeat' split
  all_goals simp [↓hide_with, hide_rewrapSlots]

@[simp ↓] theorem hide_applyChange {μ : Mask} [Hidden μ.free] [Hidden μ.hif] [Hidden μ.nvs] [Hidden μ.sgr] (r : SReq) (s : State) :
    hide μ (applyChange r s) = hide μ s := by
  unfold applyChange
  (try dsimp -proj only)
  first
  | (simp [↓hide_with, ↓hide_with_pin, hide_foldl]; done)
  | ((repeat' split) <;> simp [↓hide_with, ↓hide_with_pin, hide_foldl])

@[simp ↓] theorem hide_changeEnd {μ : Mask} [Hidden μ.free] [Hidden μ.out] [Hidden μ.bootSt] [Hidden μ.cpx] [Hidden μ.flt] [Hidden μ.hif] [Hidden μ.coil] [Hidden μ.nvs] [Hidden μ.sgr] (r : SReq) (s : State) :
    hide μ (changeEnd r s) = hide μ s := by
  unfold changeEnd
  (try dsimp -proj only)
  first
  | (simp [↓hide_with, ↓hide_with_pin, hide_foldl]; done)
  | ((repeat' split) <;> simp [↓hide_with, ↓hide_with_pin, hide_foldl])

@[simp ↓] theorem hide_deriveRoot {μ : Mask} [Hidden μ.free] [Hidden μ.sgr] (root : List Byte) (s : State) :
    hide μ (deriveRoot root s) = hide μ s := by
  unfold deriveRoot
  (try dsimp -proj only)
  first
  | (simp [↓hide_with, ↓hide_with_pin, hide_foldl]; done)
  | ((repeat' split) <;> simp [↓hide_with, ↓hide_with_pin, hide_foldl])

@[simp ↓] theorem hide_unkey {μ : Mask} [Hidden μ.sgr] (s : State) :
    hide μ (unkey s) = hide μ s := by
  unfold unkey
  (try dsimp -proj only)
  first
  | (simp [↓hide_with, ↓hide_with_pin, hide_foldl]; done)
  | ((repeat' split) <;> simp [↓hide_with, ↓hide_with_pin, hide_foldl])

@[simp ↓] theorem hide_partySlots {μ : Mask} [Hidden μ.free] [Hidden μ.sgr] (s : State) :
    hide μ (partySlots s) = hide μ s := by
  unfold partySlots
  (try dsimp -proj only)
  first
  | (simp [↓hide_with, ↓hide_with_pin, hide_foldl]; done)
  | ((repeat' split) <;> simp [↓hide_with, ↓hide_with_pin, hide_foldl])

@[simp ↓] theorem hide_optApply {μ : Mask} [Hidden μ.pin] [Hidden μ.trf] (on : Bool) (s : State) :
    hide μ (optApply on s) = hide μ s := by
  unfold optApply
  (try dsimp -proj only)
  first
  | (simp [↓hide_with, ↓hide_with_pin, hide_foldl]; done)
  | ((repeat' split) <;> simp [↓hide_with, ↓hide_with_pin, hide_foldl])

@[simp ↓] theorem hide_fuseSlot {μ : Mask} [Hidden μ.free] [Hidden μ.out] [Hidden μ.bootSt] [Hidden μ.cpx] [Hidden μ.flt] [Hidden μ.hif] [Hidden μ.coil] [Hidden μ.nvs] [Hidden μ.sgr] (s : State) (i : Nat) :
    hide μ (fuseSlot s i) = hide μ s := by
  unfold fuseSlot
  (try dsimp -proj only)
  first
  | (simp [↓hide_with, ↓hide_with_pin, hide_foldl]; done)
  | ((repeat' split) <;> simp [↓hide_with, ↓hide_with_pin, hide_foldl])

@[simp ↓] theorem hide_roleSlots {μ : Mask} [Hidden μ.free] [Hidden μ.out] [Hidden μ.bootSt] [Hidden μ.cpx] [Hidden μ.flt] [Hidden μ.hif] [Hidden μ.coil] [Hidden μ.nvs] [Hidden μ.sgr] (s : State) :
    hide μ (roleSlots s) = hide μ s := by
  unfold roleSlots
  (try dsimp -proj only)
  first
  | (simp [↓hide_with, ↓hide_with_pin, hide_foldl]; done)
  | ((repeat' split) <;> simp [↓hide_with, ↓hide_with_pin, hide_foldl])

@[simp ↓] theorem hide_endHold {μ : Mask} [Hidden μ.free] [Hidden μ.out] [Hidden μ.boot] [Hidden μ.bootSt] [Hidden μ.cpx] [Hidden μ.flt] [Hidden μ.hif] [Hidden μ.coil] [Hidden μ.nvs] [Hidden μ.sgr] (s : State) :
    hide μ (endHold s) = hide μ s := by
  unfold endHold
  (try dsimp -proj only)
  first
  | (simp [↓hide_with, ↓hide_with_pin, hide_foldl]; done)
  | ((repeat' split) <;> simp [↓hide_with, ↓hide_with_pin, hide_foldl])

@[simp ↓] theorem hide_finishChange {μ : Mask} [Hidden μ.free] [Hidden μ.out] [Hidden μ.boot] [Hidden μ.bootSt] [Hidden μ.cpx] [Hidden μ.flt] [Hidden μ.hif] [Hidden μ.coil] [Hidden μ.nvs] [Hidden μ.pin] [Hidden μ.trf] [Hidden μ.sgr] [Hidden μ.tmp] (c : Change) (s : State) :
    hide μ (finishChange c s) = hide μ s := by
  unfold finishChange
  (try dsimp -proj only)
  first
  | (simp [↓hide_with, ↓hide_with_pin, hide_foldl]; done)
  | ((repeat' split) <;> simp [↓hide_with, ↓hide_with_pin, hide_foldl])

@[simp ↓] theorem hide_sagCommitted {μ : Mask} [Hidden μ.free] [Hidden μ.out] [Hidden μ.boot] [Hidden μ.bootSt] [Hidden μ.cpx] [Hidden μ.flt] [Hidden μ.hif] [Hidden μ.coil] [Hidden μ.nvs] [Hidden μ.pin] [Hidden μ.trf] [Hidden μ.sgr] [Hidden μ.tmp] (tag : Nat) (s : State) :
    hide μ (sagCommitted tag s) = hide μ s := by
  unfold sagCommitted
  (try dsimp -proj only)
  first
  | (simp [↓hide_with, ↓hide_with_pin, hide_foldl]; done)
  | ((repeat' split) <;> simp [↓hide_with, ↓hide_with_pin, hide_foldl])

@[simp ↓] theorem hide_abortOp {μ : Mask} [Hidden μ.out] [Hidden μ.bootSt] [Hidden μ.cpx] [Hidden μ.flt] [Hidden μ.hif] [Hidden μ.coil] [Hidden μ.nvs] [Hidden μ.crd] [Hidden μ.sgr] (s : State) (k : KeyOp) : hide μ (abortOp s k) = hide μ s := by
  cases k <;> simp [abortOp]

@[simp ↓] theorem hide_abortOps {μ : Mask} [Hidden μ.out] [Hidden μ.boot] [Hidden μ.bootSt] [Hidden μ.cpx] [Hidden μ.flt] [Hidden μ.hif] [Hidden μ.coil] [Hidden μ.nvs] [Hidden μ.crd] [Hidden μ.sgr] (s : State) : hide μ (abortOps s) = hide μ s := by
  unfold abortOps
  (try dsimp -proj only)
  simp [↓hide_with, hide_foldl]

@[simp ↓] theorem hide_dropGroups {μ : Mask} [Hidden μ.nvs] (tags : List Nat) (s : State) :
    hide μ (dropGroups tags s) = hide μ s := by
  unfold dropGroups
  (try dsimp -proj only)
  first
  | (simp [↓hide_with, ↓hide_with_pin, hide_foldl]; done)
  | ((repeat' split) <;> simp [↓hide_with, ↓hide_with_pin, hide_foldl])

@[simp ↓] theorem hide_abortChange {μ : Mask} [Hidden μ.out] [Hidden μ.bootSt] [Hidden μ.cpx] [Hidden μ.flt] [Hidden μ.hif] [Hidden μ.coil] [Hidden μ.nvs] [Hidden μ.sgr] (s : State) :
    hide μ (abortChange s) = hide μ s := by
  unfold abortChange
  (try dsimp -proj only)
  first
  | (simp [↓hide_with, ↓hide_with_pin, hide_foldl]; done)
  | ((repeat' split) <;> simp [↓hide_with, ↓hide_with_pin, hide_foldl])

@[simp ↓] theorem hide_abortLoads {μ : Mask} [Hidden μ.out] [Hidden μ.bootSt] [Hidden μ.cpx] [Hidden μ.flt] [Hidden μ.hif] [Hidden μ.coil] [Hidden μ.nvs] [Hidden μ.sgr] (s : State) :
    hide μ (abortLoads s) = hide μ s := by
  unfold abortLoads
  (try dsimp -proj only)
  first
  | (simp [↓hide_with, ↓hide_with_pin, hide_foldl]; done)
  | ((repeat' split) <;> simp [↓hide_with, ↓hide_with_pin, hide_foldl])

@[simp ↓] theorem hide_zeroize {μ : Mask} [Hidden μ.out] [Hidden μ.bootSt] [Hidden μ.cpx] [Hidden μ.flt] [Hidden μ.hif] [Hidden μ.coil] [Hidden μ.nvs] [Hidden μ.sgr] (s : State) :
    hide μ (zeroize s) = hide μ s := by
  unfold zeroize
  (try dsimp -proj only)
  first
  | (simp [↓hide_with, ↓hide_with_pin, hide_foldl]; done)
  | ((repeat' split) <;> simp [↓hide_with, ↓hide_with_pin, hide_foldl])

@[simp ↓] theorem hide_tokenEnd {μ : Mask} [Hidden μ.free] [Hidden μ.out] [Hidden μ.bootSt] [Hidden μ.cpx] [Hidden μ.flt] [Hidden μ.hif] [Hidden μ.coil] [Hidden μ.nvs] [Hidden μ.crd] [Hidden μ.sgr] (w : Waiter) (b : List Byte) (s : State) :
    hide μ (tokenEnd w b s) = hide μ s := by
  unfold tokenEnd
  (try dsimp -proj only)
  first
  | (simp [↓hide_with, ↓hide_with_pin, hide_foldl]; done)
  | ((repeat' split) <;> simp [↓hide_with, ↓hide_with_pin, hide_foldl])

@[simp ↓] theorem hide_execKeyOperationEnd {μ : Mask} [Hidden μ.free] [Hidden μ.out] [Hidden μ.bootSt] [Hidden μ.cpx] [Hidden μ.flt] [Hidden μ.hif] [Hidden μ.coil] [Hidden μ.nvs] [Hidden μ.crd] [Hidden μ.sgr] (s : State) :
    kept μ (hide μ s) (execKeyOperationEnd s) := by
  unfold execKeyOperationEnd
  (try dsimp -proj only)
  first
  | (simp [↓hide_with, ↓hide_with_pin, hide_foldl]; done)
  | ((repeat' split) <;> simp [↓hide_with, ↓hide_with_pin, hide_foldl])

@[simp ↓] theorem hide_execCreditToken {μ : Mask} [Hidden μ.out] [Hidden μ.bootSt] [Hidden μ.cpx] [Hidden μ.flt] [Hidden μ.hif] [Hidden μ.coil] [Hidden μ.nvs] [Hidden μ.crd] [Hidden μ.sgr] (r : Req) (s : State) :
    kept μ (hide μ s) (execCreditToken r s) := by
  unfold execCreditToken
  (try dsimp -proj only)
  first
  | (simp [↓hide_with, ↓hide_with_pin, hide_foldl]; done)
  | ((repeat' split) <;> simp [↓hide_with, ↓hide_with_pin, hide_foldl])

@[simp ↓] theorem hide_sagOwn {μ : Mask} [Hidden μ.free] [Hidden μ.out] [Hidden μ.bootSt] [Hidden μ.cpx] [Hidden μ.flt] [Hidden μ.hif] [Hidden μ.coil] [Hidden μ.nvs] [Hidden μ.sgr] (op : Nat) (r : SReq) (s : State) :
    hide μ (sagOwn op r s) = hide μ s := by
  unfold sagOwn
  (try dsimp -proj only)
  first
  | (simp [↓hide_with, ↓hide_with_pin, hide_foldl]; done)
  | ((repeat' split) <;> simp [↓hide_with, ↓hide_with_pin, hide_foldl])

@[simp ↓] theorem hide_forwardKey {μ : Mask} [Hidden μ.out] [Hidden μ.bootSt] [Hidden μ.cpx] [Hidden μ.flt] [Hidden μ.hif] [Hidden μ.coil] [Hidden μ.nvs] [Hidden μ.sgr] (r : SReq) (k pos : Nat) (s : State) :
    hide μ (forwardKey r k pos s) = hide μ s := by
  unfold forwardKey
  (try dsimp -proj only)
  first
  | (simp [↓hide_with, ↓hide_with_pin, hide_foldl]; done)
  | ((repeat' split) <;> simp [↓hide_with, ↓hide_with_pin, hide_foldl])

@[simp ↓] theorem hide_ring9 {μ : Mask} [Hidden μ.free] [Hidden μ.out] [Hidden μ.bootSt] [Hidden μ.cpx] [Hidden μ.flt] [Hidden μ.hif] [Hidden μ.coil] [Hidden μ.nvs] [Hidden μ.sgr] (op : Nat) (r : Req) (s : State) :
    kept μ (hide μ s) (ring9 op r s) := by
  unfold ring9
  (try dsimp -proj only)
  first
  | (simp [↓hide_with, ↓hide_with_pin, hide_foldl]; done)
  | ((repeat' split) <;> simp [↓hide_with, ↓hide_with_pin, hide_foldl])

@[simp ↓] theorem hide_execAttest {μ : Mask} [Hidden μ.free] [Hidden μ.out] [Hidden μ.bootSt] [Hidden μ.cpx] [Hidden μ.flt] [Hidden μ.hif] [Hidden μ.coil] [Hidden μ.nvs] [Hidden μ.sgr] (r : Req) (s : State) :
    kept μ (hide μ s) (execAttest r s) := by
  unfold execAttest
  (try dsimp -proj only)
  first
  | (simp [↓hide_with, ↓hide_with_pin, hide_foldl]; done)
  | ((repeat' split) <;> simp [↓hide_with, ↓hide_with_pin, hide_foldl])

@[simp ↓] theorem hide_execCertRead {μ : Mask} [Hidden μ.free] [Hidden μ.out] [Hidden μ.bootSt] [Hidden μ.cpx] [Hidden μ.flt] [Hidden μ.hif] [Hidden μ.coil] [Hidden μ.nvs] [Hidden μ.sgr] (r : Req) (s : State) :
    kept μ (hide μ s) (execCertRead r s) := by
  unfold execCertRead
  (try dsimp -proj only)
  first
  | (simp [↓hide_with, ↓hide_with_pin, hide_foldl]; done)
  | ((repeat' split) <;> simp [↓hide_with, ↓hide_with_pin, hide_foldl])

@[simp ↓] theorem hide_execGuardChange {μ : Mask} [Hidden μ.free] [Hidden μ.out] [Hidden μ.bootSt] [Hidden μ.cpx] [Hidden μ.flt] [Hidden μ.hif] [Hidden μ.coil] [Hidden μ.nvs] [Hidden μ.sgr] (r : Req) (s : State) :
    kept μ (hide μ s) (execGuardChange r s) := by
  unfold execGuardChange
  (try dsimp -proj only)
  first
  | (simp [↓hide_with, ↓hide_with_pin, hide_foldl]; done)
  | ((repeat' split) <;> simp [↓hide_with, ↓hide_with_pin, hide_foldl])

@[simp ↓] theorem hide_execGuardRead {μ : Mask} [Hidden μ.free] [Hidden μ.out] [Hidden μ.bootSt] [Hidden μ.cpx] [Hidden μ.flt] [Hidden μ.hif] [Hidden μ.coil] [Hidden μ.nvs] [Hidden μ.sgr] (r : Req) (s : State) :
    kept μ (hide μ s) (execGuardRead r s) := by
  unfold execGuardRead
  (try dsimp -proj only)
  first
  | (simp [↓hide_with, ↓hide_with_pin, hide_foldl]; done)
  | ((repeat' split) <;> simp [↓hide_with, ↓hide_with_pin, hide_foldl])

@[simp ↓] theorem hide_execKeyLoad {μ : Mask} [Hidden μ.free] [Hidden μ.out] [Hidden μ.bootSt] [Hidden μ.cpx] [Hidden μ.flt] [Hidden μ.hif] [Hidden μ.coil] [Hidden μ.nvs] [Hidden μ.sgr] (r : Req) (s : State) :
    kept μ (hide μ s) (execKeyLoad r s) := by
  unfold execKeyLoad
  (try dsimp -proj only)
  first
  | (simp [↓hide_with, ↓hide_with_pin, hide_foldl]; done)
  | ((repeat' split) <;> simp [↓hide_with, ↓hide_with_pin, hide_foldl])

@[simp ↓] theorem hide_execKeyErase {μ : Mask} [Hidden μ.free] [Hidden μ.out] [Hidden μ.bootSt] [Hidden μ.cpx] [Hidden μ.flt] [Hidden μ.hif] [Hidden μ.coil] [Hidden μ.nvs] [Hidden μ.sgr] (r : Req) (s : State) :
    kept μ (hide μ s) (execKeyErase r s) := by
  unfold execKeyErase
  (try dsimp -proj only)
  first
  | (simp [↓hide_with, ↓hide_with_pin, hide_foldl]; done)
  | ((repeat' split) <;> simp [↓hide_with, ↓hide_with_pin, hide_foldl])

@[simp ↓] theorem hide_execKeyInfo {μ : Mask} [Hidden μ.free] [Hidden μ.out] [Hidden μ.bootSt] [Hidden μ.cpx] [Hidden μ.flt] [Hidden μ.hif] [Hidden μ.coil] [Hidden μ.nvs] [Hidden μ.sgr] (r : Req) (s : State) :
    kept μ (hide μ s) (execKeyInfo r s) := by
  unfold execKeyInfo
  (try dsimp -proj only)
  first
  | (simp [↓hide_with, ↓hide_with_pin, hide_foldl]; done)
  | ((repeat' split) <;> simp [↓hide_with, ↓hide_with_pin, hide_foldl])

@[simp ↓] theorem hide_execRandom {μ : Mask} [Hidden μ.free] [Hidden μ.out] [Hidden μ.bootSt] [Hidden μ.cpx] [Hidden μ.flt] [Hidden μ.hif] [Hidden μ.coil] [Hidden μ.nvs] [Hidden μ.sgr] (r : Req) (s : State) :
    kept μ (hide μ s) (execRandom r s) := by
  unfold execRandom
  (try dsimp -proj only)
  first
  | (simp [↓hide_with, ↓hide_with_pin, hide_foldl]; done)
  | ((repeat' split) <;> simp [↓hide_with, ↓hide_with_pin, hide_foldl])

@[simp ↓] theorem hide_execKeyRelay {μ : Mask} [Hidden μ.out] [Hidden μ.bootSt] [Hidden μ.cpx] [Hidden μ.flt] [Hidden μ.hif] [Hidden μ.coil] [Hidden μ.nvs] [Hidden μ.sgr] (r : Req) (s : State) :
    kept μ (hide μ s) (execKeyRelay r s) := by
  unfold execKeyRelay
  (try dsimp -proj only)
  first
  | (simp [↓hide_with, ↓hide_with_pin, hide_foldl]; done)
  | ((repeat' split) <;> simp [↓hide_with, ↓hide_with_pin, hide_foldl])

@[simp ↓] theorem hide_keyRequest {μ : Mask} [Hidden μ.free] [Hidden μ.out] [Hidden μ.bootSt] [Hidden μ.cpx] [Hidden μ.flt] [Hidden μ.hif] [Hidden μ.coil] [Hidden μ.nvs] [Hidden μ.sgr] (route : Nat) (p : List Byte) (s : State) :
    hide μ (keyRequest route p s) = hide μ s := by
  unfold keyRequest
  (try dsimp -proj only)
  first
  | (simp [↓hide_with, ↓hide_with_pin, hide_foldl]; done)
  | ((repeat' split) <;> simp [↓hide_with, ↓hide_with_pin, hide_foldl])

@[simp ↓] theorem hide_keyAtWorker {μ : Mask} [Hidden μ.free] [Hidden μ.out] [Hidden μ.bootSt] [Hidden μ.cpx] [Hidden μ.flt] [Hidden μ.hif] [Hidden μ.coil] [Hidden μ.nvs] [Hidden μ.sgr] (f : Frame) (s : State) :
    hide μ (keyAtWorker f s) = hide μ s := by
  unfold keyAtWorker
  (try dsimp -proj only)
  first
  | (simp [↓hide_with, ↓hide_with_pin, hide_foldl]; done)
  | ((repeat' split) <;> simp [↓hide_with, ↓hide_with_pin, hide_foldl])

@[simp ↓] theorem hide_keyResult {μ : Mask} [Hidden μ.out] [Hidden μ.bootSt] [Hidden μ.cpx] [Hidden μ.flt] [Hidden μ.hif] [Hidden μ.coil] [Hidden μ.nvs] (f : Frame) (s : State) :
    hide μ (keyResult f s) = hide μ s := by
  unfold keyResult
  (try dsimp -proj only)
  first
  | (simp [↓hide_with, ↓hide_with_pin, hide_foldl]; done)
  | ((repeat' split) <;> simp [↓hide_with, ↓hide_with_pin, hide_foldl])

@[simp ↓] theorem hide_envelopeResult {μ : Mask} [Hidden μ.free] [Hidden μ.out] [Hidden μ.bootSt] [Hidden μ.cpx] [Hidden μ.flt] [Hidden μ.hif] [Hidden μ.coil] [Hidden μ.nvs] [Hidden μ.sgr] (f : Frame) (s : State) :
    hide μ (envelopeResult f s) = hide μ s := by
  unfold envelopeResult
  (try dsimp -proj only)
  first
  | (simp [↓hide_with, ↓hide_with_pin, hide_foldl]; done)
  | ((repeat' split) <;> simp [↓hide_with, ↓hide_with_pin, hide_foldl])

@[simp ↓] theorem hide_managerAuthKey {μ : Mask} [Hidden μ.free] [Hidden μ.out] [Hidden μ.bootSt] [Hidden μ.cpx] [Hidden μ.flt] [Hidden μ.hif] [Hidden μ.coil] [Hidden μ.nvs] [Hidden μ.sgr] (f : Frame) (s : State) : hide μ (keyAtManager.managerAuthKey f s) = hide μ s := by
  unfold keyAtManager.managerAuthKey
  repeat' split
  all_goals simp

@[simp ↓] theorem hide_keyAtManager {μ : Mask} [Hidden μ.free] [Hidden μ.out] [Hidden μ.bootSt] [Hidden μ.cpx] [Hidden μ.flt] [Hidden μ.hif] [Hidden μ.coil] [Hidden μ.nvs] [Hidden μ.sgr] (f : Frame) (s : State) : hide μ (keyAtManager f s) = hide μ s := by
  unfold keyAtManager
  (try dsimp -proj only)
  repeat' split
  all_goals simp

@[simp ↓] theorem hide_execKeyFrame {μ : Mask} [Hidden μ.free] [Hidden μ.out] [Hidden μ.bootSt] [Hidden μ.cpx] [Hidden μ.flt] [Hidden μ.hif] [Hidden μ.coil] [Hidden μ.nvs] [Hidden μ.sgr] (f : Frame) (s : State) :
    kept μ (hide μ s) (execKeyFrame f s) := by
  unfold execKeyFrame
  (try dsimp -proj only)
  first
  | (simp [↓hide_with, ↓hide_with_pin, hide_foldl]; done)
  | ((repeat' split) <;> simp [↓hide_with, ↓hide_with_pin, hide_foldl])

@[simp ↓] theorem hide_execCommandForwardTimeout {μ : Mask} [Hidden μ.out] [Hidden μ.bootSt] [Hidden μ.cpx] [Hidden μ.flt] [Hidden μ.hif] [Hidden μ.coil] [Hidden μ.nvs] [Hidden μ.sgr] (ring : Nat) (slot : W32) (s : State) :
    kept μ (hide μ s) (execCommandForwardTimeout ring slot s) := by
  unfold execCommandForwardTimeout
  rw [kept_next]
  split
  · rfl
  · rename_i h
    have h' := hide_dropFwd (μ := μ) _ _ _ _ h
    split <;> simpa using h'

@[simp ↓] theorem hide_fuseIdent {μ : Mask} [Hidden μ.free] [Hidden μ.nvs] [Hidden μ.sgr] (g a : List Byte) (s : State) :
    hide μ (fuseIdent g a s) = hide μ s := by
  unfold fuseIdent
  (try dsimp -proj only)
  first
  | (simp [↓hide_with, ↓hide_with_pin, hide_foldl]; done)
  | ((repeat' split) <;> simp [↓hide_with, ↓hide_with_pin, hide_foldl])

@[simp ↓] theorem hide_fuseRoot {μ : Mask} [Hidden μ.free] [Hidden μ.out] [Hidden μ.bootSt] [Hidden μ.cpx] [Hidden μ.flt] [Hidden μ.hif] [Hidden μ.coil] [Hidden μ.nvs] [Hidden μ.sgr] (g : List Byte) (s : State) :
    hide μ (fuseRoot g s) = hide μ s := by
  unfold fuseRoot
  (try dsimp -proj only)
  first
  | (simp [↓hide_with, ↓hide_with_pin, hide_foldl]; done)
  | ((repeat' split) <;> simp [↓hide_with, ↓hide_with_pin, hide_foldl])

@[simp ↓] theorem hide_fuseSlots {μ : Mask} [Hidden μ.free] [Hidden μ.out] [Hidden μ.bootSt] [Hidden μ.cpx] [Hidden μ.flt] [Hidden μ.hif] [Hidden μ.coil] [Hidden μ.nvs] [Hidden μ.sgr] (s : State) : hide μ (fuseSlots s) = hide μ s := by
  unfold fuseSlots
  exact hide_foldl (fun t i => by simp) _ _

@[simp ↓] theorem hide_fuseSaggar {μ : Mask} [Hidden μ.free] [Hidden μ.out] [Hidden μ.bootSt] [Hidden μ.cpx] [Hidden μ.flt] [Hidden μ.hif] [Hidden μ.coil] [Hidden μ.nvs] [Hidden μ.sgr] [Hidden μ.tmp] (s : State) :
    hide μ (fuseSaggar s) = hide μ s := by
  unfold fuseSaggar
  (try dsimp -proj only)
  first
  | (simp [↓hide_with, ↓hide_with_pin, hide_foldl]; done)
  | ((repeat' split) <;> simp [↓hide_with, ↓hide_with_pin, hide_foldl])

end Sys2Proof.Laws
end

