-- ==== Sys2Proof/Laws/FootTamper.lean ====
section
/-!
SUPPORT. What the operations of Machine/Tamper.lean leave unchanged.
-/
set_option linter.unusedSimpArgs false
set_option linter.unusedTactic false
set_option linter.unreachableTactic false
namespace Sys2Proof.Laws
open Sys2Proof.Machine

@[simp ↓] theorem hide_modTSrc {μ : Mask} [Hidden μ.tmp] (src : Nat) (f : TSrc → TSrc) (s : State) :
    hide μ (modTSrc src f s) = hide μ s := by
  unfold modTSrc
  (try dsimp -proj only)
  first
  | (simp [↓hide_with, ↓hide_with_pin, hide_foldl]; done)
  | ((repeat' split) <;> simp [↓hide_with, ↓hide_with_pin, hide_foldl])

@[simp ↓] theorem hide_tamperLog {μ : Mask} [Hidden μ.tmp] (src : Nat) (flags : Nat) (n : Nat) (d : List Byte) (s : State) :
    hide μ (tamperLog src flags n d s) = hide μ s := by
  unfold tamperLog
  (try dsimp -proj only)
  first
  | (simp [↓hide_with, ↓hide_with_pin, hide_foldl]; done)
  | ((repeat' split) <;> simp [↓hide_with, ↓hide_with_pin, hide_foldl])

@[simp ↓] theorem hide_tamperAlarm {μ : Mask} [Hidden μ.out] [Hidden μ.boot] [Hidden μ.bootSt] [Hidden μ.cpx] [Hidden μ.flt] [Hidden μ.hif] [Hidden μ.coil] [Hidden μ.nvs] [Hidden μ.crd] [Hidden μ.sgr] [Hidden μ.tmp] (src : Nat) (d : List Byte) (s : State) :
    hide μ (tamperAlarm src d s) = hide μ s := by
  unfold tamperAlarm
  (try dsimp -proj only)
  first
  | (simp [↓hide_with, ↓hide_with_pin, hide_foldl]; done)
  | ((repeat' split) <;> simp [↓hide_with, ↓hide_with_pin, hide_foldl])

@[simp ↓] theorem hide_tamperCount {μ : Mask} [Hidden μ.out] [Hidden μ.boot] [Hidden μ.bootSt] [Hidden μ.cpx] [Hidden μ.flt] [Hidden μ.hif] [Hidden μ.coil] [Hidden μ.nvs] [Hidden μ.crd] [Hidden μ.sgr] [Hidden μ.tmp] (src : Nat) (d : List Byte) (s : State) :
    hide μ (tamperCount src d s) = hide μ s := by
  unfold tamperCount
  (try dsimp -proj only)
  first
  | (simp [↓hide_with, ↓hide_with_pin, hide_foldl]; done)
  | ((repeat' split) <;> simp [↓hide_with, ↓hide_with_pin, hide_foldl])

@[simp ↓] theorem hide_glazeShow {μ : Mask} [Hidden μ.tmp] (src : Nat) (d : List Byte) (s : State) :
    hide μ (glazeShow src d s) = hide μ s := by
  unfold glazeShow
  (try dsimp -proj only)
  first
  | (simp [↓hide_with, ↓hide_with_pin, hide_foldl]; done)
  | ((repeat' split) <;> simp [↓hide_with, ↓hide_with_pin, hide_foldl])

@[simp ↓] theorem hide_execTamperEvent {μ : Mask} [Hidden μ.out] [Hidden μ.boot] [Hidden μ.bootSt] [Hidden μ.cpx] [Hidden μ.flt] [Hidden μ.hif] [Hidden μ.coil] [Hidden μ.nvs] [Hidden μ.crd] [Hidden μ.sgr] [Hidden μ.tmp] (src : Nat) (detail : W32) (s : State) :
    kept μ (hide μ s) (execTamperEvent src detail s) := by
  unfold execTamperEvent
  (try dsimp -proj only)
  first
  | (simp [↓hide_with, ↓hide_with_pin, hide_foldl]; done)
  | ((repeat' split) <;> simp [↓hide_with, ↓hide_with_pin, hide_foldl])

@[simp ↓] theorem hide_execTamperWindowExpiry {μ : Mask} [Hidden μ.tmp] (src : Nat) (s : State) :
    kept μ (hide μ s) (execTamperWindowExpiry src s) := by
  unfold execTamperWindowExpiry
  (try dsimp -proj only)
  first
  | (simp [↓hide_with, ↓hide_with_pin, hide_foldl]; done)
  | ((repeat' split) <;> simp [↓hide_with, ↓hide_with_pin, hide_foldl])

@[simp ↓] theorem hide_execTamperHoldoffEnd {μ : Mask} [Hidden μ.tmp] (src : Nat) (s : State) :
    kept μ (hide μ s) (execTamperHoldoffEnd src s) := by
  unfold execTamperHoldoffEnd
  (try dsimp -proj only)
  first
  | (simp [↓hide_with, ↓hide_with_pin, hide_foldl]; done)
  | ((repeat' split) <;> simp [↓hide_with, ↓hide_with_pin, hide_foldl])

@[simp ↓] theorem hide_execMeshReseed {μ : Mask} [Hidden μ.free] [Hidden μ.sgr] [Hidden μ.tmp] (s : State) :
    kept μ (hide μ s) (execMeshReseed s) := by
  unfold execMeshReseed
  (try dsimp -proj only)
  first
  | (simp [↓hide_with, ↓hide_with_pin, hide_foldl]; done)
  | ((repeat' split) <;> simp [↓hide_with, ↓hide_with_pin, hide_foldl])

@[simp ↓] theorem hide_writeBist {μ : Mask} [Hidden μ.tmp] (v : W32) (s : State) :
    hide μ (writeBist v s) = hide μ s := by
  unfold writeBist
  (try dsimp -proj only)
  first
  | (simp [↓hide_with, ↓hide_with_pin, hide_foldl]; done)
  | ((repeat' split) <;> simp [↓hide_with, ↓hide_with_pin, hide_foldl])

@[simp ↓] theorem hide_execTmpBistStart {μ : Mask} [Hidden μ.tmp] (v : W32) (s : State) :
    kept μ (hide μ s) (execTmpBistStart v s) := by
  unfold execTmpBistStart
  (try dsimp -proj only)
  first
  | (simp [↓hide_with, ↓hide_with_pin, hide_foldl]; done)
  | ((repeat' split) <;> simp [↓hide_with, ↓hide_with_pin, hide_foldl])

@[simp ↓] theorem hide_execTmpBistEnd {μ : Mask} [Hidden μ.out] [Hidden μ.bootSt] [Hidden μ.cpx] [Hidden μ.flt] [Hidden μ.hif] [Hidden μ.coil] [Hidden μ.nvs] [Hidden μ.tmp] (detected : Bool) (s : State) :
    kept μ (hide μ s) (execTmpBistEnd detected s) := by
  unfold execTmpBistEnd
  (try dsimp -proj only)
  first
  | (simp [↓hide_with, ↓hide_with_pin, hide_foldl]; done)
  | ((repeat' split) <;> simp [↓hide_with, ↓hide_with_pin, hide_foldl])

@[simp ↓] theorem hide_execTamperLogDrain {μ : Mask} [Hidden μ.out] [Hidden μ.bootSt] [Hidden μ.cpx] [Hidden μ.flt] [Hidden μ.hif] [Hidden μ.coil] [Hidden μ.nvs] (s : State) :
    kept μ (hide μ s) (execTamperLogDrain s) := by
  unfold execTamperLogDrain
  (try dsimp -proj only)
  first
  | (simp [↓hide_with, ↓hide_with_pin, hide_foldl]; done)
  | ((repeat' split) <;> simp [↓hide_with, ↓hide_with_pin, hide_foldl])

end Sys2Proof.Laws
end

