-- ==== Sys2Proof/Laws/FootConfigSet.lean ====
section
/-!
SUPPORT. What the operations of Machine/ConfigSet.lean leave unchanged.
-/
set_option linter.unusedSimpArgs false
set_option linter.unusedTactic false
set_option linter.unreachableTactic false
namespace Sys2Proof.Laws
open Sys2Proof.Machine

@[simp ↓] theorem hide_sqwApply {μ : Mask} [Hidden μ.rtc] [Hidden μ.pin] (v : W32) (s : State) :
    hide μ (sqwApply v s) = hide μ s := by
  unfold sqwApply
  (try dsimp -proj only)
  first
  | (simp [↓hide_with, ↓hide_with_pin, hide_foldl]; done)
  | ((repeat' split) <;> simp [↓hide_with, ↓hide_with_pin, hide_foldl])

@[simp ↓] theorem hide_evApply {μ : Mask} [Hidden μ.free] [Hidden μ.rtc] (v : W32) (s : State) :
    hide μ (evApply v s) = hide μ s := by
  unfold evApply
  (try dsimp -proj only)
  first
  | (simp [↓hide_with, ↓hide_with_pin, hide_foldl]; done)
  | ((repeat' split) <;> simp [↓hide_with, ↓hide_with_pin, hide_foldl])

@[simp ↓] theorem hide_itemDirect {μ : Mask} [Hidden μ.free] [Hidden μ.rtc] [Hidden μ.afe] [Hidden μ.pin] [Hidden μ.dec] [Hidden μ.trf] (item : Nat) (v : W32) (s : State) :
    hide μ (itemDirect item v s) = hide μ s := by
  unfold itemDirect
  (try dsimp -proj only)
  first
  | (simp [↓hide_with, ↓hide_with_pin, hide_foldl]; done)
  | ((repeat' split) <;> simp [↓hide_with, ↓hide_with_pin, hide_foldl])

@[simp ↓] theorem hide_itemAccept {μ : Mask} [Hidden μ.free] [Hidden μ.whl] [Hidden μ.rtc] [Hidden μ.afe] [Hidden μ.pin] [Hidden μ.dec] [Hidden μ.pnt] [Hidden μ.pq] [Hidden μ.trf] (item index : Nat) (v : W32) (s : State) :
    hide μ (itemAccept item index v s) = hide μ s := by
  unfold itemAccept
  (try dsimp -proj only)
  first
  | (simp [↓hide_with, ↓hide_with_pin, hide_foldl]; done)
  | ((repeat' split) <;> simp [↓hide_with, ↓hide_with_pin, hide_foldl])

@[simp ↓] theorem hide_itemLoad {μ : Mask} [Hidden μ.free] [Hidden μ.whl] [Hidden μ.rtc] [Hidden μ.afe] [Hidden μ.pin] [Hidden μ.dec] [Hidden μ.pnt] [Hidden μ.pq] [Hidden μ.trf] (item index : Nat) (v : W32) (s : State) :
    hide μ (itemLoad item index v s) = hide μ s := by
  unfold itemLoad
  (try dsimp -proj only)
  first
  | (simp [↓hide_with, ↓hide_with_pin, hide_foldl]; done)
  | ((repeat' split) <;> simp [↓hide_with, ↓hide_with_pin, hide_foldl])

@[simp ↓] theorem hide_loadItems {μ : Mask} [Hidden μ.free] [Hidden μ.whl] [Hidden μ.rtc] [Hidden μ.afe] [Hidden μ.pin] [Hidden μ.dec] [Hidden μ.pnt] [Hidden μ.pq] [Hidden μ.trf] (s : State) : hide μ (loadItems s) = hide μ s := by
  unfold loadItems
  refine hide_foldl (fun t x => ?_) _ _
  refine hide_foldl (fun u i => ?_) _ _
  (try dsimp -proj only)
  split <;> simp

@[simp ↓] theorem hide_execConfigSet {μ : Mask} [Hidden μ.free] [Hidden μ.out] [Hidden μ.bootSt] [Hidden μ.cpx] [Hidden μ.whl] [Hidden μ.flt] [Hidden μ.hif] [Hidden μ.coil] [Hidden μ.nvs] [Hidden μ.rtc] [Hidden μ.afe] [Hidden μ.pin] [Hidden μ.dec] [Hidden μ.pnt] [Hidden μ.pq] [Hidden μ.trf] (r : Req) (s : State) :
    kept μ (hide μ s) (execConfigSet r s) := by
  unfold execConfigSet
  (try dsimp -proj only)
  refine hide_ring0 _ _ _ _ _ ?_
  (try dsimp -proj only)
  first
  | (simp [↓hide_with, ↓hide_with_pin, hide_foldl]; done)
  | ((repeat' split) <;> simp [↓hide_with, ↓hide_with_pin, hide_foldl])

end Sys2Proof.Laws
end

