-- ==== Sys2Proof/Laws/FootRestore.lean ====
section
/-!
SUPPORT. What the operations of Machine/Restore.lean leave unchanged.
-/
set_option linter.unusedSimpArgs false
set_option linter.unusedTactic false
set_option linter.unreachableTactic false
namespace Sys2Proof.Laws
open Sys2Proof.Machine

@[simp ↓] theorem hide_lgFreeze {μ : Mask} [Hidden μ.free] [Hidden μ.out] [Hidden μ.bootSt] [Hidden μ.cpx] [Hidden μ.whl] [Hidden μ.flt] [Hidden μ.hif] [Hidden μ.coil] [Hidden μ.nvs] [Hidden μ.afe] [Hidden μ.dec] [Hidden μ.pnt] [Hidden μ.pq] [Hidden μ.cal] [Hidden μ.trf] [Hidden μ.crd] (s : State) :
    hide μ (lgFreeze s) = hide μ s := by
  unfold lgFreeze
  (try dsimp -proj only)
  first
  | (simp [↓hide_with, ↓hide_with_pin, hide_foldl]; done)
  | ((repeat' split) <;> simp [↓hide_with, ↓hide_with_pin, hide_foldl])

@[simp ↓] theorem hide_lgAssemble {μ : Mask} [Hidden μ.free] [Hidden μ.out] [Hidden μ.bootSt] [Hidden μ.cpx] [Hidden μ.whl] [Hidden μ.flt] [Hidden μ.hif] [Hidden μ.coil] [Hidden μ.nvs] [Hidden μ.afe] [Hidden μ.dec] [Hidden μ.pnt] [Hidden μ.pq] [Hidden μ.cal] [Hidden μ.trf] [Hidden μ.crd] (g : LgRun) (s : State) :
    hide μ (lgAssemble g s) = hide μ s := by
  unfold lgAssemble
  (try dsimp -proj only)
  first
  | (simp [↓hide_with, ↓hide_with_pin, hide_foldl]; done)
  | ((repeat' split) <;> simp [↓hide_with, ↓hide_with_pin, hide_foldl])

@[simp ↓] theorem hide_putArea {μ : Mask} [Hidden μ.nvs] (b : Bool) (a : LgArea) (s : State) :
    hide μ (putArea b a s) = hide μ s := by
  unfold putArea
  (try dsimp -proj only)
  first
  | (simp [↓hide_with, ↓hide_with_pin, hide_foldl]; done)
  | ((repeat' split) <;> simp [↓hide_with, ↓hide_with_pin, hide_foldl])

@[simp ↓] theorem hide_clearSeal {μ : Mask} [Hidden μ.nvs] (s : State) :
    hide μ (clearSeal s) = hide μ s := by
  unfold clearSeal
  (try dsimp -proj only)
  first
  | (simp [↓hide_with, ↓hide_with_pin, hide_foldl]; done)
  | ((repeat' split) <;> simp [↓hide_with, ↓hide_with_pin, hide_foldl])

@[simp ↓] theorem hide_mirrorResume {μ : Mask} [Hidden μ.out] [Hidden μ.bootSt] [Hidden μ.cpx] [Hidden μ.flt] [Hidden μ.hif] [Hidden μ.coil] [Hidden μ.nvs] (pos : W32) (s : State) : hide μ (mirrorResume pos s) = hide μ s := by
  unfold mirrorResume
  (try dsimp -proj only)
  split
  · simp [↓hide_with]
  · rw [hide_foldl (fun t i => ?_)]
    · simp [↓hide_with]
    · (try dsimp -proj only)
      split <;> simp

@[simp ↓] theorem hide_recLost {μ : Mask} [Hidden μ.out] [Hidden μ.bootSt] [Hidden μ.cpx] [Hidden μ.flt] [Hidden μ.hif] [Hidden μ.coil] [Hidden μ.nvs] (key : Nat) (s : State) :
    hide μ (recLost key s) = hide μ s := by
  unfold recLost
  (try dsimp -proj only)
  first
  | (simp [↓hide_with, ↓hide_with_pin, hide_foldl]; done)
  | ((repeat' split) <;> simp [↓hide_with, ↓hide_with_pin, hide_foldl])

@[simp ↓] theorem hide_repairRec {μ : Mask} [Hidden μ.out] [Hidden μ.bootSt] [Hidden μ.cpx] [Hidden μ.flt] [Hidden μ.hif] [Hidden μ.coil] [Hidden μ.nvs] [Hidden μ.store] (key : Nat) (s : State) :
    hide μ (repairRec key s) = hide μ s := by
  unfold repairRec
  (try dsimp -proj only)
  first
  | (simp [↓hide_with, ↓hide_with_pin, hide_foldl]; done)
  | ((repeat' split) <;> simp [↓hide_with, ↓hide_with_pin, hide_foldl])

@[simp ↓] theorem hide_repairImage {μ : Mask} [Hidden μ.store] (s : State) (x : Nat) :
    hide μ (repairImage s x) = hide μ s := by
  unfold repairImage
  (try dsimp -proj only)
  first
  | (simp [↓hide_with, ↓hide_with_pin, hide_foldl]; done)
  | ((repeat' split) <;> simp [↓hide_with, ↓hide_with_pin, hide_foldl])

@[simp ↓] theorem hide_repairAll {μ : Mask} [Hidden μ.out] [Hidden μ.bootSt] [Hidden μ.cpx] [Hidden μ.flt] [Hidden μ.hif] [Hidden μ.coil] [Hidden μ.nvs] [Hidden μ.store] (s : State) :
    hide μ (repairAll s) = hide μ s := by
  unfold repairAll
  (try dsimp -proj only)
  first
  | (simp [↓hide_with, ↓hide_with_pin, hide_foldl]; done)
  | ((repeat' split) <;> simp [↓hide_with, ↓hide_with_pin, hide_foldl])

@[simp ↓] theorem hide_chooseArea {μ : Mask} [Hidden μ.out] [Hidden μ.bootSt] [Hidden μ.cpx] [Hidden μ.flt] [Hidden μ.hif] [Hidden μ.coil] [Hidden μ.nvs] (s : State) :
    hide μ (chooseArea s) = hide μ s := by
  unfold chooseArea
  (try dsimp -proj only)
  first
  | (simp [↓hide_with, ↓hide_with_pin, hide_foldl]; done)
  | ((repeat' split) <;> simp [↓hide_with, ↓hide_with_pin, hide_foldl])

@[simp ↓] theorem hide_setTotals {μ : Mask} [Hidden μ.pnt] (p : Nat) (l : List Nat) (s : State) :
    hide μ (setTotals p l s) = hide μ s := by
  unfold setTotals
  (try dsimp -proj only)
  first
  | (simp [↓hide_with, ↓hide_with_pin, hide_foldl]; done)
  | ((repeat' split) <;> simp [↓hide_with, ↓hide_with_pin, hide_foldl])

@[simp ↓] theorem hide_restoreTotals {μ : Mask} [Hidden μ.out] [Hidden μ.bootSt] [Hidden μ.cpx] [Hidden μ.flt] [Hidden μ.hif] [Hidden μ.coil] [Hidden μ.nvs] [Hidden μ.pnt] (lg : Option LgArea) (p : Nat) (s : State) :
    hide μ (restoreTotals lg p s) = hide μ s := by
  unfold restoreTotals
  (try dsimp -proj only)
  first
  | (simp [↓hide_with, ↓hide_with_pin, hide_foldl]; done)
  | ((repeat' split) <;> simp [↓hide_with, ↓hide_with_pin, hide_foldl])

@[simp ↓] theorem hide_raiseTotals {μ : Mask} [Hidden μ.pnt] (p : Nat) (s : State) :
    hide μ (raiseTotals p s).1 = hide μ s := by
  unfold raiseTotals
  (try dsimp -proj only)
  first
  | (simp [↓hide_with, ↓hide_with_pin, hide_foldl]; done)
  | ((repeat' split) <;> simp [↓hide_with, ↓hide_with_pin, hide_foldl])

@[simp ↓] theorem hide_addTo {μ : Mask} [Hidden μ.trf] (p t : Nat) (e : List Nat) (s : State) :
    hide μ (addTo p t e s) = hide μ s := by
  unfold addTo
  (try dsimp -proj only)
  first
  | (simp [↓hide_with, ↓hide_with_pin, hide_foldl]; done)
  | ((repeat' split) <;> simp [↓hide_with, ↓hide_with_pin, hide_foldl])

@[simp ↓] theorem hide_reconcile {μ : Mask} [Hidden μ.out] [Hidden μ.bootSt] [Hidden μ.cpx] [Hidden μ.flt] [Hidden μ.hif] [Hidden μ.coil] [Hidden μ.nvs] [Hidden μ.pnt] [Hidden μ.trf] (bnd : Option (Nat × Tab (List Nat))) (p : Nat) (s : State) :
    hide μ (reconcile bnd p s) = hide μ s := by
  unfold reconcile
  (try dsimp -proj only)
  first
  | (simp [↓hide_with, ↓hide_with_pin, hide_foldl]; done)
  | ((repeat' split) <;> simp [↓hide_with, ↓hide_with_pin, hide_foldl])

@[simp ↓] theorem hide_completeBoundary {μ : Mask} [Hidden μ.free] [Hidden μ.out] [Hidden μ.bootSt] [Hidden μ.cpx] [Hidden μ.flt] [Hidden μ.hif] [Hidden μ.coil] [Hidden μ.nvs] [Hidden μ.pnt] [Hidden μ.trf] (lg : LgArea) (s : State) :
    hide μ (completeBoundary lg s) = hide μ s := by
  unfold completeBoundary
  (try dsimp -proj only)
  first
  | (simp [↓hide_with, ↓hide_with_pin, hide_foldl]; done)
  | ((repeat' split) <;> simp [↓hide_with, ↓hide_with_pin, hide_foldl])

@[simp ↓] theorem hide_restoreCredit {μ : Mask} [Hidden μ.crd] (lg : Option LgArea) (p : Nat) (s : State) :
    hide μ (restoreCredit lg p s) = hide μ s := by
  unfold restoreCredit
  (try dsimp -proj only)
  first
  | (simp [↓hide_with, ↓hide_with_pin, hide_foldl]; done)
  | ((repeat' split) <;> simp [↓hide_with, ↓hide_with_pin, hide_foldl])

@[simp ↓] theorem hide_loadChans {μ : Mask} [Hidden μ.out] [Hidden μ.bootSt] [Hidden μ.cpx] [Hidden μ.flt] [Hidden μ.hif] [Hidden μ.coil] [Hidden μ.nvs] [Hidden μ.afe] [Hidden μ.dec] [Hidden μ.pnt] [Hidden μ.cal] (s : State) : hide μ (loadChans s) = hide μ s := by
  unfold loadChans
  (try dsimp -proj only)
  rw [hide_writeCodes, hide_foldl (fun t c => by simp)]
  refine hide_foldl (fun t c => ?_) _ _
  (try dsimp -proj only)
  split <;> simp [↓hide_with]

@[simp ↓] theorem hide_loadPoints {μ : Mask} [Hidden μ.pnt] (s : State) : hide μ (loadPoints s) = hide μ s := by
  unfold loadPoints
  refine hide_foldl (fun t p => ?_) _ _
  (try dsimp -proj only)
  repeat' split
  all_goals simp [↓hide_with, ↓hide_with_pin, hide_foldl]

@[simp ↓] theorem hide_loadBanks {μ : Mask} [Hidden μ.dec] (s : State) : hide μ (loadBanks s) = hide μ s := by
  unfold loadBanks
  (try dsimp -proj only)
  rw [hide_loadBoth]
  refine hide_foldl (fun t g => ?_) _ _
  (try dsimp -proj only)
  repeat' split
  all_goals simp

@[simp ↓] theorem hide_loadShadows {μ : Mask} [Hidden μ.out] [Hidden μ.bootSt] [Hidden μ.cpx] [Hidden μ.flt] [Hidden μ.hif] [Hidden μ.coil] [Hidden μ.nvs] [Hidden μ.afe] [Hidden μ.dec] [Hidden μ.cal] (s : State) :
    hide μ (loadShadows s) = hide μ s := by
  unfold loadShadows
  (try dsimp -proj only)
  first
  | (simp [↓hide_with, ↓hide_with_pin, hide_foldl]; done)
  | ((repeat' split) <;> simp [↓hide_with, ↓hide_with_pin, hide_foldl])

@[simp ↓] theorem hide_loadCredit {μ : Mask} [Hidden μ.pin] [Hidden μ.crd] (s : State) : hide μ (loadCredit s) = hide μ s := by
  unfold loadCredit
  (try dsimp -proj only)
  rw [hide_foldl (fun t n => ?_), hide_foldl (fun t p => ?_)]
  · (try dsimp -proj only)
    split <;> simp [↓hide_with]
  · (try dsimp -proj only)
    repeat' split
    all_goals simp [↓hide_with]

@[simp ↓] theorem hide_claimCf {μ : Mask} [Hidden μ.pin] (n : Nat) (w : W32) (s : State) :
    hide μ (claimCf n w s).1 = hide μ s := by
  unfold claimCf
  (try dsimp -proj only)
  first
  | (simp [↓hide_with, ↓hide_with_pin, hide_foldl]; done)
  | ((repeat' split) <;> simp [↓hide_with, ↓hide_with_pin, hide_foldl])

@[simp ↓] theorem hide_loadCfOne {μ : Mask} [Hidden μ.pin] [Hidden μ.pnt] (n : Nat) (b : List Byte) (s : State) :
    hide μ (loadCfOne n b s) = hide μ s := by
  unfold loadCfOne
  (try dsimp -proj only)
  first
  | (simp [↓hide_with, ↓hide_with_pin, hide_foldl]; done)
  | ((repeat' split) <;> simp [↓hide_with, ↓hide_with_pin, hide_foldl])

@[simp ↓] theorem hide_loadCf {μ : Mask} [Hidden μ.pin] [Hidden μ.pnt] (s : State) : hide μ (loadCf s) = hide μ s := by
  unfold loadCf
  refine hide_foldl (fun t n => ?_) _ _
  (try dsimp -proj only)
  repeat' split
  all_goals simp [↓hide_with, ↓hide_with_pin, hide_foldl]

@[simp ↓] theorem hide_loadEcreq {μ : Mask} [Hidden μ.pin] [Hidden μ.crd] (s : State) :
    hide μ (loadEcreq s) = hide μ s := by
  unfold loadEcreq
  (try dsimp -proj only)
  first
  | (simp [↓hide_with, ↓hide_with_pin, hide_foldl]; done)
  | ((repeat' split) <;> simp [↓hide_with, ↓hide_with_pin, hide_foldl])

@[simp ↓] theorem hide_loadPq {μ : Mask} [Hidden μ.nvs] [Hidden μ.pq] (s : State) : hide μ (loadPq s) = hide μ s := by
  unfold loadPq
  (try dsimp -proj only)
  rw [hide_foldl (fun t r => ?_), hide_foldl (fun t e => ?_), hide_ite, hide_foldl (fun t e => ?_), ite_self]
  · simp
  · simp [↓hide_with]
  · (try dsimp -proj only)
    split <;> simp [↓hide_with]

@[simp ↓] theorem hide_loadTrf {μ : Mask} [Hidden μ.trf] (s : State) : hide μ (loadTrf s) = hide μ s := by
  unfold loadTrf
  dsimp -proj only
  rw [show ∀ t : State, hide μ { t with trf.snapSeq := nextSnapSeq t } = hide μ t from fun t => by simp [↓hide_with],
    hide_foldl (fun t p => ?_)]
  · split <;> simp [↓hide_with]
  · (try dsimp -proj only)
    split <;> simp

@[simp ↓] theorem hide_loadCoil {μ : Mask} [Hidden μ.out] [Hidden μ.hif] [Hidden μ.coil] [Hidden μ.pq] (s : State) : hide μ (loadCoil s) = hide μ s := by
  unfold loadCoil
  split
  · refine hide_foldl (fun t k => ?_) _ _
    (try dsimp -proj only)
    repeat' split
    all_goals simp
  · rfl

@[simp ↓] theorem hide_loadMuxes {μ : Mask} [Hidden μ.afe] (s : State) :
    hide μ (loadMuxes s) = hide μ s := by
  unfold loadMuxes
  (try dsimp -proj only)
  first
  | (simp [↓hide_with, ↓hide_with_pin, hide_foldl]; done)
  | ((repeat' split) <;> simp [↓hide_with, ↓hide_with_pin, hide_foldl])

@[simp ↓] theorem hide_loadAll {μ : Mask} [Hidden μ.free] [Hidden μ.out] [Hidden μ.bootSt] [Hidden μ.cpx] [Hidden μ.whl] [Hidden μ.flt] [Hidden μ.hif] [Hidden μ.coil] [Hidden μ.nvs] [Hidden μ.rtc] [Hidden μ.afe] [Hidden μ.pin] [Hidden μ.dec] [Hidden μ.pnt] [Hidden μ.pq] [Hidden μ.cal] [Hidden μ.trf] [Hidden μ.crd] (s : State) :
    hide μ (loadAll s) = hide μ s := by
  unfold loadAll
  (try dsimp -proj only)
  first
  | (simp [↓hide_with, ↓hide_with_pin, hide_foldl]; done)
  | ((repeat' split) <;> simp [↓hide_with, ↓hide_with_pin, hide_foldl])

@[simp ↓] theorem hide_restoreRegs {μ : Mask} [Hidden μ.out] [Hidden μ.bootSt] [Hidden μ.cpx] [Hidden μ.flt] [Hidden μ.hif] [Hidden μ.coil] [Hidden μ.nvs] [Hidden μ.pnt] [Hidden μ.trf] (lg : Option LgArea) (s : State) :
    hide μ (restoreRegs lg s) = hide μ s := by
  unfold restoreRegs
  (try dsimp -proj only)
  first
  | (simp [↓hide_with, ↓hide_with_pin, hide_foldl]; done)
  | ((repeat' split) <;> simp [↓hide_with, ↓hide_with_pin, hide_foldl])

@[simp ↓] theorem hide_restoreGasp {μ : Mask} [Hidden μ.out] [Hidden μ.bootSt] [Hidden μ.cpx] [Hidden μ.flt] [Hidden μ.hif] [Hidden μ.coil] [Hidden μ.nvs] [Hidden μ.pnt] (a : LgArea) (s : State) :
    hide μ (restoreGasp a s) = hide μ s := by
  unfold restoreGasp
  (try dsimp -proj only)
  first
  | (simp [↓hide_with, ↓hide_with_pin, hide_foldl]; done)
  | ((repeat' split) <;> simp [↓hide_with, ↓hide_with_pin, hide_foldl])

@[simp ↓] theorem hide_restoreBoundaries {μ : Mask} [Hidden μ.free] [Hidden μ.out] [Hidden μ.bootSt] [Hidden μ.cpx] [Hidden μ.whl] [Hidden μ.flt] [Hidden μ.hif] [Hidden μ.coil] [Hidden μ.nvs] [Hidden μ.pnt] [Hidden μ.trf] (lg : Option LgArea) (s : State) :
    hide μ (restoreBoundaries lg s) = hide μ s := by
  unfold restoreBoundaries
  (try dsimp -proj only)
  first
  | (simp [↓hide_with, ↓hide_with_pin, hide_foldl]; done)
  | ((repeat' split) <;> simp [↓hide_with, ↓hide_with_pin, hide_foldl])

@[simp ↓] theorem hide_keptRec {μ : Mask} [Hidden μ.nvs] (kind : Nat) (o s : State) :
    hide μ (keptRec kind o s) = hide μ s := by
  unfold keptRec
  (try dsimp -proj only)
  first
  | (simp [↓hide_with, ↓hide_with_pin, hide_foldl]; done)
  | ((repeat' split) <;> simp [↓hide_with, ↓hide_with_pin, hide_foldl])

@[simp ↓] theorem hide_logRtcReset {μ : Mask} [Hidden μ.nvs] [Hidden μ.rtc] (o s : State) :
    hide μ (logRtcReset o s) = hide μ s := by
  unfold logRtcReset
  (try dsimp -proj only)
  first
  | (simp [↓hide_with, ↓hide_with_pin, hide_foldl]; done)
  | ((repeat' split) <;> simp [↓hide_with, ↓hide_with_pin, hide_foldl])

@[simp ↓] theorem hide_logKeptSet {μ : Mask} [Hidden μ.nvs] [Hidden μ.rtc] (o s : State) :
    hide μ (logKeptSet o s) = hide μ s := by
  unfold logKeptSet
  (try dsimp -proj only)
  first
  | (simp [↓hide_with, ↓hide_with_pin, hide_foldl]; done)
  | ((repeat' split) <;> simp [↓hide_with, ↓hide_with_pin, hide_foldl])

@[simp ↓] theorem hide_logRtcWrap {μ : Mask} [Hidden μ.nvs] [Hidden μ.rtc] (o s : State) :
    hide μ (logRtcWrap o s) = hide μ s := by
  unfold logRtcWrap
  (try dsimp -proj only)
  first
  | (simp [↓hide_with, ↓hide_with_pin, hide_foldl]; done)
  | ((repeat' split) <;> simp [↓hide_with, ↓hide_with_pin, hide_foldl])

@[simp ↓] theorem hide_logOscStop {μ : Mask} [Hidden μ.out] [Hidden μ.bootSt] [Hidden μ.cpx] [Hidden μ.flt] [Hidden μ.hif] [Hidden μ.coil] [Hidden μ.nvs] [Hidden μ.rtc] (o s : State) :
    hide μ (logOscStop o s) = hide μ s := by
  unfold logOscStop
  (try dsimp -proj only)
  first
  | (simp [↓hide_with, ↓hide_with_pin, hide_foldl]; done)
  | ((repeat' split) <;> simp [↓hide_with, ↓hide_with_pin, hide_foldl])

@[simp ↓] theorem hide_logOscStart {μ : Mask} [Hidden μ.nvs] [Hidden μ.rtc] (o s : State) :
    hide μ (logOscStart o s) = hide μ s := by
  unfold logOscStart
  (try dsimp -proj only)
  first
  | (simp [↓hide_with, ↓hide_with_pin, hide_foldl]; done)
  | ((repeat' split) <;> simp [↓hide_with, ↓hide_with_pin, hide_foldl])

@[simp ↓] theorem hide_logPrevStop {μ : Mask} [Hidden μ.flt] [Hidden μ.nvs] (lg : Option LgArea) (s : State) :
    hide μ (logPrevStop lg s) = hide μ s := by
  unfold logPrevStop
  (try dsimp -proj only)
  first
  | (simp [↓hide_with, ↓hide_with_pin, hide_foldl]; done)
  | ((repeat' split) <;> simp [↓hide_with, ↓hide_with_pin, hide_foldl])

@[simp ↓] theorem hide_restorePending {μ : Mask} [Hidden μ.out] [Hidden μ.bootSt] [Hidden μ.cpx] [Hidden μ.flt] [Hidden μ.hif] [Hidden μ.coil] [Hidden μ.nvs] [Hidden μ.rtc] (lg : Option LgArea) (s : State) :
    hide μ (restorePending lg s) = hide μ s := by
  unfold restorePending
  (try dsimp -proj only)
  first
  | (simp [↓hide_with, ↓hide_with_pin, hide_foldl]; done)
  | ((repeat' split) <;> simp [↓hide_with, ↓hide_with_pin, hide_foldl])

@[simp ↓] theorem hide_powerUpRec {μ : Mask} [Hidden μ.nvs] (prev : W32) (s : State) :
    hide μ (powerUpRec prev s) = hide μ s := by
  unfold powerUpRec
  (try dsimp -proj only)
  first
  | (simp [↓hide_with, ↓hide_with_pin, hide_foldl]; done)
  | ((repeat' split) <;> simp [↓hide_with, ↓hide_with_pin, hide_foldl])

@[simp ↓] theorem hide_applyEff {μ : Mask} [Hidden μ.out] [Hidden μ.bootSt] [Hidden μ.cpx] [Hidden μ.flt] [Hidden μ.hif] [Hidden μ.coil] [Hidden μ.nvs] [Hidden μ.afe] [Hidden μ.pin] [Hidden μ.cal] [Hidden μ.crd] (e : GroupEff) (s : State) :
    hide μ (applyEff e s) = hide μ s := by
  unfold applyEff
  (try dsimp -proj only)
  first
  | (simp [↓hide_with, ↓hide_with_pin, hide_foldl]; done)
  | ((repeat' split) <;> simp [↓hide_with, ↓hide_with_pin, hide_foldl])

@[simp ↓] theorem hide_flushGroup {μ : Mask} [Hidden μ.out] [Hidden μ.bootSt] [Hidden μ.cpx] [Hidden μ.flt] [Hidden μ.hif] [Hidden μ.coil] [Hidden μ.nvs] [Hidden μ.store] [Hidden μ.afe] [Hidden μ.pin] [Hidden μ.cal] [Hidden μ.crd] (s : State) (g : Group) :
    hide μ (flushGroup s g) = hide μ s := by
  unfold flushGroup
  (try dsimp -proj only)
  first
  | (simp [↓hide_with, ↓hide_with_pin, hide_foldl]; done)
  | ((repeat' split) <;> simp [↓hide_with, ↓hide_with_pin, hide_foldl])

@[simp ↓] theorem hide_flushGroups {μ : Mask} [Hidden μ.out] [Hidden μ.bootSt] [Hidden μ.cpx] [Hidden μ.flt] [Hidden μ.hif] [Hidden μ.coil] [Hidden μ.nvs] [Hidden μ.store] [Hidden μ.afe] [Hidden μ.pin] [Hidden μ.cal] [Hidden μ.crd] (s : State) :
    hide μ (flushGroups s) = hide μ s := by
  unfold flushGroups
  (try dsimp -proj only)
  first
  | (simp [↓hide_with, ↓hide_with_pin, hide_foldl]; done)
  | ((repeat' split) <;> simp [↓hide_with, ↓hide_with_pin, hide_foldl])

@[simp ↓] theorem hide_restoreCredits {μ : Mask} [Hidden μ.crd] (lg : Option LgArea) (s : State) : hide μ (restoreCredits lg s) = hide μ s :=
  hide_foldl (fun t p => by simp) _ _

@[simp ↓] theorem hide_restoreFrom {μ : Mask} [Hidden μ.free] [Hidden μ.out] [Hidden μ.bootSt] [Hidden μ.cpx] [Hidden μ.whl] [Hidden μ.flt] [Hidden μ.hif] [Hidden μ.coil] [Hidden μ.nvs] [Hidden μ.pnt] [Hidden μ.trf] [Hidden μ.crd] (lg : Option LgArea) (s : State) :
    hide μ (restoreFrom lg s) = hide μ s := by
  unfold restoreFrom
  (try dsimp -proj only)
  first
  | (simp [↓hide_with, ↓hide_with_pin, hide_foldl]; done)
  | ((repeat' split) <;> simp [↓hide_with, ↓hide_with_pin, hide_foldl])

@[simp ↓] theorem hide_restoreLogs {μ : Mask} [Hidden μ.out] [Hidden μ.bootSt] [Hidden μ.cpx] [Hidden μ.flt] [Hidden μ.hif] [Hidden μ.coil] [Hidden μ.nvs] [Hidden μ.rtc] [Hidden μ.sgr] (lg : Option LgArea) (sess : W32) (s : State) :
    hide μ (restoreLogs lg sess s) = hide μ s := by
  unfold restoreLogs
  (try dsimp -proj only)
  first
  | (simp [↓hide_with, ↓hide_with_pin, hide_foldl]; done)
  | ((repeat' split) <;> simp [↓hide_with, ↓hide_with_pin, hide_foldl])

@[simp ↓] theorem hide_restoreAll {μ : Mask} [Hidden μ.free] [Hidden μ.out] [Hidden μ.bootSt] [Hidden μ.cpx] [Hidden μ.whl] [Hidden μ.flt] [Hidden μ.hif] [Hidden μ.coil] [Hidden μ.nvs] [Hidden μ.store] [Hidden μ.rtc] [Hidden μ.afe] [Hidden μ.pin] [Hidden μ.dec] [Hidden μ.pnt] [Hidden μ.pq] [Hidden μ.cal] [Hidden μ.trf] [Hidden μ.crd] [Hidden μ.sgr] (s : State) :
    hide μ (restoreAll s) = hide μ s := by
  unfold restoreAll
  (try dsimp -proj only)
  first
  | (simp [↓hide_with, ↓hide_with_pin, hide_foldl]; done)
  | ((repeat' split) <;> simp [↓hide_with, ↓hide_with_pin, hide_foldl])

end Sys2Proof.Laws
end

