-- ==== Sys2Proof/Laws/FootPower.lean ====
section
/-!
SUPPORT. What the operations of Machine/Power.lean leave unchanged.
-/
set_option linter.unusedSimpArgs false
set_option linter.unusedTactic false
set_option linter.unreachableTactic false
namespace Sys2Proof.Laws
open Sys2Proof.Machine

@[simp ↓] theorem hide_enterPor {μ : Mask} [Hidden μ.porSlot] [Hidden μ.boot] [Hidden μ.bootSt] [Hidden μ.cpx] [Hidden μ.whl] [Hidden μ.flt] [Hidden μ.hif] [Hidden μ.coil] [Hidden μ.nvs] [Hidden μ.store] [Hidden μ.rtc] [Hidden μ.afe] [Hidden μ.pin] [Hidden μ.jtag] [Hidden μ.dec] [Hidden μ.pnt] [Hidden μ.pq] [Hidden μ.cal] [Hidden μ.trf] [Hidden μ.crd] [Hidden μ.sgr] [Hidden μ.tmp] (cause : BitVec 4) (s : State) : hide μ (enterPor cause s) = hide μ s := by
  unfold enterPor porNvs
  simp [↓hide_with_pin]

@[simp ↓] theorem hide_finishCommitted {μ : Mask} [Hidden μ.nvs] [Hidden μ.store] (s : State) :
    hide μ (finishCommitted s) = hide μ s := by
  unfold finishCommitted
  (try dsimp -proj only)
  first
  | (simp [↓hide_with, ↓hide_with_pin, hide_foldl]; done)
  | ((repeat' split) <;> simp [↓hide_with, ↓hide_with_pin, hide_foldl])

@[simp ↓] theorem hide_execPowerOn {μ : Mask} [Hidden μ.porSlot] [Hidden μ.boot] [Hidden μ.bootSt] [Hidden μ.cpx] [Hidden μ.whl] [Hidden μ.flt] [Hidden μ.hif] [Hidden μ.coil] [Hidden μ.nvs] [Hidden μ.store] [Hidden μ.rtc] [Hidden μ.afe] [Hidden μ.pin] [Hidden μ.jtag] [Hidden μ.dec] [Hidden μ.pnt] [Hidden μ.pq] [Hidden μ.cal] [Hidden μ.trf] [Hidden μ.crd] [Hidden μ.sgr] [Hidden μ.tmp] (s : State) :
    kept μ (hide μ s) (execPowerOn s) := by
  unfold execPowerOn
  (try dsimp -proj only)
  first
  | (simp [↓hide_with, ↓hide_with_pin, hide_foldl]; done)
  | ((repeat' split) <;> simp [↓hide_with, ↓hide_with_pin, hide_foldl])

@[simp ↓] theorem hide_execBackupEnter {μ : Mask} [Hidden μ.bootSt] [Hidden μ.rtc] (s : State) :
    kept μ (hide μ s) (execBackupEnter s) := by
  unfold execBackupEnter
  (try dsimp -proj only)
  first
  | (simp [↓hide_with, ↓hide_with_pin, hide_foldl]; done)
  | ((repeat' split) <;> simp [↓hide_with, ↓hide_with_pin, hide_foldl])

@[simp ↓] theorem hide_spreadWrite {μ : Mask} [Hidden μ.store] (i : Nat) (c : Nat) (s : State) :
    hide μ (spreadWrite i c s) = hide μ s := by
  unfold spreadWrite
  (try dsimp -proj only)
  first
  | (simp [↓hide_with, ↓hide_with_pin, hide_foldl]; done)
  | ((repeat' split) <;> simp [↓hide_with, ↓hide_with_pin, hide_foldl])

@[simp ↓] theorem hide_cutSpread {μ : Mask} [Hidden μ.free] [Hidden μ.store] (s : State) :
    hide μ (cutSpread s) = hide μ s := by
  unfold cutSpread
  (try dsimp -proj only)
  first
  | (simp [↓hide_with, ↓hide_with_pin, hide_foldl]; done)
  | ((repeat' split) <;> simp [↓hide_with, ↓hide_with_pin, hide_foldl])

@[simp ↓] theorem hide_cutGasp {μ : Mask} [Hidden μ.free] [Hidden μ.nvs] (s : State) :
    hide μ (cutGasp s) = hide μ s := by
  unfold cutGasp
  (try dsimp -proj only)
  first
  | (simp [↓hide_with, ↓hide_with_pin, hide_foldl]; done)
  | ((repeat' split) <;> simp [↓hide_with, ↓hide_with_pin, hide_foldl])

@[simp ↓] theorem hide_execBrownOut {μ : Mask} [Hidden μ.free] [Hidden μ.porSlot] [Hidden μ.boot] [Hidden μ.bootSt] [Hidden μ.cpx] [Hidden μ.whl] [Hidden μ.flt] [Hidden μ.hif] [Hidden μ.coil] [Hidden μ.nvs] [Hidden μ.store] [Hidden μ.rtc] [Hidden μ.afe] [Hidden μ.pin] [Hidden μ.jtag] [Hidden μ.dec] [Hidden μ.pnt] [Hidden μ.pq] [Hidden μ.cal] [Hidden μ.trf] [Hidden μ.crd] [Hidden μ.sgr] [Hidden μ.tmp] (s : State) :
    kept μ (hide μ s) (execBrownOut s) := by
  unfold execBrownOut
  (try dsimp -proj only)
  first
  | (simp [↓hide_with, ↓hide_with_pin, hide_foldl]; done)
  | ((repeat' split) <;> simp [↓hide_with, ↓hide_with_pin, hide_foldl])

@[simp ↓] theorem hide_resetMetering {μ : Mask} [Hidden μ.free] [Hidden μ.out] [Hidden μ.porSlot] [Hidden μ.boot] [Hidden μ.bootSt] [Hidden μ.cpx] [Hidden μ.whl] [Hidden μ.flt] [Hidden μ.hif] [Hidden μ.coil] [Hidden μ.nvs] [Hidden μ.store] [Hidden μ.rtc] [Hidden μ.afe] [Hidden μ.pin] [Hidden μ.jtag] [Hidden μ.dec] [Hidden μ.pnt] [Hidden μ.pq] [Hidden μ.cal] [Hidden μ.trf] [Hidden μ.crd] [Hidden μ.sgr] [Hidden μ.tmp] (s : State) :
    hide μ (resetMetering s) = hide μ s := by
  unfold resetMetering
  (try dsimp -proj only)
  first
  | (simp [↓hide_with, ↓hide_with_pin, hide_foldl]; done)
  | ((repeat' split) <;> simp [↓hide_with, ↓hide_with_pin, hide_foldl])

@[simp ↓] theorem hide_resetFailstop {μ : Mask} [Hidden μ.porSlot] [Hidden μ.boot] [Hidden μ.bootSt] [Hidden μ.cpx] [Hidden μ.whl] [Hidden μ.flt] [Hidden μ.hif] [Hidden μ.coil] [Hidden μ.nvs] [Hidden μ.store] [Hidden μ.rtc] [Hidden μ.afe] [Hidden μ.pin] [Hidden μ.jtag] [Hidden μ.dec] [Hidden μ.pnt] [Hidden μ.pq] [Hidden μ.cal] [Hidden μ.trf] [Hidden μ.crd] [Hidden μ.sgr] [Hidden μ.tmp] (cause : BitVec 4) (s : State) :
    hide μ (resetFailstop cause s) = hide μ s := by
  unfold resetFailstop
  (try dsimp -proj only)
  first
  | (simp [↓hide_with, ↓hide_with_pin, hide_foldl]; done)
  | ((repeat' split) <;> simp [↓hide_with, ↓hide_with_pin, hide_foldl])

@[simp ↓] theorem hide_execResetnAssert {μ : Mask} [Hidden μ.free] [Hidden μ.out] [Hidden μ.porSlot] [Hidden μ.boot] [Hidden μ.bootSt] [Hidden μ.cpx] [Hidden μ.whl] [Hidden μ.flt] [Hidden μ.hif] [Hidden μ.coil] [Hidden μ.nvs] [Hidden μ.store] [Hidden μ.rtc] [Hidden μ.afe] [Hidden μ.pin] [Hidden μ.jtag] [Hidden μ.dec] [Hidden μ.pnt] [Hidden μ.pq] [Hidden μ.cal] [Hidden μ.trf] [Hidden μ.crd] [Hidden μ.sgr] [Hidden μ.tmp] (s : State) :
    kept μ (hide μ s) (execResetnAssert s) := by
  unfold execResetnAssert
  (try dsimp -proj only)
  first
  | (simp [↓hide_with, ↓hide_with_pin, hide_foldl]; done)
  | ((repeat' split) <;> simp [↓hide_with, ↓hide_with_pin, hide_foldl])

@[simp ↓] theorem hide_execFunctionLevelReset {μ : Mask} [Hidden μ.porSlot] [Hidden μ.boot] [Hidden μ.bootSt] [Hidden μ.cpx] [Hidden μ.whl] [Hidden μ.flt] [Hidden μ.hif] [Hidden μ.coil] [Hidden μ.nvs] [Hidden μ.store] [Hidden μ.rtc] [Hidden μ.afe] [Hidden μ.pin] [Hidden μ.jtag] [Hidden μ.dec] [Hidden μ.pnt] [Hidden μ.pq] [Hidden μ.cal] [Hidden μ.trf] [Hidden μ.crd] [Hidden μ.sgr] [Hidden μ.tmp] (s : State) :
    kept μ (hide μ s) (execFunctionLevelReset s) := by
  unfold execFunctionLevelReset
  (try dsimp -proj only)
  first
  | (simp [↓hide_with, ↓hide_with_pin, hide_foldl]; done)
  | ((repeat' split) <;> simp [↓hide_with, ↓hide_with_pin, hide_foldl])

@[simp ↓] theorem hide_execPowerFailWarning {μ : Mask} [Hidden μ.free] [Hidden μ.out] [Hidden μ.bootSt] [Hidden μ.cpx] [Hidden μ.whl] [Hidden μ.flt] [Hidden μ.hif] [Hidden μ.coil] [Hidden μ.nvs] [Hidden μ.afe] [Hidden μ.dec] [Hidden μ.pnt] [Hidden μ.pq] [Hidden μ.cal] [Hidden μ.trf] [Hidden μ.crd] [Hidden μ.tmp] (s : State) :
    kept μ (hide μ s) (execPowerFailWarning s) := by
  unfold execPowerFailWarning
  (try dsimp -proj only)
  first
  | (simp [↓hide_with, ↓hide_with_pin, hide_foldl]; done)
  | ((repeat' split) <;> simp [↓hide_with, ↓hide_with_pin, hide_foldl])

@[simp ↓] theorem hide_execPowerFailRelease {μ : Mask} [Hidden μ.nvs] (s : State) :
    kept μ (hide μ s) (execPowerFailRelease s) := by
  unfold execPowerFailRelease
  (try dsimp -proj only)
  first
  | (simp [↓hide_with, ↓hide_with_pin, hide_foldl]; done)
  | ((repeat' split) <;> simp [↓hide_with, ↓hide_with_pin, hide_foldl])

@[simp ↓] theorem hide_execPowerRestoreRestart {μ : Mask} [Hidden μ.porSlot] [Hidden μ.boot] [Hidden μ.bootSt] [Hidden μ.cpx] [Hidden μ.whl] [Hidden μ.flt] [Hidden μ.hif] [Hidden μ.coil] [Hidden μ.nvs] [Hidden μ.store] [Hidden μ.rtc] [Hidden μ.afe] [Hidden μ.pin] [Hidden μ.jtag] [Hidden μ.dec] [Hidden μ.pnt] [Hidden μ.pq] [Hidden μ.cal] [Hidden μ.trf] [Hidden μ.crd] [Hidden μ.sgr] [Hidden μ.tmp] (s : State) :
    kept μ (hide μ s) (execPowerRestoreRestart s) := by
  unfold execPowerRestoreRestart
  (try dsimp -proj only)
  first
  | (simp [↓hide_with, ↓hide_with_pin, hide_foldl]; done)
  | ((repeat' split) <;> simp [↓hide_with, ↓hide_with_pin, hide_foldl])

@[simp ↓] theorem hide_groupCommitted {μ : Mask} [Hidden μ.out] [Hidden μ.bootSt] [Hidden μ.cpx] [Hidden μ.flt] [Hidden μ.hif] [Hidden μ.coil] [Hidden μ.nvs] [Hidden μ.afe] [Hidden μ.pin] [Hidden μ.cal] [Hidden μ.crd] (s : State) :
    hide μ (groupCommitted s) = hide μ s := by
  unfold groupCommitted
  (try dsimp -proj only)
  first
  | (simp [↓hide_with, ↓hide_with_pin, hide_foldl]; done)
  | ((repeat' split) <;> simp [↓hide_with, ↓hide_with_pin, hide_foldl])

@[simp ↓] theorem hide_commitPage {μ : Mask} [Hidden μ.free] [Hidden μ.out] [Hidden μ.boot] [Hidden μ.bootSt] [Hidden μ.cpx] [Hidden μ.flt] [Hidden μ.hif] [Hidden μ.coil] [Hidden μ.nvs] [Hidden μ.store] [Hidden μ.afe] [Hidden μ.pin] [Hidden μ.cal] [Hidden μ.trf] [Hidden μ.crd] [Hidden μ.sgr] [Hidden μ.tmp] (s : State) :
    hide μ (commitPage s) = hide μ s := by
  unfold commitPage
  (try dsimp -proj only)
  first
  | (simp [↓hide_with, ↓hide_with_pin, hide_foldl]; done)
  | ((repeat' split) <;> simp [↓hide_with, ↓hide_with_pin, hide_foldl])

@[simp ↓] theorem hide_lgEnd {μ : Mask} [Hidden μ.porSlot] [Hidden μ.boot] [Hidden μ.bootSt] [Hidden μ.cpx] [Hidden μ.whl] [Hidden μ.flt] [Hidden μ.hif] [Hidden μ.coil] [Hidden μ.nvs] [Hidden μ.store] [Hidden μ.rtc] [Hidden μ.afe] [Hidden μ.pin] [Hidden μ.jtag] [Hidden μ.dec] [Hidden μ.pnt] [Hidden μ.pq] [Hidden μ.cal] [Hidden μ.trf] [Hidden μ.crd] [Hidden μ.sgr] [Hidden μ.tmp] (g : LgRun) (s : State) :
    hide μ (lgEnd g s) = hide μ s := by
  unfold lgEnd
  (try dsimp -proj only)
  first
  | (simp [↓hide_with, ↓hide_with_pin, hide_foldl]; done)
  | ((repeat' split) <;> simp [↓hide_with, ↓hide_with_pin, hide_foldl])

@[simp ↓] theorem hide_lgPage {μ : Mask} [Hidden μ.porSlot] [Hidden μ.boot] [Hidden μ.bootSt] [Hidden μ.cpx] [Hidden μ.whl] [Hidden μ.flt] [Hidden μ.hif] [Hidden μ.coil] [Hidden μ.nvs] [Hidden μ.store] [Hidden μ.rtc] [Hidden μ.afe] [Hidden μ.pin] [Hidden μ.jtag] [Hidden μ.dec] [Hidden μ.pnt] [Hidden μ.pq] [Hidden μ.cal] [Hidden μ.trf] [Hidden μ.crd] [Hidden μ.sgr] [Hidden μ.tmp] (g : LgRun) (n : Nat) (s : State) :
    hide μ (lgPage g n s) = hide μ s := by
  unfold lgPage
  (try dsimp -proj only)
  first
  | (simp [↓hide_with, ↓hide_with_pin, hide_foldl]; done)
  | ((repeat' split) <;> simp [↓hide_with, ↓hide_with_pin, hide_foldl])

@[simp ↓] theorem hide_lgCommit {μ : Mask} [Hidden μ.free] [Hidden μ.out] [Hidden μ.porSlot] [Hidden μ.boot] [Hidden μ.bootSt] [Hidden μ.cpx] [Hidden μ.whl] [Hidden μ.flt] [Hidden μ.hif] [Hidden μ.coil] [Hidden μ.nvs] [Hidden μ.store] [Hidden μ.rtc] [Hidden μ.afe] [Hidden μ.pin] [Hidden μ.jtag] [Hidden μ.dec] [Hidden μ.pnt] [Hidden μ.pq] [Hidden μ.cal] [Hidden μ.trf] [Hidden μ.crd] [Hidden μ.sgr] [Hidden μ.tmp] (g : LgRun) (s : State) :
    hide μ (lgCommit g s) = hide μ s := by
  unfold lgCommit
  (try dsimp -proj only)
  first
  | (simp [↓hide_with, ↓hide_with_pin, hide_foldl]; done)
  | ((repeat' split) <;> simp [↓hide_with, ↓hide_with_pin, hide_foldl])

@[simp ↓] theorem hide_execPageCommitDone {μ : Mask} [Hidden μ.free] [Hidden μ.out] [Hidden μ.porSlot] [Hidden μ.boot] [Hidden μ.bootSt] [Hidden μ.cpx] [Hidden μ.whl] [Hidden μ.flt] [Hidden μ.hif] [Hidden μ.coil] [Hidden μ.nvs] [Hidden μ.store] [Hidden μ.rtc] [Hidden μ.afe] [Hidden μ.pin] [Hidden μ.jtag] [Hidden μ.dec] [Hidden μ.pnt] [Hidden μ.pq] [Hidden μ.cal] [Hidden μ.trf] [Hidden μ.crd] [Hidden μ.sgr] [Hidden μ.tmp] (s : State) :
    kept μ (hide μ s) (execPageCommitDone s) := by
  unfold execPageCommitDone
  (try dsimp -proj only)
  first
  | (simp [↓hide_with, ↓hide_with_pin, hide_foldl]; done)
  | ((repeat' split) <;> simp [↓hide_with, ↓hide_with_pin, hide_foldl])

@[simp ↓] theorem hide_execSpreadCounterPass {μ : Mask} [Hidden μ.nvs] [Hidden μ.store] (s : State) :
    kept μ (hide μ s) (execSpreadCounterPass s) := by
  unfold execSpreadCounterPass
  (try dsimp -proj only)
  first
  | (simp [↓hide_with, ↓hide_with_pin, hide_foldl]; done)
  | ((repeat' split) <;> simp [↓hide_with, ↓hide_with_pin, hide_foldl])

@[simp ↓] theorem hide_execBackupSwitchover {μ : Mask} [Hidden μ.bootSt] [Hidden μ.rtc] (s : State) :
    kept μ (hide μ s) (execBackupSwitchover s) := by
  unfold execBackupSwitchover
  (try dsimp -proj only)
  first
  | (simp [↓hide_with, ↓hide_with_pin, hide_foldl]; done)
  | ((repeat' split) <;> simp [↓hide_with, ↓hide_with_pin, hide_foldl])

@[simp ↓] theorem hide_execBackupReset {μ : Mask} [Hidden μ.boot] [Hidden μ.bootSt] [Hidden μ.whl] [Hidden μ.flt] [Hidden μ.rtc] [Hidden μ.sgr] [Hidden μ.tmp] (s : State) :
    kept μ (hide μ s) (execBackupReset s) := by
  unfold execBackupReset
  (try dsimp -proj only)
  first
  | (simp [↓hide_with, ↓hide_with_pin, hide_foldl]; done)
  | ((repeat' split) <;> simp [↓hide_with, ↓hide_with_pin, hide_foldl])

@[simp ↓] theorem hide_execBackupResetEnd {μ : Mask} [Hidden μ.rtc] (s : State) :
    kept μ (hide μ s) (execBackupResetEnd s) := by
  unfold execBackupResetEnd
  (try dsimp -proj only)
  first
  | (simp [↓hide_with, ↓hide_with_pin, hide_foldl]; done)
  | ((repeat' split) <;> simp [↓hide_with, ↓hide_with_pin, hide_foldl])

end Sys2Proof.Laws
end

