-- ==== Sys2Proof/Laws/FootBoot.lean ====
section
/-!
SUPPORT. What the operations of Machine/Boot.lean leave unchanged.
-/
set_option linter.unusedSimpArgs false
set_option linter.unusedTactic false
set_option linter.unreachableTactic false
namespace Sys2Proof.Laws
open Sys2Proof.Machine

@[simp ↓] theorem hide_loadSubsts {μ : Mask} [Hidden μ.afe] (s : State) : hide μ (loadSubsts s) = hide μ s := by
  unfold loadSubsts
  refine hide_foldl (fun t b => ?_) _ _
  (try dsimp -proj only)
  repeat' split
  all_goals simp [↓hide_with, ↓hide_with_pin, hide_foldl]

@[simp ↓] theorem hide_fuseSteps {μ : Mask} [Hidden μ.free] [Hidden μ.out] [Hidden μ.boot] [Hidden μ.bootSt] [Hidden μ.cpx] [Hidden μ.whl] [Hidden μ.flt] [Hidden μ.hif] [Hidden μ.coil] [Hidden μ.nvs] [Hidden μ.store] [Hidden μ.sgr] [Hidden μ.tmp] (role : Role) (s : State) :
    hide μ (fuseSteps role s) = hide μ s := by
  unfold fuseSteps
  (try dsimp -proj only)
  first
  | (simp [↓hide_with, ↓hide_with_pin, hide_foldl]; done)
  | ((repeat' split) <;> simp [↓hide_with, ↓hide_with_pin, hide_foldl])

@[simp ↓] theorem hide_portsOn {μ : Mask} [Hidden μ.coil] (s : State) :
    hide μ (portsOn s) = hide μ s := by
  unfold portsOn
  (try dsimp -proj only)
  first
  | (simp [↓hide_with, ↓hide_with_pin, hide_foldl]; done)
  | ((repeat' split) <;> simp [↓hide_with, ↓hide_with_pin, hide_foldl])

@[simp ↓] theorem hide_fuseRole {μ : Mask} [Hidden μ.out] [Hidden μ.boot] [Hidden μ.bootSt] [Hidden μ.cpx] [Hidden μ.whl] [Hidden μ.flt] [Hidden μ.hif] [Hidden μ.coil] [Hidden μ.nvs] [Hidden μ.afe] (away : Bool) (s : State) :
    hide μ (fuseRole away s) = hide μ s := by
  unfold fuseRole
  (try dsimp -proj only)
  first
  | (simp [↓hide_with, ↓hide_with_pin, hide_foldl]; done)
  | ((repeat' split) <;> simp [↓hide_with, ↓hide_with_pin, hide_foldl])

@[simp ↓] theorem hide_execPorEnd {μ : Mask} [Hidden μ.free] [Hidden μ.out] [Hidden μ.porSlot] [Hidden μ.boot] [Hidden μ.bootSt] [Hidden μ.cpx] [Hidden μ.whl] [Hidden μ.flt] [Hidden μ.hif] [Hidden μ.coil] [Hidden μ.nvs] [Hidden μ.store] [Hidden μ.rtc] [Hidden μ.afe] [Hidden μ.sgr] [Hidden μ.tmp] (straps : BitVec 2) (fuseParityOk : Bool) (s : State) :
    kept μ (hide μ s) (execPorEnd straps fuseParityOk s) := by
  unfold execPorEnd
  (try dsimp -proj only)
  first
  | (simp [↓hide_with, ↓hide_with_pin, hide_foldl]; done)
  | ((repeat' split) <;> simp [↓hide_with, ↓hide_with_pin, hide_foldl])

@[simp ↓] theorem hide_execMpllLock {μ : Mask} [Hidden μ.out] [Hidden μ.bootSt] [Hidden μ.cpx] [Hidden μ.whl] [Hidden μ.flt] [Hidden μ.hif] [Hidden μ.coil] [Hidden μ.nvs] [Hidden μ.afe] [Hidden μ.dec] [Hidden μ.pnt] [Hidden μ.pq] (onRing : Bool) (s : State) :
    kept μ (hide μ s) (execMpllLock onRing s) := by
  unfold execMpllLock
  (try dsimp -proj only)
  first
  | (simp [↓hide_with, ↓hide_with_pin, hide_foldl]; done)
  | ((repeat' split) <;> simp [↓hide_with, ↓hide_with_pin, hide_foldl])

@[simp ↓] theorem hide_storeImage {μ : Mask} [Hidden μ.boot] (ofs total : Nat) (data : List Byte) (s : State) :
    hide μ (storeImage ofs total data s) = hide μ s := by
  unfold storeImage
  (try dsimp -proj only)
  first
  | (simp [↓hide_with, ↓hide_with_pin, hide_foldl]; done)
  | ((repeat' split) <;> simp [↓hide_with, ↓hide_with_pin, hide_foldl])

@[simp ↓] theorem hide_execImageData {μ : Mask} [Hidden μ.out] [Hidden μ.boot] [Hidden μ.hif] [Hidden μ.coil] (r : Req) (s : State) :
    kept μ (hide μ s) (execImageData r s) := by
  unfold execImageData
  (try dsimp -proj only)
  first
  | (simp [↓hide_with, ↓hide_with_pin, hide_foldl]; done)
  | ((repeat' split) <;> simp [↓hide_with, ↓hide_with_pin, hide_foldl])

@[simp ↓] theorem hide_execImageEnd {μ : Mask} [Hidden μ.out] [Hidden μ.boot] [Hidden μ.bootSt] [Hidden μ.hif] [Hidden μ.coil] (r : Req) (s : State) :
    kept μ (hide μ s) (execImageEnd r s) := by
  unfold execImageEnd
  (try dsimp -proj only)
  first
  | (simp [↓hide_with, ↓hide_with_pin, hide_foldl]; done)
  | ((repeat' split) <;> simp [↓hide_with, ↓hide_with_pin, hide_foldl])

@[simp ↓] theorem hide_execImageAbort {μ : Mask} [Hidden μ.free] [Hidden μ.out] [Hidden μ.boot] [Hidden μ.hif] [Hidden μ.coil] (r : Req) (s : State) :
    kept μ (hide μ s) (execImageAbort r s) := by
  unfold execImageAbort
  (try dsimp -proj only)
  first
  | (simp [↓hide_with, ↓hide_with_pin, hide_foldl]; done)
  | ((repeat' split) <;> simp [↓hide_with, ↓hide_with_pin, hide_foldl])

@[simp ↓] theorem hide_execImageInfo {μ : Mask} [Hidden μ.out] [Hidden μ.hif] [Hidden μ.coil] (r : Req) (s : State) :
    kept μ (hide μ s) (execImageInfo r s) := by
  unfold execImageInfo
  (try dsimp -proj only)
  first
  | (simp [↓hide_with, ↓hide_with_pin, hide_foldl]; done)
  | ((repeat' split) <;> simp [↓hide_with, ↓hide_with_pin, hide_foldl])

@[simp ↓] theorem hide_execImageFrame {μ : Mask} [Hidden μ.boot] [Hidden μ.bootSt] [Hidden μ.coil] (f : Frame) (s : State) :
    kept μ (hide μ s) (execImageFrame f s) := by
  unfold execImageFrame
  (try dsimp -proj only)
  first
  | (simp [↓hide_with, ↓hide_with_pin, hide_foldl]; done)
  | ((repeat' split) <;> simp [↓hide_with, ↓hide_with_pin, hide_foldl])

@[simp ↓] theorem hide_enterGreenware {μ : Mask} [Hidden μ.out] [Hidden μ.boot] [Hidden μ.bootSt] (s : State) :
    hide μ (enterGreenware s) = hide μ s := by
  unfold enterGreenware
  (try dsimp -proj only)
  first
  | (simp [↓hide_with, ↓hide_with_pin, hide_foldl]; done)
  | ((repeat' split) <;> simp [↓hide_with, ↓hide_with_pin, hide_foldl])

@[simp ↓] theorem hide_execPowerupCalWrite {μ : Mask} [Hidden μ.out] [Hidden μ.boot] [Hidden μ.bootSt] [Hidden μ.cpx] [Hidden μ.flt] [Hidden μ.hif] [Hidden μ.coil] [Hidden μ.nvs] [Hidden μ.afe] [Hidden μ.dec] [Hidden μ.cal] (s : State) :
    kept μ (hide μ s) (execPowerupCalWrite s) := by
  unfold execPowerupCalWrite
  (try dsimp -proj only)
  first
  | (simp [↓hide_with, ↓hide_with_pin, hide_foldl]; done)
  | ((repeat' split) <;> simp [↓hide_with, ↓hide_with_pin, hide_foldl])

@[simp ↓] theorem hide_endImage {μ : Mask} [Hidden μ.out] [Hidden μ.boot] [Hidden μ.hif] [Hidden μ.coil] (st : W16) (s : State) :
    hide μ (endImage st s) = hide μ s := by
  unfold endImage
  (try dsimp -proj only)
  first
  | (simp [↓hide_with, ↓hide_with_pin, hide_foldl]; done)
  | ((repeat' split) <;> simp [↓hide_with, ↓hide_with_pin, hide_foldl])

@[simp ↓] theorem hide_pendVectors {μ : Mask} [Hidden μ.out] [Hidden μ.hif] (s : State) :
    hide μ (pendVectors s) = hide μ s := by
  unfold pendVectors
  (try dsimp -proj only)
  first
  | (simp [↓hide_with, ↓hide_with_pin, hide_foldl]; done)
  | ((repeat' split) <;> simp [↓hide_with, ↓hide_with_pin, hide_foldl])

@[simp ↓] theorem hide_fireImage {μ : Mask} [Hidden μ.out] [Hidden μ.boot] [Hidden μ.bootSt] [Hidden μ.cpx] [Hidden μ.hif] [Hidden μ.coil] (s : State) :
    hide μ (fireImage s) = hide μ s := by
  unfold fireImage
  (try dsimp -proj only)
  first
  | (simp [↓hide_with, ↓hide_with_pin, hide_foldl]; done)
  | ((repeat' split) <;> simp [↓hide_with, ↓hide_with_pin, hide_foldl])

@[simp ↓] theorem hide_refuseImage {μ : Mask} [Hidden μ.out] [Hidden μ.boot] [Hidden μ.bootSt] [Hidden μ.cpx] [Hidden μ.flt] [Hidden μ.hif] [Hidden μ.coil] [Hidden μ.nvs] (code : Nat) (st : W16) (s : State) :
    hide μ (refuseImage code st s) = hide μ s := by
  unfold refuseImage
  (try dsimp -proj only)
  first
  | (simp [↓hide_with, ↓hide_with_pin, hide_foldl]; done)
  | ((repeat' split) <;> simp [↓hide_with, ↓hide_with_pin, hide_foldl])

@[simp ↓] theorem hide_execVerifyDone {μ : Mask} [Hidden μ.out] [Hidden μ.boot] [Hidden μ.bootSt] [Hidden μ.cpx] [Hidden μ.flt] [Hidden μ.hif] [Hidden μ.coil] [Hidden μ.nvs] (s : State) :
    kept μ (hide μ s) (execVerifyDone s) := by
  unfold execVerifyDone
  (try dsimp -proj only)
  first
  | (simp [↓hide_with, ↓hide_with_pin, hide_foldl]; done)
  | ((repeat' split) <;> simp [↓hide_with, ↓hide_with_pin, hide_foldl])

@[simp ↓] theorem hide_execImageWait {μ : Mask} [Hidden μ.out] [Hidden μ.boot] [Hidden μ.bootSt] [Hidden μ.cpx] [Hidden μ.flt] [Hidden μ.hif] [Hidden μ.coil] [Hidden μ.nvs] (s : State) :
    kept μ (hide μ s) (execImageWait s) := by
  unfold execImageWait
  (try dsimp -proj only)
  first
  | (simp [↓hide_with, ↓hide_with_pin, hide_foldl]; done)
  | ((repeat' split) <;> simp [↓hide_with, ↓hide_with_pin, hide_foldl])

@[simp ↓] theorem hide_driveAll {μ : Mask} [Hidden μ.rtc] [Hidden μ.pin] [Hidden μ.crd] (s : State) :
    hide μ (driveAll s) = hide μ s := by
  unfold driveAll
  (try dsimp -proj only)
  first
  | (simp [↓hide_with, ↓hide_with_pin, hide_foldl]; done)
  | ((repeat' split) <;> simp [↓hide_with, ↓hide_with_pin, hide_foldl])

@[simp ↓] theorem hide_restoreFailed {μ : Mask} [Hidden μ.flt] [Hidden μ.nvs] [Hidden μ.store] [Hidden μ.rtc] (s s1 : State) :
    hide μ (restoreFailed s s1) = hide μ s1 := by
  unfold restoreFailed
  (try dsimp -proj only)
  first
  | (simp [↓hide_with, ↓hide_with_pin, hide_foldl]; done)
  | ((repeat' split) <;> simp [↓hide_with, ↓hide_with_pin, hide_foldl])

@[simp ↓] theorem hide_meterStart {μ : Mask} [Hidden μ.pnt] (s : State) :
    hide μ (meterStart s) = hide μ s := by
  unfold meterStart
  (try dsimp -proj only)
  first
  | (simp [↓hide_with, ↓hide_with_pin, hide_foldl]; done)
  | ((repeat' split) <;> simp [↓hide_with, ↓hide_with_pin, hide_foldl])

@[simp ↓] theorem hide_execRestoreDone {μ : Mask} [Hidden μ.free] [Hidden μ.out] [Hidden μ.bootSt] [Hidden μ.cpx] [Hidden μ.whl] [Hidden μ.flt] [Hidden μ.hif] [Hidden μ.coil] [Hidden μ.nvs] [Hidden μ.store] [Hidden μ.rtc] [Hidden μ.afe] [Hidden μ.pin] [Hidden μ.dec] [Hidden μ.pnt] [Hidden μ.pq] [Hidden μ.cal] [Hidden μ.trf] [Hidden μ.crd] [Hidden μ.sgr] (s : State) :
    kept μ (hide μ s) (execRestoreDone s) := by
  unfold execRestoreDone
  (try dsimp -proj only)
  first
  | (simp [↓hide_with, ↓hide_with_pin, hide_foldl]; done)
  | ((repeat' split) <;> simp [↓hide_with, ↓hide_with_pin, hide_foldl])

@[simp ↓] theorem hide_execAcpFwWrite {μ : Mask} [Hidden μ.out] [Hidden μ.bootSt] [Hidden μ.cpx] [Hidden μ.flt] [Hidden μ.hif] [Hidden μ.coil] [Hidden μ.nvs] (s : State) :
    kept μ (hide μ s) (execAcpFwWrite s) := by
  unfold execAcpFwWrite
  (try dsimp -proj only)
  first
  | (simp [↓hide_with, ↓hide_with_pin, hide_foldl]; done)
  | ((repeat' split) <;> simp [↓hide_with, ↓hide_with_pin, hide_foldl])

@[simp ↓] theorem hide_execLcpMismatch {μ : Mask} [Hidden μ.out] [Hidden μ.bootSt] [Hidden μ.cpx] [Hidden μ.flt] [Hidden μ.hif] [Hidden μ.coil] [Hidden μ.nvs] (s : State) :
    kept μ (hide μ s) (execLcpMismatch s) := by
  unfold execLcpMismatch
  (try dsimp -proj only)
  first
  | (simp [↓hide_with, ↓hide_with_pin, hide_foldl]; done)
  | ((repeat' split) <;> simp [↓hide_with, ↓hide_with_pin, hide_foldl])

@[simp ↓] theorem hide_execAcpWdog {μ : Mask} [Hidden μ.out] [Hidden μ.bootSt] [Hidden μ.cpx] [Hidden μ.flt] [Hidden μ.hif] [Hidden μ.coil] [Hidden μ.nvs] (core : Nat) (s : State) :
    kept μ (hide μ s) (execAcpWdog core s) := by
  unfold execAcpWdog
  (try dsimp -proj only)
  first
  | (simp [↓hide_with, ↓hide_with_pin, hide_foldl]; done)
  | ((repeat' split) <;> simp [↓hide_with, ↓hide_with_pin, hide_foldl])

@[simp ↓] theorem hide_execAcpRestartDone {μ : Mask} [Hidden μ.out] [Hidden μ.cpx] [Hidden μ.flt] [Hidden μ.hif] [Hidden μ.coil] [Hidden μ.nvs] (s : State) :
    kept μ (hide μ s) (execAcpRestartDone s) := by
  unfold execAcpRestartDone
  (try dsimp -proj only)
  first
  | (simp [↓hide_with, ↓hide_with_pin, hide_foldl]; done)
  | ((repeat' split) <;> simp [↓hide_with, ↓hide_with_pin, hide_foldl])

@[simp ↓] theorem hide_endRequests {μ : Mask} [Hidden μ.boot] [Hidden μ.hif] [Hidden μ.coil] [Hidden μ.nvs] [Hidden μ.rtc] [Hidden μ.cal] [Hidden μ.sgr] (s : State) :
    hide μ (endRequests s) = hide μ s := by
  unfold endRequests
  (try dsimp -proj only)
  first
  | (simp [↓hide_with, ↓hide_with_pin, hide_foldl]; done)
  | ((repeat' split) <;> simp [↓hide_with, ↓hide_with_pin, hide_foldl])

@[simp ↓] theorem hide_safeBalls {μ : Mask} [Hidden μ.whl] [Hidden μ.pin] [Hidden μ.trf] [Hidden μ.crd] (s : State) :
    hide μ (safeBalls s) = hide μ s := by
  unfold safeBalls
  (try dsimp -proj only)
  first
  | (simp [↓hide_with, ↓hide_with_pin, hide_foldl]; done)
  | ((repeat' split) <;> simp [↓hide_with, ↓hide_with_pin, hide_foldl])

@[simp ↓] theorem hide_execFailstopSafeState {μ : Mask} [Hidden μ.free] [Hidden μ.out] [Hidden μ.porSlot] [Hidden μ.boot] [Hidden μ.bootSt] [Hidden μ.cpx] [Hidden μ.whl] [Hidden μ.flt] [Hidden μ.hif] [Hidden μ.coil] [Hidden μ.nvs] [Hidden μ.store] [Hidden μ.rtc] [Hidden μ.afe] [Hidden μ.pin] [Hidden μ.jtag] [Hidden μ.dec] [Hidden μ.pnt] [Hidden μ.pq] [Hidden μ.cal] [Hidden μ.trf] [Hidden μ.crd] [Hidden μ.sgr] [Hidden μ.tmp] (s : State) :
    kept μ (hide μ s) (execFailstopSafeState s) := by
  unfold execFailstopSafeState
  (try dsimp -proj only)
  first
  | (simp [↓hide_with, ↓hide_with_pin, hide_foldl]; done)
  | ((repeat' split) <;> simp [↓hide_with, ↓hide_with_pin, hide_foldl])

end Sys2Proof.Laws
end

