-- ==== Sys2Proof/Laws/FootTurn.lean ====
section
/-!
SUPPORT. What the operations of Machine/Turn.lean leave unchanged.
-/
set_option linter.unusedSimpArgs false
set_option linter.unusedTactic false
set_option linter.unreachableTactic false
namespace Sys2Proof.Laws
open Sys2Proof.Machine

@[simp ↓] theorem hide_syncMissed {μ : Mask} [Hidden μ.out] [Hidden μ.bootSt] [Hidden μ.cpx] [Hidden μ.whl] [Hidden μ.flt] [Hidden μ.hif] [Hidden μ.coil] [Hidden μ.nvs] (s : State) :
    hide μ (syncMissed s) = hide μ s := by
  unfold syncMissed
  (try dsimp -proj only)
  first
  | (simp [↓hide_with, ↓hide_with_pin, hide_foldl]; done)
  | ((repeat' split) <;> simp [↓hide_with, ↓hide_with_pin, hide_foldl])

@[simp ↓] theorem hide_rereadAdvance {μ : Mask} [Hidden μ.whl] (s : State) :
    hide μ (rereadAdvance s) = hide μ s := by
  unfold rereadAdvance
  (try dsimp -proj only)
  first
  | (simp [↓hide_with, ↓hide_with_pin, hide_foldl]; done)
  | ((repeat' split) <;> simp [↓hide_with, ↓hide_with_pin, hide_foldl])

@[simp ↓] theorem hide_beginTurn {μ : Mask} [Hidden μ.boot] [Hidden μ.pnt] (s : State) :
    hide μ (beginTurn s) = hide μ s := by
  unfold beginTurn
  (try dsimp -proj only)
  first
  | (simp [↓hide_with, ↓hide_with_pin, hide_foldl]; done)
  | ((repeat' split) <;> simp [↓hide_with, ↓hide_with_pin, hide_foldl])

@[simp ↓] theorem hide_boundaryWork {μ : Mask} [Hidden μ.free] [Hidden μ.out] [Hidden μ.bootSt] [Hidden μ.cpx] [Hidden μ.whl] [Hidden μ.flt] [Hidden μ.hif] [Hidden μ.coil] [Hidden μ.nvs] [Hidden μ.afe] [Hidden μ.dec] [Hidden μ.pnt] [Hidden μ.pq] [Hidden μ.cal] [Hidden μ.trf] [Hidden μ.crd] (s : State) :
    hide μ (boundaryWork s) = hide μ s := by
  unfold boundaryWork
  (try dsimp -proj only)
  first
  | (simp [↓hide_with, ↓hide_with_pin, hide_foldl]; done)
  | ((repeat' split) <;> simp [↓hide_with, ↓hide_with_pin, hide_foldl])

@[simp ↓] theorem hide_execWheelTurnBoundary {μ : Mask} [Hidden μ.free] [Hidden μ.out] [Hidden μ.slot] [Hidden μ.boot] [Hidden μ.bootSt] [Hidden μ.cpx] [Hidden μ.whl] [Hidden μ.flt] [Hidden μ.hif] [Hidden μ.coil] [Hidden μ.nvs] [Hidden μ.rtc] [Hidden μ.afe] [Hidden μ.dec] [Hidden μ.pnt] [Hidden μ.pq] [Hidden μ.cal] [Hidden μ.trf] [Hidden μ.crd] (est : W32) (s : State) :
    kept μ (hide μ s) (execWheelTurnBoundary est s) := by
  unfold execWheelTurnBoundary
  (try dsimp -proj only)
  first
  | (simp [↓hide_with, ↓hide_with_pin, hide_foldl]; done)
  | ((repeat' split) <;> simp [↓hide_with, ↓hide_with_pin, hide_foldl])

@[simp ↓] theorem hide_angFired {μ : Mask} [Hidden μ.whl] (n : Nat) (e : AngEnt) (s : State) :
    hide μ (angFired n e s) = hide μ s := by
  unfold angFired
  (try dsimp -proj only)
  first
  | (simp [↓hide_with, ↓hide_with_pin, hide_foldl]; done)
  | ((repeat' split) <;> simp [↓hide_with, ↓hide_with_pin, hide_foldl])

@[simp ↓] theorem hide_execAngleActionFire {μ : Mask} [Hidden μ.out] [Hidden μ.whl] [Hidden μ.coil] [Hidden μ.nvs] [Hidden μ.pin] [Hidden μ.pq] [Hidden μ.crd] (n : Nat) (s : State) :
    kept μ (hide μ s) (execAngleActionFire n s) := by
  unfold execAngleActionFire
  (try dsimp -proj only)
  first
  | (simp [↓hide_with, ↓hide_with_pin, hide_foldl]; done)
  | ((repeat' split) <;> simp [↓hide_with, ↓hide_with_pin, hide_foldl])

@[simp ↓] theorem hide_execRtcActionFire {μ : Mask} [Hidden μ.whl] (n : Nat) (s : State) :
    kept μ (hide μ s) (execRtcActionFire n s) := by
  unfold execRtcActionFire
  (try dsimp -proj only)
  first
  | (simp [↓hide_with, ↓hide_with_pin, hide_foldl]; done)
  | ((repeat' split) <;> simp [↓hide_with, ↓hide_with_pin, hide_foldl])

@[simp ↓] theorem hide_commitActions {μ : Mask} [Hidden μ.whl] (c n : Int) (s : State) :
    hide μ (commitActions c n s) = hide μ s := by
  unfold commitActions
  (try dsimp -proj only)
  first
  | (simp [↓hide_with, ↓hide_with_pin, hide_foldl]; done)
  | ((repeat' split) <;> simp [↓hide_with, ↓hide_with_pin, hide_foldl])

theorem hide_commitAll {μ : Mask} [Hidden μ.free] [Hidden μ.out] [Hidden μ.bootSt] [Hidden μ.cpx] [Hidden μ.whl] [Hidden μ.flt] [Hidden μ.hif] [Hidden μ.coil] [Hidden μ.nvs] [Hidden μ.pnt] [Hidden μ.pq] [Hidden μ.trf] [Hidden μ.crd] (kind flags c : Nat) (cFrac : W16) (n : Nat) (step : Int) (set : State → State)
    (h : ∀ t, hide μ (set t) = hide μ t) (s : State) : hide μ (commitAll kind flags c cFrac n step set s) = hide μ s := by
  unfold commitAll
  (try dsimp -proj only)
  rw [hide_evalControl, hide_trfCommit, hide_rtcRecord, h, hide_pqCommit]
  repeat' split
  all_goals simp

@[simp ↓] theorem hide_setClock {μ : Mask} [Hidden μ.rtc] (abs : Bool) (t : Nat) (s : State) :
    hide μ (setClock abs t s) = hide μ s := by
  unfold setClock
  (try dsimp -proj only)
  first
  | (simp [↓hide_with, ↓hide_with_pin, hide_foldl]; done)
  | ((repeat' split) <;> simp [↓hide_with, ↓hide_with_pin, hide_foldl])

@[simp ↓] theorem hide_stagedDone {μ : Mask} [Hidden μ.out] [Hidden μ.hif] [Hidden μ.coil] (g : Staged) (st : W16) (s : State) :
    hide μ (stagedDone g st s) = hide μ s := by
  unfold stagedDone
  (try dsimp -proj only)
  first
  | (simp [↓hide_with, ↓hide_with_pin, hide_foldl]; done)
  | ((repeat' split) <;> simp [↓hide_with, ↓hide_with_pin, hide_foldl])

@[simp ↓] theorem hide_execRtcCommitTick {μ : Mask} [Hidden μ.free] [Hidden μ.out] [Hidden μ.bootSt] [Hidden μ.cpx] [Hidden μ.whl] [Hidden μ.flt] [Hidden μ.hif] [Hidden μ.coil] [Hidden μ.nvs] [Hidden μ.rtc] [Hidden μ.pin] [Hidden μ.pnt] [Hidden μ.pq] [Hidden μ.trf] [Hidden μ.crd] (s : State) : kept μ (hide μ s) (execRtcCommitTick s) := by
  unfold execRtcCommitTick
  (try dsimp -proj only)
  rw [kept_next]
  repeat' split
  all_goals first
    | (simp [↓hide_with]; done)
    | ((try simp only [hide_noteQual, hide_stagedDone])
       rw [hide_commitAll _ _ _ _ _ _ _ (fun t => by simp [↓hide_with])])

@[simp ↓] theorem hide_execRtcWrap {μ : Mask} [Hidden μ.free] [Hidden μ.out] [Hidden μ.bootSt] [Hidden μ.cpx] [Hidden μ.whl] [Hidden μ.flt] [Hidden μ.hif] [Hidden μ.coil] [Hidden μ.nvs] [Hidden μ.rtc] [Hidden μ.pin] [Hidden μ.pnt] [Hidden μ.pq] [Hidden μ.trf] [Hidden μ.crd] (s : State) : kept μ (hide μ s) (execRtcWrap s) := by
  unfold execRtcWrap
  (try dsimp -proj only)
  rw [kept_next]
  repeat' split
  all_goals first
    | (simp [↓hide_with]; done)
    | ((try simp only [hide_noteQual, hide_stagedDone])
       rw [hide_commitAll _ _ _ _ _ _ _ (fun t => by simp [↓hide_with])])

end Sys2Proof.Laws
end

