-- ==== Sys2Proof/Laws/FootEscalate.lean ====
section
/-!
SUPPORT. What the operations of Machine/Escalate.lean leave unchanged.
-/
set_option linter.unusedSimpArgs false
set_option linter.unusedTactic false
set_option linter.unreachableTactic false
namespace Sys2Proof.Laws
open Sys2Proof.Machine

@[simp ↓] theorem hide_fstatClear {μ : Mask} [Hidden μ.flt] (v : W32) (s : State) :
    hide μ (fstatClear v s) = hide μ s := by
  unfold fstatClear
  (try dsimp -proj only)
  first
  | (simp [↓hide_with, ↓hide_with_pin, hide_foldl]; done)
  | ((repeat' split) <;> simp [↓hide_with, ↓hide_with_pin, hide_foldl])

@[simp ↓] theorem hide_execFltFstatClear {μ : Mask} [Hidden μ.flt] (v : W32) (s : State) :
    kept μ (hide μ s) (execFltFstatClear v s) := by
  unfold execFltFstatClear
  (try dsimp -proj only)
  first
  | (simp [↓hide_with, ↓hide_with_pin, hide_foldl]; done)
  | ((repeat' split) <;> simp [↓hide_with, ↓hide_with_pin, hide_foldl])

@[simp ↓] theorem hide_execGraceExpiry {μ : Mask} [Hidden μ.out] [Hidden μ.bootSt] [Hidden μ.cpx] [Hidden μ.flt] [Hidden μ.hif] [Hidden μ.coil] [Hidden μ.nvs] (b : Nat) (s : State) :
    kept μ (hide μ s) (execGraceExpiry b s) := by
  unfold execGraceExpiry
  (try dsimp -proj only)
  first
  | (simp [↓hide_with, ↓hide_with_pin, hide_foldl]; done)
  | ((repeat' split) <;> simp [↓hide_with, ↓hide_with_pin, hide_foldl])

@[simp ↓] theorem hide_execEscWindowExpiry {μ : Mask} [Hidden μ.flt] (b src : Nat) (s : State) :
    kept μ (hide μ s) (execEscWindowExpiry b src s) := by
  unfold execEscWindowExpiry
  (try dsimp -proj only)
  first
  | (simp [↓hide_with, ↓hide_with_pin, hide_foldl]; done)
  | ((repeat' split) <;> simp [↓hide_with, ↓hide_with_pin, hide_foldl])

@[simp ↓] theorem hide_execEscResolveSpan {μ : Mask} [Hidden μ.out] [Hidden μ.flt] [Hidden μ.hif] [Hidden μ.coil] [Hidden μ.nvs] (b src : Nat) (s : State) :
    kept μ (hide μ s) (execEscResolveSpan b src s) := by
  unfold execEscResolveSpan
  (try dsimp -proj only)
  first
  | (simp [↓hide_with, ↓hide_with_pin, hide_foldl]; done)
  | ((repeat' split) <;> simp [↓hide_with, ↓hide_with_pin, hide_foldl])

@[simp ↓] theorem hide_execParityErrorDetect {μ : Mask} [Hidden μ.out] [Hidden μ.bootSt] [Hidden μ.cpx] [Hidden μ.flt] [Hidden μ.hif] [Hidden μ.coil] [Hidden μ.nvs] (b src : Nat) (s : State) :
    kept μ (hide μ s) (execParityErrorDetect b src s) := by
  unfold execParityErrorDetect
  (try dsimp -proj only)
  first
  | (simp [↓hide_with, ↓hide_with_pin, hide_foldl]; done)
  | ((repeat' split) <;> simp [↓hide_with, ↓hide_with_pin, hide_foldl])

end Sys2Proof.Laws
end

