-- ==== Sys2Proof/Laws/FootRegMap.lean ====
section
/-!
SUPPORT. What the operations of Machine/RegMap.lean leave unchanged.
-/
set_option linter.unusedSimpArgs false
set_option linter.unusedTactic false
set_option linter.unreachableTactic false
namespace Sys2Proof.Laws
open Sys2Proof.Machine

@[simp ↓] theorem hide_clearRc {μ : Mask} [Hidden μ.cpx] [Hidden μ.hif] [Hidden μ.coil] [Hidden μ.nvs] [Hidden μ.pq] [Hidden μ.crd] [Hidden μ.sgr] (off : Nat) (s : State) :
    hide μ (clearRc off s) = hide μ s := by
  unfold clearRc
  (try dsimp -proj only)
  first
  | (simp [↓hide_with, ↓hide_with_pin, hide_foldl]; done)
  | ((repeat' split) <;> simp [↓hide_with, ↓hide_with_pin, hide_foldl])

@[simp ↓] theorem hide_latchHi {μ : Mask} [Hidden μ.whl] [Hidden μ.flt] [Hidden μ.crd] (off : Nat) (s : State) :
    hide μ (latchHi off s) = hide μ s := by
  unfold latchHi
  (try dsimp -proj only)
  first
  | (simp [↓hide_with, ↓hide_with_pin, hide_foldl]; done)
  | ((repeat' split) <;> simp [↓hide_with, ↓hide_with_pin, hide_foldl])

@[simp ↓] theorem hide_timeRead {μ : Mask} [Hidden μ.rtc] (off : Nat) (s : State) :
    hide μ (timeRead off s) = hide μ s := by
  unfold timeRead
  (try dsimp -proj only)
  first
  | (simp [↓hide_with, ↓hide_with_pin, hide_foldl]; done)
  | ((repeat' split) <;> simp [↓hide_with, ↓hide_with_pin, hide_foldl])

@[simp ↓] theorem hide_readSide {μ : Mask} [Hidden μ.cpx] [Hidden μ.whl] [Hidden μ.flt] [Hidden μ.hif] [Hidden μ.coil] [Hidden μ.nvs] [Hidden μ.rtc] [Hidden μ.pq] [Hidden μ.crd] [Hidden μ.sgr] (off : Nat) (s : State) :
    hide μ (readSide off s) = hide μ s := by
  unfold readSide
  (try dsimp -proj only)
  first
  | (simp [↓hide_with, ↓hide_with_pin, hide_foldl]; done)
  | ((repeat' split) <;> simp [↓hide_with, ↓hide_with_pin, hide_foldl])

@[simp ↓] theorem hide_readReg {μ : Mask} [Hidden μ.cpx] [Hidden μ.whl] [Hidden μ.flt] [Hidden μ.hif] [Hidden μ.coil] [Hidden μ.nvs] [Hidden μ.rtc] [Hidden μ.pq] [Hidden μ.crd] [Hidden μ.sgr] (off : Nat) (s : State) :
    hide μ (readReg off s).2 = hide μ s := by
  unfold readReg
  (try dsimp -proj only)
  first
  | (simp [↓hide_with, ↓hide_with_pin, hide_foldl]; done)
  | ((repeat' split) <;> simp [↓hide_with, ↓hide_with_pin, hide_foldl])

end Sys2Proof.Laws
end

