-- ==== Sys2Proof/Laws/FootRegAcc.lean ====
section
/-!
SUPPORT. What the operations of Machine/RegAcc.lean leave unchanged.
-/
set_option linter.unusedSimpArgs false
set_option linter.unusedTactic false
set_option linter.unreachableTactic false
namespace Sys2Proof.Laws
open Sys2Proof.Machine

@[simp ↓] theorem hide_hostRead {μ : Mask} [Hidden μ.out] [Hidden μ.cpx] [Hidden μ.whl] [Hidden μ.flt] [Hidden μ.hif] [Hidden μ.coil] [Hidden μ.nvs] [Hidden μ.rtc] [Hidden μ.pq] [Hidden μ.crd] [Hidden μ.sgr] (off : Nat) (s : State) :
    hide μ (hostRead off s) = hide μ s := by
  unfold hostRead
  (try dsimp -proj only)
  first
  | (simp [↓hide_with, ↓hide_with_pin, hide_foldl]; done)
  | ((repeat' split) <;> simp [↓hide_with, ↓hide_with_pin, hide_foldl])

@[simp ↓] theorem hide_execRcRead {μ : Mask} [Hidden μ.out] [Hidden μ.cpx] [Hidden μ.whl] [Hidden μ.flt] [Hidden μ.hif] [Hidden μ.coil] [Hidden μ.nvs] [Hidden μ.rtc] [Hidden μ.pq] [Hidden μ.crd] [Hidden μ.sgr] (off : Nat) (s : State) :
    kept μ (hide μ s) (execRcRead off s) := by
  unfold execRcRead
  (try dsimp -proj only)
  first
  | (simp [↓hide_with, ↓hide_with_pin, hide_foldl]; done)
  | ((repeat' split) <;> simp [↓hide_with, ↓hide_with_pin, hide_foldl])

@[simp ↓] theorem hide_execLatchedPairRead {μ : Mask} [Hidden μ.out] [Hidden μ.cpx] [Hidden μ.whl] [Hidden μ.flt] [Hidden μ.hif] [Hidden μ.coil] [Hidden μ.nvs] [Hidden μ.rtc] [Hidden μ.pq] [Hidden μ.crd] [Hidden μ.sgr] (off : Nat) (s : State) :
    kept μ (hide μ s) (execLatchedPairRead off s) := by
  unfold execLatchedPairRead
  (try dsimp -proj only)
  first
  | (simp [↓hide_with, ↓hide_with_pin, hide_foldl]; done)
  | ((repeat' split) <;> simp [↓hide_with, ↓hide_with_pin, hide_foldl])

@[simp ↓] theorem hide_clearW1c {μ : Mask} [Hidden μ.flt] [Hidden μ.hif] [Hidden μ.rtc] [Hidden μ.afe] [Hidden μ.pin] [Hidden μ.tmp] (off : Nat) (v : W32) (s : State) :
    hide μ (clearW1c off v s) = hide μ s := by
  unfold clearW1c
  (try dsimp -proj only)
  first
  | (simp [↓hide_with, ↓hide_with_pin, hide_foldl]; done)
  | ((repeat' split) <;> simp [↓hide_with, ↓hide_with_pin, hide_foldl])

@[simp ↓] theorem hide_execW1cWrite {μ : Mask} [Hidden μ.flt] [Hidden μ.hif] [Hidden μ.rtc] [Hidden μ.afe] [Hidden μ.pin] [Hidden μ.tmp] (off : Nat) (v : W32) (s : State) :
    kept μ (hide μ s) (execW1cWrite off v s) := by
  unfold execW1cWrite
  (try dsimp -proj only)
  first
  | (simp [↓hide_with, ↓hide_with_pin, hide_foldl]; done)
  | ((repeat' split) <;> simp [↓hide_with, ↓hide_with_pin, hide_foldl])

@[simp ↓] theorem hide_setIndex {μ : Mask} [Hidden μ.whl] [Hidden μ.flt] [Hidden μ.hif] [Hidden μ.coil] [Hidden μ.afe] [Hidden μ.pin] [Hidden μ.dec] [Hidden μ.pnt] [Hidden μ.pq] [Hidden μ.cal] [Hidden μ.trf] [Hidden μ.crd] [Hidden μ.sgr] [Hidden μ.tmp] (off : Nat) (v : W32) (s : State) :
    hide μ (setIndex off v s) = hide μ s := by
  unfold setIndex
  (try dsimp -proj only)
  first
  | (simp [↓hide_with, ↓hide_with_pin, hide_foldl]; done)
  | ((repeat' split) <;> simp [↓hide_with, ↓hide_with_pin, hide_foldl])

@[simp ↓] theorem hide_writeMsix {μ : Mask} [Hidden μ.out] [Hidden μ.hif] (off : Nat) (v : W32) (s : State) :
    hide μ (writeMsix off v s) = hide μ s := by
  unfold writeMsix
  (try dsimp -proj only)
  first
  | (simp [↓hide_with, ↓hide_with_pin, hide_foldl]; done)
  | ((repeat' split) <;> simp [↓hide_with, ↓hide_with_pin, hide_foldl])

@[simp ↓] theorem hide_setHif {μ : Mask} [Hidden μ.out] [Hidden μ.bootSt] [Hidden μ.cpx] [Hidden μ.flt] [Hidden μ.hif] [Hidden μ.coil] [Hidden μ.nvs] (off : Nat) (v : W32) (s : State) :
    hide μ (setHif off v s) = hide μ s := by
  unfold setHif
  (try dsimp -proj only)
  first
  | (simp [↓hide_with, ↓hide_with_pin, hide_foldl]; done)
  | ((repeat' split) <;> simp [↓hide_with, ↓hide_with_pin, hide_foldl])

@[simp ↓] theorem hide_setBlkReg {μ : Mask} [Hidden μ.out] [Hidden μ.flt] [Hidden μ.hif] (f : BlkFlt → BlkFlt) (s : State) :
    hide μ (setBlkReg f s) = hide μ s := by
  unfold setBlkReg
  (try dsimp -proj only)
  first
  | (simp [↓hide_with, ↓hide_with_pin, hide_foldl]; done)
  | ((repeat' split) <;> simp [↓hide_with, ↓hide_with_pin, hide_foldl])

@[simp ↓] theorem hide_setOther {μ : Mask} [Hidden μ.out] [Hidden μ.whl] [Hidden μ.flt] [Hidden μ.hif] [Hidden μ.pin] [Hidden μ.tmp] (off : Nat) (v : W32) (s : State) :
    hide μ (setOther off v s) = hide μ s := by
  unfold setOther
  (try dsimp -proj only)
  first
  | (simp [↓hide_with, ↓hide_with_pin, hide_foldl]; done)
  | ((repeat' split) <;> simp [↓hide_with, ↓hide_with_pin, hide_foldl])

@[simp ↓] theorem hide_setRw {μ : Mask} [Hidden μ.out] [Hidden μ.bootSt] [Hidden μ.cpx] [Hidden μ.whl] [Hidden μ.flt] [Hidden μ.hif] [Hidden μ.coil] [Hidden μ.nvs] [Hidden μ.afe] [Hidden μ.pin] [Hidden μ.dec] [Hidden μ.pnt] [Hidden μ.pq] [Hidden μ.cal] [Hidden μ.trf] [Hidden μ.crd] [Hidden μ.sgr] [Hidden μ.tmp] (off : Nat) (v : W32) (s : State) :
    hide μ (setRw off v s) = hide μ s := by
  unfold setRw
  (try dsimp -proj only)
  first
  | (simp [↓hide_with, ↓hide_with_pin, hide_foldl]; done)
  | ((repeat' split) <;> simp [↓hide_with, ↓hide_with_pin, hide_foldl])

@[simp ↓] theorem hide_execRegWrite {μ : Mask} [Hidden μ.out] [Hidden μ.bootSt] [Hidden μ.cpx] [Hidden μ.whl] [Hidden μ.flt] [Hidden μ.hif] [Hidden μ.coil] [Hidden μ.nvs] [Hidden μ.rtc] [Hidden μ.afe] [Hidden μ.pin] [Hidden μ.dec] [Hidden μ.pnt] [Hidden μ.pq] [Hidden μ.cal] [Hidden μ.trf] [Hidden μ.crd] [Hidden μ.sgr] [Hidden μ.tmp] (off : Nat) (v : W32) (s : State) :
    kept μ (hide μ s) (execRegWrite off v s) := by
  unfold execRegWrite
  (try dsimp -proj only)
  first
  | (simp [↓hide_with, ↓hide_with_pin, hide_foldl]; done)
  | ((repeat' split) <;> simp [↓hide_with, ↓hide_with_pin, hide_foldl])

@[simp ↓] theorem hide_readRegs {μ : Mask} [Hidden μ.cpx] [Hidden μ.whl] [Hidden μ.flt] [Hidden μ.hif] [Hidden μ.coil] [Hidden μ.nvs] [Hidden μ.rtc] [Hidden μ.pq] [Hidden μ.crd] [Hidden μ.sgr] (n off : Nat) (s : State) : hide μ (readRegs n off s).2 = hide μ s := by
  induction n generalizing off s with
  | zero => rfl
  | succ k ih =>
    rw [readRegs]
    (try dsimp -proj only)
    rw [ih]
    simp

@[simp ↓] theorem hide_execRegRead {μ : Mask} [Hidden μ.out] [Hidden μ.bootSt] [Hidden μ.cpx] [Hidden μ.whl] [Hidden μ.flt] [Hidden μ.hif] [Hidden μ.coil] [Hidden μ.nvs] [Hidden μ.rtc] [Hidden μ.pq] [Hidden μ.crd] [Hidden μ.sgr] (r : Req) (s : State) : kept μ (hide μ s) (execRegRead r s) := by
  unfold execRegRead
  refine hide_ring0 _ _ _ _ _ ?_
  (try dsimp -proj only)
  split
  · simp
  · rw [ansState_wait]
    simp [↓hide_with]

theorem hide_outState {μ : Mask} (o : Out) (s : State) (h : kept μ (hide μ s) o) : hide μ (outState o s) = hide μ s := by
  unfold outState
  split
  · exact h
  · rfl

theorem hide_runRing0 {μ : Mask} [Hidden μ.free] [Hidden μ.out] [Hidden μ.bootSt] [Hidden μ.cpx] [Hidden μ.whl] [Hidden μ.flt] [Hidden μ.hif] [Hidden μ.coil] [Hidden μ.nvs] [Hidden μ.rtc] [Hidden μ.afe] [Hidden μ.pin] [Hidden μ.dec] [Hidden μ.pnt] [Hidden μ.pq] [Hidden μ.cal] [Hidden μ.trf] [Hidden μ.crd] [Hidden μ.sgr] (op : Nat) (r : Req) (s : State) (o : Out) (h : runRing0 op r s = some o) : kept μ (hide μ s) o := by
  unfold runRing0 at h
  split at h <;> first | (cases h; simp; done) | cases h

theorem hide_runCommand {μ : Mask} [Hidden μ.free] [Hidden μ.out] [Hidden μ.bootSt] [Hidden μ.cpx] [Hidden μ.whl] [Hidden μ.flt] [Hidden μ.hif] [Hidden μ.coil] [Hidden μ.nvs] [Hidden μ.rtc] [Hidden μ.afe] [Hidden μ.pin] [Hidden μ.dec] [Hidden μ.pnt] [Hidden μ.pq] [Hidden μ.cal] [Hidden μ.trf] [Hidden μ.crd] [Hidden μ.sgr] (ring op : Nat) (r : Req) (s : State) (o : Out) (h : runCommand ring op r s = some o) : kept μ (hide μ s) o := by
  unfold runCommand at h
  split at h <;> first | exact hide_runRing0 _ _ _ _ h | (cases h; simp; done) | cases h

@[simp ↓] theorem hide_execCommandFrame {μ : Mask} [Hidden μ.free] [Hidden μ.out] [Hidden μ.bootSt] [Hidden μ.cpx] [Hidden μ.whl] [Hidden μ.flt] [Hidden μ.hif] [Hidden μ.coil] [Hidden μ.nvs] [Hidden μ.rtc] [Hidden μ.afe] [Hidden μ.pin] [Hidden μ.dec] [Hidden μ.pnt] [Hidden μ.pq] [Hidden μ.cal] [Hidden μ.trf] [Hidden μ.crd] [Hidden μ.sgr] (f : Frame) (s : State) : kept μ (hide μ s) (execCommandFrame f s) := by
  unfold execCommandFrame
  rw [kept_next]
  refine hide_workerAuth _ _ _ _ _ (fun t => ?_)
  (try dsimp -proj only)
  split
  · rfl
  · split
    · rename_i h
      exact hide_outState _ _ (hide_runCommand _ _ _ _ _ h)
    · simp

end Sys2Proof.Laws
end

