-- ==== Sys2Proof/Laws/Frames.lean ====
section
/-!
SUPPORT. Frames that a chip forms are sound and carry a tag that holds (R373, R385), and the identity number is eight
bytes (R423).
-/
namespace Sys2Proof.Laws
open Sys2Proof Sys2Proof.Machine

/-- A sealed frame with sound fields is not discarded. -/
theorem frameBad_sealFrame (f : Frame) (hl : f.plen = f.payload.length) (hp : f.plen ≤ 2048) (hf : fld f.flags 7 2 = 0)
    (hr : f.rsv = 0) (hs : bit f.flags 0 = true ∨ f.session = 0 ∧ f.ctr = 0) (hc : pairOk f.cls f.typ = true)
    (ha : bit f.flags 0 = (f.cls == 1 || f.cls == 2)) : frameBad (sealFrame f) = false := by
  unfold frameBad sealFrame
  simp only [frameBody, hr, hc, hf, ← ha, bne_self_eq_false, Bool.false_or, Bool.not_true, Bool.or_false]
  rcases hs with h | ⟨h1, h2⟩
  · simp [h, hl]; omega
  · simp [h1, h2, hl]; omega

/-- An AUTH frame that a chip forms is sound. -/
theorem frameBad_authFrame (port cls typ : Nat) (up : Bool) (dst src ring : Nat) (key : List Byte) (session : W32) (ctr : W64)
    (p : List Byte) (hp : p.length ≤ 2048) (hc : pairOk cls typ = true) (ha : (cls == 1 || cls == 2) = true) :
    frameBad (authFrame port cls typ up dst src ring key session ctr p) = false := by
  have h0 : bit (if up then 3 else 1 : Byte) 0 = true := by cases up <;> decide
  have h1 : fld (if up then 3 else 1 : Byte) 7 2 = 0 := by cases up <;> decide
  exact frameBad_sealFrame _ rfl hp h1 rfl (.inl h0) hc (h0.trans ha.symm)

/-- Its tag holds under its key. -/
theorem tagOk_authFrame (port cls typ : Nat) (up : Bool) (dst src ring : Nat) (key : List Byte) (session : W32) (ctr : W64)
    (p : List Byte) : tagOk key (authFrame port cls typ up dst src ring key session ctr p) = true := by
  simp [tagOk, authFrame, sealFrame, frameNonce, frameAad, frameBody]

theorem identBytes_length : identBytes.length = 8 := by
  simp [identBytes, padTo, zeros]

/-- Reading past the identity number. -/
theorem rd_ident (l : List Byte) (o n : Nat) : rd (identBytes ++ l) (8 + o) n = rd l o n := by
  have h : (identBytes ++ l).drop (8 + o) = l.drop o := by
    rw [← identBytes_length, List.drop_append]; simp
  rw [rd, h, rd]

theorem take_ident (l : List Byte) : (identBytes ++ l).take 8 = identBytes := by
  simp [identBytes_length]

/-- The identity number as eight bytes. -/
theorem identBytes_eq : ∃ a b c d e f g h : Byte, identBytes = [a, b, c, d, e, f, g, h] := by
  have hl := identBytes_length
  match hi : identBytes with
  | [a, b, c, d, e, f, g, h] => exact ⟨a, b, c, d, e, f, g, h, rfl⟩
  | [] | [_] | [_, _] | [_, _, _] | [_, _, _, _] | [_, _, _, _, _] | [_, _, _, _, _, _] | [_, _, _, _, _, _, _] => simp [hi] at hl
  | _ :: _ :: _ :: _ :: _ :: _ :: _ :: _ :: _ :: _ => simp [hi] at hl

end Sys2Proof.Laws
end

