-- ==== Sys2Proof/Laws/Freeze.lean ====
section
/-!
SUPPORT. A freeze of accumulation leaves metering frozen, and a last gasp that starts is in progress.
-/
namespace Sys2Proof.Laws
open Sys2Proof Sys2Proof.Machine

theorem frozen_setWss (f : State → Nat → WStream) (l : List Nat) (s : State) :
    (l.foldl (fun u c => setWs c (f u c) u) s).pnt.frozen = s.pnt.frozen := by
  induction l generalizing s with
  | nil => rfl
  | cons c t ih => rw [List.foldl_cons, ih]; rfl

theorem pnt_reconnect (ms : List Nat) (s : State) : (reconnect ms s).pnt = s.pnt :=
  same_pnt (@hide_reconnect { afe := true, dec := true, cal := true } ⟨rfl⟩ ⟨rfl⟩ ms s) rfl
theorem pnt_resumeShadow (g : Nat) (s : State) : (resumeShadow g s).pnt = s.pnt :=
  same_pnt (@hide_resumeShadow { afe := true } ⟨rfl⟩ g s) rfl
theorem pnt_calEvent (k g a : Nat) (b : Bool) (r : List Nat) (c : Bool) (st : Stamp) (s : State) :
    (calEvent k g a b r c st s).pnt = s.pnt := rfl
theorem pnt_complete (w : Waiter) (st : W16) (q : W32) (d : List Byte) (s : State) : (complete w st q d s).pnt = s.pnt :=
  same_pnt (@hide_complete { out := true, hif := true, coil := true } ⟨rfl⟩ ⟨rfl⟩ ⟨rfl⟩ w st q d s) rfl

theorem pnt_calIdle (s : State) : (calIdle s).pnt = s.pnt := rfl

theorem frozen_calAbort (s : State) : (calAbort s).pnt.frozen = s.pnt.frozen := by
  have key : ∀ (b : Bool) (x : State), x.pnt.frozen = s.pnt.frozen →
      (if b = true then
        (groupChans s.cal.group.toNat).foldl (fun u c => setWs c { getWs u c with mode := 0, sw := none } u)
          (resumeShadow s.cal.group.toNat x)
      else x).pnt.frozen = s.pnt.frozen := by
    intro b x hx
    split
    · rw [frozen_setWss (fun u c => { getWs u c with mode := 0, sw := none }), pnt_resumeShadow, hx]
    · exact hx
  have hr : (if s.cal.isol = true then reconnect (groupMods s.cal.group.toNat) s else s).pnt.frozen = s.pnt.frozen := by
    split
    · rw [pnt_reconnect]
    · rfl
  unfold calAbort
  dsimp -proj only
  split
  · rfl
  · rw [pnt_calIdle, pnt_calEvent, pnt_reconnect]
  · split
    · rw [pnt_complete, pnt_calIdle, pnt_calEvent]; exact key _ _ hr
    · rw [pnt_calIdle, pnt_calEvent]; exact key _ _ hr

theorem frozen_stop (st : Stamp) (f : Pt → Bool) (s : State) : (cfStop (clearPrev f (freezeStop st s))).pnt.frozen = true := rfl

theorem frozen_freeze (s : State) (h : metering s = true) : (freeze s).pnt.frozen = true := by
  unfold freeze
  split
  · rename_i hc
    simpa [h] using hc
  · dsimp -proj only
    rw [frozen_calAbort]
    refine (congrArg Pnt.frozen (same_pnt (@hide_pqFreeze { faultBlocks with pq := true } ⟨rfl⟩ ⟨rfl⟩ ⟨rfl⟩ ⟨rfl⟩ ⟨rfl⟩ ⟨rfl⟩ ⟨rfl⟩ ⟨rfl⟩ _ _) rfl)).trans ?_
    refine (congrArg Pnt.frozen (same_pnt (@hide_capTruncate { pq := true } ⟨rfl⟩ _) rfl)).trans ?_
    refine (congrArg Pnt.frozen (same_pnt (@hide_noteFreeze { trf := true } ⟨rfl⟩ _) rfl)).trans ?_
    exact frozen_stop _ _ _

theorem lg_startLastGasp (c : Byte) (s : State) : (startLastGasp c s).nvs.lg.isSome = true := by
  unfold startLastGasp
  split
  · rename_i g h; simp [h]
  · rfl

end Sys2Proof.Laws
end

