-- ==== Sys2Proof/Laws/Tables.lean ====
section
/-!
SUPPORT. Tables by key and single bits: what a read gives after a write, and the canonical form that every write keeps.
-/
namespace Sys2Proof.Laws
open Sys2Proof.Machine

/-- A read of the written key gives what was written; any other key reads as before. -/
theorem tget_tput {α : Type} (t : Tab α) (i j : Nat) (x : α) : tget (tput t i x) j = if i = j then some x else tget t j := by
  induction t with
  | nil => simp [tput, tget]
  | cons p t ih =>
    obtain ⟨k, v⟩ := p
    rw [tput]
    by_cases h1 : i < k
    · simp [h1, tget]
    · by_cases h2 : i = k
      · subst h2
        simp only [Nat.lt_irrefl, if_false, if_true, tget]
        by_cases h3 : i = j <;> simp [h3]
      · simp only [h1, h2, if_false, tget, ih]
        by_cases h3 : k = j
        · subst h3; simp [h2]
        · simp [h3]

@[simp] theorem tget_tput_self {α : Type} (t : Tab α) (i : Nat) (x : α) : tget (tput t i x) i = some x := by simp [tget_tput]
@[simp] theorem tgetD_tput_self {α : Type} (t : Tab α) (i : Nat) (x d : α) : tgetD (tput t i x) i d = x := by simp [tgetD]
theorem tgetD_tput {α : Type} (t : Tab α) (i j : Nat) (x d : α) : tgetD (tput t i x) j d = if i = j then x else tgetD t j d := by
  by_cases h : i = j <;> simp [tgetD, tget_tput, h]

theorem tsorted_cons {α : Type} (p : Nat × α) (t : Tab α) :
    tsorted (p :: t) = true ↔ (∀ q ∈ t.head?, p.1 < q.1) ∧ tsorted t = true := by
  cases t with
  | nil => simp [tsorted]
  | cons q t => simp [tsorted]

theorem tput_head {α : Type} (t : Tab α) (i : Nat) (x : α) (q : Nat × α) (h : q ∈ (tput t i x).head?) :
    q.1 = i ∨ ∃ r ∈ t.head?, q.1 = r.1 ∧ ¬ i < r.1 := by
  cases t with
  | nil => simp [tput] at h; left; rw [← h]
  | cons p t =>
    obtain ⟨k, v⟩ := p
    rw [tput] at h
    by_cases h1 : i < k
    · simp [h1] at h; left; rw [← h]
    · by_cases h2 : i = k
      · simp [h2] at h; left; rw [← h, h2]
      · simp [h1, h2] at h
        right; exact ⟨(k, v), by simp, by rw [← h], h1⟩

/-- A write keeps the keys strictly rising. -/
theorem tsorted_tput {α : Type} (t : Tab α) (i : Nat) (x : α) (h : tsorted t = true) : tsorted (tput t i x) = true := by
  induction t with
  | nil => rfl
  | cons p t ih =>
    obtain ⟨k, v⟩ := p
    have hp := (tsorted_cons _ _).1 h
    rw [tput]
    by_cases h1 : i < k
    · simp only [h1, if_true]
      exact (tsorted_cons _ _).2 ⟨by simpa using h1, h⟩
    · by_cases h2 : i = k
      · subst h2
        simp only [Nat.lt_irrefl, if_false, if_true]
        exact (tsorted_cons _ _).2 ⟨hp.1, hp.2⟩
      · simp only [h1, h2, if_false]
        refine (tsorted_cons _ _).2 ⟨fun q hq => ?_, ih hp.2⟩
        rcases tput_head _ _ _ _ hq with h3 | ⟨r, hr, h3, _⟩
        · simp only [h3]; omega
        · have := hp.1 r hr
          omega

/-- A bit of a word with one bit set to `v`. -/
theorem bit_setBit {n : Nat} (w : BitVec n) (i j : Nat) (v : Bool) (h : i < n) :
    bit (setBit w i v) j = if i = j then v else bit w j := by
  have e : bit (setBit w i v) j = (setBit w i v).getLsbD j := by simp [bit, BitVec.getLsbD]
  have e2 : bit w j = w.getLsbD j := by simp [bit, BitVec.getLsbD]
  have p : (BitVec.ofNat n (2 ^ i)).getLsbD j = (decide (j < n) && decide (i = j)) := by
    rw [BitVec.getLsbD_ofNat, Nat.testBit_two_pow]
  rw [e, e2]
  cases v
  · simp only [setBit, Bool.false_eq_true, if_false, BitVec.getLsbD_and, BitVec.getLsbD_not, p]
    by_cases h1 : i = j
    · subst h1; simp [h]
    · simp [h1]
      intro hw
      exact BitVec.lt_of_getLsbD hw
  · simp only [setBit, if_true, BitVec.getLsbD_or, p]
    by_cases h1 : i = j
    · subst h1; simp [h]
    · simp [h1]

end Sys2Proof.Laws
end

