-- ==== Sys2Proof/Laws/Raise.lean ====
section
/-!
SUPPORT. What raising a fault does: its FSTAT bit is set, no other FSTAT bit changes but RECORD_DROP's, and a GRAVE fault
is a fail-stop.
-/
set_option linter.unusedSimpArgs false
namespace Sys2Proof.Laws
open Sys2Proof Sys2Proof.Machine

/-- The FSTAT bit of source `i` of block `b`. -/
def fbit (s : State) (b i : Nat) : Bool := bit (getBlk s b).fstat i

theorem fbit_blk {s t : State} (h : t.flt.blk = s.flt.blk) (b i : Nat) : fbit t b i = fbit s b i := by simp [fbit, getBlk, h]

theorem getBlk_modBlk (b c : Nat) (f : BlkFlt → BlkFlt) (s : State) :
    getBlk (modBlk b f s) c = if b = c then f (getBlk s b) else getBlk s c := by
  simp only [modBlk, setBlk, getBlk, tgetD_tput]

theorem fbit_modBlk (b : Nat) (f : BlkFlt → BlkFlt) (hf : ∀ k, (f k).fstat = k.fstat) (s : State) (c i : Nat) :
    fbit (modBlk b f s) c i = fbit s c i := by
  simp only [fbit, getBlk_modBlk]
  by_cases h : b = c
  · subst h; simp [hf]
  · simp [h]

theorem fbit_modSrc (b src : Nat) (f : SrcSt → SrcSt) (s : State) (c i : Nat) : fbit (modSrc b src f s) c i = fbit s c i :=
  fbit_modBlk b (fun k => { k with srcs := tput k.srcs src (f (tgetD k.srcs src Init.srcSt)) }) (fun _ => rfl) s c i

/-- The blocks that recording changes but the fault block. -/
def recBlocks : Mask := { out := true, hif := true, coil := true, nvs := true }

theorem flt_sendVector (v : Nat) (s : State) : (sendVector v s).flt = s.flt :=
  same_flt (@hide_sendVector recBlocks ⟨rfl⟩ ⟨rfl⟩ v s) rfl
theorem flt_blockEvent (b c : Nat) (d : List Byte) (s : State) : (blockEvent b c d s).flt = s.flt :=
  same_flt (@hide_blockEvent recBlocks ⟨rfl⟩ b c d s) rfl
theorem flt_enqRaw (r : Nat) (q : QRec) (s : State) : (enqRaw r q s).1.flt = s.flt :=
  same_flt (@hide_enqRaw recBlocks ⟨rfl⟩ ⟨rfl⟩ r q s) rfl
/-- The flags of every block. -/
def blkOf (s : State) : Tab BlkFlt := s.flt.blk
@[simp ↓] theorem blkOf_ite (c : Prop) [Decidable c] (a b : State) :
    blkOf (if c then a else b) = if c then blkOf a else blkOf b := by split <;> rfl
@[simp] theorem blkOf_stopWrites (s : State) : blkOf (stopWrites s) = blkOf s := rfl
@[simp] theorem blkOf_startLastGasp (c : Byte) (s : State) : blkOf (startLastGasp c s) = blkOf s := by
  unfold startLastGasp
  split <;> rfl
@[simp] theorem blkOf_fltRec0 (b src kind : Nat) (s : State) : blkOf (fltRec0 b src kind s) = blkOf s := by
  unfold fltRec0 fltRecord blkOf
  simp only [flt_enqRaw]
theorem blkOf_begun (cls : Cls) (word : W32) (tick : W64) (s t : State) (hs : ({ s with
      flt.reason := word, flt.prev := word, flt.fsTick := tick, flt.kind := cls, flt.phase := .begun,
      boot.st := .failstop, cpx.acp0 := false, cpx.acp1 := false } : State) = t) : blkOf t = blkOf s := by
  rw [← hs]; rfl
theorem blkOf_graver (word : W32) (s t : State)
    (hs : ({ s with flt.reason := word, flt.prev := word, flt.kind := .grave } : State) = t) : blkOf t = blkOf s := by
  rw [← hs]; rfl
theorem blkOf_first (s t : State) (p q r : Bool) (h : blkOf t = blkOf s) :
    blkOf (if p = true then (if q = true then t else if r = true then stopWrites t else startLastGasp 3 t) else stopWrites t) = blkOf s := by
  simp [h]
theorem blkOf_next (v b src k : Nat) (s t : State) (p q : Bool) (h : blkOf t = blkOf s) :
    blkOf (if p = true then (if q = true then sendVector v (fltRec0 b src k t) else t) else s) = blkOf s := by
  have e : blkOf (sendVector v (fltRec0 b src k t)) = blkOf s :=
    (congrArg Flt.blk (flt_sendVector v _)).trans ((blkOf_fltRec0 b src k t).trans h)
  cases p <;> cases q <;> simp [h, e]
theorem blkOf_failStop (g c : Bool) (cls : Cls) (b src : Nat) (s : State) : blkOf (failStop g c cls b src s) = blkOf s := by
  unfold failStop
  generalize reasonWord g c cls.num b src = word
  generalize faultTick s = tick
  cases s.flt.phase
  · dsimp -proj only
    exact blkOf_first _ _ _ _ _ (blkOf_begun cls word tick s _ rfl)
  all_goals
    dsimp -proj only
    exact blkOf_next _ _ _ _ _ _ _ _ (blkOf_graver word s _ rfl)

@[simp] theorem fbit_sendVector (v : Nat) (s : State) (c i : Nat) : fbit (sendVector v s) c i = fbit s c i :=
  fbit_blk (by rw [flt_sendVector]) c i
@[simp] theorem fbit_withReason (w : W32) (s : State) (c i : Nat) : fbit (withReason w s) c i = fbit s c i := rfl
@[simp] theorem fbit_blkSignal (b : Nat) (p : Bool) (s : State) (c i : Nat) : fbit (blkSignal b p s) c i = fbit s c i := by
  unfold blkSignal
  split <;> simp
@[simp] theorem fbit_fltRec0 (b src kind : Nat) (s : State) (c i : Nat) : fbit (fltRec0 b src kind s) c i = fbit s c i :=
  fbit_blk (blkOf_fltRec0 b src kind s) c i
@[simp] theorem fbit_failStop (g k : Bool) (cls : Cls) (b src : Nat) (s : State) (c i : Nat) :
    fbit (failStop g k cls b src s) c i = fbit s c i := fbit_blk (blkOf_failStop g k cls b src s) c i
@[simp] theorem fbit_blockEvent (b k : Nat) (d : List Byte) (s : State) (c i : Nat) : fbit (blockEvent b k d s) c i = fbit s c i :=
  fbit_blk (by rw [flt_blockEvent]) c i
theorem beginSevere_via {α : Type} (f : State → α) (b src : Nat) (s : State) (h1 : ∀ g t, f (modSrc b src g t) = f t)
    (h2 : ∀ (r : BlkFlt → Option Grace) t, f (modBlk b (fun k => { k with run := r k }) t) = f t) (h3 : ∀ d t, f (blockEvent 15 2 d t) = f t) :
    f (beginSevere b src s) = f s := by
  unfold beginSevere
  dsimp -proj only
  exact (h3 _ _).trans ((h2 _ _).trans (h1 _ _))
@[simp] theorem fbit_beginSevere (b src : Nat) (s : State) (c i : Nat) : fbit (beginSevere b src s) c i = fbit s c i :=
  beginSevere_via (fun t => fbit t c i) b src s (fun g t => fbit_modSrc b src g t c i)
    (fun r t => fbit_modBlk b (fun k => { k with run := r k }) (fun _ => rfl) t c i) (fun d t => fbit_blockEvent 15 2 d t c i)
theorem countWindow_via {α : Type} (f : State → α) (b src : Nat) (s : State) (hf : ∀ g t, f (modSrc b src g t) = f t) :
    f (countWindow b src s).1 = f s := by
  unfold countWindow
  dsimp -proj only
  split
  · simp [hf]
  · split
    · split <;> simp [hf]
    · split <;> simp [hf]
@[simp] theorem fbit_countWindow (b src : Nat) (s : State) (c i : Nat) : fbit (countWindow b src s).1 c i = fbit s c i :=
  countWindow_via (fun t => fbit t c i) b src s (fun g t => fbit_modSrc b src g t c i)

theorem fbit_modBlk_set (b src : Nat) (s : State) (c i : Nat) (h : src < 32) :
    fbit (modBlk b (fun k => { k with fstat := setBit k.fstat src true }) s) c i = (fbit s c i || (decide (b = c) && decide (src = i))) := by
  unfold fbit
  rw [getBlk_modBlk]
  by_cases hb : b = c
  · subst hb
    simp only [if_true, bit_setBit _ _ _ _ h]
    by_cases hi : src = i <;> simp [hi]
  · simp [hb]

theorem fbit_noteRaise (b src : Nat) (s : State) (c i : Nat) (h : src < 32) :
    fbit (noteRaise b src s) c i = (fbit s c i || (decide (b = c) && decide (src = i))) := by
  unfold noteRaise
  rw [fbit_modBlk_set _ _ _ _ _ h, fbit_modSrc]

theorem srcClass_lt (b src : Nat) (c : Cls) (h : srcClass b src = some c) : src < 32 := by
  by_cases hn : src < 32
  · exact hn
  · have h1 : src ≠ 30 := by omega
    have h2 : src ≠ 31 := by omega
    simp only [srcClass, h1, h2, false_and, if_false] at h
    revert h
    split
    all_goals
      intro h
      have hl := (List.getElem?_eq_some_iff.1 h).1
      simp at hl
      try omega

/-- What a raise does to the FSTAT bits. -/
theorem fbit_raise0 (b src : Nat) (s : State) (c i : Nat) :
    fbit (raise0 b src s) c i = (fbit s c i || ((srcClass b src).isSome && (decide (b = c) && decide (src = i)))) := by
  unfold raise0
  split
  · rename_i h; simp [h]
  · rename_i cls h
    have hl := srcClass_lt b src cls h
    simp only [h, Option.isSome_some, Bool.true_and]
    cases cls <;> dsimp -proj only
    · rw [fbit_noteRaise _ _ _ _ _ hl]
    all_goals
      repeat' split
      all_goals simp [fbit_noteRaise _ _ _ _ _ hl]

theorem fbit_noteDrop (r : Nat) (s : State) (c i : Nat) :
    fbit (noteDrop r s) c i = (fbit s c i || (!((getRing s r).dropSpan == some (s.rtc.s / 600)) && (decide (11 = c) && decide (3 = i)))) := by
  unfold noteDrop
  dsimp only
  split
  · rename_i h; simp [h]
  · rename_i h
    rw [fbit_raise0]
    have e : fbit (modRing r (fun x => { x with dropSpan := some (s.rtc.s / 600) }) s) c i = fbit s c i := rfl
    rw [e]
    simp [h, srcClass]

/-- A raise latches its FSTAT bit. -/
theorem fbit_raise_self (b src : Nat) (s : State) (h : (srcClass b src).isSome = true) : fbit (raise b src s) b src = true := by
  unfold raise
  dsimp only
  split <;> simp [fbit_noteDrop, fbit_raise0, h]

/-- A raise changes no other FSTAT bit but RECORD_DROP's. -/
theorem fbit_raise_other (b src : Nat) (s : State) (c i : Nat) (h : ¬ (b = c ∧ src = i)) (h2 : ¬ (c = 11 ∧ i = 3)) :
    fbit (raise b src s) c i = fbit s c i := by
  have h3 : (decide (b = c) && decide (src = i)) = false := by simpa using h
  have h4 : (decide (11 = c) && decide (3 = i)) = false := by
    simp only [Bool.and_eq_false_iff, decide_eq_false_iff_not]
    by_cases hc : 11 = c
    · right; intro hi; exact h2 ⟨hc.symm, hi.symm⟩
    · left; exact hc
  unfold raise
  dsimp only
  split <;> simp [fbit_noteDrop, fbit_raise0, h3, h4]

/-- A raise clears no FSTAT bit. -/
theorem fbit_raise_mono (b src : Nat) (s : State) (c i : Nat) (h : fbit s c i = true) : fbit (raise b src s) c i = true := by
  unfold raise
  dsimp only
  split <;> simp [fbit_noteDrop, fbit_raise0, h]

theorem fbit_raiseLive (b src : Nat) (s : State) (h : (srcClass b src).isSome = true) (hl : bit (getBlk s b).flive src = false) :
    fbit (raiseLive b src s) b src = true := by
  unfold raiseLive
  simp only [hl, Bool.false_eq_true, if_false]
  exact fbit_raise_self _ _ _ h

/-! ### Fail-stop -/

/-- The phase of a fail-stop and the boot state. -/
def stop (s : State) : FsPhase × BootSt := (s.flt.phase, s.boot.st)
@[simp ↓] theorem stop_ite (c : Prop) [Decidable c] (a b : State) : stop (if c then a else b) = if c then stop a else stop b := by
  split <;> rfl
@[simp] theorem stop_modBlk (b : Nat) (f : BlkFlt → BlkFlt) (s : State) : stop (modBlk b f s) = stop s := rfl
@[simp] theorem stop_modSrc (b src : Nat) (f : SrcSt → SrcSt) (s : State) : stop (modSrc b src f s) = stop s := rfl
@[simp] theorem stop_stopWrites (s : State) : stop (stopWrites s) = stop s := rfl
@[simp] theorem stop_startLastGasp (c : Byte) (s : State) : stop (startLastGasp c s) = stop s := by
  unfold startLastGasp
  split <;> rfl
@[simp] theorem stop_sendVector (v : Nat) (s : State) : stop (sendVector v s) = stop s := by
  have h := @hide_sendVector recBlocks ⟨rfl⟩ ⟨rfl⟩ v s
  simp only [stop, same_flt h rfl, same_bootSt h rfl]
@[simp] theorem stop_withReason (w : W32) (s : State) : stop (withReason w s) = stop s := rfl
@[simp] theorem stop_blkSignal (b : Nat) (p : Bool) (s : State) : stop (blkSignal b p s) = stop s := by
  unfold blkSignal
  split <;> simp
@[simp] theorem stop_blockEvent (b c : Nat) (d : List Byte) (s : State) : stop (blockEvent b c d s) = stop s := rfl
@[simp] theorem stop_enqRaw (r : Nat) (q : QRec) (s : State) : stop (enqRaw r q s).1 = stop s := by
  have h := @hide_enqRaw recBlocks ⟨rfl⟩ ⟨rfl⟩ r q s
  simp only [stop, same_flt h rfl, same_bootSt h rfl]
@[simp] theorem stop_fltRec0 (b src kind : Nat) (s : State) : stop (fltRec0 b src kind s) = stop s := by
  unfold fltRec0 fltRecord
  rw [stop_enqRaw]
  rfl
@[simp] theorem stop_noteRaise (b src : Nat) (s : State) : stop (noteRaise b src s) = stop s := rfl
@[simp] theorem stop_countWindow (b src : Nat) (s : State) : stop (countWindow b src s).1 = stop s :=
  countWindow_via stop b src s (fun _ _ => rfl)
@[simp] theorem stop_beginSevere (b src : Nat) (s : State) : stop (beginSevere b src s) = stop s :=
  beginSevere_via stop b src s (fun _ _ => rfl) (fun _ _ => rfl) (fun _ _ => rfl)

theorem stop_begun (cls : Cls) (word : W32) (tick : W64) (s t : State) (hs : ({ s with
      flt.reason := word, flt.prev := word, flt.fsTick := tick, flt.kind := cls, flt.phase := .begun,
      boot.st := .failstop, cpx.acp0 := false, cpx.acp1 := false } : State) = t) : stop t = (.begun, .failstop) := by
  rw [← hs]; rfl
theorem stop_graver (word : W32) (s t : State)
    (hs : ({ s with flt.reason := word, flt.prev := word, flt.kind := .grave } : State) = t) : stop t = stop s := by
  rw [← hs]; rfl
theorem stop_first (t : State) (p q r : Bool) :
    stop (if p = true then (if q = true then t else if r = true then stopWrites t else startLastGasp 3 t) else stopWrites t) = stop t := by
  simp
theorem stop_next (v b src k : Nat) (s t : State) (p q : Bool) (h : stop t = stop s) :
    stop (if p = true then (if q = true then sendVector v (fltRec0 b src k t) else t) else s) = stop s := by
  cases p <;> cases q <;> simp [h]
/-- A fail-stop begins, or the one in force stays. -/
theorem stop_failStop (g c : Bool) (cls : Cls) (b src : Nat) (s : State) :
    stop (failStop g c cls b src s) = if s.flt.phase = .none then (.begun, .failstop) else stop s := by
  unfold failStop
  generalize reasonWord g c cls.num b src = word
  generalize faultTick s = tick
  cases s.flt.phase
  · dsimp -proj only
    exact (stop_first _ _ _ _).trans (stop_begun cls word tick s _ rfl)
  all_goals
    dsimp -proj only
    exact stop_next _ _ _ _ _ _ _ _ (stop_graver word s _ rfl)

theorem stop_raise0 (b src : Nat) (s : State) :
    stop (raise0 b src s) = if srcClass b src = some .grave ∧ s.flt.phase = .none then (.begun, .failstop) else stop s := by
  unfold raise0
  split
  · rename_i h; simp [h]
  · rename_i cls h
    cases cls <;> dsimp -proj only
    · simp [h]
    · repeat' split
      all_goals simp_all
    · repeat' split
      all_goals simp_all
    · have e : (fltRec0 b src 1 (withReason (failStop false false .grave b src (noteRaise b src s)).flt.reason (noteRaise b src s))).flt.phase = s.flt.phase :=
        congrArg Prod.fst (show stop _ = stop s by simp)
      simp [h, stop_failStop, e]

/-- Only a GRAVE fault begins a fail-stop by its raise. -/
theorem stop_raise (b src : Nat) (s : State) :
    stop (raise b src s) = if srcClass b src = some .grave ∧ s.flt.phase = .none then (.begun, .failstop) else stop s := by
  have e : ∀ t : State, stop (noteDrop 14 t) = stop t := by
    intro t
    unfold noteDrop
    dsimp -proj only
    split
    · rfl
    · rw [stop_raise0, if_neg (by simp [srcClass])]; rfl
  unfold raise
  dsimp -proj only
  split
  · rw [e, stop_raise0]
  · rw [stop_raise0]

theorem stop_raiseLive (b src : Nat) (s : State) (hl : bit (getBlk s b).flive src = false) :
    stop (raiseLive b src s) = if srcClass b src = some .grave ∧ s.flt.phase = .none then (.begun, .failstop) else stop s := by
  unfold raiseLive
  simp only [hl, Bool.false_eq_true, if_false]
  exact stop_raise _ _ _

end Sys2Proof.Laws
end

