-- ==== Sys2Proof/Laws/State.lean ====
section
/-!
SUPPORT. The named updates of State: what each block reads after an update of another one, and what a written entry
reads back as.
-/
namespace Sys2Proof.Laws
open Sys2Proof.Machine

@[simp] theorem emit_pending (e : OutEv) (s : State) : (emit e s).pending = s.pending := rfl
@[simp] theorem emit_free (e : OutEv) (s : State) : (emit e s).free = s.free := rfl
@[simp] theorem emit_slot (e : OutEv) (s : State) : (emit e s).slot = s.slot := rfl
@[simp] theorem emit_porSlot (e : OutEv) (s : State) : (emit e s).porSlot = s.porSlot := rfl
@[simp] theorem emit_fuses (e : OutEv) (s : State) : (emit e s).fuses = s.fuses := rfl
@[simp] theorem emit_boot (e : OutEv) (s : State) : (emit e s).boot = s.boot := rfl
@[simp] theorem emit_cpx (e : OutEv) (s : State) : (emit e s).cpx = s.cpx := rfl
@[simp] theorem emit_whl (e : OutEv) (s : State) : (emit e s).whl = s.whl := rfl
@[simp] theorem emit_flt (e : OutEv) (s : State) : (emit e s).flt = s.flt := rfl
@[simp] theorem emit_hif (e : OutEv) (s : State) : (emit e s).hif = s.hif := rfl
@[simp] theorem emit_coil (e : OutEv) (s : State) : (emit e s).coil = s.coil := rfl
@[simp] theorem emit_nvs (e : OutEv) (s : State) : (emit e s).nvs = s.nvs := rfl
@[simp] theorem emit_rtc (e : OutEv) (s : State) : (emit e s).rtc = s.rtc := rfl
@[simp] theorem emit_afe (e : OutEv) (s : State) : (emit e s).afe = s.afe := rfl
@[simp] theorem emit_pin (e : OutEv) (s : State) : (emit e s).pin = s.pin := rfl
@[simp] theorem emit_dec (e : OutEv) (s : State) : (emit e s).dec = s.dec := rfl
@[simp] theorem emit_pnt (e : OutEv) (s : State) : (emit e s).pnt = s.pnt := rfl
@[simp] theorem emit_pq (e : OutEv) (s : State) : (emit e s).pq = s.pq := rfl
@[simp] theorem emit_cal (e : OutEv) (s : State) : (emit e s).cal = s.cal := rfl
@[simp] theorem emit_trf (e : OutEv) (s : State) : (emit e s).trf = s.trf := rfl
@[simp] theorem emit_crd (e : OutEv) (s : State) : (emit e s).crd = s.crd := rfl
@[simp] theorem emit_sgr (e : OutEv) (s : State) : (emit e s).sgr = s.sgr := rfl
@[simp] theorem emit_tmp (e : OutEv) (s : State) : (emit e s).tmp = s.tmp := rfl

@[simp] theorem noteQual_pending (s0 s : State) : (noteQual s0 s).pending = s.pending := by unfold noteQual; split <;> rfl
@[simp] theorem noteQual_free (s0 s : State) : (noteQual s0 s).free = s.free := by unfold noteQual; split <;> rfl
@[simp] theorem noteQual_out (s0 s : State) : (noteQual s0 s).out = s.out := by unfold noteQual; split <;> rfl
@[simp] theorem noteQual_slot (s0 s : State) : (noteQual s0 s).slot = s.slot := by unfold noteQual; split <;> rfl
@[simp] theorem noteQual_porSlot (s0 s : State) : (noteQual s0 s).porSlot = s.porSlot := by unfold noteQual; split <;> rfl
@[simp] theorem noteQual_fuses (s0 s : State) : (noteQual s0 s).fuses = s.fuses := by unfold noteQual; split <;> rfl
@[simp] theorem noteQual_boot (s0 s : State) : (noteQual s0 s).boot = s.boot := by unfold noteQual; split <;> rfl
@[simp] theorem noteQual_cpx (s0 s : State) : (noteQual s0 s).cpx = s.cpx := by unfold noteQual; split <;> rfl
@[simp] theorem noteQual_flt (s0 s : State) : (noteQual s0 s).flt = s.flt := by unfold noteQual; split <;> rfl
@[simp] theorem noteQual_hif (s0 s : State) : (noteQual s0 s).hif = s.hif := by unfold noteQual; split <;> rfl
@[simp] theorem noteQual_coil (s0 s : State) : (noteQual s0 s).coil = s.coil := by unfold noteQual; split <;> rfl
@[simp] theorem noteQual_nvs (s0 s : State) : (noteQual s0 s).nvs = s.nvs := by unfold noteQual; split <;> rfl
@[simp] theorem noteQual_rtc (s0 s : State) : (noteQual s0 s).rtc = s.rtc := by unfold noteQual; split <;> rfl
@[simp] theorem noteQual_afe (s0 s : State) : (noteQual s0 s).afe = s.afe := by unfold noteQual; split <;> rfl
@[simp] theorem noteQual_pin (s0 s : State) : (noteQual s0 s).pin = s.pin := by unfold noteQual; split <;> rfl
@[simp] theorem noteQual_dec (s0 s : State) : (noteQual s0 s).dec = s.dec := by unfold noteQual; split <;> rfl
@[simp] theorem noteQual_pnt (s0 s : State) : (noteQual s0 s).pnt = s.pnt := by unfold noteQual; split <;> rfl
@[simp] theorem noteQual_pq (s0 s : State) : (noteQual s0 s).pq = s.pq := by unfold noteQual; split <;> rfl
@[simp] theorem noteQual_cal (s0 s : State) : (noteQual s0 s).cal = s.cal := by unfold noteQual; split <;> rfl
@[simp] theorem noteQual_trf (s0 s : State) : (noteQual s0 s).trf = s.trf := by unfold noteQual; split <;> rfl
@[simp] theorem noteQual_crd (s0 s : State) : (noteQual s0 s).crd = s.crd := by unfold noteQual; split <;> rfl
@[simp] theorem noteQual_sgr (s0 s : State) : (noteQual s0 s).sgr = s.sgr := by unfold noteQual; split <;> rfl
@[simp] theorem noteQual_tmp (s0 s : State) : (noteQual s0 s).tmp = s.tmp := by unfold noteQual; split <;> rfl

@[simp] theorem setRing_pending (r : Nat) (x : Ring) (s : State) : (setRing r x s).pending = s.pending := rfl
@[simp] theorem setRing_free (r : Nat) (x : Ring) (s : State) : (setRing r x s).free = s.free := rfl
@[simp] theorem setRing_out (r : Nat) (x : Ring) (s : State) : (setRing r x s).out = s.out := rfl
@[simp] theorem setRing_slot (r : Nat) (x : Ring) (s : State) : (setRing r x s).slot = s.slot := rfl
@[simp] theorem setRing_porSlot (r : Nat) (x : Ring) (s : State) : (setRing r x s).porSlot = s.porSlot := rfl
@[simp] theorem setRing_fuses (r : Nat) (x : Ring) (s : State) : (setRing r x s).fuses = s.fuses := rfl
@[simp] theorem setRing_boot (r : Nat) (x : Ring) (s : State) : (setRing r x s).boot = s.boot := rfl
@[simp] theorem setRing_cpx (r : Nat) (x : Ring) (s : State) : (setRing r x s).cpx = s.cpx := rfl
@[simp] theorem setRing_whl (r : Nat) (x : Ring) (s : State) : (setRing r x s).whl = s.whl := rfl
@[simp] theorem setRing_flt (r : Nat) (x : Ring) (s : State) : (setRing r x s).flt = s.flt := rfl
@[simp] theorem setRing_coil (r : Nat) (x : Ring) (s : State) : (setRing r x s).coil = s.coil := rfl
@[simp] theorem setRing_nvs (r : Nat) (x : Ring) (s : State) : (setRing r x s).nvs = s.nvs := rfl
@[simp] theorem setRing_rtc (r : Nat) (x : Ring) (s : State) : (setRing r x s).rtc = s.rtc := rfl
@[simp] theorem setRing_afe (r : Nat) (x : Ring) (s : State) : (setRing r x s).afe = s.afe := rfl
@[simp] theorem setRing_pin (r : Nat) (x : Ring) (s : State) : (setRing r x s).pin = s.pin := rfl
@[simp] theorem setRing_dec (r : Nat) (x : Ring) (s : State) : (setRing r x s).dec = s.dec := rfl
@[simp] theorem setRing_pnt (r : Nat) (x : Ring) (s : State) : (setRing r x s).pnt = s.pnt := rfl
@[simp] theorem setRing_pq (r : Nat) (x : Ring) (s : State) : (setRing r x s).pq = s.pq := rfl
@[simp] theorem setRing_cal (r : Nat) (x : Ring) (s : State) : (setRing r x s).cal = s.cal := rfl
@[simp] theorem setRing_trf (r : Nat) (x : Ring) (s : State) : (setRing r x s).trf = s.trf := rfl
@[simp] theorem setRing_crd (r : Nat) (x : Ring) (s : State) : (setRing r x s).crd = s.crd := rfl
@[simp] theorem setRing_sgr (r : Nat) (x : Ring) (s : State) : (setRing r x s).sgr = s.sgr := rfl
@[simp] theorem setRing_tmp (r : Nat) (x : Ring) (s : State) : (setRing r x s).tmp = s.tmp := rfl

@[simp] theorem setBlk_pending (b : Nat) (x : BlkFlt) (s : State) : (setBlk b x s).pending = s.pending := rfl
@[simp] theorem setBlk_free (b : Nat) (x : BlkFlt) (s : State) : (setBlk b x s).free = s.free := rfl
@[simp] theorem setBlk_out (b : Nat) (x : BlkFlt) (s : State) : (setBlk b x s).out = s.out := rfl
@[simp] theorem setBlk_slot (b : Nat) (x : BlkFlt) (s : State) : (setBlk b x s).slot = s.slot := rfl
@[simp] theorem setBlk_porSlot (b : Nat) (x : BlkFlt) (s : State) : (setBlk b x s).porSlot = s.porSlot := rfl
@[simp] theorem setBlk_fuses (b : Nat) (x : BlkFlt) (s : State) : (setBlk b x s).fuses = s.fuses := rfl
@[simp] theorem setBlk_boot (b : Nat) (x : BlkFlt) (s : State) : (setBlk b x s).boot = s.boot := rfl
@[simp] theorem setBlk_cpx (b : Nat) (x : BlkFlt) (s : State) : (setBlk b x s).cpx = s.cpx := rfl
@[simp] theorem setBlk_whl (b : Nat) (x : BlkFlt) (s : State) : (setBlk b x s).whl = s.whl := rfl
@[simp] theorem setBlk_hif (b : Nat) (x : BlkFlt) (s : State) : (setBlk b x s).hif = s.hif := rfl
@[simp] theorem setBlk_coil (b : Nat) (x : BlkFlt) (s : State) : (setBlk b x s).coil = s.coil := rfl
@[simp] theorem setBlk_nvs (b : Nat) (x : BlkFlt) (s : State) : (setBlk b x s).nvs = s.nvs := rfl
@[simp] theorem setBlk_rtc (b : Nat) (x : BlkFlt) (s : State) : (setBlk b x s).rtc = s.rtc := rfl
@[simp] theorem setBlk_afe (b : Nat) (x : BlkFlt) (s : State) : (setBlk b x s).afe = s.afe := rfl
@[simp] theorem setBlk_pin (b : Nat) (x : BlkFlt) (s : State) : (setBlk b x s).pin = s.pin := rfl
@[simp] theorem setBlk_dec (b : Nat) (x : BlkFlt) (s : State) : (setBlk b x s).dec = s.dec := rfl
@[simp] theorem setBlk_pnt (b : Nat) (x : BlkFlt) (s : State) : (setBlk b x s).pnt = s.pnt := rfl
@[simp] theorem setBlk_pq (b : Nat) (x : BlkFlt) (s : State) : (setBlk b x s).pq = s.pq := rfl
@[simp] theorem setBlk_cal (b : Nat) (x : BlkFlt) (s : State) : (setBlk b x s).cal = s.cal := rfl
@[simp] theorem setBlk_trf (b : Nat) (x : BlkFlt) (s : State) : (setBlk b x s).trf = s.trf := rfl
@[simp] theorem setBlk_crd (b : Nat) (x : BlkFlt) (s : State) : (setBlk b x s).crd = s.crd := rfl
@[simp] theorem setBlk_sgr (b : Nat) (x : BlkFlt) (s : State) : (setBlk b x s).sgr = s.sgr := rfl
@[simp] theorem setBlk_tmp (b : Nat) (x : BlkFlt) (s : State) : (setBlk b x s).tmp = s.tmp := rfl

@[simp] theorem setStrm_pending (m : Nat) (x : Strm) (s : State) : (setStrm m x s).pending = s.pending := rfl
@[simp] theorem setStrm_free (m : Nat) (x : Strm) (s : State) : (setStrm m x s).free = s.free := rfl
@[simp] theorem setStrm_out (m : Nat) (x : Strm) (s : State) : (setStrm m x s).out = s.out := rfl
@[simp] theorem setStrm_slot (m : Nat) (x : Strm) (s : State) : (setStrm m x s).slot = s.slot := rfl
@[simp] theorem setStrm_porSlot (m : Nat) (x : Strm) (s : State) : (setStrm m x s).porSlot = s.porSlot := rfl
@[simp] theorem setStrm_fuses (m : Nat) (x : Strm) (s : State) : (setStrm m x s).fuses = s.fuses := rfl
@[simp] theorem setStrm_boot (m : Nat) (x : Strm) (s : State) : (setStrm m x s).boot = s.boot := rfl
@[simp] theorem setStrm_cpx (m : Nat) (x : Strm) (s : State) : (setStrm m x s).cpx = s.cpx := rfl
@[simp] theorem setStrm_whl (m : Nat) (x : Strm) (s : State) : (setStrm m x s).whl = s.whl := rfl
@[simp] theorem setStrm_flt (m : Nat) (x : Strm) (s : State) : (setStrm m x s).flt = s.flt := rfl
@[simp] theorem setStrm_hif (m : Nat) (x : Strm) (s : State) : (setStrm m x s).hif = s.hif := rfl
@[simp] theorem setStrm_coil (m : Nat) (x : Strm) (s : State) : (setStrm m x s).coil = s.coil := rfl
@[simp] theorem setStrm_nvs (m : Nat) (x : Strm) (s : State) : (setStrm m x s).nvs = s.nvs := rfl
@[simp] theorem setStrm_rtc (m : Nat) (x : Strm) (s : State) : (setStrm m x s).rtc = s.rtc := rfl
@[simp] theorem setStrm_afe (m : Nat) (x : Strm) (s : State) : (setStrm m x s).afe = s.afe := rfl
@[simp] theorem setStrm_pin (m : Nat) (x : Strm) (s : State) : (setStrm m x s).pin = s.pin := rfl
@[simp] theorem setStrm_pnt (m : Nat) (x : Strm) (s : State) : (setStrm m x s).pnt = s.pnt := rfl
@[simp] theorem setStrm_pq (m : Nat) (x : Strm) (s : State) : (setStrm m x s).pq = s.pq := rfl
@[simp] theorem setStrm_cal (m : Nat) (x : Strm) (s : State) : (setStrm m x s).cal = s.cal := rfl
@[simp] theorem setStrm_trf (m : Nat) (x : Strm) (s : State) : (setStrm m x s).trf = s.trf := rfl
@[simp] theorem setStrm_crd (m : Nat) (x : Strm) (s : State) : (setStrm m x s).crd = s.crd := rfl
@[simp] theorem setStrm_sgr (m : Nat) (x : Strm) (s : State) : (setStrm m x s).sgr = s.sgr := rfl
@[simp] theorem setStrm_tmp (m : Nat) (x : Strm) (s : State) : (setStrm m x s).tmp = s.tmp := rfl

@[simp] theorem setPair_pending (i : Nat) (x : Pair) (s : State) : (setPair i x s).pending = s.pending := rfl
@[simp] theorem setPair_free (i : Nat) (x : Pair) (s : State) : (setPair i x s).free = s.free := rfl
@[simp] theorem setPair_out (i : Nat) (x : Pair) (s : State) : (setPair i x s).out = s.out := rfl
@[simp] theorem setPair_slot (i : Nat) (x : Pair) (s : State) : (setPair i x s).slot = s.slot := rfl
@[simp] theorem setPair_porSlot (i : Nat) (x : Pair) (s : State) : (setPair i x s).porSlot = s.porSlot := rfl
@[simp] theorem setPair_fuses (i : Nat) (x : Pair) (s : State) : (setPair i x s).fuses = s.fuses := rfl
@[simp] theorem setPair_boot (i : Nat) (x : Pair) (s : State) : (setPair i x s).boot = s.boot := rfl
@[simp] theorem setPair_cpx (i : Nat) (x : Pair) (s : State) : (setPair i x s).cpx = s.cpx := rfl
@[simp] theorem setPair_whl (i : Nat) (x : Pair) (s : State) : (setPair i x s).whl = s.whl := rfl
@[simp] theorem setPair_flt (i : Nat) (x : Pair) (s : State) : (setPair i x s).flt = s.flt := rfl
@[simp] theorem setPair_hif (i : Nat) (x : Pair) (s : State) : (setPair i x s).hif = s.hif := rfl
@[simp] theorem setPair_coil (i : Nat) (x : Pair) (s : State) : (setPair i x s).coil = s.coil := rfl
@[simp] theorem setPair_nvs (i : Nat) (x : Pair) (s : State) : (setPair i x s).nvs = s.nvs := rfl
@[simp] theorem setPair_rtc (i : Nat) (x : Pair) (s : State) : (setPair i x s).rtc = s.rtc := rfl
@[simp] theorem setPair_afe (i : Nat) (x : Pair) (s : State) : (setPair i x s).afe = s.afe := rfl
@[simp] theorem setPair_pin (i : Nat) (x : Pair) (s : State) : (setPair i x s).pin = s.pin := rfl
@[simp] theorem setPair_pnt (i : Nat) (x : Pair) (s : State) : (setPair i x s).pnt = s.pnt := rfl
@[simp] theorem setPair_pq (i : Nat) (x : Pair) (s : State) : (setPair i x s).pq = s.pq := rfl
@[simp] theorem setPair_cal (i : Nat) (x : Pair) (s : State) : (setPair i x s).cal = s.cal := rfl
@[simp] theorem setPair_trf (i : Nat) (x : Pair) (s : State) : (setPair i x s).trf = s.trf := rfl
@[simp] theorem setPair_crd (i : Nat) (x : Pair) (s : State) : (setPair i x s).crd = s.crd := rfl
@[simp] theorem setPair_sgr (i : Nat) (x : Pair) (s : State) : (setPair i x s).sgr = s.sgr := rfl
@[simp] theorem setPair_tmp (i : Nat) (x : Pair) (s : State) : (setPair i x s).tmp = s.tmp := rfl

@[simp] theorem setShadow_pending (b : Nat) (x : ShadowMod) (s : State) : (setShadow b x s).pending = s.pending := rfl
@[simp] theorem setShadow_free (b : Nat) (x : ShadowMod) (s : State) : (setShadow b x s).free = s.free := rfl
@[simp] theorem setShadow_out (b : Nat) (x : ShadowMod) (s : State) : (setShadow b x s).out = s.out := rfl
@[simp] theorem setShadow_slot (b : Nat) (x : ShadowMod) (s : State) : (setShadow b x s).slot = s.slot := rfl
@[simp] theorem setShadow_porSlot (b : Nat) (x : ShadowMod) (s : State) : (setShadow b x s).porSlot = s.porSlot := rfl
@[simp] theorem setShadow_fuses (b : Nat) (x : ShadowMod) (s : State) : (setShadow b x s).fuses = s.fuses := rfl
@[simp] theorem setShadow_boot (b : Nat) (x : ShadowMod) (s : State) : (setShadow b x s).boot = s.boot := rfl
@[simp] theorem setShadow_cpx (b : Nat) (x : ShadowMod) (s : State) : (setShadow b x s).cpx = s.cpx := rfl
@[simp] theorem setShadow_whl (b : Nat) (x : ShadowMod) (s : State) : (setShadow b x s).whl = s.whl := rfl
@[simp] theorem setShadow_flt (b : Nat) (x : ShadowMod) (s : State) : (setShadow b x s).flt = s.flt := rfl
@[simp] theorem setShadow_hif (b : Nat) (x : ShadowMod) (s : State) : (setShadow b x s).hif = s.hif := rfl
@[simp] theorem setShadow_coil (b : Nat) (x : ShadowMod) (s : State) : (setShadow b x s).coil = s.coil := rfl
@[simp] theorem setShadow_nvs (b : Nat) (x : ShadowMod) (s : State) : (setShadow b x s).nvs = s.nvs := rfl
@[simp] theorem setShadow_rtc (b : Nat) (x : ShadowMod) (s : State) : (setShadow b x s).rtc = s.rtc := rfl
@[simp] theorem setShadow_pin (b : Nat) (x : ShadowMod) (s : State) : (setShadow b x s).pin = s.pin := rfl
@[simp] theorem setShadow_dec (b : Nat) (x : ShadowMod) (s : State) : (setShadow b x s).dec = s.dec := rfl
@[simp] theorem setShadow_pnt (b : Nat) (x : ShadowMod) (s : State) : (setShadow b x s).pnt = s.pnt := rfl
@[simp] theorem setShadow_pq (b : Nat) (x : ShadowMod) (s : State) : (setShadow b x s).pq = s.pq := rfl
@[simp] theorem setShadow_cal (b : Nat) (x : ShadowMod) (s : State) : (setShadow b x s).cal = s.cal := rfl
@[simp] theorem setShadow_trf (b : Nat) (x : ShadowMod) (s : State) : (setShadow b x s).trf = s.trf := rfl
@[simp] theorem setShadow_crd (b : Nat) (x : ShadowMod) (s : State) : (setShadow b x s).crd = s.crd := rfl
@[simp] theorem setShadow_sgr (b : Nat) (x : ShadowMod) (s : State) : (setShadow b x s).sgr = s.sgr := rfl
@[simp] theorem setShadow_tmp (b : Nat) (x : ShadowMod) (s : State) : (setShadow b x s).tmp = s.tmp := rfl

@[simp] theorem setMux_pending (a : Nat) (x : AuxMux) (s : State) : (setMux a x s).pending = s.pending := rfl
@[simp] theorem setMux_free (a : Nat) (x : AuxMux) (s : State) : (setMux a x s).free = s.free := rfl
@[simp] theorem setMux_out (a : Nat) (x : AuxMux) (s : State) : (setMux a x s).out = s.out := rfl
@[simp] theorem setMux_slot (a : Nat) (x : AuxMux) (s : State) : (setMux a x s).slot = s.slot := rfl
@[simp] theorem setMux_porSlot (a : Nat) (x : AuxMux) (s : State) : (setMux a x s).porSlot = s.porSlot := rfl
@[simp] theorem setMux_fuses (a : Nat) (x : AuxMux) (s : State) : (setMux a x s).fuses = s.fuses := rfl
@[simp] theorem setMux_boot (a : Nat) (x : AuxMux) (s : State) : (setMux a x s).boot = s.boot := rfl
@[simp] theorem setMux_cpx (a : Nat) (x : AuxMux) (s : State) : (setMux a x s).cpx = s.cpx := rfl
@[simp] theorem setMux_whl (a : Nat) (x : AuxMux) (s : State) : (setMux a x s).whl = s.whl := rfl
@[simp] theorem setMux_flt (a : Nat) (x : AuxMux) (s : State) : (setMux a x s).flt = s.flt := rfl
@[simp] theorem setMux_hif (a : Nat) (x : AuxMux) (s : State) : (setMux a x s).hif = s.hif := rfl
@[simp] theorem setMux_coil (a : Nat) (x : AuxMux) (s : State) : (setMux a x s).coil = s.coil := rfl
@[simp] theorem setMux_nvs (a : Nat) (x : AuxMux) (s : State) : (setMux a x s).nvs = s.nvs := rfl
@[simp] theorem setMux_rtc (a : Nat) (x : AuxMux) (s : State) : (setMux a x s).rtc = s.rtc := rfl
@[simp] theorem setMux_pin (a : Nat) (x : AuxMux) (s : State) : (setMux a x s).pin = s.pin := rfl
@[simp] theorem setMux_dec (a : Nat) (x : AuxMux) (s : State) : (setMux a x s).dec = s.dec := rfl
@[simp] theorem setMux_pnt (a : Nat) (x : AuxMux) (s : State) : (setMux a x s).pnt = s.pnt := rfl
@[simp] theorem setMux_pq (a : Nat) (x : AuxMux) (s : State) : (setMux a x s).pq = s.pq := rfl
@[simp] theorem setMux_cal (a : Nat) (x : AuxMux) (s : State) : (setMux a x s).cal = s.cal := rfl
@[simp] theorem setMux_trf (a : Nat) (x : AuxMux) (s : State) : (setMux a x s).trf = s.trf := rfl
@[simp] theorem setMux_crd (a : Nat) (x : AuxMux) (s : State) : (setMux a x s).crd = s.crd := rfl
@[simp] theorem setMux_sgr (a : Nat) (x : AuxMux) (s : State) : (setMux a x s).sgr = s.sgr := rfl
@[simp] theorem setMux_tmp (a : Nat) (x : AuxMux) (s : State) : (setMux a x s).tmp = s.tmp := rfl

@[simp] theorem setWs_pending (m : Nat) (x : WStream) (s : State) : (setWs m x s).pending = s.pending := rfl
@[simp] theorem setWs_free (m : Nat) (x : WStream) (s : State) : (setWs m x s).free = s.free := rfl
@[simp] theorem setWs_out (m : Nat) (x : WStream) (s : State) : (setWs m x s).out = s.out := rfl
@[simp] theorem setWs_slot (m : Nat) (x : WStream) (s : State) : (setWs m x s).slot = s.slot := rfl
@[simp] theorem setWs_porSlot (m : Nat) (x : WStream) (s : State) : (setWs m x s).porSlot = s.porSlot := rfl
@[simp] theorem setWs_fuses (m : Nat) (x : WStream) (s : State) : (setWs m x s).fuses = s.fuses := rfl
@[simp] theorem setWs_boot (m : Nat) (x : WStream) (s : State) : (setWs m x s).boot = s.boot := rfl
@[simp] theorem setWs_cpx (m : Nat) (x : WStream) (s : State) : (setWs m x s).cpx = s.cpx := rfl
@[simp] theorem setWs_whl (m : Nat) (x : WStream) (s : State) : (setWs m x s).whl = s.whl := rfl
@[simp] theorem setWs_flt (m : Nat) (x : WStream) (s : State) : (setWs m x s).flt = s.flt := rfl
@[simp] theorem setWs_hif (m : Nat) (x : WStream) (s : State) : (setWs m x s).hif = s.hif := rfl
@[simp] theorem setWs_coil (m : Nat) (x : WStream) (s : State) : (setWs m x s).coil = s.coil := rfl
@[simp] theorem setWs_nvs (m : Nat) (x : WStream) (s : State) : (setWs m x s).nvs = s.nvs := rfl
@[simp] theorem setWs_rtc (m : Nat) (x : WStream) (s : State) : (setWs m x s).rtc = s.rtc := rfl
@[simp] theorem setWs_afe (m : Nat) (x : WStream) (s : State) : (setWs m x s).afe = s.afe := rfl
@[simp] theorem setWs_pin (m : Nat) (x : WStream) (s : State) : (setWs m x s).pin = s.pin := rfl
@[simp] theorem setWs_dec (m : Nat) (x : WStream) (s : State) : (setWs m x s).dec = s.dec := rfl
@[simp] theorem setWs_pq (m : Nat) (x : WStream) (s : State) : (setWs m x s).pq = s.pq := rfl
@[simp] theorem setWs_cal (m : Nat) (x : WStream) (s : State) : (setWs m x s).cal = s.cal := rfl
@[simp] theorem setWs_trf (m : Nat) (x : WStream) (s : State) : (setWs m x s).trf = s.trf := rfl
@[simp] theorem setWs_crd (m : Nat) (x : WStream) (s : State) : (setWs m x s).crd = s.crd := rfl
@[simp] theorem setWs_sgr (m : Nat) (x : WStream) (s : State) : (setWs m x s).sgr = s.sgr := rfl
@[simp] theorem setWs_tmp (m : Nat) (x : WStream) (s : State) : (setWs m x s).tmp = s.tmp := rfl

@[simp] theorem setPt_pending (p : Nat) (x : Pt) (s : State) : (setPt p x s).pending = s.pending := rfl
@[simp] theorem setPt_free (p : Nat) (x : Pt) (s : State) : (setPt p x s).free = s.free := rfl
@[simp] theorem setPt_out (p : Nat) (x : Pt) (s : State) : (setPt p x s).out = s.out := rfl
@[simp] theorem setPt_slot (p : Nat) (x : Pt) (s : State) : (setPt p x s).slot = s.slot := rfl
@[simp] theorem setPt_porSlot (p : Nat) (x : Pt) (s : State) : (setPt p x s).porSlot = s.porSlot := rfl
@[simp] theorem setPt_fuses (p : Nat) (x : Pt) (s : State) : (setPt p x s).fuses = s.fuses := rfl
@[simp] theorem setPt_boot (p : Nat) (x : Pt) (s : State) : (setPt p x s).boot = s.boot := rfl
@[simp] theorem setPt_cpx (p : Nat) (x : Pt) (s : State) : (setPt p x s).cpx = s.cpx := rfl
@[simp] theorem setPt_whl (p : Nat) (x : Pt) (s : State) : (setPt p x s).whl = s.whl := rfl
@[simp] theorem setPt_flt (p : Nat) (x : Pt) (s : State) : (setPt p x s).flt = s.flt := rfl
@[simp] theorem setPt_hif (p : Nat) (x : Pt) (s : State) : (setPt p x s).hif = s.hif := rfl
@[simp] theorem setPt_coil (p : Nat) (x : Pt) (s : State) : (setPt p x s).coil = s.coil := rfl
@[simp] theorem setPt_nvs (p : Nat) (x : Pt) (s : State) : (setPt p x s).nvs = s.nvs := rfl
@[simp] theorem setPt_rtc (p : Nat) (x : Pt) (s : State) : (setPt p x s).rtc = s.rtc := rfl
@[simp] theorem setPt_afe (p : Nat) (x : Pt) (s : State) : (setPt p x s).afe = s.afe := rfl
@[simp] theorem setPt_pin (p : Nat) (x : Pt) (s : State) : (setPt p x s).pin = s.pin := rfl
@[simp] theorem setPt_dec (p : Nat) (x : Pt) (s : State) : (setPt p x s).dec = s.dec := rfl
@[simp] theorem setPt_pq (p : Nat) (x : Pt) (s : State) : (setPt p x s).pq = s.pq := rfl
@[simp] theorem setPt_cal (p : Nat) (x : Pt) (s : State) : (setPt p x s).cal = s.cal := rfl
@[simp] theorem setPt_trf (p : Nat) (x : Pt) (s : State) : (setPt p x s).trf = s.trf := rfl
@[simp] theorem setPt_crd (p : Nat) (x : Pt) (s : State) : (setPt p x s).crd = s.crd := rfl
@[simp] theorem setPt_sgr (p : Nat) (x : Pt) (s : State) : (setPt p x s).sgr = s.sgr := rfl
@[simp] theorem setPt_tmp (p : Nat) (x : Pt) (s : State) : (setPt p x s).tmp = s.tmp := rfl

@[simp] theorem setCf_pending (n : Nat) (x : Cf) (s : State) : (setCf n x s).pending = s.pending := rfl
@[simp] theorem setCf_free (n : Nat) (x : Cf) (s : State) : (setCf n x s).free = s.free := rfl
@[simp] theorem setCf_out (n : Nat) (x : Cf) (s : State) : (setCf n x s).out = s.out := rfl
@[simp] theorem setCf_slot (n : Nat) (x : Cf) (s : State) : (setCf n x s).slot = s.slot := rfl
@[simp] theorem setCf_porSlot (n : Nat) (x : Cf) (s : State) : (setCf n x s).porSlot = s.porSlot := rfl
@[simp] theorem setCf_fuses (n : Nat) (x : Cf) (s : State) : (setCf n x s).fuses = s.fuses := rfl
@[simp] theorem setCf_boot (n : Nat) (x : Cf) (s : State) : (setCf n x s).boot = s.boot := rfl
@[simp] theorem setCf_cpx (n : Nat) (x : Cf) (s : State) : (setCf n x s).cpx = s.cpx := rfl
@[simp] theorem setCf_whl (n : Nat) (x : Cf) (s : State) : (setCf n x s).whl = s.whl := rfl
@[simp] theorem setCf_flt (n : Nat) (x : Cf) (s : State) : (setCf n x s).flt = s.flt := rfl
@[simp] theorem setCf_hif (n : Nat) (x : Cf) (s : State) : (setCf n x s).hif = s.hif := rfl
@[simp] theorem setCf_coil (n : Nat) (x : Cf) (s : State) : (setCf n x s).coil = s.coil := rfl
@[simp] theorem setCf_nvs (n : Nat) (x : Cf) (s : State) : (setCf n x s).nvs = s.nvs := rfl
@[simp] theorem setCf_rtc (n : Nat) (x : Cf) (s : State) : (setCf n x s).rtc = s.rtc := rfl
@[simp] theorem setCf_afe (n : Nat) (x : Cf) (s : State) : (setCf n x s).afe = s.afe := rfl
@[simp] theorem setCf_pin (n : Nat) (x : Cf) (s : State) : (setCf n x s).pin = s.pin := rfl
@[simp] theorem setCf_dec (n : Nat) (x : Cf) (s : State) : (setCf n x s).dec = s.dec := rfl
@[simp] theorem setCf_pq (n : Nat) (x : Cf) (s : State) : (setCf n x s).pq = s.pq := rfl
@[simp] theorem setCf_cal (n : Nat) (x : Cf) (s : State) : (setCf n x s).cal = s.cal := rfl
@[simp] theorem setCf_trf (n : Nat) (x : Cf) (s : State) : (setCf n x s).trf = s.trf := rfl
@[simp] theorem setCf_crd (n : Nat) (x : Cf) (s : State) : (setCf n x s).crd = s.crd := rfl
@[simp] theorem setCf_sgr (n : Nat) (x : Cf) (s : State) : (setCf n x s).sgr = s.sgr := rfl
@[simp] theorem setCf_tmp (n : Nat) (x : Cf) (s : State) : (setCf n x s).tmp = s.tmp := rfl

@[simp] theorem setCalMod_pending (m : Nat) (x : CalMod) (s : State) : (setCalMod m x s).pending = s.pending := rfl
@[simp] theorem setCalMod_free (m : Nat) (x : CalMod) (s : State) : (setCalMod m x s).free = s.free := rfl
@[simp] theorem setCalMod_out (m : Nat) (x : CalMod) (s : State) : (setCalMod m x s).out = s.out := rfl
@[simp] theorem setCalMod_slot (m : Nat) (x : CalMod) (s : State) : (setCalMod m x s).slot = s.slot := rfl
@[simp] theorem setCalMod_porSlot (m : Nat) (x : CalMod) (s : State) : (setCalMod m x s).porSlot = s.porSlot := rfl
@[simp] theorem setCalMod_fuses (m : Nat) (x : CalMod) (s : State) : (setCalMod m x s).fuses = s.fuses := rfl
@[simp] theorem setCalMod_boot (m : Nat) (x : CalMod) (s : State) : (setCalMod m x s).boot = s.boot := rfl
@[simp] theorem setCalMod_cpx (m : Nat) (x : CalMod) (s : State) : (setCalMod m x s).cpx = s.cpx := rfl
@[simp] theorem setCalMod_whl (m : Nat) (x : CalMod) (s : State) : (setCalMod m x s).whl = s.whl := rfl
@[simp] theorem setCalMod_flt (m : Nat) (x : CalMod) (s : State) : (setCalMod m x s).flt = s.flt := rfl
@[simp] theorem setCalMod_hif (m : Nat) (x : CalMod) (s : State) : (setCalMod m x s).hif = s.hif := rfl
@[simp] theorem setCalMod_coil (m : Nat) (x : CalMod) (s : State) : (setCalMod m x s).coil = s.coil := rfl
@[simp] theorem setCalMod_nvs (m : Nat) (x : CalMod) (s : State) : (setCalMod m x s).nvs = s.nvs := rfl
@[simp] theorem setCalMod_rtc (m : Nat) (x : CalMod) (s : State) : (setCalMod m x s).rtc = s.rtc := rfl
@[simp] theorem setCalMod_afe (m : Nat) (x : CalMod) (s : State) : (setCalMod m x s).afe = s.afe := rfl
@[simp] theorem setCalMod_pin (m : Nat) (x : CalMod) (s : State) : (setCalMod m x s).pin = s.pin := rfl
@[simp] theorem setCalMod_dec (m : Nat) (x : CalMod) (s : State) : (setCalMod m x s).dec = s.dec := rfl
@[simp] theorem setCalMod_pnt (m : Nat) (x : CalMod) (s : State) : (setCalMod m x s).pnt = s.pnt := rfl
@[simp] theorem setCalMod_pq (m : Nat) (x : CalMod) (s : State) : (setCalMod m x s).pq = s.pq := rfl
@[simp] theorem setCalMod_trf (m : Nat) (x : CalMod) (s : State) : (setCalMod m x s).trf = s.trf := rfl
@[simp] theorem setCalMod_crd (m : Nat) (x : CalMod) (s : State) : (setCalMod m x s).crd = s.crd := rfl
@[simp] theorem setCalMod_sgr (m : Nat) (x : CalMod) (s : State) : (setCalMod m x s).sgr = s.sgr := rfl
@[simp] theorem setCalMod_tmp (m : Nat) (x : CalMod) (s : State) : (setCalMod m x s).tmp = s.tmp := rfl

@[simp] theorem setGrp_pending (g : Nat) (x : CalGrp) (s : State) : (setGrp g x s).pending = s.pending := rfl
@[simp] theorem setGrp_free (g : Nat) (x : CalGrp) (s : State) : (setGrp g x s).free = s.free := rfl
@[simp] theorem setGrp_out (g : Nat) (x : CalGrp) (s : State) : (setGrp g x s).out = s.out := rfl
@[simp] theorem setGrp_slot (g : Nat) (x : CalGrp) (s : State) : (setGrp g x s).slot = s.slot := rfl
@[simp] theorem setGrp_porSlot (g : Nat) (x : CalGrp) (s : State) : (setGrp g x s).porSlot = s.porSlot := rfl
@[simp] theorem setGrp_fuses (g : Nat) (x : CalGrp) (s : State) : (setGrp g x s).fuses = s.fuses := rfl
@[simp] theorem setGrp_boot (g : Nat) (x : CalGrp) (s : State) : (setGrp g x s).boot = s.boot := rfl
@[simp] theorem setGrp_cpx (g : Nat) (x : CalGrp) (s : State) : (setGrp g x s).cpx = s.cpx := rfl
@[simp] theorem setGrp_whl (g : Nat) (x : CalGrp) (s : State) : (setGrp g x s).whl = s.whl := rfl
@[simp] theorem setGrp_flt (g : Nat) (x : CalGrp) (s : State) : (setGrp g x s).flt = s.flt := rfl
@[simp] theorem setGrp_hif (g : Nat) (x : CalGrp) (s : State) : (setGrp g x s).hif = s.hif := rfl
@[simp] theorem setGrp_coil (g : Nat) (x : CalGrp) (s : State) : (setGrp g x s).coil = s.coil := rfl
@[simp] theorem setGrp_nvs (g : Nat) (x : CalGrp) (s : State) : (setGrp g x s).nvs = s.nvs := rfl
@[simp] theorem setGrp_rtc (g : Nat) (x : CalGrp) (s : State) : (setGrp g x s).rtc = s.rtc := rfl
@[simp] theorem setGrp_afe (g : Nat) (x : CalGrp) (s : State) : (setGrp g x s).afe = s.afe := rfl
@[simp] theorem setGrp_pin (g : Nat) (x : CalGrp) (s : State) : (setGrp g x s).pin = s.pin := rfl
@[simp] theorem setGrp_dec (g : Nat) (x : CalGrp) (s : State) : (setGrp g x s).dec = s.dec := rfl
@[simp] theorem setGrp_pnt (g : Nat) (x : CalGrp) (s : State) : (setGrp g x s).pnt = s.pnt := rfl
@[simp] theorem setGrp_pq (g : Nat) (x : CalGrp) (s : State) : (setGrp g x s).pq = s.pq := rfl
@[simp] theorem setGrp_trf (g : Nat) (x : CalGrp) (s : State) : (setGrp g x s).trf = s.trf := rfl
@[simp] theorem setGrp_crd (g : Nat) (x : CalGrp) (s : State) : (setGrp g x s).crd = s.crd := rfl
@[simp] theorem setGrp_sgr (g : Nat) (x : CalGrp) (s : State) : (setGrp g x s).sgr = s.sgr := rfl
@[simp] theorem setGrp_tmp (g : Nat) (x : CalGrp) (s : State) : (setGrp g x s).tmp = s.tmp := rfl

@[simp] theorem setInt_pending (p : Nat) (x : IntSt) (s : State) : (setInt p x s).pending = s.pending := rfl
@[simp] theorem setInt_free (p : Nat) (x : IntSt) (s : State) : (setInt p x s).free = s.free := rfl
@[simp] theorem setInt_out (p : Nat) (x : IntSt) (s : State) : (setInt p x s).out = s.out := rfl
@[simp] theorem setInt_slot (p : Nat) (x : IntSt) (s : State) : (setInt p x s).slot = s.slot := rfl
@[simp] theorem setInt_porSlot (p : Nat) (x : IntSt) (s : State) : (setInt p x s).porSlot = s.porSlot := rfl
@[simp] theorem setInt_fuses (p : Nat) (x : IntSt) (s : State) : (setInt p x s).fuses = s.fuses := rfl
@[simp] theorem setInt_boot (p : Nat) (x : IntSt) (s : State) : (setInt p x s).boot = s.boot := rfl
@[simp] theorem setInt_cpx (p : Nat) (x : IntSt) (s : State) : (setInt p x s).cpx = s.cpx := rfl
@[simp] theorem setInt_whl (p : Nat) (x : IntSt) (s : State) : (setInt p x s).whl = s.whl := rfl
@[simp] theorem setInt_flt (p : Nat) (x : IntSt) (s : State) : (setInt p x s).flt = s.flt := rfl
@[simp] theorem setInt_hif (p : Nat) (x : IntSt) (s : State) : (setInt p x s).hif = s.hif := rfl
@[simp] theorem setInt_coil (p : Nat) (x : IntSt) (s : State) : (setInt p x s).coil = s.coil := rfl
@[simp] theorem setInt_nvs (p : Nat) (x : IntSt) (s : State) : (setInt p x s).nvs = s.nvs := rfl
@[simp] theorem setInt_rtc (p : Nat) (x : IntSt) (s : State) : (setInt p x s).rtc = s.rtc := rfl
@[simp] theorem setInt_afe (p : Nat) (x : IntSt) (s : State) : (setInt p x s).afe = s.afe := rfl
@[simp] theorem setInt_pin (p : Nat) (x : IntSt) (s : State) : (setInt p x s).pin = s.pin := rfl
@[simp] theorem setInt_dec (p : Nat) (x : IntSt) (s : State) : (setInt p x s).dec = s.dec := rfl
@[simp] theorem setInt_pnt (p : Nat) (x : IntSt) (s : State) : (setInt p x s).pnt = s.pnt := rfl
@[simp] theorem setInt_pq (p : Nat) (x : IntSt) (s : State) : (setInt p x s).pq = s.pq := rfl
@[simp] theorem setInt_cal (p : Nat) (x : IntSt) (s : State) : (setInt p x s).cal = s.cal := rfl
@[simp] theorem setInt_crd (p : Nat) (x : IntSt) (s : State) : (setInt p x s).crd = s.crd := rfl
@[simp] theorem setInt_sgr (p : Nat) (x : IntSt) (s : State) : (setInt p x s).sgr = s.sgr := rfl
@[simp] theorem setInt_tmp (p : Nat) (x : IntSt) (s : State) : (setInt p x s).tmp = s.tmp := rfl

@[simp] theorem setCtl_pending (n : Nat) (x : Ctl) (s : State) : (setCtl n x s).pending = s.pending := rfl
@[simp] theorem setCtl_free (n : Nat) (x : Ctl) (s : State) : (setCtl n x s).free = s.free := rfl
@[simp] theorem setCtl_out (n : Nat) (x : Ctl) (s : State) : (setCtl n x s).out = s.out := rfl
@[simp] theorem setCtl_slot (n : Nat) (x : Ctl) (s : State) : (setCtl n x s).slot = s.slot := rfl
@[simp] theorem setCtl_porSlot (n : Nat) (x : Ctl) (s : State) : (setCtl n x s).porSlot = s.porSlot := rfl
@[simp] theorem setCtl_fuses (n : Nat) (x : Ctl) (s : State) : (setCtl n x s).fuses = s.fuses := rfl
@[simp] theorem setCtl_boot (n : Nat) (x : Ctl) (s : State) : (setCtl n x s).boot = s.boot := rfl
@[simp] theorem setCtl_cpx (n : Nat) (x : Ctl) (s : State) : (setCtl n x s).cpx = s.cpx := rfl
@[simp] theorem setCtl_whl (n : Nat) (x : Ctl) (s : State) : (setCtl n x s).whl = s.whl := rfl
@[simp] theorem setCtl_flt (n : Nat) (x : Ctl) (s : State) : (setCtl n x s).flt = s.flt := rfl
@[simp] theorem setCtl_hif (n : Nat) (x : Ctl) (s : State) : (setCtl n x s).hif = s.hif := rfl
@[simp] theorem setCtl_coil (n : Nat) (x : Ctl) (s : State) : (setCtl n x s).coil = s.coil := rfl
@[simp] theorem setCtl_nvs (n : Nat) (x : Ctl) (s : State) : (setCtl n x s).nvs = s.nvs := rfl
@[simp] theorem setCtl_rtc (n : Nat) (x : Ctl) (s : State) : (setCtl n x s).rtc = s.rtc := rfl
@[simp] theorem setCtl_afe (n : Nat) (x : Ctl) (s : State) : (setCtl n x s).afe = s.afe := rfl
@[simp] theorem setCtl_pin (n : Nat) (x : Ctl) (s : State) : (setCtl n x s).pin = s.pin := rfl
@[simp] theorem setCtl_dec (n : Nat) (x : Ctl) (s : State) : (setCtl n x s).dec = s.dec := rfl
@[simp] theorem setCtl_pnt (n : Nat) (x : Ctl) (s : State) : (setCtl n x s).pnt = s.pnt := rfl
@[simp] theorem setCtl_pq (n : Nat) (x : Ctl) (s : State) : (setCtl n x s).pq = s.pq := rfl
@[simp] theorem setCtl_cal (n : Nat) (x : Ctl) (s : State) : (setCtl n x s).cal = s.cal := rfl
@[simp] theorem setCtl_trf (n : Nat) (x : Ctl) (s : State) : (setCtl n x s).trf = s.trf := rfl
@[simp] theorem setCtl_sgr (n : Nat) (x : Ctl) (s : State) : (setCtl n x s).sgr = s.sgr := rfl
@[simp] theorem setCtl_tmp (n : Nat) (x : Ctl) (s : State) : (setCtl n x s).tmp = s.tmp := rfl

@[simp] theorem setCred_pending (p : Nat) (x : CredSt) (s : State) : (setCred p x s).pending = s.pending := rfl
@[simp] theorem setCred_free (p : Nat) (x : CredSt) (s : State) : (setCred p x s).free = s.free := rfl
@[simp] theorem setCred_out (p : Nat) (x : CredSt) (s : State) : (setCred p x s).out = s.out := rfl
@[simp] theorem setCred_slot (p : Nat) (x : CredSt) (s : State) : (setCred p x s).slot = s.slot := rfl
@[simp] theorem setCred_porSlot (p : Nat) (x : CredSt) (s : State) : (setCred p x s).porSlot = s.porSlot := rfl
@[simp] theorem setCred_fuses (p : Nat) (x : CredSt) (s : State) : (setCred p x s).fuses = s.fuses := rfl
@[simp] theorem setCred_boot (p : Nat) (x : CredSt) (s : State) : (setCred p x s).boot = s.boot := rfl
@[simp] theorem setCred_cpx (p : Nat) (x : CredSt) (s : State) : (setCred p x s).cpx = s.cpx := rfl
@[simp] theorem setCred_whl (p : Nat) (x : CredSt) (s : State) : (setCred p x s).whl = s.whl := rfl
@[simp] theorem setCred_flt (p : Nat) (x : CredSt) (s : State) : (setCred p x s).flt = s.flt := rfl
@[simp] theorem setCred_hif (p : Nat) (x : CredSt) (s : State) : (setCred p x s).hif = s.hif := rfl
@[simp] theorem setCred_coil (p : Nat) (x : CredSt) (s : State) : (setCred p x s).coil = s.coil := rfl
@[simp] theorem setCred_nvs (p : Nat) (x : CredSt) (s : State) : (setCred p x s).nvs = s.nvs := rfl
@[simp] theorem setCred_rtc (p : Nat) (x : CredSt) (s : State) : (setCred p x s).rtc = s.rtc := rfl
@[simp] theorem setCred_afe (p : Nat) (x : CredSt) (s : State) : (setCred p x s).afe = s.afe := rfl
@[simp] theorem setCred_pin (p : Nat) (x : CredSt) (s : State) : (setCred p x s).pin = s.pin := rfl
@[simp] theorem setCred_dec (p : Nat) (x : CredSt) (s : State) : (setCred p x s).dec = s.dec := rfl
@[simp] theorem setCred_pnt (p : Nat) (x : CredSt) (s : State) : (setCred p x s).pnt = s.pnt := rfl
@[simp] theorem setCred_pq (p : Nat) (x : CredSt) (s : State) : (setCred p x s).pq = s.pq := rfl
@[simp] theorem setCred_cal (p : Nat) (x : CredSt) (s : State) : (setCred p x s).cal = s.cal := rfl
@[simp] theorem setCred_trf (p : Nat) (x : CredSt) (s : State) : (setCred p x s).trf = s.trf := rfl
@[simp] theorem setCred_sgr (p : Nat) (x : CredSt) (s : State) : (setCred p x s).sgr = s.sgr := rfl
@[simp] theorem setCred_tmp (p : Nat) (x : CredSt) (s : State) : (setCred p x s).tmp = s.tmp := rfl

@[simp] theorem setCRing_pending (k : Nat) (x : CRing) (s : State) : (setCRing k x s).pending = s.pending := rfl
@[simp] theorem setCRing_free (k : Nat) (x : CRing) (s : State) : (setCRing k x s).free = s.free := rfl
@[simp] theorem setCRing_out (k : Nat) (x : CRing) (s : State) : (setCRing k x s).out = s.out := rfl
@[simp] theorem setCRing_slot (k : Nat) (x : CRing) (s : State) : (setCRing k x s).slot = s.slot := rfl
@[simp] theorem setCRing_porSlot (k : Nat) (x : CRing) (s : State) : (setCRing k x s).porSlot = s.porSlot := rfl
@[simp] theorem setCRing_fuses (k : Nat) (x : CRing) (s : State) : (setCRing k x s).fuses = s.fuses := rfl
@[simp] theorem setCRing_boot (k : Nat) (x : CRing) (s : State) : (setCRing k x s).boot = s.boot := rfl
@[simp] theorem setCRing_cpx (k : Nat) (x : CRing) (s : State) : (setCRing k x s).cpx = s.cpx := rfl
@[simp] theorem setCRing_whl (k : Nat) (x : CRing) (s : State) : (setCRing k x s).whl = s.whl := rfl
@[simp] theorem setCRing_flt (k : Nat) (x : CRing) (s : State) : (setCRing k x s).flt = s.flt := rfl
@[simp] theorem setCRing_hif (k : Nat) (x : CRing) (s : State) : (setCRing k x s).hif = s.hif := rfl
@[simp] theorem setCRing_nvs (k : Nat) (x : CRing) (s : State) : (setCRing k x s).nvs = s.nvs := rfl
@[simp] theorem setCRing_rtc (k : Nat) (x : CRing) (s : State) : (setCRing k x s).rtc = s.rtc := rfl
@[simp] theorem setCRing_afe (k : Nat) (x : CRing) (s : State) : (setCRing k x s).afe = s.afe := rfl
@[simp] theorem setCRing_pin (k : Nat) (x : CRing) (s : State) : (setCRing k x s).pin = s.pin := rfl
@[simp] theorem setCRing_dec (k : Nat) (x : CRing) (s : State) : (setCRing k x s).dec = s.dec := rfl
@[simp] theorem setCRing_pnt (k : Nat) (x : CRing) (s : State) : (setCRing k x s).pnt = s.pnt := rfl
@[simp] theorem setCRing_pq (k : Nat) (x : CRing) (s : State) : (setCRing k x s).pq = s.pq := rfl
@[simp] theorem setCRing_cal (k : Nat) (x : CRing) (s : State) : (setCRing k x s).cal = s.cal := rfl
@[simp] theorem setCRing_trf (k : Nat) (x : CRing) (s : State) : (setCRing k x s).trf = s.trf := rfl
@[simp] theorem setCRing_crd (k : Nat) (x : CRing) (s : State) : (setCRing k x s).crd = s.crd := rfl
@[simp] theorem setCRing_sgr (k : Nat) (x : CRing) (s : State) : (setCRing k x s).sgr = s.sgr := rfl
@[simp] theorem setCRing_tmp (k : Nat) (x : CRing) (s : State) : (setCRing k x s).tmp = s.tmp := rfl

@[simp] theorem setPort_pending (p : Nat) (x : Port) (s : State) : (setPort p x s).pending = s.pending := rfl
@[simp] theorem setPort_free (p : Nat) (x : Port) (s : State) : (setPort p x s).free = s.free := rfl
@[simp] theorem setPort_out (p : Nat) (x : Port) (s : State) : (setPort p x s).out = s.out := rfl
@[simp] theorem setPort_slot (p : Nat) (x : Port) (s : State) : (setPort p x s).slot = s.slot := rfl
@[simp] theorem setPort_porSlot (p : Nat) (x : Port) (s : State) : (setPort p x s).porSlot = s.porSlot := rfl
@[simp] theorem setPort_fuses (p : Nat) (x : Port) (s : State) : (setPort p x s).fuses = s.fuses := rfl
@[simp] theorem setPort_boot (p : Nat) (x : Port) (s : State) : (setPort p x s).boot = s.boot := rfl
@[simp] theorem setPort_cpx (p : Nat) (x : Port) (s : State) : (setPort p x s).cpx = s.cpx := rfl
@[simp] theorem setPort_whl (p : Nat) (x : Port) (s : State) : (setPort p x s).whl = s.whl := rfl
@[simp] theorem setPort_flt (p : Nat) (x : Port) (s : State) : (setPort p x s).flt = s.flt := rfl
@[simp] theorem setPort_hif (p : Nat) (x : Port) (s : State) : (setPort p x s).hif = s.hif := rfl
@[simp] theorem setPort_nvs (p : Nat) (x : Port) (s : State) : (setPort p x s).nvs = s.nvs := rfl
@[simp] theorem setPort_rtc (p : Nat) (x : Port) (s : State) : (setPort p x s).rtc = s.rtc := rfl
@[simp] theorem setPort_afe (p : Nat) (x : Port) (s : State) : (setPort p x s).afe = s.afe := rfl
@[simp] theorem setPort_pin (p : Nat) (x : Port) (s : State) : (setPort p x s).pin = s.pin := rfl
@[simp] theorem setPort_dec (p : Nat) (x : Port) (s : State) : (setPort p x s).dec = s.dec := rfl
@[simp] theorem setPort_pnt (p : Nat) (x : Port) (s : State) : (setPort p x s).pnt = s.pnt := rfl
@[simp] theorem setPort_pq (p : Nat) (x : Port) (s : State) : (setPort p x s).pq = s.pq := rfl
@[simp] theorem setPort_cal (p : Nat) (x : Port) (s : State) : (setPort p x s).cal = s.cal := rfl
@[simp] theorem setPort_trf (p : Nat) (x : Port) (s : State) : (setPort p x s).trf = s.trf := rfl
@[simp] theorem setPort_crd (p : Nat) (x : Port) (s : State) : (setPort p x s).crd = s.crd := rfl
@[simp] theorem setPort_sgr (p : Nat) (x : Port) (s : State) : (setPort p x s).sgr = s.sgr := rfl
@[simp] theorem setPort_tmp (p : Nat) (x : Port) (s : State) : (setPort p x s).tmp = s.tmp := rfl

@[simp] theorem setEnt_pending (k p : Nat) (x : WEnt) (s : State) : (setEnt k p x s).pending = s.pending := rfl
@[simp] theorem setEnt_free (k p : Nat) (x : WEnt) (s : State) : (setEnt k p x s).free = s.free := rfl
@[simp] theorem setEnt_out (k p : Nat) (x : WEnt) (s : State) : (setEnt k p x s).out = s.out := rfl
@[simp] theorem setEnt_slot (k p : Nat) (x : WEnt) (s : State) : (setEnt k p x s).slot = s.slot := rfl
@[simp] theorem setEnt_porSlot (k p : Nat) (x : WEnt) (s : State) : (setEnt k p x s).porSlot = s.porSlot := rfl
@[simp] theorem setEnt_fuses (k p : Nat) (x : WEnt) (s : State) : (setEnt k p x s).fuses = s.fuses := rfl
@[simp] theorem setEnt_boot (k p : Nat) (x : WEnt) (s : State) : (setEnt k p x s).boot = s.boot := rfl
@[simp] theorem setEnt_cpx (k p : Nat) (x : WEnt) (s : State) : (setEnt k p x s).cpx = s.cpx := rfl
@[simp] theorem setEnt_whl (k p : Nat) (x : WEnt) (s : State) : (setEnt k p x s).whl = s.whl := rfl
@[simp] theorem setEnt_flt (k p : Nat) (x : WEnt) (s : State) : (setEnt k p x s).flt = s.flt := rfl
@[simp] theorem setEnt_hif (k p : Nat) (x : WEnt) (s : State) : (setEnt k p x s).hif = s.hif := rfl
@[simp] theorem setEnt_nvs (k p : Nat) (x : WEnt) (s : State) : (setEnt k p x s).nvs = s.nvs := rfl
@[simp] theorem setEnt_rtc (k p : Nat) (x : WEnt) (s : State) : (setEnt k p x s).rtc = s.rtc := rfl
@[simp] theorem setEnt_afe (k p : Nat) (x : WEnt) (s : State) : (setEnt k p x s).afe = s.afe := rfl
@[simp] theorem setEnt_pin (k p : Nat) (x : WEnt) (s : State) : (setEnt k p x s).pin = s.pin := rfl
@[simp] theorem setEnt_dec (k p : Nat) (x : WEnt) (s : State) : (setEnt k p x s).dec = s.dec := rfl
@[simp] theorem setEnt_pnt (k p : Nat) (x : WEnt) (s : State) : (setEnt k p x s).pnt = s.pnt := rfl
@[simp] theorem setEnt_pq (k p : Nat) (x : WEnt) (s : State) : (setEnt k p x s).pq = s.pq := rfl
@[simp] theorem setEnt_cal (k p : Nat) (x : WEnt) (s : State) : (setEnt k p x s).cal = s.cal := rfl
@[simp] theorem setEnt_trf (k p : Nat) (x : WEnt) (s : State) : (setEnt k p x s).trf = s.trf := rfl
@[simp] theorem setEnt_crd (k p : Nat) (x : WEnt) (s : State) : (setEnt k p x s).crd = s.crd := rfl
@[simp] theorem setEnt_sgr (k p : Nat) (x : WEnt) (s : State) : (setEnt k p x s).sgr = s.sgr := rfl
@[simp] theorem setEnt_tmp (k p : Nat) (x : WEnt) (s : State) : (setEnt k p x s).tmp = s.tmp := rfl

@[simp] theorem setSlot_pending (i : Nat) (k : KSlot) (s : State) : (setSlot i k s).pending = s.pending := rfl
@[simp] theorem setSlot_free (i : Nat) (k : KSlot) (s : State) : (setSlot i k s).free = s.free := rfl
@[simp] theorem setSlot_out (i : Nat) (k : KSlot) (s : State) : (setSlot i k s).out = s.out := rfl
@[simp] theorem setSlot_slot (i : Nat) (k : KSlot) (s : State) : (setSlot i k s).slot = s.slot := rfl
@[simp] theorem setSlot_porSlot (i : Nat) (k : KSlot) (s : State) : (setSlot i k s).porSlot = s.porSlot := rfl
@[simp] theorem setSlot_fuses (i : Nat) (k : KSlot) (s : State) : (setSlot i k s).fuses = s.fuses := rfl
@[simp] theorem setSlot_boot (i : Nat) (k : KSlot) (s : State) : (setSlot i k s).boot = s.boot := rfl
@[simp] theorem setSlot_cpx (i : Nat) (k : KSlot) (s : State) : (setSlot i k s).cpx = s.cpx := rfl
@[simp] theorem setSlot_whl (i : Nat) (k : KSlot) (s : State) : (setSlot i k s).whl = s.whl := rfl
@[simp] theorem setSlot_flt (i : Nat) (k : KSlot) (s : State) : (setSlot i k s).flt = s.flt := rfl
@[simp] theorem setSlot_hif (i : Nat) (k : KSlot) (s : State) : (setSlot i k s).hif = s.hif := rfl
@[simp] theorem setSlot_coil (i : Nat) (k : KSlot) (s : State) : (setSlot i k s).coil = s.coil := rfl
@[simp] theorem setSlot_nvs (i : Nat) (k : KSlot) (s : State) : (setSlot i k s).nvs = s.nvs := rfl
@[simp] theorem setSlot_rtc (i : Nat) (k : KSlot) (s : State) : (setSlot i k s).rtc = s.rtc := rfl
@[simp] theorem setSlot_afe (i : Nat) (k : KSlot) (s : State) : (setSlot i k s).afe = s.afe := rfl
@[simp] theorem setSlot_pin (i : Nat) (k : KSlot) (s : State) : (setSlot i k s).pin = s.pin := rfl
@[simp] theorem setSlot_dec (i : Nat) (k : KSlot) (s : State) : (setSlot i k s).dec = s.dec := rfl
@[simp] theorem setSlot_pnt (i : Nat) (k : KSlot) (s : State) : (setSlot i k s).pnt = s.pnt := rfl
@[simp] theorem setSlot_pq (i : Nat) (k : KSlot) (s : State) : (setSlot i k s).pq = s.pq := rfl
@[simp] theorem setSlot_cal (i : Nat) (k : KSlot) (s : State) : (setSlot i k s).cal = s.cal := rfl
@[simp] theorem setSlot_trf (i : Nat) (k : KSlot) (s : State) : (setSlot i k s).trf = s.trf := rfl
@[simp] theorem setSlot_crd (i : Nat) (k : KSlot) (s : State) : (setSlot i k s).crd = s.crd := rfl
@[simp] theorem setSlot_tmp (i : Nat) (k : KSlot) (s : State) : (setSlot i k s).tmp = s.tmp := rfl

@[simp] theorem getRing_setRing (r : Nat) (x : Ring) (s : State) : getRing (setRing r x s) r = x := by
  simp [getRing, setRing]
theorem getRing_setRing_ne (r : Nat) (x : Ring) (j : Nat) (s : State) (h : r ≠ j) : getRing (setRing r x s) j = getRing s j := by
  simp [getRing, setRing, tgetD_tput, h]
@[simp] theorem getBlk_setBlk (b : Nat) (x : BlkFlt) (s : State) : getBlk (setBlk b x s) b = x := by
  simp [getBlk, setBlk]
theorem getBlk_setBlk_ne (b : Nat) (x : BlkFlt) (j : Nat) (s : State) (h : b ≠ j) : getBlk (setBlk b x s) j = getBlk s j := by
  simp [getBlk, setBlk, tgetD_tput, h]
@[simp] theorem getStrm_setStrm (m : Nat) (x : Strm) (s : State) : getStrm (setStrm m x s) m = x := by
  simp [getStrm, setStrm]
theorem getStrm_setStrm_ne (m : Nat) (x : Strm) (j : Nat) (s : State) (h : m ≠ j) : getStrm (setStrm m x s) j = getStrm s j := by
  simp [getStrm, setStrm, tgetD_tput, h]
@[simp] theorem getPair_setPair (i : Nat) (x : Pair) (s : State) : getPair (setPair i x s) i = x := by
  simp [getPair, setPair]
theorem getPair_setPair_ne (i : Nat) (x : Pair) (j : Nat) (s : State) (h : i ≠ j) : getPair (setPair i x s) j = getPair s j := by
  simp [getPair, setPair, tgetD_tput, h]
@[simp] theorem getShadow_setShadow (b : Nat) (x : ShadowMod) (s : State) : getShadow (setShadow b x s) b = x := by
  simp [getShadow, setShadow]
theorem getShadow_setShadow_ne (b : Nat) (x : ShadowMod) (j : Nat) (s : State) (h : b ≠ j) : getShadow (setShadow b x s) j = getShadow s j := by
  simp [getShadow, setShadow, tgetD_tput, h]
@[simp] theorem getWs_setWs (m : Nat) (x : WStream) (s : State) : getWs (setWs m x s) m = x := by
  simp [getWs, setWs]
theorem getWs_setWs_ne (m : Nat) (x : WStream) (j : Nat) (s : State) (h : m ≠ j) : getWs (setWs m x s) j = getWs s j := by
  simp [getWs, setWs, tgetD_tput, h]
@[simp] theorem getPt_setPt (p : Nat) (x : Pt) (s : State) : getPt (setPt p x s) p = x := by
  simp [getPt, setPt]
theorem getPt_setPt_ne (p : Nat) (x : Pt) (j : Nat) (s : State) (h : p ≠ j) : getPt (setPt p x s) j = getPt s j := by
  simp [getPt, setPt, tgetD_tput, h]
@[simp] theorem getCf_setCf (n : Nat) (x : Cf) (s : State) : getCf (setCf n x s) n = x := by
  simp [getCf, setCf]
theorem getCf_setCf_ne (n : Nat) (x : Cf) (j : Nat) (s : State) (h : n ≠ j) : getCf (setCf n x s) j = getCf s j := by
  simp [getCf, setCf, tgetD_tput, h]
@[simp] theorem getCalMod_setCalMod (m : Nat) (x : CalMod) (s : State) : getCalMod (setCalMod m x s) m = x := by
  simp [getCalMod, setCalMod]
theorem getCalMod_setCalMod_ne (m : Nat) (x : CalMod) (j : Nat) (s : State) (h : m ≠ j) : getCalMod (setCalMod m x s) j = getCalMod s j := by
  simp [getCalMod, setCalMod, tgetD_tput, h]
@[simp] theorem getGrp_setGrp (g : Nat) (x : CalGrp) (s : State) : getGrp (setGrp g x s) g = x := by
  simp [getGrp, setGrp]
theorem getGrp_setGrp_ne (g : Nat) (x : CalGrp) (j : Nat) (s : State) (h : g ≠ j) : getGrp (setGrp g x s) j = getGrp s j := by
  simp [getGrp, setGrp, tgetD_tput, h]
@[simp] theorem getCtl_setCtl (n : Nat) (x : Ctl) (s : State) : getCtl (setCtl n x s) n = x := by
  simp [getCtl, setCtl]
theorem getCtl_setCtl_ne (n : Nat) (x : Ctl) (j : Nat) (s : State) (h : n ≠ j) : getCtl (setCtl n x s) j = getCtl s j := by
  simp [getCtl, setCtl, tgetD_tput, h]
@[simp] theorem getCred_setCred (p : Nat) (x : CredSt) (s : State) : getCred (setCred p x s) p = x := by
  simp [getCred, setCred]
theorem getCred_setCred_ne (p : Nat) (x : CredSt) (j : Nat) (s : State) (h : p ≠ j) : getCred (setCred p x s) j = getCred s j := by
  simp [getCred, setCred, tgetD_tput, h]
@[simp] theorem getCRing_setCRing (k : Nat) (x : CRing) (s : State) : getCRing (setCRing k x s) k = x := by
  simp [getCRing, setCRing]
theorem getCRing_setCRing_ne (k : Nat) (x : CRing) (j : Nat) (s : State) (h : k ≠ j) : getCRing (setCRing k x s) j = getCRing s j := by
  simp [getCRing, setCRing, tgetD_tput, h]
@[simp] theorem getPort_setPort (p : Nat) (x : Port) (s : State) : getPort (setPort p x s) p = x := by
  simp [getPort, setPort]
theorem getPort_setPort_ne (p : Nat) (x : Port) (j : Nat) (s : State) (h : p ≠ j) : getPort (setPort p x s) j = getPort s j := by
  simp [getPort, setPort, tgetD_tput, h]
@[simp] theorem usedSince_setSlot (i : Nat) (x : KSlot) (s : State) (j : Nat) :
    usedSince (setSlot i x s) j = usedSince s j := rfl
@[simp] theorem getSlot_setSlot (i : Nat) (x : KSlot) (s : State) :
    getSlot (setSlot i x s) i = if usedSince s i then x.taken else x := by
  unfold getSlot
  rw [usedSince_setSlot]
  simp [setSlot]
theorem getSlot_setSlot_ne (i : Nat) (x : KSlot) (j : Nat) (s : State) (h : i ≠ j) : getSlot (setSlot i x s) j = getSlot s j := by
  unfold getSlot
  rw [usedSince_setSlot]
  simp [setSlot, tgetD_tput, h]

end Sys2Proof.Laws
end

