-- ==== Sys2Proof/Laws/Store.lean ====
section
/-!
SUPPORT. The writes of the Kiln store keep its canonical form: keys strictly rising in every table.
-/
namespace Sys2Proof.Laws
open Sys2Proof Sys2Proof.Machine

/-- A run of writes keeps the keys strictly rising. -/
theorem tsorted_foldl_tput {α β : Type} (l : List β) (k : β → Nat) (v : β → α) (t : Tab α) (h : tsorted t = true) :
    tsorted (l.foldl (fun t x => tput t (k x) (v x)) t) = true := by
  induction l generalizing t with
  | nil => exact h
  | cons x l ih => exact ih _ (tsorted_tput _ _ _ h)

/-- The keys of a table in its canonical form rise strictly, pairwise. -/
theorem tsorted_iff {α : Type} (t : Tab α) : tsorted t = true ↔ t.Pairwise (fun a b => a.1 < b.1) := by
  induction t with
  | nil => simp [tsorted]
  | cons p t ih =>
    rw [tsorted_cons, ih, List.pairwise_cons]
    constructor
    · rintro ⟨hh, hp⟩
      refine ⟨?_, hp⟩
      cases t with
      | nil => simp
      | cons q t =>
        intro r hr
        have h1 := hh q (by simp)
        rcases List.mem_cons.1 hr with rfl | hr
        · exact h1
        · exact Nat.lt_trans h1 ((List.pairwise_cons.1 hp).1 r hr)
    · rintro ⟨hh, hp⟩
      refine ⟨?_, hp⟩
      intro q hq
      exact hh q (List.mem_of_mem_head? hq)

/-- Leaving entries out keeps the keys strictly rising. -/
theorem tsorted_filter {α : Type} (t : Tab α) (f : Nat × α → Bool) (h : tsorted t = true) : tsorted (t.filter f) = true :=
  (tsorted_iff _).2 (((tsorted_iff _).1 h).filter f)

theorem tsorted_tdel {α : Type} (t : Tab α) (i : Nat) (h : tsorted t = true) : tsorted (tdel t i) = true := tsorted_filter _ _ h

/-- The store of a state after an operation that touches no table of it. -/
theorem storeWf_of_eq {s t : State} (h : storeWf s) (hr : t.nvs.recs = s.nvs.recs) (hi : t.nvs.images = s.nvs.images)
    (hd : t.nvs.dirty = s.nvs.dirty) (hp : t.nvs.spread = s.nvs.spread) : storeWf t := by
  obtain ⟨h1, h2, h3, h4⟩ := h
  exact ⟨by rw [hr]; exact h1, by rw [hi]; exact h2, by rw [hd]; exact h3, by rw [hp]; exact h4⟩

/-- The home writes of a group keep the form. -/
theorem storeWf_applyGroup (g : Group) (s : State) (h : storeWf s) : storeWf { s with nvs := applyGroup g s.nvs } := by
  obtain ⟨h1, h2, h3, h4⟩ := h
  unfold applyGroup
  split
  · exact ⟨tsorted_tput _ _ _ h1, h2, h3, h4⟩
  · exact ⟨tsorted_foldl_tput _ (fun x : Nat × Nat × NvVal × W32 => 2 * x.1 + x.2.1) (fun x => (⟨x.2.2.1, x.2.2.2, false⟩ : NvSlot)) _ h1, h2, h3, h4⟩
  · exact ⟨h1, h2, tsorted_tput _ _ _ h3, h4⟩
  · exact ⟨h1, h2, tsorted_tput _ _ _ (tsorted_tput _ _ _ h3), h4⟩
  · exact ⟨h1, tsorted_foldl_tput _ (fun e : Nat × List Byte => imgKey _ _ e.1) (fun e => e.2) _ h2, h3, h4⟩

/-- A copy of a record written keeps the form. -/
theorem storeWf_recs (s : State) (i : Nat) (x : NvSlot) (h : storeWf s) : storeWf { s with nvs.recs := tput s.nvs.recs i x } :=
  ⟨tsorted_tput _ _ _ h.1, h.2⟩

/-- A spread counter written keeps the form. -/
theorem storeWf_spread (s : State) (i : Nat) (x : List (Option W48)) (h : storeWf s) :
    storeWf { s with nvs.spread := tput s.nvs.spread i x } :=
  ⟨h.1, h.2.1, h.2.2.1, tsorted_tput _ _ _ h.2.2.2⟩

/-- The repair of an image copy keeps the form (R524). -/
theorem storeWf_repairImage (s : State) (x : Nat) (h : storeWf s) : storeWf (repairImage s x) := by
  unfold repairImage
  split
  · exact ⟨h.1, tsorted_foldl_tput _ (fun e : Nat × List Byte => e.1) (fun e => e.2) _ (tsorted_filter _ _ h.2.1),
      tsorted_tput _ _ _ h.2.2.1, h.2.2.2⟩
  · exact h

/-- The store as shipped has the form. -/
theorem storeWf_reset : storeWf State.reset := by decide

end Sys2Proof.Laws
end

