-- ==== Sys2Proof/Tests/Slice0.lean ====
section
/-!
SUPPORT. Tests: for every statement with hypotheses a theorem that its hypotheses can be met, clause by clause
(`wit_<statement>`), a smoke test of the operand ranges, and single steps against the manual's numbers.
-/
set_option Elab.async false
namespace Sys2Proof.Tests
open Sys2Proof Sys2Proof.Machine Sys2Proof.Laws

/-! ### Small states -/

/-- A standalone chip in METERING. -/
def tM : State := { State.reset with boot := { Init.boot with st := .metering, fired := true } }
/-- A chip in a boot state before FIRED. -/
def tB (st : BootSt) : State := { State.reset with boot := { Init.boot with st := st } }
/-- A manager in METERING, its rings 0 to 3 enabled for 127 workers. -/
def tMgr : State := { State.reset with
  boot := { Init.boot with st := .metering, fired := true, role := .manager },
  coil := { Init.coil with rings := (List.range 4).map (fun k => (k, { Init.cring with cfg := 0x8000007F })) } }
/-- A worker in METERING. -/
def tW : State := { State.reset with boot := { Init.boot with st := .metering, fired := true, role := .worker } }
/-- A request of the host with a record of bytes. -/
def tReq (b : List Byte) : Req := ⟨.host, 0, 7, false, zeros 16, b⟩
/-- Bytes followed by their CRC-32C. -/
def tCrc (b : List Byte) : List Byte := b ++ le 4 (crc32c b).toNat
/-- The whole engine running, the Wheel turning. -/
def tRun (s : State) : State := { s with dec.run := true, whl.run := true }
/-- The state with one ring's registers set. -/
def tRing (n : Nat) (r : Ring) (s : State) : State := { s with hif := { s.hif with linkUp := true, rings := [(n, r)] } }

/-- A commit group of one record, one page. -/
def tG : Group := ⟨.record 5 0 (.word 1) 1, 1, false, none, none, none⟩
/-- An entry of the event FIFO. -/
def tEv : EvEnt := ⟨0, 0, 7, true, false, false, false, 0, 0⟩
/-- A chip in METERING whose store writes a group. -/
def tK (step left : Nat) : State := { tM with nvs := { Init.nvs with ready := true, groups := [tG], gstep := step, gleft := left } }
/-- A shadow of bank 2 in a state and turn of its self-check. -/
def tSh (st : ShSt) (turn : Nat) : State := { tRun tM with afe.sh := [(2, { Init.shadowMod with st := st, turn := turn, ok := true })] }
/-- A whole turn of a channel of bank 2 and of its shadow, whose samples all read `c` and `d`. -/
def tTurn (c d : Int) (dis : BitVec 3) : State :=
  setWs 44 { Init.wstream with rawPrev := List.replicate 256 ⟨c, 0⟩ }
    (setWs 62 { Init.wstream with rawPrev := List.replicate 256 ⟨d, 0⟩ }
      { tRun tM with pnt.lastK := 255, afe.sh := [(2, { Init.shadowMod with dwell := 15, disagree := dis })] })
/-- The same one turn on: the shadow has just moved to its next channel, and the last turn of the old one disagrees. -/
def tTurnPast : State :=
  { tTurn 0 1000000 0 with whl.pos := 0x100000000, afe.sh := [(2, { Init.shadowMod with prev := some (0, 3) })] }
/-- A point definition of one leg. -/
def tDef : PDef := ⟨[⟨0, 0, false⟩], 0, 0, 0, 0, 8, 0, 0⟩
/-- A turn of the schedule. -/
def tTurnAt (live : Bool) : RsTurn := ⟨1, 0, 0xA0000000, false, live⟩
/-- Capture request 7 enabled, its owner in a state. -/
def tCap (st : BitVec 2) : State := { tM with
  pq := { Init.pq with reqs := [(7, { Init.capReq with en := true, trigger := 1, cmask := 1, pre := 1 })]
                       cap := { Init.cap with state := st, owner := 7 } } }
/-- An optical port that works, its session in a state. -/
def tOpt (st : OptSt) : State := { tM with
  trf := { Init.trf with optEn := true, opt := ⟨st, 0, 0, 0, Stamp.zero, 0, 0⟩ }
  pin := { Init.pin with fb := [(30, { Init.ball with func := fnOptTx }), (31, { Init.ball with func := fnOptRx })] } }
/-- Point 255 defined, prepaid, with an ECREQ ball, its credit below LOW. -/
def tPre : State := setPt 255 { Init.pt with dfn := some tDef } { tM with
  crd := { Init.crd with pcfg := [(255, { Init.creditCfg with prepay := true, ecreqEn := true, ball := 31, ecAmt := 1, low := 1, recon := 2 })] }
  pin := { Init.pin with fb := [(31, { Init.ball with func := fnECREQ })] } }
/-- Output 15 enabled with a kind, named by point 255, its ball driven. -/
def tCtl (kind : BitVec 2) : State := { tM with
  crd := { Init.crd with pcfg := [(255, { Init.creditCfg with discEn := true, disc := 15 })]
                         ctl := [(15, { Init.ctl with cfg := { Init.ctlCfg with en := true, kind := kind, ball := 15, period := 500 } })] }
  pin := { Init.pin with fb := [(15, { Init.ball with drive := true, func := fnCTL, owner := 15 })] } }
/-- A descriptor with and without its end; a record of four bytes. -/
def tAcc (done : Bool) : Machine.Acc := ⟨0, 7, false, 0, 0, if done then some ⟨0, 0, 0, []⟩ else none, []⟩
def tQ : QRec := ⟨0, [1, 2, 3, 4], none, none⟩
/-- Tamper source 7 enabled with N, its filter in a state. -/
def tTmp (n : Byte) (x : TSrc) : State := { tM with
  tmp := { Init.tmp with run := true, bkSet := zeros 12 ++ [1, n, 1, 0], srcs := [(7, x)] }
  sgr := { Init.sgr with trngOk := true } }
/-- An enumerated worker that holds its ring keys (all of them empty), with its side of the ring in a state. -/
def tWk (w : WSide) : State := { tW with
  coil := { Init.coil with w := { w with enumerated := true } }
  sgr := { Init.sgr with slots := [(5, { Init.kslot with st := 3 }), (6, { Init.kslot with st := 3 })] } }
/-- A manager that knows worker 1 of ring 0 and its keys. -/
def tMw (st : BitVec 3) : State := { setEnt 0 1 { Init.went with state := st, chal := [9] } tMgr with
  sgr := { Init.sgr with cache := [(1, (Init.share, Init.share))] } }
/-- A frame of the manager to every worker, and one of worker 1 to its manager. -/
def tDown (cls typ : Nat) (p : List Byte) : Frame := authFrame 0 cls typ false 0xFF 0 0 [] 1 1 p
def tUp (cls typ : Nat) (p : List Byte) : Frame := authFrame 0 cls typ true 0 1 0 [] 1 1 p

theorem tDown_fromManager (cls typ : Nat) (p : List Byte) (s : State) (hp : p.length ≤ 2048) (hc : pairOk cls typ = true)
    (ha : (cls == 1 || cls == 2) = true) (h : isWorker s = true ∧ slotKey s 5 = some [] ∧ s.coil.w.enumerated = true ∧
      s.coil.w.down = none) : fromManager cls typ (tDown cls typ p) s :=
  ⟨by simp [forWorker, h.1, tDown, authFrame, sealFrame], rfl, rfl, frameBad_authFrame _ _ _ _ _ _ _ _ _ _ _ hp hc ha,
    ⟨[], h.2.1, tagOk_authFrame ..⟩, h.2.2.1, by rw [h.2.2.2]; rfl⟩

theorem tUp_fromWorker (cls typ : Nat) (p : List Byte) (s : State) (hp : p.length ≤ 2048) (hc : pairOk cls typ = true)
    (ha : (cls == 1 || cls == 2) = true) (h : isManager s = true ∧ ringEn s 0 = true ∧ upKey s 0 1 = some [] ∧
      (getEnt s 0 1).state = 3 ∧ (getEnt s 0 1).last = none) : fromWorker cls typ (tUp cls typ p) s :=
  ⟨by simp [forManager, h.1, h.2.1, tUp, authFrame, sealFrame], rfl, rfl, frameBad_authFrame _ _ _ _ _ _ _ _ _ _ _ hp hc ha,
    ⟨[], h.2.2.1, tagOk_authFrame ..⟩, .inr (.inl h.2.2.2.1), by
      show ctrAfter _ (getEnt s 0 1).last = true
      rw [h.2.2.2.2]; rfl⟩
/-- A frame of the manager whose tag does not hold. -/
def tBadTag : Frame := sealFrame { tDown 1 4 [] with tag := (tDown 1 4 []).tag ++ [0] }

theorem tBadTag_sound : frameBad tBadTag = false := frameBad_sealFrame _ rfl (by decide) (by decide) rfl (.inl (by decide)) rfl rfl
theorem tBadTag_tag : tagOk [] tBadTag = false := by
  simp [tagOk, tBadTag, tDown, authFrame, sealFrame, frameNonce, frameAad, frameBody]

/-- Guarded settings of a claimed chip with a change counter; the policy of slot 9 allows load, erase and use. -/
def tGuard (n : Nat) : List Byte := le 4 n ++ zeros 8 ++ [1] ++ zeros 279 ++ [0x31] ++ zeros 219
def tS (n : Nat) : State := { tM with sgr := { Init.sgr with trngOk := true, keyed := true, guard_ := tGuard n } }
/-- A Ring 9 request for this chip. -/
def tSag (body : List Byte) : Req := tReq (zeros 8 ++ body)
/-- Reading before and after the eight bytes of an identity number that stand in a record. -/
theorem rd_before (p i q : List Byte) (o n : Nat) (h : o + n ≤ p.length) : rd (p ++ (i ++ q)) o n = rd p o n := by
  rw [rd, rd, List.drop_append_of_le_length (by omega), List.take_append_of_le_length (by rw [List.length_drop]; omega)]
theorem drop_after (p i q : List Byte) (k : Nat) : (p ++ (i ++ q)).drop (p.length + i.length + k) = q.drop k := by
  rw [← List.append_assoc, ← List.length_append, List.drop_append]
  simp

/-- A change record of one item with change number 1: what stands before the identity number and after it. -/
def tChP : List Byte := le 4 0x4347514B ++ le 2 1 ++ le 2 220
def tChQ : List Byte := le 4 1 ++ [1, 0, 0, 0] ++ [8, 0, 0, 0] ++ zeros 192
def tChange : List Byte := tChP ++ (identBytes ++ tChQ)

theorem tChange_length : tChange.length = 220 := by
  rw [tChange, List.length_append, List.length_append, identBytes_length]; decide +kernel

theorem tChange_drop (k : Nat) : tChange.drop (16 + k) = tChQ.drop k := by
  have h := drop_after tChP identBytes tChQ k
  rw [identBytes_length, show tChP.length = 8 from rfl] at h
  exact h

theorem tChange_ident : (tChange.drop 8).take 8 = identBytes := by
  have h : tChange.drop 8 = identBytes ++ tChQ := List.drop_left (l₁ := tChP)
  rw [h, take_ident]

theorem tChange_claim : recClaim tChange = false := by
  rw [recClaim, rd, show (21 : Nat) = 16 + 5 from rfl, tChange_drop]; decide +kernel

theorem tChange_number : rd tChange 16 4 = 1 := by
  rw [rd, show (16 : Nat) = 16 + 0 from rfl, tChange_drop]; decide +kernel

theorem tChange_form : recForm tChange = true := by
  have he : recE tChange = 28 := by rw [recE, tChange_length, tChange_claim]; rfl
  have hi : recItems tChange = some [(8, [])] := by
    rw [recItems, he, List.drop_take, show (24 : Nat) = 16 + 8 from rfl, tChange_drop]; decide +kernel
  have h0 : rd tChange 0 4 = 0x4347514B := (rd_before tChP _ _ 0 4 (by decide)).trans (by decide +kernel)
  have h4 : rd tChange 4 2 = 1 := (rd_before tChP _ _ 4 2 (by decide)).trans (by decide +kernel)
  have h20 : rd tChange 20 1 = 1 := by rw [rd, show (20 : Nat) = 16 + 4 from rfl, tChange_drop]; decide +kernel
  have h21 : rd tChange 21 1 = 0 := by rw [rd, show (21 : Nat) = 16 + 5 from rfl, tChange_drop]; decide +kernel
  have h22 : zerosAt tChange 22 2 = true := by rw [zerosAt, show (22 : Nat) = 16 + 6 from rfl, tChange_drop]; decide +kernel
  rw [recForm, hi, he, h0, h4, h20, h21, h22]
  decide +kernel

theorem tChange_len : sagLen 0x42 tChange = true := by
  have h6 : rd tChange 6 2 = 220 := (rd_before tChP _ _ 6 2 (by decide)).trans (by decide +kernel)
  simp only [sagLen, tChange_length, h6]; rfl

theorem tChange_good : changeBad (tS 0) ((tSag tChange).buf.drop 8) = none := by
  show changeBad (tS 0) tChange = none
  simp [changeBad, firstBad, tChange_form, tChange_ident, tChange_claim, tChange_number,
    show gClaimed (tS 0).sgr.guard_ = true from by decide +kernel, show gCounter (tS 0).sgr.guard_ = 0 from by decide +kernel,
    show (tS 0).sgr.change = none from rfl, show (tS 0).sgr.ops = [] from rfl]

theorem tChange_stale : changeBad (tS 1) ((tSag tChange).buf.drop 8) = some statusStale := by
  show changeBad (tS 1) tChange = some statusStale
  simp [changeBad, firstBad, tChange_form, tChange_ident, tChange_claim, tChange_number,
    show gClaimed (tS 1).sgr.guard_ = true from by decide +kernel, show gCounter (tS 1).sgr.guard_ = 1 from by decide +kernel,
    show (tS 1).sgr.change = none from rfl, show (tS 1).sgr.ops = [] from rfl]

/-- The checks of ownRing9 for a body. -/
theorem tSag_own (op : Nat) (b : List Byte) (n : Nat) (h : sagLen op b = true) : ownRing9 op (tSag b) (tS n) := by
  have hl : (tSag b).buf.length = 8 + b.length := by
    show (zeros 8 ++ b).length = 8 + b.length
    rw [List.length_append]; rfl
  have hd : (tSag b).buf.drop 8 = b := List.drop_left (l₁ := zeros 8)
  have ha : rd (tSag b).buf 0 4 = 0 := by
    rw [show (tSag b).buf = zeros 8 ++ (([] : List Byte) ++ b) from rfl, rd_before _ _ _ _ _ (by decide)]; decide
  have hz : zerosAt (tSag b).buf 4 4 = true := by
    rw [zerosAt, show (tSag b).buf = zeros 8 ++ b from rfl, List.drop_append_of_le_length (by decide),
      List.take_append_of_le_length (by decide)]; decide
  refine ⟨rfl, ?_, by omega, by rw [hd]; exact h, hz, by rw [ha], by rw [ha]; decide, by rw [ha]; rfl⟩
  split <;> rfl

/-- A KEY_LOAD body for slot 9. -/
def tLoad : List Byte := identBytes ++ [9] ++ zeros 91

theorem tLoad_good : loadBad (tS 0) ((tSag tLoad).buf.drop 8) = none := by
  have hb : tLoad = identBytes ++ ([9] ++ zeros 91) := List.append_assoc ..
  have h8 : rd tLoad 8 1 = 9 := by rw [hb]; exact (rd_ident _ 0 1).trans (by decide)
  have hd : tLoad.drop 9 = zeros 91 := by
    have h := drop_after [] identBytes ([9] ++ zeros 91) 1
    rw [identBytes_length, List.nil_append, List.length_nil, ← hb] at h
    exact h
  have hz : zerosAt tLoad 9 7 = true := by rw [zerosAt, hd]; decide +kernel
  have hl : tLoad.length = 100 := by rw [hb, List.length_append, identBytes_length]; rfl
  have hi : tLoad.take 8 = identBytes := by rw [hb, take_ident]
  show loadBad (tS 0) tLoad = none
  simp [loadBad, firstBad, h8, hz, hl, hi, show policyOf (tS 0) 9 = 0x31 from by decide +kernel, show (tS 0).sgr.keyed = true from rfl,
    show Nat.testBit 49 5 = true from rfl]

theorem tLoad_length : tLoad.length = 100 := by
  rw [tLoad, List.append_assoc, List.length_append, identBytes_length]; rfl

/-- A credit token's record for point 255, with eight bytes in place of the identity number. -/
def tTokP : List Byte := [0xA0, 0, 96, 0, 255, 0, 0, 0] ++ zeros 16 ++ [1] ++ zeros 7
def tTok (i : List Byte) : List Byte := tTokP ++ (i ++ zeros 56)

theorem tTok_form (i : List Byte) (h : i.length = 8) : (tTok i).length = 96 ∧ tokenBad (tTok i) = false ∧ rd (tTok i) 4 4 = 255 ∧
    rd (tTok i) 4 1 = 255 ∧ ((tTok i).drop 32).take 8 = i := by
  have hl : (tTok i).length = 96 := by rw [tTok, List.length_append, List.length_append, h]; rfl
  have hb (o n : Nat) (ho : o + n ≤ 32) : rd (tTok i) o n = rd tTokP o n := rd_before _ _ _ _ _ ho
  have h25 : zerosAt (tTok i) 25 7 = true := by
    rw [zerosAt, tTok, List.drop_append_of_le_length (by decide), List.take_append_of_le_length (by decide)]; decide
  have h40 : zerosAt (tTok i) 40 8 = true := by
    have hd := drop_after tTokP i (zeros 56) 0
    rw [h, show tTokP.length = 32 from rfl] at hd
    rw [zerosAt, tTok, hd]; decide
  refine ⟨hl, ?_, (hb 4 4 (by decide)).trans (by decide), (hb 4 1 (by decide)).trans (by decide), ?_⟩
  · rw [tokenBad, h25, h40, hb 0 2 (by decide), hb 2 2 (by decide), hb 24 1 (by decide), hb 16 8 (by decide)]; decide
  · rw [show (tTok i).drop 32 = i ++ zeros 56 from List.drop_left (l₁ := tTokP), ← h, List.take_left]

theorem tTok_hyps (i : List Byte) (h : i.length = 8) (s : State) (hs : metering s = true ∧ addrCheck s 0 0 = .own ∧
    (getPt s 255).dfn.isSome = true ∧ (getPcfg s 255).prepay = true) {P : Prop} (hP : P) :
    let b := (tReq (tTok i)).buf
    metering s = true ∧ b.length = 96 ∧ tokenBad b = false ∧ rd b 4 4 < 2 ^ 17 ∧
    ((tReq (tTok i)).via = .coil ∨ addrCheck s (rd b 4 4 / 2 ^ 15) (rd b 4 4 / 2 ^ 8 % 128) = .own) ∧
    (getPt s (rd b 4 1)).dfn.isSome = true ∧ (getPcfg s (rd b 4 1)).prepay = true ∧ P := by
  have f := tTok_form i h
  show metering s = true ∧ (tTok i).length = 96 ∧ tokenBad (tTok i) = false ∧ rd (tTok i) 4 4 < 2 ^ 17 ∧
    (_ ∨ addrCheck s (rd (tTok i) 4 4 / 2 ^ 15) (rd (tTok i) 4 4 / 2 ^ 8 % 128) = .own) ∧
    (getPt s (rd (tTok i) 4 1)).dfn.isSome = true ∧ (getPcfg s (rd (tTok i) 4 1)).prepay = true ∧ P
  rw [f.1, f.2.1, f.2.2.1, f.2.2.2.1]
  exact ⟨hs.1, rfl, rfl, by decide, .inr hs.2.1, hs.2.2.1, hs.2.2.2, hP⟩

theorem ident_other : identBytes.map (fun x => ~~~ x) ≠ identBytes := by
  obtain ⟨a, b, c, d, e, f, g, h, hi⟩ := identBytes_eq
  rw [hi]
  intro he
  have ha : ~~~ a = a := List.head_eq_of_cons_eq he
  revert ha; clear he hi; revert a; decide

/-- A KEY frame under the envelope key with an operation. -/
def tKey (ctr : W64) : Frame := authFrame 0 1 6 false 0xFF 0 0 kFdn 0xFFFFFFFF ctr (identBytes ++ [0, 1, 0x44, 0])

theorem tKey_form (ctr : W64) : 12 ≤ (tKey ctr).payload.length ∧ (tKey ctr).payload.take 8 = identBytes ∧
    rd (tKey ctr).payload 8 1 = 0 ∧ rd (tKey ctr).payload 9 1 = 1 ∧ rd (tKey ctr).payload 10 1 = 0x44 ∧ frameBad (tKey ctr) = false ∧
    tagOk kFdn (tKey ctr) = true := by
  have hp : (tKey ctr).payload = identBytes ++ [0, 1, 0x44, 0] := rfl
  rw [hp]
  refine ⟨by simp [identBytes_length], take_ident _, rd_ident _ 0 1, rd_ident _ 1 1, rd_ident _ 2 1, ?_, tagOk_authFrame ..⟩
  exact frameBad_authFrame _ _ _ _ _ _ _ _ _ _ _ (by simp [identBytes_length]) rfl rfl

/-! The CRC-32C of the long coefficient records, 46 bytes at a time -/
theorem crc46_1 : (zeros 46).foldl crcByte 0xFFFFFFFF#32 = 0x92197085#32 := by decide +kernel
theorem crc46_2 : (zeros 46).foldl crcByte 0x92197085#32 = 0x13d05617#32 := by decide +kernel
theorem crc46_3 : (zeros 46).foldl crcByte 0x13d05617#32 = 0x942557e0#32 := by decide +kernel
theorem crc46_4 : (zeros 46).foldl crcByte 0x942557e0#32 = 0x028dfdfa#32 := by decide +kernel

theorem crc184 (l : List Byte) : crc32c (zeros 184 ++ l) = ~~~ (l.foldl crcByte 0x028dfdfa#32) := by
  rw [crc32c, show zeros 184 = zeros 46 ++ (zeros 46 ++ (zeros 46 ++ zeros 46)) from by decide +kernel, List.foldl_append,
    List.foldl_append, List.foldl_append, List.foldl_append, crc46_1, crc46_2, crc46_3, crc46_4]

/-- The coefficients of a tap set and of an F3 set, and their records. -/
def tTapC : List Byte := zeros 184 ++ zeros 4
def tF3C : List Byte := zeros 184 ++ (le 4 4194304 ++ zeros 4)
def tTapRec : List Byte := [1, 0, 0, 7] ++ le 2 47 ++ zeros 2 ++ le 4 0x7535454e ++ tTapC
def tF3Rec : List Byte := [7, 0, 0, 0] ++ le 4 0x7a3123db ++ tF3C

theorem tTapRec_crc : crcOk tTapRec 8 ((tTapRec.drop 12).take 188) = true := by
  have h : (tTapRec.drop 12).take 188 = tTapC := by decide +kernel
  rw [crcOk, h, tTapC, crc184]; decide +kernel

theorem tF3Rec_crc : crcOk tF3Rec 4 (tF3Rec.drop 8) = true := by
  have h : tF3Rec.drop 8 = tF3C := by decide +kernel
  rw [crcOk, h, tF3C, crc184]; decide +kernel

/-- A forwarded command of a ring that waits for worker 1 of ring 0. -/
def tFwd (ring : Nat) : Fwd := ⟨⟨ring, .host, 5, 5, false, 2⟩, 0, 1, 5, 2, 0, Stamp.zero, none⟩
/-- A request for position 127 of ring 1. -/
def tFar : Req := { tReq (zeros 16) with inl := [0, 0xFF] ++ zeros 14 }
/-- A running chip whose current channels are all enabled. -/
def tEnabled : State := { tRun tM with afe.chan.icfg := List.replicate 6 0x88888888 }
/-- A frame of worker 1 whose tag does not hold. -/
def tBadUp : Frame := sealFrame { tUp 1 1 [] with tag := (tUp 1 1 []).tag ++ [0] }

theorem tBadUp_sound : frameBad tBadUp = false := frameBad_sealFrame _ rfl (by decide) (by decide) rfl (.inl (by decide)) rfl rfl
theorem tBadUp_tag : tagOk [] tBadUp = false := by
  simp [tagOk, tBadUp, tUp, authFrame, sealFrame, frameNonce, frameAad, frameBody]

theorem tEnv_length : 12 ≤ (tDown 1 6 (identBytes ++ [0, 0, 0x44, 0])).payload.length := by
  rw [show (tDown 1 6 (identBytes ++ [0, 0, 0x44, 0])).payload = identBytes ++ [0, 0, 0x44, 0] from rfl, List.length_append,
    identBytes_length]
  decide

/-- A token whose tag is wrong, whatever the right one is. -/
def tBadToken : List Byte := zeros 48 ++ (if Config.hmac [] (zeros 48) = zeros 48 then [1] else zeros 48)

theorem tBadToken_tag : Config.hmac [] (tBadToken.take 48) ≠ (tBadToken.drop 48).take 48 := by
  rw [show tBadToken.take 48 = zeros 48 from List.take_left (l₁ := zeros 48),
    show tBadToken.drop 48 = (if Config.hmac [] (zeros 48) = zeros 48 then [1] else zeros 48) from List.drop_left (l₁ := zeros 48)]
  split
  · next h => rw [h]; decide
  · next h => exact h

theorem not_some {α : Type} {x : Option α} {n : α} {P : Prop} (h : x = some n) (hx : x = none) : P := by
  rw [hx] at h; cases h

/-- A chip with one derived key in two shares. -/
def tKeyed : State := { tS 0 with sgr.slots := [(3, ⟨3, ⟨[1, 2], [3, 4]⟩, 0, none⟩)] }

theorem tKeyed_shares (i : Nat) : (getSlot tKeyed i).taken.key.v.length = (getSlot tKeyed i).taken.key.m.length := by
  by_cases h : 3 = i
  · subst h; decide +kernel
  · have e : tgetD tKeyed.sgr.slots i Init.kslot = Init.kslot := by simp [tKeyed, tgetD, tget, h]
    rw [getSlot, e]
    split <;> decide +kernel

/-! A calendar image with one calendar: its CRC is that of its own entries, so nothing evaluates it -/
def tCalBody : Tab (List Byte) := [(16385, [2, 0, 1] ++ zeros 13), (16594, [6, 0, 12, 31, 31] ++ zeros 11),
  (16641, [7, 0] ++ List.replicate 7 63 ++ zeros 7), (16705, [8, 0, 1] ++ zeros 13), (18722, [9, 0, 8] ++ zeros 13)]
def tCalSum : W32 := crc32c ((region 1 8191).flatMap (entry { tM with trf.img := tCalBody } true))
def tCalHead : List Byte := [1, 0, 1, 0, 7, 0, 0, 0] ++ (le 4 tCalSum.toNat ++ [28, 23, 60, 0])
def tCal : State := { tM with trf.img := (16384, tCalHead) :: tCalBody, rtc.s := 1, rtc.invalid := false }

theorem rd_word (a c : List Byte) {w : W32} (ha : a.length = 8) : rd (a ++ (le 4 w.toNat ++ c)) 8 4 = w.toNat := by
  have hw := w.isLt
  rw [rd, List.drop_left' ha]
  simp [le, ofLe]
  omega

theorem tCal_crc : rd (hdr tCal true) 8 4 = (crc32c ((region 1 8191).flatMap (entry tCal true))).toNat := by
  have hh : hdr tCal true = tCalHead := rfl
  have hl : rd tCalHead 8 4 = tCalSum.toNat := rd_word _ _ rfl
  have he : (region 1 8191).flatMap (entry tCal true) = (region 1 8191).flatMap (entry { tM with trf.img := tCalBody } true) := by
    refine List.flatMap_congr fun e he => ?_
    obtain ⟨i, -, rfl⟩ := List.mem_map.1 he
    simp [entry, tCal, imgEnt, tgetD, tget]
  rw [hh, hl, he, tCalSum]

theorem tCal_valid : imageValid tCal true = true := by
  simp only [imageValid, tCal_crc, beq_self_eq_true, Bool.and_true]
  decide +kernel

/-- A TRF_ARM of that image at an instant. -/
def tArm (t : Nat) : Req := tReq ((le 4 t ++ le 4 7) ++ (le 4 tCalSum.toNat ++ []))

theorem tArm_crc (t : Nat) : rd (tArm t).buf 8 4 = imgCrc tCal (!tCal.trf.active) :=
  (rd_word (le 4 t ++ le 4 7) [] rfl).trans (rd_word [1, 0, 1, 0, 7, 0, 0, 0] [28, 23, 60, 0] rfl).symm

theorem tShort_other : (tDown 1 6 []).payload.take 8 ≠ identBytes := fun h => by
  have := congrArg List.length h
  rw [identBytes_length] at this
  exact absurd this (by decide)

/-! ### Every hypothesis can be met

One theorem for each statement with hypotheses, one state and operands for each of its clauses, at a boundary of their ranges
where they have one; a clause whose hypotheses stand among those of another is met by the same. -/

theorem wit_StepRunsFront :
    (∃ (c : Instr) (rest : List Instr) (s : State), s.pending = c :: rest) ∧
    (∃ s : State, s.pending = []) :=
  ⟨⟨.powerOn, [], { State.reset with pending := [.powerOn] }, by decide +kernel⟩,
   ⟨State.reset, by decide +kernel⟩⟩

theorem wit_CommandFrame :
    (∃ c : Instr, c ≠ Instr.verifyDone) ∧
    (∃ (c : Instr) (s t : State), exec c s = Host.Outcome.next t) :=
  ⟨⟨.powerOn, by decide +kernel⟩,
   ⟨.powerOn, tM, tM, rfl⟩⟩

theorem wit_TapStaysLocked :
    ∃ s t : State, tapLocked s ∧ step s = Host.Outcome.next t :=
  ⟨State.reset, idleStep State.reset, fun h => absurd h (by decide), rfl⟩

theorem wit_StoreStaysCanonical :
    ∃ s t : State, storeWf s ∧ step s = Host.Outcome.next t :=
  ⟨State.reset, idleStep State.reset, ⟨rfl, rfl, rfl, rfl⟩, rfl⟩

theorem wit_ResetState :
    ∃ off : Nat, exposed State.reset off = true :=
  ⟨0, by decide +kernel⟩

theorem wit_CommonChecks :
    (∃ (c : Instr) (op : Byte) (lenOk : Nat → Bool) (r : Req) (s : State), ring0Cmd c = some (op, lenOk, r) ∧ metering s =
      false) ∧
    (∃ (c : Instr) (op : Byte) (lenOk : Nat → Bool) (r : Req) (s : State), ring0Cmd c = some (op, lenOk, r) ∧ metering s = true
      ∧ lenOk r.buf.length = false) ∧
    (∃ (c : Instr) (op : Byte) (lenOk : Nat → Bool) (r : Req) (s : State) (st : W16), ring0Cmd c = some (op, lenOk, r) ∧
      metering s = true ∧ lenOk r.buf.length = true ∧ cmdDest r s = Dest.refused st) ∧
    (∃ (c : Instr) (op : Byte) (lenOk : Nat → Bool) (r : Req) (s : State) (k pos : Nat), ring0Cmd c = some (op, lenOk, r) ∧
      metering s = true ∧ lenOk r.buf.length = true ∧ cmdDest r s = Dest.worker k pos) :=
  ⟨⟨.rtcSet (tReq (zeros 16)), 0x38, (· == 16), tReq (zeros 16), State.reset, rfl, by decide +kernel⟩,
   ⟨.rtcSet (tReq (zeros 15)), 0x38, (· == 16), tReq (zeros 15), tM, rfl, by decide +kernel⟩,
   ⟨.rtcSet tFar, 0x38, (· == 16), tFar, tMgr, statusUnavailable, rfl, by decide +kernel⟩,
   ⟨.rtcSet tFar, 0x38, (· == 16), tFar, setEnt 1 0x7F { Init.went with state := 3 } tMgr, 1, 0x7F, rfl, by decide +kernel⟩⟩

theorem wit_PowerEvents :
    (∃ s : State, mainPower s = false) ∧
    (∃ s : State, running s = true ∧ metering s = false ∧ s.boot.st ≠ BootSt.failstop ∧ s.nvs.gstep < 3) ∧
    (∃ (s : State) (g : Machine.Group) (rest : List Machine.Group), running s = true ∧ metering s = false ∧ s.boot.st ≠
      BootSt.failstop ∧ s.nvs.groups = g :: rest ∧ 3 ≤ s.nvs.gstep) ∧
    (∃ s : State, running s = true ∧ s.boot.st = BootSt.failstop ∧ s.flt.kind ≠ Cls.grave ∧ s.flt.phase = FsPhase.safe) ∧
    (∃ s : State, running s = true ∧ s.boot.st = BootSt.failstop ∧ s.flt.kind = Cls.grave) ∧
    (∃ s : State, running s = true ∧ s.nvs.inhibit = true ∧ s.nvs.warn = false ∧ s.nvs.lg = none ∧ s.flt.phase = FsPhase.none ∧
      s.nvs.gstep < 3) ∧
    (∃ s : State, running s = true ∧ s.nvs.lg = none ∧ s.nvs.lgDone = false ∧ s.nvs.inhibit = false ∧ s.nvs.prot ≠ 3 ∧
      s.nvs.warn = false ∧ metering s = true) ∧
    (∃ s : State, running s = true ∧ s.nvs.lg = none ∧ s.nvs.lgDone = false ∧ s.nvs.inhibit = false ∧ s.nvs.prot ≠ 3 ∧
      s.nvs.warn = false ∧ metering s = false) :=
  ⟨⟨{ State.reset with boot.st := .off }, by decide +kernel⟩,
   ⟨tB .hold, by decide +kernel⟩,
   ⟨{ tB .hold with nvs.groups := [tG], nvs.gstep := 3 }, tG, [], by decide +kernel⟩,
   ⟨{ tM with boot.st := .failstop, flt.phase := .safe }, by decide +kernel⟩,
   ⟨{ tM with boot.st := .failstop, flt.phase := .safe, flt.kind := .grave }, by decide +kernel⟩,
   ⟨{ tM with nvs.inhibit := true }, by decide +kernel⟩,
   ⟨tM, by decide +kernel⟩,
   ⟨tB .hold, by decide +kernel⟩⟩

theorem wit_BackupAndFuse :
    (∃ s : State, s.boot.st = BootSt.off) ∧
    (∃ s : State, s.boot.st ≠ BootSt.por) ∧
    (∃ s : State, s.rtc.inReset = true) ∧
    (∃ s : State, s.boot.st = BootSt.por ∧ s.flt.phase = FsPhase.none) :=
  ⟨⟨{ State.reset with boot.st := .off }, by decide +kernel⟩,
   ⟨{ State.reset with boot.st := .off }, by decide +kernel⟩,
   ⟨{ State.reset with rtc.inReset := true }, by decide +kernel⟩,
   ⟨State.reset, by decide +kernel⟩⟩

theorem wit_ImageRequests :
    (∃ (r : Req) (s : State), s.boot.st ≠ BootSt.failstop ∧ s.boot.fired = false ∧ s.boot.img.endAcc = false ∧ totalOk (rd
      r.inl 4 4) = true ∧ (s.boot.img.total = none ∨ s.boot.img.total = some (rd r.inl 4 4)) ∧ rangeBad (rd r.inl 0 4)
      r.buf.length (rd r.inl 4 4) = false) ∧
    (∃ (r : Req) (s : State), s.boot.st ≠ BootSt.failstop ∧ s.boot.fired = false ∧ r.buf.length = 8 ∧ zerosAt r.buf 4 4 = true
      ∧ s.boot.img.total = some (rd r.buf 0 4) ∧ imageComplete s = true ∧ s.boot.img.endAcc = false) ∧
    (∃ (r : Req) (s : State), s.boot.st ≠ BootSt.failstop ∧ s.boot.fired = false ∧ r.buf.length = 4 ∧ zerosAt r.buf 0 4 = true
      ∧ verifying s = false ∧ s.boot.img.endWait = none) ∧
    (∃ (r : Req) (s : State), s.boot.st ≠ BootSt.failstop ∧ s.boot.fired = false ∧ 448 ≤ r.buf.length) :=
  ⟨⟨{ tReq (zeros 1) with inl := le 4 0 ++ le 4 8704 ++ zeros 8, buf := zeros 16 }, tB .greenware, by decide +kernel⟩,
   ⟨tReq (le 4 8704 ++ zeros 4),
      { tB .greenware with boot.img := { Init.image with total := some 8704, units := (List.range 544).map (fun i => (i, zeros 16)) } },
      by decide +kernel⟩,
   ⟨tReq (zeros 4), tB .greenware, by decide +kernel⟩,
   ⟨tReq (zeros 448), tB .greenware, by decide +kernel⟩⟩

theorem wit_AfterFired :
    (∃ (r : Req) (s : State), s.boot.fired = true ∧ s.boot.st ≠ BootSt.failstop ∧ r.buf.length = 8) ∧
    (∃ (r : Req) (s : State), s.boot.fired = true ∧ s.boot.st ≠ BootSt.failstop ∧ r.buf.length = 4) ∧
    (∃ (r : Req) (s : State), s.boot.fired = true ∧ s.boot.st ≠ BootSt.failstop ∧ 448 ≤ r.buf.length) ∧
    (∃ (s : State) (c : Instr) (t : State), s.boot.fired = true ∧ s.boot.st ≠ BootSt.failstop ∧ s.boot.st ≠ BootSt.verify ∧
      exec c s = Host.Outcome.next t) ∧
    (∃ s : State, s.boot.fired = true ∧ s.boot.st ≠ BootSt.failstop ∧ running s = true) :=
  ⟨⟨tReq (zeros 8), tM, by decide +kernel⟩,
   ⟨tReq (zeros 4), tM, by decide +kernel⟩,
   ⟨tReq (zeros 448), tM, by decide +kernel⟩,
   ⟨tM, .powerOn, tM, by decide +kernel, by decide +kernel, by decide +kernel, rfl⟩,
   ⟨tM, by decide +kernel⟩⟩

theorem wit_ImageByCoil :
    ∃ (f : Frame) (s : State), isWorker s = true ∧ running s = true ∧ f.dst = 255 ∧ f.cls = 3 ∧ f.typ = 1 ∧ frameBad f = false
      ∧ s.boot.fired = false ∧ s.boot.st ≠ BootSt.failstop ∧ s.boot.img.endAcc = false ∧ 8 ≤ f.payload.length ∧ totalOk (rd
      f.payload 4 4) = true ∧ (s.boot.img.total = none ∨ s.boot.img.total = some (rd f.payload 4 4)) ∧ rangeBad (rd f.payload 0
      4) (List.drop 8 f.payload).length (rd f.payload 4 4) = false :=
  ⟨plainFrame 0 3 1 false 255 0 0 (le 4 0 ++ le 4 8704 ++ zeros 16), { tB .greenware with boot.role := .worker },
      by decide +kernel⟩

theorem wit_BootEnds :
    (∃ s : State, s.boot.st = BootSt.verify ∧ s.boot.fired = false ∧ describedImage s = true) ∧
    (∃ s : State, s.boot.st = BootSt.verify ∧ s.boot.fired = false ∧ (verifyResult s).1 ≠ 0) ∧
    (∃ s : State, s.boot.st = BootSt.verify ∧ s.boot.fired = false ∧ headerBad s = true) ∧
    (∃ s : State, s.boot.st = BootSt.restore ∧ failed s = false) ∧
    (∃ s : State, s.boot.st = BootSt.cal ∧ powerupDone s = true) ∧
    (∃ s : State, running s = true ∧ s.boot.waitRaised = false ∧ s.boot.fired = false ∧ imageComplete s = false ∧ imageWaited s
      = true) ∧
    (∃ s : State, s.boot.st = BootSt.failstop) ∧
    (∃ s : State, s.boot.st ≠ BootSt.failstop ∧ s.boot.fired = true) :=
  ⟨⟨{ tB .verify with boot.img.units := [(1, [0x4C, 2, 0, 0, 0x41, 3] ++ zeros 10)] }, by decide +kernel⟩,
   ⟨{ tB .verify with boot.img.units := [(1, [0x4C, 2, 0, 0, 0x41, 3] ++ zeros 10)] }, by decide +kernel⟩,
   ⟨{ tB .verify with boot.img.units := [(1, [0x4C, 2, 0, 0, 0x41, 3] ++ zeros 10)] }, by decide +kernel⟩,
   ⟨{ tM with boot.st := .restore }, by decide +kernel⟩,
   ⟨{ tB .cal with cal.st := .powerup, cal.grps := (List.range 8).map (fun g => (g, { Init.calGrp with done := true })) },
      by decide +kernel⟩,
   ⟨{ tB .greenware with hif.linkSlot := some 0, slot := 36864000 }, by decide +kernel⟩,
   ⟨{ tM with boot.st := .failstop }, by decide +kernel⟩,
   ⟨{ tM with boot.st := .restore }, by decide +kernel⟩⟩

theorem wit_LcpMismatchIsGrave :
    ∃ s : State, s.cpx.lcp = true ∧ s.flt.phase = FsPhase.none :=
  ⟨{ tM with cpx.lcp := true }, by decide +kernel⟩

theorem wit_ProcessorsAndSafeState :
    (∃ s : State, (s.cpx.acp0 = true ∨ s.cpx.acp1 = true)) ∧
    (∃ (s : State) (core : Nat), (if core = 0 then s.cpx.acp0 else s.cpx.acp1) = true ∧ failed s = false ∧ bit (getBlk s
      16).flive 2 = false) ∧
    (∃ s : State, s.boot.fired = true ∧ s.cpx.acp0 = false ∧ failed s = false) ∧
    (∃ s : State, s.nvs.lg = none ∧ (s.flt.phase = FsPhase.begun ∨ s.flt.phase = FsPhase.lastGasp) ∧ s.flt.remembered = none) ∧
    (∃ s : State, s.nvs.lg = none ∧ s.flt.phase = FsPhase.lastGasp ∧ s.flt.remembered = none) ∧
    (∃ (s : State) (c : BitVec 4), s.nvs.lg = none ∧ s.flt.phase = FsPhase.lastGasp ∧ s.flt.remembered = some c ∧ s.flt.kind =
      Cls.severe) :=
  ⟨⟨{ tM with cpx.acp0 := true }, by decide +kernel⟩,
   ⟨{ tM with cpx.acp0 := true }, 0, by decide +kernel⟩,
   ⟨tM, by decide +kernel⟩,
   ⟨{ tM with flt.phase := .begun, boot.st := .failstop }, by decide +kernel⟩,
   ⟨{ tM with boot.st := .failstop, flt.phase := .lastGasp, flt.kind := .severe }, by decide +kernel⟩,
   ⟨{ tM with boot.st := .failstop, flt.phase := .lastGasp, flt.kind := .severe, flt.remembered := some 3 }, 3,
      by decide +kernel⟩⟩

theorem wit_StoreWrites :
    (∃ (g : Machine.Group) (rest : List Machine.Group) (s : State), running s = true ∧ s.nvs.lg = none ∧ s.nvs.inhibit = false
      ∧ s.nvs.groups = g :: rest ∧ s.nvs.gstep = 0) ∧
    (∃ (g : Machine.Group) (rest : List Machine.Group) (s : State), running s = true ∧ s.nvs.lg = none ∧ s.nvs.inhibit = false
      ∧ s.nvs.groups = g :: rest ∧ s.nvs.gstep = 2 ∧ 1 < s.nvs.gleft) ∧
    (∃ (g : Machine.Group) (rest : List Machine.Group) (s : State), running s = true ∧ s.nvs.lg = none ∧ s.nvs.inhibit = false
      ∧ s.nvs.groups = g :: rest ∧ s.nvs.gstep = 2 ∧ s.nvs.gleft ≤ 1) ∧
    (∃ (g : Machine.Group) (rest : List Machine.Group) (s : State) (key c : Nat) (v : NvVal) (q : W32), running s = true ∧
      s.nvs.lg = none ∧ s.nvs.inhibit = false ∧ s.nvs.groups = g :: rest ∧ s.nvs.gstep = 3 ∧ g.act = GroupAct.record key c v q
      ∧ g.eff = none) ∧
    (∃ (g : Machine.Group) (rest : List Machine.Group) (s : State), running s = true ∧ s.nvs.lg = none ∧ s.nvs.inhibit = false
      ∧ s.nvs.groups = g :: rest ∧ s.nvs.gstep = 4 ∧ 1 < s.nvs.gleft) ∧
    (∃ (g : Machine.Group) (rest : List Machine.Group) (s : State), running s = true ∧ s.nvs.lg = none ∧ s.nvs.inhibit = false
      ∧ s.nvs.groups = g :: rest ∧ s.nvs.gstep = 4 ∧ s.nvs.gleft ≤ 1) ∧
    (∃ (g : Machine.Group) (rest : List Machine.Group) (s : State), running s = true ∧ s.nvs.lg = none ∧ s.nvs.inhibit = false
      ∧ s.nvs.groups = g :: rest ∧ s.nvs.gstep = 5) ∧
    (∃ (g : LgRun) (n : Nat) (s : State), running s = true ∧ s.nvs.lg = some g ∧ g.left = some n ∧ 2 < n ∧ n < 161) ∧
    (∃ (g : LgRun) (n : Nat) (s : State), running s = true ∧ s.nvs.lg = some g ∧ g.left = some n ∧ n ≤ 1 ∧ g.cause = 1 ∧
      s.flt.phase = FsPhase.none ∧ s.flt.remembered = none) ∧
    (∃ s : State, metering s = true ∧ s.pnt.cmpOk = true ∧ s.nvs.lg = none ∧ s.nvs.inhibit = false ∧ s.nvs.prot ≠ 3 ∧
      s.nvs.spreadDue = []) ∧
    (∃ (s : State) (p c k : Nat) (w : W48), metering s = true ∧ s.pnt.cmpOk = true ∧ s.nvs.lg = none ∧ s.nvs.inhibit = false ∧
      s.nvs.prot ≠ 3 ∧ s.nvs.spreadDue = [(p, [c])] ∧ spreadNewest (spreadSlots s (8 * p)) = some (k, w) ∧ w ≠ BitVec.ofNat 48
      c) :=
  ⟨⟨tG, [], tK 0 0, by decide +kernel⟩,
   ⟨tG, [], tK 2 2, by decide +kernel⟩,
   ⟨tG, [], tK 2 1, by decide +kernel⟩,
   ⟨tG, [], tK 3 0, 5, 0, .word 1, 1, by decide +kernel⟩,
   ⟨tG, [], tK 4 2, by decide +kernel⟩,
   ⟨tG, [], tK 4 1, by decide +kernel⟩,
   ⟨tG, [], tK 5 0, by decide +kernel⟩,
   ⟨⟨1, 0, some 160, emptyArea⟩, 160, { tM with nvs.lg := some ⟨1, 0, some 160, emptyArea⟩ }, by decide +kernel⟩,
   ⟨⟨1, 0, some 1, emptyArea⟩, 1, { tM with nvs.lg := some ⟨1, 0, some 1, emptyArea⟩ }, by decide +kernel⟩,
   ⟨{ tM with pnt.cmpOk := true }, by decide +kernel⟩,
   ⟨{ tM with pnt.cmpOk := true, nvs.spreadDue := [(0, [1])] }, 0, 1, 7, 0, by decide +kernel⟩⟩

theorem wit_TurnBoundary :
    (∃ s : State, s.whl.run = true ∧ isWorker s = false ∧ s.whl.selected = true ∧ s.whl.coast = false ∧ refHeld s = false) ∧
    (∃ s : State, s.whl.run = true ∧ isWorker s = false ∧ s.whl.selected = false) ∧
    (∃ (err : Int) (w : Whl), 3 ≤ w.goodTurns ∧ err.natAbs ≤ 2330) ∧
    (∃ (err : Int) (w : Whl), 1 ≤ w.badTurns ∧ 9320 < err.natAbs) ∧
    (∃ (err : Int) (w : Whl), w.goodTurns < 3 ∧ err.natAbs ≤ 2330) ∧
    (∃ (err : Int) (w : Whl), w.badTurns = 0 ∧ 9320 < err.natAbs) ∧
    (∃ err : Int, err.natAbs ≤ 9320 ∧ 2330 < err.natAbs) :=
  ⟨⟨{ tRun tM with whl.selected := true }, by decide +kernel⟩,
   ⟨tRun tM, by decide +kernel⟩,
   ⟨2330, { Init.whl with goodTurns := 3 }, by decide +kernel⟩,
   ⟨9321, { Init.whl with badTurns := 1 }, by decide +kernel⟩,
   ⟨2330, { Init.whl with badTurns := 1 }, by decide +kernel⟩,
   ⟨9321, { Init.whl with goodTurns := 3 }, by decide +kernel⟩,
   ⟨2331, by decide +kernel⟩⟩

theorem wit_References :
    (∃ (n : Nat) (s : State), n < 4 ∧ isWorker s = false ∧ s.flt.phase ≠ FsPhase.safe ∧ s.whl.run = true ∧ refEn
      s.whl.regs.reflist n = true ∧ setHeld s (refCh s.whl.regs.reflist n) = false ∧ s.whl.selected = true ∧ s.whl.active.toNat
      ≠ n) ∧
    (∃ (n : Nat) (rising : Bool) (s : State), n < 4 ∧ isWorker s = false ∧ s.flt.phase ≠ FsPhase.safe ∧ s.whl.run = true ∧
      refEn s.whl.regs.reflist n = true ∧ setHeld s (refCh s.whl.regs.reflist n) = false ∧ s.whl.selected = false ∧ (judgeRef
      (Machine.getRef s.whl n) (fld s.whl.regs.vnom 15 0) (halfCycleSq s n (s.slot - fineDelay)).1 (halfCycleSq s n (s.slot -
      fineDelay)).2 (s.slot - fineDelay) rising s.slot).qual = true) ∧
    (∃ (n : Nat) (rising : Bool) (s : State), n < 4 ∧ isWorker s = false ∧ s.flt.phase ≠ FsPhase.safe ∧ s.whl.run = true ∧
      refEn s.whl.regs.reflist n = true ∧ setHeld s (refCh s.whl.regs.reflist n) = false ∧ s.whl.selected = false ∧ (judgeRef
      (Machine.getRef s.whl n) (fld s.whl.regs.vnom 15 0) (halfCycleSq s n (s.slot - fineDelay)).1 (halfCycleSq s n (s.slot -
      fineDelay)).2 (s.slot - fineDelay) rising s.slot).qual = false) ∧
    (∃ (n : Nat) (rising : Bool) (s : State), n < 4 ∧ isWorker s = false ∧ s.flt.phase ≠ FsPhase.safe ∧ s.whl.run = true ∧
      refEn s.whl.regs.reflist n = true ∧ setHeld s (refCh s.whl.regs.reflist n) = false ∧ s.whl.selected = true ∧
      s.whl.active.toNat = n ∧ (Machine.getRef s.whl n).qual = true ∧ (judgeRef (Machine.getRef s.whl n) (fld s.whl.regs.vnom
      15 0) (halfCycleSq s n (s.slot - fineDelay)).1 (halfCycleSq s n (s.slot - fineDelay)).2 (s.slot - fineDelay) rising
      s.slot).qual = false) ∧
    (∃ (s : State) (n : Nat), isWorker s = false ∧ bit s.whl.regs.cfg 1 = true ∧ s.whl.selected = true ∧ firstQual s.whl
      (List.filter (settledRef s) (List.range s.whl.active.toNat)) = some n) ∧
    (∃ s : State, isWorker s = false ∧ bit s.whl.regs.cfg 1 = false) ∧
    (∃ s : State, isWorker s = false ∧ (s.whl.selected = false ∨ (refEn s.whl.next.reflist s.whl.active.toNat && refEn
      s.whl.regs.reflist s.whl.active.toNat && refCh s.whl.regs.reflist s.whl.active.toNat == refCh s.whl.next.reflist
      s.whl.active.toNat) = true)) ∧
    (∃ (s : State) (n : Nat), isWorker s = false ∧ s.whl.selected = true ∧ (refEn s.whl.next.reflist s.whl.active.toNat &&
      refEn s.whl.regs.reflist s.whl.active.toNat && refCh s.whl.regs.reflist s.whl.active.toNat == refCh s.whl.next.reflist
      s.whl.active.toNat) = false ∧ firstQual (have __src := s.whl;
      { pos := __src.pos, rem := __src.rem, run := __src.run, freq := __src.freq, delta := __src.delta, prevDelta := __src.prevDelta, u := __src.u, regs := have __src := s.whl.regs; { cfg := __src.cfg, reflist := s.whl.next.reflist, ofs01 := s.whl.next.ofs01, ofs23 := s.whl.next.ofs23, vnom := __src.vnom, synccfg := __src.synccfg, bcfg := __src.bcfg }, next := __src.next, pherr := __src.pherr, active := __src.active, selected := __src.selected, nolock := __src.nolock, slew := __src.slew, hold := __src.hold, lock := __src.lock, goodTurns := __src.goodTurns, badTurns := __src.badTurns, refs := requalify s.whl.regs.reflist s.whl.next.reflist s.whl.refs, heldFreq := __src.heldFreq, coast := __src.coast, lposLo := __src.lposLo, lposHi := __src.lposHi, lsec := __src.lsec, lfrac := __src.lfrac, sync := __src.sync, merged := __src.merged, syncCount := __src.syncCount, aidx := __src.aidx, ang := __src.ang, amiss := __src.amiss, ridx := __src.ridx, rtcAct := __src.rtcAct, rmiss := __src.rmiss, bRejects := __src.bRejects, bMissed := __src.bMissed, bGood := __src.bGood, bLast := __src.bLast, syncMissTurn := __src.syncMissTurn, qlog := __src.qlog })
      [0, 1, 2, 3] = some n) :=
  ⟨⟨3, { tRun tM with whl.regs.reflist := 0x80000000, whl.selected := true }, by decide +kernel⟩,
   ⟨3, false,
      { setStrm 0 { Init.strm with fine := [⟨8000000, 0⟩], fineN := 100 } (tRun tM) with slot := 273408, whl.regs.reflist := 0x80000000, whl.refs := [(3, { Init.refEnt with good := 1, lastPer := 491520, cross := some 0 })] },
      by decide +kernel⟩,
   ⟨3, true, { tRun tM with whl.regs.reflist := 0x80000000, whl.refs := [(3, { Init.refEnt with good := 1 })] },
      by decide +kernel⟩,
   ⟨3, true,
      { tRun tM with whl.regs.reflist := 0x80000000, whl.selected := true, whl.active := 3, whl.refs := [(3, { Init.refEnt with qual := true, bad := 1 })] },
      by decide +kernel⟩,
   ⟨{ tRun tM with slot := 245760000, whl.regs.reflist := 0x80800000, whl.regs.cfg := 2, whl.selected := true, whl.active := 3, whl.refs := [(2, { Init.refEnt with qual := true })] },
      2, by decide +kernel⟩,
   ⟨{ tRun tM with whl.regs.reflist := 0x80000000, whl.selected := true }, by decide +kernel⟩,
   ⟨{ tRun tM with whl.regs.reflist := 0x80000000, whl.refs := [(3, { Init.refEnt with good := 1 })] }, by decide +kernel⟩,
   ⟨{ tRun tM with whl.regs.reflist := 0x80800000, whl.next.reflist := 0x81800000, whl.selected := true, whl.active := 3, whl.refs := [(2, { Init.refEnt with qual := true }), (3, { Init.refEnt with qual := true })] },
      2, by decide +kernel⟩⟩

theorem wit_SyncRequests :
    (∃ (falling : Bool) (s : State), isWorker s = false ∧ bit s.whl.regs.synccfg 0 = true ∧ bit s.whl.regs.synccfg 1 = falling) ∧
    (∃ (falling : Bool) (s : State), (isWorker s = true ∨ bit s.whl.regs.synccfg 0 = false ∨ bit s.whl.regs.synccfg 1 ≠
      falling)) ∧
    (∃ (s : State) (q : SyncReq), s.whl.sync = some q) ∧
    (∃ s : State, s.whl.sync = none ∧ isManager s = false) ∧
    (∃ s : State, s.whl.sync = none ∧ isManager s = true) ∧
    (∃ (r : Req) (s : State), metering s = true ∧ r.buf.length = 4 ∧ r.via = Via.host ∧ cmdDest r s = Dest.own ∧ zerosAt r.buf
      0 4 = true) :=
  ⟨⟨true, { tRun tM with whl.regs.synccfg := 3 }, by decide +kernel⟩,
   ⟨true, tRun tM, by decide +kernel⟩,
   ⟨{ tRun tM with whl.sync := some ⟨none, some 16, 0, 0⟩ }, ⟨none, some 16, 0, 0⟩, by decide +kernel⟩,
   ⟨{ tRun tM with whl.regs.synccfg := 3 }, by decide +kernel⟩,
   ⟨tMgr, by decide +kernel⟩,
   ⟨tReq (zeros 4), tRun tM, by decide +kernel⟩⟩

theorem wit_LatchedReads :
    (∃ s : State, s.boot.fired = true) ∧
    (∃ s : State, s.boot.fired = false) ∧
    (∃ (who : Nat) (s : State), who < 3 ∧ (who ≠ 0 ∨ s.boot.fired = true)) ∧
    (∃ (who : Nat) (s : State) (h : Shadow), who < 3 ∧ tget s.rtc.shadows who = some h ∧ s.slot - h.at_ < msSlots) ∧
    (∃ (who : Nat) (s : State) (h : Shadow), who < 3 ∧ tget s.rtc.shadows who = some h ∧ msSlots ≤ s.slot - h.at_) ∧
    (∃ (who : Nat) (s : State), who < 3 ∧ tget s.rtc.shadows who = none) :=
  ⟨⟨tRun tM, by decide +kernel⟩,
   ⟨State.reset, by decide +kernel⟩,
   ⟨2, tRun tM, by decide +kernel⟩,
   ⟨2, { tM with slot := 24575, rtc.shadows := [(2, ⟨0, 0, 0⟩)] }, ⟨0, 0, 0⟩, by decide +kernel⟩,
   ⟨2, { tM with slot := 24576, rtc.shadows := [(2, ⟨0, 0, 0⟩)] }, ⟨0, 0, 0⟩, by decide +kernel⟩,
   ⟨2, tRun tM, by decide +kernel⟩⟩

theorem wit_ScheduledActions :
    (∃ (n : Nat) (s : State) (e : AngEnt), n ≠ 63 ∧ tget s.whl.ang n = some e ∧ e.en = true ∧ s.whl.run = true ∧ fireDue e s =
      false) ∧
    (∃ (n : Nat) (s : State) (e : AngEnt), n ≠ 63 ∧ tget s.whl.ang n = some e ∧ e.en = true ∧ s.whl.run = true ∧ fireDue e s =
      true ∧ e.kind = 1) ∧
    (∃ (n : Nat) (s : State) (e : AngEnt), n ≠ 63 ∧ tget s.whl.ang n = some e ∧ e.en = true ∧ s.whl.run = true ∧ fireDue e s =
      true ∧ e.kind = 2) ∧
    (∃ (n : Nat) (s : State) (e : AngEnt), n ≠ 63 ∧ tget s.whl.ang n = some e ∧ e.en = true ∧ s.whl.run = true ∧ fireDue e s =
      true ∧ e.kind = 3 ∧ metering s = true) ∧
    (∃ (n : Nat) (s : State) (e : AngEnt), n ≠ 63 ∧ tget s.whl.ang n = some e ∧ e.en = true ∧ s.whl.run = true ∧ e.every =
      false) ∧
    (∃ (n : Nat) (s : State) (e : AngEnt), n ≠ 63 ∧ tget s.whl.ang n = some e ∧ e.en = true ∧ s.whl.run = true ∧ e.every =
      true) ∧
    (∃ s : State, isManager s = true ∧ s.whl.run = true ∧ fireDue (angShown s 63) s = true) ∧
    (∃ (n : Nat) (s : State) (e : RtcEnt), tget s.whl.rtcAct n = some e ∧ e.armed = true ∧ ↑(2 * rtcTicks s.rtc) < rtcInstant
      s.rtc.s e) ∧
    (∃ (n : Nat) (s : State) (e : RtcEnt), tget s.whl.rtcAct n = some e ∧ e.armed = true ∧ rtcInstant s.rtc.s e ≤ ↑(2 *
      rtcTicks s.rtc) ∧ e.periodic = true) ∧
    (∃ (n : Nat) (s : State) (e : RtcEnt), tget s.whl.rtcAct n = some e ∧ e.armed = true ∧ rtcInstant s.rtc.s e ≤ ↑(2 *
      rtcTicks s.rtc) ∧ e.periodic = false) :=
  ⟨⟨62, { tRun tM with whl.ang := [(62, ⟨1, 0, false, true, true, 3, 31, 0⟩)] }, ⟨1, 0, false, true, true, 3, 31, 0⟩,
      by decide +kernel⟩,
   ⟨62, { tRun tM with whl.ang := [(62, ⟨0, 0, false, true, true, 1, 31, 0⟩)] }, ⟨0, 0, false, true, true, 1, 31, 0⟩,
      by decide +kernel⟩,
   ⟨62, { tRun tM with whl.ang := [(62, ⟨0, 0, false, true, true, 2, 31, 0⟩)] }, ⟨0, 0, false, true, true, 2, 31, 0⟩,
      by decide +kernel⟩,
   ⟨62, { tRun tM with whl.ang := [(62, ⟨0, 0, false, true, true, 3, 31, 0⟩)] }, ⟨0, 0, false, true, true, 3, 31, 0⟩,
      by decide +kernel⟩,
   ⟨62, { tRun tM with whl.ang := [(62, ⟨0, 0, false, true, true, 3, 31, 0⟩)] }, ⟨0, 0, false, true, true, 3, 31, 0⟩,
      by decide +kernel⟩,
   ⟨62, { tRun tM with whl.ang := [(62, ⟨0, 0, true, true, true, 3, 31, 0⟩)] }, ⟨0, 0, true, true, true, 3, 31, 0⟩,
      by decide +kernel⟩,
   ⟨tRun tMgr, by decide +kernel⟩,
   ⟨31, { tRun tM with whl.rtcAct := [(31, ⟨1, 0, 60, true, true, false, 0⟩)] }, ⟨1, 0, 60, true, true, false, 0⟩,
      by decide +kernel⟩,
   ⟨31, { tRun tM with whl.rtcAct := [(31, ⟨0, 0, 60, true, true, false, 0⟩)] }, ⟨0, 0, 60, true, true, false, 0⟩,
      by decide +kernel⟩,
   ⟨31, { tRun tM with whl.rtcAct := [(31, ⟨0, 0, 60, false, true, false, 0⟩)] }, ⟨0, 0, 60, false, true, false, 0⟩,
      by decide +kernel⟩⟩

theorem wit_ClockSetting :
    (∃ (r : Req) (s : State), ownRing0 16 r s ∧ zerosAt r.buf 1 3 = true ∧ zerosAt r.buf 14 2 = true ∧ s.rtc.staged = none ∧
      s.rtc.invalid = false ∧ rd r.buf 0 1 = 1 ∧ rdI r.buf 4 8 % 2 = 0 ∧ rd r.buf 12 2 = 0) ∧
    (∃ (r : Req) (s : State), ownRing0 16 r s ∧ zerosAt r.buf 1 3 = true ∧ zerosAt r.buf 14 2 = true ∧ s.rtc.staged = none ∧ rd
      r.buf 0 1 = 0 ∧ rd r.buf 11 1 = 0 ∧ rd r.buf 12 2 % 2 = 0 ∧ dateOk (rd r.buf 4 2) (rd r.buf 6 1) (rd r.buf 7 1) (rd r.buf
      8 1) (rd r.buf 9 1) (rd r.buf 10 1) = true) ∧
    (∃ (r : Req) (s : State) (g : Staged), ownRing0 16 r s ∧ zerosAt r.buf 1 3 = true ∧ zerosAt r.buf 14 2 = true ∧
      s.rtc.staged = some g ∧ rd r.buf 0 1 = 1 ∧ rdI r.buf 4 8 % 2 = 0 ∧ rd r.buf 12 2 = 0) ∧
    (∃ (g : Staged) (s : State), s.rtc.staged = some g ∧ (g.go = false ∨ s.rtc.oscRun = false)) ∧
    (∃ (g : Staged) (s : State), s.rtc.staged = some g ∧ g.go = true ∧ s.rtc.inReset = false ∧ s.rtc.oscRun = true ∧
      commitTicks s.rtc g.abs = none) ∧
    (∃ (g : Staged) (s : State) (n : Nat), s.rtc.staged = some g ∧ g.go = true ∧ s.rtc.inReset = false ∧ s.rtc.oscRun = true ∧
      commitTicks s.rtc g.abs = some n) ∧
    (∃ s : State, s.rtc.s + 1 = rtcRange ∧ s.rtc.pre = 32767 ∧ s.rtc.oscRun = true ∧ s.rtc.inReset = false) :=
  ⟨⟨tReq ([1, 0, 0, 0] ++ le 8 2 ++ zeros 4), { tM with rtc.invalid := false }, by decide +kernel⟩,
   ⟨tReq ([0, 0, 0, 0] ++ le 2 2399 ++ [12, 31, 23, 59, 59, 0] ++ le 2 65534 ++ zeros 2), tM, by decide +kernel⟩,
   ⟨tReq ([1, 0, 0, 0] ++ le 8 2 ++ zeros 4), { tM with rtc.staged := some ⟨false, none, true⟩ }, ⟨false, none, true⟩,
      by decide +kernel⟩,
   ⟨⟨true, none, false⟩, { tM with rtc.staged := some ⟨true, none, false⟩ }, by decide +kernel⟩,
   ⟨⟨false, none, true⟩, { tM with rtc.staged := some ⟨false, none, true⟩, rtc.ofs := BitVec.ofInt 64 (-4) },
      by decide +kernel⟩,
   ⟨⟨false, none, true⟩, { State.reset with rtc.staged := some ⟨false, none, true⟩, rtc.ofs := 2 }, 2, by decide +kernel⟩,
   ⟨{ State.reset with rtc.s := rtcRange - 1, rtc.pre := 32767 }, by decide +kernel⟩⟩

theorem wit_ClockService :
    (∃ s : State, s.rtc.oscRun = true ∧ mainPower s = false) ∧
    (∃ s : State, s.rtc.oscRun = true ∧ mainPower s = true ∧ bit (getBlk s 10).flive 1 = false) ∧
    (∃ s : State, s.rtc.oscRun = false ∧ mainPower s = true) ∧
    (∃ s : State, s.rtc.oscRun = false ∧ mainPower s = false) ∧
    (∃ s : State, mainPower s = true ∧ rndAway (↑(fld s.rtc.tcomp 7 0) * (BitVec.toInt s.cal.meas - (BitVec.ofNat 16 (fld
      s.rtc.tcomp 31 16)).toInt) * (BitVec.toInt s.cal.meas - (BitVec.ofNat 16 (fld s.rtc.tcomp 31 16)).toInt) * 4096)
      1000000000 ≤ 1023) ∧
    (∃ s : State, mainPower s = true ∧ 1023 < rndAway (↑(fld s.rtc.tcomp 7 0) * (BitVec.toInt s.cal.meas - (BitVec.ofNat 16
      (fld s.rtc.tcomp 31 16)).toInt) * (BitVec.toInt s.cal.meas - (BitVec.ofNat 16 (fld s.rtc.tcomp 31 16)).toInt) * 4096)
      1000000000) ∧
    (∃ s : State, mainPower s = true ∧ bit (getBlk s 10).flive 2 = false) ∧
    (∃ s : State, bit s.rtc.sqw 31 = true ∧ (getBall s (fld s.rtc.sqw 12 8)).func = fnSQW ∧ (metering s = true ∨ s.boot.st =
      BootSt.failstop)) ∧
    (∃ s : State, (bit s.rtc.sqw 31 = false ∨ (getBall s (fld s.rtc.sqw 12 8)).func ≠ fnSQW ∨ metering s = false ∧ s.boot.st ≠
      BootSt.failstop)) :=
  ⟨⟨{ State.reset with boot.st := .backup }, by decide +kernel⟩,
   ⟨tM, by decide +kernel⟩,
   ⟨{ tM with rtc.oscRun := false }, by decide +kernel⟩,
   ⟨{ State.reset with boot.st := .backup, rtc.oscRun := false }, by decide +kernel⟩,
   ⟨tM, by decide +kernel⟩,
   ⟨{ tM with rtc.tcomp := 0xFF, cal.meas := 2000 }, by decide +kernel⟩,
   ⟨tM, by decide +kernel⟩,
   ⟨{ tM with rtc.sqw := 0x80000000, pin.fb := [(0, { Init.ball with func := fnSQW })] }, by decide +kernel⟩,
   ⟨{ State.reset with boot.st := .backup }, by decide +kernel⟩⟩

theorem wit_EventInputs :
    (∃ (e : Nat) (rising : Bool) (s : State), e < 8 ∧ s.rtc.inReset = false ∧ bit s.rtc.evcfg (4 * e + 3) = true ∧ bit
      s.rtc.evLevel e = !rising ∧ (if rising = true then fld s.rtc.evcfg (4 * e + 2) (4 * e + 1) % 2 == 1 else decide (2 ≤ fld
      s.rtc.evcfg (4 * e + 2) (4 * e + 1))) = true ∧ s.rtc.fifo.length < 16) ∧
    (∃ (e : Nat) (rising : Bool) (s : State), e < 8 ∧ s.rtc.inReset = false ∧ bit s.rtc.evcfg (4 * e + 3) = true ∧ bit
      s.rtc.evLevel e = !rising ∧ (if rising = true then fld s.rtc.evcfg (4 * e + 2) (4 * e + 1) % 2 == 1 else decide (2 ≤ fld
      s.rtc.evcfg (4 * e + 2) (4 * e + 1))) = true ∧ 16 ≤ s.rtc.fifo.length) ∧
    (∃ (e : Nat) (rising : Bool) (s : State), e < 8 ∧ s.rtc.inReset = false ∧ bit s.rtc.evcfg (4 * e + 3) = true ∧ bit
      s.rtc.evLevel e = !rising ∧ (if rising = true then fld s.rtc.evcfg (4 * e + 2) (4 * e + 1) % 2 == 1 else decide (2 ≤ fld
      s.rtc.evcfg (4 * e + 2) (4 * e + 1))) = false) ∧
    (∃ (s : State) (e : EvEnt) (l : List EvEnt), metering s = true ∧ (s.nvs.logQueue.any fun (r : Rec) => r.typ == 176) = false
      ∧ s.rtc.fifo = e :: l ∧ s.rtc.dropped = 0) ∧
    (∃ (s : State) (e : EvEnt) (l : List EvEnt), metering s = true ∧ (s.nvs.logQueue.any fun (r : Rec) => r.typ == 176) = false
      ∧ s.rtc.fifo = e :: l ∧ s.rtc.dropped ≠ 0) ∧
    (∃ s : State, metering s = true ∧ (s.nvs.logQueue.any fun (r : Rec) => r.typ == 176) = true) :=
  ⟨⟨7, true, { tM with rtc.evcfg := 0xF0000000 }, by decide +kernel⟩,
   ⟨7, true, { tM with rtc.evcfg := 0xF0000000, rtc.fifo := List.replicate 16 tEv }, by decide +kernel⟩,
   ⟨7, true, { tM with rtc.evcfg := 0xC0000000 }, by decide +kernel⟩,
   ⟨{ tM with rtc.fifo := [tEv] }, tEv, [], by decide +kernel⟩,
   ⟨{ tM with rtc.fifo := [tEv], rtc.dropped := 1 }, tEv, [], by decide +kernel⟩,
   ⟨{ tM with nvs.logQueue := [⟨0xB0, 0, Stamp.zero, []⟩] }, by decide +kernel⟩⟩

theorem wit_ClockSources :
    (∃ s : State, running s = true ∧ s.afe.everLocked = false ∧ isWorker s = true ∧ s.boot.st = BootSt.fuse) ∧
    (∃ s : State, running s = true ∧ s.afe.everLocked = true ∧ s.afe.ringSrc = false ∧ isWorker s = true) ∧
    (∃ (p : Nat) (s : State), p < 2 ∧ s.afe.everLocked = true ∧ s.afe.ringSrc = true ∧ s.afe.hold = false ∧ s.afe.port = (p ==
      1) ∧ bit s.afe.rclk (1 - p) = true) ∧
    (∃ (p : Nat) (s : State), p < 2 ∧ s.afe.everLocked = true ∧ s.afe.ringSrc = true ∧ s.afe.hold = false ∧ s.afe.port = (p ==
      1) ∧ bit s.afe.rclk (1 - p) = false ∧ bit (getBlk s 1).flive 6 = false) ∧
    (∃ (p : Nat) (s : State), p < 2 ∧ s.afe.everLocked = true ∧ s.afe.ringSrc = true ∧ (s.afe.hold = true ∨ s.afe.port ≠ (p ==
      1))) ∧
    (∃ (p : Nat) (s : State), p < 2 ∧ s.afe.everLocked = true ∧ s.afe.ringSrc = true ∧ s.afe.hold = true) ∧
    (∃ s : State, s.afe.everLocked = true ∧ s.afe.ringSrc = false ∧ s.afe.mpllLock = true ∧ bit (getBlk s 1).flive 7 = false) ∧
    (∃ s : State, s.afe.everLocked = true ∧ s.afe.ringSrc = false ∧ s.afe.mpllLock = false) ∧
    (∃ s : State, s.flt.phase = FsPhase.none ∧ mainPower s = true ∧ s.boot.st ≠ BootSt.por) ∧
    (∃ s : State, s.flt.phase = FsPhase.none ∧ s.boot.st = BootSt.cal ∧ s.cal.st = CalSt.idle) :=
  ⟨⟨{ tB .fuse with boot.role := .worker }, by decide +kernel⟩,
   ⟨{ tW with afe.everLocked := true }, by decide +kernel⟩,
   ⟨0, { tW with afe.everLocked := true, afe.mpllLock := true, afe.ringSrc := true, afe.rclk := 2 }, by decide +kernel⟩,
   ⟨0, { tB .cal with boot.role := .worker, afe.everLocked := true, afe.mpllLock := true, afe.ringSrc := true, afe.rclk := 1 },
      by decide +kernel⟩,
   ⟨0, { tM with afe.everLocked := true, afe.hold := true, afe.ringSrc := true }, by decide +kernel⟩,
   ⟨0, { tM with afe.everLocked := true, afe.hold := true, afe.ringSrc := true }, by decide +kernel⟩,
   ⟨{ tB .cal with afe.everLocked := true, afe.mpllLock := true }, by decide +kernel⟩,
   ⟨{ tM with afe.everLocked := true }, by decide +kernel⟩,
   ⟨tM, by decide +kernel⟩,
   ⟨{ tB .cal with boot.role := .worker, afe.everLocked := true, afe.mpllLock := true, afe.ringSrc := true, afe.rclk := 1 },
      by decide +kernel⟩⟩

theorem wit_Shadows :
    (∃ (b : Nat) (s : State) (k : Nat), b < 3 ∧ (getShadow s b).st = ShSt.rotate ∧ (getShadow s b).dwell = 15 ∧ nextMirror s b
      (getShadow s b).mirror.toNat = some k) ∧
    (∃ (b : Nat) (s : State), b < 3 ∧ (getShadow s b).st = ShSt.rotate ∧ (getShadow s b).dwell.toNat < 15) ∧
    (∃ (b : Nat) (s : State), b < 3 ∧ (getShadow s b).st = ShSt.rotate ∧ turnLag s + 2 ≤ (getShadow s b).dwell.toNat ∧
      comparable b (getShadow s b).mirror.toNat s = true ∧ turnAgrees b (getShadow s b).mirror.toNat s = true) ∧
    (∃ (b : Nat) (s : State), b < 3 ∧ (getShadow s b).st = ShSt.rotate ∧ turnLag s + 2 ≤ (getShadow s b).dwell.toNat ∧
      comparable b (getShadow s b).mirror.toNat s = true ∧ turnAgrees b (getShadow s b).mirror.toNat s = false ∧ (getShadow s
      b).disagree.toNat < 3) ∧
    (∃ (b : Nat) (s : State), b < 3 ∧ (getShadow s b).st = ShSt.rotate ∧ turnLag s + 2 ≤ (getShadow s b).dwell.toNat ∧
      comparable b (getShadow s b).mirror.toNat s = true ∧ turnAgrees b (getShadow s b).mirror.toNat s = false ∧ 3 ≤ (getShadow
      s b).disagree.toNat) ∧
    (∃ (b : Nat) (s : State) (m : BitVec 4) (d : BitVec 3), b < 3 ∧ (getShadow s b).st = ShSt.rotate ∧ (getShadow s
      b).dwell.toNat < turnLag s ∧ (getShadow s b).prev = some (m, d) ∧ comparable b m.toNat s = true ∧ turnAgrees b m.toNat s
      = false ∧ 3 ≤ d.toNat) ∧
    (∃ (b : Nat) (s : State), b < 3 ∧ (getShadow s b).st = ShSt.selfcheck ∧ (getShadow s b).turn = 1) ∧
    (∃ (b : Nat) (s : State), b < 3 ∧ (getShadow s b).st = ShSt.selfcheck ∧ (getShadow s b).turn = 2) ∧
    (∃ (b : Nat) (s : State), b < 3 ∧ (getShadow s b).st = ShSt.selfcheck ∧ (getShadow s b).turn = 3 ∧ (getShadow s b).ok =
      true ∧ levelPassed (-8000) (getShadow s b) = true) ∧
    (∃ (b : Nat) (s : State), b < 3 ∧ (getShadow s b).st = ShSt.selfcheck ∧ (getShadow s b).turn = 3 ∧ ((getShadow s b).ok &&
      levelPassed (-8000) (getShadow s b)) = false) ∧
    (∃ (b : Nat) (s : State), b < 3 ∧ (getShadow s b).st = ShSt.reconnect ∧ (getShadow s b).turn = 4) ∧
    (∃ (b : Nat) (s : State), b < 3 ∧ (getShadow s b).st = ShSt.reconnect ∧ (getShadow s b).turn ≠ 4 ∧ substWritten s b = true) ∧
    (∃ (b : Nat) (s : State), b < 3 ∧ (getShadow s b).st = ShSt.reconnect ∧ (getShadow s b).turn ≠ 4 ∧ substWritten s b =
      false) ∧
    (∃ (b : Nat) (s : State), b < 3 ∧ (getShadow s b).st = ShSt.fade) :=
  ⟨⟨2, { tEnabled with afe.sh := [(2, { Init.shadowMod with dwell := 15, mirror := 15 })] }, 0, by decide +kernel⟩,
   ⟨2, tTurnPast, by decide +kernel⟩,
   ⟨2, tTurn 0 0 0, by decide +kernel⟩,
   ⟨2, tTurn 0 1000000 2, by decide +kernel⟩,
   ⟨2, tTurn 0 1000000 3, by decide +kernel⟩,
   ⟨2, tTurnPast, 0, 3, by decide +kernel⟩,
   ⟨2, tSh .selfcheck 1, by decide +kernel⟩,
   ⟨2, tSh .selfcheck 2, by decide +kernel⟩,
   ⟨2,
      { tRun tM with afe.sh := [(2, { Init.shadowMod with st := .selfcheck, turn := 3, ok := true, lvlSum := -805306368, lvlCnt := 208 })] },
      by decide +kernel⟩,
   ⟨2, tSh .selfcheck 3, by decide +kernel⟩,
   ⟨2, tSh .reconnect 4, by decide +kernel⟩,
   ⟨2, tSh .reconnect 5, by decide +kernel⟩,
   ⟨2, { tSh .reconnect 5 with nvs.groups := [{ tG with act := .record (substKey 2) 0 (.word 1) 1 }] }, by decide +kernel⟩,
   ⟨2, tSh .fade 5, by decide +kernel⟩⟩

theorem wit_FrontEndFaults :
    (∃ (m : Nat) (s : State), m < 65 ∧ s.dec.run = true ∧ modOn s m = true ∧ bit s.afe.stuck m = true) ∧
    (∃ (m : Nat) (s : State), m < 65 ∧ s.dec.run = true ∧ modOn s m = true ∧ bit s.afe.stuck m = false ∧ groupBusy s (modGroup
      m) = true) ∧
    (∃ (m : Nat) (s : State), m < 65 ∧ s.dec.run = true ∧ modOn s m = true ∧ bit s.afe.stuck m = false ∧ groupBusy s (modGroup
      m) = false ∧ 63 ≤ m) ∧
    (∃ (m : Nat) (s : State), m < 65 ∧ s.dec.run = true ∧ modOn s m = true ∧ bit s.afe.stuck m = false ∧ groupBusy s (modGroup
      m) = false ∧ 60 ≤ m ∧ m < 63 ∧ (getShadow s (m - 60)).st = ShSt.rotate) ∧
    (∃ (m : Nat) (s : State), m < 65 ∧ s.dec.run = true ∧ modOn s m = true ∧ bit s.afe.stuck m = false ∧ groupBusy s (modGroup
      m) = false ∧ 12 ≤ m ∧ m < 60 ∧ (getShadow s ((m - 12) / 16)).st = ShSt.rotate) ∧
    (∃ (m : Nat) (s : State), m < 65 ∧ s.dec.run = true ∧ modOn s m = true ∧ bit s.afe.stuck m = false ∧ groupBusy s (modGroup
      m) = false ∧ m < 12 ∧ bit (getBlk s 1).flive 4 = false) ∧
    (∃ (n : Nat) (s : State) (u : Nat × BitVec 24), s.flt.phase = FsPhase.none ∧ n < 69 ∧ (bankCrc (upsetBank u (getPair s
      n).old) ≠ if (getPair s n).active = true then (getPair s n).crcB else (getPair s n).crcA)) ∧
    (∃ (n : Nat) (s : State), s.flt.phase = FsPhase.none ∧ (bankCrc (getPair s n).old = if (getPair s n).active = true then
      (getPair s n).crcB else (getPair s n).crcA) ∧ n < 69) :=
  ⟨⟨64, { tRun tM with afe.stuck := 0x10000000000000000 }, by decide +kernel⟩,
   ⟨64, { tRun tM with cal.held := true, cal.group := 7 }, by decide +kernel⟩,
   ⟨64, tRun tM, by decide +kernel⟩,
   ⟨62, tRun tM, by decide +kernel⟩,
   ⟨59, tEnabled, by decide +kernel⟩,
   ⟨11, tRun (tB .cal), by decide +kernel⟩,
   ⟨68, setPair 68 { Init.pair with coefA := [1], crcA := bankCrc [1] } tM, (0, 1), by decide +kernel⟩,
   ⟨68, tM, by decide +kernel⟩⟩

theorem wit_TripComparators :
    (∃ (k : Nat) (s : State) (samples : Nat), k < 48 ∧ tripEn s.afe.trip k = true ∧ fld (tripCfgOf s.afe.trip k) 26 24 ≤
      samples) ∧
    (∃ (k : Nat) (s : State) (samples : Nat), k < 48 ∧ (tripEn s.afe.trip k = false ∨ samples < fld (tripCfgOf s.afe.trip k) 26
      24)) ∧
    (∃ (k : Nat) (s : State) (n : Nat), k < 48 ∧ n < 16 ∧ bit s.afe.trip.latch n = false ∧ tripOr s n = false ∧ bit
      s.afe.latched n = false) ∧
    (∃ (k : Nat) (s : State) (c : TripCfg), k < 48 ∧ s.afe.tripNext = some c) ∧
    (∃ (k : Nat) (s : State), k < 48 ∧ s.afe.tripNext = none) ∧
    (∃ (k : Nat) (s : State) (r : Req), k < 48 ∧ ownRing0 4 r s ∧ rd r.buf 0 2 ≠ 0 ∧ zerosAt r.buf 2 2 = true) ∧
    (∃ (k : Nat) (s : State) (mask : W16) (n : Nat), k < 48 ∧ n < 16 ∧ bit mask n = true ∧ tripOr s n = false) ∧
    (∃ (k : Nat) (s : State) (mask : W16) (n : Nat), k < 48 ∧ n < 16 ∧ bit mask n = false ∧ bit s.afe.latched n = true) :=
  ⟨⟨47, { tM with afe.trip := { Init.tripCfg with cfg := [(47, 0x87000000)] } }, 7, by decide +kernel⟩,
   ⟨47, { tM with afe.trip := { Init.tripCfg with cfg := [(47, 0x87000000)] } }, 6, by decide +kernel⟩,
   ⟨47, { tM with afe.trip := { Init.tripCfg with latch := 0 } }, 15, by decide +kernel⟩,
   ⟨47, { tM with afe.tripNext := some Init.tripCfg }, Init.tripCfg, by decide +kernel⟩,
   ⟨47, { tM with afe.trip := { Init.tripCfg with cfg := [(47, 0x80000000)], map := [(47, 0x8001)] } }, by decide +kernel⟩,
   ⟨47, tM, tReq [0, 0x80, 0, 0], by decide +kernel⟩,
   ⟨47, tM, 0x8000, 15, by decide +kernel⟩,
   ⟨47, { tM with afe.latched := 0x8000 }, 0, 15, by decide +kernel⟩⟩

theorem wit_DefinitionsTakeEffect :
    (∃ (c : Nat) (x : ChanRec) (s : State), c < 60 ∧ tget s.pnt.chanNext c = some x ∧ unwritten s (nvKey NvKind.channel c) =
      false ∧ (s.cal.held && s.cal.group.toNat == modGroup c) = false ∧ s.pnt.chanNext = [(c, x)]) ∧
    (∃ (c : Nat) (x : ChanRec) (s : State), c < 60 ∧ tget s.pnt.chanNext c = some x ∧ unwritten s (nvKey NvKind.channel c) =
      true) ∧
    (∃ (p : Nat) (d : PDef) (s : State), (getPt s p).next = some d ∧ unwritten s (nvKey NvKind.pointDef p) = false) ∧
    (∃ (p : Nat) (d : PDef) (s : State), (getPt s p).next = some d ∧ unwritten s (nvKey NvKind.pointDef p) = true) :=
  ⟨⟨11, { Init.chanRec with setup := 0x80 }, { tM with pnt.chanNext := [(11, { Init.chanRec with setup := 0x80 })] },
      by decide +kernel⟩,
   ⟨59, Init.chanRec,
      { tM with pnt.chanNext := [(59, Init.chanRec)], nvs.groups := [{ tG with act := .record (nvKey .channel 59) 0 (.word 1) 1 }] },
      by decide +kernel⟩,
   ⟨255, tDef, setPt 255 { Init.pt with next := some tDef } tM, by decide +kernel⟩,
   ⟨255, tDef, setPt 255 { Init.pt with next := some tDef }
      { tM with nvs.groups := [{ tG with act := .record (nvKey .pointDef 255) 0 (.word 1) 1 }] }, by decide +kernel⟩⟩

theorem wit_StreamsAndSamples :
    (∃ (m : Nat) (s : State), m < 65 ∧ s.dec.run = true ∧ (getStrm s m).rmsL ≤ (getStrm s m).rmsCnt) ∧
    (∃ (m : Nat) (s : State), m < 65 ∧ s.dec.run = true ∧ (getStrm s m).rmsCnt < (getStrm s m).rmsL) ∧
    (∃ (sel : List W32) (s : State), s.dec.tapNext = some sel) ∧
    (∃ s : State, s.dec.run = true ∧ ((List.range 63).any fun (m : Nat) => decide ((getStrm s m).fineN < s.pnt.alN + 1 + 4)) =
      false) ∧
    (∃ s : State, ((List.range 63).any fun (m : Nat) => decide ((getStrm s m).fineN < s.pnt.alN + 1 + 4)) = true) ∧
    (∃ (s : State) (u : RsTurn) (rest : List RsTurn), s.pnt.rs = u :: rest ∧ s.pnt.rsK ≠ 255 ∧ 8 ≤ rsAhead s (rsIndex u
      s.pnt.rsK).1) ∧
    (∃ (s : State) (u : RsTurn) (rest : List RsTurn), s.pnt.rs = u :: rest ∧ s.pnt.rsK = 255 ∧ 8 ≤ rsAhead s (rsIndex u 255).1) ∧
    (∃ (s : State) (u : RsTurn) (rest : List RsTurn), s.pnt.rs = u :: rest ∧ rsAhead s (rsIndex u s.pnt.rsK).1 < 8) :=
  ⟨⟨64, setStrm 64 { Init.strm with rmsCnt := 768 } (tRun tM), by decide +kernel⟩,
   ⟨64, tRun tM, by decide +kernel⟩,
   ⟨[0x80, 0, 0], { tRun tM with dec.tapNext := some [0x80, 0, 0] }, by decide +kernel⟩,
   ⟨{ tRun tM with pnt.alN := -23 }, by decide +kernel⟩,
   ⟨tRun tM, by decide +kernel⟩,
   ⟨{ tRun tM with pnt.rs := [tTurnAt true], pnt.rsK := 254, pnt.alN := 500, pnt.frozen := true }, tTurnAt true, [],
      by decide +kernel⟩,
   ⟨{ tRun tM with pnt.rs := [tTurnAt true], pnt.rsK := 255, pnt.alN := 500, pnt.frozen := true }, tTurnAt true, [],
      by decide +kernel⟩,
   ⟨{ tRun tM with pnt.rs := [tTurnAt true] }, tTurnAt true, [], by decide +kernel⟩⟩

theorem wit_Coefficients :
    (∃ (i : Nat) (s : State), i < 69 ∧ (getPair s i).armed = true ∧ (getPair s i).fading = false ∧ feedIsolated s i = false) ∧
    (∃ (i : Nat) (s : State), i < 69 ∧ (getPair s i).armed = true ∧ (getPair s i).fading = false ∧ feedIsolated s i = true) ∧
    (∃ (i : Nat) (s : State), i < 69 ∧ ((getPair s i).armed = false ∨ (getPair s i).fading = true)) ∧
    (∃ (i : Nat) (s : State), i < 69 ∧ (getPair s i).fading = true ∧ fadeOver i s = true) ∧
    (∃ (i : Nat) (s : State), i < 69 ∧ (getPair s i).fading = true ∧ fadeOver i s = false) ∧
    (∃ (i : Nat) (s : State), i < 69 ∧ (getPair s i).deferred = true) ∧
    (∃ (r : Req) (s : State), metering s = true ∧ cmdDest r s = Dest.own ∧ rd r.buf 1 1 ≤ 4 ∧ rd r.buf 3 1 ≤ 7 ∧ 200 ≤
      r.buf.length ∧ rd r.buf 0 1 = 1 ∧ rd r.buf 1 1 = 0 ∧ rd r.buf 2 1 = 0 ∧ rd r.buf 4 2 = 47 ∧ crcOk r.buf 8 (List.take 188
      (List.drop 12 r.buf)) = true ∧ coefRange (List.map (fun (i : Nat) => rdI r.buf (12 + 4 * i) 4) (List.range 47)) = true) ∧
    (∃ (r : Req) (s : State) (c : List Int), metering s = true ∧ cmdDest r s = Dest.own ∧ rd r.buf 1 1 ≤ 4 ∧ rd r.buf 3 1 ≤ 7 ∧
      12 ≤ r.buf.length ∧ rd r.buf 0 1 = 0 ∧ rd r.buf 2 1 = 1 ∧ rd r.buf 4 2 = 0 ∧ rd r.buf 8 4 = 0 ∧ f3Stored s (rd r.buf 3 1)
      = some c ∧ coefRange c = true ∧ f3Sum c = 8388608) :=
  ⟨⟨68, setPair 68 { Init.pair with armed := true } tM, by decide +kernel⟩,
   ⟨68, { setPair 68 { Init.pair with armed := true } tM with afe.iso := 0xFFF }, by decide +kernel⟩,
   ⟨68, setPair 68 { Init.pair with fading := true } tM, by decide +kernel⟩,
   ⟨68, setWs 62 { Init.wstream with fadeK := 64 } (setPair 68 { Init.pair with fading := true } tM), by decide +kernel⟩,
   ⟨68, setPair 68 { Init.pair with fading := true } tM, by decide +kernel⟩,
   ⟨68, setPair 68 { Init.pair with deferred := true } tM, by decide +kernel⟩,
   ⟨tReq tTapRec, tM, by decide +kernel, by decide +kernel, by decide +kernel, by decide +kernel, by decide +kernel,
      by decide +kernel, by decide +kernel, by decide +kernel, by decide +kernel, tTapRec_crc, by decide +kernel⟩,
   ⟨tReq ([0, 4, 1, 7] ++ zeros 8), { tM with nvs.recs := [(2 * nvKey .f3set 7, ⟨.bytes tF3Rec, 1, false⟩)] }, (List.range
      48).map (fun i => rdI tF3Rec (8 + 4 * i) 4), by decide +kernel⟩⟩

theorem wit_StoredCommands :
    (∃ (r : Req) (s : State), gasped s = false ∧ ownRing0 16 r s ∧ crcOk r.buf 12 (List.take 12 r.buf) = true ∧ chanBad r.buf =
      false ∧ (bit (chanRecOf r.buf).setup 7 = true ∨ cfgEn s.afe.chanNext (rd r.buf 0 1) = false ∨ (List.any s.pnt.pts fun (p
      : Nat × Pt) => Option.any (fun (x : PDef) => usesChan x (rd r.buf 0 1)) p.2.dfn || Option.any (fun (x : PDef) => usesChan
      x (rd r.buf 0 1)) p.2.next) = false) ∧ ((chanRecOf r.buf).adj = (chanNextOf s (rd r.buf 0 1)).adj ∨ pfBusy s (rd r.buf 0
      1) = false) ∧ writeForbidden s (nvKey NvKind.channel (rd r.buf 0 1)) = false) ∧
    (∃ (r : Req) (s : State), gasped s = false ∧ ownRing0 32 r s ∧ crcOk r.buf 28 (List.take 28 r.buf) = true ∧ pdefBad r.buf =
      false ∧ ((pdefOf r.buf).legs.any fun (l : Leg) => !cfgEn s.afe.chanNext l.v || !cfgEn s.afe.chanNext (iIdx l.i)) = false
      ∧ dupCurrent (pdefOf r.buf).legs = false ∧ writeForbidden s (nvKey NvKind.pointDef (rd r.buf 0 1)) = false) ∧
    (∃ (r : Req) (s : State), gasped s = false ∧ ownRing0 200 r s ∧ crcOk r.buf 4 (List.drop 8 r.buf) = true ∧ 1 ≤ rd r.buf 0 1
      ∧ rd r.buf 0 1 ≤ 7 ∧ zerosAt r.buf 1 3 = true ∧ coefRange (List.map (fun (i : Nat) => rdI r.buf (8 + 4 * i) 4)
      (List.range 48)) = true ∧ f3Sum (List.map (fun (i : Nat) => rdI r.buf (8 + 4 * i) 4) (List.range 48)) = 8388608 ∧
      writeForbidden s (nvKey NvKind.f3set (rd r.buf 0 1)) = false) ∧
    (∃ (r : Req) (s : State), gasped s = false ∧ ownRing0 16 r s ∧ crcOk r.buf 12 (List.take 12 r.buf) = true ∧ cfBad r.buf =
      false ∧ (cfEn (cfWord r.buf) = true → (getPt s (cfPoint (cfWord r.buf))).dfn.isSome = true ∧ claimOk s (cfBall (cfWord
      r.buf)) fnCF (rd r.buf 0 1) = true ∧ ((getCf s (rd r.buf 0 1)).gen.isSome = true ∨ (freeGen s).isSome = true)) ∧
      writeForbidden s (cfKey (rd r.buf 0 1)) = false) ∧
    (∃ (r : Req) (s : State), gasped s = false ∧ ownRing0 32 r s ∧ capBad s r.buf = false ∧ (s.pq.cap.state = 0 ∨
      s.pq.cap.owner.toNat ≠ rd r.buf 0 1) ∧ writeForbidden s (capKey (rd r.buf 0 1)) = false) ∧
    (∃ (r : Req) (s : State), gasped s = false ∧ ownRing0 48 r s ∧ subBad r.buf = false ∧ writeForbidden s (subKey (rd r.buf 0
      1)) = false) ∧
    (∃ (r : Req) (s : State), ownRing0 200 r s ∧ crcOk r.buf 4 (List.drop 8 r.buf) = true ∧ 1 ≤ rd r.buf 0 1 ∧ rd r.buf 0 1 ≤ 7
      ∧ zerosAt r.buf 1 3 = true ∧ coefRange (List.map (fun (i : Nat) => rdI r.buf (8 + 4 * i) 4) (List.range 48)) = true ∧
      f3Sum (List.map (fun (i : Nat) => rdI r.buf (8 + 4 * i) 4) (List.range 48)) = 8388608 ∧ writeForbidden s (nvKey
      NvKind.f3set (rd r.buf 0 1)) = true) ∧
    (∃ (key : Nat) (s : State), writeForbidden s key = true) :=
  ⟨⟨tReq (tCrc ([59, 0x80, 0, 0] ++ le 4 1 ++ le 4 0x800000)), tM, by decide +kernel⟩,
   ⟨tReq (tCrc ([255, 1, 7, 15] ++ zeros 8 ++ [12, 6, 0, 0, 11, 47] ++ zeros 10)),
      { tM with afe.chanNext.icfg := List.replicate 6 0x88888888 }, by decide +kernel⟩,
   ⟨tReq tF3Rec, tM, by decide +kernel, by decide +kernel, tF3Rec_crc, by decide +kernel⟩,
   ⟨tReq (tCrc ([7, 0, 255, 7] ++ le 4 1000000 ++ [80, 0, 0, 0])), tM, by decide +kernel⟩,
   ⟨tReq ([7, 0, 0, 0] ++ zeros 4 ++ le 8 1 ++ le 4 1 ++ le 4 0 ++ zeros 8), tM, by decide +kernel⟩,
   ⟨tReq ([15, 3, 3, 1] ++ zeros 4 ++ le 8 15 ++ zeros 32), tM, by decide +kernel⟩,
   ⟨tReq tF3Rec, { tM with nvs.prot := 3 }, by decide +kernel, tF3Rec_crc, by decide +kernel⟩,
   ⟨0, { tM with nvs.prot := 3 }, by decide +kernel⟩⟩

theorem wit_AccountingAndPulses :
    (∃ (u : RsTurn) (s : State), s.pnt.turnDone = some u ∧ u.live = true ∧ metering s = true ∧ s.pnt.frozen = false) ∧
    (∃ (u : RsTurn) (s : State), s.pnt.turnDone = some u ∧ (u.live = false ∨ metering s = false ∨ s.pnt.frozen = true)) ∧
    (∃ (n : Nat) (s : State), n < 8 ∧ (getCf s n).live = true ∧ (getCf s n).high = false ∧ 0 < (getCf s n).pend ∧ Option.any
      (fun (g : Nat) => decide (g < 12288) || decide (g < 2 * (getCf s n).lastHigh)) (Option.map (fun (t : Nat) => s.slot - t)
      (getCf s n).started) = false) ∧
    (∃ (n : Nat) (s : State), n < 8 ∧ ((getCf s n).live = false ∨ (getCf s n).high = true ∨ (getCf s n).pend = 0 ∨ Option.any
      (fun (g : Nat) => decide (g < 12288) || decide (g < 2 * (getCf s n).lastHigh)) (Option.map (fun (t : Nat) => s.slot - t)
      (getCf s n).started) = true)) ∧
    (∃ (n : Nat) (s : State), n < 8 ∧ (getCf s n).high = true) ∧
    (∃ (n : Nat) (s : State) (w k : W32), n < 8 ∧ (getCf s n).high = false ∧ (getCf s n).next = some (w, k) ∧ unwritten s
      (cfKey n) = false) ∧
    (∃ (n : Nat) (s : State), n < 8 ∧ (getCf s n).next.isSome = true ∧ ((getCf s n).high = true ∨ unwritten s (cfKey n) =
      true)) ∧
    (∃ (n : Nat) (s : State), n < 8 ∧ s.flt.phase = FsPhase.none) :=
  ⟨⟨tTurnAt true, { tM with pnt.turnDone := some (tTurnAt true) }, by decide +kernel⟩,
   ⟨tTurnAt false, { tM with pnt.turnDone := some (tTurnAt false) }, by decide +kernel⟩,
   ⟨7, setCf 7 { Init.cf with live := true, pend := 1 } tM, by decide +kernel⟩,
   ⟨7, setCf 7 { Init.cf with live := true } tM, by decide +kernel⟩,
   ⟨7, setCf 7 { Init.cf with live := true, high := true, started := some 0 } tM, by decide +kernel⟩,
   ⟨7, setCf 7 { Init.cf with next := some (0x80000000, 1) } tM, 0x80000000, 1, by decide +kernel⟩,
   ⟨7, setCf 7 { Init.cf with high := true, next := some (0x80000000, 1) } tM, by decide +kernel⟩,
   ⟨7, setCf 7 { Init.cf with live := true, pend := 1 } tM, by decide +kernel⟩⟩

theorem wit_AuxiliaryInputs :
    (∃ (a : Nat) (s : State), a < 2 ∧ axMode s.afe.axcfg a ≠ 0 ∧ axDwell s a ≤ (getMux s a).n ∧ axMode s.afe.axcfg a = 2 ∧
      axNextIn (axList s a) (getMux s a).cur.toNat ≠ (getMux s a).cur.toNat) ∧
    (∃ (a : Nat) (s : State), a < 2 ∧ axMode s.afe.axcfg a ≠ 0 ∧ axDwell s a ≤ (getMux s a).n ∧ (axMode s.afe.axcfg a ≠ 2 ∨
      axNextIn (axList s a) (getMux s a).cur.toNat = (getMux s a).cur.toNat)) ∧
    (∃ (a : Nat) (s : State), a < 2 ∧ (axMode s.afe.axcfg a = 0 ∨ (getMux s a).n < axDwell s a)) ∧
    (∃ (a : Nat) (s : State) (c l0 l1 : W32), a < 2 ∧ s.afe.axNext = some (c, l0, l1)) ∧
    (∃ (a : Nat) (s : State), a < 2 ∧ s.afe.axNext = none) :=
  ⟨⟨1, { tM with afe.axcfg := 0x0202, afe.axscan1 := 0x80 }, by decide +kernel⟩,
   ⟨1, { tM with afe.axcfg := 0x0101, afe.axscan1 := 0x00600080, afe.mux := [(1, { Init.auxMux with n := 96 })] },
      by decide +kernel⟩,
   ⟨1, { tM with afe.axcfg := 0x0101, afe.mux := [(1, { Init.auxMux with cnt := 1 })] }, by decide +kernel⟩,
   ⟨1, { tM with afe.axNext := some (0x0101, 1, 0xFF) }, 0x0101, 1, 0xFF, by decide +kernel⟩,
   ⟨1, { tM with afe.axcfg := 0x0202, afe.axscan1 := 0x80 }, by decide +kernel⟩⟩

theorem wit_CapturesAndStream :
    (∃ (r : Req) (s : State), ownRing0 4 r s ∧ capCmdBad s r.buf = false ∧ s.pq.cap.state = 0) ∧
    (∃ (r : Req) (s : State), ownRing0 4 r s ∧ capCmdBad s r.buf = false ∧ s.pq.cap.state = 1 ∧ s.pq.cap.owner.toNat = rd r.buf
      0 1) ∧
    (∃ (r : Req) (s : State), ownRing0 4 r s ∧ capCmdBad s r.buf = false ∧ s.pq.cap.state ≠ 0 ∧ s.pq.cap.owner.toNat = rd r.buf
      0 1) ∧
    (∃ (n : Nat) (s : State) (t : Int) (p : W64), n < 8 ∧ (getReq s n).en = true ∧ (getReq s n).trigger ≠ 0 ∧ s.pq.cap.state =
      1 ∧ s.pq.cap.owner.toNat = n ∧ tget s.pq.cand (getReq s n).trigger.toNat = some (t, p)) ∧
    (∃ (n : Nat) (s : State), n < 8 ∧ (getReq s n).en = true ∧ (getReq s n).trigger ≠ 0 ∧ (s.pq.cap.state ≠ 1 ∨
      s.pq.cap.owner.toNat ≠ n)) ∧
    (∃ s : State, s.pq.cap.state = 2 ∧ (s.pq.cap.stop.isSome = true ∨ ∀ c < 64, bit (capOwner s).cmask c = true → postDone
      s.pq.cap.trig (BitVec.toNat (capOwner s).post) (tgetD s.pq.cap.ch c []) = true)) ∧
    (∃ (r : Req) (s : State), metering s = true ∧ r.buf.length = 16 ∧ rd r.buf 0 1 ≤ 3 ∧ zerosAt r.buf 1 7 = true ∧ maskOk s
      (rd r.buf 0 1) (BitVec.ofNat 64 (rd r.buf 8 8)) = true ∧ popCount (BitVec.ofNat 64 (rd r.buf 8 8)) * wordLen (rd r.buf 0
      1) * srcRate s (rd r.buf 0 1) ≤ 8000000 ∧ s.hif.stream.run = false) ∧
    (∃ (r : Req) (s : State), metering s = true ∧ r.buf.length = 4 ∧ zerosAt r.buf 0 4 = true ∧ s.hif.stream.run = true) ∧
    (∃ (r : Req) (s : State), metering s = true ∧ 64 + max 1 (instLen s.hif.stream) ≤ r.buf.length ∧ r.via = Via.host ∧
      (getRing s 15).bufs = [] ∧ s.hif.stream.run = true ∧ s.hif.stream.store = []) :=
  ⟨⟨tReq [7, 0, 0, 0], tCap 0, by decide +kernel⟩,
   ⟨tReq [7, 0, 0, 0], tCap 1, by decide +kernel⟩,
   ⟨tReq [7, 0, 0, 0], tCap 3, by decide +kernel⟩,
   ⟨7, { tCap 1 with pq.cand := [(1, (0, 0))] }, 0, 0, by decide +kernel⟩,
   ⟨7, tCap 0, by decide +kernel⟩,
   ⟨{ tCap 2 with pq.cap.stop := some 0 }, by decide +kernel⟩,
   ⟨tReq ([0] ++ zeros 7 ++ le 8 (2 ^ 62 - 1)), tM, by decide +kernel⟩,
   ⟨tReq (zeros 4), { tM with hif.stream := { Init.stream with run := true } }, by decide +kernel⟩,
   ⟨tReq (zeros 65), { tM with hif.stream := { Init.stream with run := true } }, by decide +kernel⟩⟩

theorem wit_CaptureRecordForm :
    (∃ (r : Req) (s : State), metering s = true ∧ r.buf.length ≠ 4) ∧
    (∃ (r : Req) (s : State), metering s = true ∧ r.buf.length = 4 ∧ cmdDest r s = Dest.own ∧ (7 < rd r.buf 0 1 ∨ zerosAt r.buf
      1 3 = false)) :=
  ⟨⟨tReq [7, 0, 0, 0, 0], tM, by decide +kernel⟩,
   ⟨tReq [8, 0, 0, 0], tM, by decide +kernel⟩⟩

theorem wit_QualityWindows :
    (∃ s : State, s.pq.win.active = true ∧ (winTurns s ≤ s.pq.win.turns ∨ s.pq.win.short = true)) ∧
    (∃ s : State, (s.pq.win.active = false ∨ s.pq.win.turns < winTurns s ∧ s.pq.win.short = false)) ∧
    (∃ (s : State) (n : Nat), n < 12 ∧ tapEn s n = true ∧ 1920 ≤ (getTap s n).smps.length ∧ metering s = true) ∧
    (∃ (s : State) (u : RsTurn) (k : Nat), newestTurn s = some (u, k) ∧ (k = 0 ∨ k = 128) ∧ u.live = true ∧ 256 ≤ (getWs s
      0).prev.length) ∧
    (∃ (s : State) (c : W32) (u : List W32) (t0 t1 : W32), s.pq.next = some (c, u, t0, t1)) ∧
    (∃ s : State, s.pq.next = none) :=
  ⟨⟨{ tM with pq.win := { Init.hwin with active := true, turns := 10 } }, by decide +kernel⟩,
   ⟨{ tM with dec.tapsel := [0, 0, 0x80000000], dec.tap := [(11, ⟨0, List.replicate 1920 ⟨1, 0⟩, none, false⟩)] },
      by decide +kernel⟩,
   ⟨{ tM with dec.tapsel := [0, 0, 0x80000000], dec.tap := [(11, ⟨0, List.replicate 1920 ⟨1, 0⟩, none, false⟩)] }, 11,
      by decide +kernel⟩,
   ⟨{ setWs 0 { Init.wstream with prev := List.replicate 256 ⟨1, 0⟩ } tM with pnt.rs := [tTurnAt true], pnt.rsK := 129 },
      tTurnAt true, 128, by decide +kernel⟩,
   ⟨{ tM with pq.next := some (1, [1, 2, 3, 4], 2, 3) }, 1, [1, 2, 3, 4], 2, 3, by decide +kernel⟩,
   ⟨{ tM with pq.win := { Init.hwin with active := true, turns := 10 } }, by decide +kernel⟩⟩

theorem wit_PowerUpCalibration :
    (∃ s : State, s.boot.st = BootSt.cal ∧ s.cal.st = CalSt.idle ∧ s.afe.vrefOk = true ∧ s.afe.mpllLock = true ∧ s.afe.hold =
      false) ∧
    (∃ (s : State) (g m : Nat), g < 8 ∧ s.cal.st = CalSt.powerup ∧ (getGrp s g).done = false ∧ (getGrp s g).gap = false ∧
      (getGrp s g).todo = [m] ∧ (getCalMod s m).lvl < 3) ∧
    (∃ (s : State) (g m : Nat), g < 8 ∧ s.cal.st = CalSt.powerup ∧ (getGrp s g).done = false ∧ (getGrp s g).gap = false ∧
      (getGrp s g).todo = [m] ∧ 3 ≤ (getCalMod s m).lvl ∧ (judgeCal (getCalMod s m)).ok = true) ∧
    (∃ (s : State) (g m : Nat), g < 8 ∧ s.cal.st = CalSt.powerup ∧ (getGrp s g).done = false ∧ (getGrp s g).gap = false ∧
      (getGrp s g).todo = [m] ∧ 3 ≤ (getCalMod s m).lvl ∧ (judgeCal (getCalMod s m)).ok = false ∧ (getGrp s g).attempt < 3) ∧
    (∃ (s : State) (g m : Nat), g < 8 ∧ s.cal.st = CalSt.powerup ∧ (getGrp s g).done = false ∧ (getGrp s g).gap = false ∧
      (getGrp s g).todo = [m] ∧ 3 ≤ (getCalMod s m).lvl ∧ (judgeCal (getCalMod s m)).ok = false ∧ 3 ≤ (getGrp s g).attempt) ∧
    (∃ (s : State) (g : Nat), g < 8 ∧ (getGrp s g).gap = true) ∧
    (∃ s : State, s.cal.timer = true) ∧
    (∃ (s : State) (g : Nat), s.cal.trimDue.contains g = true ∧ trimHeld s g = false) ∧
    (∃ (s : State) (g : Nat), (s.cal.trimDue.contains g = false ∨ trimHeld s g = true)) :=
  ⟨⟨{ tB .cal with afe.mpllLock := true }, by decide +kernel⟩,
   ⟨{ tB .cal with cal.st := .powerup, cal.grps := [(7, { Init.calGrp with todo := [64] })] }, 7, 64, by decide +kernel⟩,
   ⟨{ tB .cal with cal.st := .powerup, cal.grps := [(7, { Init.calGrp with todo := [64] })], cal.mods := [(64, { Init.calMod with lvl := 3, sp := 644245094, sn := -644245094 })] },
      7, 64, by decide +kernel⟩,
   ⟨{ tB .cal with cal.st := .powerup, cal.grps := [(7, { Init.calGrp with todo := [64], attempt := 2 })], cal.mods := [(64, { Init.calMod with lvl := 3 })] },
      7, 64, by decide +kernel⟩,
   ⟨{ tB .cal with cal.st := .powerup, cal.grps := [(7, { Init.calGrp with todo := [64], attempt := 3 })], cal.mods := [(64, { Init.calMod with lvl := 3 })] },
      7, 64, by decide +kernel⟩,
   ⟨{ tB .cal with cal.st := .powerup, cal.grps := [(7, { Init.calGrp with gap := true })] }, 7, by decide +kernel⟩,
   ⟨{ tM with cal.timer := true }, by decide +kernel⟩,
   ⟨{ tM with cal.trimDue := [7] }, 7, by decide +kernel⟩,
   ⟨{ tB .cal with cal.st := .powerup, cal.grps := [(7, { Init.calGrp with todo := [64] })] }, 7, by decide +kernel⟩⟩

theorem wit_BankCalibration :
    (∃ (s : State) (r : Req), ownRing0 8 r s ∧ rd r.buf 0 1 ≤ 7 ∧ zerosAt r.buf 1 7 = true ∧ (measurable s (rd r.buf 0
      1)).isEmpty = false ∧ s.cal.st = CalSt.idle) ∧
    (∃ (s : State) (r : Req), ownRing0 8 r s ∧ rd r.buf 0 1 ≤ 7 ∧ zerosAt r.buf 1 7 = true ∧ (measurable s (rd r.buf 0
      1)).isEmpty = false ∧ s.cal.st ≠ CalSt.idle) ∧
    (∃ s : State, s.cal.st = CalSt.waitB0 ∧ shadowBusy s s.cal.group.toNat = false) ∧
    (∃ s : State, s.cal.st = CalSt.waitB0 ∧ shadowBusy s s.cal.group.toNat = true) ∧
    (∃ s : State, s.cal.st = CalSt.measure ∧ s.cal.isol = false) ∧
    (∃ s : State, s.cal.st = CalSt.measure ∧ s.cal.isol = true ∧ levelsDone s s.cal.group.toNat = true) ∧
    (∃ s : State, s.cal.st = CalSt.measure ∧ s.cal.isol = true ∧ levelsDone s s.cal.group.toNat = false) ∧
    (∃ s : State, s.cal.st = CalSt.waitWrite) ∧
    (∃ (s : State) (w : Waiter), s.cal.st = CalSt.release ∧ s.cal.waiter = some w) :=
  ⟨⟨tM, tReq [7, 0, 0, 0, 0, 0, 0, 0], by decide +kernel⟩,
   ⟨{ tM with cal.st := .release }, tReq [7, 0, 0, 0, 0, 0, 0, 0], by decide +kernel⟩,
   ⟨{ tM with cal.st := .waitB0, cal.group := 7 }, by decide +kernel⟩,
   ⟨{ tSh .selfcheck 1 with cal.st := .waitB0, cal.group := 2 }, by decide +kernel⟩,
   ⟨{ tM with cal.st := .measure, cal.group := 7 }, by decide +kernel⟩,
   ⟨{ tM with cal.st := .measure, cal.group := 7, cal.isol := true }, by decide +kernel⟩,
   ⟨{ tM with cal.st := .measure, cal.group := 7, cal.isol := true, cal.grps := [(7, { Init.calGrp with todo := [64] })] },
      by decide +kernel⟩,
   ⟨{ tM with cal.st := .waitWrite, cal.group := 7, cal.held := true }, by decide +kernel⟩,
   ⟨{ tM with cal.st := .release, cal.group := 7, cal.held := true, cal.waiter := some (reqWaiter (tReq []) 0 0x18) },
      reqWaiter (tReq []) 0 0x18, by decide +kernel⟩⟩

theorem wit_TariffRequests :
    (∃ (r : Req) (s : State), metering s = true ∧ cmdDest r s = Dest.own ∧ loadLenOk r.buf r.buf.length = true ∧ crcOk r.buf 4
      (List.drop 8 r.buf) = true ∧ rd r.buf 2 2 ≤ 4095 ∧ rd r.buf 0 2 + rd r.buf 2 2 ≤ 8192 ∧ s.trf.armed = none ∧ protForbids
      s.nvs.prot 2 = false ∧ gasped s = false) ∧
    (∃ (r : Req) (s : State), metering s = true ∧ cmdDest r s = Dest.own ∧ loadLenOk r.buf r.buf.length = true ∧ crcOk r.buf 4
      (List.drop 8 r.buf) = true ∧ rd r.buf 2 2 ≤ 4095 ∧ rd r.buf 0 2 + rd r.buf 2 2 ≤ 8192 ∧ s.trf.armed = none ∧ protForbids
      s.nvs.prot 2 = false ∧ gasped s = true) ∧
    (∃ (r : Req) (s : State), metering s = true ∧ cmdDest r s = Dest.own ∧ loadLenOk r.buf r.buf.length = true ∧ crcOk r.buf 4
      (List.drop 8 r.buf) = true ∧ rd r.buf 2 2 ≤ 4095 ∧ rd r.buf 0 2 + rd r.buf 2 2 ≤ 8192 ∧ s.trf.armed.isSome = true) ∧
    (∃ (r : Req) (s : State), metering s = true ∧ cmdDest r s = Dest.own ∧ loadLenOk r.buf r.buf.length = true ∧ crcOk r.buf 4
      (List.drop 8 r.buf) = true ∧ 8193 ≤ rd r.buf 0 2 ∧ rd r.buf 2 2 ≤ 511 ∧ rd r.buf 0 2 + rd r.buf 2 2 ≤ 12288 ∧ protForbids
      s.nvs.prot 2 = false ∧ gasped s = false ∧ controlBody (putEntries s.trf.active (loadEntries r.buf) (editedControl s))
      s.trf.active = true) ∧
    (∃ (r : Req) (s : State), metering s = true ∧ cmdDest r s = Dest.own ∧ r.buf.length = 12 ∧ gasped s = false ∧ rd r.buf 0 4
      = 4294967295) ∧
    (∃ (r : Req) (s : State), metering s = true ∧ cmdDest r s = Dest.own ∧ r.buf.length = 12 ∧ gasped s = false ∧ rd r.buf 0 4
      ≠ 4294967295 ∧ s.rtc.invalid = true) ∧
    (∃ (r : Req) (s : State), metering s = true ∧ cmdDest r s = Dest.own ∧ r.buf.length = 12 ∧ gasped s = false ∧ rd r.buf 0 4
      ≠ 4294967295 ∧ s.rtc.invalid = false ∧ rd r.buf 4 4 = imgId s !s.trf.active ∧ rd r.buf 8 4 = imgCrc s !s.trf.active ∧
      (imageValid s !s.trf.active) = true ∧ (controlValid s !s.trf.active) = true ∧ ((definedPts s).all fun (p : Nat) => calOn
      s (!s.trf.active) (ptCal s p)) = true ∧ rd r.buf 0 4 = 0) ∧
    (∃ (r : Req) (s : State), metering s = true ∧ cmdDest r s = Dest.own ∧ r.buf.length = 12 ∧ gasped s = false ∧ rd r.buf 0 4
      ≠ 4294967295 ∧ s.rtc.invalid = false ∧ rd r.buf 4 4 = imgId s !s.trf.active ∧ rd r.buf 8 4 = imgCrc s !s.trf.active ∧
      (imageValid s !s.trf.active) = true ∧ (controlValid s !s.trf.active) = true ∧ ((definedPts s).all fun (p : Nat) => calOn
      s (!s.trf.active) (ptCal s p)) = true ∧ rd r.buf 0 4 ≠ 0 ∧ s.rtc.s < fullSec s (BitVec.ofNat 32 (rd r.buf 0 4))) ∧
    (∃ (r : Req) (s : State), metering s = true ∧ cmdDest r s = Dest.own ∧ r.buf.length = 12 ∧ gasped s = false ∧ rd r.buf 0 4
      ≠ 4294967295 ∧ s.rtc.invalid = false ∧ rd r.buf 4 4 = imgId s !s.trf.active ∧ rd r.buf 8 4 = imgCrc s !s.trf.active ∧
      (imageValid s !s.trf.active) = true ∧ (controlValid s !s.trf.active) = true ∧ ((definedPts s).all fun (p : Nat) => calOn
      s (!s.trf.active) (ptCal s p)) = true ∧ rd r.buf 0 4 ≠ 0 ∧ fullSec s (BitVec.ofNat 32 (rd r.buf 0 4)) ≤ s.rtc.s) ∧
    (∃ (r : Req) (s : State) (p : Nat), metering s = true ∧ cmdDest r s = Dest.own ∧ r.buf.length = 4 ∧ rd r.buf 0 2 = p ∧ p ≠
      65535 ∧ zerosAt r.buf 2 2 = true ∧ (getPt s p).dfn = none) ∧
    (∃ (r : Req) (s : State) (p : Nat), metering s = true ∧ cmdDest r s = Dest.own ∧ r.buf.length = 4 ∧ rd r.buf 0 2 = p ∧ p ≠
      65535 ∧ zerosAt r.buf 2 2 = true ∧ (getPt s p).dfn.isSome = true ∧ bwrite s = true) ∧
    (∃ (r : Req) (s : State) (p : Nat), metering s = true ∧ cmdDest r s = Dest.own ∧ r.buf.length = 4 ∧ rd r.buf 0 2 = p ∧ p ≠
      65535 ∧ zerosAt r.buf 2 2 = true ∧ (getPt s p).dfn.isSome = true ∧ bwrite s = false ∧ protForbids s.nvs.prot 1 = true) ∧
    (∃ (r : Req) (s : State) (p : Nat), metering s = true ∧ cmdDest r s = Dest.own ∧ r.buf.length = 4 ∧ rd r.buf 0 2 = p ∧ p ≠
      65535 ∧ zerosAt r.buf 2 2 = true ∧ (getPt s p).dfn.isSome = true ∧ bwrite s = false ∧ protForbids s.nvs.prot 1 = false ∧
      gasped s = false) :=
  ⟨⟨tReq (le 2 8191 ++ le 2 1 ++ le 4 (crc32c (zeros 16)).toNat ++ zeros 16), { tM with rtc.invalid := false },
      by decide +kernel⟩,
   ⟨tReq (le 2 8191 ++ le 2 1 ++ le 4 (crc32c (zeros 16)).toNat ++ zeros 16), { tM with nvs.lgDone := true },
      by decide +kernel⟩,
   ⟨tReq (le 2 8191 ++ le 2 1 ++ le 4 (crc32c (zeros 16)).toNat ++ zeros 16), { tM with trf.armed := some 5 },
      by decide +kernel⟩,
   ⟨tReq (le 2 12287 ++ le 2 1 ++ le 4 (crc32c (zeros 16)).toNat ++ zeros 16), { tM with rtc.invalid := false },
      by decide +kernel⟩,
   ⟨tReq (le 4 4294967295 ++ zeros 8), { tM with rtc.invalid := false }, by decide +kernel⟩,
   ⟨tReq (zeros 12), tM, by decide +kernel⟩,
   ⟨tArm 0, tCal, by decide +kernel, by decide +kernel, by decide +kernel, by decide +kernel, by decide +kernel,
      by decide +kernel, by decide +kernel, tArm_crc _, tCal_valid, by decide +kernel⟩,
   ⟨tArm 2, tCal, by decide +kernel, by decide +kernel, by decide +kernel, by decide +kernel, by decide +kernel,
      by decide +kernel, by decide +kernel, tArm_crc _, tCal_valid, by decide +kernel⟩,
   ⟨tArm 1, tCal, by decide +kernel, by decide +kernel, by decide +kernel, by decide +kernel, by decide +kernel,
      by decide +kernel, by decide +kernel, tArm_crc _, tCal_valid, by decide +kernel⟩,
   ⟨tReq (le 2 255 ++ zeros 2), { tM with rtc.invalid := false }, 255, by decide +kernel⟩,
   ⟨tReq (le 2 255 ++ zeros 2), setPt 255 { Init.pt with dfn := some tDef }
      { tM with nvs.groups := [{ tG with bnd := some (1, 0, 255) }] }, 255, by decide +kernel⟩,
   ⟨tReq (le 2 255 ++ zeros 2), setPt 255 { Init.pt with dfn := some tDef } { tM with nvs.prot := 3 }, 255, by decide +kernel⟩,
   ⟨tReq (le 2 255 ++ zeros 2), setPt 255 { Init.pt with dfn := some tDef } tM, 255, by decide +kernel⟩⟩

theorem wit_OpticalPort :
    (∃ (s : State) (c : List Byte) (a : Nat × Nat), optWorks s = true ∧ s.trf.opt.st = OptSt.idle ∧ optRequestAddr c = some a ∧
      optDest s a ≠ Dest.refused statusRange ∧ (∀ (st : W16), optDest s a = Dest.refused st → st = statusUnavailable)) ∧
    (∃ (s : State) (c : List Byte), (optWorks s = false ∨ s.trf.opt.st ≠ OptSt.idle ∨ optRequestAddr c = none)) ∧
    (∃ s : State, optWorks s = true ∧ s.trf.opt.st = OptSt.ident) ∧
    (∃ (s : State) (z : Nat), optWorks s = true ∧ s.trf.opt.st = OptSt.option ∧ z ≤ s.trf.opt.z.toNat) ∧
    (∃ (s : State) (z : Nat), optWorks s = true ∧ s.trf.opt.st = OptSt.option ∧ s.trf.opt.z.toNat < z ∧ z < 200) ∧
    (∃ s : State, s.trf.opt.st ≠ OptSt.option) ∧
    (∃ s : State, optWorks s = true ∧ s.trf.opt.st = OptSt.readout) :=
  ⟨⟨tOpt .idle, [0x2F, 0x3F, 0x21, 0x0D, 0x0A], (0, 0), by decide +kernel, by decide +kernel, by decide +kernel,
      by decide +kernel, fun st h => nomatch h⟩,
   ⟨tOpt .idle, [], by decide +kernel⟩,
   ⟨tOpt .ident, by decide +kernel⟩,
   ⟨tOpt .option, 0, by decide +kernel⟩,
   ⟨tOpt .option, 6, by decide +kernel⟩,
   ⟨tOpt .idle, by decide +kernel⟩,
   ⟨tOpt .readout, by decide +kernel⟩⟩

theorem wit_CreditRequests :
    (∃ (r : Req) (s : State), ownRing0 24 r s ∧ crcOk r.buf 20 (List.take 20 r.buf) = true ∧ creditBad r.buf = false ∧
      ((creditOf r.buf).prepay = true ∨ (creditOf r.buf).discEn = true → ptDefined s (rd r.buf 0 1) = true) ∧ ((creditOf
      r.buf).discEn = true → (ctlNewest s (creditOf r.buf).disc.toNat).en = true ∧ (ctlNewest s (creditOf
      r.buf).disc.toNat).kind = 0) ∧ ((creditOf r.buf).discEn = true → ∀ x ∈ s.crd.pcfg, x.1 ≠ rd r.buf 0 1 → x.2.discEn = true
      → x.2.disc ≠ (creditOf r.buf).disc) ∧ ((creditOf r.buf).ecreqEn = true → claimOk s (creditOf r.buf).ball.toNat fnECREQ 0
      = true) ∧ writeForbidden s (nvKey NvKind.creditCfg (rd r.buf 0 1)) = false ∧ gasped s = false) ∧
    (∃ (r : Req) (s : State), ownRing0 32 r s ∧ crcOk r.buf 28 (List.take 28 r.buf) = true ∧ ctlBad r.buf = false ∧ ((ctlOf
      r.buf).en = true → claimOk s (ctlOf r.buf).ball.toNat fnCTL (rd r.buf 0 1) = true) ∧ ((ctlOf r.buf).en = true → (ctlOf
      r.buf).kind = 2 → (getCtl s (rd r.buf 0 1)).gen.isSome = true ∨ (freeGen s).isSome = true) ∧ (namer s (rd r.buf 0 1) =
      none ∨ (ctlOf r.buf).en = true ∧ (ctlOf r.buf).kind = (ctlNewest s (rd r.buf 0 1)).kind) ∧ writeForbidden s (nvKey
      NvKind.ctlCfg (rd r.buf 0 1)) = false ∧ gasped s = false) ∧
    (∃ (r : Req) (s : State), ownRing11 8 r s ∧ zerosAt r.buf 4 4 = true ∧ (getPt s (rd r.buf 0 1)).dfn.isSome = true ∧
      eligible s (rd r.buf 0 1) = true ∧ writeForbidden s (nvKey NvKind.credit (rd r.buf 0 1)) = false ∧ gasped s = false) ∧
    (∃ (r : Req) (s : State), ownRing11 8 r s ∧ zerosAt r.buf 4 4 = true ∧ (getPt s (rd r.buf 0 1)).dfn.isSome = true ∧
      eligible s (rd r.buf 0 1) = false) ∧
    (∃ (r : Req) (s : State), metering s = true ∧ r.buf.length = 96 ∧ tokenBad r.buf = false ∧ rd r.buf 4 4 < 2 ^ 17 ∧ (r.via =
      Via.coil ∨ addrCheck s (rd r.buf 4 4 / 2 ^ 15) (rd r.buf 4 4 / 2 ^ 8 % 128) = Dest.own) ∧ (getPt s (rd r.buf 4
      1)).dfn.isSome = true ∧ (getPcfg s (rd r.buf 4 1)).prepay = true ∧ List.take 8 (List.drop 32 r.buf) = identBytes ∧
      (slotKey s 2).isSome = true) ∧
    (∃ (r : Req) (s : State), metering s = true ∧ r.buf.length = 96 ∧ tokenBad r.buf = false ∧ rd r.buf 4 4 < 2 ^ 17 ∧ (r.via =
      Via.coil ∨ addrCheck s (rd r.buf 4 4 / 2 ^ 15) (rd r.buf 4 4 / 2 ^ 8 % 128) = Dest.own) ∧ (getPt s (rd r.buf 4
      1)).dfn.isSome = true ∧ (getPcfg s (rd r.buf 4 1)).prepay = true ∧ List.take 8 (List.drop 32 r.buf) ≠ identBytes) ∧
    (∃ (s : State) (ball : Nat) (x : Nat × CreditCfg), metering s = true ∧ gasped s = false ∧ (getBall s ball).func = fnECREQ ∧
      List.filter (fun (p : Nat × CreditCfg) => p.2.ecreqEn && p.2.ball.toNat == ball) s.crd.pcfg = [x] ∧ x.2.recon ≠ 1 ∧
      eligible s x.1 = true) ∧
    (∃ (s : State) (ball : Nat) (x : Nat × CreditCfg), metering s = true ∧ gasped s = false ∧ (getBall s ball).func = fnECREQ ∧
      List.filter (fun (p : Nat × CreditCfg) => p.2.ecreqEn && p.2.ball.toNat == ball) s.crd.pcfg = [x] ∧ x.2.recon ≠ 1 ∧
      eligible s x.1 = false) ∧
    (∃ s : State, gasped s = true) ∧
    (∃ (s : State) (q : Nat) (w : Machine.Group) (rest : List Machine.Group), s.nvs.groups = w :: rest ∧ w.eff = some
      (GroupEff.grant q)) ∧
    (∃ (s : State) (q : Nat) (w : Machine.Group) (rest : List Machine.Group) (k : List Byte), s.nvs.groups = w :: rest ∧ w.eff
      = some (GroupEff.token q k) ∧ (getCred (groupCommitted s) q).ec = true) :=
  ⟨⟨tReq (tCrc ([255, 0x05, 0, 0] ++ zeros 16)), tPre, by decide +kernel⟩,
   ⟨tReq (tCrc ([15, 0x1F, 2, 15] ++ zeros 4 ++ le 4 100000 ++ [2, 0, 0, 0] ++ le 4 500 ++ le 2 10000 ++ zeros 6)), tPre,
      by decide +kernel⟩,
   ⟨tReq ([255] ++ zeros 7), tPre, by decide +kernel⟩,
   ⟨tReq ([254] ++ zeros 7), setPt 254 { Init.pt with dfn := some tDef } tPre, by decide +kernel⟩,
   ⟨tReq (tTok identBytes), { tPre with sgr.slots := [(2, { Init.kslot with st := 3 })] }, tTok_hyps _ identBytes_length _
      (by decide +kernel) ⟨(tTok_form _ identBytes_length).2.2.2.2, by decide +kernel⟩⟩,
   ⟨tReq (tTok (identBytes.map (fun x => ~~~ x))), tPre, tTok_hyps _ (by rw [List.length_map, identBytes_length]) _
      (by decide +kernel) (by rw [show (tReq (tTok (identBytes.map (fun x => ~~~ x)))).buf = tTok (identBytes.map (fun x => ~~~
      x)) from rfl, (tTok_form _ (by rw [List.length_map, identBytes_length])).2.2.2.2]; exact ident_other)⟩,
   ⟨tPre, 31, (255, { Init.creditCfg with prepay := true, ecreqEn := true, ball := 31, ecAmt := 1, low := 1, recon := 2 }),
      by decide +kernel⟩,
   ⟨{ tPre with crd.pcfg := [(255, { Init.creditCfg with prepay := true, ecreqEn := true, ball := 31, ecAmt := 1, low := 0, recon := 2 })] },
      31, (255, { Init.creditCfg with prepay := true, ecreqEn := true, ball := 31, ecAmt := 1, low := 0, recon := 2 }),
      by decide +kernel⟩,
   ⟨{ tM with boot.st := .failstop, flt.phase := .safe }, by decide +kernel⟩,
   ⟨{ tPre with nvs.groups := [{ tG with eff := some (.grant 255) }] }, 255, { tG with eff := some (.grant 255) }, [],
      by decide +kernel⟩,
   ⟨{ tPre with nvs.groups := [{ tG with eff := some (.token 255 (tTokP ++ zeros 64)) }], crd.cred := [(255, { Init.credSt with c := -5, ec := true })] },
      255, { tG with eff := some (.token 255 (tTokP ++ zeros 64)) }, [], tTokP ++ zeros 64, by decide +kernel⟩⟩

theorem wit_ControlOutputs :
    (∃ (n : Nat) (s : State) (r : Req), ownRing11 16 r s ∧ switchBad r.buf = false ∧ rd r.buf 4 1 = n ∧ switchKindBad s r.buf =
      false ∧ gasped s = false ∧ (getCtl s n).cfg.kind ≠ 0 ∧ rd r.buf 5 1 = 0) ∧
    (∃ (n : Nat) (s : State) (r : Req), ownRing11 16 r s ∧ switchBad r.buf = false ∧ rd r.buf 4 1 = n ∧ switchKindBad s r.buf =
      false ∧ gasped s = false ∧ (getCtl s n).cfg.kind ≠ 0 ∧ rd r.buf 5 1 = 1) ∧
    (∃ (n : Nat) (s : State) (r : Req), ownRing11 16 r s ∧ switchBad r.buf = false ∧ rd r.buf 4 1 = n ∧ switchKindBad s r.buf =
      false ∧ gasped s = false ∧ (getCtl s n).cfg.kind = 2 ∧ rd r.buf 5 1 = 2) ∧
    (∃ (n : Nat) (s : State) (r : Req), ownRing11 16 r s ∧ switchBad r.buf = false ∧ rd r.buf 4 1 = n ∧ switchKindBad s r.buf =
      false ∧ gasped s = false ∧ (getCtl s n).cfg.kind = 1 ∧ rd r.buf 5 1 = 2) ∧
    (∃ (n : Nat) (s : State) (r : Req) (p : Nat), ownRing11 16 r s ∧ switchBad r.buf = false ∧ rd r.buf 4 1 = n ∧ switchKindBad
      s r.buf = false ∧ gasped s = false ∧ (getCtl s n).cfg.kind = 0 ∧ namer s n = some p ∧ (rd r.buf 5 1 = 0 ∨ rd r.buf 5 1 =
      1)) ∧
    (∃ (n : Nat) (s : State) (r : Req) (p : Nat), ownRing11 16 r s ∧ switchBad r.buf = false ∧ rd r.buf 4 1 = n ∧ switchKindBad
      s r.buf = false ∧ gasped s = false ∧ (getCtl s n).cfg.kind = 0 ∧ namer s n = some p ∧ rd r.buf 5 1 = 3) ∧
    (∃ (n : Nat) (s : State) (v u : Nat), (getCtl s n).ovr = some (v, some u) ∧ u ≤ s.slot) ∧
    (∃ (n : Nat) (s : State) (v u : Nat), (getCtl s n).ovr = some (v, some u) ∧ s.slot < u) ∧
    (∃ (n : Nat) (s : State), ((getCtl s n).ovr = none ∨ ∃ (v : Nat), (getCtl s n).ovr = some (v, none))) ∧
    (∃ (n : Nat) (s : State) (c : CtlCfg), unwritten s (nvKey NvKind.ctlCfg n) = false ∧ (getCtl s n).next = some c ∧ (getCtl s
      n).pend = none) ∧
    (∃ (n : Nat) (s : State), (unwritten s (nvKey NvKind.ctlCfg n) = true ∨ (getCtl s n).next = none ∨ (getCtl s n).pend.isSome
      = true)) ∧
    (∃ (n : Nat) (s : State), (getCtl s n).cfg.en = true ∧ (getCtl s n).cfg.kind = 2 ∧ (getBall s (getCtl s
      n).cfg.ball.toNat).drive = true) ∧
    (∃ (n : Nat) (s : State), ((getCtl s n).cfg.en = false ∨ (getCtl s n).cfg.kind ≠ 2 ∨ (getBall s (getCtl s
      n).cfg.ball.toNat).drive = false)) :=
  ⟨⟨15, tCtl 2, tReq ([0, 0, 0, 0, 15] ++ zeros 11), by decide +kernel⟩,
   ⟨15, tCtl 2, tReq ([0, 0, 0, 0, 15, 1] ++ zeros 10), by decide +kernel⟩,
   ⟨15, tCtl 2, tReq ([0, 0, 0, 0, 15, 2, 0, 0] ++ le 4 4294967295 ++ le 2 10000 ++ zeros 2), by decide +kernel⟩,
   ⟨15, tCtl 1, tReq ([0, 0, 0, 0, 15, 2, 0, 0] ++ le 4 4294967295 ++ zeros 4), by decide +kernel⟩,
   ⟨15, tCtl 0, tReq ([0, 0, 0, 0, 15, 1] ++ zeros 10), 255, by decide +kernel⟩,
   ⟨15, tCtl 0, tReq ([0, 0, 0, 0, 15, 3] ++ zeros 10), 255, by decide +kernel⟩,
   ⟨15, { setCtl 15 { Init.ctl with ovr := some (1, some 5) } tM with slot := 5 }, 1, 5, by decide +kernel⟩,
   ⟨15, setCtl 15 { Init.ctl with ovr := some (1, some 5) } tM, 1, 5, by decide +kernel⟩,
   ⟨15, tCtl 2, .inl rfl⟩,
   ⟨15, setCtl 15 { Init.ctl with next := some Init.ctlCfg } tM, Init.ctlCfg, by decide +kernel⟩,
   ⟨15, tCtl 2, by decide +kernel⟩,
   ⟨15, tCtl 2, by decide +kernel⟩,
   ⟨15, tCtl 0, by decide +kernel⟩⟩

theorem wit_StoreErrors :
    (∃ (s : State) (x : Rec) (rest : List Rec), s.nvs.ready = true ∧ s.nvs.lg = none ∧ s.nvs.inhibit = false ∧ s.nvs.logQueue =
      x :: rest) ∧
    (∃ s : State, (s.nvs.ready = false ∨ s.nvs.lg.isSome = true ∨ s.nvs.inhibit = true ∨ s.nvs.logQueue = [])) ∧
    (∃ (s : State) (place : EccPlace), s.boot.st ≠ BootSt.off ∧ s.boot.st ≠ BootSt.backup ∧ s.boot.st ≠ BootSt.por ∧ (∀ (key c
      : Nat), place ≠ EccPlace.kilnCopy key c)) ∧
    (∃ s : State, (s.boot.st = BootSt.off ∨ s.boot.st = BootSt.backup ∨ s.boot.st = BootSt.por)) ∧
    (∃ (s : State) (key c : Nat) (o : NvSlot), c < 2 ∧ soundCopy s key (1 - c) = some o ∧ s.nvs.ready = true) ∧
    (∃ (s : State) (key c : Nat) (o : NvSlot), c < 2 ∧ soundCopy s key (1 - c) = some o ∧ s.nvs.ready = false) ∧
    (∃ (s : State) (key c : Nat), c < 2 ∧ soundCopy s key (1 - c) = none) ∧
    (∃ b : Nat, 1 ≤ b ∧ b ≤ 18) :=
  ⟨⟨{ tM with nvs.ready := true, nvs.logQueue := [⟨0x20, 0, Stamp.zero, []⟩] }, ⟨0x20, 0, Stamp.zero, []⟩, [],
      by decide +kernel⟩,
   ⟨{ tM with nvs.ready := true }, by decide +kernel⟩,
   ⟨tM, .sram, by decide +kernel, by decide +kernel, by decide +kernel, fun _ _ h => nomatch h⟩,
   ⟨State.reset, by decide +kernel⟩,
   ⟨{ tM with nvs.ready := true, nvs.recs := [(10, ⟨.word 1, 1, false⟩), (11, ⟨.word 1, 1, true⟩)] }, 5, 1, ⟨.word 1, 1,
      false⟩, by decide +kernel⟩,
   ⟨{ tM with nvs.recs := [(10, ⟨.word 1, 1, false⟩), (11, ⟨.word 1, 1, true⟩)] }, 5, 1, ⟨.word 1, 1, false⟩,
      by decide +kernel⟩,
   ⟨tM, 5, 1, by decide +kernel⟩,
   ⟨18, by decide +kernel⟩⟩

theorem wit_FaultEscalation :
    (∃ (b : Nat) (s : State), s.boot.fired = true ∧ isWorker s = false ∧ s.flt.bidx.toNat = b ∧ 1 ≤ b ∧ b ≤ 18) ∧
    (∃ s : State, (s.boot.fired = false ∨ isWorker s = true ∨ s.flt.bidx.toNat = 0 ∨ 18 < s.flt.bidx.toNat)) ∧
    (∃ (b : Nat) (s : State) (g : Grace) (i : Nat), (getBlk s b).run = some g ∧ g.start + g.ms * msSlots ≤ s.slot ∧ graceCause
      (getBlk s b) g = some i ∧ s.flt.phase = FsPhase.none) ∧
    (∃ (b : Nat) (s : State) (g : Grace), (getBlk s b).run = some g ∧ g.start + g.ms * msSlots ≤ s.slot ∧ (getSrc s b
      g.src).severe.isSome = true) ∧
    (∃ (b : Nat) (s : State) (g : Grace), (getBlk s b).run = some g ∧ g.start + g.ms * msSlots ≤ s.slot ∧ graceCause (getBlk s
      b) g = none) ∧
    (∃ (b : Nat) (s : State), ((getBlk s b).run = none ∨ ∃ (g : Grace), (getBlk s b).run = some g ∧ s.slot < g.start + g.ms *
      msSlots)) ∧
    (∃ (b src : Nat) (s : State) (o : Win), (getSrc s b src).win = some o ∧ o.start + winSlots o.w ≤ s.slot) ∧
    (∃ (b src : Nat) (s : State) (o : Win), (getSrc s b src).win = some o ∧ s.slot < o.start + winSlots o.w) ∧
    (∃ (b src : Nat) (s : State) (o : Win), (getSrc s b src).esc = true ∧ (getSrc s b src).span = some o ∧ (getSrc s b
      src).severe.isSome = true ∧ bit (getBlk s b).flive src = false ∧ o.start + winSlots o.w ≤ s.slot) ∧
    (∃ (b src : Nat) (s : State) (o : Win), (getSrc s b src).esc = true ∧ (getSrc s b src).span = some o ∧ (getSrc s b
      src).severe.isSome = true ∧ bit (getBlk s b).flive src = false ∧ s.slot < o.start + winSlots o.w) ∧
    (∃ (b src : Nat) (s : State), ((getSrc s b src).esc = false ∨ bit (getBlk s b).flive src = true)) ∧
    (∃ (b src : Nat) (s : State), mainPower s = true ∧ paritySrc b src = true) ∧
    (∃ (b src : Nat) (s : State), (mainPower s = false ∨ paritySrc b src = false)) :=
  ⟨⟨18, { tM with flt.bidx := 18 }, by decide +kernel⟩,
   ⟨State.reset, by decide +kernel⟩,
   ⟨18,
      { tM with slot := 49152000, flt.blk := [(18, { Init.blkFlt with run := some ⟨3, 0, 2000⟩, srcs := [(3, { Init.srcSt with severe := some 1 })] })] },
      ⟨3, 0, 2000⟩, 3, by decide +kernel⟩,
   ⟨18,
      { tM with slot := 49152000, flt.blk := [(18, { Init.blkFlt with run := some ⟨3, 0, 2000⟩, srcs := [(3, { Init.srcSt with severe := some 1 })] })] },
      ⟨3, 0, 2000⟩, by decide +kernel⟩,
   ⟨18, { tM with slot := 49152000, flt.blk := [(18, { Init.blkFlt with run := some ⟨3, 0, 2000⟩ })] }, ⟨3, 0, 2000⟩,
      by decide +kernel⟩,
   ⟨18, { tM with flt.bidx := 18 }, by decide +kernel⟩,
   ⟨18, 31,
      { tM with slot := 24576, flt.blk := [(18, { Init.blkFlt with srcs := [(31, { Init.srcSt with win := some ⟨0, 1, 1⟩ })] })] },
      ⟨0, 1, 1⟩, by decide +kernel⟩,
   ⟨18, 31,
      { tM with slot := 24575, flt.blk := [(18, { Init.blkFlt with srcs := [(31, { Init.srcSt with win := some ⟨0, 1, 1⟩ })] })] },
      ⟨0, 1, 1⟩, by decide +kernel⟩,
   ⟨18, 31,
      { tM with slot := 24576, flt.blk := [(18, { Init.blkFlt with srcs := [(31, { Init.srcSt with severe := some 1, esc := true, span := some ⟨0, 1, 1⟩ })] })] },
      ⟨0, 1, 1⟩, by decide +kernel⟩,
   ⟨18, 31,
      { tM with slot := 24575, flt.blk := [(18, { Init.blkFlt with srcs := [(31, { Init.srcSt with severe := some 1, esc := true, span := some ⟨0, 1, 1⟩ })] })] },
      ⟨0, 1, 1⟩, by decide +kernel⟩,
   ⟨18, 31, { tM with flt.blk := [(18, { Init.blkFlt with srcs := [(31, { Init.srcSt with win := some ⟨0, 1, 1⟩ })] })] },
      by decide +kernel⟩,
   ⟨15, 0, { tM with flt.bidx := 18 }, by decide +kernel⟩,
   ⟨18, 31, { tM with flt.blk := [(18, { Init.blkFlt with srcs := [(31, { Init.srcSt with win := some ⟨0, 1, 1⟩ })] })] },
      by decide +kernel⟩⟩

theorem wit_HostLink :
    (∃ s : State, isWorker s = false ∧ s.boot.st ≠ BootSt.off ∧ s.boot.st ≠ BootSt.backup ∧ s.boot.st ≠ BootSt.por) ∧
    (∃ s : State, isWorker s = false ∧ s.hif.linkUp = true ∧ s.boot.fired = true) ∧
    (∃ s : State, isWorker s = false ∧ s.hif.linkUp = true ∧ s.boot.fired = false) ∧
    (∃ s : State, isWorker s = false ∧ s.hif.linkUp = true ∧ s.hif.d3 = true) ∧
    (∃ s : State, isWorker s = false ∧ s.hif.linkUp = true ∧ s.hif.d3 = false) ∧
    (∃ s : State, (isWorker s = true ∨ s.hif.linkUp = false)) ∧
    (∃ s : State, isWorker s = true) ∧
    (∃ s : State, isWorker s = false ∧ s.hif.linkUp = true ∧ s.boot.st ≠ BootSt.failstop) ∧
    (∃ s : State, isWorker s = false ∧ s.hif.linkUp = true ∧ s.boot.st = BootSt.failstop ∧ s.flt.kind ≠ Cls.grave ∧ s.flt.phase
      = FsPhase.safe) ∧
    (∃ s : State, isWorker s = false ∧ s.hif.linkUp = true ∧ s.boot.st = BootSt.failstop ∧ s.flt.kind ≠ Cls.grave ∧ s.flt.phase
      ≠ FsPhase.safe) ∧
    (∃ s : State, isWorker s = false ∧ s.hif.linkUp = true ∧ s.boot.st = BootSt.failstop ∧ s.flt.kind = Cls.grave) :=
  ⟨⟨{ tM with hif.linkUp := true, hif.d3 := true }, by decide +kernel⟩,
   ⟨{ tM with hif.linkUp := true, hif.d3 := true }, by decide +kernel⟩,
   ⟨{ tB .greenware with hif.linkUp := true }, by decide +kernel⟩,
   ⟨{ tM with hif.linkUp := true, hif.d3 := true }, by decide +kernel⟩,
   ⟨{ tB .greenware with hif.linkUp := true }, by decide +kernel⟩,
   ⟨tM, by decide +kernel⟩,
   ⟨tW, by decide +kernel⟩,
   ⟨{ tM with hif.linkUp := true, hif.d3 := true }, by decide +kernel⟩,
   ⟨{ tM with hif.linkUp := true, boot.st := .failstop, flt.phase := .safe, flt.kind := .severe }, by decide +kernel⟩,
   ⟨{ tM with hif.linkUp := true, boot.st := .failstop, flt.phase := .begun, flt.kind := .severe }, by decide +kernel⟩,
   ⟨{ tM with hif.linkUp := true, boot.st := .failstop, flt.phase := .safe, flt.kind := .grave }, by decide +kernel⟩⟩

theorem wit_RingSetUp :
    (∃ (v : W32) (s : State), isWorker s = false ∧ rcfgBad v = false ∧ (getRing s s.hif.ridx.toNat).en = false ∧ (getRing s
      s.hif.ridx.toNat).active = false ∧ addrsBad (getRing s s.hif.ridx.toNat) (fld v 4 0) = false) ∧
    (∃ (v : W32) (s : State), isWorker s = false ∧ rcfgBad v = false ∧ (getRing s s.hif.ridx.toNat).en = false ∧ (getRing s
      s.hif.ridx.toNat).active = false ∧ addrsBad (getRing s s.hif.ridx.toNat) (fld v 4 0) = true) ∧
    (∃ (v : W32) (s : State), isWorker s = false ∧ rcfgBad v = false ∧ (getRing s s.hif.ridx.toNat).en = false ∧ (getRing s
      s.hif.ridx.toNat).active = true) ∧
    (∃ (v : W32) (s : State), isWorker s = false ∧ rcfgBad v = false ∧ (getRing s s.hif.ridx.toNat).en = true) ∧
    (∃ (v : W32) (s : State) (i : Instr), isWorker s = false ∧ rcfgBad v = true ∧ i ∈ [Instr.ringCfgWrite v, Instr.ringEnable
      v, Instr.ringDisable v]) ∧
    (∃ (s : State) (k : Nat) (u : W32), isWorker s = false ∧ k ≤ 15 ∧ (getRing s k).en = true ∧ BitVec.toNat (u - (getRing s
      k).head) ≤ 2 ^ (getRing s k).size.toNat ∧ BitVec.toNat (u - (getRing s k).tail) ≤ 2 ^ (getRing s k).size.toNat) ∧
    (∃ (s : State) (k : Nat) (u : W32), isWorker s = false ∧ k ≤ 15 ∧ (¬((getRing s k).en = true ∧ BitVec.toNat (u - (getRing s
      k).head) ≤ 2 ^ (getRing s k).size.toNat ∧ BitVec.toNat (u - (getRing s k).tail) ≤ 2 ^ (getRing s k).size.toNat))) :=
  ⟨⟨0x83E80010, tRing 0 { Init.ring with base := 1, cmp := 1, shd := 1 } tM, by decide +kernel⟩,
   ⟨0x83E80010, tRing 15 { Init.ring with en := true, size := 16 } tM, by decide +kernel⟩,
   ⟨0x83E80010, tRing 0 { Init.ring with active := true } tM, by decide +kernel⟩,
   ⟨0x83E80010, tRing 0 { Init.ring with en := true } tM, by decide +kernel⟩,
   ⟨0x03E90010, tM, .ringEnable 0x03E90010, by decide +kernel, by decide +kernel, by simp⟩,
   ⟨tRing 15 { Init.ring with en := true, size := 16 } tM, 15, 0x10000, by decide +kernel⟩,
   ⟨tM, 15, 0, by decide +kernel⟩⟩

theorem wit_RingTraffic :
    (∃ (n : Nat) (s : State) (d : Desc), dmaOk s n = true ∧ (getRing s n).en = true ∧ (getRing s n).dmaErr = false ∧ ringServed
      s n = true ∧ BitVec.toNat ((getRing s n).tail - (getRing s n).fetched) = 1 ∧ bit d.flags 1 = false ∧ outstanding n
      (getRing s n) < 32) ∧
    (∃ (n : Nat) (s : State), dmaOk s n = true ∧ ((getRing s n).en = false ∨ (getRing s n).dmaErr = true ∨ ringServed s n =
      false)) ∧
    (∃ (n : Nat) (s : State) (a x : Machine.Acc) (rest : List Machine.Acc), dmaOk s n = true ∧ (getRing s n).acc = a :: x ::
      rest ∧ a.done.isSome = true ∧ x.done = none ∧ a.irq = false ∧ a.recs = [] ∧ n ≠ 1 ∧ n ≠ 10) ∧
    (∃ (n : Nat) (s : State) (x : Machine.Acc) (rest : List Machine.Acc), dmaOk s n = true ∧ (getRing s n).acc = x :: rest ∧
      x.done = none) ∧
    (∃ (n : Nat) (s : State), dmaOk s n = true ∧ (getRing s n).acc = []) ∧
    (∃ (n : Nat) (s : State) (a : Machine.Acc) (b : RxBuf) (q : QRec) (rest : List QRec), dmaOk s n = true ∧ (getRing s n).en =
      true ∧ (getRing s n).dmaErr = false ∧ ringServed s n = true ∧ receiveRing n = true ∧ (getRing s n).tail = (getRing s
      n).fetched ∧ (getRing s n).bufs = [b] ∧ (getRing s n).acc = [a] ∧ a.idx = b.idx ∧ (getRing s n).queue = q :: rest ∧
      b.recs = [] ∧ b.len < q.bytes.length) ∧
    (∃ (n : Nat) (s : State) (a : Machine.Acc) (b : RxBuf) (q : QRec) (rest : List QRec), dmaOk s n = true ∧ (getRing s n).en =
      true ∧ (getRing s n).dmaErr = false ∧ ringServed s n = true ∧ receiveRing n = true ∧ (getRing s n).tail = (getRing s
      n).fetched ∧ (getRing s n).bufs = [b] ∧ (getRing s n).acc = [a] ∧ a.idx = b.idx ∧ (getRing s n).queue = q :: rest ∧
      b.recs = [] ∧ q.bytes.length ≤ b.len ∧ rest = [] ∧ (getRing s n).coal = 0) ∧
    (∃ (n : Nat) (s : State) (a : Machine.Acc) (b : RxBuf) (q : QRec) (rest : List QRec), dmaOk s n = true ∧ (getRing s n).en =
      true ∧ (getRing s n).dmaErr = false ∧ ringServed s n = true ∧ receiveRing n = true ∧ (getRing s n).tail = (getRing s
      n).fetched ∧ (getRing s n).bufs = [b] ∧ (getRing s n).acc = [a] ∧ a.idx = b.idx ∧ (getRing s n).queue = q :: rest ∧
      b.recs = [] ∧ q.bytes.length ≤ b.len ∧ rest = [] ∧ (getRing s n).coal ≠ 0) ∧
    (∃ (n : Nat) (s : State) (a : Machine.Acc) (b : RxBuf) (q : QRec) (rest : List QRec), dmaOk s n = true ∧ (getRing s n).en =
      true ∧ (getRing s n).dmaErr = false ∧ ringServed s n = true ∧ receiveRing n = true ∧ (getRing s n).tail = (getRing s
      n).fetched ∧ (getRing s n).bufs = [b] ∧ (getRing s n).acc = [a] ∧ a.idx = b.idx ∧ (getRing s n).queue = q :: rest ∧
      b.recs ≠ [] ∧ b.len < queueBytes b.recs + q.bytes.length) ∧
    (∃ (n : Nat) (s : State) (a : Machine.Acc) (b : RxBuf), dmaOk s n = true ∧ (getRing s n).en = true ∧ (getRing s n).dmaErr =
      false ∧ ringServed s n = true ∧ n ≠ 15 ∧ (getRing s n).bufs = [b] ∧ (getRing s n).acc = [a] ∧ a.idx = b.idx ∧ b.recs ≠ []
      ∧ (getRing s n).queue = []) :=
  ⟨⟨15, tRing 15 { Init.ring with en := true, tail := 1 } { tM with cpx.acp0 := true, cpx.acp1 := true }, ⟨0, 0, 0, 0, 7, zeros
      16, []⟩, by decide +kernel⟩,
   ⟨15, tRing 15 { Init.ring with en := true, tail := 1 } tM, by decide +kernel⟩,
   ⟨15, tRing 15 { Init.ring with en := true, acc := [tAcc true, tAcc false] } tM, tAcc true, tAcc false, [],
      by decide +kernel⟩,
   ⟨15, tRing 15 { Init.ring with en := true, acc := [tAcc false] } tM, tAcc false, [], by decide +kernel⟩,
   ⟨15, tRing 15 { Init.ring with en := true, tail := 1 } tM, by decide +kernel⟩,
   ⟨14, tRing 14 { Init.ring with en := true, coal := 0, bufs := [⟨0, 7, false, 3, []⟩], acc := [tAcc false], queue := [tQ] }
      { tM with cpx.acp0 := true, cpx.acp1 := true }, tAcc false, ⟨0, 7, false, 3, []⟩, tQ, [], by decide +kernel⟩,
   ⟨14, tRing 14 { Init.ring with en := true, coal := 0, bufs := [⟨0, 7, false, 4, []⟩], acc := [tAcc false], queue := [tQ] }
      { tM with cpx.acp0 := true, cpx.acp1 := true }, tAcc false, ⟨0, 7, false, 4, []⟩, tQ, [], by decide +kernel⟩,
   ⟨14, tRing 14 { Init.ring with en := true, coal := 1, bufs := [⟨0, 7, false, 4, []⟩], acc := [tAcc false], queue := [tQ] }
      { tM with cpx.acp0 := true, cpx.acp1 := true }, tAcc false, ⟨0, 7, false, 4, []⟩, tQ, [], by decide +kernel⟩,
   ⟨14, tRing 14 { Init.ring with en := true, coal := 0, bufs := [⟨0, 7, false, 7, [tQ]⟩], acc := [tAcc false], queue := [tQ] }
      { tM with cpx.acp0 := true, cpx.acp1 := true }, tAcc false, ⟨0, 7, false, 7, [tQ]⟩, tQ, [], by decide +kernel⟩,
   ⟨14, tRing 14 { Init.ring with en := true, coal := 0, bufs := [⟨0, 7, false, 4, [tQ]⟩], acc := [tAcc false], queue := [] }
      { tM with cpx.acp0 := true, cpx.acp1 := true }, tAcc false, ⟨0, 7, false, 4, [tQ]⟩, by decide +kernel⟩⟩

theorem wit_DmaErrorStopsRing :
    (∃ (n : Nat) (s : State), dmaOk s n = true ∧ (getRing s n).en = true ∧ (getRing s n).dmaErr = false) ∧
    (∃ (n : Nat) (s : State), (getRing s n).dmaErr = true) ∧
    (∃ (n : Nat) (s : State), (dmaOk s n = false ∨ (getRing s n).en = false ∨ (getRing s n).dmaErr = true)) ∧
    (∃ (n : Nat) (s : State) (v : W32), isWorker s = false ∧ s.hif.ridx.toNat = n ∧ rcfgBad v = false ∧ (getRing s n).en =
      true) ∧
    (∃ (n : Nat) (s : State) (v : W32), isWorker s = false ∧ s.hif.ridx.toNat = n ∧ rcfgBad v = false ∧ (getRing s n).en =
      false ∧ (getRing s n).active = false ∧ addrsBad (getRing s n) (fld v 4 0) = false) :=
  ⟨⟨15, tRing 15 { Init.ring with en := true } tM, by decide +kernel⟩,
   ⟨15, tRing 15 { Init.ring with en := true, dmaErr := true, base := 1, cmp := 1, shd := 1 } { tM with hif.ridx := 15 },
      by decide +kernel⟩,
   ⟨15, tRing 15 { Init.ring with en := true, dmaErr := true, base := 1, cmp := 1, shd := 1 } { tM with hif.ridx := 15 },
      by decide +kernel⟩,
   ⟨15, tRing 15 { Init.ring with en := true, dmaErr := true, base := 1, cmp := 1, shd := 1 } { tM with hif.ridx := 15 },
      0x83E80010, by decide +kernel⟩,
   ⟨15, tRing 15 { Init.ring with dmaErr := true, base := 1, cmp := 1, shd := 1 } { tM with hif.ridx := 15 }, 0x83E80010,
      by decide +kernel⟩⟩

theorem wit_HostRequests :
    (∃ (r : Req) (s : State) (m k : Nat), ownRing0 16 r s ∧ crcOk r.buf 12 (List.take 12 r.buf) = true ∧ itemMask (rd r.buf 0
      2) = some (m, k) ∧ rd r.buf 2 2 < k ∧ BitVec.ofNat 32 (rd r.buf 4 4) &&& ~~~BitVec.ofNat 32 m = 0 ∧ zerosAt r.buf 8 4 =
      true ∧ itemRange s (rd r.buf 0 2) (rd r.buf 2 2) (BitVec.ofNat 32 (rd r.buf 4 4)) = false ∧ itemConflict s (rd r.buf 0 2)
      (rd r.buf 2 2) (BitVec.ofNat 32 (rd r.buf 4 4)) = false ∧ writeForbidden s (itemKey (rd r.buf 0 2) (rd r.buf 2 2)) =
      false) ∧
    (∃ (r : Req) (s : State) (m k : Nat), ownRing0 16 r s ∧ crcOk r.buf 12 (List.take 12 r.buf) = true ∧ itemMask (rd r.buf 0
      2) = some (m, k) ∧ rd r.buf 2 2 < k ∧ BitVec.ofNat 32 (rd r.buf 4 4) &&& ~~~BitVec.ofNat 32 m = 0 ∧ zerosAt r.buf 8 4 =
      true ∧ itemRange s (rd r.buf 0 2) (rd r.buf 2 2) (BitVec.ofNat 32 (rd r.buf 4 4)) = false ∧ itemConflict s (rd r.buf 0 2)
      (rd r.buf 2 2) (BitVec.ofNat 32 (rd r.buf 4 4)) = true) ∧
    (∃ (r : Req) (s : State), ownRing0 16 r s ∧ (crcOk r.buf 12 (List.take 12 r.buf) = false ∨ itemMask (rd r.buf 0 2) = none ∨
      itemRange s (rd r.buf 0 2) (rd r.buf 2 2) (BitVec.ofNat 32 (rd r.buf 4 4)) = true)) ∧
    (∃ (r : Req) (s : State), ownRing0 8 r s ∧ zerosAt r.buf 4 4 = true ∧ rd r.buf 0 2 % 4 = 0 ∧ 1 ≤ rd r.buf 2 2 ∧ rd r.buf 2
      2 ≤ 64 ∧ rd r.buf 0 2 + 4 * rd r.buf 2 2 ≤ 16384 ∧ rd r.buf 2 2 = 1 ∧ isWorker s = false ∧ (undelivered (getRing s
      1)).length + (getRing s 1).queue.length < 64) ∧
    (∃ (r : Req) (s : State), ownRing0 8 r s ∧ (rd r.buf 0 2 % 4 ≠ 0 ∨ rd r.buf 2 2 = 0 ∨ 64 < rd r.buf 2 2 ∨ 16384 < rd r.buf
      0 2 + 4 * rd r.buf 2 2)) ∧
    (∃ (r : Req) (s : State), ownRing0 8 r s ∧ 1 ≤ rd r.buf 4 4 ∧ rd r.buf 4 4 ≤ 16384) ∧
    (∃ (r : Req) (s : State) (x : Rec), ownRing0 8 r s ∧ rd r.buf 4 4 = 1 ∧ Machine.logAt s (BitVec.ofNat 32 (rd r.buf 0 4)) =
      some x) ∧
    (∃ (r : Req) (s : State), ownRing0 8 r s ∧ rd r.buf 4 4 = 1 ∧ Machine.logAt s (BitVec.ofNat 32 (rd r.buf 0 4)) = none) ∧
    (∃ (r : Req) (s : State), ownRing0 8 r s ∧ (rd r.buf 4 4 = 0 ∨ 16384 < rd r.buf 4 4)) ∧
    (∃ (r : Req) (s : State), ownRing0 4 r s ∧ zerosAt r.buf 2 2 = true ∧ rd r.buf 0 2 = 65535) ∧
    (∃ (r : Req) (s : State) (x : Nat × List Byte), ownRing0 4 r s ∧ zerosAt r.buf 2 2 = true ∧ rd r.buf 0 2 < 256 ∧ (getPt s
      (rd r.buf 0 2)).dfn.isSome = true ∧ snapsOf s (rd r.buf 0 2) = [x]) ∧
    (∃ (r : Req) (s : State), ownRing0 4 r s ∧ zerosAt r.buf 2 2 = true ∧ rd r.buf 0 2 ≠ 65535 ∧ (256 ≤ rd r.buf 0 2 ∨ (getPt s
      (rd r.buf 0 2)).dfn = none)) ∧
    (∃ (s : State) (f : Fwd) (ring : Nat) (slot : W32), List.find? (fun (f : Fwd) => f.w.ring == ring && f.w.slot == slot)
      s.hif.fwd = some f ∧ 2000 * msSlots ≤ s.slot - f.at_ ∧ f.w.ring ≠ 9) ∧
    (∃ (s : State) (f : Fwd) (ring : Nat) (slot : W32), List.find? (fun (f : Fwd) => f.w.ring == ring && f.w.slot == slot)
      s.hif.fwd = some f ∧ 2000 * msSlots ≤ s.slot - f.at_ ∧ f.w.ring = 9) ∧
    (∃ (s : State) (f : Fwd) (ring : Nat) (slot : W32), List.find? (fun (f : Fwd) => f.w.ring == ring && f.w.slot == slot)
      s.hif.fwd = some f ∧ s.slot - f.at_ < 2000 * msSlots) ∧
    (∃ (s : State) (ring : Nat) (slot : W32), List.find? (fun (f : Fwd) => f.w.ring == ring && f.w.slot == slot) s.hif.fwd =
      none) :=
  ⟨⟨tReq (tCrc ([1, 1, 0, 0] ++ zeros 8)), tM, 0x1F1F, 1, by decide +kernel⟩,
   ⟨tReq (tCrc ([0x03, 0x0A, 0, 0] ++ le 4 0x80001F00 ++ zeros 4)),
      { tM with pin.fb := [(31, { Init.ball with func := fnCF })] }, 0x80001F03, 1, by decide +kernel⟩,
   ⟨tReq (tCrc ([0, 0, 0, 0] ++ zeros 8)), tM, by decide +kernel⟩,
   ⟨tReq ([0xFC, 0x3F, 1, 0, 0, 0, 0, 0]), tM, by decide +kernel⟩,
   ⟨tReq (zeros 8), tM, by decide +kernel⟩,
   ⟨tReq ([0, 0, 0, 0, 1, 0, 0, 0]), tM, by decide +kernel⟩,
   ⟨tReq ([0, 0, 0, 0, 1, 0, 0, 0]), { tM with nvs.log := [(0, ⟨0x20, 0, Stamp.zero, []⟩)] }, ⟨0x20, 0, Stamp.zero, []⟩,
      by decide +kernel⟩,
   ⟨tReq ([0, 0, 0, 0, 1, 0, 0, 0]), tM, by decide +kernel⟩,
   ⟨tReq ([0xFC, 0x3F, 1, 0, 0, 0, 0, 0]), tM, by decide +kernel⟩,
   ⟨tReq (le 2 65535 ++ zeros 2), tM, by decide +kernel⟩,
   ⟨tReq [255, 0, 0, 0], setPt 255 { Init.pt with dfn := some tDef }
      { tM with nvs.recs := [(2 * snapKey 255 12, ⟨.bytes (zeros 4), 1, false⟩)] }, (12, zeros 4), by decide +kernel⟩,
   ⟨tReq [255, 0, 0, 0], tM, by decide +kernel⟩,
   ⟨{ tM with slot := 49152000, hif.fwd := [tFwd 15] }, tFwd 15, 15, 5, by decide +kernel⟩,
   ⟨{ tM with slot := 49152000, hif.fwd := [tFwd 9] }, tFwd 9, 9, 5, by decide +kernel⟩,
   ⟨{ tM with slot := 49151999, hif.fwd := [tFwd 9] }, tFwd 9, 9, 5, by decide +kernel⟩,
   ⟨tM, 0x1F1F, 0, by decide +kernel⟩⟩

theorem wit_RegisterAccess :
    (∃ s : State, hostOn s = false) ∧
    (∃ (off : Nat) (s : State), hostOn s = true ∧ exposed s off = false) ∧
    (∃ s : State, hostOn s = true ∧ exposed s 9232 = true) ∧
    (∃ s : State, hostOn s = true ∧ exposed s 15372 = true) ∧
    (∃ (off : Nat) (s : State), s.flt.phase = FsPhase.safe ∧ failstopWrites off = false) ∧
    (∃ (off : Nat) (v : W32) (i : Instr), i ∈ [Instr.rcRead off, Instr.latchedPairRead off, Instr.w1cWrite off v,
      Instr.regWrite off v]) ∧
    (∃ s : State, writable s 15652 = true) ∧
    (∃ s : State, writable s 11328 = true) ∧
    (∃ s : State, writable s 4104 = true) ∧
    (∃ s : State, writable s 15624 = true) :=
  ⟨⟨tW, by decide +kernel⟩,
   ⟨0x3FFC, tB .greenware, by decide +kernel⟩,
   ⟨tM, by decide +kernel⟩,
   ⟨tM, by decide +kernel⟩,
   ⟨0x3FFC, { tM with boot.st := .failstop, flt.phase := .safe }, by decide +kernel⟩,
   ⟨0x3FFC, 0xFFFFFFFF, .regWrite 0x3FFC 0xFFFFFFFF, by simp⟩,
   ⟨tM, by decide +kernel⟩,
   ⟨tM, by decide +kernel⟩,
   ⟨tM, by decide +kernel⟩,
   ⟨tM, by decide +kernel⟩⟩

theorem wit_ExposedBeforeFired :
    ∃ (off : Nat) (s : State), s.boot.fired = false ∧ hostOn s = true ∧ 1024 ≤ off ∧ (off < 11264 ∨ 12288 ≤ off) ∧ (off < 15872
      ∨ 15920 ≤ off) :=
  ⟨0x3E30, tB .greenware, by decide +kernel⟩

theorem wit_PinOwnership :
    (∃ (n : Nat) (s : State), n < 32 ∧ pinWritable s = true) ∧
    (∃ s : State, pinWritable s = false) ∧
    (∃ (n : Nat) (s : State) (v : W32), n < 4 ∧ pinWritable s = true ∧ s.pin.evout.length = 4 ∧ bit (nth s.pin.evout n 65536)
      31 = false ∧ bit v 31 = true ∧ claimOk s (fld v 28 24) fnEVOUT n = true) ∧
    (∃ (n : Nat) (s : State) (v : W32), n < 4 ∧ pinWritable s = true ∧ s.pin.evout.length = 4 ∧ bit (nth s.pin.evout n 65536)
      31 = false ∧ bit v 31 = true ∧ claimOk s (fld v 28 24) fnEVOUT n = false) ∧
    (∃ (n : Nat) (s : State) (v : W32), n < 4 ∧ pinWritable s = true ∧ s.pin.evout.length = 4 ∧ bit (nth s.pin.evout n 65536)
      31 = true ∧ bit v 31 = false) ∧
    (∃ (n : Nat) (s : State), n < 4 ∧ bit (nth s.pin.evout n 0) 31 = true ∧ (getBall s (fld (nth s.pin.evout n 0) 28 24)).func
      = fnEVOUT) ∧
    (∃ (n : Nat) (s : State), running s = true ∧ scanActs s = false ∧ n < 32 ∧ (getBall s n).drive = true) ∧
    (∃ (n : Nat) (s : State), running s = true ∧ scanActs s = false ∧ n < 32 ∧ (getBall s n).drive = false) ∧
    (∃ (n : Nat) (s : State), running s = true ∧ scanActs s = false ∧ 32 ≤ n ∧ n < 49) ∧
    (∃ s : State, running s = true ∧ scanActs s = false ∧ s.pin.failn = true) ∧
    (∃ s : State, (running s = false ∨ scanActs s = true)) ∧
    (∃ (s : State) (c : Jtag), s.fuses.jtagLock = false ∧ mainPower s = true ∧ c ≠ Jtag.idcode) ∧
    (∃ (s : State) (c : Jtag), s.fuses.jtagLock = false ∧ mainPower s = true ∧ c = Jtag.idcode) ∧
    (∃ s : State, (s.fuses.jtagLock = true ∨ mainPower s = false)) :=
  ⟨⟨31, tM, by decide +kernel⟩,
   ⟨tB .greenware, by decide +kernel⟩,
   ⟨3, tM, 0x9F000000, by decide +kernel⟩,
   ⟨3, { tM with pin.fb := [(31, { Init.ball with func := fnCF })] }, 0x9F000000, by decide +kernel⟩,
   ⟨3, { tM with pin.evout := List.replicate 4 0x9F010000 }, 0, by decide +kernel⟩,
   ⟨3, { tM with pin.evout := List.replicate 4 0x9F010000, pin.fb := [(31, { Init.ball with func := fnEVOUT, owner := 3 })] },
      by decide +kernel⟩,
   ⟨31, { tM with pin.fb := [(31, { Init.ball with drive := true })] }, by decide +kernel⟩,
   ⟨31, tM, by decide +kernel⟩,
   ⟨48, tM, by decide +kernel⟩,
   ⟨{ tM with pin.failn := true }, by decide +kernel⟩,
   ⟨State.reset, by decide +kernel⟩,
   ⟨tM, .bypass, by decide +kernel⟩,
   ⟨tM, .idcode, by decide +kernel⟩,
   ⟨{ tM with fuses.jtagLock := true }, by decide +kernel⟩⟩

theorem wit_TamperMonitors :
    (∃ (src : Nat) (s : State), src < 8 ∧ (tamperWatches s src = false ∨ bistHides s src = true)) ∧
    (∃ (src : Nat) (s : State), src < 8 ∧ tamperWatches s src = true ∧ bistHides s src = false ∧ (getTSrc s src).hold.isSome =
      true) ∧
    (∃ (src : Nat) (s : State), src < 8 ∧ tamperWatches s src = true ∧ bistHides s src = false ∧ (getTSrc s src).hold = none ∧
      (if (getTSrc s src).win.isSome = true then BitVec.toNat (getTSrc s src).count else 0) + 1 < tamperN s src ∧ 0 < tamperWin
      s src) ∧
    (∃ (src : Nat) (s : State), src < 8 ∧ tamperWatches s src = true ∧ bistHides s src = false ∧ (getTSrc s src).hold = none ∧
      tamperN s src ≤ (if (getTSrc s src).win.isSome = true then BitVec.toNat (getTSrc s src).count else 0) + 1) ∧
    (∃ (src : Nat) (s : State) (w : Nat), src < 8 ∧ (tgetD s.tmp.srcs src Init.tsrc).win = some w ∧ w + tamperWin s src ≤
      s.slot) ∧
    (∃ (src : Nat) (s : State) (w : Nat), src < 8 ∧ (tgetD s.tmp.srcs src Init.tsrc).win = some w ∧ s.slot < w + tamperWin s
      src) ∧
    (∃ (src : Nat) (s : State) (h : Nat), src < 8 ∧ (tgetD s.tmp.srcs src Init.tsrc).hold = some h ∧ h + 328 * 750 ≤ s.slot) ∧
    (∃ (src : Nat) (s : State) (h : Nat), src < 8 ∧ (tgetD s.tmp.srcs src Init.tsrc).hold = some h ∧ s.slot < h + 328 * 750) ∧
    (∃ (src : Nat) (s : State), src < 8 ∧ s.tmp.run = true ∧ s.sgr.trngOk = true) ∧
    (∃ (src : Nat) (s : State), src < 8 ∧ (s.tmp.run = false ∨ s.sgr.trngOk = false)) ∧
    (∃ (src : Nat) (d : W32) (s : State), src < 8 ∧ s.boot.fired = true ∧ isWorker s = false ∧ s.flt.phase ≠ FsPhase.safe ∧ fld
      d 2 0 = src ∧ bit d 8 = false) ∧
    (∃ (src : Nat) (d : W32) (s : State), src < 8 ∧ s.boot.fired = true ∧ isWorker s = false ∧ s.flt.phase ≠ FsPhase.safe ∧ fld
      d 2 0 = src ∧ bit d 8 = true ∧ bistRefused s src = true) ∧
    (∃ (src : Nat) (d : W32) (s : State), src < 8 ∧ s.boot.fired = true ∧ isWorker s = false ∧ s.flt.phase ≠ FsPhase.safe ∧ fld
      d 2 0 = src ∧ bit d 8 = true ∧ bistRefused s src = false) ∧
    (∃ (src : Nat) (s : State), src < 8 ∧ s.tmp.bistActive = true ∧ s.slot ≤ s.tmp.bistAt + msSlots) ∧
    (∃ (src : Nat) (s : State), src < 8 ∧ s.tmp.bistActive = true ∧ s.tmp.bistAt + msSlots < s.slot) ∧
    (∃ (src : Nat) (s : State), src < 8 ∧ s.tmp.bistActive = true ∧ s.tmp.bistAt + 10 * msSlots ≤ s.slot) ∧
    (∃ (src : Nat) (s : State), src < 8 ∧ s.tmp.bistActive = true ∧ s.slot < s.tmp.bistAt + 10 * msSlots) ∧
    (∃ (src : Nat) (s : State) (e : TLog) (rest : List TLog), src < 8 ∧ s.tmp.log = e :: rest ∧ metering s = true ∧
      tamperDraining s = false) ∧
    (∃ (src : Nat) (s : State), src < 8 ∧ (s.tmp.log = [] ∨ metering s = false ∨ tamperDraining s = true)) :=
  ⟨⟨7, State.reset, by decide +kernel⟩,
   ⟨7, tTmp 2 { Init.tsrc with hold := some 0 }, by decide +kernel⟩,
   ⟨7, tTmp 2 { Init.tsrc with win := none }, by decide +kernel⟩,
   ⟨7, tTmp 1 Init.tsrc, by decide +kernel⟩,
   ⟨7, { tTmp 2 { Init.tsrc with win := some 0 } with slot := 24750 }, 0, by decide +kernel⟩,
   ⟨7, { tTmp 2 { Init.tsrc with win := some 0 } with slot := 24749 }, 0, by decide +kernel⟩,
   ⟨7, { tTmp 2 { Init.tsrc with hold := some 0 } with slot := 246000 }, 0, by decide +kernel⟩,
   ⟨7, { tTmp 2 { Init.tsrc with hold := some 0 } with slot := 245999 }, 0, by decide +kernel⟩,
   ⟨7, tTmp 2 { Init.tsrc with hold := some 0 }, by decide +kernel⟩,
   ⟨7, State.reset, by decide +kernel⟩,
   ⟨7, 7, tM, by decide +kernel⟩,
   ⟨7, 0x107, tM, by decide +kernel⟩,
   ⟨7, 0x107, tTmp 2 { Init.tsrc with win := none }, by decide +kernel⟩,
   ⟨7, { tM with tmp.bistActive := true }, by decide +kernel⟩,
   ⟨7, { tM with tmp.bistActive := true, slot := 24577 }, by decide +kernel⟩,
   ⟨7, { tM with tmp.bistActive := true, slot := 245760 }, by decide +kernel⟩,
   ⟨7, { tM with tmp.bistActive := true }, by decide +kernel⟩,
   ⟨7, { tM with tmp.log := [⟨zeros 16, none⟩] }, ⟨zeros 16, none⟩, [], by decide +kernel⟩,
   ⟨7, State.reset, by decide +kernel⟩⟩

theorem wit_RingLinks :
    (∃ (p : Nat) (s : State), portUsed s p = true ∧ ((getPort s p).seen = true ∨ isWorker s = false ∨ s.coil.w.enumerated =
      true)) ∧
    (∃ (p : Nat) (s : State), portUsed s p = true ∧ (getPort s p).seen = false ∧ isWorker s = true ∧ s.coil.w.enumerated =
      false ∧ s.sgr.trngOk = true ∧ s.coil.w.chal ≠ []) ∧
    (∃ (p : Nat) (s : State), portUsed s p = true ∧ isManager s = false) ∧
    (∃ (p : Nat) (s : State) (bad : Nat) (i : Instr), portUsed s p = true ∧ isManager s = true ∧ i ∈ [Instr.linkSyncLoss p bad,
      Instr.lfailReceive p] ∧ (getCRing s (p / 2)).down = []) ∧
    (∃ (p : Nat) (s : State) (bad : Nat) (i : Instr) (a : Nat), portUsed s p = true ∧ isManager s = true ∧ i ∈
      [Instr.linkSyncLoss p bad, Instr.lfailReceive p] ∧ (getCRing s (p / 2)).down = [a] ∧ a ≠ (linkOf s p).2) ∧
    (∃ (p : Nat) (s : State), portUsed s p = true ∧ (getPort s p).sync = true ∧ isWorker s = true ∧ s.coil.w.enumerated = true) ∧
    (∃ (p : Nat) (s : State), portUsed s p = true ∧ (getPort s p).sync = true ∧ isManager s = true ∧ (getCRing s (p / 2)).down
      = [(linkOf s p).2]) ∧
    (∃ (p : Nat) (s : State), portUsed s p = true ∧ (getPort s p).sync = false) ∧
    (∃ (p : Nat) (s : State), portUsed s p = true ∧ (getPort s p).wrap = false) ∧
    (∃ (p : Nat) (s : State), isManager s = true ∧ 8 ≤ p ∧ (linkOf s p).1 < 4 ∧ ringEn s (linkOf s p).1 = true ∧ (getCRing s
      (linkOf s p).1).down = []) ∧
    (∃ (p : Nat) (s : State), isManager s = true ∧ 8 ≤ p ∧ (linkOf s p).1 < 4 ∧ ringEn s (linkOf s p).1 = true ∧ (getCRing s
      (linkOf s p).1).down = [(linkOf s p).2]) ∧
    (∃ (s : State) (f : Frame), portUsed s f.port = true ∧ f.cls = 0 ∧ f.typ = 2 ∧ frameBad f = false) ∧
    (∃ (s : State) (f : Frame) (t1 : W64), portUsed s f.port = true ∧ f.cls = 0 ∧ f.typ = 3 ∧ frameBad f = false ∧ (getPort s
      f.port).t1 = some t1) ∧
    (∃ (s : State) (f : Frame), isWorker s = true ∧ f.port ≤ 1 ∧ mainPower s = true ∧ (s.coil.w.enumerated = false ∨ f.dst ≠
      s.coil.w.pos.toNat ∨ f.ring ≠ s.coil.w.ring.toNat) ∧ (f.cls ≠ 0 ∨ f.typ = 4 ∨ f.typ = 5)) ∧
    (∃ (s : State) (f : Frame), isWorker s = true ∧ f.port ≤ 1 ∧ mainPower s = true ∧ (s.coil.w.enumerated = false ∨ f.dst ≠
      s.coil.w.pos.toNat ∨ f.ring ≠ s.coil.w.ring.toNat) ∧ f.cls = 0 ∧ f.typ = 0 ∧ (getPort (unwrapAll s) (1 - f.port)).wrap =
      false) ∧
    (∃ (s : State) (f : Frame), isWorker s = true ∧ f.port ≤ 1 ∧ mainPower s = true ∧ (s.coil.w.enumerated = false ∨ f.dst ≠
      s.coil.w.pos.toNat ∨ f.ring ≠ s.coil.w.ring.toNat) ∧ f.cls = 0 ∧ f.typ = 0 ∧ (getPort (unwrapAll s) (1 - f.port)).wrap =
      true) ∧
    (∃ (s : State) (f : Frame), s.coil.w.enumerated = true ∧ f.dst = s.coil.w.pos.toNat ∧ f.ring = s.coil.w.ring.toNat) ∧
    (∃ (s : State) (f : Frame), (forWorker s f = true ∨ forManager s f = true) ∧ frameBad f = true) ∧
    (∃ (s : State) (f : Frame) (key : List Byte), forWorker s f = true ∧ frameBad f = false ∧ bit f.flags 0 = true ∧ slotKey s
      5 = some key ∧ tagOk key f = false) ∧
    (∃ (s : State) (f : Frame) (key : List Byte), forWorker s f = true ∧ frameBad f = false ∧ bit f.flags 0 = true ∧ slotKey s
      5 = some key ∧ tagOk key f = true ∧ ctrAfter (frameCtr f) s.coil.w.down = false) ∧
    (∃ (s : State) (f : Frame) (key : List Byte), forManager s f = true ∧ frameBad f = false ∧ bit f.flags 0 = true ∧ upKey s
      f.ring f.src = some key ∧ tagOk key f = false) ∧
    (∃ (s : State) (f : Frame) (key : List Byte), forManager s f = true ∧ frameBad f = false ∧ bit f.flags 0 = true ∧ upKey s
      f.ring f.src = some key ∧ tagOk key f = true ∧ ctrAfter (frameCtr f) (getEnt s f.ring f.src).last = false) :=
  ⟨⟨7, setPort 7 { Init.port with seen := true } tMgr, by decide +kernel⟩,
   ⟨1, { tW with sgr.trngOk := true, coil.w.chal := [1] }, by decide +kernel⟩,
   ⟨1, tW, by decide +kernel⟩,
   ⟨7, tMgr, 0, .lfailReceive 7, by decide +kernel, by decide +kernel, by simp, by decide +kernel⟩,
   ⟨7, setCRing 3 { Init.cring with cfg := 0x8000007F, down := [0x7F] } tMgr, 0, .lfailReceive 7, 0x7F, by decide +kernel,
      by decide +kernel, by simp, by decide +kernel⟩,
   ⟨1, setPort 1 { Init.port with sync := true } (tWk Init.wside), by decide +kernel⟩,
   ⟨7, setPort 7 { Init.port with sync := true } (setCRing 3 { Init.cring with cfg := 0x8000007F, down := [(linkOf tMgr 7).2] }
      tMgr), by decide +kernel⟩,
   ⟨7, setPort 7 { Init.port with seen := true } tMgr, by decide +kernel⟩,
   ⟨7, setPort 7 { Init.port with seen := true } tMgr, by decide +kernel⟩,
   ⟨255, setPort 7 { Init.port with seen := true } tMgr, by decide +kernel⟩,
   ⟨519, setCRing 3 { Init.cring with cfg := 0x8000007F, down := [127] } tMgr, by decide +kernel⟩,
   ⟨tMgr, plainFrame 7 0 2 false 0 0 3 [], by decide +kernel⟩,
   ⟨setPort 7 { Init.port with t1 := some 5 } tMgr, plainFrame 7 0 3 false 0 0 3 [], 5, by decide +kernel⟩,
   ⟨tW, plainFrame 1 3 0 false 0 0 3 [], by decide +kernel⟩,
   ⟨tW, { plainFrame 1 0 0 false 255 0 0 [] with rsv := 1 }, by decide +kernel⟩,
   ⟨setPort 0 { Init.port with wrap := true } tW, plainFrame 1 0 0 false 255 0 0 [], by decide +kernel⟩,
   ⟨tWk { Init.wside with pos := 127, ring := 3 }, plainFrame 1 3 0 false 127 0 3 [], by decide +kernel⟩,
   ⟨tW, { plainFrame 1 0 0 false 255 0 0 [] with rsv := 1 }, by decide +kernel⟩,
   ⟨tWk Init.wside, tBadTag, [], by decide +kernel, tBadTag_sound, by decide +kernel, by decide +kernel, tBadTag_tag⟩,
   ⟨tWk { Init.wside with down := some ⟨1, 1⟩ }, tDown 1 4 [], [], by decide +kernel, frameBad_authFrame _ _ _ _ _ _ _ _ _ _ _
      (by decide) rfl rfl, by decide, by decide +kernel, tagOk_authFrame .., by decide +kernel⟩,
   ⟨tMw 3, tBadUp, [], by decide +kernel, tBadUp_sound, by decide +kernel, by decide +kernel, tBadUp_tag⟩,
   ⟨setEnt 0 1 { Init.went with state := 3, last := some ⟨1, 1⟩ } (tMw 3), tUp 1 1 [], [], by decide +kernel,
      frameBad_authFrame _ _ _ _ _ _ _ _ _ _ _ (by decide) rfl rfl, by decide, by decide +kernel, tagOk_authFrame ..,
      by decide +kernel⟩⟩

theorem wit_WorkerBeacons :
    (∃ (b : Beacon) (s : State), isWorker s = true ∧ s.whl.run = true ∧ s.flt.phase ≠ FsPhase.safe ∧ (s.coil.w.ccw = b.ccw ∨
      ((getPort (unwrapAll s) (1 - if b.ccw = true then 1 else 0)).wrap = true ∨ dirStopped s.coil.w (turnOf b.pos)
      (BitVec.toNat b.pathDelay + linkDelay (unwrapAll s) (if b.ccw = true then 1 else 0)) = true) ∨ s.coil.w.dCw = none ∧
      s.coil.w.dCcw = none ∧ s.coil.w.enumerated = false) ∧ s.whl.nolock = true) ∧
    (∃ (b : Beacon) (s : State), isWorker s = true ∧ s.whl.run = true ∧ s.flt.phase ≠ FsPhase.safe ∧ (s.coil.w.ccw = b.ccw ∨
      ((getPort (unwrapAll s) (1 - if b.ccw = true then 1 else 0)).wrap = true ∨ dirStopped s.coil.w (turnOf b.pos)
      (BitVec.toNat b.pathDelay + linkDelay (unwrapAll s) (if b.ccw = true then 1 else 0)) = true) ∨ s.coil.w.dCw = none ∧
      s.coil.w.dCcw = none ∧ s.coil.w.enumerated = false) ∧ s.whl.nolock = false ∧ (¬(turnOf (b.pos + BitVec.ofNat 64 ((2 *
      (BitVec.toNat b.pathDelay + linkDelay (unwrapAll s) (if b.ccw = true then 1 else 0)) * BitVec.toNat b.freq + 1000000000)
      / 2000000000)) ≠ turnOf s.whl.pos ∨ 2 ^ 24 < (BitVec.toInt (s.whl.pos - (b.pos + BitVec.ofNat 64 ((2 * (BitVec.toNat
      b.pathDelay + linkDelay (unwrapAll s) (if b.ccw = true then 1 else 0)) * BitVec.toNat b.freq + 1000000000) /
      2000000000)))).natAbs * 360))) ∧
    (∃ (b : Beacon) (s : State), isWorker s = true ∧ s.whl.run = true ∧ s.flt.phase ≠ FsPhase.safe ∧ (s.coil.w.ccw = b.ccw ∨
      ((getPort (unwrapAll s) (1 - if b.ccw = true then 1 else 0)).wrap = true ∨ dirStopped s.coil.w (turnOf b.pos)
      (BitVec.toNat b.pathDelay + linkDelay (unwrapAll s) (if b.ccw = true then 1 else 0)) = true) ∨ s.coil.w.dCw = none ∧
      s.coil.w.dCcw = none ∧ s.coil.w.enumerated = false) ∧ s.whl.nolock = false ∧ (turnOf (b.pos + BitVec.ofNat 64 ((2 *
      (BitVec.toNat b.pathDelay + linkDelay (unwrapAll s) (if b.ccw = true then 1 else 0)) * BitVec.toNat b.freq + 1000000000)
      / 2000000000)) ≠ turnOf s.whl.pos ∨ 2 ^ 24 < (BitVec.toInt (s.whl.pos - (b.pos + BitVec.ofNat 64 ((2 * (BitVec.toNat
      b.pathDelay + linkDelay (unwrapAll s) (if b.ccw = true then 1 else 0)) * BitVec.toNat b.freq + 1000000000) /
      2000000000)))).natAbs * 360)) ∧
    (∃ (b : Beacon) (s : State), isWorker s = true ∧ s.whl.run = true ∧ s.flt.phase ≠ FsPhase.safe ∧ s.coil.w.ccw ≠ b.ccw ∧
      (¬((getPort (unwrapAll s) (1 - if b.ccw = true then 1 else 0)).wrap = true ∨ dirStopped s.coil.w (turnOf b.pos)
      (BitVec.toNat b.pathDelay + linkDelay (unwrapAll s) (if b.ccw = true then 1 else 0)) = true)) ∧ (s.coil.w.dCw.isSome =
      true ∨ s.coil.w.dCcw.isSome = true ∨ s.coil.w.enumerated = true)) ∧
    (∃ s : State, isWorker s = true ∧ (s.whl.run = false ∨ s.flt.phase = FsPhase.safe)) ∧
    (∃ s : State, isWorker s = true ∧ s.whl.bMissed < 2) ∧
    (∃ (s : State) (flagged : Bool), isWorker s = true ∧ flagged = true ∧ s.whl.sync = none) ∧
    (∃ (s : State) (flagged : Bool), isWorker s = true ∧ 2 ≤ s.whl.bMissed ∧ (flagged = false ∨ s.whl.sync.isSome = true)) :=
  ⟨⟨⟨false, 0, 0x03200000, 0, 0, 0, 0, 0⟩, tRun tW, by decide +kernel⟩,
   ⟨⟨false, 0, 0x03200000, 0, 0, 0, 0, 0⟩, { tRun tW with whl.nolock := false, whl.lock := true, whl.pos := 32 },
      by decide +kernel⟩,
   ⟨⟨false, 0, 0x03200000, 0, 0, 0, 0, 0⟩, { tRun tW with whl.nolock := false, whl.pos := 46604 }, by decide +kernel⟩,
   ⟨⟨true, 0, 0x03200000, 0, 0, 0, 0, 0⟩, tRun (tWk { Init.wside with bCw := some 0 }), by decide +kernel⟩,
   ⟨tW, by decide +kernel⟩,
   ⟨tRun tW, by decide +kernel⟩,
   ⟨tRun tW, true, by decide +kernel⟩,
   ⟨{ tRun tW with whl.bMissed := 2 }, false, by decide +kernel⟩⟩

theorem wit_EnumerationAndRing13 :
    (∃ (k : Nat) (s : State), k < 4 ∧ isManager s = true ∧ ringEn s k = true ∧ (getCRing s k).enumerating = false) ∧
    (∃ (k : Nat) (s : State), k < 4 ∧ (isManager s = false ∨ ringEn s k = false ∨ (getCRing s k).enumerating = true)) ∧
    (∃ (k : Nat) (s : State), k < 4 ∧ isManager s = true ∧ (getCRing s k).enumerating = true) ∧
    (∃ (k : Nat) (s : State) (f : Frame) (h : Hello) (pos : Nat), k < 4 ∧ forManager s f = true ∧ f.cls = 0 ∧ f.typ = 4 ∧
      frameBad f = false ∧ (getCRing s f.ring).enumerating = true ∧ (h.hopCw ≠ 255 ∨ h.hopCcw ≠ 255 ∧ (getCRing s
      f.ring).renumber = false) ∧ ((getCRing s f.ring).hellos.any fun (x : Hello) => x.ident == h.ident) = false ∧ (getCRing s
      f.ring).refused.contains h.ident = false ∧ s.sgr.trngOk = true ∧ posOf (getCRing s f.ring) h = some pos) ∧
    (∃ (k : Nat) (s : State) (f : Frame) (h : Hello), k < 4 ∧ forManager s f = true ∧ f.cls = 0 ∧ f.typ = 4 ∧ frameBad f =
      false ∧ (getCRing s f.ring).enumerating = true ∧ (h.hopCw ≠ 255 ∨ h.hopCcw ≠ 255 ∧ (getCRing s f.ring).renumber = false)
      ∧ ((getCRing s f.ring).hellos.any fun (x : Hello) => x.ident == h.ident) = false ∧ (getCRing s f.ring).refused.contains
      h.ident = false ∧ s.sgr.trngOk = true ∧ posOf (getCRing s f.ring) h = none) ∧
    (∃ (k : Nat) (s : State) (f : Frame) (h : Hello), k < 4 ∧ forManager s f = true ∧ f.cls = 0 ∧ f.typ = 4 ∧ frameBad f =
      false ∧ (getCRing s f.ring).enumerating = false ∧ f.src = 254 ∧ (getCRing s f.ring).refused.contains h.ident = false ∧
      ((getCRing s f.ring).enumStart = 0 ∨ 100 * msSlots ≤ s.slot - (getCRing s f.ring).enumStart)) ∧
    (∃ (k : Nat) (s : State), k < 4 ∧ (isWorker s = false ∨ s.coil.w.enumerated = true)) ∧
    (∃ (k : Nat) (s : State), k < 4 ∧ isWorker s = true ∧ s.coil.w.enumerated = false ∧ s.sgr.trngOk = true ∧ s.coil.w.chal ≠
      []) ∧
    (∃ (k : Nat) (s : State) (f : Frame), k < 4 ∧ isWorker s = true ∧ f.port ≤ 1 ∧ f.cls = 0 ∧ f.typ = 1 ∧ frameBad f = false) ∧
    (∃ (k : Nat) (s : State) (f : Frame) (a : Assign) (key : List Byte), k < 4 ∧ isWorker s = true ∧ f.cls = 1 ∧ f.typ = 2 ∧
      frameBad f = false ∧ slotKey s 5 = some key ∧ tagOk key f = true ∧ f.payload = assignPayload a ∧ ctrAfter (frameCtr f)
      s.coil.w.down = true ∧ s.coil.w.chal ≠ [] ∧ a.challenge = s.coil.w.chal ∧ a.ring ≤ 3 ∧ 1 ≤ a.pos ∧ a.pos ≤ 127) ∧
    (∃ (k : Nat) (s : State) (f : Frame) (st : WStatus) (key : List Byte), k < 4 ∧ forManager s f = true ∧ f.cls = 1 ∧ f.typ =
      3 ∧ frameBad f = false ∧ upKey s f.ring f.src = some key ∧ tagOk key f = true ∧ f.payload = statusPayload st ∧ ctrAfter
      (frameCtr f) (getEnt s f.ring f.src).last = true ∧ ((getEnt s f.ring f.src).chal ≠ [] ∧ st.challenge = (getEnt s f.ring
      f.src).chal ∨ (getEnt s f.ring f.src).state = 2 ∨ (getEnt s f.ring f.src).state = 3 ∨ (getEnt s f.ring f.src).state = 4)) ∧
    (∃ (k : Nat) (s : State) (f : Frame) (st : WStatus) (key : List Byte), k < 4 ∧ forManager s f = true ∧ f.cls = 1 ∧ f.typ =
      3 ∧ frameBad f = false ∧ upKey s f.ring f.src = some key ∧ tagOk key f = true ∧ f.payload = statusPayload st ∧ ctrAfter
      (frameCtr f) (getEnt s f.ring f.src).last = true ∧ (¬((getEnt s f.ring f.src).chal ≠ [] ∧ st.challenge = (getEnt s f.ring
      f.src).chal)) ∧ (getEnt s f.ring f.src).state = 5 ∧ (getCRing s f.ring).enumerating = false) ∧
    (∃ (k : Nat) (s : State), k < 4 ∧ isWorker s = true ∧ s.coil.w.enumerated = true) ∧
    (∃ (k : Nat) (s : State), k < 4 ∧ (isWorker s = false ∨ s.coil.w.enumerated = false)) ∧
    (∃ (k : Nat) (s : State) (pos : Nat), k < 4 ∧ isManager s = true ∧ ((getEnt s k pos).state = 2 ∨ (getEnt s k pos).state = 3
      ∨ (getEnt s k pos).state = 4) ∧ 1000 * msSlots ≤ s.slot - (getEnt s k pos).heard) ∧
    (∃ (k : Nat) (s : State) (pos : Nat), k < 4 ∧ isManager s = true ∧ ((getEnt s k pos).state = 2 ∨ (getEnt s k pos).state = 3
      ∨ (getEnt s k pos).state = 4) ∧ s.slot - (getEnt s k pos).heard < 1000 * msSlots) ∧
    (∃ (r : Req) (s : State), isManager s = true ∧ metering s = true ∧ r.buf.length = 8 ∧ rd r.buf 0 1 ≤ 3 ∧ rd r.buf 1 1 ≤ 7 ∧
      rd r.buf 2 1 ≤ 127 ∧ zerosAt r.buf 3 5 = true ∧ writeForbidden s (nvKey NvKind.coilRing (rd r.buf 0 1)) = true) ∧
    (∃ (r : Req) (s : State), isManager s = true ∧ metering s = true ∧ r.buf.length = 8 ∧ rd r.buf 0 1 ≤ 3 ∧ rd r.buf 1 1 ≤ 7 ∧
      rd r.buf 2 1 ≤ 127 ∧ zerosAt r.buf 3 5 = true ∧ writeForbidden s (nvKey NvKind.coilRing (rd r.buf 0 1)) = false ∧ gasped
      s = true) ∧
    (∃ (r : Req) (s : State), isManager s = true ∧ metering s = true ∧ r.buf.length = 8 ∧ rd r.buf 0 1 ≤ 3 ∧ rd r.buf 1 1 ≤ 7 ∧
      rd r.buf 2 1 ≤ 127 ∧ zerosAt r.buf 3 5 = true ∧ writeForbidden s (nvKey NvKind.coilRing (rd r.buf 0 1)) = false ∧ gasped
      s = false) ∧
    (∃ (r : Req) (s : State), isManager s = true ∧ metering s = true ∧ 4080 ≤ r.buf.length ∧ rd r.buf 0 1 ≤ 3) ∧
    (∃ (r : Req) (s : State), isManager s = true ∧ metering s = true ∧ r.buf.length = 4 ∧ rd r.buf 0 1 ≤ 3 ∧ zerosAt r.buf 1 3
      = true ∧ ringEn s (rd r.buf 0 1) = true ∧ (getCRing s (rd r.buf 0 1)).enumerating = true) ∧
    (∃ (r : Req) (s : State), isManager s = true ∧ metering s = true ∧ r.buf.length = 4 ∧ rd r.buf 0 1 ≤ 3 ∧ zerosAt r.buf 1 3
      = true ∧ ringEn s (rd r.buf 0 1) = true ∧ (getCRing s (rd r.buf 0 1)).enumerating = false) ∧
    (∃ s : State, (isManager s = false ∨ metering s = false)) :=
  ⟨⟨3, tMgr, by decide +kernel⟩,
   ⟨3, setCRing 3 { Init.cring with cfg := 0x8000007F, enumerating := true } tMgr, by decide +kernel⟩,
   ⟨3, setCRing 3 { Init.cring with cfg := 0x8000007F, enumerating := true } tMgr, by decide +kernel⟩,
   ⟨3, setCRing 0 { Init.cring with cfg := 0x8000007F, enumerating := true, table := [(1, 5)] }
      { tMgr with sgr.trngOk := true }, plainFrame 0 0 4 true 0 0xFE 0 [], ⟨5, 1, 1, 3, []⟩, 1, by decide +kernel⟩,
   ⟨3, setCRing 0 { Init.cring with cfg := 0x8000007F, enumerating := true, table := [(1, 6)] }
      { tMgr with sgr.trngOk := true }, plainFrame 0 0 4 true 0 0xFE 0 [], ⟨5, 1, 1, 3, []⟩, by decide +kernel⟩,
   ⟨3, tMgr, plainFrame 0 0 4 true 0 0xFE 0 [], ⟨5, 1, 1, 3, []⟩, by decide +kernel⟩,
   ⟨3, tMgr, by decide +kernel⟩,
   ⟨3, { setPort 0 { Init.port with sync := true } tW with sgr.trngOk := true, coil.w.chal := [1] }, by decide +kernel⟩,
   ⟨3, tW, plainFrame 0 0 1 false 255 0 0 [], by decide +kernel⟩,
   ⟨3, tWk { Init.wside with chal := [7] }, tDown 1 2 (assignPayload ⟨3, 127, [7], [8]⟩), ⟨3, 127, [7], [8]⟩, [],
      by decide +kernel, by decide +kernel, rfl, rfl, frameBad_authFrame _ _ _ _ _ _ _ _ _ _ _ (List.length_take_le ..) rfl
      rfl, by decide +kernel, tagOk_authFrame .., rfl, by decide +kernel, by decide +kernel, by decide +kernel, by decide,
      by decide, by decide⟩,
   ⟨3, tMw 1, tUp 1 3 (statusPayload ⟨8, 0, 0, 77, 0, 0, false, false, 0, 0, [9]⟩), ⟨8, 0, 0, 77, 0, 0, false, false, 0, 0,
      [9]⟩, [], by decide +kernel, by decide +kernel, rfl, rfl, frameBad_authFrame _ _ _ _ _ _ _ _ _ _ _ (List.length_take_le
      ..) rfl rfl, by decide +kernel, tagOk_authFrame .., rfl, by decide +kernel, by decide +kernel⟩,
   ⟨3, tMw 5, tUp 1 3 (statusPayload ⟨8, 0, 0, 77, 0, 0, false, false, 0, 0, [8]⟩), ⟨8, 0, 0, 77, 0, 0, false, false, 0, 0,
      [8]⟩, [], by decide +kernel, by decide +kernel, rfl, rfl, frameBad_authFrame _ _ _ _ _ _ _ _ _ _ _ (List.length_take_le
      ..) rfl rfl, by decide +kernel, tagOk_authFrame .., rfl, by decide +kernel, by decide +kernel, by decide +kernel,
      by decide +kernel⟩,
   ⟨3, tWk Init.wside, by decide +kernel⟩,
   ⟨3, tMgr, by decide +kernel⟩,
   ⟨0, { tMw 4 with slot := 24576000 }, 1, by decide +kernel⟩,
   ⟨0, tMw 3, 1, by decide +kernel⟩,
   ⟨tReq [3, 7, 127, 0, 0, 0, 0, 0], { tMgr with nvs.prot := 3 }, by decide +kernel⟩,
   ⟨tReq [3, 7, 127, 0, 0, 0, 0, 0], { tMgr with nvs.lgDone := true }, by decide +kernel⟩,
   ⟨tReq [3, 7, 127, 0, 0, 0, 0, 0], tMgr, by decide +kernel⟩,
   ⟨tReq ([3] ++ zeros 4079), tMgr, by decide +kernel⟩,
   ⟨tReq [3, 0, 0, 0], setCRing 3 { Init.cring with cfg := 0x8000007F, enumerating := true } tMgr, by decide +kernel⟩,
   ⟨tReq [3, 0, 0, 0], tMgr, by decide +kernel⟩,
   ⟨tW, by decide +kernel⟩⟩

theorem wit_CoilTraffic :
    (∃ (f : Frame) (s : State), fromManager 1 4 f s) ∧
    (∃ (f : Frame) (s : State), fromManager 1 5 f s) ∧
    (∃ (s : State) (c : W64) (x : SentRep), isWorker s = true ∧ List.find? (fun (x : SentRep) => x.ctr == c) s.coil.w.sent =
      some x ∧ (slotKey s 6).isSome = true ∧ 20 * msSlots ≤ s.slot - x.at_) ∧
    (∃ (s : State) (c : W64) (x : SentRep), isWorker s = true ∧ List.find? (fun (x : SentRep) => x.ctr == c) s.coil.w.sent =
      some x ∧ (slotKey s 6).isSome = true ∧ s.slot - x.at_ < 20 * msSlots) ∧
    (∃ (f : Frame) (s : State), fromWorker 2 0 f s) ∧
    (∃ (f : Frame) (s : State) (ring : Nat) (q : QRec), (ring = 6 ∨ ring = 7) ∧ forManager s f = true ∧ f.cls = 3 ∧ f.typ = 0 ∧
      frameBad f = false ∧ ((getEnt s f.ring f.src).state = 2 ∨ (getEnt s f.ring f.src).state = 3 ∨ (getEnt s f.ring
      f.src).state = 4) ∧ q.log = none ∧ q.hold = none ∧ 0 < q.bytes.length ∧ q.bytes.length ≤ 2036 ∧ f.payload =
      Machine.segment ring 0 q q.bytes.length ∧ s.coil.joins = [] ∧ tget (getEnt s f.ring f.src).newest ring = none) ∧
    (∃ (f : Frame) (s : State), fromManager 1 0 f s ∧ 8 ≤ f.payload.length ∧ failed s = true) ∧
    (∃ (f : Frame) (s : State) (o : Out), fromManager 1 0 f s ∧ 8 ≤ f.payload.length ∧ failed s = false ∧ runCommand (rd
      f.payload 0 1) (rd f.payload 1 1)
      { via := Via.coil, slot := BitVec.ofNat 32 (rd f.payload 4 4), tag := BitVec.ofNat 32 (rd f.payload 4 4), irq := false, inl := zeros 16, buf := List.drop 8 f.payload }
      { s with coil.w := { s.coil.w with down := some (frameCtr f), dnUses := s.coil.w.dnUses + 1 } } = some o) ∧
    (∃ (f : Frame) (s : State), fromManager 1 0 f s ∧ 8 ≤ f.payload.length ∧ failed s = false ∧ rd f.payload 0 1 = 0 ∧ rd
      f.payload 1 1 = 4) ∧
    (∃ (f : Frame) (s : State), fromManager 1 0 f s ∧ 8 ≤ f.payload.length ∧ failed s = false ∧ rd f.payload 0 1 = 11 ∧ rd
      f.payload 1 1 = 97) ∧
    (∃ (f : Frame) (s : State), fromManager 1 0 f s ∧ 8 ≤ f.payload.length ∧ failed s = false ∧ runCommand (rd f.payload 0 1)
      (rd f.payload 1 1)
      { via := Via.coil, slot := BitVec.ofNat 32 (rd f.payload 4 4), tag := BitVec.ofNat 32 (rd f.payload 4 4), irq := false, inl := zeros 16, buf := List.drop 8 f.payload }
      { s with coil.w := { s.coil.w with down := some (frameCtr f), dnUses := s.coil.w.dnUses + 1 } } = none) ∧
    (∃ (f : Frame) (s : State) (x : Fwd), fromWorker 1 1 f s ∧ fwdOf s f.ring f.src (BitVec.ofNat 32 (rd f.payload 4 4)) = some
      x ∧ rd f.payload 1 1 = BitVec.toNat x.op) ∧
    (∃ (f : Frame) (s : State), forManager s f = true ∧ f.cls = 0 ∧ f.typ = 5 ∧ frameBad f = false ∧ (s.boot.fired = false ∨ ∃
      (t : Nat), (getCRing s f.ring).lastCast = some t ∧ s.slot - t < 100 * msSlots)) ∧
    (∃ (f : Frame) (s : State), forManager s f = true ∧ f.cls = 0 ∧ f.typ = 5 ∧ frameBad f = false ∧ s.boot.fired = true ∧ (∀
      (t : Nat), (getCRing s f.ring).lastCast = some t → 100 * msSlots ≤ s.slot - t)) ∧
    (∃ s : State, isWorker s = true ∧ (s.boot.st = BootSt.greenware ∨ s.boot.st = BootSt.hold) ∧ s.boot.fired = false ∧
      imageComplete s = false ∧ (∀ (t : Nat), s.boot.refusedSlot = some t → t + 245760000 ≤ s.slot)) ∧
    (∃ s : State, isWorker s = true ∧ (s.boot.st = BootSt.greenware ∨ s.boot.st = BootSt.hold) ∧ s.boot.fired = false ∧
      (imageComplete s = true ∨ ∃ (t : Nat), s.boot.refusedSlot = some t ∧ s.slot < t + 245760000)) ∧
    (∃ (f : Frame) (s : State), isWorker s = true ∧ f.cls = 1 ∧ f.typ = 6 ∧ List.take 8 f.payload ≠ identBytes) ∧
    (∃ (f : Frame) (s : State), isWorker s = true ∧ f.cls = 1 ∧ f.typ = 6 ∧ f.dst = 255 ∧ 12 ≤ f.payload.length ∧ List.take 8
      f.payload = identBytes ∧ rd f.payload 8 1 = 0 ∧ rd f.payload 9 1 = 0 ∧ fromManager 1 6 f s) ∧
    (∃ (f : Frame) (s : State), isWorker s = true ∧ f.cls = 1 ∧ f.typ = 6 ∧ f.dst = 255 ∧ 12 ≤ f.payload.length ∧ List.take 8
      f.payload = identBytes ∧ rd f.payload 8 1 = 0 ∧ rd f.payload 9 1 = 1 ∧ frameBad f = false ∧ f.session = 4294967295 ∧
      envelopeOp (rd f.payload 10 1) = true ∧ tagOk kFdn f = true ∧ BitVec.toNat s.sgr.envDown < BitVec.toNat f.ctr) ∧
    (∃ (f : Frame) (s : State), isWorker s = true ∧ f.cls = 1 ∧ f.typ = 6 ∧ f.dst = 255 ∧ 12 ≤ f.payload.length ∧ List.take 8
      f.payload = identBytes ∧ rd f.payload 8 1 = 0 ∧ rd f.payload 9 1 = 1 ∧ frameBad f = false ∧ f.session = 4294967295 ∧
      envelopeOp (rd f.payload 10 1) = true ∧ tagOk kFdn f = true ∧ BitVec.toNat f.ctr ≤ BitVec.toNat s.sgr.envDown) ∧
    (∃ (f : Frame) (s : State) (key : List Byte) (x : Fwd), isManager s = true ∧ f.cls = 1 ∧ f.typ = 6 ∧ bit f.flags 1 = true ∧
      12 ≤ f.payload.length ∧ rd f.payload 8 1 = 1 ∧ f.ring = f.port / 2 ∧ ringEn s f.ring = true ∧ frameBad f = false ∧ rd
      f.payload 9 1 = 0 ∧ upKey s f.ring f.src = some key ∧ tagOk key f = true ∧ ctrAfter (frameCtr f) (getEnt s f.ring
      f.src).last = true ∧ keyFwd s f.ring f.src (rd f.payload 10 1) = some x) ∧
    (∃ (f : Frame) (s : State), isManager s = true ∧ f.cls = 1 ∧ f.typ = 6 ∧ bit f.flags 1 = true ∧ 12 ≤ f.payload.length ∧ rd
      f.payload 8 1 = 1 ∧ f.ring = f.port / 2 ∧ ringEn s f.ring = true ∧ frameBad f = false ∧ rd f.payload 9 1 ≠ 0 ∧ f.session
      = 4294967295) :=
  ⟨⟨tDown 1 4 (le 4 4294967295 ++ le 4 1), tWk Init.wside, tDown_fromManager _ _ _ _ (by decide) rfl rfl (by decide +kernel)⟩,
   ⟨tDown 1 5 [], tWk Init.wside, tDown_fromManager _ _ _ _ (by decide) rfl rfl (by decide +kernel)⟩,
   ⟨{ tWk { Init.wside with sent := [⟨3, [], 0, []⟩] } with slot := 491520 }, 3, ⟨3, [], 0, []⟩, by decide +kernel⟩,
   ⟨{ tWk { Init.wside with sent := [⟨3, [], 0, []⟩] } with slot := 491519 }, 3, ⟨3, [], 0, []⟩, by decide +kernel⟩,
   ⟨tUp 2 0 [], tMw 3, tUp_fromWorker _ _ _ _ (by decide) rfl rfl (by decide +kernel)⟩,
   ⟨plainFrame 0 3 0 true 0 1 0 (segment 7 0 tQ 4), tMw 3, 7, tQ, by decide +kernel⟩,
   ⟨tDown 1 0 (zeros 8), { tWk Init.wside with boot.st := .failstop, flt.phase := .safe }, tDown_fromManager _ _ _ _
      (by decide) rfl rfl (by decide +kernel), by decide +kernel, by decide +kernel⟩,
   ⟨tDown 1 0 ([0, 4, 0, 0] ++ le 4 5 ++ [1, 0, 0, 0]), tWk Init.wside, _, tDown_fromManager _ _ _ _ (by decide) rfl rfl
      (by decide +kernel), by decide, by decide, rfl⟩,
   ⟨tDown 1 0 ([0, 4, 0, 0] ++ le 4 5 ++ [1, 0, 0, 0]), tWk Init.wside, tDown_fromManager _ _ _ _ (by decide) rfl rfl
      (by decide +kernel), by decide, by decide, by decide, by decide⟩,
   ⟨tDown 1 0 ([11, 0x61, 0, 0] ++ le 4 5 ++ zeros 8), tWk Init.wside, tDown_fromManager _ _ _ _ (by decide) rfl rfl
      (by decide +kernel), by decide, by decide, by decide, by decide⟩,
   ⟨tDown 1 0 ([5, 0, 0, 0] ++ le 4 5), tWk Init.wside, tDown_fromManager _ _ _ _ (by decide) rfl rfl (by decide +kernel),
      by decide, by decide, rfl⟩,
   ⟨tUp 1 1 ([0, 2, 0, 0] ++ le 4 5 ++ zeros 8), { tMw 3 with hif.fwd := [tFwd 0] }, tFwd 0, tUp_fromWorker _ _ _ _ (by decide)
      rfl rfl (by decide +kernel), by decide, by decide⟩,
   ⟨plainFrame 0 0 5 true 0 1 0 [], { tMgr with boot.fired := false }, by decide +kernel⟩,
   ⟨plainFrame 0 0 5 true 0 1 0 [], tMgr, by decide +kernel⟩,
   ⟨{ tB .greenware with boot.role := .worker }, by decide +kernel⟩,
   ⟨{ tB .greenware with boot.role := .worker, boot.img := { Init.image with total := some 16, units := [(0, zeros 16)] } },
      by decide +kernel⟩,
   ⟨tDown 1 6 [], tW, by decide +kernel, rfl, rfl, tShort_other⟩,
   ⟨tDown 1 6 (identBytes ++ [0, 0, 0x44, 0]), tWk Init.wside, by decide +kernel, rfl, rfl, rfl, tEnv_length, take_ident _,
      rd_ident _ 0 1, rd_ident _ 1 1, tDown_fromManager _ _ _ _ (by simp [identBytes_length]) rfl rfl (by decide +kernel)⟩,
   ⟨tKey 1, tW, by decide +kernel, rfl, rfl, rfl, (tKey_form 1).1, (tKey_form 1).2.1, (tKey_form 1).2.2.1,
      (tKey_form 1).2.2.2.1, (tKey_form 1).2.2.2.2.2.1, rfl, by rw [(tKey_form 1).2.2.2.2.1]; rfl, (tKey_form 1).2.2.2.2.2.2,
      by decide +kernel⟩,
   ⟨tKey 1, { tW with sgr.envDown := 1 }, by decide +kernel, rfl, rfl, rfl, (tKey_form 1).1, (tKey_form 1).2.1,
      (tKey_form 1).2.2.1, (tKey_form 1).2.2.2.1, (tKey_form 1).2.2.2.2.2.1, rfl, by rw [(tKey_form 1).2.2.2.2.1]; rfl,
      (tKey_form 1).2.2.2.2.2.2, by decide +kernel⟩,
   ⟨tUp 1 6 (zeros 8 ++ [1, 0, 0x44, 0]), { tMw 3 with hif.fwd := [{ tFwd 9 with op := 0x44 }] }, [],
      { tFwd 9 with op := 0x44 }, by decide +kernel, rfl, rfl, by decide, by decide, by decide, rfl, by decide +kernel,
      frameBad_authFrame _ _ _ _ _ _ _ _ _ _ _ (by decide) rfl rfl, by decide, by decide +kernel, tagOk_authFrame ..,
      by decide +kernel, by decide +kernel⟩,
   ⟨authFrame 0 1 6 true 0 1 0 [] 0xFFFFFFFF 1 (zeros 8 ++ [1, 1, 0x44, 0]), tMw 3, by decide +kernel, rfl, rfl, by decide,
      by decide, by decide, rfl, by decide +kernel, frameBad_authFrame _ _ _ _ _ _ _ _ _ _ _ (by decide) rfl rfl, by decide,
      rfl⟩⟩

theorem wit_SaggarRequests :
    (∃ (r : Req) (s : State), ownRing9 64 r s ∧ s.sgr.trngOk = true) ∧
    (∃ (r : Req) (s : State), ownRing9 64 r s ∧ s.sgr.trngOk = false) ∧
    (∃ (r : Req) (s : State), ownRing9 65 r s) ∧
    (∃ (r : Req) (s : State), ownRing9 66 r s ∧ changeBad s (List.drop 8 r.buf) = none) ∧
    (∃ (r : Req) (s : State), ownRing9 66 r s ∧ changeBad s (List.drop 8 r.buf) = some statusStale) ∧
    (∃ (r : Req) (s : State), ownRing9 67 r s) ∧
    (∃ (r : Req) (s : State), ownRing9 68 r s ∧ loadBad s (List.drop 8 r.buf) = none) ∧
    (∃ (r : Req) (s : State) (st : W16), ownRing9 68 r s ∧ loadBad s (List.drop 8 r.buf) = some st) ∧
    (∃ (r : Req) (s : State), ownRing9 69 r s ∧ rd (List.drop 8 r.buf) 0 1 ≤ 63 ∧ zerosAt (List.drop 8 r.buf) 1 3 = true ∧
      (policyOf s (rd (List.drop 8 r.buf) 0 1)).testBit 4 = true) ∧
    (∃ (r : Req) (s : State), ownRing9 69 r s ∧ rd (List.drop 8 r.buf) 0 1 ≤ 63 ∧ zerosAt (List.drop 8 r.buf) 1 3 = true ∧
      (policyOf s (rd (List.drop 8 r.buf) 0 1)).testBit 4 = false) ∧
    (∃ (r : Req) (s : State), ownRing9 70 r s ∧ rd (List.drop 8 r.buf) 0 1 ≤ 63 ∧ zerosAt (List.drop 8 r.buf) 1 3 = true) ∧
    (∃ (r : Req) (s : State), ownRing9 71 r s ∧ 1 ≤ rd (List.drop 8 r.buf) 0 2 ∧ rd (List.drop 8 r.buf) 0 2 ≤ 1024 ∧ zerosAt
      (List.drop 8 r.buf) 2 2 = true) ∧
    (∃ (r : Req) (s : State), r.via = Via.host ∧ s.boot.fired = true ∧ 48 ≤ r.buf.length ∧ r.buf.length ≤ 2084 ∧ zerosAt r.buf
      4 4 = true ∧ rd r.buf 0 4 % 2 ^ 15 = 0 ∧ rd r.buf 0 4 < 2 ^ 17 ∧ isManager s = true ∧ ringEn s (rd r.buf 0 4 / 2 ^ 15) =
      true) ∧
    (∃ (r : Req) (s : State), r.via = Via.host ∧ s.boot.fired = true ∧ 48 ≤ r.buf.length ∧ r.buf.length ≤ 2084 ∧ zerosAt r.buf
      4 4 = true ∧ rd r.buf 0 4 % 2 ^ 15 = 0 ∧ rd r.buf 0 4 < 2 ^ 17 ∧ isManager s = false) ∧
    (∃ s : State, s.sgr.ops = []) ∧
    (∃ (s : State) (op : KeyOp) (rest : List KeyOp), s.sgr.ops = op :: rest) ∧
    (∃ (s : State) (q : SReq) (rest : List KeyOp), s.sgr.ops = KeyOp.attest q :: rest) ∧
    (∃ (s : State) (w : Waiter) (b : List Byte) (rest : List KeyOp), s.sgr.ops = KeyOp.token w b :: rest ∧ slotKey s 2 = none) ∧
    (∃ (s : State) (w : Waiter) (b : List Byte) (rest : List KeyOp) (k : List Byte), s.sgr.ops = KeyOp.token w b :: rest ∧
      slotKey s 2 = some k ∧ Config.hmac k (List.take 48 b) ≠ List.take 48 (List.drop 48 b)) ∧
    (∃ (s : State) (w : Waiter) (b : List Byte) (rest : List KeyOp) (k : List Byte), s.sgr.ops = KeyOp.token w b :: rest ∧
      slotKey s 2 = some k ∧ (∀ (n : W64), (credNewest s (rd b 4 1)).serial = some n → BitVec.toNat n < rd b 8 8) ∧ (rd b 24 1
      = 1 → (credNewest s (rd b 4 1)).c + ↑(rd b 16 8) ≤ 2 ^ 63 - 1) ∧ writeForbidden s (nvKey NvKind.credit (rd b 4 1)) =
      false ∧ gasped s = false) :=
  ⟨⟨tSag (zeros 32), tS 0, by decide +kernel⟩,
   ⟨tSag (zeros 32), tMgr, by decide +kernel⟩,
   ⟨tSag [], tS 0, by decide +kernel⟩,
   ⟨tSag tChange, tS 0, tSag_own _ _ _ tChange_len, tChange_good⟩,
   ⟨tSag tChange, tS 1, tSag_own _ _ _ tChange_len, tChange_stale⟩,
   ⟨tSag [], tS 0, by decide +kernel⟩,
   ⟨tSag tLoad, tS 0, tSag_own _ _ _ (by rw [sagLen, tLoad_length]; decide), tLoad_good⟩,
   ⟨tSag (zeros 100), tS 0, statusRange, tSag_own _ _ _ (by decide +kernel), by decide +kernel⟩,
   ⟨tSag [9, 0, 0, 0], tS 0, by decide +kernel⟩,
   ⟨tSag [63, 0, 0, 0], tS 0, by decide +kernel⟩,
   ⟨tSag [9, 0, 0, 0], tS 0, by decide +kernel⟩,
   ⟨tSag [9, 0, 0, 0], tS 0, by decide +kernel⟩,
   ⟨tReq (le 4 98304 ++ zeros 44), tMgr, by decide +kernel⟩,
   ⟨tReq (le 4 98304 ++ zeros 44), tS 0, by decide +kernel⟩,
   ⟨tS 0, by decide +kernel⟩,
   ⟨{ tS 0 with sgr.ops := [.token (reqWaiter (tReq []) 11 0x60) []], sgr.slots := [(2, { Init.kslot with st := 3 })] }, .token
      (reqWaiter (tReq []) 11 0x60) [], [], by decide +kernel⟩,
   ⟨{ tS 0 with sgr.ops := [.attest ⟨reqWaiter (tReq []) 9 0x40, Stamp.zero, 0, 0, zeros 32⟩] }, ⟨reqWaiter (tReq []) 9 0x40,
      Stamp.zero, 0, 0, zeros 32⟩, [], by decide +kernel⟩,
   ⟨{ tS 0 with sgr.ops := [.token (reqWaiter (tReq []) 11 0x60) []] }, reqWaiter (tReq []) 11 0x60, [], [], by decide +kernel⟩,
   ⟨{ tS 0 with sgr.ops := [.token (reqWaiter (tReq []) 11 0x60) tBadToken], sgr.slots := [(2, { Init.kslot with st := 3 })] },
      reqWaiter (tReq []) 11 0x60, tBadToken, [], [], rfl, by decide +kernel, tBadToken_tag⟩,
   ⟨{ tS 0 with sgr.ops := [.token (reqWaiter (tReq []) 11 0x60) (zeros 96)], sgr.slots := [(2, { Init.kslot with st := 3 })] },
      reqWaiter (tReq []) 11 0x60, zeros 96, [], [], by decide +kernel, by decide +kernel, fun n h => not_some h
      (by decide +kernel), by decide +kernel, by decide +kernel, by decide +kernel⟩⟩

theorem wit_KeysKeepTheirValue :
    (∃ s : State, s.sgr.trngOk = true ∧ (∀ (i : Nat), (getSlot s i).taken.key.v.length = (getSlot s i).taken.key.m.length)) ∧
    (∃ s : State, s.sgr.trngOk = false) ∧
    (∃ s : State, s.boot.st = BootSt.backup) ∧
    (∃ s : State, s.boot.st ≠ BootSt.backup) ∧
    (∃ (s : State) (i : Nat), slotNums.contains i = true ∧ (wrapRoot s).isSome = true ∧ (getSlot s i).taken.st = 1 ∧ (newestKey
      s i).2 = (getSlot s i).taken.gen ∧ s.sgr.trngOk = true ∧ gasped s = false) ∧
    (∃ (s : State) (i : Nat), (wrapRoot s = none ∨ (getSlot s i).taken.st ≠ 1 ∨ s.sgr.trngOk = false ∨ gasped s = true)) ∧
    (∃ s : State, running s = true ∧ bit (getBlk s 13).flive 0 = false) ∧
    (∃ s : State, running s = true ∧ bit (getBlk s 13).flive 0 = true) ∧
    (∃ s : State, running s = false) :=
  ⟨⟨tKeyed, by decide +kernel, tKeyed_shares⟩,
   ⟨tM, by decide +kernel⟩,
   ⟨{ State.reset with boot.st := .backup }, by decide +kernel⟩,
   ⟨{ tS 0 with sgr.slots := [(3, ⟨3, ⟨[1, 2], [3, 4]⟩, 0, none⟩)] }, by decide +kernel⟩,
   ⟨{ tS 0 with sgr.slots := [(3, ⟨3, ⟨[1, 2], [3, 4]⟩, 0, none⟩), (63, ⟨1, ⟨[1, 2], [3, 4]⟩, 0, none⟩)] }, 63,
      by decide +kernel⟩,
   ⟨{ tS 0 with sgr.slots := [(3, ⟨3, ⟨[1, 2], [3, 4]⟩, 0, none⟩)] }, 63, by decide +kernel⟩,
   ⟨{ tS 0 with sgr.slots := [(3, ⟨3, ⟨[1, 2], [3, 4]⟩, 0, none⟩)] }, by decide +kernel⟩,
   ⟨{ tM with flt.blk := [(13, { Init.blkFlt with flive := 1 })] }, by decide +kernel⟩,
   ⟨{ State.reset with boot.st := .backup }, by decide +kernel⟩⟩

/-! ### Ill-formed commands are refused, one for every check of `Instr.wf` -/

def tBadReq : Req := { tReq [] with inl := zeros 15 }
def tFrame : Frame := ⟨0, 0, 0, 0, 0, 0, 0, 0, 0, 0, 0, [], [], 0⟩
def tBadFrame : Frame := { tFrame with port := 8 }
def tDesc (n : Nat) : Desc := ⟨0, 0, 1, 0, 0, zeros n, []⟩

theorem test_wf_refuses_request1 : ([
    .imageData tBadReq, .imageEnd tBadReq, .imageAbort tBadReq, .imageInfo tBadReq, .configSet tBadReq, .regRead tBadReq,
    .sync tBadReq, .tripClear tBadReq, .logReplay tBadReq, .snapReplay tBadReq, .chanCal tBadReq, .pointDef tBadReq,
    .f3Store tBadReq, .cfCfg tBadReq, .coefSwap tBadReq, .calBank tBadReq, .pqSubscribe tBadReq, .capCfg tBadReq,
    .capArm tBadReq, .capTrigger tBadReq, .capRelease tBadReq, .trfLoad tBadReq, .trfArm tBadReq, .trfCtledit tBadReq,
    .trfSnap tBadReq, .creditCfg tBadReq, .ctlCfg tBadReq, .rtcSet tBadReq, .creditToken tBadReq, .creditEc tBadReq,
    .ctlSwitch tBadReq, .attest tBadReq, .certRead tBadReq, .guardChange tBadReq, .guardRead tBadReq, .keyLoad tBadReq,
    .keyErase tBadReq, .keyInfo tBadReq, .random tBadReq, .keyRelay tBadReq] : List Instr).all (fun c => !c.wf) = true := by decide +kernel

theorem test_wf_refuses_request2 : ([
    .ringSet tBadReq, .ringInfo tBadReq, .enumerate tBadReq, .streamStart tBadReq, .streamStop tBadReq, .streamBuf tBadReq] : List Instr).all (fun c => !c.wf) = true := by decide +kernel

theorem test_wf_refuses_frame : ([
    .frameForward tBadFrame, .frameDiscard tBadFrame, .enumFrame tBadFrame 1 0, .helloFrame tBadFrame ⟨0, 0, 0, 0, []⟩,
    .assignFrame tBadFrame ⟨0, 1, [], []⟩, .statusFrame tBadFrame ⟨0, 0, 0, 0, 0, 0, false, false, 0, 0, []⟩,
    .delayReq tBadFrame 0, .delayResp tBadFrame 0 0, .commandFrame tBadFrame, .replyFrame tBadFrame,
    .creditFrame tBadFrame, .ackFrame tBadFrame, .keyFrame tBadFrame, .reportRecords tBadFrame, .bulkRecords tBadFrame,
    .imageNeed tBadFrame, .imageFrame tBadFrame] : List Instr).all (fun c => !c.wf) = true := by decide +kernel

theorem test_wf_refuses_number1 : ([
    .rclkLoss 2, .rclkReturn 2, .powerupCalAttemptEnd 8, .calRetryStart 8,
    .acpWdog 2, .refHalfCycle 4 true, .angleActionFire 64, .rtcActionFire 32, .integratorReset 65, .coarseSample 65 0,
    .coarseRmsBlock 65, .modulatorStuck 65, .shadowCompareTurn 3, .shadowDwellAdvance 3, .shadowSelfcheckStep 3,
    .auxDwellEnd 2, .auxSettlingEnd 2, .tripComparatorAssert 48 0, .tripComparatorRelease 48, .tripStretchEnd 16,
    .coefFadeStart 69, .coefFadeEnd 69, .fadeDeferred 69, .coefCrcCheck 69 none, .coefCrcCheck 1 (some (48, 0)), .slotOverrun 64, .pointDefEffect 256,
    .chanCalEffect 60, .cfPulseStart 8, .cfPulseEnd 8, .cfCfgEffect 8, .supraWindowAnalyse 12, .captureTrigger 8,
    .trimWrite 8, .ecreqPress 32, .overrideExpiry 16, .pwmPeriod 16,
    .ctlCfgEffect 16, .eccErrorDetect 0 true .sram] : List Instr).all (fun c => !c.wf) = true := by decide +kernel

theorem test_wf_refuses_number2 : ([
    .eccErrorDetect 19 true .sram, .eccErrorDetect 1 true (.kilnCopy 0 2), .rtcSecRead 3, .rtcYearRead 3,
    .rtcFreezeExpiry 3, .eventInputEdge 8 true, .doorbellWrite 16 0, .descriptorAccept 16 [tDesc 16],
    .descriptorAccept 1 [], .descriptorAccept 1 [tDesc 15], .completionWrite 16, .receiveBufferComplete 16 (tDesc 16),
    .receiveBufferComplete 1 (tDesc 15), .receiveCoalesceExpiry 16, .dmaReadError 16, .commandForwardTimeout 16 0,
    .linkSyncGain 8, .linkSyncLoss 520 0, .lfailReceive 8, .linkHeal 520, .enumFrame tFrame 256 0, .enumerationStart 4,
    .enumerationEnd 4, .assignFrame tFrame ⟨4, 1, [], []⟩, .assignFrame tFrame ⟨0, 0, [], []⟩,
    .assignFrame tFrame ⟨0, 128, [], []⟩, .workerLost 4 1, .workerLost 1 0, .workerLost 1 128, .delayMeasureStart 8 0,
    .segmentTimeout 4 1 1 0, .segmentTimeout 1 128 1 0, .segmentTimeout 1 1 16 0, .slotRewrap 64, .tamperEvent 8 0,
    .tamperWindowExpiry 8, .tamperHoldoffEnd 8, .graceExpiry 0, .graceExpiry 19, .escWindowExpiry 0 1] : List Instr).all (fun c => !c.wf) = true := by decide +kernel

theorem test_wf_refuses_number3 : ([
    .escWindowExpiry 19 1, .escWindowExpiry 1 32, .escResolveSpan 0 1, .escResolveSpan 19 1, .escResolveSpan 1 32,
    .parityErrorDetect 0 1, .parityErrorDetect 19 1, .parityErrorDetect 1 32, .pinEvoutWrite 4 0, .evoutPulseEnd 4,
    .driveMismatch 50, .rcRead 0x4000, .rcRead 2, .w1cWrite 0x4000 0, .w1cWrite 2 0, .latchedPairRead 0x4000,
    .latchedPairRead 2, .regWrite 0x4000 0, .regWrite 2 0] : List Instr).all (fun c => !c.wf) = true := by decide +kernel

theorem test_wf_refuses_frame_fields : ([{ tFrame with port := 8 }, { tFrame with cls := 4 }, { tFrame with typ := 64 },
    { tFrame with plen := 65536 }, { tFrame with dst := 256 }, { tFrame with src := 256 }, { tFrame with ring := 256 }] :
    List Frame).all (fun f => !(Instr.frameForward f).wf) = true := by decide +kernel

theorem test_wf_refuses_desc_and_place : (Instr.receiveBufferComplete 1 { tDesc 16 with len := 1 }).wf = false ∧
    (Instr.eccErrorDetect 9 true (.spread 0 8)).wf = false := by decide +kernel

/-- Well-formed commands pass. -/
theorem test_wf_accepts : ([.regRead (tReq []), .frameForward tFrame, .descriptorAccept 15 [tDesc 16], .rcRead 0x3FFC,
    .assignFrame tFrame ⟨3, 127, [], []⟩, .shadowCompareTurn 2, .parityErrorDetect 18 31] : List Instr).all (·.wf) = true := by
  decide +kernel

/-! ### The manual's numbers -/

/-- Chapter 21, REG_READ example, and the reset column of chapter 21. -/
theorem test_reset_registers : [0x0400, 0x0C04, 0x0C10, 0x0C14, 0x0C18, 0x1028].map
    (regImage { State.reset with boot.fired := true }) = [0x00000FFF, 0x80, 0x4000, 0x0000000A, 0x03200000, 0x00400000] ∧
    regImage State.reset 0x2C00 = 0x20 := by decide +kernel

/-- The check value of the Castagnoli CRC over the nine characters 1 to 9. -/
theorem test_crc32c : crc32c [0x31, 0x32, 0x33, 0x34, 0x35, 0x36, 0x37, 0x38, 0x39] = 0xE3069283#32 := by decide +kernel

/-- Chapter 0: 3 is newer than 0xFFFF_FFFE. -/
theorem test_sequence_newer : seqNewer 3 0xFFFFFFFE = true ∧ seqNewer 0xFFFFFFFE 3 = false := by decide

/-- Chapter 2: the correction of the fine path at 50 Hz takes 0x9A50_0000 to 0x9A41_999A and 0x8000 to 0x7FB6. -/
theorem test_stamp_correction :
    let s := { tM with whl := { Init.whl with run := true, pos := 0x123456789A500000, delta := 0xA0000000, prevDelta := 0xA0000000 } }
    let t := stampBack s ⟨0x123456789A500000, 0x2F1A0C40, 0x8000, 0⟩ 27648
    t.wheel = 0x123456789A41999A ∧ t.sec = 0x2F1A0C40 ∧ t.frac = 0x7FB6 := by decide +kernel

/-- Chapter 2: 12 ms at 50.02 Hz are 39,337 units; the entry for 90° fires in the turn before at angle 42,583. -/
theorem test_angle_advance : ctlAdvance 12000 52449772 = 39337 ∧
    angleOf (firePos ⟨5, 16384, false, true, true, 0, 0, 39337⟩) = 42583 ∧
    turnOf (firePos ⟨5, 16384, false, true, true, 0, 0, 39337⟩) = 4 := by decide +kernel

/-- Chapter 10: 15 ms at 50 Hz are 49,152 units. -/
theorem test_credit_advance : ctlAdvance 15000 0x03200000 = 49152 := by decide

/-- Chapter 5: the phase filter of I20 with ADJ +100 shows the delay 4,375,729, and its centre tap is near 0.9578. -/
theorem test_phase_delay : delayCode (delayNum 100 20) = 4375729#24 ∧
    (nth (phaseCoefs (delayNum 100 20)) 4 0 - 1004326).natAbs < 60 ∧ sumI (phaseCoefs (delayNum 100 20)) = 2 ^ 20 := by decide +kernel

/-- Chapter 5: at 50 Hz a wheel sample spans 1.25 fine periods; sample 37 of the turn at 4,000.3 takes index 4,046, phase 282. -/
theorem test_resampler_phase : deltaOf 0x03200000 = 0xA0000000#32 ∧
    rsIndex ⟨1, 8590578783028, 0xA0000000, false, true⟩ 37 = (4046, 282) := by decide +kernel

/-- Chapter 4: the combs of stage A over the register contents of the example end in 0x1000. -/
theorem test_stageA_combs :
    let x := [0x2308, 0xDFB8, 0x6568].foldl (fun x (a : W16) => (stageAComb { x with a3 := a }).2) Init.strm
    (stageAComb { x with a3 := 0xC418 }).1 = 0x1000 := by decide +kernel

/-- Chapter 4: integrator 3 after 952 bits of +1 is k(k + 1)(k + 2)/6, 0x2308 in its register. -/
theorem test_stageA_integrators : ((List.range 119).foldl (fun x _ => integrate8 0xFF x) Init.strm).a3 = 0x2308#16 := by
  decide +kernel

/-- Chapter 4: a fade at its last step takes the new set. -/
theorem test_fade_ends : fadeMix 100 (-5000) 63 = -5000 ∧ fadeMix 100 (-5000) 0 = 20 := by decide

/-- Chapter 8: factory codes at 43.5 °C, 2,125 and −20. -/
theorem test_interpolation : interpCode (fun i => nth [0, 0, 2100, 2160, 0] i 0) 696 = 2125 ∧
    interpCode (fun i => nth [0, 0, -25, -13, 0] i 0) 696 = -20 := by decide

/-- Chapter 8: the attempt of I5 gives dG 34 and dO 8, so G 2,171 and O −9. -/
theorem test_calibration_step :
    let c := judgeCal { Init.calMod with o := -17, g := 2137, sz := 3210 * 128, szz := 3210 * 3210 * 128 + 41 * 41 * 128, sp := 5034150 * 128, sn := -5027000 * 128 }
    c.result = 1 ∧ c.dg = 34 ∧ c.newO = -9 ∧ c.newG = 2171 ∧ c.noise = 41 := by decide +kernel

/-- Chapter 9: 2031-03-31 22:00:00 is 986,076,000. Chapter 12: the fields of 2031-03-31 21:59:59, a Monday. -/
theorem test_calendar_instant : toSeconds 2031 3 31 22 0 0 = 986076000 ∧ weekday 11412 = 0 ∧ civil 11412 = (2031, 3, 31) ∧
    rtcEpochImage 986075999 = 0x3AC6535F ∧ rtcSecImage 986075999 0xFFF9 = 0xFFF9003B ∧ rtcHourImage 986075999 = 21 := by decide +kernel

/-- Chapter 12: K 34 and 20 °C off give COMP 14. -/
theorem test_tcomp :
    let s := { tM with rtc := { Init.rtc with tcomp := BitVec.ofNat 32 (400 * 2 ^ 16 + 34) }, cal := { Init.cal with meas := 720 } }
    (match execTcompUpdate s with | .next t => t.rtc.comp == 14 | _ => false) = true := by decide +kernel

/-- Chapter 14: worker 18 of 40 by CW and by CCW, and the difference at 50 Hz. Chapter 2: 492 ns are 413 units. -/
theorem test_path_delay : rndAway (980 * 50 * 2 ^ 24) (10 ^ 9) = 822 ∧ rndAway (492 * 50 * 2 ^ 24) (10 ^ 9) = 413 := by decide

/-- Chapter 7: the default entries of a full worker cost 245 B/s; 200 ms bands on 12 taps cost 180,480 B/s. -/
theorem test_stream_rates :
    subRate { Init.subEnt with en := true, kind := 0, interval := 2, cmask := BitVec.ofNat 64 (2 ^ 60 - 1) } = 56 ∧
    subRate { Init.subEnt with en := true, kind := 1, interval := 2, pmask := BitVec.allOnes 256 } = 127 ∧
    subRate { Init.subEnt with en := true, kind := 2, interval := 2, cmask := 0xFFF } = 61 ∧
    subRate { Init.subEnt with en := true, kind := 3, interval := 2, cmask := 0xF } = 1 ∧
    subRate { Init.subEnt with en := true, kind := 2, interval := 0, cmask := 0xFFF } = 180480 := by decide +kernel

/-- Chapter 18: FLT_REASON of the two examples. -/
theorem test_reason_words : reasonWord false false 3 2 1 = 0x83020001 ∧ reasonWord true false 2 1 3 = 0xC2010003 ∧
    reasonWord false false 3 14 1 = 0x830E0001 := by decide

/-- Chapter 6: a power factor of one saturates at 0x7FFF; its negative reads −32,768. -/
theorem test_power_factor : (powerFactor 1000 1000).1 = 32767 ∧ (powerFactor (-1000) 1000).1 = -32768 := by decide

end Sys2Proof.Tests
end

/-!
PROOFS. What the scope's statements claim: every command ends and keeps to its footprint (O2), how verification, CAL and
RESTORE end (O12), and the accesses to BAR0 (O50).
-/

namespace Sys2Proof.Proofs
open Sys2Proof Sys2Proof.Machine Sys2Proof.Laws

/-! ### Every command ends, and keeps to its footprint -/

/-- Each command ends in a next state: every meaning but VERIFY_DONE's is `.next` of the state it leads to, directly or
through the common checks of its ring. -/
theorem exec_next {c : Instr} (hc : c ≠ .verifyDone) (s : State) : ∃ t, exec c s = .next t := by
  cases c
  case verifyDone => exact absurd rfl hc
  all_goals exact ⟨_, rfl⟩

/-- Each command keeps the blocks outside its row of `foot`. In every case that row hides just what the command's own law
`hide_exec…` under Laws/ asks for, and the law says the rest. -/
theorem kept_exec_foot (c : Instr) (s : State) : kept (foot c) (hide (foot c) s) (exec c s) := by
  have rowHides : Hidden true := ⟨rfl⟩
  cases c <;> simp only [exec, foot, faultBlocks] <;> simp

theorem hide_foot_of_exec {c : Instr} {s t : State} (h : exec c s = .next t) : hide (foot c) t = hide (foot c) s := by
  simpa [h] using kept_exec_foot c s

/-- Settles O2: a split over the commands, each by the frame law of its meaning. -/
theorem commandFrame : Obligations.CommandFrame := by
  unfold Obligations.CommandFrame
  intro c s
  refine ⟨fun hc => ?_, fun t h => hide_foot_of_exec h⟩
  obtain ⟨t, h⟩ := exec_next hc s
  exact ⟨t, h, hide_foot_of_exec h⟩

/-! ### The boot block and the fail-stop under operations that leave them alone -/

/-- A field of the boot block other than the boot state is as before where the rest of the block is not hidden. -/
theorem same_bootField {α : Type} {μ : Mask} {s t : State} (f : Boot → α) (hf : ∀ b st, f { b with st := st } = f b)
    (h : hide μ t = hide μ s) (hm : μ.boot = false) : f t.boot = f s.boot := by
  rw [← hf t.boot .off, same_bootRest h hm, hf]

theorem stop_of_hide {μ : Mask} {s t : State} (h : hide μ t = hide μ s) (hf : μ.flt = false) (hs : μ.bootSt = false) :
    stop t = stop s := by
  simp only [stop, same_flt h hf, same_bootSt h hs]

theorem stop_st {s t : State} (h : stop t = stop s) : t.boot.st = s.boot.st := congrArg Prod.snd h

/-- A raise changes no field of the boot block but the boot state. -/
theorem bootField_raise {α : Type} (f : Boot → α) (hf : ∀ b st, f { b with st := st } = f b) (b src : Nat) (s : State) :
    f (raise b src s).boot = f s.boot :=
  same_bootField f hf (@hide_raise faultBlocks ⟨rfl⟩ ⟨rfl⟩ ⟨rfl⟩ ⟨rfl⟩ ⟨rfl⟩ ⟨rfl⟩ ⟨rfl⟩ b src s) rfl

/-- A raise of a class below GRAVE leaves the boot state. -/
theorem st_raise {b src : Nat} (h : srcClass b src ≠ some .grave) (s : State) : (raise b src s).boot.st = s.boot.st :=
  stop_st (by rw [stop_raise, if_neg (fun hc => h hc.1)])

/-! ### VERIFY_DONE -/

theorem execVerifyDone_idle {s : State} (h : verifying s = false) : execVerifyDone s = .next s := by
  simp [execVerifyDone, h]

theorem execVerifyDone_refused {s : State} (h : verifying s = true) (hc : (verifyResult s).1 ≠ 0) :
    execVerifyDone s = .next (refuseImage (verifyResult s).1 (verifyResult s).2 s) := by
  simp [execVerifyDone, h, hc]

theorem execVerifyDone_fired {s : State} (h : verifying s = true) (hc : (verifyResult s).1 = 0)
    (hd : describedImage s = true) : execVerifyDone s = .next (fireImage s) := by
  simp [execVerifyDone, h, hc, hd]

theorem execVerifyDone_other {s : State} (h : verifying s = true) (hc : (verifyResult s).1 = 0)
    (hd : describedImage s = false) : execVerifyDone s = .fault .otherImage := by
  simp [execVerifyDone, h, hc, hd]

/-- The one fault: a genuine image of a release that the manual does not describe (R4). -/
theorem execVerifyDone_fault_iff (s : State) : execVerifyDone s = .fault .otherImage ↔
    verifying s = true ∧ (verifyResult s).1 = 0 ∧ describedImage s = false := by
  refine ⟨fun h => ?_, fun ⟨hv, hc, hd⟩ => execVerifyDone_other hv hc hd⟩
  cases hv : verifying s
  · simp [execVerifyDone_idle hv] at h
  by_cases hc : (verifyResult s).1 = 0
  · cases hd : describedImage s
    · exact ⟨rfl, hc, rfl⟩
    · simp [execVerifyDone_fired hv hc hd] at h
  · simp [execVerifyDone_refused hv hc] at h

theorem verifying_of_verify {s : State} (h : s.boot.st = .verify) : verifying s = true := by simp [verifying, h]

theorem verifyResult_headerBad {s : State} (h : headerBad s = true) : (verifyResult s).1 = 1 := by
  simp [verifyResult, h]

/-- The blocks that a completion changes. -/
def completeBlocks : Mask := { out := true, hif := true, coil := true }

theorem hide_complete_own (w : Waiter) (st : W16) (q : W32) (d : List Byte) (s : State) :
    hide completeBlocks (complete w st q d s) = hide completeBlocks s :=
  @hide_complete completeBlocks ⟨rfl⟩ ⟨rfl⟩ ⟨rfl⟩ w st q d s

theorem boot_endImage (st : W16) (s : State) : (endImage st s).boot =
    { s.boot with img := { s.boot.img with endAcc := false, endWait := none }, abort := false } := by
  unfold endImage
  split
  · exact same_boot (hide_complete_own _ _ _ _ _) rfl rfl
  · rfl

theorem cpx_endImage (st : W16) (s : State) : (endImage st s).cpx = s.cpx := by
  unfold endImage
  split
  · rw [same_cpx (hide_complete_own _ _ _ _ _) rfl]
  · rfl

theorem hide_pendVectors_own (s : State) : hide completeBlocks (pendVectors s) = hide completeBlocks s :=
  @hide_pendVectors completeBlocks ⟨rfl⟩ ⟨rfl⟩ s

/-- A FIRED image: RESTORE follows VERIFY, and the cores run (R409). -/
theorem fireImage_of_verify {s : State} (h : s.boot.st = .verify) :
    (fireImage s).boot.st = .restore ∧ (fireImage s).boot.fired = true ∧ (fireImage s).boot.result = 0 ∧
      (fireImage s).cpx.lcp = true ∧ (fireImage s).cpx.acp0 = true ∧ (fireImage s).cpx.acp1 = true := by
  unfold fireImage
  rw [same_boot (hide_pendVectors_own _) rfl rfl, same_cpx (hide_pendVectors_own _) rfl, boot_endImage, cpx_endImage]
  simp [h]

/-- A refused image: its store is cleared, GREENWARE follows VERIFY, and IMAGE_REFUSED is raised (R410). -/
theorem refuseImage_of_verify (code : Nat) (st : W16) {s : State} (h : s.boot.st = .verify) :
    (refuseImage code st s).boot.st = .greenware ∧ (refuseImage code st s).boot.fired = s.boot.fired ∧
      (refuseImage code st s).boot.img = { Init.image with state := 3 } ∧
      (refuseImage code st s).boot.result = BitVec.ofNat 4 code ∧ latched 17 3 (refuseImage code st s) := by
  unfold refuseImage
  dsimp -proj only
  refine ⟨?_, ?_, ?_, ?_, fbit_raise_self 17 3 _ (by decide)⟩
  · rw [st_raise (by decide)]; simp [boot_endImage, h]
  · rw [bootField_raise Boot.fired (fun _ _ => rfl)]; simp [boot_endImage]
  · rw [bootField_raise Boot.img (fun _ _ => rfl)]
  · rw [bootField_raise Boot.result (fun _ _ => rfl)]

/-! ### The end of RESTORE and of CAL -/

/-- RESTORE without a GRAVE fault on the way ends in METERING (R412). -/
theorem st_restoreEnd (s : State) :
    (driveAll (frozenStart (meterStart { s with boot.st := .metering }))).boot.st = .metering := by
  have hd := fun u => same_bootSt (@hide_driveAll { rtc := true, pin := true, crd := true } ⟨rfl⟩ ⟨rfl⟩ ⟨rfl⟩ u) rfl
  have hf := fun u => same_bootSt (@hide_frozenStart { pnt := true, pq := true, trf := true } ⟨rfl⟩ ⟨rfl⟩ ⟨rfl⟩ u) rfl
  rw [hd, hf]
  rfl

/-- The codes written from new trims raise at most a NOTICE, TRIM_CLAMP: the boot state stays (R203). -/
theorem stop_writeCodes (ms : List Nat) (s : State) : stop (writeCodes ms s) = stop s := by
  have hc : ∀ f : State → Nat → CalMod,
      stop (ms.foldl (fun t m => setCalMod m (f t m) t) s) = stop s := fun f =>
    stop_of_hide (μ := { cal := true }) (hide_foldl (fun t m => @hide_setCalMod _ ⟨rfl⟩ m (f t m) t) ms s) rfl rfl
  unfold writeCodes
  dsimp -proj only
  split
  · rw [stop_raise, if_neg (by simp [srcClass])]
    exact hc _
  · exact hc _

theorem stop_applyTrims (ms : List Nat) (ds : List (Nat × Int × Int)) (s : State) : stop (applyTrims ms ds s) = stop s :=
  (stop_writeCodes _ _).trans (stop_of_hide (@hide_putDeltas { cal := true } ⟨rfl⟩ ds s) rfl rfl)

theorem stop_calWrite (power : Bool) (ms : List Nat) (s : State) : stop (calWrite power ms s) = stop s := by
  unfold calWrite
  extract_lets key ds cal s1
  have hcount : stop s1 = stop s := by unfold s1; split <;> rfl
  split
  · exact (stop_applyTrims ms ds s1).trans hcount
  · exact hcount

/-- The write of the power-up trims leaves the boot state. -/
theorem st_powerupWrite (s : State) : (powerupWrite s).boot.st = s.boot.st := by
  have hevent := fun k g a b r c st u => same_bootSt (@hide_calEvent { nvs := true } ⟨rfl⟩ k g a b r c st u) rfl
  have hrecon := fun ms u => same_bootSt (@hide_reconnect { afe := true, dec := true } ⟨rfl⟩ ⟨rfl⟩ ms u) rfl
  unfold powerupWrite
  dsimp only
  rw [hevent, hrecon, stop_st (stop_calWrite _ _ _)]

theorem bootField_powerupWrite {α : Type} (f : Boot → α) (hf : ∀ b st, f { b with st := st } = f b) (s : State) :
    f (powerupWrite s).boot = f s.boot :=
  same_bootField f hf (@hide_powerupWrite { faultBlocks with afe := true, dec := true, cal := true }
    ⟨rfl⟩ ⟨rfl⟩ ⟨rfl⟩ ⟨rfl⟩ ⟨rfl⟩ ⟨rfl⟩ ⟨rfl⟩ ⟨rfl⟩ ⟨rfl⟩ ⟨rfl⟩ s) rfl

theorem boot_enterGreenware (s : State) :
    (enterGreenware s).boot = { s.boot with st := .greenware, greenSlot := some s.slot } := by
  have hn := fun u => same_boot (@hide_sendNeed { out := true } ⟨rfl⟩ u) rfl rfl
  unfold enterGreenware
  dsimp -proj only
  split
  · rw [hn]
  · rfl

/-- CAL ends in RESTORE where an image is FIRED, in VERIFY where one waits for its verification, else in GREENWARE
(R211, R397). -/
theorem execPowerupCalWrite_ends {s : State} (hs : s.boot.st = .cal) (hp : powerupDone s = true) :
    ends (execPowerupCalWrite s) (fun t => t.boot.calDone = true ∧
      t.boot.st = if s.boot.fired then .restore else if s.boot.img.endAcc then .verify else .greenware) := by
  refine ⟨_, rfl, ?_⟩
  have hst : (powerupWrite s).boot.st = .cal := (st_powerupWrite s).trans hs
  have hfired := bootField_powerupWrite Boot.fired (fun _ _ => rfl) s
  have himg := bootField_powerupWrite Boot.img (fun _ _ => rfl) s
  cases hf : s.boot.fired
  · cases ha : s.boot.img.endAcc <;> simp [hs, hp, hst, hfired, himg, hf, ha, boot_enterGreenware]
  · simp [hs, hp, hst, hfired, hf]

/-! ### IMAGE_WAIT and IMAGE_DATA -/

theorem execImageWait_raises {s : State} (hr : running s = true) (hw : s.boot.waitRaised = false)
    (hf : s.boot.fired = false) (hi : imageComplete s = false) (ht : imageWaited s = true) :
    execImageWait s = .next (raise 17 4 { s with boot.waitRaised := true }) := by
  simp [execImageWait, hr, hw, hf, hi, ht]

/-- IMAGE_WAIT comes once per POR (R418). -/
theorem execImageWait_once {s : State} (hw : s.boot.waitRaised = true) : execImageWait s = .next s := by
  simp [execImageWait, hw]

/-- The boot state decides on an image data request before its own checks (R405, R408). -/
theorem execImageData_refused (r : Req) {s : State} {st : W16} (h : firstBad (imageState s) = some st) :
    execImageData r s = .next (complete (reqWaiter r 8 0x80) st 0 [] s) := by
  have hfirst : ∀ l, firstBad (imageState s ++ l) = some st := by
    intro l
    revert h
    simp only [imageState, List.cons_append, List.nil_append, firstBad]
    cases s.boot.st == BootSt.failstop <;> cases s.boot.fired <;> simp
  simp only [execImageData, hfirst]

/-- Settles O12: each way a boot state ends, by the lemma on the command that ends it. -/
theorem bootEnds : Obligations.BootEnds := by
  unfold Obligations.BootEnds
  refine ⟨fun s hs hf => ⟨fun hd => ?_, fun hc => ?_, verifyResult_headerBad⟩, execVerifyDone_fault_iff,
    fun s => ⟨fun hs hn => ?_, fun hs hp => ?_⟩, fun s hr hw hf hi ht => ?_, fun r s => ⟨fun h => ?_, fun h hf => ?_⟩⟩
  · by_cases hc : (verifyResult s).1 = 0
    · exact ⟨_, execVerifyDone_fired (verifying_of_verify hs) hc hd, fun _ => fireImage_of_verify hs⟩
    · exact ⟨_, execVerifyDone_refused (verifying_of_verify hs) hc, fun h => absurd h hc⟩
  · obtain ⟨hst, hfired, himg, hres, hlat⟩ := refuseImage_of_verify (verifyResult s).1 (verifyResult s).2 hs
    exact ⟨_, execVerifyDone_refused (verifying_of_verify hs) hc, hst, hfired.trans hf, by rw [himg], by rw [himg]; rfl,
      hres, hlat⟩
  · refine ⟨_, rfl, fun hg => ?_⟩
    simpa [hs, hn, hg] using st_restoreEnd (restoreAll s)
  · obtain ⟨t, ht, hcal, hst⟩ := execPowerupCalWrite_ends hs hp
    exact ⟨t, ht, hcal, fun _ _ => hst⟩
  · have hw' := bootField_raise Boot.waitRaised (fun _ _ => rfl) 17 4 { s with boot.waitRaised := true }
    exact ⟨_, execImageWait_raises hr hw hf hi ht, hw', fbit_raise_self 17 4 _ (by decide), execImageWait_once hw'⟩
  · exact execImageData_refused r (by simp [imageState, firstBad, h])
  · exact execImageData_refused r (by simp [imageState, firstBad, h, hf])

/-! ### Accesses to BAR0 -/

theorem hostRead_on {s : State} (h : hostOn s = true) (off : Nat) :
    hostRead off s = emit (.readVal off (regImage s off)) (readSide off s) := by simp [hostRead, readReg, h]

theorem hostRead_off {s : State} (h : hostOn s = false) (off : Nat) : hostRead off s = s := by simp [hostRead, h]

theorem readSide_unexposed {s : State} {off : Nat} (h : exposed s off = false) : readSide off s = s := by
  simp [readSide, h]

theorem regImage_unexposed {s : State} {off : Nat} (h : exposed s off = false) : regImage s off = 0 := by
  simp [regImage, h]

theorem hostRead_unexposed {s : State} {off : Nat} (h : hostOn s = true) (he : exposed s off = false) :
    hostRead off s = emit (.readVal off 0) s := by
  rw [hostRead_on h, readSide_unexposed he, regImage_unexposed he]

theorem writable_hostOff {s : State} (h : hostOn s = false) (off : Nat) : writable s off = false := by
  simp [writable, h]

theorem writable_unexposed {s : State} {off : Nat} (h : exposed s off = false) : writable s off = false := by
  simp [writable, h]

theorem writable_failstop {s : State} {off : Nat} (hp : s.flt.phase = .safe) (h : failstopWrites off = false) :
    writable s off = false := by simp [writable, hp, h]

theorem execW1cWrite_on {s : State} {off : Nat} (h : writable s off = true) (v : W32) :
    execW1cWrite off v s = .next (clearW1c off v s) := by simp [execW1cWrite, h]

theorem execRegWrite_on {s : State} {off : Nat} (h : writable s off = true) (v : W32) :
    execRegWrite off v s = .next (setRw off v (clearW1c off v s)) := by simp [execRegWrite, h]

/-- A write that does not act changes nothing (R8, R478). -/
theorem writes_ignored {s : State} {off : Nat} (h : writable s off = false) (v : W32) :
    execW1cWrite off v s = .next s ∧ execRegWrite off v s = .next s := by simp [execW1cWrite, execRegWrite, h]

/-- The store's records, the credits, the fuses and the metering points are the same in both states. -/
def RecordsKept (s t : State) : Prop :=
  t.nvs.recs = s.nvs.recs ∧ t.crd.cred = s.crd.cred ∧ t.fuses = s.fuses ∧ t.pnt.pts = s.pnt.pts

theorem RecordsKept.refl (s : State) : RecordsKept s s := ⟨rfl, rfl, rfl, rfl⟩

theorem RecordsKept.trans {s t u : State} (h : RecordsKept s t) (k : RecordsKept t u) : RecordsKept s u := by
  obtain ⟨hr, hc, hf, hp⟩ := h
  obtain ⟨kr, kc, kf, kp⟩ := k
  exact ⟨kr.trans hr, kc.trans hc, kf.trans hf, kp.trans hp⟩

/-- They are the same where an operation's blocks are others. -/
theorem recordsKept_of_hide {μ : Mask} {s t : State} (h : hide μ t = hide μ s) (hs : μ.store = false)
    (hc : μ.crd = false) (hp : μ.pnt = false) : RecordsKept s t :=
  ⟨same_recs h hs, congrArg Crd.cred (same_crd h hc), same_fuses h, congrArg Pnt.pts (same_pnt h hp)⟩

theorem recordsKept_clearRc (off : Nat) (s : State) : RecordsKept s (clearRc off s) := by
  unfold clearRc
  split
  · exact ⟨rfl, rfl, rfl, rfl⟩
  · split <;> exact ⟨rfl, rfl, rfl, rfl⟩

theorem recordsKept_latchHi (off : Nat) (s : State) : RecordsKept s (latchHi off s) := by
  unfold latchHi
  split <;> exact ⟨rfl, rfl, rfl, rfl⟩

theorem recordsKept_timeRead (off : Nat) (s : State) : RecordsKept s (timeRead off s) :=
  recordsKept_of_hide (@hide_timeRead { rtc := true } ⟨rfl⟩ off s) rfl rfl rfl

theorem recordsKept_readSide (off : Nat) (s : State) : RecordsKept s (readSide off s) := by
  unfold readSide
  split
  · exact ((recordsKept_clearRc off s).trans (recordsKept_latchHi off _)).trans (recordsKept_timeRead off _)
  · exact .refl s

theorem recordsKept_hostRead (off : Nat) (s : State) : RecordsKept s (hostRead off s) := by
  cases h : hostOn s
  · rw [hostRead_off h]
    exact .refl s
  · rw [hostRead_on h]
    exact recordsKept_readSide off s

theorem recordsKept_clearW1c (off : Nat) (v : W32) (s : State) : RecordsKept s (clearW1c off v s) :=
  recordsKept_of_hide (@hide_clearW1c { flt := true, hif := true, rtc := true, afe := true, pin := true, tmp := true }
    ⟨rfl⟩ ⟨rfl⟩ ⟨rfl⟩ ⟨rfl⟩ ⟨rfl⟩ ⟨rfl⟩ off v s) rfl rfl rfl

/-- An index register is the one thing a host writes in the points' and the credits' blocks. -/
theorem recordsKept_setIndex (off : Nat) (v : W32) (s : State) : RecordsKept s (setIndex off v s) := by
  unfold setIndex
  dsimp -proj only
  split <;> exact ⟨rfl, rfl, rfl, rfl⟩

theorem recordsKept_setHif (off : Nat) (v : W32) (s : State) : RecordsKept s (setHif off v s) :=
  recordsKept_of_hide (@hide_setHif faultBlocks ⟨rfl⟩ ⟨rfl⟩ ⟨rfl⟩ ⟨rfl⟩ ⟨rfl⟩ ⟨rfl⟩ ⟨rfl⟩ off v s) rfl rfl rfl

theorem recordsKept_setOther (off : Nat) (v : W32) (s : State) : RecordsKept s (setOther off v s) :=
  recordsKept_of_hide (@hide_setOther { out := true, whl := true, flt := true, hif := true, pin := true, tmp := true }
    ⟨rfl⟩ ⟨rfl⟩ ⟨rfl⟩ ⟨rfl⟩ ⟨rfl⟩ ⟨rfl⟩ off v s) rfl rfl rfl

theorem recordsKept_setRw (off : Nat) (v : W32) (s : State) : RecordsKept s (setRw off v s) := by
  unfold setRw
  split
  · exact recordsKept_setIndex off v s
  · split
    · exact recordsKept_setHif off v s
    · exact recordsKept_setOther off v s

theorem ends_w1cWrite (off : Nat) (v : W32) (s : State) : ends (execW1cWrite off v s) (RecordsKept s) := by
  refine ⟨_, rfl, ?_⟩
  split
  · exact recordsKept_clearW1c off v s
  · exact .refl s

theorem ends_regWrite (off : Nat) (v : W32) (s : State) : ends (execRegWrite off v s) (RecordsKept s) := by
  refine ⟨_, rfl, ?_⟩
  split
  · exact (recordsKept_clearW1c off v s).trans (recordsKept_setRw off v _)
  · exact .refl s

/-- No access to BAR0 changes the store's records, the credits, the fuses or the points. -/
theorem access_ends (off : Nat) (v : W32) (s : State) :
    ∀ i ∈ [Instr.rcRead off, .latchedPairRead off, .w1cWrite off v, .regWrite off v], ends (exec i s) (RecordsKept s) := by
  simp only [List.forall_mem_cons, List.not_mem_nil, false_implies, implies_true, and_true]
  exact ⟨⟨_, rfl, recordsKept_hostRead off s⟩, ⟨_, rfl, recordsKept_hostRead off s⟩, ends_w1cWrite off v s,
    ends_regWrite off v s⟩

/-- NVS_ECC holds the corrected-error counter in an RC field: a read clears it (R8). -/
theorem readSide_corr {s : State} (h : exposed s 0x2410 = true) : readSide 0x2410 s = { s with nvs.corr := 0 } := by
  unfold readSide
  rw [if_pos h]
  rfl

/-- A read of FLT_TICKLO latches FLT_TICKHI (R481). -/
theorem readSide_faultTick {s : State} (h : exposed s 0x3C0C = true) :
    readSide 0x3C0C s = { s with flt.tickHi := hi32 (faultTick s) } := by
  unfold readSide
  rw [if_pos h]
  rfl

/-- Settles O50: reads by what the read leaves behind, writes by whether the write acts. -/
theorem registerAccess : Obligations.RegisterAccess := by
  unfold Obligations.RegisterAccess
  intro off v s
  refine ⟨fun h => ⟨congrArg _ (hostRead_on h off), rfl⟩, fun h => ?_, fun h he => ?_,
    fun h he => ⟨_, rfl, (hostRead_on h _).trans (by rw [readSide_corr he]; rfl)⟩,
    fun h he => ⟨_, rfl, (hostRead_on h _).trans (by rw [readSide_faultTick he]; rfl)⟩,
    fun he => writes_ignored (writable_unexposed he) v, fun hp hf => writes_ignored (writable_failstop hp hf) v,
    access_ends off v s, fun h => execW1cWrite_on h v, fun h => execW1cWrite_on h v, fun h => execRegWrite_on h v,
    fun h => execRegWrite_on h v⟩
  · have hread : execRcRead off s = .next s := congrArg _ (hostRead_off h off)
    exact ⟨hread, hread, writes_ignored (writable_hostOff h off) v⟩
  · have hread : execRcRead off s = .next (emit (.readVal off 0) s) :=
      congrArg _ (hostRead_unexposed h he)
    exact ⟨hread, hread⟩

end Sys2Proof.Proofs

namespace Sys2Proof.Proofs
open Sys2Proof Sys2Proof.Machine Sys2Proof.Laws

/-! ### What a raise leaves of the fault block -/

/-- A view of the state that the parts of a raise leave alone, a fail-stop aside. -/
structure RaiseView {α : Type} (f : State → α) : Prop where
  blk : ∀ b g t, (∀ k, (g k).flive = k.flive) → f (modBlk b g t) = f t
  seq : ∀ t n, f { t with flt.seq := n } = f t
  enq : ∀ r q t, f (enqRaw r q t).1 = f t
  vec : ∀ v t, f (sendVector v t) = f t
  event : ∀ b c d t, f (blockEvent b c d t) = f t
  ring : ∀ r g t, f (modRing r g t) = f t

namespace RaiseView
variable {α : Type} {f : State → α}

theorem ite_fst {c : Prop} [Decidable c] {a b s : State} (ha : f a = f s) (hb : f b = f s) :
    f (if c then a else b) = f s := by split <;> assumption

theorem src (h : RaiseView f) (b i : Nat) (g : SrcSt → SrcSt) (t : State) : f (modSrc b i g t) = f t :=
  h.blk b _ t (fun _ => rfl)

theorem rec0 (h : RaiseView f) (b i k : Nat) (t : State) : f (fltRec0 b i k t) = f t :=
  (h.enq _ _ _).trans (h.seq _ _)

theorem signal (h : RaiseView f) (b : Nat) (p : Bool) (t : State) : f (blkSignal b p t) = f t :=
  ite_fst (h.vec _ _) rfl

theorem severe (h : RaiseView f) (b i : Nat) (t : State) : f (beginSevere b i t) = f t :=
  beginSevere_via f b i t (fun _ _ => h.src _ _ _ _) (fun _ _ => h.blk _ _ _ (fun _ => rfl)) (fun _ _ => h.event _ _ _ _)

theorem window (h : RaiseView f) (b i : Nat) (t : State) : f (countWindow b i t).1 = f t :=
  countWindow_via f b i t (fun _ _ => h.src _ _ _ _)

theorem note (h : RaiseView f) (b i : Nat) (t : State) : f (noteRaise b i t) = f t :=
  (h.blk b (fun k => { k with fstat := setBit k.fstat i true }) _ (fun _ => rfl)).trans (h.src _ _ _ _)

/-- A raise keeps such a view, a GRAVE one where the view also stands over the fail-stop. -/
theorem raise0 (h : RaiseView f) (b i : Nat)
    (hg : srcClass b i = some .grave → (∀ w t, f (withReason w t) = f t) ∧
      ∀ t, f (failStop false false .grave b i t) = f t) (s : State) : f (raise0 b i s) = f s := by
  unfold Machine.raise0
  split
  · rfl
  · rename_i c hc
    cases c <;> dsimp -proj only
    · exact h.note _ _ _
    · refine ite_fst ((h.vec _ _).trans ((h.rec0 _ _ _ _).trans ((h.severe _ _ _).trans ?_))) ?_
      all_goals
        refine (h.signal _ _ _).trans ?_
        exact ite_fst ((h.window _ _ _).trans (h.note _ _ _)) ((h.rec0 _ _ _ _).trans ((h.window _ _ _).trans (h.note _ _ _)))
    · refine (h.signal _ _ _).trans ((h.rec0 _ _ _ _).trans ?_)
      exact ite_fst (h.note _ _ _) ((h.severe _ _ _).trans (h.note _ _ _))
    · obtain ⟨hw, hs⟩ := hg hc
      exact (h.signal _ _ _).trans ((hs _).trans ((h.rec0 _ _ _ _).trans ((hw _ _).trans (h.note _ _ _))))

theorem drop (h : RaiseView f) (r : Nat) (s : State) : f (noteDrop r s) = f s := by
  unfold noteDrop
  exact ite_fst rfl ((h.raise0 11 3 (fun hc => absurd hc (by decide)) _).trans (h.ring _ _ _))

theorem raise (h : RaiseView f) (b i : Nat)
    (hg : srcClass b i = some .grave → (∀ w t, f (withReason w t) = f t) ∧
      ∀ t, f (failStop false false .grave b i t) = f t) (s : State) : f (raise b i s) = f s := by
  unfold Machine.raise
  exact ite_fst ((h.drop _ _).trans (h.raise0 b i hg s)) (h.raise0 b i hg s)

/-- A raise below GRAVE keeps such a view. -/
theorem raise_mild (h : RaiseView f) {b i : Nat} (hc : srcClass b i ≠ some .grave) (s : State) :
    f (Machine.raise b i s) = f s := h.raise b i (fun hg => absurd hg hc) s

theorem deliver (h : RaiseView f) (r : Nat) (q : QRec) (s : State) : f (deliver r q s) = f s := by
  unfold Machine.deliver
  exact ite_fst ((h.drop _ _).trans (h.enq _ _ _)) (h.enq _ _ _)

end RaiseView

/-- The blocks that a raise below GRAVE changes. -/
def raiseBlocks : Mask := { out := true, flt := true, hif := true, coil := true, nvs := true }

theorem raiseView_hide : RaiseView (hide raiseBlocks) where
  blk b g t _ := @hide_modBlk raiseBlocks ⟨rfl⟩ b g t
  seq t n := by simp [hide, raiseBlocks]
  enq r q t := @hide_enqRaw raiseBlocks ⟨rfl⟩ ⟨rfl⟩ r q t
  vec v t := @hide_sendVector raiseBlocks ⟨rfl⟩ ⟨rfl⟩ v t
  event b c d t := @hide_blockEvent raiseBlocks ⟨rfl⟩ b c d t
  ring r g t := @hide_modRing raiseBlocks ⟨rfl⟩ r g t

/-- A raise below GRAVE changes no block but these. -/
theorem hide_raise_mild {b i : Nat} (hc : srcClass b i ≠ some .grave) (s : State) :
    hide raiseBlocks (raise b i s) = hide raiseBlocks s := raiseView_hide.raise_mild hc s

/-- Class, reason, phase and remembered reset of the fail-stop in force. -/
def halt (s : State) : Cls × W32 × FsPhase × Option (BitVec 4) := (s.flt.kind, s.flt.reason, s.flt.phase, s.flt.remembered)

theorem halt_flt {s t : State} (h : t.flt = s.flt) : halt t = halt s := by rw [halt, h]; rfl

theorem raiseView_halt : RaiseView halt where
  blk _ _ _ _ := rfl
  seq _ _ := rfl
  enq r q t := halt_flt (flt_enqRaw r q t)
  vec v t := halt_flt (flt_sendVector v t)
  event b c d t := halt_flt (flt_blockEvent b c d t)
  ring _ _ _ := rfl

theorem raiseView_remembered : RaiseView (fun s => s.flt.remembered) where
  blk _ _ _ _ := rfl
  seq _ _ := rfl
  enq r q t := congrArg Flt.remembered (flt_enqRaw r q t)
  vec v t := congrArg Flt.remembered (flt_sendVector v t)
  event b c d t := congrArg Flt.remembered (flt_blockEvent b c d t)
  ring _ _ _ := rfl

theorem getBlk_flt {s t : State} (h : t.flt = s.flt) (b : Nat) : getBlk t b = getBlk s b := by rw [getBlk, h]; rfl

/-- The LIVE bits of a block. -/
theorem raiseView_flive (c : Nat) : RaiseView (fun s => (getBlk s c).flive) where
  blk b g t hg := by
    rw [getBlk_modBlk]
    split
    · subst_vars; exact hg _
    · rfl
  seq _ _ := rfl
  enq r q t := congrArg BlkFlt.flive (getBlk_flt (flt_enqRaw r q t) c)
  vec v t := congrArg BlkFlt.flive (getBlk_flt (flt_sendVector v t) c)
  event b d e t := congrArg BlkFlt.flive (getBlk_flt (flt_blockEvent b d e t) c)
  ring _ _ _ := rfl

theorem getBlk_failStop (g k : Bool) (cls : Cls) (b i : Nat) (s : State) (c : Nat) :
    getBlk (failStop g k cls b i s) c = getBlk s c := by
  unfold getBlk
  exact congrArg (fun t => tgetD t c Init.blkFlt) (blkOf_failStop g k cls b i s)

/-- A raise leaves the LIVE bits. -/
theorem flive_raise (b i : Nat) (s : State) (c : Nat) : (getBlk (raise b i s) c).flive = (getBlk s c).flive :=
  (raiseView_flive c).raise b i (fun _ => ⟨fun _ _ => rfl, fun t => by
    rw [getBlk_failStop]⟩) s

/-- A condition that rises shows in LIVE. -/
theorem flive_raiseLive (b i : Nat) (s : State) (hi : i < 32) : bit (getBlk (raiseLive b i s) b).flive i = true := by
  unfold raiseLive
  split
  · exact ‹_›
  · rw [flive_raise, getBlk_modBlk, if_pos rfl, bit_setBit _ _ _ _ hi, if_pos rfl]

/-- A condition that falls no longer shows in LIVE. -/
theorem flive_fallLive (b i : Nat) (s : State) (hi : i < 32) : bit (getBlk (fallLive b i s) b).flive i = false := by
  unfold fallLive
  split
  · simp [modSrc, getBlk_modBlk, bit_setBit _ _ _ _ hi]
  · rename_i h
    simpa using h

/-- A GRAVE raise where no fail-stop is in force begins one, with its class and reason (R469, R474, R475). -/
theorem halt_raise_grave {b i : Nat} {s : State} (hc : srcClass b i = some .grave) (hp : s.flt.phase = .none) :
    halt (raise b i s) = (.grave, reasonWord false false 3 b i, .begun, s.flt.remembered) := by
  have hfail : ∀ t : State, t.flt.phase = .none → t.flt.remembered = s.flt.remembered →
      halt (failStop false false .grave b i t) = (.grave, reasonWord false false 3 b i, .begun, s.flt.remembered) := by
    intro t ht hr
    unfold failStop
    rw [ht]
    dsimp -proj only
    have hlg : ∀ u : State, halt (startLastGasp 3 u) = halt u := fun u => by unfold startLastGasp; split <;> rfl
    rw [← hr]
    split
    · split
      · rfl
      · split
        · rfl
        · exact hlg _
    · rfl
  have h0 : halt (raise0 b i s) = (.grave, reasonWord false false 3 b i, .begun, s.flt.remembered) := by
    unfold raise0
    simp only [hc]
    rw [raiseView_halt.signal]
    have hv : ∀ w, (fltRec0 b i 1 (withReason w (noteRaise b i s))).flt.phase = s.flt.phase ∧
        (fltRec0 b i 1 (withReason w (noteRaise b i s))).flt.remembered = s.flt.remembered := fun w => by
      have h := raiseView_halt.rec0 b i 1 (withReason w (noteRaise b i s))
      simp only [halt, Prod.mk.injEq] at h
      exact ⟨h.2.2.1, h.2.2.2⟩
    exact hfail _ ((hv _).1.trans hp) (hv _).2
  unfold raise
  exact RaiseView.ite_fst (s := raise0 b i s) (raiseView_halt.drop _ _) rfl |>.trans h0

end Sys2Proof.Proofs

namespace Sys2Proof.Proofs
open Sys2Proof Sys2Proof.Machine Sys2Proof.Laws

/-! ### The processor complex -/

theorem latched_raise {b i : Nat} (s : State) (h : (srcClass b i).isSome = true) : latched b i (raise b i s) :=
  fbit_raise_self b i s h

theorem latched_raiseLive {b i : Nat} (s : State) (h : (srcClass b i).isSome = true)
    (hl : bit (getBlk s b).flive i = false) : latched b i (raiseLive b i s) :=
  fbit_raiseLive b i s h hl

/-- A condition that rises, below GRAVE, changes no block but a raise's. -/
theorem hide_raiseLive_mild {b i : Nat} (hc : srcClass b i ≠ some .grave) (s : State) :
    hide raiseBlocks (raiseLive b i s) = hide raiseBlocks s := by
  unfold raiseLive
  split
  · rfl
  · exact (hide_raise_mild hc _).trans (@hide_modBlk raiseBlocks ⟨rfl⟩ b _ s)

/-- Settles O13: the raise of a GRAVE source. -/
theorem lcpMismatchIsGrave : Obligations.LcpMismatchIsGrave := by
  unfold Obligations.LcpMismatchIsGrave
  intro s hs
  have hexec : exec .lcpMismatch s = .next (raise 16 1 s) := by simp [exec, execLcpMismatch, hs]
  refine ⟨rfl, ⟨_, hexec, latched_raise s rfl⟩, fun hp => ⟨_, hexec, ?_⟩⟩
  have hstop : stop (raise 16 1 s) = (.begun, .failstop) := by rw [stop_raise, if_pos ⟨rfl, hp⟩]
  have hhalt := halt_raise_grave (b := 16) (i := 1) rfl hp
  simp only [stop, halt, Prod.mk.injEq] at hstop hhalt
  exact ⟨hstop.2, hstop.1, hhalt.1, hhalt.2.1⟩

/-- A resolved source is no longer SEVERE (R466). -/
theorem severe_resolve (b i : Nat) (s : State) : (getSrc (resolve b i s) b i).severe = none := by
  unfold resolve
  split
  · have hcore : ∀ u : State, (getSrc (sendVector (blkVector b) (blockEvent 15 3
        (le 1 b ++ le 1 i ++ zeros 2 ++ le 8 (faultTick s).toNat)
        (modSrc b i (fun x => { x with severe := none, esc := false, span := none }) u))) b i).severe = none := fun u => by
      rw [getSrc, getBlk_flt (flt_sendVector _ _), getBlk_flt (flt_blockEvent _ _ _ _)]
      simp [modSrc, getBlk_modBlk]
    dsimp -proj only
    split
    · exact hcore _
    · rw [getSrc, getBlk_modBlk, if_pos rfl]
      exact hcore _
  · exact Option.not_isSome_iff_eq_none.1 ‹_›

/-- A resolution leaves the LIVE bits. -/
theorem flive_resolve (b i : Nat) (s : State) (c : Nat) : (getBlk (resolve b i s) c).flive = (getBlk s c).flive := by
  have h := raiseView_flive c
  have hcore := (h.vec (blkVector b) (blockEvent 15 3 (le 1 b ++ le 1 i ++ zeros 2 ++ le 8 (faultTick s).toNat)
    (modSrc b i (fun x => { x with severe := none, esc := false, span := none }) (fltRec0 b i 3 s)))).trans
    ((h.event _ _ _ _).trans ((h.src _ _ _ _).trans (h.rec0 _ _ _ _)))
  unfold resolve
  split
  · dsimp -proj only
    split
    · exact hcore
    · exact (h.blk b (fun k => { k with run := none }) _ (fun _ => rfl)).trans hcore
  · rfl

/-- The end of a condition with its resolution: LIVE falls, and the source is no longer SEVERE (R466). -/
theorem flive_resolve_fallLive (b i : Nat) (s : State) (hi : i < 32) :
    bit (getBlk (resolve b i (fallLive b i s)) b).flive i = false := by
  rw [flive_resolve, flive_fallLive b i s hi]

theorem hide_resolve_fallLive (b i : Nat) (s : State) :
    hide raiseBlocks (resolve b i (fallLive b i s)) = hide raiseBlocks s :=
  (@hide_resolve raiseBlocks ⟨rfl⟩ ⟨rfl⟩ ⟨rfl⟩ ⟨rfl⟩ ⟨rfl⟩ b i _).trans (@hide_fallLive raiseBlocks ⟨rfl⟩ b i s)

theorem ends_acpFwWrite {s : State} (h : s.cpx.acp0 = true ∨ s.cpx.acp1 = true) :
    ends (execAcpFwWrite s) (fun t =>
      t.cpx = { s.cpx with fwRefused := satInc s.cpx.fwRefused } ∧ latched 16 0 t ∧ t.boot = s.boot) := by
  have hexec : execAcpFwWrite s = .next (raise 16 0 { s with cpx.fwRefused := satInc s.cpx.fwRefused }) := by
    simp [execAcpFwWrite, h]
  have hkept := hide_raise_mild (b := 16) (i := 0) (by decide) { s with cpx.fwRefused := satInc s.cpx.fwRefused }
  exact ⟨_, hexec, (same_cpx hkept rfl :), latched_raise _ rfl, (same_boot hkept rfl rfl :)⟩

theorem ends_acpWdog {core : Nat} {s : State} (hrun : (if core = 0 then s.cpx.acp0 else s.cpx.acp1) = true)
    (hf : failed s = false) (hl : bit (getBlk s 16).flive 2 = false) : ends (execAcpWdog core s) (fun t =>
      t.cpx = { s.cpx with acp0 := false, acp1 := false, restarts := satInc s.cpx.restarts } ∧ latched 16 2 t ∧
      bit (getBlk t 16).flive 2 = true ∧ t.boot = s.boot) := by
  have hkept := hide_raiseLive_mild (b := 16) (i := 2) (by decide)
    { s with cpx := { s.cpx with acp0 := false, acp1 := false, restarts := satInc s.cpx.restarts } }
  exact ⟨_, by simp [execAcpWdog, hrun, hf], (same_cpx hkept rfl :), latched_raiseLive _ rfl hl,
    flive_raiseLive 16 2 _ (by decide), (same_boot hkept rfl rfl :)⟩

theorem ends_acpRestartDone {s : State} (hfired : s.boot.fired = true) (ha : s.cpx.acp0 = false)
    (hf : failed s = false) : ends (execAcpRestartDone s) (fun t =>
      t.cpx = { s.cpx with acp0 := true, acp1 := true } ∧ bit (getBlk t 16).flive 2 = false ∧
      (getSrc t 16 2).severe = none ∧ t.boot = s.boot) := by
  have hkept := hide_resolve_fallLive 16 2 { s with cpx := { s.cpx with acp0 := true, acp1 := true } }
  exact ⟨_, by simp [execAcpRestartDone, hfired, ha, hf], (same_cpx hkept rfl :),
    flive_resolve_fallLive 16 2 _ (by decide), severe_resolve 16 2 _, (same_boot hkept rfl rfl :)⟩

end Sys2Proof.Proofs

namespace Sys2Proof.Proofs
open Sys2Proof Sys2Proof.Machine Sys2Proof.Laws

/-! ### A freeze leaves the reset that a fail-stop remembers -/

/-- The reset that a fail-stop remembers (R477). -/
def remembered (s : State) : Option (BitVec 4) := s.flt.remembered

/-- Every block but the fault block. -/
@[reducible] def beyondFlt : Mask where
  free := true
  out := true
  slot := true
  porSlot := true
  boot := true
  bootSt := true
  cpx := true
  whl := true
  hif := true
  coil := true
  nvs := true
  store := true
  rtc := true
  afe := true
  pin := true
  jtag := true
  dec := true
  pnt := true
  pq := true
  cal := true
  trf := true
  crd := true
  sgr := true
  tmp := true

theorem remembered_of_hide {s t : State} (h : hide beyondFlt t = hide beyondFlt s) : remembered t = remembered s :=
  congrArg Flt.remembered (same_flt h rfl)

theorem remembered_raise (b i : Nat) (s : State) : remembered (raise b i s) = remembered s :=
  raiseView_remembered.raise b i (fun _ => ⟨fun _ _ => rfl, fun t => by
    have hlg : ∀ c u, remembered (startLastGasp c u) = remembered u := fun c u => by
      unfold startLastGasp
      split <;> rfl
    have hrec : ∀ v k u, remembered (sendVector v (fltRec0 b i k u)) = remembered u := fun v k u =>
      (raiseView_remembered.vec _ _).trans (raiseView_remembered.rec0 _ _ _ _)
    unfold failStop
    cases t.flt.phase <;> dsimp -proj only
    · split
      · split
        · rfl
        · split
          · rfl
          · exact hlg _ _
      · rfl
    all_goals
      split
      · split
        · exact hrec _ _ _
        · rfl
      · rfl⟩) s

theorem remembered_deliverRec (r : Nat) (x : Rec) (s : State) : remembered (deliverRec r x s) = remembered s :=
  raiseView_remembered.deliver r _ s

theorem remembered_foldl {β : Type} {f : State → β → State} (h : ∀ t x, remembered (f t x) = remembered t) (l : List β)
    (s : State) : remembered (l.foldl f s) = remembered s := by
  induction l generalizing s with
  | nil => rfl
  | cons x t ih => rw [List.foldl_cons, ih, h]

theorem remembered_eachPt {f : Nat → State → State} (h : ∀ p t, remembered (f p t) = remembered t) (s : State) :
    remembered (eachPt f s) = remembered s := remembered_foldl (fun t p => h p t) _ _

theorem remembered_armOnce (n : Nat) (e : AngEnt) (s : State) : remembered (armOnce n e s).1 = remembered s := by
  have hfst : ∀ (c : Prop) [Decidable c] (a b : State × Bool), remembered a.1 = remembered s → remembered b.1 = remembered s →
      remembered (if c then a else b).1 = remembered s := fun c _ a b ha hb => by split <;> assumption
  unfold armOnce
  apply hfst
  · exact remembered_raise 3 5 _
  · rfl

theorem remembered_armCtl (n : Nat) (on credit : Bool) (b : W64) (s : State) :
    remembered (armCtl n on credit b s) = remembered s := by
  have hpend : ∀ (r : State × Bool) x, remembered r.1 = remembered s →
      remembered (if r.2 then setCtl n x r.1 else r.1) = remembered s := fun r x h => by split <;> exact h
  unfold armCtl
  exact hpend _ _ (remembered_armOnce n _ s)

theorem remembered_out2 (extra : Nat) (r : Rec) (s : State) : remembered (out2 extra r s) = remembered s := by
  unfold out2
  split
  · rfl
  · exact remembered_deliverRec 2 r _

theorem remembered_countDrop (i : Nat) (s : State) : remembered (countDrop i s) = remembered s := by
  unfold countDrop
  extract_lets _ s1 span
  have h1 : remembered s1 = remembered s := by unfold s1; split <;> rfl
  split
  · exact h1
  · exact (remembered_raise 5 0 _).trans h1

theorem remembered_makeRoom (n fuel : Nat) (s : State) : remembered (makeRoom n fuel s) = remembered s := by
  induction fuel generalizing s with
  | zero => rfl
  | succ fuel ih =>
    unfold makeRoom
    dsimp -proj only
    split
    · rfl
    · split
      · exact (ih _).trans ((remembered_countDrop _ _).trans (remembered_of_hide (@hide_removeResult beyondFlt ⟨rfl⟩ ⟨rfl⟩ _ s)))
      · rfl

theorem remembered_deliverPq (r : Rec) (s : State) : remembered (deliverPq r s) = remembered s := by
  unfold deliverPq
  extract_lets q _ s0 s1
  have h1 : remembered s1 = remembered s := remembered_makeRoom _ _ _
  split
  · exact (raiseView_remembered.deliver 6 q s1).trans h1
  · exact (remembered_countDrop _ _).trans h1

theorem remembered_produce (kinds : List Nat) (interval extra : Nat) (at_ : Int) (pick : Nat → Nat → Option Agg)
    (whole : Nat → Nat) (s : State) : remembered (produce kinds interval extra at_ pick whole s) = remembered s := by
  refine remembered_foldl (fun t e => remembered_foldl (fun u j => ?_) _ _) _ _
  dsimp -proj only
  split
  · rfl
  · split
    · rfl
    · exact remembered_deliverPq _ _

theorem remembered_closeTap (t interval extra : Nat) (at_ : Int) (next : Span) (s : State) :
    remembered (closeTap t interval extra at_ next s) = remembered s := by
  unfold closeTap
  extract_lets sp a s1
  have h1 : remembered s1 = remembered s := by
    unfold s1
    split
    · rfl
    · exact remembered_produce _ _ _ _ _ _ _
  exact h1

theorem remembered_joinTap (t interval : Nat) (at_ : Int) (stop : Nat) (m : Member) (s : State) :
    remembered (joinTap t interval at_ stop m s) = remembered s := by
  unfold joinTap
  extract_lets len idx k sp0 s0 sp a s1
  have h0 : remembered s0 = remembered s := by
    unfold s0
    split
    · exact remembered_closeTap _ _ _ _ _ _
    · rfl
  split
  · exact (remembered_closeTap _ _ _ _ _ _).trans h0
  · exact h0

theorem remembered_closeShort (t extra : Nat) (at_ : Int) (stop : Nat) (s : State) :
    remembered (closeShort t extra at_ stop s) = remembered s := by
  unfold closeShort
  extract_lets k
  split
  · rfl
  · extract_lets gap vals fl m one s1 _ s2
    exact (remembered_foldl (fun u i => remembered_joinTap t i at_ stop m u) _ s2).trans (remembered_produce _ _ _ _ _ _ s)

theorem remembered_closeSpan (interval extra : Nat) (at_ : Int) (next : Span) (s : State) :
    remembered (closeSpan interval extra at_ next s) = remembered s := by
  unfold closeSpan
  extract_lets sp aggs s1
  have h1 : remembered s1 = remembered s := by
    unfold s1
    split
    · rfl
    · exact remembered_produce _ _ _ _ _ _ _
  exact h1

theorem remembered_closeIntervals (extra : Nat) (s : State) : remembered (closeIntervals extra s) = remembered s :=
  (remembered_foldl (fun t e => remembered_foldl (fun u i => remembered_closeTap e i extra s.slot _ u) _ t) _ _).trans
    (remembered_foldl (fun t i => remembered_closeSpan i extra s.slot _ t) _ s)

section
variable [Hidden true]

theorem remembered_takeSnap (u idx extra step p : Nat) (s : State) :
    remembered (takeSnap u idx extra step p s) = remembered s :=
  (remembered_deliverRec _ _ _).trans (remembered_of_hide (by simp [↓hide_with]))

theorem remembered_closeInt (img : Bool) (u step extra p : Nat) (s : State) :
    remembered (closeInt img u step extra p s) = remembered s := by
  have hwritten : ∀ x, remembered (writeInt u step p (setInt p x s)) = remembered s := fun x =>
    remembered_of_hide ((hide_writeInt u step p _).trans (hide_setInt p x s))
  unfold closeInt
  extract_lets x
  split
  · rfl
  · extract_lets
    split
    · exact (remembered_deliverRec _ _ _).trans (hwritten _)
    · exact hwritten _

theorem remembered_bndSnaps (b : Bnd) (s : State) : remembered (bndSnaps b s) = remembered s := by
  unfold bndSnaps
  split
  · rfl
  · rename_i idx _
    refine (remembered_of_hide (s := eachPt (fun p t => if b.skip.contains p then t else takeSnap b.u idx b.sflags 3 p t) s)
      (by simp [↓hide_with])).trans ?_
    refine remembered_eachPt (fun p t => ?_) s
    split
    · rfl
    · exact remembered_takeSnap _ _ _ _ _ _

theorem remembered_bndClose (b : Bnd) (img : Bool) (nt : List Nat) (s : State) :
    remembered (bndClose b img nt s) = remembered s := by
  refine remembered_eachPt (fun p t => ?_) s
  split
  · exact remembered_closeInt _ _ _ _ _ _
  · rfl

theorem remembered_boundary (b : Bnd) (s : State) : remembered (boundary b s) = remembered s := by
  have hmid : ∀ img nt x, remembered (bndSwitch b nt (bndSnaps b (bndClose b img nt (bndBegin b x)))) = remembered x :=
    fun img nt x => (remembered_of_hide (hide_bndSwitch b nt _)).trans ((remembered_bndSnaps b _).trans
      ((remembered_bndClose b _ _ _).trans (remembered_of_hide (hide_bndBegin b x))))
  unfold boundary
  dsimp -proj only
  split
  · exact (remembered_of_hide (hide_foldl (fun t p => by simp) _ _)).trans (hmid _ _ _)
  · exact hmid _ _ _

theorem remembered_boundariesTo (e : Nat) (s : State) : remembered (boundariesTo e s) = remembered s := by
  unfold boundariesTo
  extract_lets s1
  have h1 : remembered s1 = remembered s := by
    refine remembered_foldl (fun t i => ?_) _ _
    dsimp -proj only
    split
    · exact remembered_boundary _ _
    · rfl
  split
  · exact (remembered_of_hide (hide_armBoundary e s1)).trans h1
  · exact h1

theorem remembered_closePt (st : Stamp) (extra : Nat) (s : State) (p : Nat) :
    remembered (closePt st extra s p) = remembered s := by
  unfold closePt
  dsimp -proj only
  refine (remembered_of_hide (hide_setPt _ _ _)).trans ?_
  split
  · split
    · exact (remembered_out2 _ _ _).trans (remembered_out2 _ _ _)
    · exact remembered_out2 _ _ _
  · exact remembered_out2 _ _ _

theorem remembered_closeSecond (st : Stamp) (extra : Nat) (s : State) : remembered (closeSecond st extra s) = remembered s := by
  unfold closeSecond
  split
  · rfl
  · have hpts : ∀ e, remembered ((definedPts s).foldl (closePt st e) s) = remembered s := fun e =>
      remembered_foldl (fun t p => remembered_closePt st e t p) _ _
    unfold compareAcc
    dsimp -proj only
    split
    · exact hpts _
    · exact (remembered_raise _ _ _).trans (hpts _)

theorem remembered_beforeIncs (e : Nat) (s : State) : remembered (beforeIncs e s) = remembered s := by
  have h1 : remembered (boundariesTo e (ctlEditsTo e s)) = remembered s :=
    (remembered_boundariesTo e _).trans (remembered_of_hide (by simp))
  unfold beforeIncs
  dsimp -proj only
  split
  · split
    · exact h1
    · exact (remembered_of_hide (hide_secondCred _)).trans ((remembered_closeSecond _ _ _).trans h1)
  · exact h1

theorem remembered_switchTo (n : Nat) (want credit : Bool) (b : W64) (s : State) :
    remembered (switchTo n want credit b s) = remembered s := by
  have hcancel : remembered (cancelCtl n s) = remembered s := remembered_of_hide (hide_cancelCtl n s)
  unfold switchTo
  dsimp -proj only
  repeat' split
  all_goals simp [hcancel, remembered_armCtl]

theorem remembered_deferDue (p : Nat) (s : State) : remembered (deferDue p s) = remembered s :=
  remembered_of_hide (hide_deferDue p s)

theorem remembered_disconnected (p : Nat) (c : CredSt) (s : State) :
    remembered (writeCred p (ptEvent evDisconnect p 0 0 0 (setCred p c s))) = remembered s :=
  remembered_of_hide ((hide_writeCred p _).trans ((hide_ptEvent _ p 0 0 0 _).trans (hide_setCred p c s)))

theorem remembered_decideDisc (live ready : Bool) (bpos : W64) (b n p : Nat) (s : State) :
    remembered (decideDisc live ready bpos b n p s) = remembered s := by
  unfold decideDisc
  dsimp -proj only
  repeat' split
  all_goals simp only [remembered_switchTo, remembered_deferDue, remembered_disconnected]

theorem remembered_decideCtl (live : Bool) (old : Tab CredSt) (bpos : W64) (b bslot n : Nat) (s : State) :
    remembered (decideCtl live old bpos b bslot n s) = remembered s := by
  have hload : remembered (decideLoad bpos bslot n s) = remembered s := by
    unfold decideLoad
    dsimp -proj only
    repeat' split
    all_goals simp only [remembered_switchTo]
  unfold decideCtl
  dsimp -proj only
  repeat' split
  all_goals simp only [remembered_switchTo, remembered_decideDisc, hload]

theorem remembered_accountTurn (t : RsTurn) (s : State) : remembered (accountTurn t s) = remembered s := by
  unfold accountTurn
  extract_lets s0 st e inst s1 pts s2 s3 _ _ s4 s5
  have h1 : remembered s1 = remembered s :=
    (remembered_beforeIncs e _).trans (remembered_of_hide (by simp [s0]))
  have h5 : remembered s5 = remembered s1 := remembered_of_hide (by simp [s5, s4, s3, s2, hide_foldl, ↓hide_with])
  have hdec : remembered (decideAll true s1.crd.cred st.wheel e inst.toNat s5) = remembered s5 :=
    remembered_foldl (fun t n => remembered_decideCtl _ _ _ _ _ n t) _ _
  exact (remembered_of_hide (by simp)).trans (hdec.trans (h5.trans h1))

theorem remembered_freezeTurn (t : RsTurn) (kf : Nat) (s : State) : remembered (freezeTurn t kf s) = remembered s := by
  unfold freezeTurn
  extract_lets s0 st e s1 pts a s2 _ _ s3 s4 fs
  have h1 : remembered s1 = remembered s := (remembered_beforeIncs e _).trans (remembered_of_hide (by simp [s0]))
  have h4 : remembered s4 = remembered s1 := remembered_of_hide (by simp [s4, s3, s2, a, pts, hide_foldl, ↓hide_with])
  exact (remembered_of_hide (hide_swapDefs _ _)).trans ((remembered_closeSecond _ _ _).trans (h4.trans h1))

theorem remembered_pqFreeze (st : Stamp) (s : State) : remembered (pqFreeze st s) = remembered s := by
  unfold pqFreeze
  extract_lets _ s1 s2 s3
  have h2 : remembered s2 = remembered s := remembered_foldl (fun t e => remembered_closeShort e _ _ _ t) _ s1
  have h3 : remembered s3 = remembered s2 := by
    unfold s3
    clear_value s2
    split
    · exact remembered_of_hide (hide_withEvCfg _ _ s2 (fun t => hide_endEvents st _ t))
    · exact remembered_of_hide (hide_endEvents st _ s2)
  clear_value s3 s2
  exact (remembered_closeIntervals _ _).trans (h3.trans h2)

theorem remembered_freeze (s : State) : remembered (freeze s) = remembered s := by
  unfold freeze
  split
  · rfl
  · extract_lets s0 st
    have h0 : remembered s0 = remembered s := by
      unfold s0 freezeWhole
      split
      · extract_lets u
        split
        · exact remembered_accountTurn _ _
        · rfl
      · rfl
    have hpart : remembered (freezePart s0) = remembered s0 := by
      unfold freezePart
      extract_lets u
      split
      · split
        · exact remembered_freezeTurn _ _ _
        · rfl
      · rfl
    refine (remembered_of_hide (hide_calAbort _)).trans ((remembered_pqFreeze st _).trans ?_)
    exact (remembered_of_hide (by simp)).trans (hpart.trans h0)

/-- The freeze of a fail-stop, carried out late, remembers the same reset (R475, R477). -/
theorem remembered_lgFreeze (s : State) : remembered (lgFreeze s) = remembered s := by
  unfold lgFreeze
  split
  · split
    · exact remembered_of_hide (hide_calAbort s)
    · extract_lets b t
      have ht : remembered t = remembered s :=
        (remembered_of_hide (hide_dropPending _)).trans (remembered_freeze { s with boot.st := .metering })
      clear_value t
      exact ht
  · rfl

end
end Sys2Proof.Proofs

namespace Sys2Proof.Proofs
open Sys2Proof Sys2Proof.Machine Sys2Proof.Laws

/-! ### The safe state of a fail-stop -/

/-- Where the last gasp was skipped, the engines freeze now (R475 step 1). -/
def safeFrozen (s : State) : State :=
  if s.flt.phase != .begun then s else if s.nvs.ready then lgFreeze s else calAbort s

/-- The state in which the safe state stands: outputs, FAILn, the halted LCP, the Wheel in holdover (R475 steps 3 to 5). -/
def safeHeld (s : State) : State :=
  let s1 := endRequests (safeBalls (safeFrozen s))
  noteQual s1 { s1 with
    pin.failn := true, flt.phase := .safe, cpx.lcp := false
    whl := { s1.whl with hold := true, lock := false, slew := false, selected := false,
                         pherr := if isWorker s then 0 else s1.whl.pherr } }

/-- The same with the FAILSTOP record and its vector (R475 step 5). -/
def safeEnd (s : State) : State :=
  sendVector (blkVector (fld s.flt.reason 20 16)) (fltRec0 (fld s.flt.reason 20 16) (fld s.flt.reason 4 0) 4 (safeHeld s))

theorem execFailstopSafeState_due {s : State} (hlg : s.nvs.lg = none) (hp : s.flt.phase = .begun ∨ s.flt.phase = .lastGasp) :
    execFailstopSafeState s = .next (match (safeEnd s).flt.remembered with
      | some c => if (safeEnd s).flt.kind == .severe then enterPor c (safeEnd s) else safeEnd s
      | none => safeEnd s) := by
  have hopen : (s.nvs.lg.isSome || !(s.flt.phase == .begun || s.flt.phase == .lastGasp)) = false := by
    rcases hp with hp | hp <;> simp [hlg, hp]
  unfold execFailstopSafeState
  rw [hopen]
  rfl

/-- Without a remembered reset the safe state stays (R477). -/
theorem execFailstopSafeState_stays {s : State} (hlg : s.nvs.lg = none)
    (hp : s.flt.phase = .begun ∨ s.flt.phase = .lastGasp) (hr : remembered (safeEnd s) = none) :
    execFailstopSafeState s = .next (safeEnd s) := by
  rw [execFailstopSafeState_due hlg hp]
  unfold remembered at hr
  rw [hr]

/-- The blocks that the FAILSTOP record changes. -/
def recordBlocks : Mask := { out := true, flt := true, hif := true, coil := true }

theorem hide_safeEnd_held (s : State) : hide recordBlocks (safeEnd s) = hide recordBlocks (safeHeld s) :=
  (@hide_sendVector recordBlocks ⟨rfl⟩ ⟨rfl⟩ _ _).trans (@hide_fltRec0 recordBlocks ⟨rfl⟩ ⟨rfl⟩ ⟨rfl⟩ _ _ _ _)

theorem halt_safeEnd_held (s : State) : halt (safeEnd s) = halt (safeHeld s) :=
  (raiseView_halt.vec _ _).trans (raiseView_halt.rec0 _ _ _ _)

/-- The blocks that the end of the requests and the outputs' safe levels change. -/
def quietBlocks : Mask :=
  { boot := true, hif := true, coil := true, nvs := true, rtc := true, cal := true, sgr := true, whl := true, pin := true,
    trf := true, crd := true }

theorem hide_endRequests_safeBalls (s : State) : hide quietBlocks (endRequests (safeBalls s)) = hide quietBlocks s :=
  (@hide_endRequests quietBlocks ⟨rfl⟩ ⟨rfl⟩ ⟨rfl⟩ ⟨rfl⟩ ⟨rfl⟩ ⟨rfl⟩ ⟨rfl⟩ _).trans
    (@hide_safeBalls quietBlocks ⟨rfl⟩ ⟨rfl⟩ ⟨rfl⟩ ⟨rfl⟩ s)

theorem flt_endRequests_safeBalls (s : State) : (endRequests (safeBalls s)).flt = s.flt :=
  same_flt (hide_endRequests_safeBalls s) rfl

/-- The blocks that the end of the requests changes. -/
def endBlocks : Mask := { boot := true, hif := true, coil := true, nvs := true, rtc := true, cal := true, sgr := true }

/-- SYNCOUT is low, and the end of the requests leaves it (R475 step 3). -/
theorem syncout_endRequests_safeBalls (s : State) : (endRequests (safeBalls s)).pin.syncout = false :=
  congrArg Pin.syncout (same_pin (@hide_endRequests endBlocks ⟨rfl⟩ ⟨rfl⟩ ⟨rfl⟩ ⟨rfl⟩ ⟨rfl⟩ ⟨rfl⟩ ⟨rfl⟩ (safeBalls s))
    rfl rfl)

theorem noteQual_lock (s0 s : State) : (noteQual s0 s).whl.hold = s.whl.hold ∧ (noteQual s0 s).whl.lock = s.whl.lock := by
  unfold noteQual
  split <;> exact ⟨rfl, rfl⟩

/-- FAILn is driven, SYNCOUT is low, the LCP stands, the Wheel is in holdover without lock (R475). -/
theorem safeEnd_outputs (s : State) : (safeEnd s).pin.failn = true ∧ (safeEnd s).pin.syncout = false ∧
    (safeEnd s).flt.phase = .safe ∧ (safeEnd s).cpx.lcp = false ∧ (safeEnd s).whl.hold = true ∧ (safeEnd s).whl.lock = false := by
  have hk := hide_safeEnd_held s
  have hphase : (safeEnd s).flt.phase = (safeHeld s).flt.phase := congrArg (fun h => h.2.2.1) (halt_safeEnd_held s)
  rw [same_pin hk rfl rfl, same_cpx hk rfl, same_whl hk rfl, hphase]
  have hsync := syncout_endRequests_safeBalls (safeFrozen s)
  unfold safeHeld
  generalize endRequests (safeBalls (safeFrozen s)) = s1 at hsync
  simp [noteQual_lock, hsync]

theorem remembered_safeFrozen (s : State) : remembered (safeFrozen s) = remembered s := by
  have : Hidden true := ⟨rfl⟩
  unfold safeFrozen
  split
  · rfl
  · split
    · exact remembered_lgFreeze s
    · exact remembered_of_hide (hide_calAbort s)

theorem remembered_safeEnd (s : State) : remembered (safeEnd s) = remembered s := by
  have hheld : remembered (safeHeld s) = remembered (safeFrozen s) := by
    have hflt := flt_endRequests_safeBalls (safeFrozen s)
    unfold safeHeld remembered
    rw [noteQual_flt, ← hflt]
  exact (congrArg (fun h => h.2.2.2) (halt_safeEnd_held s)).trans (hheld.trans (remembered_safeFrozen s))

/-- After a last gasp the engines stand already. -/
theorem safeFrozen_lastGasp {s : State} (hp : s.flt.phase = .lastGasp) : safeFrozen s = s := by
  simp [safeFrozen, hp]

theorem halt_safeEnd_lastGasp {s : State} (hp : s.flt.phase = .lastGasp) :
    halt (safeEnd s) = (s.flt.kind, s.flt.reason, .safe, s.flt.remembered) := by
  rw [halt_safeEnd_held]
  unfold safeHeld halt
  rw [safeFrozen_lastGasp hp, noteQual_flt, flt_endRequests_safeBalls]

/-- After a last gasp the safe state leaves the store's records, the totals and the boot state (R475). -/
theorem safeEnd_lastGasp_kept {s : State} (hp : s.flt.phase = .lastGasp) :
    (safeEnd s).nvs.recs = s.nvs.recs ∧ (safeEnd s).pnt = s.pnt ∧ (safeEnd s).boot.st = s.boot.st := by
  have hk := hide_safeEnd_held s
  have hq := hide_endRequests_safeBalls s
  rw [same_recs hk rfl, same_pnt hk rfl, same_bootSt hk rfl]
  unfold safeHeld
  rw [safeFrozen_lastGasp hp, noteQual_nvs, noteQual_pnt, noteQual_boot]
  exact ⟨(same_recs hq rfl :), (same_pnt hq rfl :), (same_bootSt hq rfl :)⟩

theorem enterPor_boot (c : BitVec 4) (s : State) :
    (enterPor c s).boot.st = .por ∧ (enterPor c s).boot.cause = c ∧ (enterPor c s).nvs.recs = s.nvs.recs := ⟨rfl, rfl, rfl⟩

/-- A reset remembered in a fail-stop from a SEVERE fault acts once the safe state stands (R477). -/
theorem execFailstopSafeState_resets {s : State} {c : BitVec 4} (hlg : s.nvs.lg = none) (hp : s.flt.phase = .lastGasp)
    (hr : s.flt.remembered = some c) (hk : s.flt.kind = .severe) :
    execFailstopSafeState s = .next (enterPor c (safeEnd s)) := by
  have hhalt := halt_safeEnd_lastGasp hp
  simp only [halt, Prod.mk.injEq, hr, hk] at hhalt
  obtain ⟨hkind, -, -, hrem⟩ := hhalt
  rw [execFailstopSafeState_due hlg (.inr hp), hrem]
  simp [hkind]

/-- Settles O14: the processors by their own lemmas, the safe state by what its steps leave. -/
theorem processorsAndSafeState : Obligations.ProcessorsAndSafeState := by
  unfold Obligations.ProcessorsAndSafeState
  refine ⟨fun s => ⟨ends_acpFwWrite, fun core => ends_acpWdog, ends_acpRestartDone⟩,
    fun s hlg => ⟨fun hp hr => ?_, fun hp hr => ?_, fun c hp hr hk => ?_⟩⟩
  · exact ⟨_, execFailstopSafeState_stays hlg hp ((remembered_safeEnd s).trans hr), safeEnd_outputs s⟩
  · obtain ⟨hrecs, hpnt, hst⟩ := safeEnd_lastGasp_kept hp
    exact ⟨_, execFailstopSafeState_stays hlg (.inr hp) ((remembered_safeEnd s).trans hr), hrecs, hpnt,
      congrArg (fun h => h.2.1) (halt_safeEnd_lastGasp hp), hst⟩
  · obtain ⟨hst, hcause, hrecs⟩ := enterPor_boot c (safeEnd s)
    exact ⟨_, execFailstopSafeState_resets hlg hp hr hk, hst, hcause, hrecs.trans (safeEnd_lastGasp_kept hp).1⟩

end Sys2Proof.Proofs

namespace Sys2Proof.Proofs
open Sys2Proof Sys2Proof.Machine Sys2Proof.Laws

/-! ### The clock sources -/

/-- Settling streams leaves the engine's run and grid. -/
theorem grid_settleNow (ms : List Nat) (s : State) :
    (settleNow ms s).dec.run = s.dec.run ∧ (settleNow ms s).dec.gSlot = s.dec.gSlot := by
  unfold settleNow
  induction ms generalizing s with
  | nil => exact ⟨rfl, rfl⟩
  | cons m ms ih => exact ih _

theorem hide_settleNow_own (ms : List Nat) (s : State) : hide { dec := true } (settleNow ms s) = hide { dec := true } s :=
  @hide_settleNow { dec := true } ⟨rfl⟩ ms s

/-- The first lock (R33, R69, R101): the slots start, and a worker's lock on the ring's clock in FUSE enters CAL. -/
theorem execMpllLock_first {onRing : Bool} {s : State} (hr : running s = true) (he : s.afe.everLocked = false) :
    ends (execMpllLock onRing s) (fun t => t.afe.mpllLock = true ∧ t.afe.everLocked = true ∧
      t.afe.ringSrc = (onRing && isWorker s) ∧ t.dec.run = true ∧ t.dec.gSlot = s.slot ∧ t.flt = s.flt ∧
      t.boot = if ((onRing && isWorker s) && s.boot.st == .fuse) = true then { s.boot with st := .cal } else s.boot) := by
  unfold execMpllLock
  extract_lets ring p first _ _ s1 _ s2
  rw [if_neg (by simp [hr, he])]
  have hfirst : first = true := by simp [first, he]
  have hs2 : s2 = settleNow (List.range 63) { s1 with whl.u := gridU s1 s1.whl } := if_pos hfirst
  have hk := hide_settleNow_own (List.range 63) { s1 with whl.u := gridU s1 s1.whl }
  obtain ⟨hrun, hg⟩ := grid_settleNow (List.range 63) { s1 with whl.u := gridU s1 s1.whl }
  rw [← hs2] at hk hrun hg
  have hafe : s2.afe = s1.afe := (same_afe hk rfl :)
  have hflt : s2.flt = s.flt := (same_flt hk rfl :)
  have hboot : s2.boot = s.boot := (same_boot hk rfl rfl :)
  have hdec : s1.dec = { s.dec with run := true, gSlot := s.slot } := if_pos hfirst
  have hdone : ∀ c : Bool, (if c = true then { s2 with boot.st := .cal } else s2).afe = s1.afe ∧
      (if c = true then { s2 with boot.st := .cal } else s2).dec = s2.dec ∧
      (if c = true then { s2 with boot.st := .cal } else s2).flt = s.flt ∧
      (if c = true then { s2 with boot.st := .cal } else s2).boot = if c = true then { s.boot with st := .cal } else s.boot := by
    intro c
    cases c <;> simp [hafe, hflt, hboot]
  obtain ⟨ha, hd, hf, hb⟩ := hdone (ring && s.boot.st == .fuse)
  refine ⟨_, rfl, ?_⟩
  exact ⟨congrArg Afe.mpllLock ha, congrArg Afe.everLocked ha, congrArg Afe.ringSrc ha,
    (congrArg Dec.run hd).trans (hrun.trans (congrArg Dec.run hdec)),
    (congrArg Dec.gSlot hd).trans (hg.trans (congrArg Dec.gSlot hdec)), hf, hb⟩

theorem hide_clockBack_own (src : Nat) (s : State) : hide { faultBlocks with pnt := true, pq := true } (clockBack src s) =
    hide { faultBlocks with pnt := true, pq := true } s :=
  @hide_clockBack { faultBlocks with pnt := true, pq := true } ⟨rfl⟩ ⟨rfl⟩ ⟨rfl⟩ ⟨rfl⟩ ⟨rfl⟩ ⟨rfl⟩ ⟨rfl⟩ ⟨rfl⟩ ⟨rfl⟩ src s

/-- A later lock of a worker on the ring's clock moves the MPLL to the ring (R69). -/
theorem execMpllLock_moves {s : State} (hr : running s = true) (he : s.afe.everLocked = true) (hs : s.afe.ringSrc = false)
    (hw : isWorker s = true) : ends (execMpllLock true s) (fun t =>
      t.afe.ringSrc = true ∧ t.afe.mpllLock = true ∧ t.dec = s.dec) := by
  unfold execMpllLock
  extract_lets ring p first _ _ s1 _ s2
  have hring : ring = true := hw
  rw [if_neg (by simp [hr, he, hs, hring])]
  have hfirst : ¬ first = true := by simp [first, he]
  have hs2 : s2 = clockBack 7 s1 := if_neg hfirst
  have hk := hide_clockBack_own 7 s1
  rw [← hs2] at hk
  have hafe : s2.afe = s1.afe := same_afe hk rfl
  have hdec : s2.dec = s.dec := (same_dec hk rfl).trans (if_neg hfirst)
  refine ⟨_, rfl, ?_⟩
  split
  · exact ⟨(congrArg Afe.ringSrc hafe).trans hring, congrArg Afe.mpllLock hafe, hdec⟩
  · exact ⟨(congrArg Afe.ringSrc hafe).trans hring, congrArg Afe.mpllLock hafe, hdec⟩

/-- What the clock logic holds of the MPLL: holdover, lock, and the ports that carry a clock. -/
def clockOf (s : State) : Bool × Bool × BitVec 2 := (s.afe.hold, s.afe.mpllLock, s.afe.rclk)

theorem clockOf_afe {s t : State} (h : t.afe = s.afe) : clockOf t = clockOf s := by rw [clockOf, h]; rfl

theorem clockOf_reconnect (ms : List Nat) (s : State) : clockOf (reconnect ms s) = clockOf s := by
  unfold reconnect
  induction ms generalizing s with
  | nil => rfl
  | cons m ms ih => exact ih _

theorem clockOf_resumeShadow (g : Nat) (s : State) : clockOf (resumeShadow g s) = clockOf s := by
  unfold resumeShadow
  dsimp -proj only
  split <;> rfl

/-- The blocks that the end of a calibration changes beside the modulators' inputs. -/
def calEndBlocks : Mask := { out := true, hif := true, coil := true, nvs := true, pnt := true, cal := true }

theorem clockOf_setWss (f : State → Nat → WStream) (l : List Nat) (s : State) :
    clockOf (l.foldl (fun u c => setWs c (f u c) u) s) = clockOf s :=
  clockOf_afe (same_afe (hide_foldl (fun t c => @hide_setWs { pnt := true } ⟨rfl⟩ c _ t) l s) rfl)

/-- The end of a calibration leaves the clock. -/
theorem clockOf_calAbort (s : State) : clockOf (calAbort s) = clockOf s := by
  have hend : ∀ (k g a : Nat) (b : Bool) (r : List Nat) (c : Bool) (st : Stamp) (u : State),
      clockOf (calIdle (calEvent k g a b r c st u)) = clockOf u := fun _ _ _ _ _ _ _ _ => rfl
  have hcomplete : ∀ w st q d (u : State), clockOf (complete w st q d u) = clockOf u := fun w st q d u =>
    clockOf_afe (same_afe (hide_complete_own w st q d u) rfl)
  have hrecon : clockOf (if s.cal.isol then reconnect (groupMods s.cal.group.toNat) s else s) = clockOf s := by
    split
    · exact clockOf_reconnect _ _
    · rfl
  have hheld : ∀ u, clockOf u = clockOf s → clockOf (if s.cal.held then
      (groupChans s.cal.group.toNat).foldl (fun u c => setWs c { getWs u c with mode := 0, sw := none } u)
        (resumeShadow s.cal.group.toNat u) else u) = clockOf s := fun u hu => by
    split
    · rw [clockOf_setWss (fun u c => { getWs u c with mode := 0, sw := none }), clockOf_resumeShadow, hu]
    · exact hu
  unfold calAbort
  dsimp -proj only
  split
  · rfl
  · exact (hend _ _ _ _ _ _ _ _).trans (clockOf_reconnect _ _)
  · split
    · exact (hcomplete _ _ _ _ _).trans ((hend _ _ _ _ _ _ _ _).trans (hheld _ hrecon))
    · exact (hend _ _ _ _ _ _ _ _).trans (hheld _ hrecon)

/-- The blocks that the accounting before a freeze and the closing of its results change. -/
def freezeBlocks : Mask :=
  { faultBlocks with free := true, whl := true, pnt := true, pq := true, trf := true, crd := true }

/-- A freeze leaves the clock. -/
theorem clockOf_freeze (s : State) : clockOf (freeze s) = clockOf s := by
  have : Hidden true := ⟨rfl⟩
  unfold freeze
  split
  · rfl
  · exact (clockOf_calAbort _).trans (clockOf_afe (same_afe (μ := freezeBlocks) (by simp [freezeBlocks, faultBlocks]) rfl))

theorem clockOf_raiseLive {b i : Nat} (hc : srcClass b i ≠ some .grave) (s : State) : clockOf (raiseLive b i s) = clockOf s :=
  clockOf_afe (same_afe (hide_raiseLive_mild hc s) rfl)

theorem hide_powerupAbort_own (s : State) : hide { cal := true } (powerupAbort s) = hide { cal := true } s :=
  @hide_powerupAbort { cal := true } ⟨rfl⟩ s

/-- The loss of a clock (R70): the clock's own bits stand, metering freezes, and outside METERING the source is latched. -/
theorem clockLost_spec {src : Nat} {s : State} (hc : srcClass 1 src = some .severe) (hl : bit (getBlk s 1).flive src = false) :
    clockOf (clockLost src s) = clockOf s ∧ (metering s = true → (clockLost src s).pnt.frozen = true) ∧
      (metering s = false → latched 1 src (clockLost src s)) := by
  have hmild : srcClass 1 src ≠ some .grave := by simp [hc]
  have hk := hide_powerupAbort_own (freeze (raiseLive 1 src s))
  have hmet : metering (raiseLive 1 src s) = metering s := by
    unfold metering
    rw [same_bootSt (hide_raiseLive_mild hmild s) rfl]
  unfold clockLost
  refine ⟨?_, fun hm => ?_, fun hm => ?_⟩
  · exact (clockOf_afe (same_afe hk rfl)).trans ((clockOf_freeze _).trans (clockOf_raiseLive hmild s))
  · rw [same_pnt hk rfl]
    exact frozen_freeze _ (hmet.trans hm)
  · have hfreeze : freeze (raiseLive 1 src s) = raiseLive 1 src s := by simp [freeze, hmet, hm]
    unfold latched
    rw [getBlk_flt (same_flt hk rfl), hfreeze]
    exact latched_raiseLive s (by simp [hc]) hl

theorem flive_resumeIfClear (s : State) (c : Nat) : (getBlk (resumeIfClear s) c).flive = (getBlk s c).flive := by
  have hout : ∀ (l : List Rec) (u : State), (getBlk (l.foldl (fun t r => deliver2 { r with seq := t.pnt.seq } t) u) c).flive =
      (getBlk u c).flive := by
    intro l
    induction l with
    | nil => exact fun _ => rfl
    | cons r l ih => exact fun u => (ih _).trans ((raiseView_flive c).deliver 2 _ _)
  unfold resumeIfClear resume
  split
  · rfl
  · split
    · exact hout _ _
    · rfl

/-- The return of a clock (R70): the clock's own bits stand, and its source is no longer live. -/
theorem clockBack_spec (src : Nat) (s : State) (hi : src < 32) :
    (clockBack src s).afe = s.afe ∧ bit (getBlk (clockBack src s) 1).flive src = false := by
  refine ⟨same_afe (hide_clockBack_own src s) rfl, ?_⟩
  unfold clockBack
  rw [flive_resumeIfClear]
  exact flive_resolve_fallLive 1 src s hi

theorem port_cases {p : Nat} (hp : p < 2) : p = 0 ∨ p = 1 := by omega

/-- The loss of the port in use, where the other one carries a clock (R70). -/
theorem execRclkLoss_moves {p : Nat} {s : State} (hp : p < 2) (he : s.afe.everLocked = true) (hr : s.afe.ringSrc = true)
    (hh : s.afe.hold = false) (hport : s.afe.port = (p == 1)) (ho : bit s.afe.rclk (1 - p) = true) : execRclkLoss p s =
      .next { s with afe.rclk := setBit s.afe.rclk p false, afe.port := !s.afe.port } := by
  rcases port_cases hp with rfl | rfl <;>
    simp_all [execRclkLoss, bit_setBit]

/-- The loss of the port in use, where no other one carries a clock (R70). -/
theorem execRclkLoss_holds {p : Nat} {s : State} (hp : p < 2) (he : s.afe.everLocked = true) (hr : s.afe.ringSrc = true)
    (hh : s.afe.hold = false) (hport : s.afe.port = (p == 1)) (ho : bit s.afe.rclk (1 - p) = false) : execRclkLoss p s =
      .next (clockLost 6 { s with afe.rclk := setBit s.afe.rclk p false, afe.hold := true, afe.mpllLock := false }) := by
  rcases port_cases hp with rfl | rfl <;>
    simp_all [execRclkLoss, bit_setBit]

/-- A GRAVE raise where no fail-stop is in force is a fail-stop and leaves the front end. -/
theorem raise_vref {s : State} (hp : s.flt.phase = .none) : (raise 1 8 { s with afe.vrefOk := false }).afe.vrefOk = false ∧
    latched 1 8 (raise 1 8 { s with afe.vrefOk := false }) ∧ (raise 1 8 { s with afe.vrefOk := false }).boot.st = .failstop := by
  have hk := @hide_raise faultBlocks ⟨rfl⟩ ⟨rfl⟩ ⟨rfl⟩ ⟨rfl⟩ ⟨rfl⟩ ⟨rfl⟩ ⟨rfl⟩ 1 8 { s with afe.vrefOk := false }
  have hstop := stop_raise 1 8 { s with afe.vrefOk := false }
  rw [if_pos ⟨rfl, hp⟩] at hstop
  exact ⟨congrArg Afe.vrefOk (same_afe hk rfl), latched_raise _ rfl, congrArg Prod.snd hstop⟩

/-- Settles O24: the first lock and the move by their lemmas, losses and returns by what losing and regaining a clock does. -/
theorem clockSources : Obligations.ClockSources := by
  unfold Obligations.ClockSources
  refine ⟨fun s hr => ⟨fun he => ?_, fun he hw hst => ?_, fun he hs hw => execMpllLock_moves hr he hs hw⟩,
    fun p s hp he hr => ⟨execRclkLoss_moves hp he hr, fun hh hport ho hl => ?_, fun h => ?_, fun hh => ?_, fun hh => ?_⟩,
    fun s he hr => ⟨fun hm hl => ?_, fun hm => ?_⟩, fun s hp => ⟨fun hm hst => ?_, fun hst hc => ?_⟩⟩
  · obtain ⟨t, ht, hlock, hever, -, hrun, hg, hflt, hboot⟩ := execMpllLock_first (onRing := false) hr he
    exact ⟨t, ht, hlock, hever, hrun, hg, hboot, hflt⟩
  · obtain ⟨t, ht, -, -, hring, hrun, hg, -, hboot⟩ := execMpllLock_first (onRing := true) hr he
    exact ⟨t, ht, hboot.trans (by simp [hw, hst]), hring.trans hw, hrun, hg⟩
  · obtain ⟨hclock, hfrozen, hlat⟩ := clockLost_spec (src := 6)
      (s := { s with afe.rclk := setBit s.afe.rclk p false, afe.hold := true, afe.mpllLock := false }) rfl hl
    simp only [clockOf, Prod.mk.injEq] at hclock
    obtain ⟨hhold, hlock, hrclk⟩ := hclock
    exact ⟨_, execRclkLoss_holds hp he hr hh hport ho, hhold, hlock, by rw [hrclk, bit_setBit _ _ _ _ hp, if_pos rfl],
      hfrozen, hlat⟩
  · have hidle : (!s.afe.everLocked || !s.afe.ringSrc || s.afe.hold || s.afe.port != (p == 1)) = true := by
      rcases h with h | h <;> simp [h]
    simp only [exec, execRclkLoss, Nat.mod_eq_of_lt hp, hidle, if_true]
  · obtain ⟨hafe, hlive⟩ := clockBack_spec 6
      { s with afe.rclk := setBit s.afe.rclk (p % 2) true, afe.hold := false, afe.mpllLock := true, afe.port := p % 2 == 1 }
      (by decide)
    have hexec : execRclkReturn p s = .next (clockBack 6 { s with
        afe.rclk := setBit s.afe.rclk (p % 2) true, afe.hold := false, afe.mpllLock := true, afe.port := p % 2 == 1 }) := by
      simp [execRclkReturn, hh]
    refine ⟨_, hexec, ?_⟩
    exact ⟨congrArg Afe.hold hafe, congrArg Afe.mpllLock hafe,
      (congrArg Afe.port hafe).trans (by rw [Nat.mod_eq_of_lt hp]), hlive⟩
  · simp [exec, execRclkReturn, hh, Nat.mod_eq_of_lt hp]
  · obtain ⟨hclock, hfrozen, hlat⟩ := clockLost_spec (src := 7) (s := { s with afe.mpllLock := false }) rfl hl
    exact ⟨_, by simp [exec, execMpllUnlock, he, hr, hm], congrArg (fun c => c.2.1) hclock, hfrozen, hlat⟩
  · obtain ⟨hafe, hlive⟩ := clockBack_spec 7 { s with afe.mpllLock := true } (by decide)
    exact ⟨_, by simp [exec, execMpllRelock, he, hr, hm], congrArg Afe.mpllLock hafe, hlive⟩
  · exact ⟨_, by simp [exec, execVrefFault, hm, hst], raise_vref hp⟩
  · exact ⟨_, by simp [exec, execVrefWaitTimeout, hst, hc], raise_vref hp⟩

end Sys2Proof.Proofs

namespace Sys2Proof.Proofs
open Sys2Proof Sys2Proof.Machine Sys2Proof.Laws

/-! ### Requests that pass the common checks, and writes to Kiln records -/

theorem ends_of {o : Out} {t : State} {P : State → Prop} (h : o = .next t) (hp : P t) : ends o P := ⟨t, h, hp⟩

/-- A Ring 0 request for the chip itself that passes the common checks is answered by its own meaning (R343, R351). -/
theorem ring0_own {op : Byte} {lenOk : Nat → Bool} {r : Req} {s : State} (hm : metering s = true)
    (hl : lenOk r.buf.length = true) (hd : cmdDest r s = .own) (body : Waiter → State → Ans) :
    ring0 op lenOk r s body = .next (answer (reqWaiter r 0 op) (body (reqWaiter r 0 op) s)) := by
  simp [ring0, hm, hl, hd]

theorem ring0_ownRing0 {op : Byte} {n : Nat} {r : Req} {s : State} (h : ownRing0 n r s) (body : Waiter → State → Ans) :
    ring0 op (· == n) r s body = .next (answer (reqWaiter r 0 op) (body (reqWaiter r 0 op) s)) := by
  obtain ⟨hm, hl, hd⟩ := h
  exact ring0_own hm (by simp [hl]) hd body

@[simp] theorem answer_wait (w : Waiter) (s : State) : answer w (.wait s) = waitReq w s := rfl
@[simp] theorem answer_done (w : Waiter) (st : W16) (s : State) : answer w (.done st s) = complete w st 0 [] s := rfl
@[simp] theorem answer_fail (w : Waiter) (st : W16) (s : State) : answer w (.fail st s) = complete w st 0 [] s := rfl
@[simp] theorem answer_reply (w : Waiter) (q : W32) (d : List Byte) (s : State) :
    answer w (.reply q d s) = complete w statusOk q d s := rfl

/-- The write of a record that PROT allows, before a freeze of R14 (R290). -/
theorem writeCmd_allowed {key : Nat} {s : State} (hw : writeForbidden s key = false) (hg : gasped s = false)
    (v : NvVal) (pages : Nat) (w : Waiter) (f : State → State) :
    writeCmd key v pages w f s = .wait (commitRec key v pages (some (w, statusOk)) (f s)) := by
  simp [writeCmd, hw, hg]

theorem writeCmdEff_allowed {key : Nat} {s : State} (hw : writeForbidden s key = false) (hg : gasped s = false)
    (v : NvVal) (pages : Nat) (w : Waiter) (eff : Option GroupEff) (f : State → State) :
    writeCmdEff key v pages w eff f s = .wait (commitDone key v pages (some (w, statusOk)) eff (f s)) := by
  simp [writeCmdEff, hw, hg]

/-- The write of a record that PROT forbids (R302). -/
theorem writeCmd_forbidden {key : Nat} {s : State} (hw : writeForbidden s key = true) (v : NvVal) (pages : Nat) (w : Waiter)
    (f : State → State) : writeCmd key v pages w f s = .fail statusDenied (protRefuse s) := by
  simp [writeCmd, hw]

/-- From a freeze of R14 on the command waits without effect. -/
theorem writeCmd_gasped {key : Nat} {s : State} (hw : writeForbidden s key = false) (hg : gasped s = true)
    (v : NvVal) (pages : Nat) (w : Waiter) (f : State → State) : writeCmd key v pages w f s = .wait s := by
  simp [writeCmd, hw, hg]

theorem hide_waitReq_own (w : Waiter) (s : State) : hide { hif := true } (waitReq w s) = hide { hif := true } s :=
  @hide_waitReq { hif := true } ⟨rfl⟩ w s

theorem hide_commitRec_own (key : Nat) (v : NvVal) (pages : Nat) (w : Option (Waiter × W16)) (s : State) :
    hide { nvs := true } (commitRec key v pages w s) = hide { nvs := true } s :=
  @hide_commitRec { nvs := true } ⟨rfl⟩ key v pages w s

/-- A request that waits for its record changes, beside the effect before it, the host interface and the commit queue. -/
theorem hide_waitCommit (w w' : Waiter) (key : Nat) (v : NvVal) (pages : Nat) (s : State) :
    hide { hif := true, nvs := true } (waitReq w (commitRec key v pages (some (w', statusOk)) s)) =
      hide { hif := true, nvs := true } s :=
  (@hide_waitReq { hif := true, nvs := true } ⟨rfl⟩ w _).trans (@hide_commitRec { hif := true, nvs := true } ⟨rfl⟩ key v pages _ s)

/-- What a raise keeps of the store's block: all but the records that wait for the log. -/
theorem raiseView_nvs : RaiseView (fun s => { s.nvs with logQueue := [] }) where
  blk _ _ _ _ := rfl
  seq _ _ := rfl
  enq r q t := by
    have h := same_nvs (@hide_enqRaw { hif := true, coil := true } ⟨rfl⟩ ⟨rfl⟩ r q t) rfl rfl
    simp only [h]
  vec v t := by
    have h := same_nvs (@hide_sendVector { out := true, hif := true } ⟨rfl⟩ ⟨rfl⟩ v t) rfl rfl
    simp only [h]
  event _ _ _ _ := rfl
  ring _ _ _ := rfl

/-- A field of the store's block other than the waiting log records stands over a raise below GRAVE. -/
theorem nvsField_raise {α : Type} (f : Nvs → α) (hf : ∀ n l, f { n with logQueue := l } = f n) {b i : Nat}
    (hc : srcClass b i ≠ some .grave) (s : State) : f (raise b i s).nvs = f s.nvs := by
  have h := raiseView_nvs.raise_mild hc s
  rw [← hf (raise b i s).nvs [], h, hf]

theorem nvsField_deliverRec {α : Type} (f : Nvs → α) (hf : ∀ n l, f { n with logQueue := l } = f n) (ring : Nat) (x : Rec)
    (s : State) : f (deliverRec ring x s).nvs = f s.nvs := by
  have h := raiseView_nvs.deliver ring ⟨x.seq, x.bytes, none, none⟩ s
  rw [← hf (deliverRec ring x s).nvs [], deliverRec, h, hf]

/-- A write that PROT forbids is counted and raised, and sets nothing (R302). -/
theorem protRefuse_spec (s : State) : (protRefuse s).nvs.refused = satInc s.nvs.refused ∧
    (protRefuse s).nvs.groups = s.nvs.groups ∧ latched 9 8 (protRefuse s) ∧ (protRefuse s).nvs.recs = s.nvs.recs ∧
    (protRefuse s).pnt = s.pnt := by
  have hk := hide_raise_mild (b := 9) (i := 8) (by decide) { s with nvs.refused := satInc s.nvs.refused }
  exact ⟨nvsField_raise Nvs.refused (fun _ _ => rfl) (by decide) _, nvsField_raise Nvs.groups (fun _ _ => rfl) (by decide) _,
    latched_raise _ rfl, (same_recs hk rfl :), (same_pnt hk rfl :)⟩

/-! ### Ring 0 commands whose record goes to the store -/

theorem nextSeq_nvs {s t : State} (h : t.nvs = s.nvs) (key : Nat) : nextSeq t key = nextSeq s key := by
  simp only [nextSeq, bestCopy, validCopy, copyOf, h]

/-- The commit queue after a write depends on the store's block alone. -/
theorem nvs_commitRec {s t : State} (h : t.nvs = s.nvs) (key : Nat) (v : NvVal) (pages : Nat) (w : Option (Waiter × W16)) :
    (commitRec key v pages w t).nvs = (commitRec key v pages w s).nvs := by
  simp only [commitRec, commitRecEff, pushGroups, nextSeq_nvs h, h]

/-- What an accepted CHAN_CAL sets: the waiting configuration, and a changed ADJ in the phase-filter pair (R139). -/
def chanCalSet (c : Nat) (x : ChanRec) (old : Int) (s : State) : State :=
  let t1 := { s with pnt.chanNext := tput s.pnt.chanNext c x, afe.chanNext := cfgSet c x.setup s.afe.chanNext,
                     pnt.chan := tput s.pnt.chan c { getChan s c with adj := x.adj } }
  if x.adj = old then t1 else armPair (phasePair c) (some (phaseBank x.adj (feedSlot t1 c))) t1

theorem chanCalSet_spec (c : Nat) (x : ChanRec) (old : Int) (s : State) :
    (chanCalSet c x old s).pnt.chanNext = tput s.pnt.chanNext c x ∧
    (chanCalSet c x old s).afe.chanNext = cfgSet c x.setup s.afe.chanNext ∧ (chanCalSet c x old s).nvs = s.nvs ∧
    (x.adj = old → (chanCalSet c x old s).dec = s.dec) := by
  unfold chanCalSet
  extract_lets _ _ _ t1
  split
  · exact ⟨rfl, rfl, rfl, fun _ => rfl⟩
  · have hk := @hide_armPair { dec := true } ⟨rfl⟩ (phasePair c) (some (phaseBank x.adj (feedSlot t1 c))) t1
    exact ⟨congrArg Pnt.chanNext (same_pnt hk rfl), congrArg Afe.chanNext (same_afe hk rfl), (same_nvs hk rfl rfl :),
      fun h => absurd h ‹_›⟩

/-- A CHAN_CAL that passes its checks (R139, R166). -/
theorem execChanCal_accepted {r : Req} {s : State} (hown : ownRing0 16 r s) (hg : gasped s = false)
    (hcrc : crcOk r.buf 12 (r.buf.take 12) = true) (hbad : chanBad r.buf = false)
    (huse : bit (chanRecOf r.buf).setup 7 = true ∨ cfgEn s.afe.chanNext (rd r.buf 0 1) = false ∨
      s.pnt.pts.any (fun p => (p.2.dfn.any (usesChan · (rd r.buf 0 1))) || (p.2.next.any (usesChan · (rd r.buf 0 1)))) = false)
    (hbusy : (chanRecOf r.buf).adj = (chanNextOf s (rd r.buf 0 1)).adj ∨ pfBusy s (rd r.buf 0 1) = false)
    (hw : writeForbidden s (nvKey .channel (rd r.buf 0 1)) = false) :
    execChanCal r s = .next (waitReq (reqWaiter r 0 0x10) (commitRec (nvKey .channel (rd r.buf 0 1)) (.bytes r.buf) 1
      (some (reqWaiter r 0 0x10, statusOk))
      (chanCalSet (rd r.buf 0 1) (chanRecOf r.buf) (chanNextOf s (rd r.buf 0 1)).adj s))) := by
  have hconf : (!bit (chanRecOf r.buf).setup 7 && cfgEn s.afe.chanNext (rd r.buf 0 1) &&
      s.pnt.pts.any (fun p => (p.2.dfn.any (usesChan · (rd r.buf 0 1))) || (p.2.next.any (usesChan · (rd r.buf 0 1))))) =
      false := by
    rcases huse with h | h | h <;> simp only [h, Bool.not_true, Bool.false_and, Bool.and_false]
  have hpf : ((chanRecOf r.buf).adj != (chanNextOf s (rd r.buf 0 1)).adj && pfBusy s (rd r.buf 0 1)) = false := by
    rcases hbusy with h | h <;> simp [h]
  unfold execChanCal
  rw [ring0_ownRing0 hown]
  dsimp -proj only
  simp only [hcrc, hbad, hconf, hpf, firstBad, Bool.not_true, Bool.false_eq_true, if_false]
  rw [writeCmd_allowed hw hg]
  rfl

/-- A POINT_DEF that passes its checks (R137, R138). -/
theorem execPointDef_accepted {r : Req} {s : State} (hown : ownRing0 32 r s) (hg : gasped s = false)
    (hcrc : crcOk r.buf 28 (r.buf.take 28) = true) (hbad : pdefBad r.buf = false)
    (hlegs : (pdefOf r.buf).legs.any (fun l => !cfgEn s.afe.chanNext l.v || !cfgEn s.afe.chanNext (iIdx l.i)) = false)
    (hdup : dupCurrent (pdefOf r.buf).legs = false) (hw : writeForbidden s (nvKey .pointDef (rd r.buf 0 1)) = false) :
    execPointDef r s = .next (waitReq (reqWaiter r 0 0x11) (commitRec (nvKey .pointDef (rd r.buf 0 1)) (.bytes r.buf) 1
      (some (reqWaiter r 0 0x11, statusOk))
      (setPt (rd r.buf 0 1) { getPt s (rd r.buf 0 1) with next := some (pdefOf r.buf) } s))) := by
  unfold execPointDef
  rw [ring0_ownRing0 hown]
  dsimp -proj only
  simp only [hcrc, hbad, hlegs, hdup, firstBad, Bool.not_true, Bool.false_eq_true, if_false]
  rw [writeCmd_allowed hw hg]
  rfl

/-- An F3_STORE that passes its checks writes its set, or is refused where PROT forbids the write (R141, R302). -/
theorem execF3Store_checked {r : Req} {s : State} (hown : ownRing0 200 r s) (hcrc : crcOk r.buf 4 (r.buf.drop 8) = true)
    (h1 : 1 ≤ rd r.buf 0 1) (h7 : rd r.buf 0 1 ≤ 7) (hz : zerosAt r.buf 1 3 = true)
    (hrange : coefRange ((List.range 48).map (fun i => rdI r.buf (8 + 4 * i) 4)) = true)
    (hsum : f3Sum ((List.range 48).map (fun i => rdI r.buf (8 + 4 * i) 4)) = 8388608) :
    execF3Store r s = .next (answer (reqWaiter r 0 0x12)
      (writeCmd (nvKey .f3set (rd r.buf 0 1)) (.bytes r.buf) 1 (reqWaiter r 0 0x12) id s)) := by
  have hset : (rd r.buf 0 1 == 0) = false := by
    rw [beq_eq_false_iff_ne]
    omega
  have hlast : (decide (rd r.buf 0 1 > 7) || !zerosAt r.buf 1 3 ||
      !coefRange ((List.range 48).map (fun i => rdI r.buf (8 + 4 * i) 4)) ||
      f3Sum ((List.range 48).map (fun i => rdI r.buf (8 + 4 * i) 4)) != 8388608) = false := by
    simp [h7, hz, hrange, hsum]
  unfold execF3Store
  rw [ring0_ownRing0 hown]
  dsimp -proj only
  simp only [hcrc, hset, hlast, firstBad, Bool.not_true, Bool.false_eq_true, if_false]

/-- A CF_CFG that passes its checks: its configuration waits, and its effect comes with the second copy (R162, R165). -/
theorem execCfCfg_accepted {r : Req} {s : State} (hown : ownRing0 16 r s) (hg : gasped s = false)
    (hcrc : crcOk r.buf 12 (r.buf.take 12) = true) (hbad : cfBad r.buf = false)
    (hen : cfEn (cfWord r.buf) = true → (getPt s (cfPoint (cfWord r.buf))).dfn.isSome = true ∧
      claimOk s (cfBall (cfWord r.buf)) fnCF (rd r.buf 0 1) = true ∧
      ((getCf s (rd r.buf 0 1)).gen.isSome = true ∨ (freeGen s).isSome = true))
    (hw : writeForbidden s (cfKey (rd r.buf 0 1)) = false) :
    execCfCfg r s = .next (waitReq (reqWaiter r 0 0x13) (commitDone (cfKey (rd r.buf 0 1)) (.bytes r.buf) 1
      (some (reqWaiter r 0 0x13, statusOk)) (some (.cf (rd r.buf 0 1)))
      (cfAccept (rd r.buf 0 1) (cfWord r.buf) (BitVec.ofNat 32 (rd r.buf 4 4)) s))) := by
  have hpoint : (cfEn (cfWord r.buf) && (getPt s (cfPoint (cfWord r.buf))).dfn.isNone &&
      !((getPt s (cfPoint (cfWord r.buf))).next.any (fun d => !d.legs.isEmpty))) = false := by
    cases he : cfEn (cfWord r.buf)
    · rfl
    · obtain ⟨hd, -, -⟩ := hen he
      rw [Option.isSome_iff_ne_none] at hd
      simp [hd]
  have hclaim : (cfEn (cfWord r.buf) && !claimOk s (cfBall (cfWord r.buf)) fnCF (rd r.buf 0 1)) = false := by
    cases he : cfEn (cfWord r.buf)
    · rfl
    · simp [(hen he).2.1]
  have hgen : (cfEn (cfWord r.buf) && (getCf s (rd r.buf 0 1)).gen.isNone && (freeGen s).isNone) = false := by
    cases he : cfEn (cfWord r.buf)
    · rfl
    · obtain ⟨-, -, h⟩ := hen he
      rcases h with h | h <;> simp [Option.isNone_eq_false_iff.2 h]
  unfold execCfCfg
  rw [ring0_ownRing0 hown]
  dsimp -proj only
  simp only [hcrc, hbad, hpoint, hclaim, hgen, firstBad, Bool.not_true, Bool.false_eq_true, if_false]
  rw [writeCmdEff_allowed hw hg]
  rfl

/-- A CAP_CFG that passes its checks takes the request over (R194). -/
theorem execCapCfg_accepted {r : Req} {s : State} (hown : ownRing0 32 r s) (hg : gasped s = false)
    (hbad : capBad s r.buf = false) (hfree : s.pq.cap.state = 0 ∨ s.pq.cap.owner.toNat ≠ rd r.buf 0 1)
    (hw : writeForbidden s (capKey (rd r.buf 0 1)) = false) :
    execCapCfg r s = .next (waitReq (reqWaiter r 0 0x21) (commitRec (capKey (rd r.buf 0 1)) (.bytes r.buf) 1
      (some (reqWaiter r 0 0x21, statusOk)) { s with pq.reqs := tput s.pq.reqs (rd r.buf 0 1) (capReqOf r.buf) })) := by
  have hidle : (s.pq.cap.state != 0 && s.pq.cap.owner.toNat == rd r.buf 0 1) = false := by
    rcases hfree with h | h <;> simp [h]
  unfold execCapCfg
  rw [ring0_ownRing0 hown]
  dsimp -proj only
  simp only [hbad, hidle, Bool.false_eq_true, if_false]
  rw [writeCmd_allowed hw hg]
  rfl

/-- A PQ_SUBSCRIBE of the chip itself that passes its checks takes the entry over (R187). -/
theorem execPqSubscribe_accepted {r : Req} {s : State} (hown : ownRing0 48 r s) (hg : gasped s = false)
    (hbad : subBad r.buf = false) (hw : writeForbidden s (subKey (rd r.buf 0 1)) = false) :
    execPqSubscribe r s = .next (waitReq (reqWaiter r 0 0x20) (commitRec (subKey (rd r.buf 0 1)) (.bytes r.buf) 1
      (some (reqWaiter r 0 0x20, statusOk)) { s with pq := { s.pq with
        subs := tput s.pq.subs (rd r.buf 0 1) (subOf r.buf)
        subWas := tput s.pq.subWas (rd r.buf 0 1) (s.slot, getSub s (rd r.buf 0 1)) } })) := by
  obtain ⟨hm, hl, hd⟩ := hown
  have hlen : (r.buf.length != 48) = false := by simp [hl]
  unfold execPqSubscribe
  dsimp -proj only
  simp only [hm, hlen, hbad, hd, firstBad, Bool.not_true, Bool.false_eq_true, if_false]
  rw [writeCmd_allowed hw hg]
  rfl

/-- Settles O31: each command by its lemma, the refusal by what a forbidden write does. -/
theorem storedCommands : Obligations.StoredCommands := by
  unfold Obligations.StoredCommands
  refine ⟨fun r s hg => ⟨fun hown hcrc hbad huse hbusy hw => ?_,
      fun hown hcrc hbad hlegs hdup hw => execPointDef_accepted hown hg hcrc hbad hlegs hdup hw,
      fun hown hcrc h1 h7 hz hrange hsum hw => ?_,
      fun hown hcrc hbad hen hw => execCfCfg_accepted hown hg hcrc hbad hen hw,
      fun hown hbad hfree hw => execCapCfg_accepted hown hg hbad hfree hw,
      fun hown hbad hw => execPqSubscribe_accepted hown hg hbad hw⟩,
    fun r s hown hcrc h1 h7 hz hrange hsum hw => ?_, fun key v pages w f s hw => ⟨writeCmd_forbidden hw v pages w f, protRefuse_spec s⟩⟩
  · obtain ⟨hnext, hafe, hnvs, hdec⟩ :=
      chanCalSet_spec (rd r.buf 0 1) (chanRecOf r.buf) (chanNextOf s (rd r.buf 0 1)).adj s
    have hk := hide_waitCommit (reqWaiter r 0 0x10) (reqWaiter r 0 0x10) (nvKey .channel (rd r.buf 0 1)) (.bytes r.buf) 1
      (chanCalSet (rd r.buf 0 1) (chanRecOf r.buf) (chanNextOf s (rd r.buf 0 1)).adj s)
    refine ⟨_, execChanCal_accepted hown hg hcrc hbad huse hbusy hw, ?_, ?_, ?_, ?_, fun h => ?_⟩
    · rw [same_pnt hk rfl, hnext]
    · rw [same_afe hk rfl, hafe]
    · rw [same_nvs (hide_waitReq_own _ _) rfl rfl, nvs_commitRec hnvs]
    · rw [same_recs hk rfl, hnvs]
    · rw [same_dec hk rfl, hdec h]
  · refine (execF3Store_checked hown hcrc h1 h7 hz hrange hsum).trans ?_
    rw [writeCmd_allowed hw hg]
    rfl
  · refine (execF3Store_checked hown hcrc h1 h7 hz hrange hsum).trans ?_
    rw [writeCmd_forbidden hw]
    rfl

end Sys2Proof.Proofs

namespace Sys2Proof.Proofs
open Sys2Proof Sys2Proof.Machine Sys2Proof.Laws

/-! ### Tariff requests -/

/-- A TRF_LOAD whose range and check hold: BUSY while an image is armed, else as PROT and a freeze allow (R229). -/
theorem execTrfLoad_checked {r : Req} {s : State} (hm : metering s = true) (hd : cmdDest r s = .own)
    (hl : loadLenOk r.buf r.buf.length = true) (hcrc : crcOk r.buf 4 (r.buf.drop 8) = true) (hn : rd r.buf 2 2 ≤ 4095)
    (he : rd r.buf 0 2 + rd r.buf 2 2 ≤ 8192) : execTrfLoad r s = .next (answer (reqWaiter r 0 0x28)
      (if s.trf.armed.isSome then .fail statusBusy s
      else if protForbids s.nvs.prot 2 then .fail statusDenied (protRefuse s)
      else if gasped s then .wait s
      else .wait (imageWrite (!s.trf.active) (loadEntries r.buf) (some (reqWaiter r 0 0x28, statusOk)) none
        (putEntries (!s.trf.active) (loadEntries r.buf) s)))) := by
  have hrange : (decide (rd r.buf 2 2 > 4095) || decide (rd r.buf 0 2 + rd r.buf 2 2 > 8192) ||
      !crcOk r.buf 4 (r.buf.drop 8)) = false := by
    simp only [hcrc, Bool.not_true, Bool.or_false, Bool.or_eq_false_iff, decide_eq_false_iff_not]
    omega
  unfold execTrfLoad
  rw [ring0_own hm hl hd]
  dsimp -proj only
  simp only [hrange, firstBad, Bool.false_eq_true, if_false]
  cases s.trf.armed.isSome <;> rfl

/-- A TRF_CTLEDIT that passes its checks queues the edit of the active image's control section (R232). -/
theorem execTrfCtledit_accepted {r : Req} {s : State} (hm : metering s = true) (hd : cmdDest r s = .own)
    (hl : loadLenOk r.buf r.buf.length = true) (hcrc : crcOk r.buf 4 (r.buf.drop 8) = true) (h1 : 8193 ≤ rd r.buf 0 2)
    (h2 : rd r.buf 2 2 ≤ 511) (h3 : rd r.buf 0 2 + rd r.buf 2 2 ≤ 12288) (hp : protForbids s.nvs.prot 2 = false)
    (hg : gasped s = false)
    (hbody : controlBody (putEntries s.trf.active (loadEntries r.buf) (editedControl s)) s.trf.active = true) :
    let all := (8192, ctlHeader (putEntries s.trf.active (loadEntries r.buf) (editedControl s)) s.trf.active) :: loadEntries r.buf
    execTrfCtledit r s = .next (waitReq (reqWaiter r 0 0x2A)
      (imageWrite s.trf.active all (some (reqWaiter r 0 0x2A, statusOk)) none
        { s with trf.ctlPend := s.trf.ctlPend ++ [(none, all)] })) := by
  have hrange : (decide (rd r.buf 0 2 < 8193) || decide (rd r.buf 2 2 > 511) || decide (rd r.buf 0 2 + rd r.buf 2 2 > 12288) ||
      !crcOk r.buf 4 (r.buf.drop 8) ||
      !controlBody (putEntries s.trf.active (loadEntries r.buf) (editedControl s)) s.trf.active) = false := by
    simp only [hcrc, hbody, Bool.not_true, Bool.or_false, Bool.or_eq_false_iff, decide_eq_false_iff_not]
    omega
  unfold execTrfCtledit
  rw [ring0_own hm hl hd]
  dsimp -proj only
  simp only [hrange, hp, hg, Bool.false_eq_true, if_false]
  rfl

/-- What an arming, or its clearing, leaves behind: the armed instant, its record and the action (R230). -/
def armedAt (u : Option W32) (s : State) : State :=
  armBoundary s.rtc.s (ownWrite (nvKey .trfState 0) (trfVal { s with trf.armed := u }) 1 { s with trf.armed := u })

theorem trf_armedAt (u : Option W32) (s : State) : (armedAt u s).trf = { s.trf with armed := u } :=
  same_trf ((@hide_armBoundary { whl := true, nvs := true } ⟨rfl⟩ s.rtc.s _).trans
    (@hide_ownWrite { whl := true, nvs := true } ⟨rfl⟩ (nvKey .trfState 0) (trfVal { s with trf.armed := u }) 1
      { s with trf.armed := u })) rfl

theorem trf_complete (w : Waiter) (st : W16) (q : W32) (d : List Byte) (s : State) : (complete w st q d s).trf = s.trf :=
  same_trf (hide_complete_own w st q d s) rfl

section Arm
variable {r : Req} {s : State} (hown : ownRing0 12 r s)
include hown

/-- TRF_ARM with all ones clears the arming (R230). -/
theorem execTrfArm_clears (hg : gasped s = false) (hu : rd r.buf 0 4 = 0xFFFFFFFF) :
    execTrfArm r s = .next (complete (reqWaiter r 0 0x29) statusOk 0 [] (armedAt none s)) := by
  unfold execTrfArm
  rw [ring0_ownRing0 hown]
  dsimp -proj only
  simp only [hu, hg, BEq.rfl, if_true, Bool.false_eq_true, if_false]
  rfl

theorem execTrfArm_invalid (hu : rd r.buf 0 4 ≠ 0xFFFFFFFF) (hi : s.rtc.invalid = true) :
    execTrfArm r s = .next (complete (reqWaiter r 0 0x29) statusDenied 0 [] s) := by
  unfold execTrfArm
  rw [ring0_ownRing0 hown]
  dsimp -proj only
  simp only [beq_eq_false_iff_ne.2 hu, hi, firstBad, Bool.false_eq_true, if_false, if_true]
  rfl

/-- TRF_ARM of a valid image that holds every calendar in use is decided by its instant (R230). -/
theorem execTrfArm_valid (hg : gasped s = false) (hu : rd r.buf 0 4 ≠ 0xFFFFFFFF) (hi : s.rtc.invalid = false)
    (hid : rd r.buf 4 4 = imgId s (!s.trf.active)) (hcrc : rd r.buf 8 4 = imgCrc s (!s.trf.active))
    (hv : imageValid s (!s.trf.active) = true) (hc : controlValid s (!s.trf.active) = true)
    (hcal : (definedPts s).all (fun p => calOn s (!s.trf.active) (ptCal s p)) = true) :
    execTrfArm r s = .next (
      if rd r.buf 0 4 ≠ 0 ∧ fullSec s (BitVec.ofNat 32 (rd r.buf 0 4)) ≤ s.rtc.s then
        complete (reqWaiter r 0 0x29) statusBadDate 0 [] s
      else complete (reqWaiter r 0 0x29) statusOk 0 []
        (armedAt (some (if rd r.buf 0 4 = 0 then BitVec.ofNat 32 (s.rtc.s + 1) else BitVec.ofNat 32 (rd r.buf 0 4))) s)) := by
  have hmiss : (definedPts s).any (fun p => !calOn s (!s.trf.active) (ptCal s p)) = false := by
    rw [← List.not_all_eq_any_not, hcal]
    rfl
  have hpast : (rd r.buf 0 4 != 0 && decide (fullSec s (BitVec.ofNat 32 (rd r.buf 0 4)) ≤ s.rtc.s)) =
      decide (rd r.buf 0 4 ≠ 0 ∧ fullSec s (BitVec.ofNat 32 (rd r.buf 0 4)) ≤ s.rtc.s) := by
    by_cases h : rd r.buf 0 4 = 0 <;> simp [h]
  unfold execTrfArm
  rw [ring0_ownRing0 hown]
  dsimp -proj only
  simp only [beq_eq_false_iff_ne.2 hu, hi, hid, hcrc, hv, hc, hmiss, hpast, hg, firstBad, bne_self_eq_false, Bool.not_true,
    Bool.or_self, Bool.false_eq_true, if_false]
  by_cases hb : rd r.buf 0 4 ≠ 0 ∧ fullSec s (BitVec.ofNat 32 (rd r.buf 0 4)) ≤ s.rtc.s
  · rw [if_pos hb, decide_eq_true hb]
    rfl
  · rw [if_neg hb, decide_eq_false hb]
    rfl

end Arm

/-! The snapshot that a TRF_SNAP takes -/

theorem ofLe_lt (l : List Byte) : ofLe l < 2 ^ (8 * l.length) := by
  induction l with
  | nil => simp [ofLe]
  | cons b l ih =>
    have hb := b.isLt
    rw [ofLe, List.length_cons, Nat.mul_succ, Nat.pow_add]
    omega

/-- A field of `n` bytes holds less than 256 to the `n`. -/
theorem rd_lt (b : List Byte) (o n : Nat) : rd b o n < 2 ^ (8 * n) :=
  (ofLe_lt _).trans_le (Nat.pow_le_pow_right (by decide) (Nat.mul_le_mul_left 8 (List.length_take_le _ _)))

theorem length_lmod {α : Type} (l : List α) (i : Nat) (f : α → α) : (lmod l i f).length = l.length := by
  induction l generalizing i with
  | nil => rfl
  | cons x l ih => cases i <;> simp [lmod, ih]

/-- A boundary's write extends the commit queue, or leaves it. -/
theorem groups_bndWrite_prefix (u step p key : Nat) (v : NvVal) (pages : Nat) (s : State) :
    s.nvs.groups <+: (bndWrite u step p key v pages s).nvs.groups := by
  unfold bndWrite
  split
  · exact List.prefix_rfl
  · exact List.prefix_append _ _

theorem writeForbidden_interval {s : State} {p : Nat} (hp : p < 2 ^ 24) (h1 : protForbids s.nvs.prot 1 = false) :
    writeForbidden s (nvKey .interval p) = false := by
  have hq : keyQuarter (nvKey .interval p) = 0 := by
    have hc : nvKey .interval p / 2 ^ 24 = 6 := by
      rw [nvKey, NvKind.code]
      omega
    simp only [keyQuarter, hc]
    rfl
  have h0 : ∀ b : BitVec 2, protForbids b 1 = false → protForbids b 0 = false := by decide
  rw [writeForbidden, hq, h0 _ h1, Bool.and_false]

/-- Where PROT leaves the first half of the store open, the interval's write joins the queue. -/
theorem groups_writeInt {u step p : Nat} {s : State} (hp : p < 2 ^ 24) (h1 : protForbids s.nvs.prot 1 = false) :
    s.nvs.groups.length < (writeInt u step p s).nvs.groups.length := by
  unfold writeInt bndWrite
  rw [if_neg (by simp [writeForbidden_interval hp h1])]
  simp [pushGroups]

/-- A snapshot extends the commit queue, and counts (R239). -/
theorem takeSnap_spec (u idx extra step : Nat) {p : Nat} {s : State} (hp : p < 2 ^ 24) (h1 : protForbids s.nvs.prot 1 = false) :
    s.nvs.groups <+: (takeSnap u idx extra step p s).nvs.groups ∧
    s.nvs.groups.length < (takeSnap u idx extra step p s).nvs.groups.length ∧
    (takeSnap u idx extra step p s).trf.armed = s.trf.armed ∧
    (takeSnap u idx extra step p s).trf.snapSeq = s.trf.snapSeq + 1 := by
  unfold takeSnap
  extract_lets sl r _ s1 _ s2
  have hk := @hide_deliverRec faultBlocks ⟨rfl⟩ ⟨rfl⟩ ⟨rfl⟩ ⟨rfl⟩ ⟨rfl⟩ ⟨rfl⟩ ⟨rfl⟩ 4 r
  have hb := fun k v n x => @hide_bndWrite { nvs := true } ⟨rfl⟩ u step p k v n x
  have htrf : ∀ x, (deliverRec 4 r (writeInt u step p (writeSet u step p (bndWrite u step p (snapKey p sl) (.bytes r.bytes) 2 x)))).trf =
      x.trf := fun x =>
    (same_trf (hk _) rfl).trans ((same_trf (hb _ _ _ _) rfl).trans ((same_trf (hb _ _ _ _) rfl).trans (same_trf (hb _ _ _ _) rfl)))
  have hprot : (writeSet u step p (bndWrite u step p (snapKey p sl) (.bytes r.bytes) 2 s2)).nvs.prot = s.nvs.prot := by
    have hp : ∀ k v n x, (bndWrite u step p k v n x).nvs.prot = x.nvs.prot := fun k v n x => by
      unfold bndWrite
      split <;> rfl
    exact (hp _ _ _ _).trans (hp _ _ _ _)
  have hpre : s.nvs.groups <+: (writeSet u step p (bndWrite u step p (snapKey p sl) (.bytes r.bytes) 2 s2)).nvs.groups :=
    (groups_bndWrite_prefix u step p _ _ _ s2).trans (groups_bndWrite_prefix u step p _ _ _ _)
  rw [htrf, nvsField_deliverRec Nvs.groups (fun _ _ => rfl)]
  exact ⟨hpre.trans (groups_bndWrite_prefix u step p _ _ _ _),
    hpre.length_le.trans_lt (groups_writeInt hp (by rw [hprot]; exact h1)), rfl, rfl⟩

/-- The state after a TRF_SNAP of one point: the groups of its snapshot are the request's own (R238). -/
def snapTaken (w : Waiter) (p : Nat) (s : State) : State :=
  let s1 := takeSnap s.rtc.s s.trf.last.toNat 4 0 p s
  let new := (s1.nvs.groups.drop s.nvs.groups.length).map (fun g => { g with bnd := none })
  { s1 with nvs.groups := s.nvs.groups ++ lmod new (new.length - 1) (fun g => { g with waiter := some (w, statusOk) }) }

section Snap
variable {r : Req} {s : State} (hown : ownRing0 4 r s) (hall : rd r.buf 0 2 ≠ 0xFFFF) (hz : zerosAt r.buf 2 2 = true)
include hown hall hz

theorem execTrfSnap_undefined (hd : (getPt s (rd r.buf 0 2)).dfn = none) :
    execTrfSnap r s = .next (complete (reqWaiter r 0 0x2B) statusRange 0 [] s) := by
  unfold execTrfSnap
  rw [ring0_ownRing0 hown]
  dsimp -proj only
  simp only [beq_eq_false_iff_ne.2 hall, hz, hd, firstBad, Bool.false_eq_true, if_false, List.any_cons, List.any_nil,
    Option.isNone_none, Bool.or_false, Bool.not_true, Bool.or_true, if_true]
  rfl

/-- TRF_SNAP of one defined point (R238): BUSY while a boundary is written, else as PROT and a freeze allow. -/
theorem execTrfSnap_defined (hd : (getPt s (rd r.buf 0 2)).dfn.isSome = true) :
    execTrfSnap r s = .next (answer (reqWaiter r 0 0x2B)
      (if bwrite s then .fail statusBusy s
      else if protForbids s.nvs.prot 1 then .fail statusDenied (protRefuse s)
      else if gasped s then .wait s
      else .wait (snapTaken (reqWaiter r 0 0x2B) (rd r.buf 0 2) s))) := by
  unfold execTrfSnap
  rw [ring0_ownRing0 hown]
  dsimp -proj only
  simp only [beq_eq_false_iff_ne.2 hall, hz, Option.isNone_eq_false_iff.2 hd, firstBad, Bool.false_eq_true, if_false,
    List.any_cons, List.any_nil, Bool.or_false, Bool.not_true, List.foldl_cons, List.foldl_nil]
  cases bwrite s
  · cases hp : protForbids s.nvs.prot 1
    · cases gasped s
      · obtain ⟨-, hlen, -, -⟩ := takeSnap_spec s.rtc.s s.trf.last.toNat 4 0
          ((rd_lt r.buf 0 2).trans (by decide)) hp
        have hne : (((takeSnap s.rtc.s s.trf.last.toNat 4 0 (rd r.buf 0 2) s).nvs.groups.drop s.nvs.groups.length).map
            (fun g : Group => { g with bnd := none })).isEmpty = false := by
          rw [List.isEmpty_eq_false_iff, ne_eq, List.map_eq_nil_iff, List.drop_eq_nil_iff]
          omega
        simp only [hne, Bool.false_eq_true, if_false]
        rfl
      · rfl
    · rfl
  · rfl

end Snap

/-- The snapshot of TRF_SNAP: it counts, its groups join the queue, the totals and the records stand (R238, R239). -/
theorem snapTaken_spec (w w' : Waiter) {p : Nat} {s : State} (hp : p < 2 ^ 24) (h1 : protForbids s.nvs.prot 1 = false) :
    let t := waitReq w (snapTaken w' p s)
    t.pnt = s.pnt ∧ t.trf.armed = s.trf.armed ∧ t.trf.snapSeq = s.trf.snapSeq + 1 ∧ t.nvs.recs = s.nvs.recs ∧
      s.nvs.groups.length < t.nvs.groups.length := by
  obtain ⟨-, hlen, harm, hseq⟩ := takeSnap_spec s.rtc.s s.trf.last.toNat 4 0 hp h1
  have hk := @hide_takeSnap { faultBlocks with free := true, trf := true } ⟨rfl⟩ ⟨rfl⟩ ⟨rfl⟩ ⟨rfl⟩ ⟨rfl⟩ ⟨rfl⟩ ⟨rfl⟩ ⟨rfl⟩ ⟨rfl⟩
    s.rtc.s s.trf.last.toNat 4 0 p s
  have hw := hide_waitReq_own w (snapTaken w' p s)
  extract_lets t
  have hnvs : t.nvs = (snapTaken w' p s).nvs := same_nvs hw rfl rfl
  have htrf : t.trf = (snapTaken w' p s).trf := same_trf hw rfl
  have hpnt : t.pnt = (snapTaken w' p s).pnt := same_pnt hw rfl
  rw [hnvs, htrf, hpnt]
  refine ⟨(same_pnt hk rfl :), harm, hseq, (same_recs hk rfl :), ?_⟩
  simp only [snapTaken, List.length_append, length_lmod, List.length_map, List.length_drop]
  omega

/-- Settles O39: each request by its lemma. -/
theorem tariffRequests : Obligations.TariffRequests := by
  unfold Obligations.TariffRequests
  intro r s hm hd b img
  refine ⟨fun hl hcrc => ⟨fun hn he => ⟨fun ha hp hg => ?_, fun ha hp hg => ?_, fun ha => ?_⟩, fun h1 h2 h3 hp hg => ?_⟩,
    fun hl hg => ⟨fun hu => ?_, fun hu hi => execTrfArm_invalid ⟨hm, hl, hd⟩ hu hi, fun hu hi hid hcrc hv hc hcal => ?_⟩,
    fun p hl hp hall hz => ?_⟩
  · exact (execTrfLoad_checked hm hd hl hcrc hn he).trans (by rw [ha, hp, hg]; rfl)
  · exact (execTrfLoad_checked hm hd hl hcrc hn he).trans (by rw [ha, hp, hg]; rfl)
  · exact (execTrfLoad_checked hm hd hl hcrc hn he).trans (by rw [ha]; rfl)
  · exact execTrfCtledit_accepted hm hd hl hcrc h1 h2 h3 hp hg
  · refine ends_of (execTrfArm_clears ⟨hm, hl, hd⟩ hg hu) ?_
    rw [trf_complete, trf_armedAt]
    exact ⟨rfl, rfl⟩
  · have hexec := execTrfArm_valid ⟨hm, hl, hd⟩ hg hu hi hid hcrc hv hc hcal
    refine ⟨fun h0 => ?_, fun h0 hlt => ?_, fun h0 hle => hexec.trans (by rw [if_pos ⟨h0, hle⟩])⟩
    · refine ends_of (hexec.trans (by rw [if_neg (fun h => h.1 h0), if_pos h0])) ?_
      rw [trf_complete, trf_armedAt]
      exact ⟨rfl, rfl⟩
    · refine ends_of (hexec.trans (by rw [if_neg (fun h => absurd h.2 (Nat.not_le.2 hlt)), if_neg h0])) ?_
      rw [trf_complete, trf_armedAt]
      exact ⟨rfl, rfl⟩
  · subst hp
    have hown : ownRing0 4 r s := ⟨hm, hl, hd⟩
    refine ⟨execTrfSnap_undefined hown hall hz, fun hdef hb => ?_, fun hdef hb hp => ?_, fun hdef hb hp hg => ?_⟩
    · exact (execTrfSnap_defined hown hall hz hdef).trans (by rw [hb]; rfl)
    · exact (execTrfSnap_defined hown hall hz hdef).trans (by rw [hb, hp]; rfl)
    · exact ⟨_, (execTrfSnap_defined hown hall hz hdef).trans (by rw [hb, hp, hg]; rfl),
        snapTaken_spec _ _ ((rd_lt r.buf 0 2).trans (by decide)) hp⟩

end Sys2Proof.Proofs

namespace Sys2Proof.Proofs
open Sys2Proof Sys2Proof.Machine Sys2Proof.Laws

/-! ### A point's credit -/

/-- A re-evaluation changes the state with its marks, never the credit, EC_ACTIVE or the serial (R259). -/
theorem revalued_keeps (g : CreditCfg) (c : CredSt) :
    (revalued g c).c = c.c ∧ (revalued g c).ec = c.ec ∧ (revalued g c).serial = c.serial := by
  unfold revalued
  extract_lets n
  split <;> exact ⟨rfl, rfl, rfl⟩

theorem crd_ptEvent (ev p detail amount serial : Nat) (s : State) : (ptEvent ev p detail amount serial s).crd = s.crd :=
  same_crd (@hide_ptEvent { nvs := true } ⟨rfl⟩ ev p detail amount serial s) rfl

theorem crd_writeCred (p : Nat) (s : State) : (writeCred p s).crd = s.crd :=
  same_crd (@hide_writeCred { nvs := true } ⟨rfl⟩ p s) rfl

theorem getCred_crd {s t : State} (h : t.crd = s.crd) (p : Nat) : getCred t p = getCred s p := by rw [getCred, h]; rfl

/-- What a point's re-evaluation leaves of the credit block. -/
theorem crd_reval (p : Nat) (s : State) : (reval p s).crd =
    if (revalued (getPcfg s p) (getCred s p)).st == (getCred s p).st then s.crd
    else { s.crd with cred := tput s.crd.cred p (revalued (getPcfg s p) (getCred s p)) } := by
  unfold reval
  extract_lets c n s1 s2
  by_cases hst : (n.st == c.st) = true
  · rw [if_pos hst, if_pos hst]
  · rw [if_neg hst, if_neg hst]
    have h2 : s2.crd = s1.crd := by
      unfold s2
      split
      · exact crd_ptEvent ..
      · split
        · exact crd_ptEvent ..
        · rfl
    rw [crd_writeCred, h2]
    rfl

theorem pcfg_reval (p : Nat) (s : State) : (reval p s).crd.pcfg = s.crd.pcfg := by
  rw [crd_reval]
  split <;> rfl

theorem getCred_reval (p : Nat) (s : State) : (getCred (reval p s) p).c = (getCred s p).c ∧
    (getCred (reval p s) p).ec = (getCred s p).ec ∧ (getCred (reval p s) p).serial = (getCred s p).serial := by
  unfold getCred
  rw [crd_reval]
  split
  · exact ⟨rfl, rfl, rfl⟩
  · dsimp only
    rw [tgetD_tput_self]
    exact revalued_keeps _ _

/-- A grant in force: EC_ACTIVE is set, and the credit stands (R257). -/
theorem getCred_grant (src p : Nat) (s : State) :
    (getCred (grant src p s) p).ec = true ∧ (getCred (grant src p s) p).c = (getCred s p).c := by
  unfold grant
  rw [getCred_crd (crd_ptEvent ..)]
  obtain ⟨hc, hec, -⟩ := getCred_reval p (setCred p { getCred s p with ec := true } s)
  rw [hc, hec, getCred_setCred]
  exact ⟨rfl, rfl⟩

/-- What a token makes of a credit (R255, R256, R258). -/
theorem tokenCred_spec (b : List Byte) (c : CredSt) :
    (tokenCred b c).serial = some (BitVec.ofNat 64 (rd b 8 8)) ∧ ((tokenCred b c).ec = true → (tokenCred b c).c ≤ 0) ∧
    (tokenCred b c).c = (if rd b 24 1 = 1 then satC (c.c + rd b 16 8) else (rd b 16 8 : Int)) := by
  unfold tokenCred
  extract_lets a c1
  refine ⟨rfl, fun h => of_decide_eq_true (Bool.and_eq_true_iff.1 h).2, ?_⟩
  show c1.c = _
  unfold c1
  split <;> rfl

/-- An accepted token's credit is the one it makes, re-evaluated. -/
theorem getCred_tokenApply (p : Nat) (b : List Byte) (s : State) :
    (getCred (tokenApply p b s) p).c = (tokenCred b (getCred s p)).c ∧
    (getCred (tokenApply p b s) p).ec = (tokenCred b (getCred s p)).ec ∧
    (getCred (tokenApply p b s) p).serial = (tokenCred b (getCred s p)).serial := by
  unfold tokenApply
  extract_lets c n _ s1 s2
  have hcrd : ∀ e : Bool, (if e then ptEvent evEcRepaid p 0 0 0 s2 else s2).crd = s1.crd := fun e => by
    have h2 : s2.crd = s1.crd := crd_ptEvent ..
    cases e
    · exact h2
    · exact (crd_ptEvent ..).trans h2
  rw [getCred_crd (hcrd _)]
  have h := getCred_reval p (setCred p n { s with crd.tokAcc := s.crd.tokAcc + 1 })
  rw [getCred_setCred] at h
  exact h

/-- The credit block after a credit configuration's change holds it for its point (R274). -/
theorem pcfg_creditApply (p : Nat) (g : CreditCfg) (s : State) : (creditApply p g s).crd.pcfg = tput s.crd.pcfg p g := by
  unfold creditApply
  extract_lets old _ s1 s2 s3
  have h2 : s2.crd = s1.crd := by
    unfold s2
    split
    · exact same_crd (@hide_claim { pin := true } ⟨rfl⟩ g.ball.toNat fnECREQ 0 s1) rfl
    · rfl
  have h3 : s3.crd = s2.crd := by
    unfold s3
    split
    · exact same_crd (@hide_dropEcreq { pin := true } ⟨rfl⟩ old.ball.toNat s2) rfl
    · rfl
  have hpcfg : s3.crd.pcfg = tput s.crd.pcfg p g := by rw [h3, h2]
  split
  · rw [pcfg_reval, hpcfg]
  · exact hpcfg

/-! ### Credit requests -/

/-- A Ring 11 request of the expected length with good fields for this chip reaches its body. -/
theorem ring11_ownRing11 {op : Byte} {n : Nat} {bad : Bool} {r : Req} {s : State} (h : ownRing11 n r s) (hb : bad = false)
    (body : Waiter → State → Ans) : ring11 op n bad r s body = .next (answer (reqWaiter r 11 op) (body (reqWaiter r 11 op) s)) := by
  obtain ⟨hm, hl, ha, hd⟩ := h
  have hlen : (r.buf.length != n) = false := by rw [hl, bne_self_eq_false]
  have hrange : (bad || decide (rd r.buf 0 4 ≥ 2 ^ 17)) = false := by
    rw [hb, Bool.false_or, decide_eq_false_iff_not]
    omega
  unfold ring11
  rcases hd with hv | hd
  · simp only [hm, hlen, hrange, hv, Bool.not_true, Bool.false_eq_true, if_false]
  · cases r.via <;> simp only [hm, hlen, hrange, hd, Bool.not_true, Bool.false_eq_true, if_false]

/-- What an accepted CREDIT_CFG does: the configuration with its records, in the point's credit record where it keeps one. -/
theorem execCreditCfg_accepted {r : Req} {s : State} (hown : ownRing0 24 r s) (hcrc : crcOk r.buf 20 (r.buf.take 20) = true)
    (hbad : creditBad r.buf = false)
    (hpt : (creditOf r.buf).prepay = true ∨ (creditOf r.buf).discEn = true → ptDefined s (rd r.buf 0 1) = true)
    (hout : (creditOf r.buf).discEn = true → (ctlNewest s (creditOf r.buf).disc.toNat).en = true ∧
      (ctlNewest s (creditOf r.buf).disc.toNat).kind = 0)
    (hdisc : (creditOf r.buf).discEn = true → ∀ x ∈ s.crd.pcfg, x.1 ≠ rd r.buf 0 1 → x.2.discEn = true →
      x.2.disc ≠ (creditOf r.buf).disc)
    (hball : (creditOf r.buf).ecreqEn = true → claimOk s (creditOf r.buf).ball.toNat fnECREQ 0 = true)
    (hw : writeForbidden s (nvKey .creditCfg (rd r.buf 0 1)) = false) (hg : gasped s = false) :
    ∃ t, hide { nvs := true } t = hide { nvs := true } (creditApply (rd r.buf 0 1) (creditOf r.buf) s) ∧
      execCreditCfg r s = .next (waitReq (reqWaiter r 0 0x30) t) := by
  have h1 : (((creditOf r.buf).prepay || (creditOf r.buf).discEn) && !ptDefined s (rd r.buf 0 1)) = false := by
    by_cases h : (creditOf r.buf).prepay = true ∨ (creditOf r.buf).discEn = true
    · rw [hpt h, Bool.not_true, Bool.and_false]
    · simp only [not_or, Bool.not_eq_true] at h
      rw [h.1, h.2]; rfl
  have h2 : ((creditOf r.buf).discEn && !((ctlNewest s (creditOf r.buf).disc.toNat).en &&
      (ctlNewest s (creditOf r.buf).disc.toNat).kind == 0)) = false := by
    cases h : (creditOf r.buf).discEn
    · rfl
    · rw [(hout h).1, (hout h).2]; rfl
  have h3 : ((creditOf r.buf).discEn && s.crd.pcfg.any
      (fun x => x.1 != rd r.buf 0 1 && x.2.discEn && x.2.disc == (creditOf r.buf).disc)) = false := by
    cases h : (creditOf r.buf).discEn
    · rfl
    · simp only [Bool.true_and, List.any_eq_false, Bool.and_eq_true, bne_iff_ne, beq_iff_eq, not_and]
      exact fun x hx hp => hdisc h x hx hp.1 hp.2
  have h4 : ((creditOf r.buf).ecreqEn && !claimOk s (creditOf r.buf).ball.toNat fnECREQ 0) = false := by
    cases h : (creditOf r.buf).ecreqEn
    · rfl
    · rw [hball h]; rfl
  unfold execCreditCfg
  rw [ring0_ownRing0 hown]
  dsimp -proj only
  simp only [hcrc, hbad, h1, h2, h3, h4, hw, hg, firstBad, Bool.not_true, Bool.false_eq_true, if_false]
  split
  · exact ⟨_, (hide_commitRec_own ..).trans (hide_commitRec_own ..), rfl⟩
  · exact ⟨_, hide_commitRec_own .., rfl⟩

/-- A CTL_CFG that passes its checks waits for its record and its boundary (R265, R275). -/
theorem execCtlCfg_accepted {r : Req} {s : State} (hown : ownRing0 32 r s) (hcrc : crcOk r.buf 28 (r.buf.take 28) = true)
    (hbad : ctlBad r.buf = false)
    (hball : (ctlOf r.buf).en = true → claimOk s (ctlOf r.buf).ball.toNat fnCTL (rd r.buf 0 1) = true)
    (hgen : (ctlOf r.buf).en = true → (ctlOf r.buf).kind = 2 →
      (getCtl s (rd r.buf 0 1)).gen.isSome = true ∨ (freeGen s).isSome = true)
    (hnamed : namer s (rd r.buf 0 1) = none ∨ (ctlOf r.buf).en = true ∧ (ctlOf r.buf).kind = (ctlNewest s (rd r.buf 0 1)).kind)
    (hw : writeForbidden s (nvKey .ctlCfg (rd r.buf 0 1)) = false) (hg : gasped s = false) :
    execCtlCfg r s = .next (waitReq (reqWaiter r 0 0x31) (commitRec (nvKey .ctlCfg (rd r.buf 0 1)) (.bytes r.buf) 1
      (some (reqWaiter r 0 0x31, statusOk)) (ctlAccept (rd r.buf 0 1) (ctlOf r.buf) s))) := by
  have h1 : ((ctlOf r.buf).en && !claimOk s (ctlOf r.buf).ball.toNat fnCTL (rd r.buf 0 1)) = false := by
    cases h : (ctlOf r.buf).en
    · rfl
    · rw [hball h]; rfl
  have h2 : ((ctlOf r.buf).en && (ctlOf r.buf).kind == 2 && (getCtl s (rd r.buf 0 1)).gen.isNone && (freeGen s).isNone) =
      false := by
    by_cases h : (ctlOf r.buf).en = true ∧ (ctlOf r.buf).kind = 2
    · rcases hgen h.1 h.2 with hs | hs
      · rw [Option.isNone_eq_false_iff.2 hs, Bool.and_false, Bool.false_and]
      · rw [Option.isNone_eq_false_iff.2 hs, Bool.and_false]
    · have : ((ctlOf r.buf).en && (ctlOf r.buf).kind == 2) = false := by simpa using h
      rw [this]; rfl
  have h3 : ((namer s (rd r.buf 0 1)).isSome &&
      (!(ctlOf r.buf).en || (ctlOf r.buf).kind != (ctlNewest s (rd r.buf 0 1)).kind)) = false := by
    rcases hnamed with h | ⟨he, hk⟩
    · rw [h]; rfl
    · rw [he, hk, bne_self_eq_false, Bool.not_true, Bool.or_false, Bool.and_false]
  unfold execCtlCfg
  rw [ring0_ownRing0 hown]
  dsimp -proj only
  simp only [hcrc, hbad, h1, h2, h3, firstBad, Bool.not_true, Bool.false_eq_true, if_false]
  rw [writeCmd_allowed hw hg]
  rfl

section CreditEc
variable {r : Req} {s : State} (hown : ownRing11 8 r s) (hz : zerosAt r.buf 4 4 = true)
  (hd : (getPt s (rd r.buf 0 1)).dfn.isSome = true)
include hown hz hd

theorem execCreditEc_eligible (he : eligible s (rd r.buf 0 1) = true)
    (hw : writeForbidden s (nvKey .credit (rd r.buf 0 1)) = false) (hg : gasped s = false) :
    execCreditEc r s = .next (waitReq (reqWaiter r 11 0x61) (commitRecEff (nvKey .credit (rd r.buf 0 1))
      (.credit (withRefs s (rd r.buf 0 1) (effCred (getPcfg s (rd r.buf 0 1)) (rd r.buf 0 1) (credNewest s (rd r.buf 0 1))
        (.grant (rd r.buf 0 1))))) 1 (some (reqWaiter r 11 0x61, statusOk)) (some (.grant (rd r.buf 0 1))) s)) := by
  unfold execCreditEc
  rw [ring11_ownRing11 hown (by rw [hz]; rfl)]
  simp only [Option.isNone_eq_false_iff.2 hd, he, hw, credWait, hg, Bool.not_true, Bool.false_eq_true, if_false, answer_wait]

theorem execCreditEc_ineligible (he : eligible s (rd r.buf 0 1) = false) : execCreditEc r s =
    .next (complete (reqWaiter r 11 0x61) statusDenied 0 [] (ptEvent evEcRefused (rd r.buf 0 1) statusDenied.toNat 0 0 s)) := by
  unfold execCreditEc
  rw [ring11_ownRing11 hown (by rw [hz]; rfl)]
  simp only [Option.isNone_eq_false_iff.2 hd, he, Bool.not_false, if_true, Bool.false_eq_true, if_false, answer_fail]

end CreditEc

/-- The credit that a grant's record writes: EC_ACTIVE set, C as accepted before it (R257, R281). -/
theorem effCred_grant (g : CreditCfg) (p : Nat) (c : CredSt) :
    (effCred g p c (.grant p)).ec = true ∧ (effCred g p c (.grant p)).c = c.c := by
  simp only [effCred, if_true]
  obtain ⟨hc, hec, -⟩ := revalued_keeps g { c with ec := true }
  exact ⟨hec, hc⟩

/-- A token for this chip's own prepaid point with good fields: its identity and its key decide (R255, R256). -/
theorem execCreditToken_checked {r : Req} {s : State} (hm : metering s = true) (hl : r.buf.length = 96)
    (hbad : tokenBad r.buf = false) (ha : rd r.buf 4 4 < 2 ^ 17)
    (hd : r.via = .coil ∨ addrCheck s (rd r.buf 4 4 / 2 ^ 15) (rd r.buf 4 4 / 2 ^ 8 % 128) = .own)
    (hp : (getPt s (rd r.buf 4 1)).dfn.isSome = true) (hpp : (getPcfg s (rd r.buf 4 1)).prepay = true) :
    execCreditToken r s = .next (if (r.buf.drop 32).take 8 != identBytes then
        complete (reqWaiter r 11 0x60) statusAuthFail 0 [] (tokenRefuse statusAuthFail r.buf s)
      else if (slotKey s 2).isNone then complete (reqWaiter r 11 0x60) statusNotReady 0 [] s
      else waitReq (reqWaiter r 11 0x60) { s with sgr.ops := s.sgr.ops ++ [.token (reqWaiter r 11 0x60) r.buf] }) := by
  have hrange : (tokenBad r.buf || decide (rd r.buf 4 4 ≥ 2 ^ 17)) = false := by
    rw [hbad, Bool.false_or, decide_eq_false_iff_not]
    omega
  have hlen : (r.buf.length != 96) = false := by rw [hl]; rfl
  have hpt : ((getPt s (rd r.buf 4 1)).dfn.isNone || !(getPcfg s (rd r.buf 4 1)).prepay) = false := by
    rw [Option.isNone_eq_false_iff.2 hp, hpp]; rfl
  unfold execCreditToken
  rcases hd with hv | hd
  · simp only [hm, hlen, hrange, hpt, hv, Bool.not_true, Bool.false_eq_true, if_false]
  · cases r.via <;> simp only [hm, hlen, hrange, hpt, hd, Bool.not_true, Bool.false_eq_true, if_false]

/-- A token with another identity is counted and raised (R256, R277). -/
theorem tokenRefuse_spec (b : List Byte) (s : State) :
    (tokenRefuse statusAuthFail b s).crd.tokRef = satInc s.crd.tokRef ∧ latched 8 0 (tokenRefuse statusAuthFail b s) ∧
    (tokenRefuse statusAuthFail b s).crd.cred = s.crd.cred ∧ (tokenRefuse statusAuthFail b s).sgr = s.sgr := by
  have hraise := hide_raise_mild (b := 8) (i := 0) (by decide) { s with crd.tokRef := satInc s.crd.tokRef }
  have hlatch : latched 8 0 (raise 8 0 { s with crd.tokRef := satInc s.crd.tokRef }) := latched_raise _ rfl
  have heq : tokenRefuse statusAuthFail b s = ptEvent evTokenRefused (rd b 4 1) (fld statusAuthFail 6 0) (rd b 16 8) (rd b 8 8)
      (raise 8 0 { s with crd.tokRef := satInc s.crd.tokRef }) := rfl
  have hev := @hide_ptEvent { nvs := true } ⟨rfl⟩ evTokenRefused (rd b 4 1) (fld statusAuthFail 6 0) (rd b 16 8) (rd b 8 8)
    (raise 8 0 { s with crd.tokRef := satInc s.crd.tokRef })
  have hcrd : (tokenRefuse statusAuthFail b s).crd = { s.crd with tokRef := satInc s.crd.tokRef } := by
    rw [heq, same_crd hev rfl, same_crd hraise rfl]
  refine ⟨by rw [hcrd], ?_, by rw [hcrd], ?_⟩
  · rw [heq, latched, getBlk_flt (same_flt hev rfl)]
    exact hlatch
  · rw [heq, same_sgr hev rfl, same_sgr hraise rfl]

/-- A press for one named point, whose reconnection needs no confirmation (R257, R261). -/
theorem execEcreqPress_single {ball : Nat} {x : Nat × CreditCfg} {s : State} (hm : metering s = true) (hg : gasped s = false)
    (hf : (getBall s ball).func = fnECREQ)
    (hx : s.crd.pcfg.filter (fun p => p.2.ecreqEn && p.2.ball.toNat == ball) = [x]) (hr : x.2.recon ≠ 1) :
    execEcreqPress ball s = .next (if eligible s x.1 then writeCred x.1 (grant 1 x.1 s)
      else ptEvent evEcRefused x.1 (0x80 + statusDenied.toNat) 0 0 s) := by
  have hgate : (!metering s || gasped s || (getBall s ball).func != fnECREQ) = false := by
    rw [hm, hg, hf, bne_self_eq_false]; rfl
  unfold execEcreqPress
  rw [hx, hgate]
  simp only [List.foldl_cons, List.foldl_nil, beq_eq_false_iff_ne.2 hr, Bool.false_and, Bool.false_eq_true, if_false]

theorem execEcreqPress_gasped (ball : Nat) {s : State} (hg : gasped s = true) : execEcreqPress ball s = .next s := by
  simp [execEcreqPress, hg]

theorem groupCommitted_eff {s : State} {w : Group} {rest : List Group} {e : GroupEff} (h : s.nvs.groups = w :: rest)
    (he : w.eff = some e) : groupCommitted s = applyEff e { s with nvs.groups := { w with eff := none } :: rest } := by
  simp only [groupCommitted, h, he]

/-- Settles O41: each request passes its checks to the queued record or the key operation, and what a committed record
brings into force is a grant's or a token's credit, re-evaluated. -/
theorem creditRequests : Obligations.CreditRequests := by
  intro r s
  dsimp -proj only
  refine ⟨?_, ?_, ?_, ?_, ?_, ?_, ?_⟩
  · intro hown hcrc hbad hpt hout hdisc hball hw hg
    obtain ⟨t, ht, hex⟩ := execCreditCfg_accepted hown hcrc hbad hpt hout hdisc hball hw hg
    have hwait := hide_waitReq_own (reqWaiter r 0 0x30) t
    have happly := @hide_creditApply { nvs := true, pin := true, crd := true } ⟨rfl⟩ ⟨rfl⟩ ⟨rfl⟩ (rd r.buf 0 1) (creditOf r.buf) s
    refine ends_of hex ⟨?_, ?_, ?_⟩
    · rw [same_crd hwait rfl, same_crd ht rfl]
      exact pcfg_creditApply ..
    · rw [same_recs hwait rfl, same_recs ht rfl, same_recs happly rfl]
    · rw [same_pnt hwait rfl, same_pnt ht rfl, same_pnt happly rfl]
  · intro hown hcrc hbad hball hgen hnamed hw hg
    exact execCtlCfg_accepted hown hcrc hbad hball hgen hnamed hw hg
  · intro hown hz hd
    refine ⟨fun he hw hg => ?_, fun he => execCreditEc_ineligible hown hz hd he⟩
    obtain ⟨hec, hc⟩ := effCred_grant (getPcfg s (rd r.buf 0 1)) (rd r.buf 0 1) (credNewest s (rd r.buf 0 1))
    exact ⟨hec, hc, execCreditEc_eligible hown hz hd he hw hg⟩
  · intro hm hl hbad ha hd hp hpp
    have hex := execCreditToken_checked hm hl hbad ha hd hp hpp
    constructor
    · intro hid hkey
      rw [hid, bne_self_eq_false, Option.isNone_eq_false_iff.2 hkey] at hex
      exact hex
    · intro hid
      rw [bne_iff_ne.2 hid, if_pos rfl] at hex
      obtain ⟨htok, hlat, hcred, hsgr⟩ := tokenRefuse_spec r.buf s
      have hdone := hide_complete_own (reqWaiter r 11 0x60) statusAuthFail 0 [] (tokenRefuse statusAuthFail r.buf s)
      refine ends_of hex ⟨?_, ?_, ?_, ?_⟩
      · rw [same_crd hdone rfl, htok]
      · rw [latched, getBlk_flt (same_flt hdone rfl)]
        exact hlat
      · rw [same_crd hdone rfl, hcred]
      · rw [same_sgr hdone rfl, hsgr]
  · intro ball x hm hg hf hx hr
    have hex := execEcreqPress_single hm hg hf hx hr
    refine ⟨fun he => ⟨?_, ?_⟩, fun he => ?_⟩
    · rw [he] at hex; exact hex
    · rw [getCred_crd (crd_writeCred ..)]
      exact (getCred_grant 1 x.1 s).1
    · rw [he] at hex; exact hex
  · exact fun ball hg => execEcreqPress_gasped ball hg
  · intro q w rest hgr
    constructor
    · intro he
      rw [groupCommitted_eff hgr he]
      exact getCred_grant 0 q _
    · intro k he
      rw [groupCommitted_eff hgr he]
      obtain ⟨hc, hec, hser⟩ := getCred_tokenApply q k { s with nvs.groups := { w with eff := none } :: rest }
      obtain ⟨hser', hec', hc'⟩ := tokenCred_spec k (getCred s q)
      exact ⟨hser.trans hser', fun h => hc.trans_le (hec' (hec.symm.trans h)), hc.trans hc'⟩

end Sys2Proof.Proofs

namespace Sys2Proof.Proofs
open Sys2Proof Sys2Proof.Machine Sys2Proof.Laws

/-! ### Control outputs -/

theorem getCtl_crd {s t : State} (h : t.crd = s.crd) (n : Nat) : getCtl t n = getCtl s n := by rw [getCtl, h]; rfl

theorem crd_driveBall (b : Nat) (lvl : Bool) (s : State) : (driveBall b lvl s).crd = s.crd :=
  same_crd (@hide_driveBall { pin := true } ⟨rfl⟩ b lvl s) rfl

theorem crd_freeBall (b : Nat) (f : BitVec 4) (owner : Nat) (s : State) : (freeBall b f owner s).crd = s.crd :=
  same_crd (@hide_freeBall { pin := true } ⟨rfl⟩ b f owner s) rfl

/-- Output `n` has `c` in force and none waiting, and every point's credit is that of `s`. -/
def CtlInForce (n : Nat) (c : CtlCfg) (s t : State) : Prop :=
  (getCtl t n).cfg = c ∧ (getCtl t n).next = none ∧ t.crd.cred = s.crd.cred

theorem ctlInForce_crd {n : Nat} {c : CtlCfg} {s t u : State} (hu : u.crd = t.crd) (h : CtlInForce n c s t) :
    CtlInForce n c s u := by
  rw [CtlInForce, getCtl_crd hu, hu]
  exact h

theorem ctlInForce_setCtl {n : Nat} {c : CtlCfg} {s t : State} (hc : t.crd.cred = s.crd.cred) (x : Ctl) (hx : x.cfg = c)
    (hn : x.next = none) : CtlInForce n c s (setCtl n x t) := by
  rw [CtlInForce, getCtl_setCtl]
  exact ⟨hx, hn, hc⟩

theorem ctlInForce_pwmStart {n : Nat} {c : CtlCfg} {s t : State} (h : CtlInForce n c s t) : CtlInForce n c s (pwmStart n t) := by
  obtain ⟨hcfg, hnext, hcred⟩ := h
  exact ctlInForce_crd (crd_driveBall ..) (ctlInForce_setCtl hcred _ hcfg hnext)

theorem ctlInForce_driveNow {n : Nat} {c : CtlCfg} {s t : State} (h : CtlInForce n c s t) : CtlInForce n c s (driveNow n t) := by
  unfold driveNow
  split
  · exact ctlInForce_pwmStart h
  · obtain ⟨hcfg, hnext, hcred⟩ := h
    exact ctlInForce_crd (crd_driveBall ..) (ctlInForce_setCtl hcred _ hcfg hnext)

/-- A written configuration takes effect where no change of its output is pending (R275). -/
theorem execCtlCfgEffect_written {n : Nat} {c : CtlCfg} {s : State} (hu : unwritten s (nvKey .ctlCfg n) = false)
    (hnext : (getCtl s n).next = some c) (hpend : (getCtl s n).pend = none) :
    ends (execCtlCfgEffect n s) (fun t => CtlInForce n c s t ∧ t.pnt = s.pnt) := by
  have hpnt := @hide_freeBall { pin := true, crd := true } ⟨rfl⟩ (getCtl s n).cfg.ball.toNat fnCTL n s
  unfold execCtlCfgEffect
  simp only [hu, hnext, hpend, Bool.false_eq_true, if_false]
  refine ends_of rfl ?_
  generalize hs1 : (if ((getCtl s n).cfg.en && (!c.en || c.ball != (getCtl s n).cfg.ball)) = true then
    freeBall (getCtl s n).cfg.ball.toNat fnCTL n s else s) = s1
  have h1 : hide { pin := true, crd := true } s1 = hide { pin := true, crd := true } s ∧ s1.crd = s.crd := by
    rw [← hs1]
    split
    · exact ⟨hpnt, crd_freeBall ..⟩
    · exact ⟨rfl, rfl⟩
  obtain ⟨hk1, hcrd1⟩ := h1
  have hcred1 : s1.crd.cred = s.crd.cred := congrArg Crd.cred hcrd1
  split
  · generalize hs3 : setCtl n _ (setCtl n _ s1) = s3
    have h3 : CtlInForce n c s s3 := by
      rw [← hs3]
      refine ctlInForce_setCtl ?_ _ ?_ ?_
      · exact hcred1
      · rfl
      · rfl
    have hk3 : hide { pin := true, crd := true } s3 = hide { pin := true, crd := true } s := by
      rw [← hs3]
      exact hk1
    split
    · exact ⟨ctlInForce_driveNow h3,
        same_pnt ((@hide_driveNow { pin := true, crd := true } ⟨rfl⟩ ⟨rfl⟩ n s3).trans hk3) rfl⟩
    · split
      · exact ⟨ctlInForce_pwmStart h3,
          same_pnt ((@hide_pwmStart { pin := true, crd := true } ⟨rfl⟩ ⟨rfl⟩ n s3).trans hk3) rfl⟩
      · exact ⟨h3, same_pnt hk3 rfl⟩
  · have hfree := @hide_freeBall { pin := true, crd := true } ⟨rfl⟩ c.ball.toNat fnCTL n s1
    refine ⟨ctlInForce_setCtl ?_ _ rfl rfl, (same_pnt (hfree.trans hk1) rfl :)⟩
    rw [crd_freeBall, hcrd1]

theorem execCtlCfgEffect_waits {n : Nat} {s : State} (h : unwritten s (nvKey .ctlCfg n) = true ∨ (getCtl s n).next = none ∨
    (getCtl s n).pend.isSome = true) : execCtlCfgEffect n s = .next s := by
  unfold execCtlCfgEffect
  rcases h with h | h | h
  · simp only [h, if_true]
  · simp only [h, ite_self]
  · obtain ⟨b, hb⟩ := Option.isSome_iff_exists.1 h
    simp only [hb]
    split
    · rfl
    · cases (getCtl s n).next <;> rfl

section Switch
variable {r : Req} {s : State} (hown : ownRing11 16 r s) (hb : switchBad r.buf = false)
  (hk : switchKindBad s r.buf = false) (hg : gasped s = false)
include hown hb hk hg

/-- The override of a CTL_SWITCH released (R267). -/
theorem execCtlSwitch_release (hkind : (getCtl s (rd r.buf 4 1)).cfg.kind ≠ 0) (ha : rd r.buf 5 1 = 0) :
    execCtlSwitch r s = .next (complete (reqWaiter r 11 0x62) statusOk 0 []
      (setCtl (rd r.buf 4 1) { getCtl s (rd r.buf 4 1) with ovr := none } s)) := by
  unfold execCtlSwitch
  rw [ring11_ownRing11 hown hb]
  simp only [hk, hg, beq_eq_false_iff_ne.2 hkind, ha, beq_self_eq_true, if_true, Bool.false_eq_true, if_false, answer_done]

/-- The override of a CTL_SWITCH set, with its event (R267). -/
theorem execCtlSwitch_override (hkind : (getCtl s (rd r.buf 4 1)).cfg.kind ≠ 0) (ha : rd r.buf 5 1 ≠ 0) {v : Nat}
    (hv : (if rd r.buf 5 1 == 1 then 0 else if (getCtl s (rd r.buf 4 1)).cfg.kind == 2 then rd r.buf 12 2 else 1) = v) :
    ends (execCtlSwitch r s) (fun t => (getCtl t (rd r.buf 4 1)).ovr =
      some (v, if rd r.buf 8 4 = 0 then none else some (s.slot + rd r.buf 8 4 * 24576000)) ∧ t.crd.cred = s.crd.cred) := by
  unfold execCtlSwitch
  rw [ring11_ownRing11 hown hb]
  simp only [hk, hg, beq_eq_false_iff_ne.2 hkind, beq_eq_false_iff_ne.2 ha, Bool.false_eq_true, if_false, answer_done, hv]
  refine ends_of rfl ?_
  generalize ht : setCtl (rd r.buf 4 1) _ s = t
  have hcrd := (same_crd (hide_complete_own (reqWaiter r 11 0x62) statusOk 0 []
    (crdRec (nowStamp s) evOverride none (rd r.buf 4 1) 0 0 0 t)) rfl).trans
    (same_crd (@hide_crdRec { nvs := true } ⟨rfl⟩ (nowStamp s) evOverride none (rd r.buf 4 1) 0 0 0 t) rfl)
  rw [getCtl_crd hcrd, hcrd, ← ht, getCtl_setCtl]
  exact ⟨rfl, rfl⟩

/-- REMOTE_OFF of a disconnect output's point set or cleared, with the point's event and record (R262). -/
theorem execCtlSwitch_remote {p : Nat} (hkind : (getCtl s (rd r.buf 4 1)).cfg.kind = 0) (hp : namer s (rd r.buf 4 1) = some p)
    (ha : rd r.buf 5 1 = 0 ∨ rd r.buf 5 1 = 1) : ∃ ev, execCtlSwitch r s = .next (complete (reqWaiter r 11 0x62) statusOk 0 []
      (writeCred p (ptEvent ev p 0 0 0 (setCred p { getCred s p with
        remoteOff := rd r.buf 5 1 == 1, force := rd r.buf 5 1 == 1 && rd r.buf 6 1 == 1 } s)))) := by
  unfold execCtlSwitch
  rw [ring11_ownRing11 hown hb]
  rcases ha with ha | ha
  · refine ⟨evRemoteClear, ?_⟩
    simp only [hk, hg, hkind, hp, ha, beq_self_eq_true, if_true, Bool.false_eq_true, if_false, answer_done, Option.getD_some]
    rfl
  · refine ⟨evRemoteOff, ?_⟩
    simp only [hk, hg, hkind, hp, ha, beq_self_eq_true, if_true, Bool.false_eq_true, if_false, answer_done, Option.getD_some]
    rfl

/-- The reconnection of a disconnect output's point confirmed (R261). -/
theorem execCtlSwitch_confirm {p : Nat} (hkind : (getCtl s (rd r.buf 4 1)).cfg.kind = 0) (hp : namer s (rd r.buf 4 1) = some p)
    (ha : rd r.buf 5 1 = 3) : execCtlSwitch r s = .next (if (getCred s p).st = 5 then
      complete (reqWaiter r 11 0x62) statusOk 0 [] (setCred p { getCred s p with confirm := true } s)
    else complete (reqWaiter r 11 0x62) statusDenied 0 [] s) := by
  unfold execCtlSwitch
  rw [ring11_ownRing11 hown hb]
  simp only [hk, hg, hkind, hp, ha, beq_self_eq_true, if_true, Bool.false_eq_true, if_false, Option.getD_some, beq_iff_eq]
  split <;> rfl

end Switch

/-- What a completed remote switch leaves of its point's credit and of the outputs. -/
theorem remoteSwitched_spec (w : Waiter) (ev p : Nat) (x : CredSt) (s : State) :
    let t := complete w statusOk 0 [] (writeCred p (ptEvent ev p 0 0 0 (setCred p x s)))
    getCred t p = x ∧ t.crd.ctl = s.crd.ctl := by
  intro t
  have hcrd : t.crd = (setCred p x s).crd :=
    (same_crd (hide_complete_own ..) rfl).trans ((crd_writeCred ..).trans (crd_ptEvent ..))
  rw [getCred_crd hcrd, hcrd, getCred_setCred]
  exact ⟨rfl, rfl⟩

/-- Settles O42: a switch by its output's kind and action, an expiry by its time, a configuration's effect by its record and
the pending change, and a period by the output's drive and the freeze. -/
theorem controlOutputs : Obligations.ControlOutputs := by
  intro n s
  dsimp -proj only
  refine ⟨?_, ?_, ?_, ?_, ?_, ?_, ?_, ?_⟩
  · rintro r hown hb rfl hk hg
    refine ⟨fun hkind ha => execCtlSwitch_release hown hb hk hg hkind ha, ?_, ?_, ?_, ?_, ?_⟩
    · intro hkind ha
      exact execCtlSwitch_override hown hb hk hg hkind (by rw [ha]; decide) (by rw [ha]; rfl)
    · intro hkind ha
      exact execCtlSwitch_override hown hb hk hg (by rw [hkind]; decide) (by rw [ha]; decide) (by rw [ha, hkind]; rfl)
    · intro hkind ha
      exact execCtlSwitch_override hown hb hk hg (by rw [hkind]; decide) (by rw [ha]; decide) (by rw [ha, hkind]; rfl)
    · intro p hkind hp ha
      obtain ⟨ev, hex⟩ := execCtlSwitch_remote hown hb hk hg hkind hp ha
      obtain ⟨hcred, hctl⟩ := remoteSwitched_spec (reqWaiter r 11 0x62) ev p { getCred s p with
        remoteOff := rd r.buf 5 1 == 1, force := rd r.buf 5 1 == 1 && rd r.buf 6 1 == 1 } s
      refine ends_of hex ?_
      rw [hcred]
      exact ⟨rfl, rfl, rfl, hctl⟩
    · intro p hkind hp ha
      exact execCtlSwitch_confirm hown hb hk hg hkind hp ha
  · intro v u ho hu
    simp only [exec, execOverrideExpiry, ho, ge_iff_le, hu, if_true]
  · intro v u ho hu
    simp only [exec, execOverrideExpiry, ho, ge_iff_le, Nat.not_le.2 hu, if_false]
  · rintro (ho | ⟨v, ho⟩) <;> simp only [exec, execOverrideExpiry, ho]
  · intro c hu hnext hpend
    obtain ⟨t, hex, ⟨hcfg, hn, hcred⟩, hpnt⟩ := execCtlCfgEffect_written hu hnext hpend
    exact ends_of hex ⟨hcfg, hn, hcred, hpnt⟩
  · exact execCtlCfgEffect_waits
  · intro hen hkind hdrive
    simp only [exec, execPwmPeriod, hen, hkind, hdrive, beq_self_eq_true, Bool.and_self, if_true]
  · intro h
    have hoff : ((getCtl s n).cfg.en && (getCtl s n).cfg.kind == 2 && (getBall s (getCtl s n).cfg.ball.toNat).drive) =
        false := by
      rcases h with h | h | h
      · rw [h]; rfl
      · rw [beq_eq_false_iff_ne.2 h, Bool.and_false, Bool.false_and]
      · rw [h, Bool.and_false]
    simp only [exec, execPwmPeriod, hoff, Bool.false_eq_true, if_false]

end Sys2Proof.Proofs

namespace Sys2Proof.Proofs
open Sys2Proof Sys2Proof.Machine Sys2Proof.Laws

/-! ### The Kiln array's own service -/

/-- The store's block without what a fail-stop stops: the waiting log records, the commit queue and the last gasp. -/
def arrayOf (n : Nvs) : Nvs := { n with logQueue := [], lg := none, inhibit := false, groups := [], gstep := 0, gleft := 0 }

theorem arrayOf_startLastGasp (c : Byte) (s : State) : arrayOf (startLastGasp c s).nvs = arrayOf s.nvs := by
  unfold startLastGasp
  split <;> rfl

theorem raiseView_array : RaiseView (fun s => arrayOf s.nvs) where
  blk _ _ _ _ := rfl
  seq _ _ := rfl
  enq r q t := by
    have h := same_nvs (@hide_enqRaw { hif := true, coil := true } ⟨rfl⟩ ⟨rfl⟩ r q t) rfl rfl
    simp only [h]
  vec v t := by
    have h := same_nvs (@hide_sendVector { out := true, hif := true } ⟨rfl⟩ ⟨rfl⟩ v t) rfl rfl
    simp only [h]
  event _ _ _ _ := rfl
  ring _ _ _ := rfl

theorem arrayOf_failStop (g k : Bool) (cls : Cls) (b i : Nat) (s : State) :
    arrayOf (failStop g k cls b i s).nvs = arrayOf s.nvs := by
  have hrec : ∀ v k u, arrayOf (sendVector v (fltRec0 b i k u)).nvs = arrayOf u.nvs := fun v k u =>
    (raiseView_array.vec _ _).trans (raiseView_array.rec0 _ _ _ _)
  unfold failStop
  cases s.flt.phase <;> dsimp -proj only
  case none =>
    split
    · split
      · rfl
      · split
        · rfl
        · exact arrayOf_startLastGasp _ _
    · rfl
  all_goals
    split
    · split
      · exact hrec _ _ _
      · rfl
    · rfl

/-- Any raise, a GRAVE one too, leaves the array as it was. -/
theorem arrayOf_raise (b i : Nat) (s : State) : arrayOf (raise b i s).nvs = arrayOf s.nvs :=
  raiseView_array.raise b i (fun _ => ⟨fun _ _ => rfl, fun t => arrayOf_failStop false false .grave b i t⟩) s

/-- A field of the array stands over any raise. -/
theorem arrayField_raise {α : Type} (f : Nvs → α) (hf : ∀ n, f (arrayOf n) = f n) (b i : Nat) (s : State) :
    f (raise b i s).nvs = f s.nvs := by
  rw [← hf (raise b i s).nvs, arrayOf_raise, hf]

theorem arrayField_deliver {α : Type} (f : Nvs → α) (hf : ∀ n, f (arrayOf n) = f n) (r : Nat) (q : QRec) (s : State) :
    f (deliver r q s).nvs = f s.nvs := by
  rw [← hf (deliver r q s).nvs, raiseView_array.deliver r q s, hf]

/-- What the log and the records hold. -/
def logOf (n : Nvs) : W32 × Tab Rec × List Nat × Tab NvSlot := (n.logHead, n.log, n.logBad, n.recs)

theorem logOf_raise (b i : Nat) (s : State) : logOf (raise b i s).nvs = logOf s.nvs :=
  arrayField_raise logOf (fun _ => rfl) b i s

theorem logOf_blockEvent (b c : Nat) (d : List Byte) (s : State) : logOf (blockEvent b c d s).nvs = logOf s.nvs := rfl

/-- The check for a gap keeps what the log holds. -/
theorem logOf_gapCheck (s : State) : logOf (gapCheck s).nvs = logOf s.nvs := by
  unfold gapCheck
  extract_lets held first n s1 _ s2
  split
  · have hraise : logOf s2.nvs = logOf s1.nvs := logOf_raise 9 7 _
    rw [logOf_blockEvent, hraise]
    rfl
  · rfl

/-- The log with its oldest waiting record in its slot, or under PROT 3 in the SRAM queue (R302, R303). -/
def logStored (x : Rec) (rest : List Rec) (s : State) : State :=
  let y : Rec := { x with seq := s.nvs.logHead + 1 }
  let s1 := { s with nvs.logQueue := rest, nvs.logHead := s.nvs.logHead + 1 }
  if s.nvs.prot == 3 then
    if (s.nvs.logSram ++ [y]).length > 256 then
      { s1 with nvs.logSram := (s.nvs.logSram ++ [y]).drop 1, nvs.gap := satInc s.nvs.gap }
    else { s1 with nvs.logSram := s.nvs.logSram ++ [y] }
  else { s1 with nvs.log := tput s.nvs.log ((s.nvs.logHead + 1).toNat % 16384) y,
                 nvs.logBad := s.nvs.logBad.filter (· != (s.nvs.logHead + 1).toNat % 16384) }

theorem appendLog_eq {x : Rec} {rest : List Rec} {s : State} (hq : s.nvs.logQueue = x :: rest) :
    appendLog s = gapCheck (mirrorRec { x with seq := s.nvs.logHead + 1 } (drainStored x (logStored x rest s))) := by
  simp only [appendLog, hq]
  rfl

theorem logStored_spec (x : Rec) (rest : List Rec) (s : State) : (logStored x rest s).nvs.logHead = s.nvs.logHead + 1 ∧
    (logStored x rest s).nvs.recs = s.nvs.recs ∧ (logStored x rest s).pnt = s.pnt := by
  unfold logStored
  dsimp only
  split
  · split <;> exact ⟨rfl, rfl, rfl⟩
  · exact ⟨rfl, rfl, rfl⟩

/-- An append's mirroring and its check for a gap leave the log as stored. -/
theorem logOf_appendLog {x : Rec} {rest : List Rec} {s : State} (hq : s.nvs.logQueue = x :: rest) :
    logOf (appendLog s).nvs = logOf (logStored x rest s).nvs := by
  have hdrain : (drainStored x (logStored x rest s)).nvs = (logStored x rest s).nvs :=
    same_nvs (@hide_drainStored { rtc := true, tmp := true } ⟨rfl⟩ ⟨rfl⟩ x (logStored x rest s)) rfl rfl
  rw [appendLog_eq hq, logOf_gapCheck, mirrorRec, arrayField_deliver logOf (fun _ => rfl), hdrain]

/-- A record that stands in its slot, without an error of the slot, is the one retained under its sequence. -/
theorem logAt_stored {x : Rec} {q : W32} {s : State} (hlog : tget s.nvs.log (q.toNat % 16384) = some x) (hx : x.seq = q)
    (hbad : q.toNat % 16384 ∉ s.nvs.logBad) : logAt s q = some x := by
  simp [logAt, hlog, hx, hbad]

/-- The blocks that an append of a log record changes. -/
def appendBlocks : Mask where
  out := true
  bootSt := true
  cpx := true
  flt := true
  hif := true
  coil := true
  nvs := true
  rtc := true
  tmp := true

/-- The append of the oldest waiting record (R303). -/
theorem appendLog_spec {x : Rec} {rest : List Rec} {s : State} (hq : s.nvs.logQueue = x :: rest) :
    (appendLog s).nvs.logHead = s.nvs.logHead + 1 ∧ (appendLog s).nvs.recs = s.nvs.recs ∧ (appendLog s).pnt = s.pnt ∧
    (s.nvs.prot ≠ 3 → logAt (appendLog s) (s.nvs.logHead + 1) = some { x with seq := s.nvs.logHead + 1 }) := by
  have hk := @hide_appendLog appendBlocks ⟨rfl⟩ ⟨rfl⟩ ⟨rfl⟩ ⟨rfl⟩ ⟨rfl⟩ ⟨rfl⟩ ⟨rfl⟩ ⟨rfl⟩ ⟨rfl⟩ s
  have hlogof := logOf_appendLog hq
  simp only [logOf, Prod.mk.injEq] at hlogof
  obtain ⟨hhead, hlog, hbad, hrecs⟩ := hlogof
  obtain ⟨hhead', hrecs', -⟩ := logStored_spec x rest s
  refine ⟨hhead.trans hhead', hrecs.trans hrecs', same_pnt hk rfl, fun hprot => ?_⟩
  have hstored : logStored x rest s = { s with
      nvs.logQueue := rest, nvs.logHead := s.nvs.logHead + 1,
      nvs.log := tput s.nvs.log ((s.nvs.logHead + 1).toNat % 16384) { x with seq := s.nvs.logHead + 1 },
      nvs.logBad := s.nvs.logBad.filter (· != (s.nvs.logHead + 1).toNat % 16384) } :=
    if_neg (by rw [beq_eq_false_iff_ne.2 hprot]; decide)
  refine logAt_stored ?_ rfl ?_
  · rw [hlog, hstored]
    exact tget_tput_self ..
  · rw [hbad, hstored]
    simp

/-! ### Errors of the array and of the SRAMs -/

theorem kilnDouble_spec (s : State) : (kilnDouble s).nvs.uncorr = satInc s.nvs.uncorr ∧ latched 9 1 (kilnDouble s) ∧
    (kilnDouble s).nvs.recs = s.nvs.recs ∧ (kilnDouble s).nvs.scrubPage = s.nvs.scrubPage :=
  ⟨arrayField_raise Nvs.uncorr (fun _ => rfl) 9 1 _, latched_raise _ rfl, arrayField_raise Nvs.recs (fun _ => rfl) 9 1 _,
    arrayField_raise Nvs.scrubPage (fun _ => rfl) 9 1 _⟩

/-- A double-bit error of a word that is no copy of a doubled record is counted and raised, and spoils no copy (R310). -/
theorem kilnPlaceDouble_spec {place : EccPlace} (hp : ∀ key c, place ≠ .kilnCopy key c) (s : State) :
    (kilnPlaceDouble place s).nvs.uncorr = satInc s.nvs.uncorr ∧ latched 9 1 (kilnPlaceDouble place s) ∧
    (kilnPlaceDouble place s).nvs.recs = s.nvs.recs ∧ (kilnPlaceDouble place s).nvs.scrubPage = s.nvs.scrubPage := by
  cases place with
  | kilnCopy key c => exact absurd rfl (hp key c)
  | lastGasp b => cases b <;> exact kilnDouble_spec _
  | _ => exact kilnDouble_spec _

/-- The array's records after a double-bit error in a copy: the copy is invalid (R290). -/
def spoiltRecs (s : State) (key copy : Nat) : Tab NvSlot :=
  match heldCopy s key copy with
  | some c => tput s.nvs.recs (2 * key + copy) { c with bad := true }
  | none => s.nvs.recs

theorem validCopy_spoilt {s t : State} {key copy : Nat} (h : t.nvs.recs = spoiltRecs s key copy) :
    validCopy t key copy = none := by
  unfold validCopy copyOf
  rw [h, spoiltRecs]
  cases hc : heldCopy s key copy with
  | some c => simp
  | none =>
    have hnone : copyOf s key copy = none := by
      unfold heldCopy at hc
      split at hc
      · cases hc
      · exact hc
    rw [copyOf] at hnone
    simp only [hnone]

section Copy
variable {key c : Nat} {s : State} (hc : c < 2)
include hc

theorem kilnCopyDouble_rebuilt {o : NvSlot} (ho : soundCopy s key (1 - c) = some o) (hr : s.nvs.ready = true) :
    kilnCopyDouble key c s = raise 9 2 { s with
      nvs.uncorr := satInc s.nvs.uncorr, nvs.recs := tput s.nvs.recs (2 * key + c) o,
      nvs.rebuilt := satInc s.nvs.rebuilt } := by
  simp only [kilnCopyDouble, Nat.mod_eq_of_lt hc, ho, hr, if_true]

theorem kilnCopyDouble_masked {o : NvSlot} (ho : soundCopy s key (1 - c) = some o) (hr : s.nvs.ready = false) :
    kilnCopyDouble key c s = { s with nvs.uncorr := satInc s.nvs.uncorr, nvs.recs := spoiltRecs s key c } := by
  simp only [kilnCopyDouble, Nat.mod_eq_of_lt hc, ho, hr, Bool.false_eq_true, if_false]
  rfl

theorem kilnCopyDouble_raised (ho : soundCopy s key (1 - c) = none) : kilnCopyDouble key c s =
    raise 9 1 { s with nvs.uncorr := satInc s.nvs.uncorr, nvs.recs := spoiltRecs s key c } := by
  simp only [kilnCopyDouble, Nat.mod_eq_of_lt hc, ho]
  rfl

end Copy

/-- The scrubber on the next page, its passes counted (R310). -/
def scrubNext (s : State) : State :=
  { s with nvs.scrubPage := s.nvs.scrubPage + 1,
           nvs.passes := if s.nvs.scrubPage == 0x7FFF then s.nvs.passes + 1 else s.nvs.passes }

theorem execScrubRead_reads (err : EccKind) (place : EccPlace) {s : State} (h1 : s.boot.st ≠ .off) (h2 : s.boot.st ≠ .backup)
    (h3 : s.boot.st ≠ .por) : execScrubRead err place s = .next (match err with
      | .clean => scrubNext s
      | .single => kilnSingle (scrubNext s)
      | .double => kilnPlaceDouble place (scrubNext s)) := by
  simp only [execScrubRead, beq_eq_false_iff_ne.2 h1, beq_eq_false_iff_ne.2 h2, beq_eq_false_iff_ne.2 h3, Bool.or_self,
    Bool.false_eq_true, if_false]
  cases err <;> rfl

theorem kilnSingle_spec (s : State) : (kilnSingle s).nvs.corr = satInc s.nvs.corr ∧ latched 9 0 (kilnSingle s) ∧
    (kilnSingle s).boot = s.boot ∧ (kilnSingle s).nvs.recs = s.nvs.recs ∧ (kilnSingle s).nvs.scrubPage = s.nvs.scrubPage := by
  have hk := hide_raise_mild (b := 9) (i := 0) (by decide) { s with nvs.corr := satInc s.nvs.corr }
  exact ⟨arrayField_raise Nvs.corr (fun _ => rfl) 9 0 _, latched_raise _ rfl, (same_boot hk rfl rfl :), (same_recs hk rfl :),
    arrayField_raise Nvs.scrubPage (fun _ => rfl) 9 0 _⟩

theorem execEccErrorDetect_copy (b key c : Nat) (s : State) :
    exec (.eccErrorDetect b true (.kilnCopy key c)) s = .next (kilnCopyDouble key c s) := rfl

/-- Settles O43: the array outside the log queue, the commit queue and the last gasp stands over any raise, so each error
leaves what its own update wrote. -/
theorem storeErrors : Obligations.StoreErrors := by
  intro s
  refine ⟨?_, ?_, ?_, ?_, ?_, ?_, ?_⟩
  · intro x rest hr hlg hi hq
    refine ends_of (t := appendLog s) ?_ (appendLog_spec hq)
    simp [exec, execLogAppend, hr, hlg, hi]
  · rintro (h | h | h | h)
    · simp [exec, execLogAppend, h]
    · simp [exec, execLogAppend, h]
    · simp [exec, execLogAppend, h]
    · simp [exec, execLogAppend, appendLog, h]
  · intro place h1 h2 h3
    refine ⟨?_, ?_, fun hp => ?_⟩
    · refine ends_of (t := scrubNext s) (execScrubRead_reads .clean place h1 h2 h3) ⟨rfl, ?_, rfl⟩
      simp only [scrubNext, beq_iff_eq]
    · obtain ⟨hcorr, hlat, hboot, hrecs, hpage⟩ := kilnSingle_spec (scrubNext s)
      exact ends_of (execScrubRead_reads .single place h1 h2 h3) ⟨hpage, hcorr, hlat, hboot, hrecs⟩
    · obtain ⟨huncorr, hlat, hrecs, hpage⟩ := kilnPlaceDouble_spec hp (scrubNext s)
      exact ends_of (execScrubRead_reads .double place h1 h2 h3) ⟨hpage, huncorr, hlat, hrecs⟩
  · rintro err place (h | h | h) <;> simp [exec, execScrubRead, h]
  · intro b key c hc
    rw [execEccErrorDetect_copy]
    refine ⟨fun o ho hr => ?_, fun o ho hr => ?_, fun ho => ?_⟩
    · refine ends_of (congrArg _ (kilnCopyDouble_rebuilt hc ho hr)) ⟨?_, ?_, ?_, latched_raise _ rfl⟩
      · rw [copyOf, arrayField_raise Nvs.recs (fun _ => rfl)]
        exact tget_tput_self ..
      · exact arrayField_raise Nvs.rebuilt (fun _ => rfl) 9 2 _
      · exact arrayField_raise Nvs.uncorr (fun _ => rfl) 9 2 _
    · refine ends_of (congrArg _ (kilnCopyDouble_masked hc ho hr)) ⟨validCopy_spoilt (s := s) ?_, ?_, ?_⟩
      · rfl
      · rfl
      · rfl
    · refine ends_of (congrArg _ (kilnCopyDouble_raised hc ho)) ⟨validCopy_spoilt (s := s) ?_, ?_, latched_raise _ rfl⟩
      · exact arrayField_raise Nvs.recs (fun _ => rfl) 9 1 _
      · exact arrayField_raise Nvs.uncorr (fun _ => rfl) 9 1 _
  · intro b h1 h18
    have hcls : (srcClass b 30).isSome = true ∧ (srcClass b 31).isSome = true := by simp [srcClass, h1, h18]
    exact ⟨ends_of rfl (latched_raise s hcls.1), ends_of rfl (latched_raise s hcls.2)⟩
  · exact fun b => ⟨ends_of rfl (latched_raise s rfl), ends_of rfl (latched_raise s rfl)⟩

end Sys2Proof.Proofs

namespace Sys2Proof.Proofs
open Sys2Proof Sys2Proof.Machine Sys2Proof.Laws

/-! ### The host function and its link -/

/-- The blocks that a reset of the host function changes. -/
def functionBlocks : Mask where
  boot := true
  hif := true
  coil := true
  nvs := true
  rtc := true
  cal := true
  sgr := true

theorem hide_hifReset_own (s : State) : hide functionBlocks (hifReset s) = hide functionBlocks s :=
  @hide_hifReset functionBlocks ⟨rfl⟩ ⟨rfl⟩ ⟨rfl⟩ ⟨rfl⟩ ⟨rfl⟩ ⟨rfl⟩ ⟨rfl⟩ s

theorem hide_dropTransfer_own (s : State) : hide { boot := true } (dropTransfer s) = hide { boot := true } s :=
  @hide_dropTransfer { boot := true } ⟨rfl⟩ s

/-- Every ring of the host function is disabled, with no accepted request. -/
def RingsReset (h : Hif) : Prop := ∀ p ∈ h.rings, p.2.en = false ∧ p.2.acc = []

theorem ringsReset_hifReset (s : State) : RingsReset (hifReset s).hif := by
  intro p hp
  obtain ⟨q, -, rfl⟩ := List.mem_map.1 hp
  exact ⟨rfl, rfl⟩

/-- What PERSTn and a function-level reset share: the function at its reset values, a transfer dropped. -/
def functionReset (s : State) : State := dropTransfer (hifReset s)

theorem functionReset_hif (s : State) : (functionReset s).hif = (hifReset s).hif :=
  same_hif (hide_dropTransfer_own (hifReset s)) rfl

theorem hide_functionReset (s : State) : hide functionBlocks (functionReset s) = hide functionBlocks s :=
  (@hide_dropTransfer functionBlocks ⟨rfl⟩ (hifReset s)).trans (hide_hifReset_own s)

/-- The log and the clock stand over a reset of the function. -/
theorem functionReset_kept (s : State) : (functionReset s).nvs.log = s.nvs.log ∧ (functionReset s).rtc.s = s.rtc.s ∧
    (functionReset s).rtc.pre = s.rtc.pre := by
  have hk := hide_dropTransfer_own (hifReset s)
  unfold functionReset
  rw [same_nvs hk rfl rfl, same_rtc hk rfl]
  exact ⟨rfl, rfl, rfl⟩

theorem rtc_porRtc (r : Rtc) : (porRtc r).s = r.s ∧ (porRtc r).pre = r.pre := by
  unfold porRtc
  extract_lets r1
  split <;> exact ⟨rfl, rfl⟩

/-- POR leaves what R398 says of any state that agrees with the one before in what stands. -/
theorem porOf_enterPor {c : BitVec 4} {s t : State} (hf : t.flt.prev = s.flt.prev) (hn : t.nvs.recs = s.nvs.recs)
    (hs : t.rtc.s = s.rtc.s) (hp : t.rtc.pre = s.rtc.pre) (hfu : t.fuses = s.fuses) : porOf c s (enterPor c t) := by
  obtain ⟨hrs, hrp⟩ := rtc_porRtc t.rtc
  exact ⟨rfl, rfl, rfl, rfl, hf, rfl, rfl, rfl, rfl, rfl, rfl, rfl, rfl, rfl, rfl, rfl, hn, hrs.trans hs, hrp.trans hp, hfu⟩

/-! ### Pending messages -/

/-- One vector's pending message, sent where it may be (R336). -/
def sendOne (t : State) (v : Nat) : State :=
  if t.hif.msixEn && bit t.hif.pba v && !bit (tgetD t.hif.msix v ⟨0, 0, 0, 1⟩).ctl 0 then
    emit (.msi v) { t with hif.pba := setBit t.hif.pba v false }
  else t

theorem sendOne_hif (t : State) (v : Nat) : ∃ p, (sendOne t v).hif = { t.hif with pba := p } ∧
    (v < 32 → ∀ u, bit p u = true → bit t.hif.pba u = true ∧
      (u = v → t.hif.msixEn = true → bit (tgetD t.hif.msix v ⟨0, 0, 0, 1⟩).ctl 0 = true)) := by
  unfold sendOne
  split
  · refine ⟨setBit t.hif.pba v false, rfl, fun hv u hu => ?_⟩
    rw [bit_setBit _ _ _ _ hv] at hu
    split at hu
    · cases hu
    · exact ⟨hu, fun h => absurd h.symm ‹_›⟩
  · rename_i hno
    refine ⟨t.hif.pba, rfl, fun _ u hu => ⟨hu, ?_⟩⟩
    rintro rfl hm
    simpa [hm, hu] using hno

/-- After the vectors below `n`, only masked ones of them are pending; nothing else of the function has changed. -/
theorem sendPending_below (s : State) (n : Nat) (hn : n ≤ 32) :
    ∃ p, ((List.range n).foldl sendOne s).hif = { s.hif with pba := p } ∧ (s.hif.msixEn = true →
      ∀ v, v < n → bit p v = true → bit (tgetD s.hif.msix v ⟨0, 0, 0, 1⟩).ctl 0 = true) := by
  induction n with
  | zero => exact ⟨s.hif.pba, rfl, fun _ v hv => absurd hv (Nat.not_lt_zero v)⟩
  | succ n ih =>
    obtain ⟨p, hp, hmask⟩ := ih (by omega)
    obtain ⟨q, hq, hsent⟩ := sendOne_hif ((List.range n).foldl sendOne s) n
    rw [List.range_succ, List.foldl_append, List.foldl_cons, List.foldl_nil, hq, hp]
    rw [hp] at hsent
    refine ⟨q, rfl, fun hm v hv hb => ?_⟩
    obtain ⟨hpv, hnew⟩ := hsent (by omega) v hb
    by_cases hvn : v = n
    · subst hvn
      exact hnew rfl hm
    · exact hmask hm v (by omega) hpv

theorem sendPending_spec (s : State) : ∃ p, (sendPending s).hif = { s.hif with pba := p } ∧ (s.hif.msixEn = true →
    ∀ v, v < 32 → bit p v = true → bit (tgetD s.hif.msix v ⟨0, 0, 0, 1⟩).ctl 0 = true) :=
  sendPending_below s 32 (Nat.le_refl 32)

/-! ### Loss and training of the link -/

/-- A raise leaves the link as it was. -/
theorem raiseView_link : RaiseView (fun s => (s.hif.linkUp, s.hif.linkDown)) where
  blk _ _ _ _ := rfl
  seq _ _ := rfl
  enq r q t := by
    unfold enqRaw
    extract_lets
    repeat' split
    all_goals rfl
  vec v t := by
    unfold sendVector
    repeat' split
    all_goals rfl
  event _ _ _ _ := rfl
  ring _ _ _ := rfl

theorem execLinkTrained_trained (g5 : Bool) {s : State} (hw : isWorker s = false) (h1 : s.boot.st ≠ .off)
    (h2 : s.boot.st ≠ .backup) (h3 : s.boot.st ≠ .por) : execLinkTrained g5 s = .next { s with
      hif.linkUp := true, hif.speed := g5, hif.perstLow := false,
      hif.linkSlot := if s.hif.linkSlot.isSome then s.hif.linkSlot else some s.slot } := by
  have hclk : clkreqLow s = true := by simp [clkreqLow, hw, h1, h2, h3]
  simp only [execLinkTrained, hclk, Bool.not_true, Bool.false_eq_true, if_false]

/-- PERSTn, and what it leaves (R362). -/
theorem ends_perstAssert {s : State} (hw : isWorker s = false) : ends (execPerstAssert s) (fun t =>
    t.hif.linkUp = false ∧ t.hif.perstLow = true ∧ t.hif.linkDown = s.hif.linkDown + 1 ∧ t.hif.msixEn = false ∧
    RingsReset t.hif ∧ t.pnt = s.pnt ∧ t.nvs.recs = s.nvs.recs ∧ t.boot.st = s.boot.st) := by
  have hex : execPerstAssert s = .next { functionReset s with
      hif.linkUp := false, hif.perstLow := true, hif.linkDown := (functionReset s).hif.linkDown + 1 } := by
    simp only [execPerstAssert, hw, Bool.false_eq_true, if_false]
    rfl
  have hk := hide_functionReset s
  have hhif := functionReset_hif s
  refine ends_of hex ⟨rfl, rfl, ?_, ?_, ?_, same_pnt hk rfl, same_recs hk rfl, same_bootSt hk rfl⟩
  · dsimp only
    rw [hhif]
    rfl
  · dsimp only
    rw [hhif]
    rfl
  · show RingsReset _
    dsimp only
    rw [hhif]
    exact ringsReset_hifReset s

theorem ends_linkDown_fired {s : State} (hw : isWorker s = false) (hl : s.hif.linkUp = true) (hf : s.boot.fired = true) :
    ends (execLinkDown s) (fun t => t.hif.linkUp = false ∧ latched 11 4 t ∧ t.hif.linkDown = s.hif.linkDown + 1 ∧
      t.pnt = s.pnt ∧ t.nvs.recs = s.nvs.recs) := by
  have hex : execLinkDown s = .next (raise 11 4 { hifReset s with
      hif.linkUp := false, hif.linkDown := (hifReset s).hif.linkDown + 1 }) := by
    simp only [execLinkDown, hw, hl, hf, Bool.not_true, Bool.or_false, Bool.false_eq_true, if_false, if_true]
  have hlink := raiseView_link.raise_mild (b := 11) (i := 4) (by decide) { hifReset s with
      hif.linkUp := false, hif.linkDown := (hifReset s).hif.linkDown + 1 }
  have hraise := hide_raise_mild (b := 11) (i := 4) (by decide) { hifReset s with
      hif.linkUp := false, hif.linkDown := (hifReset s).hif.linkDown + 1 }
  have hk := hide_hifReset_own s
  simp only [Prod.mk.injEq] at hlink
  refine ends_of hex ⟨hlink.1, latched_raise _ rfl, hlink.2, ?_, ?_⟩
  · exact (same_pnt hraise rfl).trans (same_pnt hk rfl)
  · exact (same_recs hraise rfl).trans (same_recs hk rfl)

theorem execConfigurationRequest_up (m d : Bool) {s : State} (hw : isWorker s = false) (hl : s.hif.linkUp = true) :
    execConfigurationRequest m d s = .next (if s.hif.d3 then { s with hif.msixEn := m, hif.intDis := d }
      else sendPending { s with hif.msixEn := m, hif.intDis := d }) := by
  simp only [execConfigurationRequest, hw, hl, Bool.not_true, Bool.or_false, Bool.false_eq_true, if_false]

/-! ### The function-level reset -/

section Flr
variable {s : State} (hw : isWorker s = false) (hl : s.hif.linkUp = true)
include hw hl

/-- A function-level reset: the function's own, then what a reset does in a fail-stop (R362, R477). -/
theorem execFunctionLevelReset_up : execFunctionLevelReset s = .next (
    if s.boot.st == .failstop then resetFailstop 3 { functionReset s with hif.flr := (functionReset s).hif.flr + 1 }
    else { functionReset s with hif.flr := (functionReset s).hif.flr + 1 }) := by
  simp only [execFunctionLevelReset, hw, hl, Bool.not_true, Bool.or_false, Bool.false_eq_true, if_false]
  rfl

theorem ends_flr_running (hs : s.boot.st ≠ .failstop) : ends (execFunctionLevelReset s) (fun t =>
    t.hif.flr = s.hif.flr + 1 ∧ RingsReset t.hif ∧ t.pnt = s.pnt ∧ t.trf = s.trf ∧ t.crd = s.crd ∧
    t.nvs.recs = s.nvs.recs ∧ t.nvs.log = s.nvs.log ∧ t.whl = s.whl ∧ t.pin = s.pin ∧ t.rtc.s = s.rtc.s) := by
  have hex := execFunctionLevelReset_up hw hl
  rw [if_neg (by simpa using hs)] at hex
  have hk := hide_functionReset s
  have hhif := functionReset_hif s
  obtain ⟨hlog, hrtc, -⟩ := functionReset_kept s
  refine ends_of hex ⟨?_, ?_, same_pnt hk rfl, same_trf hk rfl, same_crd hk rfl, same_recs hk rfl, hlog, same_whl hk rfl,
    same_pin hk rfl rfl, hrtc⟩
  · dsimp only
    rw [hhif]
    rfl
  · show RingsReset _
    dsimp only
    rw [hhif]
    exact ringsReset_hifReset s

section Failstop
variable (hs : s.boot.st = .failstop)
include hs

theorem execFunctionLevelReset_failstop : execFunctionLevelReset s =
    .next (resetFailstop 3 { functionReset s with hif.flr := (functionReset s).hif.flr + 1 }) := by
  rw [execFunctionLevelReset_up hw hl, if_pos (by rw [hs]; rfl)]

theorem ends_flr_safe (hkind : s.flt.kind ≠ .grave) (hp : s.flt.phase = .safe) :
    ends (execFunctionLevelReset s) (porOf 3 s) := by
  have hk := hide_functionReset s
  have hflt := same_flt hk rfl
  obtain ⟨-, hrtc, hpre⟩ := functionReset_kept s
  refine ends_of (t := enterPor 3 { functionReset s with hif.flr := (functionReset s).hif.flr + 1 }) ?_
    (porOf_enterPor (congrArg Flt.prev hflt) (same_recs hk rfl) hrtc hpre (same_fuses hk))
  rw [execFunctionLevelReset_failstop hw hl hs]
  simp only [resetFailstop, hflt, beq_eq_false_iff_ne.2 hkind, hp, beq_self_eq_true, if_true, Bool.false_eq_true, if_false]

theorem ends_flr_begun (hkind : s.flt.kind ≠ .grave) (hp : s.flt.phase ≠ .safe) : ends (execFunctionLevelReset s) (fun t =>
    t.flt.remembered = some 3 ∧ t.boot.st = .failstop ∧ t.nvs.recs = s.nvs.recs) := by
  have hk := hide_functionReset s
  have hflt := same_flt hk rfl
  refine ends_of (t := { functionReset s with hif.flr := (functionReset s).hif.flr + 1, flt.remembered := some 3 }) ?_
    ⟨rfl, (same_bootSt hk rfl).trans hs, (same_recs hk rfl :)⟩
  rw [execFunctionLevelReset_failstop hw hl hs]
  simp only [resetFailstop, hflt, beq_eq_false_iff_ne.2 hkind, beq_eq_false_iff_ne.2 hp, Bool.false_eq_true, if_false]

theorem ends_flr_grave (hkind : s.flt.kind = .grave) : ends (execFunctionLevelReset s) (fun t =>
    t.hif.flr = s.hif.flr + 1 ∧ t.flt = s.flt ∧ t.boot.st = .failstop ∧ t.nvs.recs = s.nvs.recs) := by
  have hk := hide_functionReset s
  have hflt := same_flt hk rfl
  refine ends_of (t := { functionReset s with hif.flr := (functionReset s).hif.flr + 1 }) ?_
    ⟨?_, hflt, (same_bootSt hk rfl).trans hs, same_recs hk rfl⟩
  · rw [execFunctionLevelReset_failstop hw hl hs]
    simp only [resetFailstop, hflt, hkind, beq_self_eq_true, if_true]
  · dsimp only
    rw [functionReset_hif]
    rfl

end Failstop
end Flr

/-- Settles O45: the reset of the function disables its rings and leaves metering, the store's records and the clock; pending
messages are sent vector by vector; what ends a fail-stop is its kind and phase. -/
theorem hostLink : Obligations.HostLink := by
  refine ⟨fun s hw => ?_, fun s => ?_, fun s hw hl => ?_⟩
  · refine ⟨fun g5 h1 h2 h3 => ?_, ends_perstAssert hw, fun hl hf => ends_linkDown_fired hw hl hf, fun hl hf => ?_,
      fun hl => ?_, fun m d hl hd => ?_, fun m d hl hd => ?_⟩
    · refine ends_of (execLinkTrained_trained g5 hw h1 h2 h3) ⟨rfl, rfl, rfl, ?_, rfl⟩
      dsimp only
      split
      · assumption
      · rfl
    · refine ends_of (t := { s with hif.linkUp := false, hif.linkDown := s.hif.linkDown + 1 }) ?_ ⟨rfl, rfl, rfl⟩
      simp only [exec, execLinkDown, hw, hl, hf, Bool.not_true, Bool.or_false, Bool.false_eq_true, if_false]
    · simp only [exec, execD3hotEnter, hw, hl, Bool.not_true, Bool.or_false, Bool.false_eq_true, if_false]
    · exact (execConfigurationRequest_up m d hw hl).trans (by rw [hd, if_pos rfl])
    · have hex := execConfigurationRequest_up m d hw hl
      rw [hd] at hex
      obtain ⟨p, hp, hmask⟩ := sendPending_spec { s with hif.msixEn := m, hif.intDis := d }
      refine ends_of hex ?_
      rw [if_neg Bool.false_ne_true, hp]
      exact ⟨rfl, rfl, rfl, hmask⟩
  · refine ⟨fun hd => ?_, fun hd => ?_, fun h => ?_, fun hw => ⟨?_, fun g5 => ?_⟩⟩
    · obtain ⟨p, hp, -⟩ := sendPending_spec { s with hif.d3 := false }
      refine ends_of (t := sendPending { s with hif.d3 := false }) ?_ ?_
      · simp only [exec, execD0Return, hd, if_true]
      · rw [hp]
        exact ⟨rfl, rfl⟩
    · simp only [exec, execD0Return, hd, Bool.false_eq_true, if_false]
    · have hgate : (isWorker s || !s.hif.linkUp) = true := by
        rcases h with h | h
        · rw [h, Bool.true_or]
        · rw [h, Bool.not_false, Bool.or_true]
      simp only [exec, execLinkDown, execD3hotEnter, execFunctionLevelReset, execConfigurationRequest, hgate, if_true, and_self,
        implies_true]
    · simp only [exec, execPerstAssert, hw, if_true]
    · simp only [exec, execLinkTrained, clkreqLow, hw, Bool.not_true, Bool.false_and, Bool.not_false, if_true]
  · exact ⟨fun hs => ends_flr_running hw hl hs, fun hs hkind hp => ends_flr_safe hw hl hs hkind hp,
      fun hs hkind hp => ends_flr_begun hw hl hs hkind hp, fun hs hkind => ends_flr_grave hw hl hs hkind⟩

end Sys2Proof.Proofs

namespace Sys2Proof.Proofs
open Sys2Proof Sys2Proof.Machine Sys2Proof.Laws

/-! ### CONFIG_SET -/

section ConfigSet
variable {r : Req} {s : State} (hown : ownRing0 16 r s)
include hown

/-- A CONFIG_SET whose check, form and range hold: a conflict fails it, else its write is made as PROT and a freeze allow. -/
theorem execConfigSet_formed {m k : Nat} (hcrc : crcOk r.buf 12 (r.buf.take 12) = true) (hm : itemMask (rd r.buf 0 2) = some (m, k))
    (hk : rd r.buf 2 2 < k) (hv : (BitVec.ofNat 32 (rd r.buf 4 4) : W32) &&& ~~~ (BitVec.ofNat 32 m) = 0)
    (hz : zerosAt r.buf 8 4 = true) (hrange : itemRange s (rd r.buf 0 2) (rd r.buf 2 2) (BitVec.ofNat 32 (rd r.buf 4 4)) = false) :
    execConfigSet r s = .next (answer (reqWaiter r 0 0x01)
      (if itemConflict s (rd r.buf 0 2) (rd r.buf 2 2) (BitVec.ofNat 32 (rd r.buf 4 4)) then .fail statusConflict s
      else writeCmd (itemKey (rd r.buf 0 2) (rd r.buf 2 2)) (.word (BitVec.ofNat 32 (rd r.buf 4 4))) 1 (reqWaiter r 0 0x01)
        (itemAccept (rd r.buf 0 2) (rd r.buf 2 2) (BitVec.ofNat 32 (rd r.buf 4 4))) s)) := by
  unfold execConfigSet
  rw [ring0_ownRing0 hown]
  dsimp -proj only
  rw [hm]
  simp only [hcrc, hk, hv, hz, hrange, decide_true, beq_self_eq_true, Bool.and_self, firstBad, Bool.not_true, Bool.false_eq_true,
    if_false]
  cases itemConflict s (rd r.buf 0 2) (rd r.buf 2 2) (BitVec.ofNat 32 (rd r.buf 4 4)) <;> rfl

theorem execConfigSet_range (h : crcOk r.buf 12 (r.buf.take 12) = false ∨ itemMask (rd r.buf 0 2) = none ∨
    itemRange s (rd r.buf 0 2) (rd r.buf 2 2) (BitVec.ofNat 32 (rd r.buf 4 4)) = true) :
    execConfigSet r s = .next (complete (reqWaiter r 0 0x01) statusRange 0 [] s) := by
  unfold execConfigSet
  rw [ring0_ownRing0 hown]
  dsimp -proj only
  rcases h with h | h | h
  · simp only [h, firstBad, Bool.not_false, if_true, answer_fail]
  · simp only [h, firstBad, Bool.not_false, if_true, ite_self, answer_fail]
  · simp only [h, firstBad, if_true, ite_self, answer_fail]

end ConfigSet

/-! ### REG_READ -/

/-- What Ring 1 holds for the host: its queue, the records in buffers and completions, and its next sequence. -/
def ring1Of (s : State) : List QRec × List QRec × W32 := ((getRing s 1).queue, undelivered (getRing s 1), s.hif.ring1Seq)

theorem ring1Of_hif {s t : State} (h : t.hif = s.hif) : ring1Of t = ring1Of s := by
  rw [ring1Of, getRing, h]; rfl

/-- A change of one ring that keeps its records, or of another ring than 1, keeps what Ring 1 holds. -/
theorem ring1Of_setRing {n : Nat} {x : Ring} {s : State}
    (h : n = 1 → x.queue = (getRing s 1).queue ∧ undelivered x = undelivered (getRing s 1)) :
    ring1Of (setRing n x s) = ring1Of s := by
  by_cases hn : n = 1
  · subst hn
    obtain ⟨hq, hu⟩ := h rfl
    rw [ring1Of, getRing_setRing, hq, hu]
    rfl
  · rw [ring1Of, getRing_setRing_ne _ _ _ _ hn]
    rfl

theorem ring1Of_clearRc (off : Nat) (s : State) : ring1Of (clearRc off s) = ring1Of s := by
  unfold clearRc
  split
  · rfl
  · split
    case h_7 => exact ring1Of_setRing fun h => by rw [h]; exact ⟨rfl, rfl⟩
    all_goals rfl

theorem ring1Of_latchHi (off : Nat) (s : State) : ring1Of (latchHi off s) = ring1Of s := by
  unfold latchHi
  split <;> rfl

/-- A register's read keeps what Ring 1 holds. -/
theorem ring1Of_readSide (off : Nat) (s : State) : ring1Of (readSide off s) = ring1Of s := by
  unfold readSide
  split
  · rw [ring1Of_hif (same_hif (@hide_timeRead { rtc := true } ⟨rfl⟩ off _) rfl), ring1Of_latchHi, ring1Of_clearRc]
  · rfl

theorem ring1Of_readRegs (n off : Nat) (s : State) : ring1Of (readRegs n off s).2 = ring1Of s := by
  induction n generalizing off s with
  | zero => rfl
  | succ n ih => exact (ih (off + 4) (readSide off s)).trans (ring1Of_readSide off s)

theorem recordsKept_readRegs (n off : Nat) (s : State) : RecordsKept s (readRegs n off s).2 := by
  induction n generalizing off s with
  | zero => exact .refl s
  | succ n ih => exact (recordsKept_readSide off s).trans (ih (off + 4) (readSide off s))

/-- The blocks that reads of registers change. -/
def readBlocks : Mask where
  cpx := true
  whl := true
  flt := true
  hif := true
  coil := true
  nvs := true
  rtc := true
  pq := true
  crd := true
  sgr := true

theorem hide_readRegs_own (n off : Nat) (s : State) : hide readBlocks (readRegs n off s).2 = hide readBlocks s :=
  @hide_readRegs readBlocks ⟨rfl⟩ ⟨rfl⟩ ⟨rfl⟩ ⟨rfl⟩ ⟨rfl⟩ ⟨rfl⟩ ⟨rfl⟩ ⟨rfl⟩ ⟨rfl⟩ ⟨rfl⟩ n off s

/-- The end of a Ring 0 request leaves what Ring 1 holds. -/
theorem ring1Of_complete {w : Waiter} (hw : w.ring = 0) (st : W16) (q : W32) (d : List Byte) (s : State) :
    ring1Of (complete w st q d s) = ring1Of s := by
  unfold complete
  rw [hw, if_neg (by decide)]
  split
  · exact ring1Of_hif (same_hif (@hide_sendUp { out := true, coil := true } ⟨rfl⟩ ⟨rfl⟩ 1 1 _ s) rfl)
  · exact ring1Of_setRing fun h => absurd h (by decide)

theorem ring1Of_waitReq {w : Waiter} (hw : w.ring = 0) (s : State) : ring1Of (waitReq w s) = ring1Of s := by
  unfold waitReq
  rw [hw]
  split
  · rfl
  · exact ring1Of_setRing fun h => absurd h (by decide)

theorem ring1Seq_deliver (n : Nat) (q : QRec) (s : State) : (deliver n q s).hif.ring1Seq = s.hif.ring1Seq :=
  RaiseView.deliver (f := fun s => s.hif.ring1Seq)
    { blk := fun _ _ _ _ => rfl
      seq := fun _ _ => rfl
      enq := fun r q t => by
        unfold enqRaw
        extract_lets
        repeat' split
        all_goals rfl
      vec := fun v t => by
        unfold sendVector
        repeat' split
        all_goals rfl
      event := fun _ _ _ _ => rfl
      ring := fun _ _ _ => rfl } n q s

/-- A record delivered on Ring 1 of a chip with a function joins its queue. -/
theorem queue_deliver {s : State} (hw : isWorker s = false) (q : QRec) :
    (getRing (deliver 1 q s) 1).queue = (getRing s 1).queue ++ [q] := by
  have hover : ∀ l, queueOver 1 l = false := fun _ => rfl
  simp only [deliver, enqRaw, hw, hover, Bool.false_eq_true, if_false, getRing_setRing]

theorem ring1Seq_of {s t : State} (h : ring1Of t = ring1Of s) : t.hif.ring1Seq = s.hif.ring1Seq :=
  congrArg (fun x => x.2.2) h

/-- A result of a Ring 0 request keeps Ring 1's next sequence. -/
theorem ring1Seq_pushResult {w : Waiter} (hw : w.ring = 0) (seq : W32) (bytes : List Byte) (d : Done) (s : State) :
    (pushResult 1 seq bytes w d s).hif.ring1Seq = s.hif.ring1Seq := by
  unfold pushResult
  split
  · exact ring1Seq_of (ring1Of_complete hw ..)
  · dsimp only
    split
    · rw [ring1Seq_of (ring1Of_complete hw ..), ring1Seq_deliver]
    · rw [ring1Seq_of (ring1Of_waitReq hw _), ring1Seq_deliver]

/-- A result of a Ring 0 request joins Ring 1's queue where the ring has room. -/
theorem queue_pushResult {w : Waiter} (hw : w.ring = 0) {seq : W32} {bytes : List Byte} {d : Done} {s : State}
    (hwk : isWorker s = false) (hroom : (undelivered (getRing s 1)).length + (getRing s 1).queue.length < 64) :
    (getRing (pushResult 1 seq bytes w d s) 1).queue = (getRing s 1).queue ++ [⟨seq, bytes, none, none⟩] := by
  have hpush : pushResult 1 seq bytes w d s = complete w d.status d.seq d.data (deliver 1 ⟨seq, bytes, none, none⟩ s) := by
    simp only [pushResult, hwk, Bool.false_eq_true, if_false]
    exact if_pos hroom
  rw [hpush]
  exact (congrArg Prod.fst (ring1Of_complete hw ..)).trans (queue_deliver hwk _)

/-- The record of a REG_READ, and the state in which it is put on Ring 1 (R355). -/
def regReadRec (r : Req) (s : State) (off n : Nat) : Rec :=
  ⟨0x00C1, s.hif.ring1Seq, nowStamp s, addrBytes s 0 ++ le 4 r.tag.toNat ++ le 2 off ++ le 2 n ++ zeros 4 ++
    (readRegs n off s).1.flatMap (fun v => le 4 v.toNat)⟩

def regReadDone (s : State) (off n : Nat) : State :=
  { (readRegs n off s).2 with hif.ring1Seq := s.hif.ring1Seq + 1 }

section RegRead
variable {r : Req} {s : State} (hown : ownRing0 8 r s)
include hown

theorem execRegRead_read (hz : zerosAt r.buf 4 4 = true) (h4 : rd r.buf 0 2 % 4 = 0) (h1 : 1 ≤ rd r.buf 2 2)
    (h64 : rd r.buf 2 2 ≤ 64) (hend : rd r.buf 0 2 + 4 * rd r.buf 2 2 ≤ 0x4000) :
    execRegRead r s = .next (waitReq (reqWaiter r 0 0x02) (pushResult 1 s.hif.ring1Seq
      (regReadRec r s (rd r.buf 0 2) (rd r.buf 2 2)).bytes (reqWaiter r 0 0x02) ⟨statusOk, 0, s.hif.ring1Seq, []⟩
      (regReadDone s (rd r.buf 0 2) (rd r.buf 2 2)))) := by
  have hgood : (rd r.buf 0 2 % 4 != 0 || decide (rd r.buf 2 2 = 0) || decide (rd r.buf 2 2 > 64) ||
      decide (rd r.buf 0 2 + 4 * rd r.buf 2 2 > 0x4000) || !zerosAt r.buf 4 4) = false := by
    simp only [hz, h4, bne_self_eq_false, Bool.not_true, Bool.or_false, Bool.false_or, Bool.or_eq_false_iff,
      decide_eq_false_iff_not]
    omega
  have hseq := ring1Seq_of (ring1Of_readRegs (rd r.buf 2 2) (rd r.buf 0 2) s)
  unfold execRegRead
  rw [ring0_ownRing0 hown]
  simp only [hgood, Bool.false_eq_true, if_false, hseq, answer_wait]
  rfl

theorem execRegRead_range (h : rd r.buf 0 2 % 4 ≠ 0 ∨ rd r.buf 2 2 = 0 ∨ 64 < rd r.buf 2 2 ∨
    0x4000 < rd r.buf 0 2 + 4 * rd r.buf 2 2) :
    execRegRead r s = .next (complete (reqWaiter r 0 0x02) statusRange 0 [] s) := by
  have hbad : (rd r.buf 0 2 % 4 != 0 || decide (rd r.buf 2 2 = 0) || decide (rd r.buf 2 2 > 64) ||
      decide (rd r.buf 0 2 + 4 * rd r.buf 2 2 > 0x4000) || !zerosAt r.buf 4 4) = true := by
    simp only [Bool.or_eq_true, bne_iff_ne, decide_eq_true_eq]
    omega
  unfold execRegRead
  rw [ring0_ownRing0 hown]
  simp only [hbad, if_true, answer_fail]

end RegRead

/-- The blocks that the delivery of a result changes. -/
def deliverBlocks : Mask := { raiseBlocks with bootSt := true, cpx := true }

/-- What a REG_READ leaves: its sequence taken, and the records, credits and points as they were. -/
theorem regRead_kept (r : Req) (s : State) (off n : Nat) (bytes : List Byte) (d : Done) :
    let t := waitReq (reqWaiter r 0 0x02) (pushResult 1 s.hif.ring1Seq bytes (reqWaiter r 0 0x02) d (regReadDone s off n))
    t.hif.ring1Seq = s.hif.ring1Seq + 1 ∧ t.nvs.recs = s.nvs.recs ∧ t.crd.cred = s.crd.cred ∧ t.pnt = s.pnt := by
  intro t
  have hk : hide deliverBlocks t = hide deliverBlocks (regReadDone s off n) :=
    (@hide_waitReq deliverBlocks ⟨rfl⟩ _ _).trans
      (@hide_pushResult deliverBlocks ⟨rfl⟩ ⟨rfl⟩ ⟨rfl⟩ ⟨rfl⟩ ⟨rfl⟩ ⟨rfl⟩ ⟨rfl⟩ 1 s.hif.ring1Seq bytes _ d _)
  obtain ⟨hrecs, hcred, -, -⟩ := recordsKept_readRegs n off s
  refine ⟨?_, (same_recs hk rfl).trans hrecs, (congrArg Crd.cred (same_crd hk rfl)).trans hcred,
    (same_pnt hk rfl).trans (same_pnt (hide_readRegs_own n off s) rfl)⟩
  rw [ring1Seq_of (ring1Of_waitReq rfl _), ring1Seq_pushResult rfl]
  rfl

/-! ### The replays -/

/-- What each step of a fold keeps stands over the fold. -/
theorem foldl_kept {α β : Type} {f : State → α} {g : State → β → State} (h : ∀ t i, f (g t i) = f t) (l : List β) (s : State) :
    f (l.foldl g s) = f s := by
  induction l generalizing s with
  | nil => rfl
  | cons x l ih => exact (ih (g s x)).trans (h s x)

/-- `t` differs from `s` in what a delivery of records changes alone. -/
def DeliveredOnly (s t : State) : Prop := ∀ (α : Type) (f : State → α), RaiseView f → f t = f s

theorem deliveredOnly_complete {s t : State} (h : DeliveredOnly s t) (w : Waiter) (st : W16) :
    let u := complete w st 0 [] t
    u.nvs.log = s.nvs.log ∧ u.nvs.mirror = s.nvs.mirror ∧ u.nvs.recs = s.nvs.recs ∧ u.trf = s.trf ∧ u.pnt = s.pnt := by
  intro u
  have hc := hide_complete_own w st 0 [] t
  have hk := h _ _ raiseView_hide
  have hn : arrayOf t.nvs = arrayOf s.nvs := h _ _ raiseView_array
  have hlog : (arrayOf t.nvs).log = (arrayOf s.nvs).log := congrArg Nvs.log hn
  have hmirror : (arrayOf t.nvs).mirror = (arrayOf s.nvs).mirror := congrArg Nvs.mirror hn
  have hu : u.nvs = t.nvs := same_nvs hc rfl rfl
  rw [hu]
  exact ⟨hlog, hmirror, same_recs hk rfl, (same_trf hc rfl).trans (same_trf hk rfl),
    (same_pnt hc rfl).trans (same_pnt hk rfl)⟩

section LogReplay
variable {r : Req} {s : State} (hown : ownRing0 8 r s)
include hown

theorem execLogReplay_range (h : rd r.buf 4 4 = 0 ∨ 16384 < rd r.buf 4 4) :
    execLogReplay r s = .next (complete (reqWaiter r 0 0x05) statusRange 0 [] s) := by
  unfold execLogReplay
  rw [ring0_ownRing0 hown]
  have hbad : (decide (rd r.buf 4 4 = 0) || decide (rd r.buf 4 4 > 16384)) = true := by
    simp only [Bool.or_eq_true, decide_eq_true_eq]
    omega
  simp only [hbad, if_true, answer_fail]

/-- A LOG_REPLAY of a good count delivers what is retained of its sequences (R356). -/
theorem execLogReplay_delivers (h1 : 1 ≤ rd r.buf 4 4) (hn : rd r.buf 4 4 ≤ 16384) :
    ∃ t, DeliveredOnly s t ∧ execLogReplay r s = .next (complete (reqWaiter r 0 0x05) statusOk 0 [] t) := by
  have hgood : (decide (rd r.buf 4 4 = 0) || decide (rd r.buf 4 4 > 16384)) = false := by
    simp only [Bool.or_eq_false_iff, decide_eq_false_iff_not]
    omega
  unfold execLogReplay
  rw [ring0_ownRing0 hown]
  simp only [hgood, Bool.false_eq_true, if_false, answer_done]
  refine ⟨_, fun α f hf => foldl_kept (fun t i => ?_) _ s, rfl⟩
  split
  · exact hf.deliver _ _ _
  · rfl

/-- A LOG_REPLAY of one record. -/
theorem execLogReplay_one (h1 : rd r.buf 4 4 = 1) : execLogReplay r s = .next (complete (reqWaiter r 0 0x05) statusOk 0 []
    (match logAt s (BitVec.ofNat 32 (rd r.buf 0 4)) with
      | some x => deliver 5 ⟨x.seq, x.bytes, none, none⟩ s
      | none => s)) := by
  have hfirst : (BitVec.ofNat 32 (rd r.buf 0 4) : W32) + BitVec.ofNat 32 0 = BitVec.ofNat 32 (rd r.buf 0 4) :=
    BitVec.add_zero _
  unfold execLogReplay
  rw [ring0_ownRing0 hown]
  simp only [h1]
  rw [if_neg (by decide), List.range_one, List.foldl_cons, List.foldl_nil, hfirst]
  cases logAt s (BitVec.ofNat 32 (rd r.buf 0 4)) <;> rfl

end LogReplay

section SnapReplay
variable {r : Req} {s : State} (hown : ownRing0 4 r s) (hz : zerosAt r.buf 2 2 = true)
include hown hz

/-- A SNAP_REPLAY of a point that is not defined (R356). -/
theorem execSnapReplay_range (hall : rd r.buf 0 2 ≠ 0xFFFF) (h : 256 ≤ rd r.buf 0 2 ∨ (getPt s (rd r.buf 0 2)).dfn = none) :
    execSnapReplay r s = .next (complete (reqWaiter r 0 0x06) statusRange 0 [] s) := by
  have hbad : (!zerosAt r.buf 2 2 || rd r.buf 0 2 != 0xFFFF &&
      (decide (rd r.buf 0 2 > 255) || (getPt s (rd r.buf 0 2)).dfn.isNone)) = true := by
    simp only [hz, Bool.not_true, Bool.false_or, Bool.and_eq_true, bne_iff_ne, Bool.or_eq_true, decide_eq_true_eq,
      Option.isNone_iff_eq_none]
    exact ⟨hall, h.imp_left fun h => by omega⟩
  unfold execSnapReplay
  rw [ring0_ownRing0 hown]
  simp only [hbad, if_true, answer_fail]

/-- A SNAP_REPLAY of every point, or of a defined one, delivers their retained snapshots (R356). -/
theorem execSnapReplay_points (h : rd r.buf 0 2 = 0xFFFF ∨ rd r.buf 0 2 < 256 ∧ (getPt s (rd r.buf 0 2)).dfn.isSome = true) :
    execSnapReplay r s = .next (complete (reqWaiter r 0 0x06) statusOk 0 []
      ((if rd r.buf 0 2 = 0xFFFF then definedPts s else [rd r.buf 0 2]).foldl (fun t p => (snapsOf s p).reverse.foldl
        (fun t x => deliver 4 ⟨BitVec.ofNat 32 (rd x.2 0 4), x.2, none, none⟩ t) t) s)) := by
  have hgood : (!zerosAt r.buf 2 2 || rd r.buf 0 2 != 0xFFFF &&
      (decide (rd r.buf 0 2 > 255) || (getPt s (rd r.buf 0 2)).dfn.isNone)) = false := by
    rcases h with h | ⟨hlt, hd⟩
    · rw [hz, h]; rfl
    · have hle : decide (rd r.buf 0 2 > 255) = false := decide_eq_false (by omega)
      rw [hz, hle, Option.isNone_eq_false_iff.2 hd, Bool.or_false, Bool.and_false]
      rfl
  unfold execSnapReplay
  rw [ring0_ownRing0 hown]
  simp only [hgood, Bool.false_eq_true, if_false, answer_done]

end SnapReplay

theorem deliveredOnly_snaps (s : State) (pts : List Nat) : DeliveredOnly s (pts.foldl (fun t p => (snapsOf s p).reverse.foldl
    (fun t x => deliver 4 ⟨BitVec.ofNat 32 (rd x.2 0 4), x.2, none, none⟩ t) t) s) :=
  fun _ _ hf => foldl_kept (fun t p => foldl_kept (fun u _ => hf.deliver 4 _ u) (snapsOf s p).reverse t) pts s

/-! ### The time-out of a forwarded request -/

theorem execCommandForwardTimeout_found {ring : Nat} {slot : W32} {f : Fwd} {s : State}
    (hf : s.hif.fwd.find? (fun f => f.w.ring == ring && f.w.slot == slot) = some f) :
    execCommandForwardTimeout ring slot s = .next (if s.slot - f.at_ < 2000 * msSlots then s
      else if f.w.ring == 9 then
        sagDone ⟨f.w, f.stamp, 0, f.wring * 2 ^ 15 + f.wpos * 2 ^ 8, []⟩ statusUnavailable []
          { s with hif.fwd := s.hif.fwd.filter (fun x => !(x.w.ring == ring && x.w.slot == slot)) }
      else complete f.w statusUnavailable 0 []
        { s with hif.fwd := s.hif.fwd.filter (fun x => !(x.w.ring == ring && x.w.slot == slot)) }) := by
  simp only [execCommandForwardTimeout, dropFwd, hf]

/-- Settles O49: each request is answered by its checks; a read and a replay change nothing of the store but the records that
wait for the log, and a forwarded request ends by its age. -/
theorem hostRequests : Obligations.HostRequests := by
  intro r s
  dsimp -proj only
  refine ⟨?_, ?_, ?_, ?_, ?_, ?_, ?_, ?_, ?_, ?_⟩
  · intro m k hown hcrc hm hk hv hz hrange
    have hex := execConfigSet_formed hown hcrc hm hk hv hz hrange
    refine ⟨fun hconf hw => ?_, fun hconf => ?_⟩
    · rw [hconf, if_neg Bool.false_ne_true] at hex
      refine hex.trans ?_
      cases hg : gasped s
      · rw [writeCmd_allowed hw hg]; rfl
      · rw [writeCmd_gasped hw hg]; rfl
    · rw [hconf] at hex
      exact hex
  · exact fun hown h => execConfigSet_range hown h
  · intro hown hz h4 h1 h64 hend
    have hex := execRegRead_read hown hz h4 h1 h64 hend
    refine ⟨ends_of hex (regRead_kept ..), fun hn hwk hroom => ends_of hex ?_⟩
    have hring := ring1Of_readRegs (rd r.buf 2 2) (rd r.buf 0 2) s
    have hq : (getRing (regReadDone s (rd r.buf 0 2) (rd r.buf 2 2)) 1).queue = (getRing s 1).queue := congrArg Prod.fst hring
    have hu : undelivered (getRing (regReadDone s (rd r.buf 0 2) (rd r.buf 2 2)) 1) = undelivered (getRing s 1) :=
      congrArg (fun x => x.2.1) hring
    have hwk' : isWorker (regReadDone s (rd r.buf 0 2) (rd r.buf 2 2)) = false := by
      rw [isWorker, show (regReadDone s (rd r.buf 0 2) (rd r.buf 2 2)).boot = s.boot from
        same_boot (hide_readRegs_own _ _ s) rfl rfl]
      exact hwk
    refine ⟨_, (congrArg Prod.fst (ring1Of_waitReq rfl _)).trans
      ((queue_pushResult rfl hwk' (by rw [hq, hu]; exact hroom)).trans (by rw [hq])), ?_⟩
    rw [hn]
    simp only [regReadRec, readRegs, readReg, List.flatMap_cons, List.flatMap_nil, List.append_nil]
  · exact fun hown h => execRegRead_range hown h
  · intro hown h1 hn
    obtain ⟨t, ht, hex⟩ := execLogReplay_delivers hown h1 hn
    obtain ⟨hlog, hmirror, hrecs, -, hpnt⟩ := deliveredOnly_complete ht (reqWaiter r 0 0x05) statusOk
    exact ends_of hex ⟨hlog, hmirror, hrecs, hpnt⟩
  · intro hown h1
    have hex := execLogReplay_one hown h1
    refine ⟨fun x hx => ?_, fun hx => ?_⟩
    · rw [hx] at hex; exact hex
    · rw [hx] at hex; exact hex
  · exact fun hown h => execLogReplay_range hown h
  · intro hown hz
    have hkept : rd r.buf 0 2 = 0xFFFF ∨ rd r.buf 0 2 < 256 ∧ (getPt s (rd r.buf 0 2)).dfn.isSome = true →
        ends (exec (.snapReplay r) s) (fun t => t.nvs.recs = s.nvs.recs ∧ t.trf = s.trf ∧ t.pnt = s.pnt) := fun h => by
      obtain ⟨-, -, hrecs, htrf, hpnt⟩ := deliveredOnly_complete
        (deliveredOnly_snaps s (if rd r.buf 0 2 = 0xFFFF then definedPts s else [rd r.buf 0 2])) (reqWaiter r 0 0x06) statusOk
      exact ends_of (execSnapReplay_points hown hz h) ⟨hrecs, htrf, hpnt⟩
    refine ⟨fun hall => hkept (.inl hall), fun hlt hd => ⟨hkept (.inr ⟨hlt, hd⟩), fun x hx => ?_⟩,
      fun hall h => execSnapReplay_range hown hz hall h⟩
    have hex := execSnapReplay_points hown hz (.inr ⟨hlt, hd⟩)
    rw [if_neg (by omega), List.foldl_cons, List.foldl_nil, hx] at hex
    exact hex
  · intro f ring slot hf
    have hex := execCommandForwardTimeout_found hf
    refine ⟨fun hage hr => ?_, fun hage hr => ?_, fun hage => ?_⟩
    · rw [if_neg (by omega), beq_eq_false_iff_ne.2 hr] at hex
      exact hex
    · rw [if_neg (by omega), hr] at hex
      exact hex
    · rw [if_pos hage] at hex
      exact hex
  · intro ring slot hf
    simp only [exec, execCommandForwardTimeout, dropFwd, hf]

end Sys2Proof.Proofs

namespace Sys2Proof.Proofs
open Sys2Proof Sys2Proof.Machine Sys2Proof.Laws

/-! ### Shares -/

theorem xor_cancel (a b c : Byte) : (a ^^^ c) ^^^ (b ^^^ c) = a ^^^ b := by
  rw [BitVec.xor_comm b c, BitVec.xor_assoc, ← BitVec.xor_assoc c c, BitVec.xor_self, BitVec.zero_xor]

/-- A random XORed into both shares leaves their key. -/
theorem xor_both_shares (v m r : List Byte) (hv : v.length = r.length) (hm : m.length = r.length) :
    List.zipWith (fun a b => a ^^^ b) (xorB v r) (xorB m r) = List.zipWith (fun a b => a ^^^ b) v m := by
  refine List.ext_getElem (by simp [xorB, hv, hm]) fun i h1 h2 => ?_
  simp only [xorB, List.getElem_zipWith, xor_cancel]

/-- Two shares of one length, as a mask makes them (R431). -/
def Share.Paired (x : Share) : Prop := x.v.length = x.m.length

/-- A wedge leaves the key, and the shares paired (R431). -/
theorem wedge_spec (x : Share) (s : State) (h : Share.Paired x) :
    (wedge x s).1.key = x.key ∧ Share.Paired (wedge x s).1 := by
  have hr : (drawRandom x.m.length s).1.length = x.m.length := by simp [drawRandom]
  have hv : x.v.length = (drawRandom x.m.length s).1.length := Eq.trans h hr.symm
  refine ⟨xor_both_shares _ _ _ hv hr.symm, ?_⟩
  show (xorB x.v _).length = (xorB x.m _).length
  rw [xorB, xorB, List.length_zipWith, List.length_zipWith, hv, hr]

/-- Shares inverted keep their key (R431). -/
theorem key_invB (x : Share) : Share.key ⟨invB x.v, invB x.m⟩ = x.key := by
  simp only [Share.key, invB, List.zipWith_map]
  congr 1
  funext a b
  ext i hi
  simp

/-! ### A wedge pass -/

theorem taken_next (k : KSlot) : k.taken.next = none := by
  obtain ⟨st, key, gen, next⟩ := k
  cases next <;> rfl

theorem taken_of_next {k : KSlot} (h : k.next = none) : k.taken = k := by simp only [KSlot.taken, h]

theorem getSlot_setSlot_settled (i : Nat) {x : KSlot} (s : State) (h : x.next = none) : getSlot (setSlot i x s) i = x := by
  rw [getSlot_setSlot, taken_of_next h, ite_self]

/-- A slot has the key, state and generation of `k`, in paired shares, a key that waits taken over. -/
def HoldsKey (k : KSlot) (s : State) (i : Nat) : Prop :=
  (getSlot s i).taken.key.key = k.key.key ∧ (getSlot s i).taken.st = k.st ∧ (getSlot s i).taken.gen = k.gen ∧
    Share.Paired (getSlot s i).taken.key

/-- A wedge of a slot keeps what each slot holds, and leaves no key that waits in its own. -/
theorem holdsKey_wedgeSlot {k : KSlot} {s : State} {i : Nat} (h : HoldsKey k s i) (j : Nat) :
    HoldsKey k (wedgeSlot j s) i := by
  unfold wedgeSlot
  split
  · exact h
  · by_cases hij : j = i
    · subst hij
      obtain ⟨hkey, hst, hgen, hpair⟩ := h
      obtain ⟨hkey', hpair'⟩ := wedge_spec (getSlot s j).taken.key s hpair
      have hnone : ({ (getSlot s j).taken with key := (wedge (getSlot s j).taken.key s).1 } : KSlot).next = none := taken_next _
      dsimp only
      rw [HoldsKey, getSlot_setSlot_settled j _ hnone, taken_of_next hnone]
      exact ⟨hkey'.trans hkey, hst, hgen, hpair'⟩
    · dsimp only
      rw [HoldsKey, getSlot_setSlot_ne _ _ _ _ hij]
      exact h

theorem next_wedgeSlot {s : State} (ht : s.sgr.trngOk = true) (i j : Nat) (h : i = j ∨ (getSlot s i).next = none) :
    (getSlot (wedgeSlot j s) i).next = none := by
  simp only [wedgeSlot, ht, Bool.not_true, Bool.false_eq_true, if_false]
  by_cases hij : j = i
  · subst hij
    have hnone : ({ (getSlot s j).taken with key := (wedge (getSlot s j).taken.key s).1 } : KSlot).next = none := taken_next _
    rw [getSlot_setSlot_settled j _ hnone]
    exact hnone
  · rw [getSlot_setSlot_ne _ _ _ _ hij]
    exact h.resolve_left (Ne.symm hij)

theorem trngOk_wedgeSlot (j : Nat) (s : State) : (wedgeSlot j s).sgr.trngOk = s.sgr.trngOk := by
  unfold wedgeSlot
  split <;> rfl

/-- The slots of a list wedged in turn. -/
def wedgeSlots (l : List Nat) (s : State) : State := l.foldl (fun t i => wedgeSlot i t) s

theorem holdsKey_wedgeSlots {k : KSlot} {i : Nat} (l : List Nat) {s : State} (h : HoldsKey k s i) :
    HoldsKey k (wedgeSlots l s) i := by
  induction l generalizing s with
  | nil => exact h
  | cons j l ih => exact ih (holdsKey_wedgeSlot h j)

theorem next_wedgeSlots {i : Nat} (l : List Nat) {s : State} (ht : s.sgr.trngOk = true)
    (h : i ∈ l ∨ (getSlot s i).next = none) : (getSlot (wedgeSlots l s) i).next = none := by
  induction l generalizing s with
  | nil => exact h.resolve_left (List.not_mem_nil)
  | cons j l ih =>
    refine ih ((trngOk_wedgeSlot j s).trans ht) ?_
    by_cases hl : i ∈ l
    · exact .inl hl
    · refine .inr (next_wedgeSlot ht i j (h.imp_left fun hm => ?_))
      exact (List.mem_cons.1 hm).resolve_right hl

/-- A slot that no entry names is empty, with no key that waits. -/
theorem next_of_unlisted {s : State} {i : Nat} (h : i ∉ s.sgr.slots.map (·.1)) : (getSlot s i).next = none := by
  have hnone : ∀ t : Tab KSlot, i ∉ t.map (·.1) → tget t i = none := by
    intro t
    induction t with
    | nil => exact fun _ => rfl
    | cons p t ih =>
      intro hp
      rw [List.map_cons, List.mem_cons, not_or] at hp
      rw [tget, if_neg (Ne.symm hp.1)]
      exact ih hp.2
  have hdef : tgetD s.sgr.slots i Init.kslot = Init.kslot := by rw [tgetD, hnone _ h]; rfl
  rw [getSlot, hdef]
  split <;> rfl

/-- The Saggar's block without the cache and the count of the generator's requests. -/
def keysOf (s : State) : Sgr := { s.sgr with cache := [], reqs := 0 }

/-- One entry of the COIL cache wedged, in both its keys. -/
def wedgeEntry (t : State) (p : Nat × Share × Share) : State :=
  let d := wedge p.2.1 t
  let u := wedge p.2.2 d.2
  { u.2 with sgr.cache := tput u.2.sgr.cache p.1 (d.1, u.1) }

theorem wedgeCache_eq (s : State) : wedgeCache s = s.sgr.cache.foldl wedgeEntry s := rfl

/-- The wedges of the cache leave every slot and the root copies. -/
theorem keysOf_wedgeCache (s : State) : keysOf (wedgeCache s) = keysOf s := by
  rw [wedgeCache_eq]
  exact foldl_kept (f := keysOf) (g := wedgeEntry) (fun _ _ => rfl) s.sgr.cache s

theorem getSlot_of_keysOf {s t : State} (h : keysOf t = keysOf s) (hc : t.coil = s.coil) (i : Nat) : getSlot t i = getSlot s i := by
  have hslots : (keysOf t).slots = (keysOf s).slots := by rw [h]
  have hdn : (keysOf t).dnMark = (keysOf s).dnMark := by rw [h]
  have hup : (keysOf t).upMark = (keysOf s).upMark := by rw [h]
  simp only [keysOf] at hslots hdn hup
  simp only [getSlot, usedSince, hslots, hdn, hup, hc]
  rfl

theorem newestRoot_of_keysOf {s t : State} (h : keysOf t = keysOf s) : newestRoot t = newestRoot s := by
  have ha : (keysOf t).rootA = (keysOf s).rootA := by rw [h]
  have hb : (keysOf t).rootB = (keysOf s).rootB := by rw [h]
  simp only [keysOf] at ha hb
  simp only [newestRoot, ha, hb]

theorem coil_wedgeCache (s : State) : (wedgeCache s).coil = s.coil :=
  same_coil (@hide_wedgeCache { free := true, sgr := true } ⟨rfl⟩ ⟨rfl⟩ s) rfl

theorem getSlot_wedgeRoot (s : State) : getSlot (wedgeRoot s) = getSlot s := by
  unfold wedgeRoot
  split
  · rfl
  · unfold writeRoot
    dsimp only
    split <;> rfl

theorem newestRoot_wedgeSlots (l : List Nat) (s : State) : newestRoot (wedgeSlots l s) = newestRoot s :=
  foldl_kept (f := newestRoot) (fun t i => by unfold wedgeSlot; split <;> rfl) l s

theorem seqNewer_succ (g : W32) : seqNewer (g + 1) g = true ∧ seqNewer g (g + 1) = false := by
  have h1 : g + 1 - g = 1 := by bv_omega
  have h2 : g - (g + 1) = 0xFFFFFFFF := by bv_omega
  simp only [seqNewer, h1, h2]
  decide

/-- The newest root stands in the copy it names, which is valid. -/
theorem newestRoot_copy {s : State} {r : RootCopy} {b : Bool} (h : newestRoot s = some (r, b)) :
    (if b then s.sgr.rootA else s.sgr.rootB) = r ∧ r.ok = true := by
  unfold newestRoot at h
  dsimp only at h
  split at h
  · rename_i hok
    rw [Bool.and_eq_true] at hok
    split at h <;> cases h
    · exact ⟨rfl, hok.2⟩
    · exact ⟨rfl, hok.1⟩
  · split at h
    · cases h
      exact ⟨rfl, ‹_›⟩
    · split at h <;> cases h
      exact ⟨rfl, ‹_›⟩

/-- A root written is the newest, in the other copy under the next generation (R428). -/
theorem newestRoot_writeRoot {s : State} {r : RootCopy} {b : Bool} (h : newestRoot s = some (r, b)) (x : Share)
    (kcv : List Byte) : newestRoot (writeRoot x kcv s) = some (⟨x, r.gen + 1, kcv, true⟩, !b) := by
  obtain ⟨hcopy, hok⟩ := newestRoot_copy h
  obtain ⟨hnew, hold⟩ := seqNewer_succ r.gen
  cases b with
  | true =>
    rw [if_pos rfl] at hcopy
    rw [writeRoot, h]
    simp only [newestRoot, hcopy, hok, Bool.and_self, if_true, hnew, Bool.not_true]
  | false =>
    rw [if_neg Bool.false_ne_true] at hcopy
    rw [writeRoot, h]
    simp only [newestRoot, hcopy, hok, Bool.and_self, if_true, hold, Bool.not_false, Bool.false_eq_true, if_false]

/-- The wedge of the root keeps its key and writes the older copy under the next generation (R431). -/
theorem newestRoot_wedgeRoot {s : State} {r : RootCopy} {b : Bool} (h : newestRoot s = some (r, b)) (hp : Share.Paired r.share) :
    ∃ r', newestRoot (wedgeRoot s) = some (r', !b) ∧ r'.share.key = r.share.key ∧ r'.gen = r.gen + 1 ∧ r'.kcv = r.kcv := by
  have hdrawn : newestRoot (wedge r.share s).2 = some (r, b) := h
  refine ⟨⟨(wedge r.share s).1, r.gen + 1, r.kcv, true⟩, ?_, (wedge_spec r.share s hp).1, rfl, rfl⟩
  rw [← newestRoot_writeRoot hdrawn]
  simp only [wedgeRoot, h]

/-- The state after a wedge pass, its count aside (R431). -/
def wedged (s : State) : State := wedgeRoot (wedgeCache (wedgeSlots (s.sgr.slots.map (·.1)) s))

theorem hide_wedged (s : State) : hide { free := true, sgr := true } (wedged s) = hide { free := true, sgr := true } s := by
  have hslots : hide { free := true, sgr := true } (wedgeSlots (s.sgr.slots.map (·.1)) s) = hide { free := true, sgr := true } s :=
    foldl_kept (fun t i => @hide_wedgeSlot { free := true, sgr := true } ⟨rfl⟩ ⟨rfl⟩ i t) _ s
  exact (@hide_wedgeRoot { free := true, sgr := true } ⟨rfl⟩ ⟨rfl⟩ _).trans
    ((@hide_wedgeCache { free := true, sgr := true } ⟨rfl⟩ ⟨rfl⟩ _).trans hslots)

theorem getSlot_wedged (s : State) (i : Nat) : getSlot (wedged s) i = getSlot (wedgeSlots (s.sgr.slots.map (·.1)) s) i :=
  (congrFun (getSlot_wedgeRoot _) i).trans (getSlot_of_keysOf (keysOf_wedgeCache _) (coil_wedgeCache _) i)

/-- After a pass every slot holds its key, and none waits. -/
theorem wedged_slot {s : State} (ht : s.sgr.trngOk = true) (i : Nat) (hp : Share.Paired (getSlot s i).taken.key) :
    (getSlot (wedged s) i).key.key = (getSlot s i).taken.key.key ∧ (getSlot (wedged s) i).st = (getSlot s i).taken.st ∧
    (getSlot (wedged s) i).gen = (getSlot s i).taken.gen ∧ (getSlot (wedged s) i).next = none := by
  have hnext : (getSlot (wedgeSlots (s.sgr.slots.map (·.1)) s) i).next = none := by
    refine next_wedgeSlots _ ht ?_
    by_cases hm : i ∈ s.sgr.slots.map (·.1)
    · exact .inl hm
    · exact .inr (next_of_unlisted hm)
  obtain ⟨hkey, hst, hgen, -⟩ := holdsKey_wedgeSlots (s.sgr.slots.map (·.1)) (⟨rfl, rfl, rfl, hp⟩ : HoldsKey (getSlot s i).taken s i)
  rw [taken_of_next hnext] at hkey hst hgen
  rw [getSlot_wedged]
  exact ⟨hkey, hst, hgen, hnext⟩

theorem passes_wedged (s : State) : (wedged s).sgr.passes = s.sgr.passes := by
  have hroot : ∀ t : State, (wedgeRoot t).sgr.passes = t.sgr.passes := fun t => by
    unfold wedgeRoot
    split
    · rfl
    · unfold writeRoot
      dsimp only
      split <;> rfl
  have hcache : ∀ t : State, (wedgeCache t).sgr.passes = t.sgr.passes := fun t => by
    have h : (keysOf (wedgeCache t)).passes = (keysOf t).passes := congrArg Sgr.passes (keysOf_wedgeCache t)
    exact h
  have hslots : (wedgeSlots (s.sgr.slots.map (·.1)) s).sgr.passes = s.sgr.passes :=
    foldl_kept (f := fun t => t.sgr.passes) (fun t i => by unfold wedgeSlot; split <;> rfl) _ s
  rw [wedged, hroot, hcache, hslots]

/-! ### Inversion, rewrapping and the generator -/

/-- An inversion in backup changes the shares of the newest root copy alone, and no key (R431). -/
theorem ends_rootInvert {s : State} (hs : s.boot.st = .backup) : ends (execRootInvert s) (fun t =>
    t.sgr.rootA.share.key = s.sgr.rootA.share.key ∧ t.sgr.rootB.share.key = s.sgr.rootB.share.key ∧
    (∀ r b, newestRoot s = some (r, b) → (if b then t.sgr.rootA else t.sgr.rootB).share = ⟨invB r.share.v, invB r.share.m⟩) ∧
    t = { s with sgr := t.sgr }) := by
  have hst : (s.boot.st != .backup) = false := by rw [hs]; rfl
  cases h : newestRoot s with
  | none =>
    refine ends_of (t := s) (by simp only [execRootInvert, hst, h, Bool.false_eq_true, if_false])
      ⟨rfl, rfl, fun r b hr => ?_, rfl⟩
    cases hr
  | some p =>
    obtain ⟨r, b⟩ := p
    obtain ⟨hcopy, -⟩ := newestRoot_copy h
    cases b with
    | true =>
      rw [if_pos rfl] at hcopy
      refine ends_of (t := { s with sgr.rootA := { r with share := ⟨invB r.share.v, invB r.share.m⟩ } })
        (by simp only [execRootInvert, hst, h, Bool.false_eq_true, if_false]) ⟨?_, rfl, fun r' b' hr => ?_, rfl⟩
      · rw [hcopy]
        exact key_invB r.share
      · cases hr
        rfl
    | false =>
      rw [if_neg Bool.false_ne_true] at hcopy
      refine ends_of (t := { s with sgr.rootB := { r with share := ⟨invB r.share.v, invB r.share.m⟩ } })
        (by simp only [execRootInvert, hst, h, Bool.false_eq_true, if_false]) ⟨rfl, ?_, fun r' b' hr => ?_, rfl⟩
      · rw [hcopy]
        exact key_invB r.share
      · cases hr
        rfl

/-- Slot 3 has no record of its own. -/
theorem ne_three_of_slotNums {i : Nat} (h : slotNums.contains i = true) : 3 ≠ i := by
  rintro rfl
  exact absurd h (by decide)

theorem getSlot_wedgeSlot_ne {i j : Nat} (h : j ≠ i) (s : State) : getSlot (wedgeSlot j s) i = getSlot s i := by
  unfold wedgeSlot
  split
  · rfl
  · exact getSlot_setSlot_ne _ _ _ _ h

/-- A rewrapped slot keeps its key under the next generation, with its record in a commit group (R432). -/
theorem ends_slotRewrap {i : Nat} {s : State} (hi : slotNums.contains i = true) (hw : (wrapRoot s).isSome = true)
    (hst : (getSlot s i).taken.st = 1) (hnew : (newestKey s i).2 = (getSlot s i).taken.gen) (ht : s.sgr.trngOk = true)
    (hg : gasped s = false) : ends (execSlotRewrap i s) (fun t =>
      getSlot t i = { (getSlot s i).taken with gen := (getSlot s i).taken.gen + 1 } ∧
      t.nvs.groups.length = s.nvs.groups.length + 1 ∧ t.nvs.recs = s.nvs.recs) := by
  obtain ⟨⟨kcv, kst⟩, hroot⟩ := Option.isSome_iff_exists.1 hw
  simp only [execSlotRewrap, hroot, hst, hi, ht, hg, hnew, beq_self_eq_true, Bool.not_false, Bool.and_self, if_true]
  refine ends_of rfl ?_
  generalize hu : setSlot i _ (slotPayload i _ _ kcv kst _ s).2 = u
  have hnvs : (wedgeSlot 3 u).nvs = s.nvs := by
    rw [same_nvs (@hide_wedgeSlot { free := true, sgr := true } ⟨rfl⟩ ⟨rfl⟩ 3 u) rfl rfl, ← hu]
    rfl
  have hrecs : (wedgeSlot 3 u).nvs.recs = s.nvs.recs := congrArg Nvs.recs hnvs
  refine ⟨?_, ?_, hrecs⟩
  · refine (getSlot_wedgeSlot_ne (ne_three_of_slotNums hi) u).trans ?_
    rw [← hu]
    exact getSlot_setSlot_settled i _ (taken_next _)
  · show ((wedgeSlot 3 u).nvs.groups ++ [_]).length = _
    rw [hnvs, List.length_append]
    rfl

theorem execSlotRewrap_idle {i : Nat} {s : State} (h : wrapRoot s = none ∨ (getSlot s i).taken.st ≠ 1 ∨ s.sgr.trngOk = false ∨
    gasped s = true) : execSlotRewrap i s = .next s := by
  unfold execSlotRewrap
  dsimp only
  cases hroot : wrapRoot s with
  | none => rfl
  | some p =>
    have hgate : ((getSlot s i).taken.st == 1 && slotNums.contains i && s.sgr.trngOk && !gasped s &&
        (newestKey s i).2 == (getSlot s i).taken.gen) = false := by
      rcases h with h | h | h | h
      · rw [hroot] at h; cases h
      · rw [beq_eq_false_iff_ne.2 h]; rfl
      · rw [h, Bool.and_false]; rfl
      · rw [h, Bool.not_true, Bool.and_false, Bool.false_and]
    dsimp only
    rw [hgate]
    rfl

/-- A failed TRNG stops the DRBG and is raised (R422). -/
theorem ends_trngHealthFail {s : State} (hr : running s = true) (hl : bit (getBlk s 13).flive 0 = false) :
    ends (execTrngHealthFail s) (fun t =>
      t.sgr.trngOk = false ∧ latched 13 0 t ∧ bit (getBlk t 13).flive 0 = true) := by
  have hk := hide_raiseLive_mild (b := 13) (i := 0) (by decide) { s with sgr.trngOk := false }
  exact ends_of (t := raiseLive 13 0 { s with sgr.trngOk := false }) (by simp only [execTrngHealthFail, hr, if_true])
    ⟨congrArg Sgr.trngOk (same_sgr hk rfl), latched_raiseLive _ rfl hl, flive_raiseLive 13 0 _ (by decide)⟩

/-- A restart reseeds the DRBG and ends its fault (R422, R466). -/
theorem ends_trngRestartDone {s : State} (hl : bit (getBlk s 13).flive 0 = true) : ends (execTrngRestartDone s) (fun t =>
    t.sgr.trngOk = true ∧ t.sgr.reqs = 0 ∧ bit (getBlk t 13).flive 0 = false ∧ (getSrc t 13 0).severe = none) := by
  have hk := hide_resolve_fallLive 13 0 { s with sgr.trngOk := true, sgr.reqs := 0, free := s.free + 1 }
  exact ends_of (t := resolve 13 0 (fallLive 13 0 { s with sgr.trngOk := true, sgr.reqs := 0, free := s.free + 1 }))
    (by simp only [execTrngRestartDone, hl, if_true])
    ⟨congrArg Sgr.trngOk (same_sgr hk rfl), congrArg Sgr.reqs (same_sgr hk rfl), flive_resolve_fallLive 13 0 _ (by decide),
      severe_resolve 13 0 _⟩

/-- Settles O59: a wedge XORs one random into both shares, so every pass, slot by slot, keeps the keys; the root goes to its
other copy under the next generation. -/
theorem keysKeepTheirValue : Obligations.KeysKeepTheirValue := by
  intro s
  refine ⟨fun ht hp => ?_, fun ht => ⟨?_, ?_⟩, ends_rootInvert, fun hs => ?_,
    fun i hi hw hst hnew ht hg => ends_slotRewrap hi hw hst hnew ht hg, fun i h => execSlotRewrap_idle h,
    ends_trngHealthFail, fun hr hl => ?_, fun hr => ?_, ends_trngRestartDone, fun hl => ?_, fun ht => ?_⟩
  · refine ends_of (t := { wedged s with sgr.passes := (wedged s).sgr.passes + 1 }) ?_ ⟨?_, ?_, fun i => ?_, fun r b hr hrp => ?_⟩
    · simp only [exec, execWedgePass, ht, Bool.not_true, Bool.false_eq_true, if_false]
      rfl
    · exact congrArg (· + 1) (passes_wedged s)
    · exact same_nvs (hide_wedged s) rfl rfl
    · exact wedged_slot ht i (hp i)
    · refine newestRoot_wedgeRoot ?_ hrp
      rw [newestRoot_of_keysOf (keysOf_wedgeCache _), newestRoot_wedgeSlots]
      exact hr
  · simp only [exec, execWedgePass, ht, Bool.not_false, if_true]
  · simp only [exec, execDrbgReseed, ht, Bool.false_eq_true, if_false]
  · simp only [exec, execRootInvert, bne_iff_ne.2 hs, if_true]
  · have hlive : bit (getBlk { s with sgr.trngOk := false } 13).flive 0 = true := hl
    simp only [exec, execTrngHealthFail, hr, if_true, raiseLive, hlive]
  · simp only [exec, execTrngHealthFail, hr, Bool.false_eq_true, if_false]
  · simp only [exec, execTrngRestartDone, hl, Bool.false_eq_true, if_false]
  · simp only [exec, execDrbgReseed, ht, if_true]

end Sys2Proof.Proofs

namespace Sys2Proof.Proofs
open Sys2Proof Sys2Proof.Machine Sys2Proof.Laws

/-! ### What leaves the manager's record of its rings -/

theorem getCRing_rings {s t : State} (h : t.coil.rings = s.coil.rings) (k : Nat) : getCRing t k = getCRing s k := by
  rw [getCRing, h]; rfl

theorem getEnt_rings {s t : State} (h : t.coil.rings = s.coil.rings) (k pos : Nat) : getEnt t k pos = getEnt s k pos := by
  rw [getEnt, getCRing_rings h]; rfl

theorem getEnt_setEnt (k pos : Nat) (e : WEnt) (s : State) : getEnt (setEnt k pos e s) k pos = e := by
  rw [getEnt, setEnt, getCRing_setCRing, tgetD_tput_self]

/-- A raise leaves the rings: on a worker a record waits in the worker's own queues. -/
theorem raiseView_rings : RaiseView (fun s => s.coil.rings) where
  blk _ _ _ _ := rfl
  seq _ _ := rfl
  enq r q t := by
    unfold enqRaw
    extract_lets
    repeat' split
    all_goals rfl
  vec v t := by
    unfold sendVector
    repeat' split
    all_goals rfl
  event _ _ _ _ := rfl
  ring _ _ _ := rfl

theorem rings_raise {b i : Nat} (hc : srcClass b i ≠ some .grave) (s : State) : (raise b i s).coil.rings = s.coil.rings :=
  raiseView_rings.raise_mild hc s

theorem rings_complete (w : Waiter) (st : W16) (q : W32) (d : List Byte) (s : State) :
    (complete w st q d s).coil.rings = s.coil.rings := by
  unfold complete
  split
  · rfl
  · split
    · unfold sendUp
      split <;> rfl
    · rfl

theorem rings_waitReq (w : Waiter) (s : State) : (waitReq w s).coil.rings = s.coil.rings :=
  congrArg Coil.rings (same_coil (hide_waitReq_own w s) rfl)

theorem rings_sendDown (k pos cls typ : Nat) (b : List Byte) (s : State) : (sendDown k pos cls typ b s).coil.rings = s.coil.rings := by
  unfold sendDown
  split <;> rfl

theorem rings_forward (w : Waiter) (k pos : Nat) (b : List Byte) (s : State) : (forward w k pos b s).coil.rings = s.coil.rings := by
  unfold forward
  split
  · exact rings_complete ..
  · exact (rings_sendDown ..).trans (rings_waitReq ..)

theorem rings_completeAll (st : W16) (l : List Waiter) (s : State) :
    (l.foldl (fun t w => complete w st 0 [] t) s).coil.rings = s.coil.rings :=
  foldl_kept (f := fun t => t.coil.rings) (fun _ _ => rings_complete ..) l s

theorem rings_setRates (s : State) : (setRates s).coil.rings = s.coil.rings := rfl

theorem rings_leaveEnum (k pos : Nat) (s : State) : (leaveEnum k pos s).coil.rings = s.coil.rings := by
  unfold leaveEnum
  generalize List.partition _ s.hif.fwd = parts
  exact foldl_kept (f := fun t => t.coil.rings) (fun _ _ => rings_complete ..) parts.1 _

theorem rings_admitSub (k : Nat) (s : State) (x : Nat × Nat × SubEnt) : (admitSub k s x).coil.rings = s.coil.rings := by
  unfold admitSub
  dsimp only
  split
  · exact rings_forward ..
  · rfl

theorem rings_admitRing (k : Nat) (ps : List Nat) (s : State) : (admitRing k ps s).coil.rings = s.coil.rings :=
  foldl_kept (f := fun t => t.coil.rings) (fun t x => rings_admitSub k t x) _ _

theorem rings_ownWrite (key : Nat) (v : NvVal) (pages : Nat) (s : State) : (ownWrite key v pages s).coil.rings = s.coil.rings :=
  congrArg Coil.rings (same_coil (@hide_ownWrite { nvs := true } ⟨rfl⟩ key v pages s) rfl)

/-- A latched source stands where the fault block does. -/
theorem latched_flt {s t : State} {b i : Nat} (h : t.flt = s.flt) (hl : latched b i s) : latched b i t := by
  rw [latched, getBlk_flt h]
  exact hl

/-! ### The course of an enumeration -/

/-- A ring's record when its enumeration starts (R376). -/
def enumStarted (slot : Nat) (c : CRing) : CRing :=
  { c with
    enumerating := true, enumStart := slot, found := 0, hellos := [], refused := []
    renumber := c.table.isEmpty && c.down.isEmpty
    ents := c.ents.map (fun p => (p.1, { p.2 with chal := ([] : List Byte) })) }

theorem getCRing_startEnum (k : Nat) (s : State) : getCRing (startEnum k s) k = enumStarted s.slot (getCRing s k) := by
  unfold startEnum
  extract_lets c ents s1 s2
  have h2 : s2.coil.rings = s1.coil.rings := by
    unfold s2
    split <;> rfl
  have h1 : getCRing s1 k = enumStarted s.slot c := getCRing_setCRing ..
  split
  · rw [getCRing_rings h2, h1]
  · refine (getCRing_rings (s := s2) rfl k).trans ?_
    rw [getCRing_rings h2, h1]

theorem hide_startEnum_own (k : Nat) (s : State) : hide { out := true, coil := true } (startEnum k s) =
    hide { out := true, coil := true } s := @hide_startEnum { out := true, coil := true } ⟨rfl⟩ ⟨rfl⟩ k s

/-- The start of an enumeration keeps each position's state. -/
theorem state_startEnum (k pos : Nat) (s : State) : (getEnt (startEnum k s) k pos).state = (getEnt s k pos).state := by
  have hmap : ∀ t : Tab WEnt, (tgetD (t.map (fun p => (p.1, { p.2 with chal := ([] : List Byte) }))) pos Init.went).state =
      (tgetD t pos Init.went).state := by
    intro t
    induction t with
    | nil => rfl
    | cons p t ih =>
      simp only [tgetD, List.map_cons, tget] at ih ⊢
      split
      · rfl
      · exact ih
  rw [getEnt, getCRing_startEnum]
  exact hmap _

/-- The blocks that the settling of a ring's entries changes. -/
def settleBlocks : Mask := { out := true, hif := true, coil := true, pq := true }

theorem hide_settleEnts (k : Nat) (l : Tab W64) (s : State) :
    hide settleBlocks (l.foldl (settleEnt k) s) = hide settleBlocks s :=
  foldl_kept (fun t p => @hide_settleEnt settleBlocks ⟨rfl⟩ ⟨rfl⟩ ⟨rfl⟩ ⟨rfl⟩ k t p) l s

/-- The end of an enumeration settles the ring, whose waiting requests complete (R378, R392). -/
theorem ends_enumerationEnd {k : Nat} {s : State} (hk : k < 4) (hm : isManager s = true)
    (he : (getCRing s k).enumerating = true) : ends (execEnumerationEnd k s) (fun t =>
      (getCRing t k).enumerating = false ∧ (getCRing t k).enumWaits = [] ∧ t.nvs.recs = s.nvs.recs) := by
  have hw : isWorker s = false := by
    rw [isManager, beq_iff_eq] at hm
    rw [isWorker, hm]; rfl
  have hgate : (decide (k ≥ 4) || !isManager s || !(getCRing s k).enumerating) = false := by
    rw [hm, he, decide_eq_false (by omega)]; rfl
  rw [execEnumerationEnd, if_neg (by rw [hw]; decide), if_neg (by rw [hgate]; decide)]
  extract_lets c s1 c1 foreign s2 s3 ps s4 s5 expect s6
  have h1 := hide_settleEnts k c.table s
  have h2 : getCRing s2 k = { c1 with enumerating := false, renumber := false, enumWaits := [] } := getCRing_setCRing ..
  have h3 : s3.coil.rings = s2.coil.rings ∧ s3.nvs.recs = s2.nvs.recs := by
    unfold s3
    split
    · exact ⟨rings_ownWrite .., same_recs (@hide_ownWrite { nvs := true } ⟨rfl⟩ _ _ _ s2) rfl⟩
    · exact ⟨rfl, rfl⟩
  have h5 : s5.coil.rings = s3.coil.rings ∧ s5.nvs.recs = s3.nvs.recs := by
    have h4 := @hide_admitRing { settleBlocks with nvs := true } ⟨rfl⟩ ⟨rfl⟩ ⟨rfl⟩ ⟨rfl⟩ ⟨rfl⟩ k ps s3
    exact ⟨rings_admitRing k ps s3, same_recs h4 rfl⟩
  have h6 : s6.coil.rings = s5.coil.rings ∧ s6.nvs.recs = s5.nvs.recs := by
    unfold s6
    split
    · exact ⟨rings_raise (by decide) s5, same_recs (hide_raise_mild (b := 12) (i := 5) (by decide) s5) rfl⟩
    · exact ⟨rfl, rfl⟩
  have hrings : (c.enumWaits.foldl (fun t w => complete w statusOk 0 [] t) s6).coil.rings = s2.coil.rings :=
    (rings_completeAll statusOk c.enumWaits s6).trans (h6.1.trans (h5.1.trans h3.1))
  have hrecs : (c.enumWaits.foldl (fun t w => complete w statusOk 0 [] t) s6).nvs.recs = s6.nvs.recs :=
    foldl_kept (f := fun t => t.nvs.recs) (fun t w => same_recs (hide_complete_own w statusOk 0 [] t) rfl) c.enumWaits s6
  refine ends_of rfl ?_
  rw [getCRing_rings hrings, h2, hrecs, h6.2, h5.2, h3.2]
  exact ⟨rfl, rfl, (same_recs h1 rfl :)⟩

end Sys2Proof.Proofs

namespace Sys2Proof.Proofs
open Sys2Proof Sys2Proof.Machine Sys2Proof.Laws

/-! ### HELLO at the manager -/

theorem isWorker_of_isManager {s : State} (h : isManager s = true) : isWorker s = false := by
  rw [isManager, beq_iff_eq] at h
  rw [isWorker, h]; rfl

/-- What an image broadcast, where one is due, leaves before a HELLO is mapped. -/
def helloBase (f : Frame) (h : Hello) (s : State) : State := if h.boot == 5 then broadcast f.ring s else s

theorem helloBase_spec (f : Frame) (h : Hello) (s : State) : ∃ l,
    getCRing (helloBase f h s) f.ring = { getCRing s f.ring with lastCast := l } ∧ (helloBase f h s).sgr = s.sgr := by
  have hcast : ∃ l, getCRing (broadcast f.ring s) f.ring = { getCRing s f.ring with lastCast := l } := by
    unfold broadcast
    extract_lets c port
    split
    · exact ⟨c.lastCast, rfl⟩
    · refine ⟨some s.slot, ?_⟩
      have hframes : ∀ (fs : List (List Byte)) (u : State),
          (fs.foldl (fun t p => emit (.frame (plainFrame port 3 1 false 0xFF 0 f.ring p)) t) u).coil.rings = u.coil.rings :=
        fun fs u => foldl_kept (f := fun t => t.coil.rings) (fun t _ => (rfl : (emit _ t).coil.rings = t.coil.rings)) fs u
      rw [getCRing_rings (hframes _ _), getCRing_setCRing]
  unfold helloBase
  split
  · obtain ⟨l, hl⟩ := hcast
    exact ⟨l, hl, same_sgr (@hide_broadcast { out := true, coil := true } ⟨rfl⟩ ⟨rfl⟩ f.ring s) rfl⟩
  · exact ⟨(getCRing s f.ring).lastCast, rfl, rfl⟩

section MapHello
variable {k : Nat} {h : Hello} {s : State} (hnew : (getCRing s k).hellos.any (fun x => x.ident == h.ident) = false)
  (href : (getCRing s k).refused.contains h.ident = false) (hhop : ((getCRing s k).renumber && h.hopCw == 0xFF) = false)
  (ht : s.sgr.trngOk = true)
include hnew href hhop ht

/-- Nothing keeps such a HELLO from being mapped. -/
theorem mapHello_gate : ((getCRing s k).hellos.any (fun x => x.ident == h.ident) || (getCRing s k).refused.contains h.ident ||
    ((getCRing s k).renumber && h.hopCw == 0xFF) || !s.sgr.trngOk) = false := by
  rw [hnew, href, hhop, ht]; rfl

/-- A HELLO with a position: its entry, answered by ASSIGN (R376, R378). -/
theorem mapHello_known {pos : Nat} (hp : posOf (getCRing s k) h = some pos) :
    tget (getCRing (mapHello k h s) k).table pos = some h.ident ∧
    (getCRing (mapHello k h s) k).hellos = (getCRing s k).hellos ++ [h] ∧ (getEnt (mapHello k h s) k pos).ident = h.ident := by
  unfold mapHello
  simp only [mapHello_gate hnew href hhop ht, hp, Bool.false_eq_true, if_false]
  generalize hs2 : setCRing k _ (drawRandom 16 s).2 = s2
  have hkeys : (deriveKeys k pos h.ident s2).coil.rings = s2.coil.rings := congrArg Coil.rings
    (same_coil (@hide_deriveKeys { free := true, sgr := true } ⟨rfl⟩ ⟨rfl⟩ k pos h.ident s2) rfl)
  generalize deriveKeys k pos h.ident s2 = s3 at hkeys
  have hring : ∀ t : State, t.coil.rings = s2.coil.rings → tget (getCRing t k).table pos = some h.ident ∧
      (getCRing t k).hellos = (getCRing s k).hellos ++ [h] ∧ (getEnt t k pos).ident = h.ident := fun t hrt => by
    rw [getEnt_rings hrt, getCRing_rings hrt, getEnt, ← hs2, getCRing_setCRing]
    exact ⟨tget_tput_self .., rfl, by rw [tgetD_tput_self]⟩
  split
  · exact hring _ hkeys
  · exact hring _ hkeys

/-- A HELLO of an unknown worker is FOREIGN: refused and raised (R378). -/
theorem mapHello_foreign (hp : posOf (getCRing s k) h = none) : mapHello k h s =
    raise 12 4 (setCRing k { getCRing s k with refused := (getCRing s k).refused ++ [h.ident] } s) := by
  simp only [mapHello, mapHello_gate hnew href hhop ht, hp, Bool.false_eq_true, if_false]

end MapHello

section HelloFrame
variable {f : Frame} {h : Hello} {s : State} (hf : forManager s f = true) (hcls : f.cls = 0) (htyp : f.typ = 4)
  (hbad : frameBad f = false)
include hf hcls htyp hbad

/-- A good HELLO for the manager: mapped during an enumeration, else what it may start (R376, R377). -/
theorem execHelloFrame_good : execHelloFrame f h s = .next (if (getCRing s f.ring).enumerating then
      (if h.hopCw == 0xFF && h.hopCcw == 0xFF then helloBase f h s else mapHello f.ring h (helloBase f h s))
    else if f.src == 0xFE && !(getCRing s f.ring).refused.contains h.ident &&
        ((getCRing s f.ring).enumStart == 0 || decide (s.slot - (getCRing s f.ring).enumStart ≥ 100 * msSlots)) then
      startEnum f.ring (helloBase f h s)
    else helloBase f h s) := by
  have hgate : (!forManager s f || f.cls != 0 || f.typ != 4) = false := by rw [hf, hcls, htyp]; rfl
  simp only [execHelloFrame, hgate, hbad, Bool.false_eq_true, if_false]
  rfl

theorem execHelloFrame_maps (he : (getCRing s f.ring).enumerating = true)
    (hhop : h.hopCw ≠ 0xFF ∨ h.hopCcw ≠ 0xFF ∧ (getCRing s f.ring).renumber = false) :
    execHelloFrame f h s = .next (mapHello f.ring h (helloBase f h s)) := by
  have hboth : (h.hopCw == 0xFF && h.hopCcw == 0xFF) = false := by
    rcases hhop with h1 | ⟨h1, -⟩
    · rw [beq_eq_false_iff_ne.2 h1]; rfl
    · rw [beq_eq_false_iff_ne.2 h1, Bool.and_false]
  rw [execHelloFrame_good hf hcls htyp hbad, if_pos he, hboth, if_neg Bool.false_ne_true]

/-- A HELLO during an enumeration (R376, R378). -/
theorem ends_helloFrame (he : (getCRing s f.ring).enumerating = true)
    (hhop : h.hopCw ≠ 0xFF ∨ h.hopCcw ≠ 0xFF ∧ (getCRing s f.ring).renumber = false)
    (hnew : (getCRing s f.ring).hellos.any (fun x => x.ident == h.ident) = false)
    (href : (getCRing s f.ring).refused.contains h.ident = false) (ht : s.sgr.trngOk = true) :
    (∀ pos, posOf (getCRing s f.ring) h = some pos → ends (execHelloFrame f h s) (fun t =>
      tget (getCRing t f.ring).table pos = some h.ident ∧ (getCRing t f.ring).hellos = (getCRing s f.ring).hellos ++ [h] ∧
      (getEnt t f.ring pos).ident = h.ident)) ∧
    (posOf (getCRing s f.ring) h = none → ends (execHelloFrame f h s) (fun t =>
      (getCRing t f.ring).table = (getCRing s f.ring).table ∧ (getCRing t f.ring).hellos = (getCRing s f.ring).hellos ∧
      (getCRing t f.ring).refused = (getCRing s f.ring).refused ++ [h.ident] ∧ latched 12 4 t)) := by
  have hex := execHelloFrame_maps hf hcls htyp hbad he hhop
  have hcw : ((getCRing s f.ring).renumber && h.hopCw == 0xFF) = false := by
    rcases hhop with h1 | ⟨-, h1⟩
    · rw [beq_eq_false_iff_ne.2 h1, Bool.and_false]
    · rw [h1]; rfl
  obtain ⟨l, hbase, hsgr⟩ := helloBase_spec f h s
  have ht' : (helloBase f h s).sgr.trngOk = true := by rw [hsgr, ht]
  generalize helloBase f h s = u at hex hbase ht'
  refine ⟨fun pos hp => ends_of hex ?_, fun hp => ends_of hex ?_⟩
  · have hmap := mapHello_known (s := u) (k := f.ring) (h := h) (by rw [hbase]; exact hnew) (by rw [hbase]; exact href)
      (by rw [hbase]; exact hcw) ht' (pos := pos) (by rw [hbase]; exact hp)
    rw [hbase] at hmap
    exact hmap
  · have hmap := mapHello_foreign (s := u) (k := f.ring) (h := h) (by rw [hbase]; exact hnew) (by rw [hbase]; exact href)
      (by rw [hbase]; exact hcw) ht' (by rw [hbase]; exact hp)
    rw [hmap]
    refine ⟨?_, ?_, ?_, latched_raise _ rfl⟩
    all_goals rw [getCRing_rings (rings_raise (by decide) _), getCRing_setCRing, hbase]

/-- A HELLO of an unassigned worker outside an enumeration starts one (R377). -/
theorem ends_helloFrame_starts (he : (getCRing s f.ring).enumerating = false) (hsrc : f.src = 0xFE)
    (href : (getCRing s f.ring).refused.contains h.ident = false)
    (hlast : (getCRing s f.ring).enumStart = 0 ∨ 100 * msSlots ≤ s.slot - (getCRing s f.ring).enumStart) :
    ends (execHelloFrame f h s) (fun t =>
      (getCRing t f.ring).enumerating = true ∧ (getCRing t f.ring).table = (getCRing s f.ring).table) := by
  have hstart : (f.src == 0xFE && !(getCRing s f.ring).refused.contains h.ident &&
      ((getCRing s f.ring).enumStart == 0 || decide (s.slot - (getCRing s f.ring).enumStart ≥ 100 * msSlots))) = true := by
    rw [hsrc, href]
    rcases hlast with h1 | h1
    · rw [h1]; rfl
    · rw [decide_eq_true h1, Bool.or_true]; rfl
  have hex := execHelloFrame_good (h := h) hf hcls htyp hbad
  rw [if_neg (by rw [he]; decide), if_pos hstart] at hex
  obtain ⟨l, hbase, -⟩ := helloBase_spec f h s
  refine ends_of hex ?_
  rw [getCRing_startEnum, hbase]
  exact ⟨rfl, rfl⟩

end HelloFrame

/-! ### The worker's side -/

/-- The HELLO of an unassigned worker that has its challenge (R377). -/
def ownHello (s : State) : Hello := ⟨identNum s, 0xFF, 0xFF, BitVec.ofNat 4 (bootNum s.boot.st), s.coil.w.chal⟩

theorem sendHello_ready {p : Nat} {cw ccw : Byte} {s : State} (ht : s.sgr.trngOk = true) (he : s.coil.w.enumerated = false)
    (hc : s.coil.w.chal ≠ []) : sendHello p cw ccw s =
      emit (.hello p 0xFE ⟨identNum s, cw, ccw, BitVec.ofNat 4 (bootNum s.boot.st), s.coil.w.chal⟩) s := by
  have hchal : needChal s = s := by
    unfold needChal
    rw [List.isEmpty_eq_false_iff.2 hc]
    rfl
  simp only [sendHello, ht, hchal, wSource, he, Bool.not_true, Bool.false_eq_true, if_false]

/-- HELLO_TIMER of an unassigned worker that has its challenge: a HELLO in every direction in sync (R377). -/
theorem execHelloTimer_ready {s : State} (hw : isWorker s = true) (he : s.coil.w.enumerated = false) (ht : s.sgr.trngOk = true)
    (hc : s.coil.w.chal ≠ []) : execHelloTimer s = .next (
      let u := if (getPort s 0).sync then emit (.hello 0 0xFE (ownHello s)) s else s
      if (getPort s 1).sync then emit (.hello 1 0xFE (ownHello s)) u else u) := by
  simp only [execHelloTimer, helloAll, hw, he, Bool.not_false, Bool.and_self, if_true, List.foldl_cons, List.foldl_nil]
  rw [sendHello_ready ht he hc]
  cases h0 : (getPort s 0).sync
  · simp only [Bool.false_eq_true, if_false]
    rw [sendHello_ready ht he hc]
    rfl
  · simp only [if_true]
    rw [sendHello_ready (s := emit _ s) ht he hc]
    rfl

/-- A HELLO sent leaves what the worker has noted, its challenge aside. -/
theorem sendHello_worker (p : Nat) (cw ccw : Byte) (s : State) : ∃ c, (sendHello p cw ccw s).coil.w = { s.coil.w with chal := c } := by
  unfold sendHello
  split
  · exact ⟨s.coil.w.chal, rfl⟩
  · unfold needChal
    split
    · exact ⟨(drawRandom 16 s).1, rfl⟩
    · exact ⟨s.coil.w.chal, rfl⟩

/-- A good ENUM: hop index and path delay noted (R376). -/
theorem ends_enumFrame {f : Frame} {hop : Nat} {d : W32} {s : State} (hw : isWorker s = true) (hp : f.port ≤ 1)
    (hcls : f.cls = 0) (htyp : f.typ = 1) (hbad : frameBad f = false) : ends (execEnumFrame f hop d s) (fun t =>
      (if f.port = 0 then t.coil.w.hopCw else t.coil.w.hopCcw) = BitVec.ofNat 8 (hop + 1) ∧
      (if f.port = 0 then t.coil.w.dCw else t.coil.w.dCcw) = some (d + BitVec.ofNat 32 (linkDelay s f.port)) ∧
      t.coil.w.enumerated = s.coil.w.enumerated) := by
  have hgate : (!isWorker s || decide (f.port > 1) || f.cls != 0 || f.typ != 1) = false := by
    rw [hw, hcls, htyp, decide_eq_false (by omega)]; rfl
  rw [execEnumFrame, if_neg (by rw [hgate]; decide), if_neg (by rw [hbad]; decide)]
  extract_lets h d' w _ s1 s2
  refine ends_of rfl ?_
  obtain ⟨c, hc⟩ := sendHello_worker f.port s2.coil.w.hopCw s2.coil.w.hopCcw s2
  have h2 : s2.coil.w = if f.port = 0 then { w with hopCw := h, dCw := some d' } else { w with hopCcw := h, dCcw := some d' } := rfl
  rw [hc, h2]
  by_cases h0 : f.port = 0
  · simp only [if_pos h0]
    exact ⟨rfl, rfl, rfl⟩
  · simp only [if_neg h0]
    exact ⟨rfl, rfl, rfl⟩

theorem sendStatus_worker (ch : List Byte) (s : State) : ∃ c, (sendStatus ch s).coil.w = { s.coil.w with ownCtr := c } := by
  unfold sendStatus
  split
  · exact ⟨s.coil.w.ownCtr, rfl⟩
  · exact ⟨s.coil.w.ownCtr + 1, rfl⟩

/-- An ASSIGN that authenticates and returns the worker's challenge binds it (R376). -/
theorem ends_assignFrame {f : Frame} {a : Assign} {key : List Byte} {s : State} (hw : isWorker s = true) (hcls : f.cls = 1)
    (htyp : f.typ = 2) (hbad : frameBad f = false) (hkey : slotKey s 5 = some key) (htag : tagOk key f = true)
    (hpay : f.payload = assignPayload a) (hctr : ctrAfter (frameCtr f) s.coil.w.down = true) (hc : s.coil.w.chal ≠ [])
    (ha : a.challenge = s.coil.w.chal) (hring : a.ring ≤ 3) (h1 : 1 ≤ a.pos) (h127 : a.pos ≤ 127) :
    ends (execAssignFrame f a s) (fun t =>
      t.coil.w.enumerated = true ∧ t.coil.w.ring.toNat = a.ring ∧ t.coil.w.pos.toNat = a.pos ∧ t.coil.w.chal = [] ∧
      t.coil.w.down = some (frameCtr f)) := by
  have hempty : s.coil.w.chal.isEmpty = false := List.isEmpty_eq_false_iff.2 hc
  have hmine : assignMine s f a = true := by
    rw [assignMine, hempty, ha, beq_self_eq_true]; rfl
  have hgate : (!isWorker s || f.cls != 1 || f.typ != 2 || !assignMine s f a) = false := by rw [hw, hcls, htyp, hmine]; rfl
  have hgood : (!tagOk key f || f.payload != assignPayload a) = false := by rw [htag, hpay, bne_self_eq_false]; rfl
  have hbind : (s.coil.w.chal.isEmpty || a.challenge != s.coil.w.chal || decide (a.ring > 3) || decide (a.pos < 1) ||
      decide (a.pos > 127)) = false := by
    rw [hempty, ha, bne_self_eq_false, decide_eq_false (by omega), decide_eq_false (by omega), decide_eq_false (by omega)]; rfl
  simp only [execAssignFrame, hgate, hbad, hkey, hgood, hctr, hbind, Bool.not_true, Bool.false_eq_true, if_false]
  refine ends_of rfl ?_
  generalize hu : ({ useDown s with coil.w := _ } : State) = u
  obtain ⟨c, hc⟩ := sendStatus_worker a.mgrChallenge u
  rw [hc, ← hu]
  exact ⟨rfl, Nat.mod_eq_of_lt (by omega), Nat.mod_eq_of_lt (by omega), rfl, rfl⟩

end Sys2Proof.Proofs

namespace Sys2Proof.Proofs
open Sys2Proof Sys2Proof.Machine Sys2Proof.Laws

/-! ### STATUS at the manager -/

/-- What a STATUS fixes of its worker's entry: state, D, the last counter and the challenge. -/
def statusOf (e : WEnt) : BitVec 3 × W32 × Option Ctr × List Byte := (e.state, e.d, e.last, e.chal)

theorem rings_ownCommand (k pos : Nat) (op : Byte) (b : List Byte) (s : State) :
    (ownCommand k pos op b s).coil.rings = s.coil.rings := rings_forward ..

theorem flt_ownCommand (k pos : Nat) (op : Byte) (b : List Byte) (s : State) : (ownCommand k pos op b s).flt = s.flt :=
  same_flt (@hide_ownCommand { out := true, hif := true, coil := true } ⟨rfl⟩ ⟨rfl⟩ ⟨rfl⟩ k pos op b s) rfl

theorem rings_timeStep (k pos : Nat) (x : List Byte) (step : Int) (s : State) :
    (timeStep k pos x step s).coil.rings = s.coil.rings := by
  unfold timeStep
  extract_lets s1 s2
  exact (rings_raise (by decide) s2).trans (rings_ownCommand k pos 0x38 x s)

theorem latched_timeStep {b i : Nat} (k pos : Nat) (x : List Byte) (step : Int) {s : State} (h : latched b i s) :
    latched b i (timeStep k pos x step s) := by
  unfold timeStep
  extract_lets s1 s2
  have h1 : latched b i s1 := latched_flt (flt_ownCommand k pos 0x38 x s) h
  exact fbit_raise_mono 12 6 s2 b i h1

/-- What the manager does about a worker's time leaves what its STATUS fixed, and every latched source (R383). -/
theorem discipline_kept (k pos : Nat) (st : WStatus) (s : State) :
    statusOf (getEnt (discipline k pos st s) k pos) = statusOf (getEnt s k pos) ∧
    ∀ b i, latched b i s → latched b i (discipline k pos st s) := by
  have hstep : ∀ x step, statusOf (getEnt (timeStep k pos x step s) k pos) = statusOf (getEnt s k pos) ∧
      ∀ b i, latched b i s → latched b i (timeStep k pos x step s) := fun x step =>
    ⟨congrArg statusOf (getEnt_rings (rings_timeStep ..) k pos), fun b i h => latched_timeStep k pos x step h⟩
  unfold discipline
  extract_lets e ofs o since t b
  split
  · exact ⟨rfl, fun _ _ h => h⟩
  · split
    · exact hstep _ _
    · split
      · exact hstep _ _
      · split
        · exact ⟨rfl, fun _ _ h => h⟩
        · refine ⟨?_, fun b i h => latched_flt (flt_ownCommand ..) h⟩
          rw [getEnt_rings (rings_ownCommand ..), getEnt_setEnt]
          rfl

/-- An accepted STATUS: its worker's entry follows it, and a fail-stop that is new is raised (R389). -/
theorem takeStatus_spec (k pos : Nat) (fresh : Bool) (st : WStatus) (s : State) :
    statusOf (getEnt (takeStatus k pos fresh st s) k pos) =
      (stateOf st.boot, st.d, (getEnt s k pos).last, if fresh then [] else (getEnt s k pos).chal) ∧
    (stateOf st.boot = 4 → (getEnt s k pos).state ≠ 4 → latched 12 3 (takeStatus k pos fresh st s)) := by
  unfold takeStatus
  extract_lets e n c s0 s1 s2 s3
  have h1 : statusOf (getEnt s1 k pos) = (n, st.d, e.last, if fresh then [] else e.chal) := by
    unfold s1
    rw [getEnt_setEnt]
    rfl
  have h2 : s2.coil.rings = s1.coil.rings ∧ (n = 4 → e.state ≠ 4 → latched 12 3 s2) := by
    unfold s2
    split
    · have hl := @hide_leaveEnum { out := true, hif := true, coil := true, pq := true } ⟨rfl⟩ ⟨rfl⟩ ⟨rfl⟩ ⟨rfl⟩ k pos (raise 12 3 s1)
      exact ⟨(rings_leaveEnum ..).trans (rings_raise (by decide) s1),
        fun _ _ => latched_flt (same_flt hl rfl) (latched_raise s1 rfl)⟩
    · rename_i hno
      refine ⟨rfl, fun hn he => absurd ?_ hno⟩
      rw [hn, bne_iff_ne.2 he]
      rfl
  have h3 : s3.coil.rings = s2.coil.rings ∧ s3.flt = s2.flt := by
    unfold s3
    split
    · exact ⟨rfl, rfl⟩
    · exact ⟨rfl, rfl⟩
  obtain ⟨hd, hl⟩ := discipline_kept k pos st (setRates s3)
  have hrings : (setRates s3).coil.rings = s1.coil.rings := h3.1.trans h2.1
  refine ⟨?_, fun hn he => hl 12 3 (latched_flt h3.2 (h2.2 hn he))⟩
  rw [hd, getEnt_rings hrings, h1]

/-- A STATUS without the entry's challenge, or for an entry that has none, is no fresh answer. -/
theorem not_fresh {chal sent : List Byte} (h : ¬ (chal ≠ [] ∧ sent = chal)) : (!chal.isEmpty && sent == chal) = false := by
  rw [Bool.and_eq_false_iff]
  by_cases hc : chal = []
  · rw [hc]; exact .inl rfl
  · exact .inr (beq_eq_false_iff_ne.2 fun he => h ⟨hc, he⟩)

section StatusFrame
variable {f : Frame} {st : WStatus} {key : List Byte} {s : State} (hf : forManager s f = true) (hcls : f.cls = 1)
  (htyp : f.typ = 3) (hbad : frameBad f = false) (hkey : upKey s f.ring f.src = some key) (htag : tagOk key f = true)
  (hpay : f.payload = statusPayload st) (hctr : ctrAfter (frameCtr f) (getEnt s f.ring f.src).last = true)

/-- The manager's state with a STATUS' counter and time noted. -/
def statusNoted (f : Frame) (s : State) : State :=
  setEnt f.ring f.src { getEnt s f.ring f.src with last := some (frameCtr f), heard := s.slot } s

theorem getEnt_statusNoted (f : Frame) (s : State) : getEnt (statusNoted f s) f.ring f.src =
    { getEnt s f.ring f.src with last := some (frameCtr f), heard := s.slot } := getEnt_setEnt ..

include hf hcls htyp hbad hkey htag hpay hctr

/-- A STATUS that authenticates with a new counter (R376, R389). -/
theorem execStatusFrame_accepted : execStatusFrame f st s = .next (
    if !(getEnt s f.ring f.src).chal.isEmpty && st.challenge == (getEnt s f.ring f.src).chal then
      takeStatus f.ring f.src true st (statusNoted f s)
    else if (getEnt s f.ring f.src).state == 2 || (getEnt s f.ring f.src).state == 3 || (getEnt s f.ring f.src).state == 4 then
      takeStatus f.ring f.src false st (statusNoted f s)
    else if (getEnt s f.ring f.src).state == 5 && !(getCRing s f.ring).enumerating then
      startEnum f.ring (statusNoted f s)
    else statusNoted f s) := by
  have hgate : (!forManager s f || f.cls != 1 || f.typ != 3) = false := by rw [hf, hcls, htyp]; rfl
  have hgood : (!tagOk key f || f.payload != statusPayload st) = false := by rw [htag, hpay, bne_self_eq_false]; rfl
  simp only [execStatusFrame, hgate, hbad, hkey, hgood, hctr, Bool.not_true, Bool.false_eq_true, if_false]
  rfl

/-- A STATUS that returns the challenge, or comes from an enumerated worker, moves its entry (R389). -/
theorem ends_statusFrame_taken
    (h : ((getEnt s f.ring f.src).chal ≠ [] ∧ st.challenge = (getEnt s f.ring f.src).chal) ∨ (getEnt s f.ring f.src).state = 2 ∨
      (getEnt s f.ring f.src).state = 3 ∨ (getEnt s f.ring f.src).state = 4) : ends (execStatusFrame f st s) (fun t =>
      (getEnt t f.ring f.src).state = stateOf st.boot ∧ (getEnt t f.ring f.src).d = st.d ∧
      (getEnt t f.ring f.src).last = some (frameCtr f) ∧
      ((getEnt s f.ring f.src).chal ≠ [] ∧ st.challenge = (getEnt s f.ring f.src).chal → (getEnt t f.ring f.src).chal = []) ∧
      (stateOf st.boot = 4 → (getEnt s f.ring f.src).state ≠ 4 → latched 12 3 t)) := by
  have hex := execStatusFrame_accepted hf hcls htyp hbad hkey htag hpay hctr
  have hspec := fun fresh => takeStatus_spec f.ring f.src fresh st (statusNoted f s)
  simp only [getEnt_statusNoted, statusOf, Prod.mk.injEq] at hspec
  by_cases hfresh : (getEnt s f.ring f.src).chal ≠ [] ∧ st.challenge = (getEnt s f.ring f.src).chal
  · have hcond : (!(getEnt s f.ring f.src).chal.isEmpty && st.challenge == (getEnt s f.ring f.src).chal) = true := by
      rw [List.isEmpty_eq_false_iff.2 hfresh.1, hfresh.2, beq_self_eq_true]; rfl
    rw [if_pos hcond] at hex
    obtain ⟨⟨hst, hd, hlast, hchal⟩, hlat⟩ := hspec true
    exact ends_of hex ⟨hst, hd, hlast, fun _ => hchal, hlat⟩
  · have hst : ((getEnt s f.ring f.src).state == 2 || (getEnt s f.ring f.src).state == 3 || (getEnt s f.ring f.src).state == 4) =
        true := by
      rcases h.resolve_left hfresh with h | h | h <;> rw [h] <;> rfl
    rw [if_neg (by rw [not_fresh hfresh]; decide), if_pos hst] at hex
    obtain ⟨⟨hst, hd, hlast, -⟩, hlat⟩ := hspec false
    exact ends_of hex ⟨hst, hd, hlast, fun h => absurd h hfresh, hlat⟩

/-- A STATUS of a LOST worker starts a fresh exchange (R389). -/
theorem ends_statusFrame_lost (hfresh : ¬ ((getEnt s f.ring f.src).chal ≠ [] ∧ st.challenge = (getEnt s f.ring f.src).chal))
    (h5 : (getEnt s f.ring f.src).state = 5) (he : (getCRing s f.ring).enumerating = false) :
    ends (execStatusFrame f st s) (fun t =>
      (getCRing t f.ring).enumerating = true ∧ (getEnt t f.ring f.src).state = 5) := by
  have hex := execStatusFrame_accepted hf hcls htyp hbad hkey htag hpay hctr
  rw [not_fresh hfresh, h5, he] at hex
  refine ends_of hex ⟨?_, ?_⟩
  · exact congrArg CRing.enumerating (getCRing_startEnum f.ring (statusNoted f s))
  · refine (state_startEnum f.ring f.src (statusNoted f s)).trans ?_
    rw [getEnt_statusNoted]
    exact h5

end StatusFrame

/-- A worker silent for 1.0 s is LOST (R389). -/
theorem execWorkerLost_state {k pos : Nat} {s : State} (hk : k < 4) (hm : isManager s = true)
    (hst : (getEnt s k pos).state = 2 ∨ (getEnt s k pos).state = 3 ∨ (getEnt s k pos).state = 4) :
    execWorkerLost k pos s = .next (if s.slot - (getEnt s k pos).heard < 1000 * msSlots then s
      else leaveEnum k pos (workerEvent k pos 5 (raise 12 2 (setEnt k pos { getEnt s k pos with state := 5 } s)))) := by
  have hin : ((getEnt s k pos).state == 2 || (getEnt s k pos).state == 3 || (getEnt s k pos).state == 4) = true := by
    rcases hst with h | h | h <;> rw [h] <;> rfl
  simp only [execWorkerLost, hm, hin, decide_eq_false (Nat.not_le.2 hk), ge_iff_le, Bool.not_true, Bool.or_false, Bool.false_or,
    decide_eq_true_eq]

theorem rings_workerEvent (k pos : Nat) (st : BitVec 3) (s : State) : (workerEvent k pos st s).coil.rings = s.coil.rings := rfl

theorem lostEnt_spec (k pos : Nat) (e : WEnt) (s : State) (he : e.state = 5) :
    let t := leaveEnum k pos (workerEvent k pos 5 (raise 12 2 (setEnt k pos e s)))
    (getEnt t k pos).state = 5 ∧ latched 12 2 t := by
  intro t
  have hrings : t.coil.rings = (setEnt k pos e s).coil.rings :=
    (rings_leaveEnum ..).trans ((rings_workerEvent ..).trans (rings_raise (by decide) (setEnt k pos e s)))
  have hl := @hide_leaveEnum { out := true, hif := true, coil := true, pq := true } ⟨rfl⟩ ⟨rfl⟩ ⟨rfl⟩ ⟨rfl⟩ k pos
    (workerEvent k pos 5 (raise 12 2 (setEnt k pos e s)))
  have hev := @hide_workerEvent { nvs := true } ⟨rfl⟩ k pos 5 (raise 12 2 (setEnt k pos e s))
  refine ⟨?_, latched_flt ((same_flt hl rfl).trans (same_flt hev rfl)) (latched_raise _ rfl)⟩
  rw [getEnt_rings hrings, getEnt_setEnt, he]

/-! ### Ring 13 -/

/-- A Ring 13 request of a manager in METERING with a good length and good fields reaches its body (R392). -/
theorem ring13_good {op : Byte} {lenOk : Nat → Bool} {bad : List Byte → Bool} {r : Req} {s : State} (hm : isManager s = true)
    (hmet : metering s = true) (hl : lenOk r.buf.length = true) (hb : bad r.buf = false) (body : Waiter → State → Ans) :
    ring13 op lenOk bad r s body = .next (answer (reqWaiter r 13 op) (body (reqWaiter r 13 op) s)) := by
  simp only [ring13, hm, hmet, hl, hb, firstBad, Bool.not_true, Bool.or_self, Bool.false_eq_true, if_false]

theorem ring13_notReady {op : Byte} {lenOk : Nat → Bool} {bad : List Byte → Bool} {r : Req} {s : State}
    (h : isManager s = false ∨ metering s = false) (body : Waiter → State → Ans) :
    ring13 op lenOk bad r s body = .next (complete (reqWaiter r 13 op) statusNotReady 0 [] s) := by
  have hgate : (!isManager s || !metering s) = true := by
    rcases h with h | h
    · rw [h]; rfl
    · rw [h]; exact Bool.or_true _
  simp only [ring13, hgate, firstBad, if_true]

/-- A ring's configuration is what it was applied with (R392). -/
theorem cfg_ringApply (k : Nat) (cfg : W32) (renum : Bool) (s : State) : (getCRing (ringApply k cfg renum s) k).cfg = cfg := by
  unfold ringApply
  extract_lets c was on c1 s1 _ s2 s3 c3
  have h2 : s2.coil.rings = s1.coil.rings :=
    foldl_kept (f := fun t => t.coil.rings) (fun t _ => (rfl : (setPort _ _ t).coil.rings = t.coil.rings)) _ s1
  have hcfg2 : (getCRing s2 k).cfg = cfg := by
    rw [getCRing_rings h2]
    exact congrArg CRing.cfg (getCRing_setCRing k c1 s)
  split
  · rw [getCRing_startEnum]
    exact hcfg2
  · split
    · have hleave : ∀ p (t : State), (getCRing (leaveEnum k p (setEnt k p { getEnt t k p with state := 0 } t)) k).cfg =
          (getCRing t k).cfg := fun p t => by
        rw [getCRing_rings (rings_leaveEnum ..), setEnt, getCRing_setCRing]
      have h3 : (getCRing s3 k).cfg = (getCRing s2 k).cfg :=
        foldl_kept (f := fun t => (getCRing t k).cfg) (fun t p => hleave p t) _ s2
      rw [getCRing_rings (rings_completeAll ..), getCRing_setCRing]
      exact h3.trans hcfg2
    · exact hcfg2

/-- The configuration word of a RING_SET (R392). -/
theorem ringCfg_word (n : Nat) : bitAt (n.testBit 0) 31 + bitAt (n.testBit 1) 30 = n % 2 * 2 ^ 31 + n / 2 % 2 * 2 ^ 30 := by
  have hbit : ∀ m i : Nat, bitAt (decide (m % 2 = 1)) i = m % 2 * 2 ^ i := fun m i => by
    rcases Nat.mod_two_eq_zero_or_one m with h | h <;> simp [bitAt, h]
  rw [Nat.testBit_zero, show n.testBit 1 = (n / 2).testBit 0 from Nat.testBit_succ n 0, Nat.testBit_zero, hbit, hbit]

section Ring13
variable {r : Req} {s : State} (hm : isManager s = true) (hmet : metering s = true)
include hm hmet

theorem execRingSet_good (hl : r.buf.length = 8) (hk : rd r.buf 0 1 ≤ 3) (hf : rd r.buf 1 1 ≤ 7) (hn : rd r.buf 2 1 ≤ 127)
    (hz : zerosAt r.buf 3 5 = true) (cfg : W32)
    (hcfg : cfg = BitVec.ofNat 32 (rd r.buf 1 1 % 2 * 2 ^ 31 + rd r.buf 1 1 / 2 % 2 * 2 ^ 30 + rd r.buf 2 1)) :
    execRingSet r s = .next (answer (reqWaiter r 13 0x90)
      (if writeForbidden s (nvKey .coilRing (rd r.buf 0 1)) then .fail statusDenied (protRefuse s)
      else if gasped s then .wait s
      else .wait (commitRec (nvKey .coilRing (rd r.buf 0 1)) (.word cfg) 1 (some (reqWaiter r 13 0x90, statusOk))
        (if (rd r.buf 1 1).testBit 2 then
          commitRec (nvKey .coilTable (rd r.buf 0 1)) (.table []) 4 none (ringApply (rd r.buf 0 1) cfg true s)
        else ringApply (rd r.buf 0 1) cfg false s)))) := by
  have hbad : (decide (rd r.buf 0 1 > 3) || decide (rd r.buf 1 1 > 7) || decide (rd r.buf 2 1 > 127) || !zerosAt r.buf 3 5) =
      false := by
    rw [hz, decide_eq_false (by omega), decide_eq_false (by omega), decide_eq_false (by omega)]; rfl
  have hword : BitVec.ofNat 32 (bitAt ((rd r.buf 1 1).testBit 0) 31 + bitAt ((rd r.buf 1 1).testBit 1) 30 + rd r.buf 2 1) = cfg := by
    rw [ringCfg_word, hcfg]
  unfold execRingSet
  rw [ring13_good hm hmet (by rw [hl]; rfl) hbad]
  dsimp only
  rw [hword]
  cases (rd r.buf 1 1).testBit 2 <;> rfl

/-- An accepted RING_SET: the configuration in force, and the records as they were until its own is written. -/
theorem ends_ringSet (hl : r.buf.length = 8) (hk : rd r.buf 0 1 ≤ 3) (hf : rd r.buf 1 1 ≤ 7) (hn : rd r.buf 2 1 ≤ 127)
    (hz : zerosAt r.buf 3 5 = true) (hw : writeForbidden s (nvKey .coilRing (rd r.buf 0 1)) = false) (hg : gasped s = false)
    (cfg : W32) (hcfg : cfg = BitVec.ofNat 32 (rd r.buf 1 1 % 2 * 2 ^ 31 + rd r.buf 1 1 / 2 % 2 * 2 ^ 30 + rd r.buf 2 1)) :
    ends (execRingSet r s) (fun t => (getCRing t (rd r.buf 0 1)).cfg = cfg ∧ t.nvs.recs = s.nvs.recs) := by
  have hex := execRingSet_good hm hmet hl hk hf hn hz cfg hcfg
  rw [if_neg (by rw [hw]; decide), if_neg (by rw [hg]; decide), answer_wait] at hex
  refine ends_of hex ?_
  have happly : ∀ renum, (getCRing (ringApply (rd r.buf 0 1) cfg renum s) (rd r.buf 0 1)).cfg = cfg ∧
      (ringApply (rd r.buf 0 1) cfg renum s).nvs.recs = s.nvs.recs := fun renum =>
    ⟨cfg_ringApply .., same_recs (@hide_ringApply settleBlocks ⟨rfl⟩ ⟨rfl⟩ ⟨rfl⟩ ⟨rfl⟩ (rd r.buf 0 1) cfg renum s) rfl⟩
  generalize hu : (if (rd r.buf 1 1).testBit 2 = true then _ else _ : State) = u
  have hu' : (getCRing u (rd r.buf 0 1)).cfg = cfg ∧ u.nvs.recs = s.nvs.recs := by
    rw [← hu]
    split
    · exact happly true
    · exact happly false
  have hwait := hide_waitCommit (reqWaiter r 13 0x90) (reqWaiter r 13 0x90) (nvKey .coilRing (rd r.buf 0 1)) (.word cfg) 1 u
  exact ⟨(congrArg CRing.cfg (getCRing_rings (congrArg Coil.rings (same_coil hwait rfl)) _)).trans hu'.1,
    (same_recs hwait rfl).trans hu'.2⟩

theorem execRingInfo_good (hl : 4080 ≤ r.buf.length) (hk : rd r.buf 0 1 ≤ 3) : execRingInfo r s =
    .next (complete (reqWaiter r 13 0x91) statusOk 0 (ringInfoReply s (rd r.buf 0 1)) s) := by
  unfold execRingInfo
  rw [ring13_good hm hmet (decide_eq_true hl) (decide_eq_false (by omega))]
  rfl

theorem execEnumerate_good (hl : r.buf.length = 4) (hk : rd r.buf 0 1 ≤ 3) (hz : zerosAt r.buf 1 3 = true)
    (hen : ringEn s (rd r.buf 0 1) = true) : execEnumerate r s = .next (answer (reqWaiter r 13 0x92)
      (if (getCRing s (rd r.buf 0 1)).enumerating then .fail statusBusy s
      else .wait (setCRing (rd r.buf 0 1) { getCRing (startEnum (rd r.buf 0 1) s) (rd r.buf 0 1) with
        enumWaits := (getCRing (startEnum (rd r.buf 0 1) s) (rd r.buf 0 1)).enumWaits ++ [reqWaiter r 13 0x92] }
        (startEnum (rd r.buf 0 1) s)))) := by
  have hbad : (decide (rd r.buf 0 1 > 3) || !zerosAt r.buf 1 3 || !ringEn s (rd r.buf 0 1)) = false := by
    rw [hz, hen, decide_eq_false (by omega)]; rfl
  unfold execEnumerate
  rw [ring13_good hm hmet (by rw [hl]; rfl) hbad]

end Ring13

section NotReady
variable {r : Req} {s : State} (h : isManager s = false ∨ metering s = false)
include h

theorem execRingSet_notReady : execRingSet r s = .next (complete (reqWaiter r 13 0x90) statusNotReady 0 [] s) := by
  unfold execRingSet
  exact ring13_notReady h _

theorem execRingInfo_notReady : execRingInfo r s = .next (complete (reqWaiter r 13 0x91) statusNotReady 0 [] s) := by
  unfold execRingInfo
  exact ring13_notReady h _

theorem execEnumerate_notReady : execEnumerate r s = .next (complete (reqWaiter r 13 0x92) statusNotReady 0 [] s) := by
  unfold execEnumerate
  exact ring13_notReady h _

end NotReady

theorem execEnumerationStart_starts {k : Nat} {s : State} (hk : k < 4) (hm : isManager s = true) (hen : ringEn s k = true)
    (he : (getCRing s k).enumerating = false) : execEnumerationStart k s = .next (startEnum k s) := by
  simp only [execEnumerationStart, hk, hm, hen, he, decide_true, Bool.not_false, Bool.and_self, if_true]

theorem execEnumerationStart_idle {k : Nat} {s : State}
    (h : isManager s = false ∨ ringEn s k = false ∨ (getCRing s k).enumerating = true) : execEnumerationStart k s = .next s := by
  have hgate : (decide (k < 4) && isManager s && ringEn s k && !(getCRing s k).enumerating) = false := by
    rcases h with h | h | h
    · rw [h, Bool.and_false]; rfl
    · rw [h, Bool.and_false]; rfl
    · rw [h, Bool.not_true, Bool.and_false]
  simp only [execEnumerationStart, hgate, Bool.false_eq_true, if_false]

/-- Settles O56: every frame and request but the enumeration's own leaves the manager's record of its rings, so each entry is
what the last of these set. -/
theorem enumerationAndRing13 : Obligations.EnumerationAndRing13 := by
  refine ⟨fun k s hk => ?_, fun r s => ?_⟩
  · refine ⟨fun hm hen he => ?_, execEnumerationStart_idle, ends_enumerationEnd hk, fun hm he => ?_, fun hw => ?_,
      fun f h hf hcls htyp hbad => ⟨fun he hhop hnew href ht => ends_helloFrame hf hcls htyp hbad he hhop hnew href ht,
        fun he hsrc href hlast => ends_helloFrame_starts hf hcls htyp hbad he hsrc href hlast⟩,
      fun h => ?_, fun hw he ht hc => execHelloTimer_ready hw he ht hc,
      fun f hop d hw hp hcls htyp hbad => ends_enumFrame hw hp hcls htyp hbad,
      fun f a key hw hcls htyp hbad hkey htag hpay hctr hc ha hring h1 h127 =>
        ends_assignFrame hw hcls htyp hbad hkey htag hpay hctr hc ha hring h1 h127,
      fun f st key hf hcls htyp hbad hkey htag hpay hctr => ⟨fun h =>
        ends_statusFrame_taken hf hcls htyp hbad hkey htag hpay hctr h, fun hfresh h5 he =>
        ends_statusFrame_lost hf hcls htyp hbad hkey htag hpay hctr hfresh h5 he⟩,
      fun hw he => ?_, fun h => ?_, fun pos hm hst => ⟨fun hage => ?_, fun hage => ?_⟩⟩
    · refine ends_of (execEnumerationStart_starts hk hm hen he) ?_
      rw [getCRing_startEnum]
      exact ⟨rfl, rfl, rfl, rfl, same_nvs (hide_startEnum_own k s) rfl rfl⟩
    · simp only [exec, execEnumerationEnd, isWorker_of_isManager hm, he, Bool.not_false, Bool.or_true, Bool.false_eq_true,
        if_false, if_true]
    · simp only [exec, execEnumerationEnd, hw, if_true]
    · have hgate : (isWorker s && !s.coil.w.enumerated) = false := by
        rcases h with h | h
        · rw [h, Bool.false_and]
        · rw [h, Bool.not_true, Bool.and_false]
      simp only [exec, execHelloTimer, helloAll, hgate, Bool.false_eq_true, if_false]
    · simp only [exec, execStatusSend, hw, he, Bool.and_self, if_true]
    · have hgate : (isWorker s && s.coil.w.enumerated) = false := by
        rcases h with h | h
        · rw [h, Bool.false_and]
        · rw [h, Bool.and_false]
      simp only [exec, execStatusSend, hgate, Bool.false_eq_true, if_false]
    · have hex := execWorkerLost_state hk hm hst
      rw [if_neg (Nat.not_lt.2 hage)] at hex
      exact ends_of hex (lostEnt_spec k pos _ s rfl)
    · have hex := execWorkerLost_state hk hm hst
      rw [if_pos hage] at hex
      exact hex
  · refine ⟨fun hm hmet hl hk hf hn hz => ⟨fun hw => ?_, fun hw => ⟨fun hg => ?_, fun hg => ?_⟩⟩,
      fun hm hmet hl hk => execRingInfo_good hm hmet hl hk, fun hm hmet hl hk hz hen => ⟨fun he => ?_, fun he => ?_⟩,
      fun h => ⟨execRingSet_notReady h, execRingInfo_notReady h, execEnumerate_notReady h⟩⟩
    · have hex := execRingSet_good hm hmet hl hk hf hn hz _ rfl
      rw [if_pos hw] at hex
      exact hex
    · have hex := execRingSet_good hm hmet hl hk hf hn hz _ rfl
      rw [if_neg (by rw [hw]; decide), if_pos hg] at hex
      exact hex
    · exact ends_ringSet hm hmet hl hk hf hn hz hw hg _ rfl
    · have hex := execEnumerate_good hm hmet hl hk hz hen
      rw [he] at hex
      exact hex
    · have hex := execEnumerate_good hm hmet hl hk hz hen
      rw [he] at hex
      refine ends_of hex ?_
      have hwait : ∀ u : State, getCRing (answer (reqWaiter r 13 0x92) (.wait u)) (rd r.buf 0 1) = getCRing u (rd r.buf 0 1) :=
        fun u => getCRing_rings (rings_waitReq _ u) _
      rw [if_neg Bool.false_ne_true, hwait, getCRing_setCRing, getCRing_startEnum]
      exact ⟨rfl, rfl⟩

end Sys2Proof.Proofs

namespace Sys2Proof.Proofs
open Sys2Proof Sys2Proof.Machine Sys2Proof.Laws

/-! ### A step, and the Wheel's turn -/

theorem step_front {c : Instr} {rest : List Instr} {s : State} (h : s.pending = c :: rest) :
    step s = exec c { s with pending := rest } := by simp only [step, h]

theorem step_idle {s : State} (h : s.pending = []) : step s = .next (idleStep s) := by simp only [step, h]

/-- Settles O1: by the front of the queue. -/
theorem stepRunsFront : Obligations.StepRunsFront := by
  unfold Obligations.StepRunsFront
  exact fun c rest s => ⟨step_front, fun h => ⟨step_idle h, rfl, rfl, rfl⟩⟩

theorem angleOf_turnStart (t : Nat) : angleOf (turnStart t) = 0 := by
  have hdvd : t % 2 ^ 40 * 2 ^ 24 % 2 ^ 64 / 2 ^ 8 % 2 ^ 16 = 0 := by omega
  exact BitVec.eq_of_toNat_eq (by simpa [angleOf, turnStart] using hdvd)

/-- Slewing moves the rate by at most 1 % (R40). -/
theorem slewedRate_bounds (freq : W32) (err : Int) (n : Nat) : freq.toNat - freq.toNat / 100 ≤ slewedRate freq err n ∧
    slewedRate freq err n ≤ freq.toNat + freq.toNat / 100 := by
  unfold slewedRate
  split
  · omega
  · dsimp only
    omega

theorem slewedRate_zero (freq : W32) (n : Nat) : slewedRate freq 0 n = freq.toNat := if_pos rfl

/-- The consecutive turns within 0.05° once a turn of phase error `err` has ended (R37). -/
def nearTurns (err : Int) (w : Whl) : Nat := if err.natAbs ≤ 2330 then w.goodTurns + 1 else 0

/-- The consecutive turns beyond 0.2° then (R40). -/
def farTurns (err : Int) (w : Whl) : Nat := if err.natAbs ≤ 9320 then 0 else w.badTurns + 1

/-- What a turn's phase error does to the Wheel, by these two counts. -/
theorem lockTurn_eq (err : Int) (w : Whl) : lockTurn err w = { w with
    goodTurns := min (nearTurns err w) 4
    badTurns := min (farTurns err w) 2
    pherr := BitVec.ofInt 32 err
    slew := w.selected && decide (2330 < err.natAbs)
    lock := decide (4 ≤ nearTurns err w) || (w.lock && !decide (2 ≤ farTurns err w))
    hold := w.hold && !decide (4 ≤ nearTurns err w)
    nolock := w.nolock && !decide (4 ≤ nearTurns err w) } := by
  have hnear : (if (err.natAbs : Int) ≤ lockIn then w.goodTurns + 1 else 0) = nearTurns err w :=
    if_congr (by simp only [lockIn]; omega) rfl rfl
  have hfar : (if (err.natAbs : Int) > lockOut then w.badTurns + 1 else 0) = farTurns err w := by
    rw [farTurns, ← ite_not]
    exact if_congr (by simp only [lockOut]; omega) rfl rfl
  have hslew : decide ((err.natAbs : Int) > lockIn) = decide (2330 < err.natAbs) :=
    decide_eq_decide.2 (by simp only [lockIn]; omega)
  unfold lockTurn
  dsimp only
  rw [hnear, hfar, hslew]
  by_cases hn : 4 ≤ nearTurns err w
  · simp [hn]
  · by_cases hf : 2 ≤ farTurns err w
    · simp [hn, hf]
    · simp [hn, hf]

section Lock
variable {err : Int} {w : Whl}

/-- The fourth consecutive turn within 0.05° (R37). -/
theorem lockTurn_sets (hg : 3 ≤ w.goodTurns) (he : err.natAbs ≤ 2330) :
    (lockTurn err w).lock = true ∧ (lockTurn err w).hold = false ∧ (lockTurn err w).nolock = false := by
  have hn : 4 ≤ nearTurns err w := by rw [nearTurns, if_pos he]; omega
  simp [lockTurn_eq, hn]

/-- The second consecutive turn beyond 0.2° (R40). -/
theorem lockTurn_clears (hb : 1 ≤ w.badTurns) (he : 9320 < err.natAbs) :
    (lockTurn err w).lock = false ∧ (lockTurn err w).hold = w.hold := by
  have hn : nearTurns err w = 0 := if_neg (by omega)
  have hf : 2 ≤ farTurns err w := by rw [farTurns, if_neg (by omega)]; omega
  simp [lockTurn_eq, hn, hf]

/-- A turn within 0.05° before the fourth. -/
theorem lockTurn_near (hg : w.goodTurns < 3) (he : err.natAbs ≤ 2330) :
    (lockTurn err w).goodTurns = w.goodTurns + 1 ∧ (lockTurn err w).lock = w.lock ∧ (lockTurn err w).hold = w.hold := by
  have hn : nearTurns err w = w.goodTurns + 1 := if_pos he
  have hfew : ¬ 4 ≤ w.goodTurns + 1 := by omega
  have hf : farTurns err w = 0 := if_pos (by omega)
  simp [lockTurn_eq, hn, hf, hfew, Nat.lt_succ_of_lt hg]

/-- A first turn beyond 0.2°. -/
theorem lockTurn_far (hb : w.badTurns = 0) (he : 9320 < err.natAbs) :
    (lockTurn err w).badTurns = 1 ∧ (lockTurn err w).lock = w.lock := by
  have hn : nearTurns err w = 0 := if_neg (by omega)
  have hf : farTurns err w = 1 := by rw [farTurns, if_neg (by omega), hb]
  simp [lockTurn_eq, hn, hf]

/-- A turn between the two bounds ends both counts. -/
theorem lockTurn_between (ho : err.natAbs ≤ 9320) (hi : 2330 < err.natAbs) :
    (lockTurn err w).goodTurns = 0 ∧ (lockTurn err w).badTurns = 0 ∧ (lockTurn err w).lock = w.lock := by
  have hn : nearTurns err w = 0 := if_neg (by omega)
  have hf : farTurns err w = 0 := if_pos ho
  simp [lockTurn_eq, hn, hf]

end Lock

/-- The turn that angle 0 begins (R32, R122). -/
theorem wheelAngle0_turn (est : W32) (s : State) :
    (wheelAngle0 est s).whl.pos = turnStart ((turnOf s.whl.pos).toNat + 1) ∧ angleOf (wheelAngle0 est s).whl.pos = 0 ∧
    (wheelAngle0 est s).whl.prevDelta = s.whl.delta ∧
    (wheelAngle0 est s).whl.u = s.whl.u + BitVec.ofNat 63 (256 * s.whl.delta.toNat) ∧
    (∃ r, (wheelAngle0 est s).whl.delta = deltaOf r) :=
  ⟨rfl, angleOf_turnStart _, rfl, rfl, _, rfl⟩

/-- A reference in use gives the estimate and the phase error (R36-R38). -/
theorem wheelAngle0_reference (est : W32) {s : State} (hw : isWorker s = false) (hs : s.whl.selected = true)
    (hc : s.whl.coast = false) (hh : refHeld s = false) :
    (wheelAngle0 est s).whl.freq = est ∧ (wheelAngle0 est s).whl.pherr = BitVec.ofInt 32 (refError s) := by
  simp [wheelAngle0, hw, hs, hc, hh, lockTurn_eq]

/-- Without a reference the frequency and LOCK stand (R39). -/
theorem wheelAngle0_free (est : W32) {s : State} (hw : isWorker s = false) (hs : s.whl.selected = false) :
    (wheelAngle0 est s).whl.freq = s.whl.freq ∧ (wheelAngle0 est s).whl.lock = s.whl.lock ∧
    (wheelAngle0 est s).whl.slew = false := by
  simp [wheelAngle0, hw, hs]

/-- The blocks that the work of a turn boundary changes, the clocks aside. -/
@[reducible] def turnBlocks : Mask := { faultBlocks with
  free := true, boot := true, whl := true, afe := true, dec := true, pnt := true, pq := true, cal := true, trf := true, crd := true }

/-- The clocks reach angle 0, and each part of the boundary's work, by its own law under Laws/, leaves the slot count there
(R122). -/
theorem execWheelTurnBoundary_slot (est : W32) {s : State} (hr : s.whl.run = true) :
    ∃ t, execWheelTurnBoundary est s = .next t ∧ t.slot = s.slot + slotsToBoundary s.whl := by
  have hidden : Hidden true := ⟨rfl⟩
  refine ⟨_, by rw [execWheelTurnBoundary, hr, Bool.not_true, if_neg Bool.false_ne_true], ?_⟩
  refine (same_slot (μ := turnBlocks) (s := toBoundary s) ?_ rfl).trans rfl
  simp [turnBlocks, faultBlocks, ↓hide_with]

/-- Settles O16: the boundary by the clocks and the command's footprint, the Wheel by what angle 0 does, LOCK by the counts
of turns. -/
theorem turnBoundary : Obligations.TurnBoundary := by
  unfold Obligations.TurnBoundary
  refine ⟨fun est s hr => ⟨?_, ?_⟩, fun freq err n => ?_, fun err w => ?_⟩
  · obtain ⟨t, ht, hslot⟩ := execWheelTurnBoundary_slot est hr
    have hk := hide_foot_of_exec (c := .wheelTurnBoundary est) (s := s) (t := t) ht
    exact ⟨t, ht, hslot, same_recs hk rfl, same_fuses hk, same_pin hk rfl rfl, same_sgr hk rfl⟩
  · obtain ⟨hpos, hangle, hprev, hu, hdelta⟩ := wheelAngle0_turn est s
    exact ⟨hpos, hangle, hprev, hu, hdelta, wheelAngle0_reference est, wheelAngle0_free est⟩
  · exact ⟨(slewedRate_bounds freq err n).1, (slewedRate_bounds freq err n).2, slewedRate_zero freq n⟩
  · exact ⟨lockTurn_sets, lockTurn_clears, lockTurn_near, lockTurn_far, lockTurn_between⟩

end Sys2Proof.Proofs

namespace Sys2Proof.Proofs
open Sys2Proof Sys2Proof.Machine Sys2Proof.Laws

/-! ### SYNC, the reads that latch, and the scheduled actions -/

theorem syncRequest_merges {q : SyncReq} {s : State} (h : s.whl.sync = some q) (b : Bool) :
    syncRequest b s = { s with whl.merged := satInc s.whl.merged } := by simp only [syncRequest, h]

/-- The one execution that a SYNC request fixes (R55). -/
theorem syncRequest_fixes {s : State} (h : s.whl.sync = none) (b : Bool) :
    syncRequest b s = { s with whl.sync := some (
      if isManager s then ⟨some (BitVec.ofNat 40 (beaconTurn s.whl + 2)), none, s.slot, 2⟩
      else if b then ⟨none, some (s.slot + 16), s.slot, 0⟩
      else ⟨some (BitVec.ofNat 40 (commandTurn s.whl)), none, s.slot, 0⟩) } := by
  simp only [syncRequest, h]
  split
  · rfl
  · split <;> rfl

theorem execSyncinEdge_selected {falling : Bool} {s : State} (hw : isWorker s = false) (he : bit s.whl.regs.synccfg 0 = true)
    (hf : bit s.whl.regs.synccfg 1 = falling) : execSyncinEdge falling s = .next (syncRequest true s) := by
  simp [execSyncinEdge, hw, he, hf]

theorem execSyncinEdge_ignored {falling : Bool} {s : State}
    (h : isWorker s = true ∨ bit s.whl.regs.synccfg 0 = false ∨ bit s.whl.regs.synccfg 1 ≠ falling) :
    execSyncinEdge falling s = .next s := by
  rcases h with h | h | h <;> simp [execSyncinEdge, h]

theorem execSync_own {r : Req} {s : State} (hm : metering s = true) (hl : r.buf.length = 4) (hv : r.via = .host)
    (hd : cmdDest r s = .own) (hz : zerosAt r.buf 0 4 = true) :
    execSync r s = .next (complete (reqWaiter r 0 0x03) statusOk 0 [] (syncRequest false s)) := by
  simp [execSync, hm, hl, hv, hd, hz]

/-- The grid at the execution of a SYNC: kept where it is in phase, else moved (R105, R106). -/
def syncGrid (s : State) : State :=
  if !s.dec.run then s else if inPhase s then { s with dec.inphase := satInc s.dec.inphase } else rephase s

/-- The blocks that a new grid changes. -/
@[reducible] def gridBlocks : Mask := { whl := true, dec := true, pnt := true, pq := true }

theorem hide_syncGrid (s : State) : hide gridBlocks (syncGrid s) = hide gridBlocks s := by
  unfold syncGrid
  split
  · rfl
  · split
    · simp [hide]
    · exact @hide_rephase gridBlocks ⟨rfl⟩ ⟨rfl⟩ ⟨rfl⟩ ⟨rfl⟩ s

/-- What the execution of a SYNC leaves, its record aside (R55, R57, R106). -/
def synced (s : State) : State :=
  { syncGrid s with
    whl := { (syncGrid s).whl with sync := none, syncCount := s.whl.syncCount + 1, coast := true }
    pin.syncout := true }

theorem execSyncExecute_pending {q : SyncReq} {s : State} (h : s.whl.sync = some q) :
    ∃ detail, execSyncExecute s = .next (blockEvent 3 1 detail (synced s)) := by
  refine ⟨le 2 (s.whl.syncCount + 1).toNat ++
    le 2 (if inPhase s || !s.dec.run then 0 else (syncGrid s).dec.shift.toNat), ?_⟩
  simp only [execSyncExecute, h]
  rfl

theorem execSyncExecute_none {s : State} (h : s.whl.sync = none) : execSyncExecute s = .next s := by
  simp only [execSyncExecute, h]

/-- The execution counts, drives SYNCOUT, lets the Wheel coast and records itself (R36, R57). -/
theorem ends_syncExecute {q : SyncReq} {s : State} (h : s.whl.sync = some q) : ends (execSyncExecute s) (fun t =>
    t.whl.sync = none ∧ t.whl.syncCount = s.whl.syncCount + 1 ∧ t.whl.coast = true ∧ t.pin.syncout = true ∧ t.boot = s.boot ∧
    t.nvs.logQueue.length = s.nvs.logQueue.length + 1) := by
  obtain ⟨detail, hexec⟩ := execSyncExecute_pending h
  have hk := hide_syncGrid s
  refine ⟨_, hexec, rfl, rfl, rfl, rfl, (same_boot hk rfl rfl :), ?_⟩
  rw [← same_nvs hk rfl rfl]
  exact List.length_append

/-- Settles O18: requests by what a request fixes, the execution by what a new grid leaves. -/
theorem syncRequests : Obligations.SyncRequests := by
  unfold Obligations.SyncRequests
  intro falling r s
  refine ⟨execSyncinEdge_selected, execSyncinEdge_ignored, fun q b h => syncRequest_merges h b,
    fun h => ⟨fun hm => ⟨?_, ?_⟩, fun b hm => ?_⟩, execSync_own, fun q => ends_syncExecute,
    execSyncExecute_none, rfl, rfl⟩
  · simp [syncRequest_fixes h, hm]
  · simp [syncRequest_fixes h, hm]
  · simp [syncRequest_fixes h, hm]

theorem execWhlPosloRead_fired {s : State} (h : s.boot.fired = true) :
    execWhlPosloRead s = .next (emit (.readVal 0x0C20 (latchPos s).whl.lposLo) (latchPos s)) := by
  simp [execWhlPosloRead, h]

theorem execWhlPosloRead_unfired {s : State} (h : s.boot.fired = false) :
    execWhlPosloRead s = .next (emit (.readVal 0x0C20 0) s) := by simp [execWhlPosloRead, h]

/-- BAR0's time registers before FIRED (R401). -/
theorem timeReads_unfired {s : State} (h : s.boot.fired = false) :
    execRtcSecRead 0 s = .next (emit (.readVal 0x2800 0) s) ∧ execRtcYearRead 0 s = .next (emit (.readVal 0x2818 0) s) := by
  simp [execRtcSecRead, execRtcYearRead, h]

/-- A requester's reads of the seconds and of the year (R320). -/
theorem timeReads_exposed {who : Nat} {s : State} (hw : who < 3) (h : who ≠ 0 ∨ s.boot.fired = true) :
    execRtcSecRead who s = .next (emit (.readVal 0x2800 (rtcSecImage s.rtc.s (rtcFrac s))) (captureTime who s)) ∧
    execRtcYearRead who s = .next (emit (.readVal 0x2818 (rtcYearImage (readTime s who).1))
      { s with rtc.shadows := tdel s.rtc.shadows who }) := by
  rcases h with h | h <;> simp [execRtcSecRead, execRtcYearRead, hw, h]

theorem execRtcFreezeExpiry_frozen {who : Nat} {h : Shadow} {s : State} (hs : tget s.rtc.shadows who = some h) :
    execRtcFreezeExpiry who s =
      .next (if msSlots ≤ s.slot - h.at_ then { s with rtc.shadows := tdel s.rtc.shadows who } else s) := by
  simp only [execRtcFreezeExpiry, hs, ge_iff_le]

theorem execRtcFreezeExpiry_free {who : Nat} {s : State} (hs : tget s.rtc.shadows who = none) :
    execRtcFreezeExpiry who s = .next s := by simp only [execRtcFreezeExpiry, hs]

/-- Settles O19: each read by its exposure, the expiry by the capture's age. -/
theorem latchedReads : Obligations.LatchedReads := by
  unfold Obligations.LatchedReads
  refine ⟨fun s => ⟨fun h => ⟨_, execWhlPosloRead_fired h, rfl, rfl, rfl, rfl, rfl, rfl⟩,
      fun h => ⟨execWhlPosloRead_unfired h, timeReads_unfired h⟩⟩,
    fun who s hw => ⟨timeReads_exposed hw, fun h hs ha => ?_, fun h hs ha => ?_, execRtcFreezeExpiry_free⟩⟩
  · exact (execRtcFreezeExpiry_frozen hs).trans (by rw [if_neg (Nat.not_le_of_lt ha)])
  · exact (execRtcFreezeExpiry_frozen hs).trans (by rw [if_pos ha])

section AngleAction
variable {n : Nat} {e : AngEnt} {s : State} (hn : n ≠ 63) (he : tget s.whl.ang n = some e)
include hn he

theorem execAngleActionFire_early (hd : fireDue e s = false) : execAngleActionFire n s = .next s := by
  simp [execAngleActionFire, hn, he, hd]

/-- An armed entry at its slot-cycle boundary acts by its kind (R46, R47). -/
theorem execAngleActionFire_due (hen : e.en = true) (hr : s.whl.run = true) (hd : fireDue e s = true) :
    (e.kind = 1 → execAngleActionFire n s = .next (angFired n e (ctlFire n s))) ∧
    (e.kind = 2 → execAngleActionFire n s = .next (noteCond 1 s.slot (firePos e) (angFired n e s))) ∧
    (e.kind = 3 → metering s = true →
      execAngleActionFire n s = .next (driveBall e.target.toNat true (angFired n e s))) := by
  refine ⟨fun hk => ?_, fun hk => ?_, fun hk hm => ?_⟩
  · simp [execAngleActionFire, hn, he, hen, hr, hd, hk]
  · simp [execAngleActionFire, hn, he, hen, hr, hd, hk]
  · simp [execAngleActionFire, hn, he, hen, hr, hd, hk, hm]

end AngleAction

/-- A ONCE entry clears its ENABLE once it has fired; an EVERY entry stays (R46). -/
theorem angFired_once {e : AngEnt} (h : e.every = false) (n : Nat) (s : State) :
    tget (angFired n e s).whl.ang n = some { e with en := false } := by simp [angFired, h]

theorem angFired_every {e : AngEnt} (h : e.every = true) (n : Nat) (s : State) : angFired n e s = s := by simp [angFired, h]

theorem execAngleActionFire_beacon {s : State} (hm : isManager s = true) (hr : s.whl.run = true)
    (hd : fireDue (angShown s 63) s = true) : execAngleActionFire 63 s = .next (emitBeacon s) := by
  simp [execAngleActionFire, hm, hr, hd]

/-- An RTC entry that fires: a PERIOD entry counts on, a ONCE entry ends (R49). -/
def rtcFired (e : RtcEnt) : RtcEnt :=
  if e.periodic then { e with k := e.k + 1, clockSet := false } else { e with en := false, clockSet := false }

theorem execRtcActionFire_armed {n : Nat} {e : RtcEnt} {s : State} (he : tget s.whl.rtcAct n = some e) (ha : e.armed = true) :
    execRtcActionFire n s = .next (if ((2 * rtcTicks s.rtc : Nat) : Int) < rtcInstant s.rtc.s e then s
      else { s with whl.rtcAct := tput s.whl.rtcAct n (rtcFired e) }) := by
  unfold execRtcActionFire
  rw [he]
  simp only [ha, Bool.not_true, Bool.false_or, decide_eq_true_eq]
  rfl

/-- Settles O20: angle entries by their kind, RTC entries by their instant. -/
theorem scheduledActions : Obligations.ScheduledActions := by
  unfold Obligations.ScheduledActions
  intro n s
  refine ⟨fun e hn he hen hr => ⟨execAngleActionFire_early hn he, execAngleActionFire_due hn he hen hr,
      fun h => angFired_once h n s, fun h => angFired_every h n s⟩, execAngleActionFire_beacon,
    fun e he ha => ⟨fun hi => ?_, fun hi => ⟨fun hp => ?_, fun hp => ?_⟩⟩⟩
  · exact (execRtcActionFire_armed he ha).trans (by rw [if_pos hi])
  · exact (execRtcActionFire_armed he ha).trans (by rw [if_neg (Int.not_lt.2 hi), rtcFired, if_pos hp])
  · exact (execRtcActionFire_armed he ha).trans (by
      rw [if_neg (Int.not_lt.2 hi), rtcFired, hp, if_neg Bool.false_ne_true])

end Sys2Proof.Proofs

namespace Sys2Proof.Proofs
open Sys2Proof Sys2Proof.Machine Sys2Proof.Laws

/-! ### The reference list -/

/-- A field of the Wheel's block other than the log of past qualities stands over the noting of the quality. -/
theorem whlField_noteQual {α : Type} (f : Whl → α) (hf : ∀ w l, f { w with qlog := l } = f w) (s0 s : State) :
    f (noteQual s0 s).whl = f s.whl := by
  unfold noteQual
  split
  · rfl
  · exact hf _ _

/-- A step that leaves the quality notes none. -/
theorem noteQual_same {s0 s : State} (h : nowQual s0 = nowQual s) : noteQual s0 s = s := by simp [noteQual, h]

/-- A qualified entry that a half-cycle drops has failed in level or in period (R35). -/
theorem judgeRef_lost {x : RefEnt} {peak sq n at_ : Nat} {rising : Bool} {now : Nat} (h : x.qual = true)
    (hl : (judgeRef x peak sq n at_ rising now).qual = false) :
    ((judgeRef x peak sq n at_ rising now).bad == 0 && (judgeRef x peak sq n at_ rising now).badPer == 0) = false := by
  simp only [judgeRef, h, if_true] at hl ⊢
  generalize (if rmsAtLeast sq n peak 10 = true then 0 else x.bad + 1) = bad at hl ⊢
  generalize (if (rising && x.rise.isSome) = true then
    if periodOk (at_ - x.rise.getD 0) = true then 0 else x.badPer + 1 else x.badPer) = badPer at hl ⊢
  by_cases hb : 2 ≤ bad ∨ 2 ≤ badPer
  · simp only [ge_iff_le, Bool.or_eq_true, decide_eq_true_eq, hb, if_true, Bool.and_eq_false_iff, beq_eq_false_iff_ne]
    omega
  · simp [hb] at hl

/-- Entry `n` as judged on the half-cycle that ends now (R35, R36). -/
def judged (n : Nat) (rising : Bool) (s : State) : RefEnt :=
  judgeRef (getRef s.whl n) (fld s.whl.regs.vnom 15 0) (halfCycleSq s n (s.slot - fineDelay)).1
    (halfCycleSq s n (s.slot - fineDelay)).2 (s.slot - fineDelay) rising s.slot

/-- The Wheel with that entry noted. -/
def judgedWhl (n : Nat) (rising : Bool) (s : State) : Whl := { s.whl with refs := tput s.whl.refs n (judged n rising s) }

section HalfCycle
variable {n : Nat} {rising : Bool} {s : State} (hn : n < 4) (hw : isWorker s = false) (hp : s.flt.phase ≠ .safe)
  (hr : s.whl.run = true) (he : refEn s.whl.regs.reflist n = true) (hh : setHeld s (refCh s.whl.regs.reflist n) = false)

include hn hw hp hr he hh

/-- Nothing keeps such a half-cycle from its judgement. -/
theorem halfCycle_judged : (isWorker s || s.flt.phase == .safe || n ≥ 4 || !s.whl.run || !refEn s.whl.regs.reflist n ||
    setHeld s (refCh s.whl.regs.reflist n)) = false := by simp [hw, hp, hr, he, hh, hn]

/-- A judged half-cycle of an entry that is not active. -/
theorem execRefHalfCycle_noted (ha : (s.whl.selected && s.whl.active.toNat == n) = false) :
    execRefHalfCycle n rising s = .next (if !s.whl.selected && (judged n rising s).qual then
      { s with whl := selectRef n (judgedWhl n rising s) } else { s with whl := judgedWhl n rising s }) := by
  have hlive := halfCycle_judged hn hw hp hr he hh
  unfold execRefHalfCycle
  simp only [hlive, ha]
  rfl

/-- The loss of the active entry (R39). -/
theorem execRefHalfCycle_lost (hs : s.whl.selected = true) (ha : s.whl.active.toNat = n)
    (hq : (getRef s.whl n).qual = true) (hl : (judged n rising s).qual = false) :
    execRefHalfCycle n rising s = .next (noteQual s (holdoverEnter { s with whl := judgedWhl n rising s })) := by
  have hlive := halfCycle_judged hn hw hp hr he hh
  have hact : (s.whl.selected && s.whl.active.toNat == n) = true := by simp [hs, ha]
  have hbad := judgeRef_lost hq hl
  rw [judged] at hl
  unfold execRefHalfCycle
  simp only [hlive, hact, hq, hl, Bool.true_and, hbad]
  rfl

end HalfCycle

/-- The Wheel in holdover before it searches for another reference (R39). -/
def heldWhl (w : Whl) : Whl :=
  { w with hold := true, lock := false, slew := false, selected := false, freq := w.heldFreq, goodTurns := 0, badTurns := 0 }

/-- The search from the entry after the lost one. -/
def nextRef (w : Whl) : Option Nat :=
  firstQual w [(w.active.toNat + 1) % 4, (w.active.toNat + 2) % 4, (w.active.toNat + 3) % 4, w.active.toNat]

/-- REF_LOST as the holdover raises it. -/
def refLost (s : State) : State := raise 3 0 { s with whl := heldWhl s.whl }

theorem nextRef_heldWhl (w : Whl) : nextRef (heldWhl w) = nextRef w := rfl

theorem holdoverEnter_found {n : Nat} {s : State} (h : nextRef s.whl = some n) :
    holdoverEnter s = { refLost s with whl := selectRef n (refLost s).whl } := by
  rw [← nextRef_heldWhl] at h
  dsimp only [nextRef, heldWhl] at h
  simp only [holdoverEnter, h]
  rfl

theorem holdoverEnter_none {s : State} (h : nextRef s.whl = none) : holdoverEnter s = raise 3 1 (refLost s) := by
  rw [← nextRef_heldWhl] at h
  dsimp only [nextRef, heldWhl] at h
  simp only [holdoverEnter, h]
  rfl

/-- Holdover after a loss (R39). -/
theorem holdoverEnter_spec (s : State) :
    latched 3 0 (holdoverEnter s) ∧ (holdoverEnter s).whl.hold = true ∧ (holdoverEnter s).whl.lock = false ∧
    (holdoverEnter s).whl.refs = s.whl.refs ∧ (holdoverEnter s).boot = s.boot ∧ (holdoverEnter s).pnt = s.pnt ∧
    (holdoverEnter s).nvs.recs = s.nvs.recs ∧
    (nextRef s.whl = none → latched 3 1 (holdoverEnter s) ∧ (holdoverEnter s).whl.selected = false ∧
      (holdoverEnter s).whl.freq = s.whl.heldFreq) := by
  have hk0 : hide raiseBlocks (refLost s) = hide raiseBlocks { s with whl := heldWhl s.whl } := hide_raise_mild (by decide) _
  have hlat : latched 3 0 (refLost s) := latched_raise _ rfl
  cases h : nextRef s.whl with
  | some n =>
    rw [holdoverEnter_found h]
    generalize refLost s = u at hk0 hlat
    have hwhl : u.whl = heldWhl s.whl := same_whl hk0 rfl
    rw [hwhl]
    exact ⟨latched_flt (s := u) rfl hlat, rfl, rfl, rfl, (same_boot hk0 rfl rfl :), (same_pnt hk0 rfl :),
      (same_recs hk0 rfl :), fun hc => absurd hc (Option.some_ne_none n)⟩
  | none =>
    rw [holdoverEnter_none h]
    have hk1 := (hide_raise_mild (b := 3) (i := 1) (by decide) (refLost s)).trans hk0
    have hwhl : (raise 3 1 (refLost s)).whl = heldWhl s.whl := same_whl hk1 rfl
    rw [hwhl]
    exact ⟨fbit_raise_mono 3 1 _ 3 0 hlat, rfl, rfl, rfl, (same_boot hk1 rfl rfl :), (same_pnt hk1 rfl :),
      (same_recs hk1 rfl :), fun _ => ⟨latched_raise _ rfl, rfl, rfl⟩⟩

theorem latched_noteQual {s0 s : State} {b i : Nat} (h : latched b i s) : latched b i (noteQual s0 s) :=
  latched_flt (noteQual_flt s0 s) h

theorem execRefRevert_reverts {n : Nat} {s : State} (hw : isWorker s = false) (hc : bit s.whl.regs.cfg 1 = true)
    (hs : s.whl.selected = true)
    (hq : firstQual s.whl ((List.range s.whl.active.toNat).filter (settledRef s)) = some n) :
    execRefRevert s = .next { s with whl := selectRef n s.whl } := by simp [execRefRevert, hw, hc, hs, hq]

theorem execRefRevert_off {s : State} (hc : bit s.whl.regs.cfg 1 = false) : execRefRevert s = .next s := by
  simp [execRefRevert, hc]

section ListApply
variable {s : State}

/-- The Wheel with the new list and its offsets, its entries as the change leaves them (R522). -/
def relisted (w : Whl) : Whl :=
  { w with
    regs := { w.regs with reflist := w.next.reflist, ofs01 := w.next.ofs01, ofs23 := w.next.ofs23 }
    refs := requalify w.regs.reflist w.next.reflist w.refs }

/-- The active entry stands in the new list as it was. -/
def activeKept (w : Whl) : Bool :=
  refEn w.next.reflist w.active.toNat && refEn w.regs.reflist w.active.toNat &&
    refCh w.regs.reflist w.active.toNat == refCh w.next.reflist w.active.toNat

/-- A change of the list that keeps its active entry, or has none, leaves the selection. -/
theorem execRefListApply_kept (hw : isWorker s = false) (h : s.whl.selected = false ∨ activeKept s.whl = true) :
    execRefListApply s = .next { s with whl := relisted s.whl } := by
  have hsel : (!s.whl.selected || activeKept s.whl) = true := by rcases h with h | h <;> simp [h]
  have hq : noteQual s { s with whl := relisted s.whl } = { s with whl := relisted s.whl } := noteQual_same rfl
  unfold activeKept at hsel
  unfold execRefListApply
  simp only [hw, hsel, Bool.false_eq_true, if_false, if_true]
  exact congrArg Host.Outcome.next hq

theorem execRefListApply_taken {n : Nat} (hw : isWorker s = false) (hs : s.whl.selected = true) (hk : activeKept s.whl = false)
    (hq : firstQual (relisted s.whl) [0, 1, 2, 3] = some n) :
    execRefListApply s = .next { s with whl := selectRef n (relisted s.whl) } := by
  have hn : noteQual s { s with whl := selectRef n (relisted s.whl) } = { s with whl := selectRef n (relisted s.whl) } :=
    noteQual_same rfl
  have hsel : (!s.whl.selected || activeKept s.whl) = false := by simp [hs, hk]
  unfold activeKept at hsel
  unfold relisted at hq
  unfold execRefListApply
  simp only [hw, hsel, hq, Bool.false_eq_true, if_false]
  exact congrArg Host.Outcome.next hn

end ListApply

/-- Settles O17: half-cycles by whether the entry is active, its loss by what holdover does, changes of the list by the
active entry. -/
theorem references : Obligations.References := by
  unfold Obligations.References
  refine ⟨fun n rising s hn hw hp hr he hh => ⟨fun hs ha => ?_, fun hs hq => ?_, fun hs hq => ?_, fun hs ha hq hl => ?_⟩,
    fun s hw => ⟨fun n => execRefRevert_reverts hw, execRefRevert_off, execRefListApply_kept hw,
      fun n => execRefListApply_taken hw⟩⟩
  · exact (execRefHalfCycle_noted hn hw hp hr he hh (by simp [hs, ha])).trans (by rw [hs]; rfl)
  · exact (execRefHalfCycle_noted hn hw hp hr he hh (by simp [hs])).trans (by rw [hs, judged, hq]; rfl)
  · exact (execRefHalfCycle_noted hn hw hp hr he hh (by simp [hs])).trans (by rw [hs, judged, hq]; rfl)
  · subst ha
    obtain ⟨hlat, hhold, hlock, hrefs, hboot, hpnt, hrecs, hnone⟩ :=
      holdoverEnter_spec { s with whl := judgedWhl s.whl.active.toNat rising s }
    refine ⟨_, execRefHalfCycle_lost hn hw hp hr he hh hs rfl hq hl, latched_noteQual hlat, (noteQual_lock _ _).1.trans hhold,
      (noteQual_lock _ _).2.trans hlock, (whlField_noteQual Whl.refs (fun _ _ => rfl) _ _).trans hrefs,
      (noteQual_boot _ _).trans hboot, (noteQual_pnt _ _).trans hpnt, (congrArg Nvs.recs (noteQual_nvs _ _)).trans hrecs,
      fun hf => ?_⟩
    obtain ⟨hall, hsel, hfreq⟩ := hnone hf
    exact ⟨latched_noteQual hall, (whlField_noteQual Whl.selected (fun _ _ => rfl) _ _).trans hsel,
      (whlField_noteQual Whl.freq (fun _ _ => rfl) _ _).trans hfreq⟩

end Sys2Proof.Proofs

namespace Sys2Proof.Proofs
open Sys2Proof Sys2Proof.Machine Sys2Proof.Laws

/-! ### Beacons at a worker -/

/-- The holdover of a worker without beacons (R52, R39). -/
def beaconlessWhl (w : Whl) : Whl :=
  { w with hold := true, lock := false, slew := false, bMissed := 2, bRejects := 0, bGood := 0, pherr := 0 }

theorem beaconLoss_stands {s : State} (h : 2 ≤ s.whl.bMissed) : beaconLoss s = s := by simp [beaconLoss, h]

theorem beaconLoss_enters {s : State} (h : s.whl.bMissed < 2) :
    beaconLoss s = noteQual s (raise 3 2 { s with whl := beaconlessWhl s.whl }) := by
  unfold beaconLoss
  rw [if_neg (Nat.not_le_of_lt h)]
  rfl

/-- A field of the Wheel that a beacon's loss leaves. -/
theorem whlField_beaconLoss {α : Type} (f : Whl → α) (hq : ∀ w l, f { w with qlog := l } = f w)
    (hf : ∀ w, f (beaconlessWhl w) = f w) (s : State) : f (beaconLoss s).whl = f s.whl := by
  by_cases h : 2 ≤ s.whl.bMissed
  · rw [beaconLoss_stands h]
  · rw [beaconLoss_enters (Nat.lt_of_not_le h), whlField_noteQual f hq,
      same_whl (hide_raise_mild (by decide) _) rfl]
    exact hf _

theorem latched_beaconLoss {b i : Nat} {s : State} (h : latched b i s) : latched b i (beaconLoss s) := by
  by_cases hm : 2 ≤ s.whl.bMissed
  · rw [beaconLoss_stands hm]
    exact h
  · rw [beaconLoss_enters (Nat.lt_of_not_le hm)]
    exact latched_noteQual (fbit_raise_mono 3 2 _ b i h)

theorem beaconLoss_holdover {s : State} (h : s.whl.bMissed < 2) :
    (beaconLoss s).whl.hold = true ∧ (beaconLoss s).whl.lock = false ∧ latched 3 2 (beaconLoss s) := by
  have hwhl : (raise 3 2 { s with whl := beaconlessWhl s.whl }).whl = beaconlessWhl s.whl :=
    same_whl (hide_raise_mild (by decide) _) rfl
  rw [beaconLoss_enters h, (noteQual_lock _ _).1, (noteQual_lock _ _).2, hwhl]
  exact ⟨rfl, rfl, latched_noteQual (latched_raise _ rfl)⟩

theorem execBeaconLost_worker {s : State} (hw : isWorker s = true) (flagged : Bool) : execBeaconLost flagged s =
    .next (if flagged && s.whl.sync.isNone then raise 3 4 (beaconLoss s) else beaconLoss s) := by
  simp [execBeaconLost, hw]

/-- Two turns without a beacon are holdover; where they were to bring a SYNC that has not come, it is missed (R52, R56). -/
theorem ends_beaconLost {s : State} (hw : isWorker s = true) (flagged : Bool) : ends (execBeaconLost flagged s) (fun t =>
    (s.whl.bMissed < 2 → t.whl.hold = true ∧ t.whl.lock = false ∧ t.whl.pos = s.whl.pos ∧ latched 3 2 t) ∧
    (flagged = true → s.whl.sync = none → t.whl.pos = s.whl.pos ∧ latched 3 4 t)) := by
  have hpos := whlField_beaconLoss Whl.pos (fun _ _ => rfl) (fun _ => rfl) s
  refine ⟨_, execBeaconLost_worker hw flagged, ?_⟩
  by_cases hm : (flagged && s.whl.sync.isNone) = true
  · have hwhl : (raise 3 4 (beaconLoss s)).whl = (beaconLoss s).whl := same_whl (hide_raise_mild (by decide) _) rfl
    rw [if_pos hm]
    dsimp only
    rw [hwhl]
    refine ⟨fun h => ?_, fun _ _ => ⟨hpos, latched_raise _ rfl⟩⟩
    obtain ⟨hhold, hlock, hlat⟩ := beaconLoss_holdover h
    exact ⟨hhold, hlock, hpos, fbit_raise_mono 3 4 _ 3 2 hlat⟩
  · rw [if_neg hm]
    refine ⟨fun h => ?_, fun hf hs => absurd (by simp [hf, hs]) hm⟩
    obtain ⟨hhold, hlock, hlat⟩ := beaconLoss_holdover h
    exact ⟨hhold, hlock, hpos, hlat⟩

theorem execBeaconLost_again {flagged : Bool} {s : State} (hw : isWorker s = true) (hm : 2 ≤ s.whl.bMissed)
    (h : flagged = false ∨ s.whl.sync.isSome = true) : execBeaconLost flagged s = .next s := by
  have hmissed : (flagged && s.whl.sync.isNone) = false := by
    rcases h with h | h
    · simp [h]
    · simp [Option.isNone_eq_false_iff.2 h]
  rw [execBeaconLost_worker hw, hmissed, beaconLoss_stands hm]
  rfl

/-- The own position that a beacon of delay `d` shows (R52). -/
def beaconPos (b : Beacon) (d : Nat) : W64 :=
  b.pos + BitVec.ofNat 64 ((2 * d * b.freq.toNat + 1000000000) / 2000000000)

/-- The Wheel's residual against that position. -/
def beaconRes (b : Beacon) (d : Nat) (w : Whl) : Int := (w.pos - beaconPos b d).toInt

/-- The beacon shows another turn, or a position more than 1° away (R52). -/
def beaconFar (b : Beacon) (d : Nat) (w : Whl) : Prop :=
  turnOf (beaconPos b d) ≠ turnOf w.pos ∨ 2 ^ 24 < (beaconRes b d w).natAbs * 360

/-- An accepted beacon's part in LOCK (R52). -/
def beaconLock (b : Beacon) (d : Nat) (res : Int) (x : Whl) : Whl :=
  let g := if res.natAbs ≤ 32 then min 4 (x.bGood + 1) else 0
  let on := x.lock || g ≥ 4
  { x with bGood := g, lock := on, nolock := x.nolock && !on, hold := bit b.state 1 || !on, bRejects := 0, bMissed := 0,
           bLast := turnOf (beaconPos b d) }

/-- The Wheel set by its first beacon. -/
def setWhl (b : Beacon) (d : Nat) (s : State) : Whl :=
  let w := { s.whl with pos := beaconPos b d, rem := 0, freq := b.freq, delta := deltaOf b.freq.toNat, pherr := 0 }
  beaconLock b d (beaconRes b d s.whl) { w with u := if s.dec.run then gridU s w else w.u }

/-- The Wheel after a near beacon: its frequency, and the residual left to slewing. -/
def nearWhl (b : Beacon) (d : Nat) (w : Whl) : Whl :=
  beaconLock b d (beaconRes b d w)
    { w with freq := b.freq, pherr := BitVec.ofInt 32 (beaconRes b d w), slew := ((beaconRes b d w).natAbs : Int) > lockIn }

/-- What a rejected beacon leaves, before a third in a row is a loss. -/
def rejected (b : Beacon) (s : State) : State :=
  raise 3 3 { s with whl := beaconSync b false { s.whl with bRejects := s.whl.bRejects + 1, bGood := 0 } }

/-- A beacon of the selected direction sets a Wheel that none has set, is rejected where it is far, else leaves its residual
to slewing (R52). -/
theorem beaconWheel_eq (b : Beacon) (d : Nat) (s : State) : beaconWheel b d s = noteQual s (
    if s.whl.nolock then { s with whl := beaconSync b true (setWhl b d s) }
    else if turnOf (beaconPos b d) != turnOf s.whl.pos || (beaconRes b d s.whl).natAbs * 360 > 2 ^ 24 then
      if (rejected b s).whl.bRejects ≥ 3 then beaconLoss (rejected b s) else rejected b s
    else { s with whl := beaconSync b true (nearWhl b d s.whl) }) := rfl

/-- The fourth residual in a row within 32 units sets LOCK, which stands from then on (R52, log entry 88). -/
theorem beaconLock_on (b : Beacon) (d : Nat) {res : Int} {x : Whl} (h : x.lock = true ∨ (res.natAbs ≤ 32 ∧ 3 ≤ x.bGood)) :
    (beaconLock b d res x).lock = true ∧ (beaconLock b d res x).hold = bit b.state 1 := by
  have hon : (x.lock || decide ((if res.natAbs ≤ 32 then min 4 (x.bGood + 1) else 0) ≥ 4)) = true := by
    rcases h with h | ⟨hr, hg⟩
    · rw [h, Bool.true_or]
    · rw [if_pos hr, decide_eq_true (by omega), Bool.or_true]
  exact ⟨hon, by simp only [beaconLock, hon, Bool.not_true, Bool.or_false]⟩

/-- A SYNC flag changes only what waits of a SYNC. -/
theorem whlField_beaconSync {α : Type} (f : Whl → α) (hf : ∀ w q t, f { w with sync := q, syncMissTurn := t } = f w)
    (b : Beacon) (ok : Bool) (w : Whl) : f (beaconSync b ok w) = f w := by
  unfold beaconSync
  split
  · rfl
  · split
    · exact hf _ _ _
    · exact hf w w.sync _

section BeaconWheel
variable (b : Beacon) (d : Nat) {s : State}

/-- The first beacon sets the Wheel. -/
theorem beaconWheel_first (hn : s.whl.nolock = true) : (beaconWheel b d s).whl.pos = beaconPos b d ∧
    (beaconWheel b d s).whl.freq = b.freq ∧ (beaconWheel b d s).coil = s.coil ∧ (beaconWheel b d s).flt = s.flt := by
  rw [beaconWheel_eq, if_pos hn, noteQual_coil, noteQual_flt, whlField_noteQual Whl.pos (fun _ _ => rfl),
    whlField_noteQual Whl.freq (fun _ _ => rfl)]
  exact ⟨whlField_beaconSync Whl.pos (fun _ _ _ => rfl) b true (setWhl b d s),
    whlField_beaconSync Whl.freq (fun _ _ _ => rfl) b true (setWhl b d s), rfl, rfl⟩

theorem beaconWheel_near_eq (hn : s.whl.nolock = false) (hf : ¬ beaconFar b d s.whl) :
    beaconWheel b d s = noteQual s { s with whl := beaconSync b true (nearWhl b d s.whl) } := by
  rw [beaconWheel_eq, hn, if_neg Bool.false_ne_true, if_neg (by simpa [beaconFar] using hf)]

theorem beaconWheel_far_eq (hn : s.whl.nolock = false) (hf : beaconFar b d s.whl) :
    beaconWheel b d s = noteQual s (if (rejected b s).whl.bRejects ≥ 3 then beaconLoss (rejected b s) else rejected b s) := by
  rw [beaconWheel_eq, hn, if_neg Bool.false_ne_true, if_pos (by simpa [beaconFar] using hf)]

/-- A near beacon sets the frequency and leaves its residual to slewing. -/
theorem beaconWheel_near (hn : s.whl.nolock = false) (hf : ¬ beaconFar b d s.whl) :
    (beaconWheel b d s).whl.pos = s.whl.pos ∧ (beaconWheel b d s).whl.freq = b.freq ∧
    (beaconWheel b d s).whl.pherr = BitVec.ofInt 32 (beaconRes b d s.whl) ∧ (beaconWheel b d s).whl.bMissed = 0 ∧
    (beaconWheel b d s).whl.bRejects = 0 ∧
    (s.whl.lock = true ∨ ((beaconRes b d s.whl).natAbs ≤ 32 ∧ 3 ≤ s.whl.bGood) →
      (beaconWheel b d s).whl.lock = true ∧ (beaconWheel b d s).whl.hold = bit b.state 1) ∧
    (beaconWheel b d s).coil = s.coil ∧ (beaconWheel b d s).flt = s.flt := by
  have field : ∀ {α : Type} (f : Whl → α), (∀ w l, f { w with qlog := l } = f w) →
      (∀ w q t, f { w with sync := q, syncMissTurn := t } = f w) → f (beaconWheel b d s).whl = f (nearWhl b d s.whl) :=
    fun f hq hs => by
      rw [beaconWheel_near_eq b d hn hf, whlField_noteQual f hq]
      exact whlField_beaconSync f hs _ _ _
  refine ⟨field Whl.pos (fun _ _ => rfl) (fun _ _ _ => rfl), field Whl.freq (fun _ _ => rfl) (fun _ _ _ => rfl),
    field Whl.pherr (fun _ _ => rfl) (fun _ _ _ => rfl), field Whl.bMissed (fun _ _ => rfl) (fun _ _ _ => rfl),
    field Whl.bRejects (fun _ _ => rfl) (fun _ _ _ => rfl), fun h => ?_, ?_, ?_⟩
  · rw [field Whl.lock (fun _ _ => rfl) (fun _ _ _ => rfl), field Whl.hold (fun _ _ => rfl) (fun _ _ _ => rfl)]
    exact beaconLock_on b d h
  · rw [beaconWheel_near_eq b d hn hf, noteQual_coil]
  · rw [beaconWheel_near_eq b d hn hf, noteQual_flt]

/-- What a rejection leaves of a field outside the counts and the waiting SYNC. -/
theorem whlField_rejected {α : Type} (f : Whl → α) (hs : ∀ w q t, f { w with sync := q, syncMissTurn := t } = f w) :
    f (rejected b s).whl = f { s.whl with bRejects := s.whl.bRejects + 1, bGood := 0 } := by
  have hwhl : (rejected b s).whl = beaconSync b false { s.whl with bRejects := s.whl.bRejects + 1, bGood := 0 } :=
    same_whl (hide_raise_mild (by decide) _) rfl
  rw [hwhl]
  exact whlField_beaconSync f hs _ _ _

/-- A far beacon is rejected; the third in a row is holdover. -/
theorem beaconWheel_far (hn : s.whl.nolock = false) (hf : beaconFar b d s.whl) :
    (beaconWheel b d s).whl.pos = s.whl.pos ∧ (beaconWheel b d s).whl.freq = s.whl.freq ∧ latched 3 3 (beaconWheel b d s) ∧
    (2 ≤ s.whl.bRejects → s.whl.bMissed < 2 →
      (beaconWheel b d s).whl.hold = true ∧ (beaconWheel b d s).whl.lock = false ∧ latched 3 2 (beaconWheel b d s)) := by
  have hpos : (rejected b s).whl.pos = s.whl.pos := whlField_rejected b Whl.pos (fun _ _ _ => rfl)
  have hfreq : (rejected b s).whl.freq = s.whl.freq := whlField_rejected b Whl.freq (fun _ _ _ => rfl)
  have hcount : (rejected b s).whl.bRejects = s.whl.bRejects + 1 := whlField_rejected b Whl.bRejects (fun _ _ _ => rfl)
  have hmiss : (rejected b s).whl.bMissed = s.whl.bMissed := whlField_rejected b Whl.bMissed (fun _ _ _ => rfl)
  have hlat : latched 3 3 (rejected b s) := latched_raise _ rfl
  rw [beaconWheel_far_eq b d hn hf, whlField_noteQual Whl.pos (fun _ _ => rfl), whlField_noteQual Whl.freq (fun _ _ => rfl),
    (noteQual_lock _ _).1, (noteQual_lock _ _).2]
  by_cases hc : (rejected b s).whl.bRejects ≥ 3
  · rw [if_pos hc]
    refine ⟨(whlField_beaconLoss Whl.pos (fun _ _ => rfl) (fun _ => rfl) _).trans hpos,
      (whlField_beaconLoss Whl.freq (fun _ _ => rfl) (fun _ => rfl) _).trans hfreq, latched_noteQual (latched_beaconLoss hlat),
      fun _ hm => ?_⟩
    obtain ⟨hhold, hlock, hlost⟩ := beaconLoss_holdover (hmiss.trans_lt hm)
    exact ⟨hhold, hlock, latched_noteQual hlost⟩
  · rw [if_neg hc]
    exact ⟨hpos, hfreq, latched_noteQual hlat, fun h _ => absurd (hcount ▸ Nat.succ_le_succ h) hc⟩

end BeaconWheel

section Receive
variable {b : Beacon} {s : State}

/-- D of the direction that a beacon arrives in (R381). -/
def beaconDelay (b : Beacon) (s : State) : Nat := b.pathDelay.toNat + linkDelay (unwrapAll s) (if b.ccw then 1 else 0)

/-- The worker's side with the beacon noted: its direction's D and last turn (R381). -/
def heard (b : Beacon) (d : Nat) (w : WSide) : WSide :=
  { w with
    dCw := if b.ccw then w.dCw else some (BitVec.ofNat 32 d), dCcw := if b.ccw then some (BitVec.ofNat 32 d) else w.dCcw
    bCw := if b.ccw then w.bCw else some (turnOf b.pos), bCcw := if b.ccw then some (turnOf b.pos) else w.bCcw }

theorem heard_delay (b : Beacon) (d : Nat) (w : WSide) :
    (if b.ccw then (heard b d w).dCcw else (heard b d w).dCw) = some (BitVec.ofNat 32 d) := by
  cases h : b.ccw <;> simp [heard, h]

/-- The beacon noted and its direction selected, with the RTC offset that the beacon shows (R381, R383). -/
def followed (b : Beacon) (d : Nat) (s : State) : State :=
  { unwrapAll s with coil.w := { heard b d s.coil.w with
      ccw := b.ccw, d := BitVec.ofNat 32 d, rtcOfs := (beaconOfs b d (unwrapAll s) :: s.coil.w.rtcOfs).take 64 } }

/-- The selected direction has stopped, or wraps (R381). -/
def selectedGone (b : Beacon) (s : State) : Prop :=
  (getPort (unwrapAll s) (1 - (if b.ccw then 1 else 0))).wrap = true ∨
    dirStopped s.coil.w (turnOf b.pos) (beaconDelay b s) = true

/-- No beacon has been noted yet, and the worker is not enumerated. -/
def noneHeard (w : WSide) : Prop := w.dCw = none ∧ w.dCcw = none ∧ w.enumerated = false

/-- The beacon's direction is the selected one, or becomes it (R381). -/
def follows (b : Beacon) (s : State) : Bool :=
  (s.coil.w.dCw.isNone && s.coil.w.dCcw.isNone && !s.coil.w.enumerated) ||
  (s.coil.w.ccw != b.ccw && ((getPort (unwrapAll s) (1 - (if b.ccw then 1 else 0))).wrap ||
    dirStopped s.coil.w (turnOf b.pos) (beaconDelay b s))) || s.coil.w.ccw == b.ccw

theorem follows_iff : follows b s = true ↔ s.coil.w.ccw = b.ccw ∨ selectedGone b s ∨ noneHeard s.coil.w := by
  by_cases hccw : s.coil.w.ccw = b.ccw
  · simp [follows, hccw]
  · simp [follows, hccw, selectedGone, noneHeard, or_comm, and_assoc]

theorem execBeaconReceive_idle (h : s.whl.run = false ∨ s.flt.phase = .safe) : execBeaconReceive b s = .next s := by
  rcases h with h | h <;> simp [execBeaconReceive, h]

theorem execBeaconReceive_running (hw : isWorker s = true) (hr : s.whl.run = true) (hp : s.flt.phase ≠ .safe) :
    execBeaconReceive b s = .next (
      if !follows b s then { unwrapAll s with coil.w := heard b (beaconDelay b s) s.coil.w }
      else beaconWheel b (beaconDelay b s) (followed b (beaconDelay b s) s)) := by
  have hlive : (!isWorker s || !s.whl.run || s.flt.phase == .safe) = false := by simp [hw, hr, hp]
  unfold execBeaconReceive
  rw [hlive]
  rfl

section Running
variable (hw : isWorker s = true) (hr : s.whl.run = true) (hp : s.flt.phase ≠ .safe)
include hw hr hp

theorem execBeaconReceive_followed (hsel : s.coil.w.ccw = b.ccw ∨ selectedGone b s ∨ noneHeard s.coil.w) :
    execBeaconReceive b s = .next (beaconWheel b (beaconDelay b s) (followed b (beaconDelay b s) s)) := by
  rw [execBeaconReceive_running hw hr hp, follows_iff.2 hsel]
  rfl

theorem execBeaconReceive_noted (hccw : s.coil.w.ccw ≠ b.ccw) (hg : ¬ selectedGone b s)
    (hh : s.coil.w.dCw.isSome = true ∨ s.coil.w.dCcw.isSome = true ∨ s.coil.w.enumerated = true) :
    execBeaconReceive b s = .next { unwrapAll s with coil.w := heard b (beaconDelay b s) s.coil.w } := by
  have hheard : ¬ noneHeard s.coil.w := by
    rintro ⟨hcw, hccw, hen⟩
    simp [hcw, hccw, hen] at hh
  have hnot : follows b s = false := Bool.eq_false_iff.2 (fun h => by
    rcases follows_iff.1 h with h | h | h
    · exact hccw h
    · exact hg h
    · exact hheard h)
  rw [execBeaconReceive_running hw hr hp, hnot]
  rfl

end Running
end Receive

/-- Settles O55: beacons by whether their direction is followed, a followed one by what it does to the Wheel, losses by what
holdover does. -/
theorem workerBeacons : Obligations.WorkerBeacons := by
  unfold Obligations.WorkerBeacons
  intro b s hw
  refine ⟨fun hr hp => ⟨fun hsel => ?_, fun hccw hg hh => ?_⟩, execBeaconReceive_idle,
    fun flagged => ⟨fun hm => ?_, fun hf hs => ?_, execBeaconLost_again hw⟩⟩
  · have hexec := execBeaconReceive_followed hw hr hp hsel
    refine ⟨fun hn => ?_, fun hn hfar => ?_, fun hn hfar => ?_⟩
    · obtain ⟨hpos, hfreq, hcoil, hflt⟩ := beaconWheel_first b (beaconDelay b s) (s := followed b (beaconDelay b s) s) hn
      exact ⟨_, hexec, hpos, hfreq, by rw [hcoil]; rfl, by rw [hcoil]; rfl, hflt⟩
    · obtain ⟨hpos, hfreq, herr, hmiss, hrej, hlock, hcoil, hflt⟩ :=
        beaconWheel_near b (beaconDelay b s) (s := followed b (beaconDelay b s) s) hn hfar
      exact ⟨_, hexec, hpos, hfreq, herr, hmiss, hrej, hlock, by rw [hcoil]; rfl, by rw [hcoil]; rfl, hflt⟩
    · exact ⟨_, hexec, beaconWheel_far b (beaconDelay b s) (s := followed b (beaconDelay b s) s) hn hfar⟩
  · refine ⟨_, execBeaconReceive_noted hw hr hp hccw hg hh, rfl, rfl, rfl, ?_⟩
    exact heard_delay b (beaconDelay b s) s.coil.w
  · obtain ⟨t, ht, h, -⟩ := ends_beaconLost hw flagged
    exact ⟨t, ht, h hm⟩
  · obtain ⟨t, ht, -, h⟩ := ends_beaconLost hw flagged
    exact ⟨t, ht, h hf hs⟩

end Sys2Proof.Proofs

namespace Sys2Proof.Proofs
open Sys2Proof Sys2Proof.Machine Sys2Proof.Laws

/-! ### The front end's block under operations on other blocks -/

@[simp] theorem afe_settleNow (ms : List Nat) (s : State) : (settleNow ms s).afe = s.afe :=
  same_afe (@hide_settleNow { dec := true } ⟨rfl⟩ ms s) rfl

@[simp] theorem afe_loadBoth (i : Nat) (b : List Int × BitVec 4 × BitVec 24) (s : State) : (loadBoth i b s).afe = s.afe :=
  same_afe (@hide_loadBoth { dec := true } ⟨rfl⟩ i b s) rfl

@[simp] theorem afe_withdraw (i : Nat) (s : State) : (withdraw i s).afe = s.afe :=
  same_afe (@hide_withdraw { dec := true } ⟨rfl⟩ i s) rfl

@[simp] theorem afe_holdNow (m : Nat) (s : State) : (holdNow m s).afe = s.afe := rfl

@[simp] theorem afe_modeFrom (m : Nat) (turn : BitVec 40) (md : Nat) (s : State) : (modeFrom m turn md s).afe = s.afe := rfl

@[simp] theorem afe_startFade (i : Nat) (s : State) : (startFade i s).afe = s.afe :=
  same_afe (@hide_startFade { nvs := true, dec := true, pnt := true } ⟨rfl⟩ ⟨rfl⟩ ⟨rfl⟩ i s) rfl

@[simp] theorem afe_raise (b i : Nat) (s : State) : (raise b i s).afe = s.afe :=
  same_afe (@hide_raise faultBlocks ⟨rfl⟩ ⟨rfl⟩ ⟨rfl⟩ ⟨rfl⟩ ⟨rfl⟩ ⟨rfl⟩ ⟨rfl⟩ b i s) rfl

/-- The blocks that new codes in the DACs change: the calibration's own, and a raise's. -/
def codeBlocks : Mask := { faultBlocks with cal := true }

theorem hide_writeCodes_own (ms : List Nat) (s : State) : hide codeBlocks (writeCodes ms s) = hide codeBlocks s :=
  @hide_writeCodes codeBlocks ⟨rfl⟩ ⟨rfl⟩ ⟨rfl⟩ ⟨rfl⟩ ⟨rfl⟩ ⟨rfl⟩ ⟨rfl⟩ ⟨rfl⟩ ms s

@[simp] theorem afe_writeCodes (ms : List Nat) (s : State) : (writeCodes ms s).afe = s.afe :=
  same_afe (hide_writeCodes_own ms s) rfl

/-- Isolation changes no field of the front end but AFE_ISOSTAT. -/
theorem afeField_isolate {α : Type} (f : Afe → α) (hf : ∀ a w, f { a with iso := w } = f a) (ms : List Nat) (s : State) :
    f (isolate ms s).afe = f s.afe := by
  unfold isolate
  induction ms generalizing s with
  | nil => rfl
  | cons m ms ih => exact (ih _).trans (hf _ _)

theorem afeField_reconnect {α : Type} (f : Afe → α) (hf : ∀ a w, f { a with iso := w } = f a) (ms : List Nat) (s : State) :
    f (reconnect ms s).afe = f s.afe := by
  unfold reconnect
  induction ms generalizing s with
  | nil => rfl
  | cons m ms ih => exact (ih _).trans (hf _ _)

theorem getShadow_sh {s t : State} (h : t.afe.sh = s.afe.sh) (b : Nat) : getShadow t b = getShadow s b := by
  rw [getShadow, h]; rfl

theorem getShadow_afe {s t : State} (h : t.afe = s.afe) (b : Nat) : getShadow t b = getShadow s b :=
  getShadow_sh (congrArg Afe.sh h) b

theorem getShadow_isolate (ms : List Nat) (s : State) (b : Nat) : getShadow (isolate ms s) b = getShadow s b :=
  getShadow_sh (afeField_isolate Afe.sh (fun _ _ => rfl) ms s) b

theorem getShadow_reconnect (ms : List Nat) (s : State) (b : Nat) : getShadow (reconnect ms s) b = getShadow s b :=
  getShadow_sh (afeField_reconnect Afe.sh (fun _ _ => rfl) ms s) b

/-! ### Shadow modulators: rotation, comparison and self-check -/

/-- A shadow at the start of a dwell on channel `j` of its bank (R73). -/
def dwellShadow (x : ShadowMod) (j : Nat) : ShadowMod := { x with mirror := BitVec.ofNat 4 j, dwell := 0, disagree := 0, prev := none }

theorem afe_startDwell_some (b j : Nat) (s : State) :
    (startDwell b (some j) s).afe = (setShadow b (dwellShadow (getShadow s b) j) s).afe := by
  simp only [startDwell, afe_settleNow, afe_writeCodes, afe_loadBoth]
  rfl

theorem getShadow_startDwell (b j : Nat) (s : State) :
    getShadow (startDwell b (some j) s) b = dwellShadow (getShadow s b) j :=
  (getShadow_afe (afe_startDwell_some b j s) b).trans (getShadow_setShadow ..)

/-- A suspect channel's shadow begins its self-check with that channel as the mirrored one (R75). -/
theorem getShadow_declareSuspect (b j : Nat) (now : Bool) (s : State) :
    (getShadow (declareSuspect b j now s) b).st = .selfcheck ∧
      (getShadow (declareSuspect b j now s) b).mirror = BitVec.ofNat 4 j := by
  have hx : ∀ x, getShadow (withdraw (phasePair (12 + 16 * b + j)) (holdNow (12 + 16 * b + j) (setShadow b x s))) b = x :=
    fun x => (getShadow_afe (by rw [afe_withdraw, afe_holdNow]) b).trans (getShadow_setShadow b x s)
  unfold declareSuspect
  dsimp -proj only
  cases now
  · simp [hx]
  · simp [getShadow_isolate, hx]

theorem execShadowDwellAdvance_early {b : Nat} {s : State} (hd : (getShadow s b).dwell.toNat < 15) :
    execShadowDwellAdvance b s = .next s := by
  simp [execShadowDwellAdvance, hd]

theorem execShadowSelfcheckStep_rotating {b : Nat} {s : State} (hr : (getShadow s b).st = .rotate) :
    execShadowSelfcheckStep b s = .next s := by
  simp [execShadowSelfcheckStep, hr]

section Rotating
variable {b : Nat} {s : State} (hb : b < 3) (hr : (getShadow s b).st = .rotate)
include hb hr

/-- After 16 turns the shadow takes the next enabled channel and keeps the count for the last turn's judgement (R73). -/
theorem ends_shadowDwellAdvance {k : Nat} (hd : (getShadow s b).dwell = 15)
    (hk : nextMirror s b (getShadow s b).mirror.toNat = some k) : ends (execShadowDwellAdvance b s) (fun t =>
      getShadow t b = { dwellShadow (getShadow s b) k with prev := some ((getShadow s b).mirror, (getShadow s b).disagree) }) := by
  have hgo : (decide (b ≥ 3) || (getShadow s b).st != .rotate || decide ((getShadow s b).dwell.toNat < 15)) = false := by
    simp [hr, hd, hb]
  refine ends_of (by simp only [execShadowDwellAdvance, hgo, hk]; exact congrArg _ (if_neg Bool.false_ne_true)) ?_
  rw [getShadow_setShadow, getShadow_startDwell]

/-- Turns 3 to 16 of a dwell are judged while the shadow still mirrors the channel (R74, R75). -/
theorem execShadowCompareTurn_dwell (hd : turnLag s + 2 ≤ (getShadow s b).dwell.toNat)
    (hc : comparable b (getShadow s b).mirror.toNat s = true) : execShadowCompareTurn b s = .next (
      if turnAgrees b (getShadow s b).mirror.toNat s then setShadow b { getShadow s b with disagree := 0 } s
      else if 3 ≤ (getShadow s b).disagree.toNat then declareSuspect b (getShadow s b).mirror.toNat true s
      else setShadow b { getShadow s b with disagree := (getShadow s b).disagree + 1 } s) := by
  simp [execShadowCompareTurn, hr, hd, hc, Nat.not_le.2 hb]

/-- Turn 16 is judged after the shadow has moved on (R74, R75). -/
theorem execShadowCompareTurn_last {m : BitVec 4} {d : BitVec 3} (hd : (getShadow s b).dwell.toNat < turnLag s)
    (hp : (getShadow s b).prev = some (m, d)) (hc : comparable b m.toNat s = true) (ha : turnAgrees b m.toNat s = false)
    (h3 : 3 ≤ d.toNat) : execShadowCompareTurn b s = .next (declareSuspect b m.toNat true s) := by
  have hlag : ¬ turnLag s + 2 ≤ (getShadow s b).dwell.toNat := by omega
  simp [execShadowCompareTurn, hr, hp, hc, ha, h3, hlag, Nat.not_le.2 hb, Nat.not_le.2 hd]

end Rotating

section Checking
variable {b : Nat} {s : State} (hb : b < 3)
include hb

theorem execShadowSelfcheckStep_zero (hst : (getShadow s b).st = .selfcheck) (ht : (getShadow s b).turn = 1) :
    execShadowSelfcheckStep b s = .next (setShadow b (nextLevel 2 (levelPassed 0 (getShadow s b)) (getShadow s b) s) s) := by
  simp [execShadowSelfcheckStep, hst, ht, Nat.not_le.2 hb]

theorem execShadowSelfcheckStep_positive (hst : (getShadow s b).st = .selfcheck) (ht : (getShadow s b).turn = 2) :
    execShadowSelfcheckStep b s = .next
      (setShadow b (nextLevel 3 ((getShadow s b).ok && levelPassed 8000 (getShadow s b)) (getShadow s b) s) s) := by
  simp [execShadowSelfcheckStep, hst, ht, Nat.not_le.2 hb]

theorem execShadowSelfcheckStep_negative (hst : (getShadow s b).st = .selfcheck) (ht : (getShadow s b).turn = 3) :
    execShadowSelfcheckStep b s = .next (if (getShadow s b).ok && levelPassed (-8000) (getShadow s b) then
      reconnect [60 + b] (setShadow b { getShadow s b with st := .reconnect, turn := 4 } s) else failCheck b s) := by
  simp [execShadowSelfcheckStep, hst, ht, Nat.not_le.2 hb]

theorem execShadowSelfcheckStep_reconnect (hst : (getShadow s b).st = .reconnect) :
    execShadowSelfcheckStep b s = .next (if (getShadow s b).turn = 4 then
      writeSubst b 4 (getShadow s b).mirror.toNat (setShadow b { getShadow s b with turn := 5 } s)
      else if substWritten s b then startSubst b s else s) := by
  simp [execShadowSelfcheckStep, hst, Nat.not_le.2 hb]

theorem execShadowSelfcheckStep_fade (hst : (getShadow s b).st = .fade) :
    execShadowSelfcheckStep b s = .next (modeFrom (mirrorCh b (getShadow s b)) (thisTurn s) 0
      (setShadow b { getShadow s b with st := .substituted, turn := 0 } s)) := by
  simp [execShadowSelfcheckStep, hst, Nat.not_le.2 hb]

end Checking

/-- The substitution fade begins with SHADOW_SUBST raised (R75 step 6a). -/
theorem startSubst_spec (b : Nat) (s : State) :
    getShadow (startSubst b s) b = { getShadow s b with st := .fade, subst := (getShadow s b).mirror, turn := 6 } ∧
      latched 1 1 (startSubst b s) := by
  refine ⟨?_, latched_raise _ rfl⟩
  unfold startSubst
  extract_lets x c i s2 s3
  refine (getShadow_afe ?_ b).trans (getShadow_setShadow b _ s)
  rw [afe_raise, afe_modeFrom, afe_startFade]
  rfl

/-- Settles O25: each step of a rotating shadow and of its self-check by the lemma on it. -/
theorem shadows : Obligations.Shadows := by
  unfold Obligations.Shadows
  refine ⟨fun b s hb hr => ⟨fun k hd hk => ?_, execShadowDwellAdvance_early, fun hd hc => ?_,
    fun hd m d hp hc ha h3 => execShadowCompareTurn_last hb hr hd hp hc ha h3, fun k now => getShadow_declareSuspect b k now s⟩,
    fun b s hb => ⟨fun hst => ⟨execShadowSelfcheckStep_zero hb hst, execShadowSelfcheckStep_positive hb hst,
      fun ht hok hp => ?_, fun ht hp => ?_⟩, fun hst => ?_, fun hst => ?_, execShadowSelfcheckStep_rotating⟩⟩
  · obtain ⟨t, ht, hx⟩ := ends_shadowDwellAdvance hb hr hd hk
    exact ends_of ht (by rw [hx]; exact ⟨rfl, rfl, rfl, rfl, hr⟩)
  · have hexec := execShadowCompareTurn_dwell hb hr hd hc
    exact ⟨fun ha => hexec.trans (by simp [ha]), fun ha h3 => hexec.trans (by simp [ha, Nat.not_le.2 h3]),
      fun ha h3 => hexec.trans (by simp [ha, h3])⟩
  · have hexec := execShadowSelfcheckStep_negative hb hst ht
    exact ends_of (hexec.trans (congrArg _ (if_pos (by simp [hok, hp])))) (by
      rw [getShadow_reconnect, getShadow_setShadow]; exact ⟨rfl, rfl⟩)
  · exact (execShadowSelfcheckStep_negative hb hst ht).trans (by simp [hp])
  · have hexec := execShadowSelfcheckStep_reconnect hb hst
    obtain ⟨hx, hl⟩ := startSubst_spec b s
    exact ⟨fun ht => hexec.trans (by simp [ht]),
      fun ht hw => ends_of (hexec.trans (by rw [if_neg ht, if_pos hw])) (by rw [hx]; exact ⟨rfl, rfl, hl⟩),
      fun ht hw => hexec.trans (by simp [ht, hw])⟩
  · exact ends_of (execShadowSelfcheckStep_fade hb hst) (by
      rw [getShadow_afe (afe_modeFrom ..), getShadow_setShadow]; exact ⟨rfl, rfl, rfl⟩)

end Sys2Proof.Proofs

namespace Sys2Proof.Proofs
open Sys2Proof Sys2Proof.Machine Sys2Proof.Laws

/-! ### The stuck bits over a freeze -/

theorem afe_complete (w : Waiter) (st : W16) (q : W32) (d : List Byte) (s : State) : (complete w st q d s).afe = s.afe :=
  same_afe (hide_complete_own w st q d s) rfl

theorem afe_setWss (f : State → Nat → WStream) (l : List Nat) (s : State) :
    (l.foldl (fun u c => setWs c (f u c) u) s).afe = s.afe :=
  same_afe (hide_foldl (fun t c => @hide_setWs { pnt := true } ⟨rfl⟩ c _ t) l s) rfl

/-- A shadow that resumes leaves every field of the front end but the shadows. -/
theorem afeField_resumeShadow {α : Type} (f : Afe → α) (hf : ∀ a t, f { a with sh := t } = f a) (g : Nat) (s : State) :
    f (resumeShadow g s).afe = f s.afe := by
  unfold resumeShadow
  dsimp -proj only
  split
  · exact hf _ _
  · rfl

theorem stuck_calAbort (s : State) : (calAbort s).afe.stuck = s.afe.stuck := by
  have hrecon := fun ms u => afeField_reconnect Afe.stuck (fun _ _ => rfl) ms u
  have hend : ∀ (k g a : Nat) (b : Bool) (r : List Nat) (c : Bool) (st : Stamp) (u : State),
      (calIdle (calEvent k g a b r c st u)).afe = u.afe := fun _ _ _ _ _ _ _ _ => rfl
  unfold calAbort
  extract_lets g x rs s1 s2 s4
  have h1 : s1.afe.stuck = s.afe.stuck := by unfold s1; split <;> [exact hrecon _ _; rfl]
  have h2 : s2.afe.stuck = s1.afe.stuck := by
    unfold s2
    split
    · rw [afe_setWss (fun u c => { getWs u c with mode := 0, sw := none })]
      exact afeField_resumeShadow Afe.stuck (fun _ _ => rfl) g s1
    · rfl
  split
  · rfl
  · exact (congrArg Afe.stuck (hend _ _ _ _ _ _ _ _)).trans (hrecon _ _)
  · split
    · exact (congrArg Afe.stuck (afe_complete _ _ _ _ _)).trans (h2.trans h1)
    · exact h2.trans h1

theorem stuck_freeze (s : State) : (freeze s).afe.stuck = s.afe.stuck := by
  have : Hidden true := ⟨rfl⟩
  unfold freeze
  split
  · rfl
  · extract_lets s0 st
    refine (stuck_calAbort _).trans (congrArg Afe.stuck ?_)
    unfold s0 st
    exact same_afe (μ := freezeBlocks) (by simp [freezeBlocks, faultBlocks]) rfl

/-- A stop of accumulation (R29): metering freezes, outside METERING the source is latched; the stuck bits stand. -/
theorem severeStop_spec {src : Nat} {s : State} (hc : srcClass 1 src = some .severe) (hl : bit (getBlk s 1).flive src = false) :
    (severeStop src s).afe.stuck = s.afe.stuck ∧ (metering s = true → (severeStop src s).pnt.frozen = true) ∧
      (metering s = false → latched 1 src (severeStop src s)) := by
  have hk := hide_raiseLive_mild (b := 1) (i := src) (by simp [hc]) s
  have hmet : metering (raiseLive 1 src s) = metering s := by unfold metering; rw [same_bootSt hk rfl]
  unfold severeStop
  refine ⟨(stuck_freeze _).trans (congrArg Afe.stuck (same_afe hk rfl)), fun hm => frozen_freeze _ (hmet.trans hm), fun hm => ?_⟩
  have hfreeze : freeze (raiseLive 1 src s) = raiseLive 1 src s := by simp [freeze, hmet, hm]
  rw [hfreeze]
  exact latched_raiseLive s (by simp [hc]) hl

/-! ### Stuck modulators by their kind (R77) -/

theorem stuckAct_voltage {m : Nat} (h : m < 12) (s : State) : stuckAct m s = severeStop 4 s := if_pos h

theorem stuckAct_auxiliary {m : Nat} (h : 63 ≤ m) (s : State) : stuckAct m s = raise 1 5 s := by
  simp [stuckAct, h, show ¬ m < 12 by omega]

theorem stuckAct_rotatingShadow {m : Nat} {s : State} (h : 60 ≤ m) (h3 : m < 63) (hr : (getShadow s (m - 60)).st = .rotate) :
    stuckAct m s = retire (m - 60) s := by
  simp [stuckAct, h, hr, show ¬ m < 12 by omega, Nat.not_le.2 h3]

theorem stuckAct_mirroredBank {m : Nat} {s : State} (h : 12 ≤ m) (h60 : m < 60) (hr : (getShadow s ((m - 12) / 16)).st = .rotate) :
    stuckAct m s = declareSuspect ((m - 12) / 16) ((m - 12) % 16) false s := by
  simp [stuckAct, hr, Nat.not_lt.2 h, Nat.not_le.2 h60, show ¬ 63 ≤ m by omega]

/-- A modulator with its stuck bit set. -/
def noteStuck (m : Nat) (s : State) : State := { s with afe.stuck := setBit s.afe.stuck m true }

theorem bit_noteStuck {m : Nat} (hm : m < 65) (s : State) : bit (noteStuck m s).afe.stuck m = true := by
  simp [noteStuck, bit_setBit _ _ _ _ hm]

theorem execModulatorStuck_again {m : Nat} {s : State} (h : bit s.afe.stuck m = true) : execModulatorStuck m s = .next s := by
  simp [execModulatorStuck, h]

/-- A detection is noted once, and waits where its group is being calibrated (R77, R79). -/
theorem execModulatorStuck_first {m : Nat} {s : State} (hm : m < 65) (hr : s.dec.run = true) (ho : modOn s m = true)
    (hs : bit s.afe.stuck m = false) : execModulatorStuck m s = .next (if groupBusy s (modGroup m) then
      { noteStuck m s with afe.stuckWait := s.afe.stuckWait ++ [m] } else stuckAct m (noteStuck m s)) := by
  simp [execModulatorStuck, hr, ho, hs, Nat.not_le.2 hm, noteStuck]

/-! ### The checks of the engine (R113, R114, R134) -/

/-- A GRAVE raise where no fail-stop is in force latches its source and begins one. -/
theorem raise_grave {b i : Nat} {s : State} (hc : srcClass b i = some .grave) (hp : s.flt.phase = .none) :
    latched b i (raise b i s) ∧ (raise b i s).boot.st = .failstop := by
  have hstop := stop_raise b i s
  rw [if_pos ⟨hc, hp⟩] at hstop
  exact ⟨latched_raise s (by simp [hc]), congrArg Prod.snd hstop⟩

/-- The load CRC of a pair's active bank. -/
def loadCrc (p : Pair) : W32 := if p.active then p.crcB else p.crcA

/-- A pair with `c` as the coefficients of its active bank. -/
def withOld (c : List Int) (p : Pair) : Pair := if p.active then { p with coefB := c } else { p with coefA := c }

theorem withOld_old (p : Pair) : withOld p.old p = p := by
  cases p
  simp only [withOld, Pair.old]
  split <;> simp_all

/-- The coefficients of the active bank of a pair after an upset, where there was one. -/
def upsetOld (upset : Option (Nat × BitVec 24)) (p : Pair) : List Int := upset.elim p.old (upsetBank · p.old)

/-- The CRC of the active bank as it stands is compared with its load CRC (R113). -/
theorem execCoefCrcCheck_pair {n : Nat} (hn : n < 69) (upset : Option (Nat × BitVec 24)) (s : State) :
    execCoefCrcCheck n upset s = .next (
      if bankCrc (upsetOld upset (getPair s n)) ≠ loadCrc (getPair s n) then
        raise 2 2 (setPair n (withOld (upsetOld upset (getPair s n)) (getPair s n)) s)
      else setPair n (withOld (upsetOld upset (getPair s n)) (getPair s n)) s) := by
  unfold execCoefCrcCheck withOld loadCrc upsetOld
  dsimp only
  rw [if_neg (Nat.not_le.2 hn)]
  cases upset <;> cases ha : (getPair s n).active <;> simp

/-- Settles O26: a detection by the modulator's kind, the checks of the engine by the GRAVE raise that a difference is. -/
theorem frontEndFaults : Obligations.FrontEndFaults := by
  unfold Obligations.FrontEndFaults
  refine ⟨fun m s hm hr ho => ⟨execModulatorStuck_again, fun hs hb => ?_, fun hs hb => ?_⟩,
    fun n s hp => ⟨fun u hn hne => ?_, fun heq hn => ?_, ⟨_, rfl, raise_grave rfl hp⟩, ⟨_, rfl, raise_grave rfl hp⟩, rfl⟩⟩
  · exact (execModulatorStuck_first hm hr ho hs).trans (congrArg _ (if_pos hb))
  · have hexec := (execModulatorStuck_first hm hr ho hs).trans (congrArg _ (if_neg (by simp [hb])))
    have hbit := bit_noteStuck hm s
    refine ⟨fun h => ?_, fun h h3 hst => hexec.trans (congrArg _ (stuckAct_rotatingShadow h h3 hst)),
      fun h h60 hst => hexec.trans (congrArg _ (stuckAct_mirroredBank h h60 hst)), fun h hl => ?_⟩
    · refine ends_of (hexec.trans (congrArg _ (stuckAct_auxiliary h _))) ⟨?_, latched_raise _ rfl⟩
      rw [afe_raise]
      exact hbit
    · obtain ⟨hstuck, hrest⟩ := severeStop_spec (src := 4) (s := noteStuck m s) rfl hl
      exact ends_of (hexec.trans (congrArg _ (stuckAct_voltage h _))) ⟨by rw [hstuck]; exact hbit, hrest⟩
  · exact ends_of ((execCoefCrcCheck_pair hn (some u) s).trans (congrArg _ (if_pos hne))) (raise_grave rfl hp)
  · refine ends_of ((execCoefCrcCheck_pair hn none s).trans (congrArg _ (if_neg (not_not.2 heq)))) ?_
    exact ⟨(getPair_setPair ..).trans (withOld_old _), rfl⟩

end Sys2Proof.Proofs

namespace Sys2Proof.Proofs
open Sys2Proof Sys2Proof.Machine Sys2Proof.Laws

/-! ### What a TRIPn follows (R83) -/

/-- TRIPn is asserted: by a comparator, by its latch or by its stretch. -/
def ballHigh (s : State) (n : Nat) : Bool := tripOr s n || bit s.afe.latched n || bit s.afe.stretch n

/-- The front end once TRIPn has followed its comparators. -/
def ballAfe (s : State) (n : Nat) : Afe :=
  if bit s.afe.trip.latch n then
    { s.afe with latched := setBit s.afe.latched n (tripOr s n || bit s.afe.latched n)
                 level := setBit s.afe.level n (ballHigh s n) }
  else
    { s.afe with level := setBit s.afe.level n (ballHigh s n)
                 stretch := setBit s.afe.stretch n ((ballHigh s n && !bit s.afe.level n) || bit s.afe.stretch n) }

theorem afe_tripBall (st : Stamp) (at_ : Int) (s : State) (n : Nat) : (tripBall st at_ s n).afe = ballAfe s n := by
  unfold tripBall ballAfe ballHigh
  extract_lets note o set s1 was now rise s2
  have hnote : ∀ u : State, (note u).afe = u.afe := fun u => by unfold note; split <;> rfl
  have hrec : ∀ (kind : Nat) (u : State), (tripRec st n kind u).afe = u.afe := fun _ _ => rfl
  split
  · split
    · rw [hrec, hnote]
    · rfl
  · split
    · rw [hrec, hnote]
    · rfl

/-- What the comparators and their configuration give the TRIPn. -/
def tripInputs (s : State) : W48 × W48 × TripCfg × Option TripCfg := (s.afe.asserted, s.afe.src, s.afe.trip, s.afe.tripNext)

theorem tripInputs_tripBall (st : Stamp) (at_ : Int) (s : State) (n : Nat) : tripInputs (tripBall st at_ s n) = tripInputs s := by
  unfold tripInputs
  rw [afe_tripBall, ballAfe]
  split <;> rfl

theorem tripInputs_tripAll (st : Stamp) (at_ : Int) (s : State) : tripInputs (tripAll st at_ s) = tripInputs s :=
  foldl_kept (fun t n => tripInputs_tripBall st at_ t n) _ s

theorem tripOr_of_inputs {s t : State} (h : tripInputs t = tripInputs s) (n : Nat) : tripOr t n = tripOr s n := by
  simp only [tripInputs, Prod.mk.injEq] at h
  obtain ⟨ha, -, ht, -⟩ := h
  simp only [tripOr, ha, ht]

section Balls
variable {st : Stamp} {at_ : Int} {s : State} {n j : Nat} (hn : n < 16)
include hn

theorem bit_level_tripBall : bit (tripBall st at_ s n).afe.level j = if n = j then ballHigh s n else bit s.afe.level j := by
  rw [afe_tripBall, ballAfe]
  split <;> exact bit_setBit _ _ _ _ hn

theorem bit_latched_tripBall : bit (tripBall st at_ s n).afe.latched j =
    if n = j ∧ bit s.afe.trip.latch n = true then tripOr s n || bit s.afe.latched n else bit s.afe.latched j := by
  rw [afe_tripBall, ballAfe]
  by_cases hl : bit s.afe.trip.latch n = true
  · simp only [hl, if_true, and_true]
    exact bit_setBit _ _ _ _ hn
  · rw [if_neg hl, if_neg (fun h => hl h.2)]

theorem bit_stretch_tripBall (hl : bit s.afe.trip.latch n = false) : bit (tripBall st at_ s n).afe.stretch n =
    ((ballHigh s n && !bit s.afe.level n) || bit s.afe.stretch n) := by
  rw [afe_tripBall, ballAfe, if_neg (by simp [hl])]
  exact (bit_setBit _ _ _ _ hn).trans (if_pos rfl)

end Balls

/-- A TRIPn with an asserted comparator is high once the TRIPn of a list with it have followed. -/
theorem level_tripBalls {st : Stamp} {at_ : Int} {n : Nat} (l : List Nat) (hl : ∀ i ∈ l, i < 16) {s : State}
    (ho : tripOr s n = true) (h : n ∈ l ∨ bit s.afe.level n = true) :
    bit (l.foldl (tripBall st at_) s).afe.level n = true := by
  induction l generalizing s with
  | nil => simpa using h
  | cons i l ih =>
    have hi : i < 16 := hl i (by simp)
    refine ih (fun k hk => hl k (by simp [hk])) ((tripOr_of_inputs (tripInputs_tripBall ..) n).trans ho) ?_
    rw [bit_level_tripBall hi]
    by_cases hin : i = n
    · right; subst hin; simp [ballHigh, ho]
    · simpa [hin, Ne.symm hin] using h

theorem level_tripAll {st : Stamp} {at_ : Int} {s : State} {n : Nat} (hn : n < 16) (ho : tripOr s n = true) :
    bit (tripAll st at_ s).afe.level n = true :=
  level_tripBalls (List.range 16) (fun _ h => List.mem_range.1 h) ho (.inl (List.mem_range.2 hn))

/-- A latched TRIPn stays latched. -/
theorem latched_tripAll {st : Stamp} {at_ : Int} {s : State} {n : Nat} (h : bit s.afe.latched n = true) :
    bit (tripAll st at_ s).afe.latched n = true := by
  refine List.foldlRecOn (motive := fun t : State => bit t.afe.latched n = true) (List.range 16) (tripBall st at_) h
    fun t ht i hi => ?_
  rw [bit_latched_tripBall (List.mem_range.1 hi)]
  split
  · rename_i hin
    simp [hin.1, ht]
  · exact ht

/-- A TRIPn without an asserted comparator is not latched anew. -/
theorem unlatched_tripAll {st : Stamp} {at_ : Int} {s : State} {n : Nat} (ho : tripOr s n = false)
    (h : bit s.afe.latched n = false) : bit (tripAll st at_ s).afe.latched n = false := by
  refine (List.foldlRecOn (motive := fun t => tripInputs t = tripInputs s ∧ bit t.afe.latched n = false) (List.range 16)
    (tripBall st at_) ⟨rfl, h⟩ fun t ⟨hin, ht⟩ i hi => ⟨(tripInputs_tripBall ..).trans hin, ?_⟩).2
  rw [bit_latched_tripBall (List.mem_range.1 hi)]
  split
  · rename_i heq
    simp [heq.1, ht, (tripOr_of_inputs hin n).trans ho]
  · exact ht

theorem hide_tripAll_own (st : Stamp) (at_ : Int) (s : State) :
    hide { nvs := true, afe := true, pq := true } (tripAll st at_ s) = hide { nvs := true, afe := true, pq := true } s :=
  @hide_tripAll { nvs := true, afe := true, pq := true } ⟨rfl⟩ ⟨rfl⟩ ⟨rfl⟩ st at_ s

/-- The word with every bit of a list cleared for which `p` does not hold. -/
def keepBits {w : Nat} (p : Nat → Bool) (l : List Nat) (x : BitVec w) : BitVec w :=
  l.foldl (fun y i => if p i then y else setBit y i false) x

theorem bit_keepBits {w : Nat} (p : Nat → Bool) (l : List Nat) (hl : ∀ i ∈ l, i < w) (x : BitVec w) (j : Nat) :
    bit (keepBits p l x) j = (bit x j && (p j || !l.contains j)) := by
  unfold keepBits
  induction l generalizing x with
  | nil => simp
  | cons i l ih =>
    rw [List.foldl_cons, ih (fun k hk => hl k (by simp [hk]))]
    have hi : i < w := hl i (by simp)
    by_cases hij : j = i
    · subst hij
      cases hp : p j <;> simp [bit_setBit _ _ _ _ hi]
    · cases hp : p i <;> simp [bit_setBit _ _ _ _ hi, hij, Ne.symm hij]

/-! ### The commands of the trip comparators -/

/-- A comparator that asserts: its ASSERTED and SRC bits, before the TRIPn follow (R82, R83). -/
def tripAsserted (k : Nat) (s : State) : State :=
  { s with afe.asserted := setBit s.afe.asserted k true, afe.src := setBit s.afe.src k true }

theorem execTripComparatorAssert_qualified {k samples : Nat} {s : State} (hk : k < 48) (he : tripEn s.afe.trip k = true)
    (hq : fld (tripCfgOf s.afe.trip k) 26 24 ≤ samples) : execTripComparatorAssert k samples s =
      .next (tripAll (tripStamp s k) (tripSlot s k) (tripAsserted k s)) := by
  simp [execTripComparatorAssert, he, qualified, hq, Nat.not_le.2 hk, tripAsserted]

theorem execTripComparatorAssert_idle {k samples : Nat} {s : State}
    (h : tripEn s.afe.trip k = false ∨ samples < fld (tripCfgOf s.afe.trip k) 26 24) :
    execTripComparatorAssert k samples s = .next s := by
  rcases h with h | h
  · simp [execTripComparatorAssert, h]
  · simp [execTripComparatorAssert, qualified, h]

theorem tripOr_tripAsserted {k n : Nat} {s : State} (hk : k < 48) (he : tripEn s.afe.trip k = true)
    (hm : bit (tripMap s.afe.trip k) n = true) : tripOr (tripAsserted k s) n = true := by
  refine List.any_eq_true.2 ⟨k, List.mem_range.2 hk, ?_⟩
  simp [tripAsserted, bit_setBit _ _ _ _ hk, he, hm]

/-- An assertion that passes its qualifier (R81, R82, R83). -/
theorem ends_tripComparatorAssert {k samples : Nat} {s : State} (hk : k < 48) (he : tripEn s.afe.trip k = true)
    (hq : fld (tripCfgOf s.afe.trip k) 26 24 ≤ samples) : ends (execTripComparatorAssert k samples s) (fun t =>
      bit t.afe.asserted k = true ∧ bit t.afe.src k = true ∧
      (∀ n, n < 16 → bit (tripMap s.afe.trip k) n = true → bit t.afe.level n = true) ∧ t.boot = s.boot ∧ t.pnt = s.pnt) := by
  have hin := tripInputs_tripAll (tripStamp s k) (tripSlot s k) (tripAsserted k s)
  have hk2 := hide_tripAll_own (tripStamp s k) (tripSlot s k) (tripAsserted k s)
  simp only [tripInputs, Prod.mk.injEq] at hin
  obtain ⟨ha, hs, -, -⟩ := hin
  refine ends_of (execTripComparatorAssert_qualified hk he hq) ⟨?_, ?_,
    fun n hn hm => level_tripAll hn (tripOr_tripAsserted hk he hm), (same_boot hk2 rfl rfl :), (same_pnt hk2 rfl :)⟩
  · rw [ha]; exact (bit_setBit _ _ _ _ hk).trans (if_pos rfl)
  · rw [hs]; exact (bit_setBit _ _ _ _ hk).trans (if_pos rfl)

/-- A comparator that releases, before the TRIPn follow (R83). -/
def tripReleased (k : Nat) (s : State) : State := { s with afe.asserted := setBit s.afe.asserted k false }

theorem execTripComparatorRelease_eq {k : Nat} (hk : k < 48) (s : State) :
    execTripComparatorRelease k s = .next (tripAll (nowStamp s) s.slot (tripReleased k s)) :=
  congrArg _ (if_neg (Nat.not_le.2 hk))

/-- A release clears ASSERTED and leaves the sources and the latches (R83). -/
theorem ends_tripComparatorRelease {k : Nat} (hk : k < 48) (s : State) : ends (execTripComparatorRelease k s) (fun t =>
    bit t.afe.asserted k = false ∧ t.afe.src = s.afe.src ∧
    (∀ n, n < 16 → bit s.afe.latched n = true → bit t.afe.latched n = true)) := by
  have hin := tripInputs_tripAll (nowStamp s) s.slot (tripReleased k s)
  simp only [tripInputs, Prod.mk.injEq] at hin
  obtain ⟨ha, hs, -, -⟩ := hin
  refine ends_of (execTripComparatorRelease_eq hk s) ⟨?_, hs, fun n _ hl => latched_tripAll hl⟩
  rw [ha]
  exact (bit_setBit _ _ _ _ hk).trans (if_pos rfl)

/-- A TRIPn whose stretch is over, before it follows its comparators (R83). -/
def stretchEnded (n : Nat) (s : State) : State := { s with afe.stretch := setBit s.afe.stretch n false }

theorem execTripStretchEnd_eq {n : Nat} (hn : n < 16) (s : State) :
    execTripStretchEnd n s = .next (tripBall (nowStamp s) s.slot (stretchEnded n s) n) :=
  congrArg _ (if_neg (Nat.not_le.2 hn))

/-- The end of the stretch of a TRIPn that nothing else holds (R83). -/
theorem ends_tripStretchEnd {n : Nat} {s : State} (hn : n < 16) (hl : bit s.afe.trip.latch n = false) (ho : tripOr s n = false)
    (hu : bit s.afe.latched n = false) : ends (execTripStretchEnd n s) (fun t =>
      bit t.afe.stretch n = false ∧ bit t.afe.level n = false) := by
  have hs : bit (stretchEnded n s).afe.stretch n = false := (bit_setBit _ _ _ _ hn).trans (if_pos rfl)
  have hlow : ballHigh (stretchEnded n s) n = false := by
    have ho' : tripOr (stretchEnded n s) n = false := ho
    have hu' : bit (stretchEnded n s).afe.latched n = false := hu
    rw [ballHigh, ho', hu', hs]
    rfl
  refine ends_of (execTripStretchEnd_eq hn s) ⟨?_, ?_⟩
  · rw [bit_stretch_tripBall (s := stretchEnded n s) hn hl, hlow, hs]
    rfl
  · rw [bit_level_tripBall hn, if_pos rfl, hlow]

/-- A configuration in force, before the TRIPn follow: comparators that it does not enable no longer assert (R83, R87). -/
def tripConfigured (c : TripCfg) (s : State) : State :=
  { s with afe.trip := c, afe.tripNext := none, afe.asserted := keepBits (tripEn c) (List.range 48) s.afe.asserted }

theorem execTripConfigApply_next {c : TripCfg} {s : State} (h : s.afe.tripNext = some c) :
    execTripConfigApply s = .next (tripAll (nowStamp s) s.slot (tripConfigured c s)) := by
  simp only [execTripConfigApply, h]
  rfl

theorem execTripConfigApply_none {s : State} (h : s.afe.tripNext = none) : execTripConfigApply s = .next s := by
  simp only [execTripConfigApply, h]

theorem ends_tripConfigApply {c : TripCfg} {s : State} (h : s.afe.tripNext = some c) : ends (execTripConfigApply s) (fun t =>
    t.afe.trip = c ∧ t.afe.tripNext = none ∧ ∀ k, k < 48 → tripEn c k = false → bit t.afe.asserted k = false) := by
  have hin := tripInputs_tripAll (nowStamp s) s.slot (tripConfigured c s)
  simp only [tripInputs, Prod.mk.injEq] at hin
  obtain ⟨ha, -, ht, hn⟩ := hin
  refine ends_of (execTripConfigApply_next h) ⟨ht, hn, fun k hk he => ?_⟩
  rw [ha]
  refine (bit_keepBits _ _ (fun _ h => List.mem_range.1 h) _ k).trans ?_
  simp [he, hk]

/-- TRIP_CLEAR of a mask that names a TRIPn (R357). -/
theorem execTripClear_named {r : Req} {s : State} (hown : ownRing0 4 r s) (hm : rd r.buf 0 2 ≠ 0) (hz : zerosAt r.buf 2 2 = true) :
    execTripClear r s =
      .next (complete (reqWaiter r 0 0x04) statusOk 0 [] (tripClear (BitVec.ofNat 16 (rd r.buf 0 2)) s)) := by
  unfold execTripClear
  rw [ring0_ownRing0 hown]
  simp [hm, hz]

/-- The latches that a clear of a mask leaves (R83). -/
def clearKeeps (mask : W16) (s : State) (n : Nat) : Bool := !(bit mask n && !(bit s.afe.trip.latch n && tripOr s n))

theorem tripClear_eq (mask : W16) (s : State) : tripClear mask s = tripAll (nowStamp s) s.slot
    { s with afe.latched := keepBits (clearKeeps mask s) (List.range 16) s.afe.latched, afe.src := s.afe.asserted } := by
  have hf : (fun (w : W16) n => if bit mask n && !(bit s.afe.trip.latch n && tripOr s n) then setBit w n false else w) =
      fun w n => if clearKeeps mask s n then w else setBit w n false := by
    funext w n
    unfold clearKeeps
    cases bit mask n && !(bit s.afe.trip.latch n && tripOr s n) <;> rfl
  simp only [tripClear, hf]
  rfl

/-- A clear takes the latches of its mask whose comparators have released, and leaves the others (R83, R357). -/
theorem tripClear_spec (mask : W16) {n : Nat} (hn : n < 16) (s : State) : (tripClear mask s).afe.src = s.afe.asserted ∧
    (bit mask n = true → tripOr s n = false → bit (tripClear mask s).afe.latched n = false) ∧
    (bit mask n = false → bit s.afe.latched n = true → bit (tripClear mask s).afe.latched n = true) := by
  have hkeep := bit_keepBits (clearKeeps mask s) (List.range 16) (fun _ h => List.mem_range.1 h) s.afe.latched n
  rw [tripClear_eq]
  refine ⟨congrArg (fun i => i.2.1) (tripInputs_tripAll ..), fun hm ho => ?_, fun hm hl => ?_⟩
  · exact unlatched_tripAll ho (hkeep.trans (by simp [clearKeeps, hm, ho, hn]))
  · exact latched_tripAll (hkeep.trans (by simp [clearKeeps, hm, hl]))

/-- Settles O27: every command by what the TRIPn do on the state it leaves them. -/
theorem tripComparators : Obligations.TripComparators := by
  unfold Obligations.TripComparators
  intro k s hk
  refine ⟨fun samples he hq => ends_tripComparatorAssert hk he hq, fun samples h => execTripComparatorAssert_idle h,
    ends_tripComparatorRelease hk s, fun n hn hl ho hu => ends_tripStretchEnd hn hl ho hu, fun c hc => ?_,
    execTripConfigApply_none, fun r => execTripClear_named, fun mask n hn => tripClear_spec mask hn s⟩
  obtain ⟨t, ht, htrip, hnext, hoff⟩ := ends_tripConfigApply hc
  exact ends_of ht ⟨htrip, hnext, hoff k hk⟩

end Sys2Proof.Proofs

namespace Sys2Proof.Proofs
open Sys2Proof Sys2Proof.Machine Sys2Proof.Laws

/-! ### An accepted channel record (R87, R139) -/

/-- What a channel record's taking effect sets: the points' block and the front end's configuration. -/
def chanView (s : State) : Pnt × ChanCfg := (s.pnt, s.afe.chan)

theorem chanView_of_hide {μ : Mask} {s t : State} (h : hide μ t = hide μ s) (hp : μ.pnt = false) (ha : t.afe.chan = s.afe.chan) :
    chanView t = chanView s := by
  rw [chanView, same_pnt h hp, ha]
  rfl

theorem chanView_settleNow (ms : List Nat) (s : State) : chanView (settleNow ms s) = chanView s :=
  chanView_of_hide (@hide_settleNow { dec := true } ⟨rfl⟩ ms s) rfl (by rw [afe_settleNow])

theorem chanView_writeCodes (ms : List Nat) (s : State) : chanView (writeCodes ms s) = chanView s :=
  chanView_of_hide (hide_writeCodes_own ms s) rfl (by rw [afe_writeCodes])

/-- The blocks that the start of a dwell changes. -/
def dwellBlocks : Mask := { codeBlocks with afe := true, dec := true }

theorem chanView_startDwell (b : Nat) (j : Option Nat) (s : State) : chanView (startDwell b j s) = chanView s := by
  refine chanView_of_hide (@hide_startDwell dwellBlocks ⟨rfl⟩ ⟨rfl⟩ ⟨rfl⟩ ⟨rfl⟩ ⟨rfl⟩ ⟨rfl⟩ ⟨rfl⟩ ⟨rfl⟩ ⟨rfl⟩ ⟨rfl⟩ b j s) rfl ?_
  cases j with
  | none => rfl
  | some j => exact (congrArg Afe.chan (afe_startDwell_some b j s) :)

/-- A channel's record in force, before its streams settle under it (R139, R155). -/
def chanSet (c : Nat) (x : ChanRec) (s : State) : State :=
  { s with
    afe.chan := cfgSet c x.setup s.afe.chan
    pnt := { s.pnt with
      chan := tput s.pnt.chan c x, chanB := tput s.pnt.chanB c x, chanNext := tdel s.pnt.chanNext c
      chanWas := tput s.pnt.chanWas c (turnOf s.whl.pos, getChan s c, tgetD s.pnt.chanB c Init.chanRec) } }

theorem chanView_chanApply {c : Nat} {x : ChanRec} {s : State} (h : tget s.pnt.chanNext c = some x)
    (hw : unwritten s (nvKey .channel c) = false) (hh : (s.cal.held && s.cal.group.toNat == modGroup c) = false) :
    chanView (chanApply c s) = chanView (chanSet c x s) := by
  unfold chanApply
  simp -zeta only [h]
  rw [if_neg (by simp [hw, hh])]
  extract_lets old new gain en typ _ _ s2 s3 s4 b sh
  have h3 : chanView s3 = chanView s2 := by
    unfold s3
    split
    · exact chanView_settleNow _ _
    · rfl
  have h4 : chanView s4 = chanView s2 := by
    unfold s4
    split
    · exact (chanView_writeCodes _ _).trans h3
    · exact h3
  have hlast : ∀ u, chanView u = chanView s4 → chanView u = chanView (chanSet c x s) := fun u hu => hu.trans h4
  split
  · exact hlast _ rfl
  · split
    · exact hlast _ (chanView_startDwell _ _ _)
    · split
      · exact hlast _ (chanView_startDwell _ _ _)
      · split
        · exact hlast _ (chanView_writeCodes _ _)
        · exact hlast _ rfl

theorem chanApply_unwritten {c : Nat} {s : State} (hw : unwritten s (nvKey .channel c) = true) : chanApply c s = s := by
  unfold chanApply
  split
  · rfl
  · rw [if_pos (by simp [hw])]

/-- A record that is written takes effect as a whole where its group is not held (R87, R139, R155). -/
theorem chanApply_spec {c : Nat} {x : ChanRec} {s : State} (h : tget s.pnt.chanNext c = some x)
    (hw : unwritten s (nvKey .channel c) = false) (hh : (s.cal.held && s.cal.group.toNat == modGroup c) = false) :
    (chanApply c s).pnt.chanNext = tdel s.pnt.chanNext c ∧ tget (chanApply c s).pnt.chan c = some x ∧
      tget (chanApply c s).pnt.chanB c = some x ∧ (chanApply c s).afe.chan = cfgSet c x.setup s.afe.chan ∧
      (tget (chanApply c s).pnt.chanWas c).map (·.2.1) = some (getChan s c) := by
  have hv := chanView_chanApply h hw hh
  simp only [chanView, Prod.mk.injEq] at hv
  obtain ⟨hp, ha⟩ := hv
  rw [hp, ha]
  simp [chanSet]

/-! ### An accepted point definition (R138) -/

/-- A point with a definition in force, the one before kept for the turn that has just ended (R138, R155). -/
def ptDefined (d : PDef) (s : State) (x : Pt) : Pt :=
  { x with dfn := asDef d, dfnB := asDef d, next := none, gen := x.gen + 1, chk := d.check
           was := some (turnOf s.whl.pos, x.dfn, x.dfnB, x.gen) }

/-- A definition in force with its record, before its event enters the log (R138, R155). -/
def defWritten (p : Nat) (d : PDef) (s : State) : State :=
  ownWrite (nvKey .pointDef (256 + p))
    (.bytes (le 1 ((getPt s p).gen + 1).toNat ++ storedDef (setPt p (ptDefined d s (getPt s p)) s) p)) 1
    (setPt p (ptDefined d s (getPt s p)) s)

theorem execPointDefEffect_written {p : Nat} {d : PDef} {s : State} (h : (getPt s p).next = some d)
    (hw : unwritten s (nvKey .pointDef p) = false) : ∃ st detail,
    execPointDefEffect p s = .next (blockEventAt st 4 1 p detail (noteNewDef p (defWritten p d s))) := by
  simp only [execPointDefEffect, h, hw]
  exact ⟨_, _, rfl⟩

theorem execPointDefEffect_unwritten {p : Nat} {d : PDef} {s : State} (h : (getPt s p).next = some d)
    (hw : unwritten s (nvKey .pointDef p) = true) : execPointDefEffect p s = .next s := by
  simp only [execPointDefEffect, h, hw, if_true]

/-- A write of the device's own changes the store's block alone, and not the records that wait for the log. -/
theorem ownWrite_nvs (key : Nat) (v : NvVal) (pages : Nat) (s : State) :
    ∃ n, ownWrite key v pages s = { s with nvs := n } ∧ n.logQueue = s.nvs.logQueue := by
  unfold ownWrite
  split
  · exact ⟨_, rfl, rfl⟩
  · exact ⟨_, rfl, rfl⟩

/-- A definition that is written takes effect with a new generation; the accumulators stand (R138, R155, R158). -/
theorem ends_pointDefEffect {p : Nat} {d : PDef} {s : State} (h : (getPt s p).next = some d)
    (hw : unwritten s (nvKey .pointDef p) = false) : ends (execPointDefEffect p s) (fun t =>
      getPt t p = ptDefined d s (getPt s p) ∧
      (tgetD t.trf.ints p Init.intSt).flags = setBit (tgetD s.trf.ints p Init.intSt).flags 8 true ∧
      t.nvs.logQueue.length = s.nvs.logQueue.length + 1 ∧ t = { s with pnt := t.pnt, nvs := t.nvs, trf := t.trf }) := by
  obtain ⟨st, detail, hexec⟩ := execPointDefEffect_written h hw
  obtain ⟨n, hn, hq⟩ := ownWrite_nvs (nvKey .pointDef (256 + p))
    (.bytes (le 1 ((getPt s p).gen + 1).toNat ++ storedDef (setPt p (ptDefined d s (getPt s p)) s) p)) 1
    (setPt p (ptDefined d s (getPt s p)) s)
  rw [defWritten, hn] at hexec
  refine ends_of hexec ⟨getPt_setPt .., ?_, ?_, rfl⟩
  · simp [blockEventAt, logRec, noteNewDef]
  · simp [blockEventAt, logRec, noteNewDef, hq]

/-- Settles O28: what a written record sets, for a channel and for a point; one that is not written waits. -/
theorem definitionsTakeEffect : Obligations.DefinitionsTakeEffect := by
  unfold Obligations.DefinitionsTakeEffect
  refine ⟨fun c x s _ hx => ⟨fun hw hh => ⟨⟨_, rfl, chanApply_spec hx hw hh⟩, fun hall => ?_⟩, fun hw => ?_⟩,
    fun p d s hd => ⟨fun hw => ?_, execPointDefEffect_unwritten hd⟩⟩
  · simp only [exec, execChannelConfigApply, hall]
    rfl
  · exact congrArg _ (chanApply_unwritten hw)
  · obtain ⟨t, ht, hpt, hrest⟩ := ends_pointDefEffect hd hw
    exact ends_of ht (by rw [hpt]; exact ⟨rfl, rfl, rfl, rfl, rfl, rfl, hrest⟩)

end Sys2Proof.Proofs

namespace Sys2Proof.Proofs
open Sys2Proof Sys2Proof.Machine Sys2Proof.Laws

/-! ### One slot's work of a stream (R93, R94, R98) -/

@[simp] theorem nC_integrate8 (bits : Byte) (x : Strm) : (integrate8 bits x).nC = x.nC :=
  List.foldlRecOn (motive := fun y : Strm => y.nC = x.nC) _ _ rfl fun _ hy _ _ => hy

@[simp] theorem nC_rmsAdd (c : Smp) (x : Strm) : (rmsAdd c x).nC = x.nC := by
  unfold rmsAdd
  split <;> rfl

@[simp] theorem nC_fineStages (s : State) (m j : Nat) (a : Int) (x : Strm) : (fineStages s m j a x).1.nC = x.nC := by
  unfold fineStages
  dsimp only
  split
  · rfl
  · split
    · rfl
    · split
      · rfl
      · split <;> rfl

/-- Eight bits make one coarse sample: the step changes its stream alone, whose count moves on by one (R93). -/
theorem decStep_strm (m : Nat) (bits : Byte) (s : State) :
    ∃ x, (decStep m bits s).1 = setStrm m x s ∧ x.nC = (getStrm s m).nC + 1 := by
  unfold decStep
  extract_lets on g x0 n tc j tn tt p
  have h0 : x0.nC = (getStrm s m).nC := nC_integrate8 bits (getStrm s m)
  dsimp -zeta only
  extract_lets forced v ovr cs x2 x4 x5 tap
  have h2 : x2.nC = (getStrm s m).nC + 1 := (nC_rmsAdd _ _).trans (congrArg (· + 1) h0)
  have h5 : x5.nC = (getStrm s m).nC + 1 := h2
  split
  · exact ⟨x2, rfl, h2⟩
  · have h6 := (nC_fineStages s m j (stageAComb x2).1 x5).trans h5
    split
    · exact ⟨_, rfl, h6⟩
    · exact ⟨_, rfl, h6⟩

theorem dec_coarseOut (m : Nat) (n : Int) (c : Smp) (s : State) : (coarseOut m n c s).dec = s.dec :=
  same_dec (@hide_coarseOut { faultBlocks with afe := true, pq := true } ⟨rfl⟩ ⟨rfl⟩ ⟨rfl⟩ ⟨rfl⟩ ⟨rfl⟩ ⟨rfl⟩ ⟨rfl⟩ ⟨rfl⟩ ⟨rfl⟩ m n c s) rfl

theorem dec_fineOut (m : Nat) (n t : Int) (x : Smp) (s : State) : (fineOut m n t x s).dec = s.dec :=
  same_dec (@hide_fineOut { hif := true, afe := true, pq := true, cal := true } ⟨rfl⟩ ⟨rfl⟩ ⟨rfl⟩ ⟨rfl⟩ m n t x s) rfl

theorem dec_sinks (src n : Nat) (idx : Int) (x : Smp) (s : State) : (sinks src n idx x s).dec = s.dec :=
  same_dec (@hide_sinks { hif := true, pq := true } ⟨rfl⟩ ⟨rfl⟩ src n idx x s) rfl

/-- A tap sample changes no part of the decimation block but the tap windows. -/
theorem dec_tapOut (o : Option (Nat × Int × Smp)) (s : State) : ∃ w, (tapOut o s).dec = { s.dec with tap := w } := by
  cases o with
  | none => exact ⟨_, rfl⟩
  | some x => exact ⟨_, dec_sinks _ _ _ _ _⟩

theorem execCoarseSample_run {m : Nat} {s : State} (hm : m < 65) (hr : s.dec.run = true) (bits : Byte) :
    execCoarseSample m bits s = .next (
      let d := decStep m bits s
      let s1 := tapOut d.2.tap (coarseOut m d.2.coarse.1 d.2.coarse.2 d.1)
      d.2.fine.elim s1 (fun f => fineOut m f.1 (s.dec.gSlot + 1536 * f.1 + slotOf m) f.2 s1)) := by
  unfold execCoarseSample
  rw [if_neg (by simp [hr, Nat.not_le.2 hm])]
  dsimp only
  cases (decStep m bits s).2.fine <;> rfl

/-- Eight modulator bits make one coarse sample of their stream; the grid stands (R93). -/
theorem ends_coarseSample {m : Nat} {s : State} (hm : m < 65) (hr : s.dec.run = true) (bits : Byte) :
    ends (execCoarseSample m bits s) (fun t => (getStrm t m).nC = (getStrm s m).nC + 1 ∧ t.dec.run = s.dec.run ∧
      t.dec.gSlot = s.dec.gSlot) := by
  obtain ⟨x, hx, hn⟩ := decStep_strm m bits s
  refine ends_of (execCoarseSample_run hm hr bits) ?_
  extract_lets d s1
  obtain ⟨w, hw⟩ := dec_tapOut d.2.tap (coarseOut m d.2.coarse.1 d.2.coarse.2 d.1)
  have h1 : s1.dec = { (setStrm m x s).dec with tap := w } := hw.trans (by rw [dec_coarseOut, hx])
  suffices hall : ∀ t : State, t.dec = s1.dec → (getStrm t m).nC = (getStrm s m).nC + 1 ∧ t.dec.run = s.dec.run ∧
      t.dec.gSlot = s.dec.gSlot by
    cases d.2.fine with
    | none => exact hall _ rfl
    | some f => exact hall _ (dec_fineOut ..)
  intro t ht
  rw [getStrm, ht, h1, ← hn]
  refine ⟨congrArg Strm.nC ?_, rfl, rfl⟩
  exact getStrm_setStrm m x s

theorem execIntegratorReset_run {m : Nat} {s : State} (hm : m < 65) (hr : s.dec.run = true) :
    execIntegratorReset m s = .next (setStrm m { getStrm s m with forced := 1024 } s) := by
  simp [execIntegratorReset, hr, Nat.not_le.2 hm]

theorem execCoarseRmsBlock_full {m : Nat} {s : State} (hm : m < 65) (hr : s.dec.run = true)
    (hf : (getStrm s m).rmsL ≤ (getStrm s m).rmsCnt) : execCoarseRmsBlock m s = .next (setStrm m { getStrm s m with
      rms := crmsImage (getStrm s m)
      rmsL := if (getStrm s m).nC % crmsLen s.dec.crmscfg = 0 then crmsLen s.dec.crmscfg else (getStrm s m).rmsL
      rmsCnt := 0, rmsN := 0, rmsS := 0, rmsFl := 0 } s) := by
  simp [execCoarseRmsBlock, hr, Nat.not_le.2 hm, Nat.not_lt.2 hf]

theorem execCoarseRmsBlock_open {m : Nat} {s : State} (hf : (getStrm s m).rmsCnt < (getStrm s m).rmsL) :
    execCoarseRmsBlock m s = .next s := by
  simp [execCoarseRmsBlock, hf]

/-! ### Tap entries (R98) -/

/-- A tap entry at the start of its samples: no window, and disturbed now. -/
def tapFresh (slot : Nat) : TapWin := ⟨0, [], some slot, false⟩

/-- Entry `e` is disturbed where the selection changes it. -/
def disturbTap (old new : List W32) (t : State) (e : Nat) : State :=
  if tapByte old e == tapByte new e then t else { t with dec.tap := tput t.dec.tap e (tapFresh t.slot) }

theorem execTapConfigApply_next {sel : List W32} {s : State} (h : s.dec.tapNext = some sel) : execTapConfigApply s =
    .next ((List.range 12).foldl (disturbTap s.dec.tapsel sel) { s with dec.tapsel := sel, dec.tapNext := none }) := by
  simp only [execTapConfigApply, h]
  rfl

theorem disturbTaps_spec (old new : List W32) (l : List Nat) (s : State) :
    ∃ w, l.foldl (disturbTap old new) s = { s with dec.tap := w } ∧ ∀ e, tgetD w e ⟨0, [], none, false⟩ =
      if e ∈ l ∧ tapByte old e ≠ tapByte new e then tapFresh s.slot else getTap s e := by
  induction l generalizing s with
  | nil => exact ⟨_, rfl, fun e => by simp [getTap]⟩
  | cons i l ih =>
    obtain ⟨w, hw, hget⟩ := ih (disturbTap old new s i)
    have hstep : ∃ v, disturbTap old new s i = { s with dec.tap := v } ∧ ∀ e, tgetD v e ⟨0, [], none, false⟩ =
        if i = e ∧ tapByte old e ≠ tapByte new e then tapFresh s.slot else getTap s e := by
      unfold disturbTap
      by_cases hi : tapByte old i = tapByte new i
      · refine ⟨s.dec.tap, by simp [hi], fun e => ?_⟩
        rw [if_neg (by rintro ⟨rfl, h⟩; exact h hi)]
        rfl
      · refine ⟨_, by simp [hi]; rfl, fun e => ?_⟩
        rw [tgetD_tput]
        by_cases he : i = e
        · subst he; simp [hi]
        · simp [he, getTap]
    obtain ⟨v, hv, hv2⟩ := hstep
    refine ⟨w, by rw [List.foldl_cons, hw, hv], fun e => ?_⟩
    have hs : (disturbTap old new s i).slot = s.slot := by rw [hv]
    have hi : getTap (disturbTap old new s i) e = _ := (congrArg (getTap · e) hv).trans (hv2 e)
    rw [hget, hs, hi]
    by_cases hb : tapByte old e = tapByte new e <;> by_cases hel : e ∈ l <;> simp [hb, hel, eq_comm]

/-- The stored tap selection `sel` in place of the present one, with the entries' windows as they are. -/
def tapSelected (sel : List W32) (s : State) : State := { s with dec.tapsel := sel, dec.tapNext := none }

/-- A changed tap entry is disturbed, the others stand (R98). -/
theorem ends_tapConfigApply {sel : List W32} {s : State} (h : s.dec.tapNext = some sel) : ends (execTapConfigApply s) (fun t =>
    t.dec.tapsel = sel ∧ t.dec.tapNext = none ∧ t = { s with dec := t.dec } ∧
    ∀ e, e < 12 → getTap t e = if tapByte s.dec.tapsel e ≠ tapByte sel e then tapFresh s.slot else getTap s e) := by
  obtain ⟨w, hw, hget⟩ := disturbTaps_spec s.dec.tapsel sel (List.range 12) (tapSelected sel s)
  refine ends_of ((execTapConfigApply_next h).trans (congrArg _ hw)) ⟨rfl, rfl, rfl, fun e he => (hget e).trans ?_⟩
  simp only [List.mem_range, he, true_and]
  rfl

/-! ### Aligned samples (R117) -/

/-- What every write of a stream's wheel block sets, a fold of such writes sets for the streams of its list. -/
theorem getWs_setWss {f : State → Nat → WStream} {P : WStream → Prop} {m : Nat} (h : ∀ t, P (f t m)) (l : List Nat) {s : State}
    (hm : m ∈ l ∨ P (getWs s m)) : P (getWs (l.foldl (fun t i => setWs i (f t i) t) s) m) := by
  induction l generalizing s with
  | nil => simpa using hm
  | cons i l ih =>
    refine ih ?_
    by_cases hi : i = m
    · right; subst hi; rw [getWs_setWs]; exact h s
    · rw [getWs_setWs_ne _ _ _ _ hi]
      simpa [Ne.symm hi] using hm

/-- A stream's wheel block with its aligned sample `n` (R117). -/
def alignedWs (s : State) (n : Int) (t : State) (m : Nat) : WStream :=
  { getWs t m with al := ((alignedOf s m n).1 :: (getWs t m).al).take 32, fadeK := (alignedOf s m n).2 }

/-- Aligned sample `n` in the streams of `l`. -/
def alignedWss (s : State) (n : Int) (l : List Nat) : State := l.foldl (fun t m => setWs m (alignedWs s n t m) t) s

theorem alignedWss_pnt (s : State) (n : Int) (l : List Nat) : ∃ p, alignedWss s n l = { s with pnt := p } :=
  List.foldlRecOn (motive := fun t => ∃ p, t = { s with pnt := p }) l _ ⟨_, rfl⟩
    fun _ ⟨_, h⟩ _ _ => h ▸ ⟨_, rfl⟩

theorem al_alignedWss (s : State) (n : Int) {l : List Nat} {m : Nat} (hm : m ∈ l) :
    (getWs (alignedWss s n l) m).al.head? = some (alignedOf s m n).1 :=
  getWs_setWss (f := alignedWs s n) (P := fun w => w.al.head? = some (alignedOf s m n).1) (fun _ => rfl) l (.inl hm)

/-- Aligned sample `n` is the last written. -/
def setAlN (n : Int) (s : State) : State := { s with pnt.alN := n }

theorem getWs_setAlN (n : Int) (s : State) (m : Nat) : getWs (setAlN n s) m = getWs s m := rfl

theorem execAlignedSampleWrite_due {s : State} (hr : s.dec.run = true)
    (h : (List.range 63).any (fun m => (getStrm s m).fineN < s.pnt.alN + 1 + 4) = false) : execAlignedSampleWrite s =
      .next (setAlN (s.pnt.alN + 1) (alignedWss s (s.pnt.alN + 1) (List.range 63))) := by
  unfold execAlignedSampleWrite
  dsimp only
  rw [if_neg (by rw [h, hr]; simp)]
  rfl

/-- An aligned sample is written in every stream, and in nothing but the point block (R117). -/
theorem ends_alignedSampleWrite {s : State} (hr : s.dec.run = true)
    (h : (List.range 63).any (fun m => (getStrm s m).fineN < s.pnt.alN + 1 + 4) = false) :
    ends (execAlignedSampleWrite s) (fun t => t.pnt.alN = s.pnt.alN + 1 ∧ t = { s with pnt := t.pnt } ∧
      ∀ m, m < 63 → (getWs t m).al.head? = some (alignedOf s m (s.pnt.alN + 1)).1) := by
  refine ends_of (execAlignedSampleWrite_due hr h) ⟨rfl, ?_, fun m hm => ?_⟩
  · obtain ⟨p, hp⟩ := alignedWss_pnt s (s.pnt.alN + 1) (List.range 63)
    rw [hp]
    rfl
  · rw [getWs_setAlN]
    exact al_alignedWss s (s.pnt.alN + 1) (List.mem_range.2 hm)

theorem execAlignedSampleWrite_early {s : State}
    (h : (List.range 63).any (fun m => (getStrm s m).fineN < s.pnt.alN + 1 + 4) = true) : execAlignedSampleWrite s = .next s := by
  unfold execAlignedSampleWrite
  dsimp only
  rw [if_pos (by rw [h]; simp)]

/-! ### Wheel samples (R126) -/

theorem pnt_raise (i l : Nat) (s : State) : (raise i l s).pnt = s.pnt :=
  same_pnt (@hide_raise faultBlocks ⟨rfl⟩ ⟨rfl⟩ ⟨rfl⟩ ⟨rfl⟩ ⟨rfl⟩ ⟨rfl⟩ ⟨rfl⟩ i l s) rfl

theorem turnDone_cfDrain (n q fuel : Nat) (s : State) : (cfDrain n q fuel s).pnt.turnDone = s.pnt.turnDone := by
  induction fuel generalizing s with
  | zero => rfl
  | succ fuel ih =>
    rw [cfDrain]
    dsimp only
    split
    · rfl
    · rw [ih]
      split
      · rw [pnt_raise]; rfl
      · rfl

theorem turnDone_cfFeed (k : Nat) (s : State) : (cfFeed k s).pnt.turnDone = s.pnt.turnDone := by
  unfold cfFeed
  split
  · rfl
  · refine foldl_kept (f := fun t : State => t.pnt.turnDone) (fun t n => ?_) _ s
    dsimp only
    split
    · rfl
    · exact turnDone_cfDrain ..

/-- The streams' and accumulators' work of wheel sample `k`, ahead of the move of the schedule. -/
def sampled (u : RsTurn) (k d rom : Nat) (s : State) : State := cfFeed k (sinkStreams u k (writeStreams u k d rom s))

theorem turnDone_sampled (u : RsTurn) (k d rom : Nat) (s : State) : (sampled u k d rom s).pnt.turnDone = s.pnt.turnDone := by
  unfold sampled
  rw [turnDone_cfFeed, same_pnt (@hide_sinkStreams { hif := true, pq := true } ⟨rfl⟩ ⟨rfl⟩ u k _) rfl]
  unfold writeStreams
  refine foldl_kept (f := fun t : State => t.pnt.turnDone) (fun t c => ?_) _ s
  rfl

theorem pnt_winTurn (t : RsTurn) (s : State) : (winTurn t s).pnt = s.pnt :=
  same_pnt (@hide_winTurn { pq := true } ⟨rfl⟩ t s) rfl

theorem execWheelSampleWrite_cons {u : RsTurn} {rest : List RsTurn} {s : State} (h : s.pnt.rs = u :: rest) :
    execWheelSampleWrite s = .next (if rsAhead s (rsIndex u s.pnt.rsK).1 < 8 then s else nextSample u rest s.pnt.rsK
      (sampled u s.pnt.rsK (rsAhead s (rsIndex u s.pnt.rsK).1).toNat (rsIndex u s.pnt.rsK).2 s)) := by
  simp only [execWheelSampleWrite, h]
  rfl

/-- Within its turn a wheel sample moves the schedule on by one; no turn becomes whole (R126). -/
theorem nextSample_within {k : Nat} (hk : k ≠ 255) (u : RsTurn) (rest : List RsTurn) (s : State) :
    (nextSample u rest k s).pnt.rsK = k + 1 ∧ (nextSample u rest k s).pnt.lastTurn = u.turn ∧
    (nextSample u rest k s).pnt.lastK = BitVec.ofNat 8 k ∧ (nextSample u rest k s).pnt.turnDone = s.pnt.turnDone := by
  unfold nextSample
  dsimp only
  rw [if_neg hk]
  exact ⟨rfl, rfl, rfl, rfl⟩

/-- Sample 255 makes the turn whole (R126). -/
theorem nextSample_last (u : RsTurn) (rest : List RsTurn) (s : State) :
    (nextSample u rest 255 s).pnt.rs = rest ∧ (nextSample u rest 255 s).pnt.rsK = 0 ∧
    (nextSample u rest 255 s).pnt.lastTurn = u.turn ∧ (nextSample u rest 255 s).pnt.lastK = 255 ∧
    (nextSample u rest 255 s).pnt.turnDone.map (·.turn) = some u.turn := by
  unfold nextSample
  dsimp only
  rw [if_pos rfl, pnt_winTurn]
  exact ⟨rfl, rfl, rfl, rfl, rfl⟩

/-- Settles O29: one slot's work of a stream changes that stream alone; writes of aligned and wheel samples, stream by stream. -/
theorem streamsAndSamples : Obligations.StreamsAndSamples := by
  unfold Obligations.StreamsAndSamples
  refine ⟨fun m s hm hr => ⟨fun bits => ?_, execIntegratorReset_run hm hr, fun hf => ?_, execCoarseRmsBlock_open⟩,
    fun sel s h => ?_, fun s => ⟨ends_alignedSampleWrite, execAlignedSampleWrite_early, fun u rest h =>
      ⟨fun hk hd => ?_, fun hk hd => ?_, fun hd => (execWheelSampleWrite_cons h).trans (by rw [if_pos hd])⟩⟩⟩
  · obtain ⟨t, ht, hn, hrun, hg⟩ := ends_coarseSample hm hr bits
    have hfoot := hide_foot_of_exec (c := .coarseSample m bits) ht
    exact ⟨t, ht, hn, hrun.trans hr, hg, same_recs hfoot rfl, same_trf hfoot rfl, same_crd hfoot rfl⟩
  · refine ends_of (execCoarseRmsBlock_full hm hr hf) ?_
    rw [getStrm_setStrm]
    exact ⟨rfl, rfl, rfl, fun hb => if_pos hb, rfl⟩
  · obtain ⟨t, ht, hsel, hnext, hdec, htap⟩ := ends_tapConfigApply h
    exact ⟨t, ht, hsel, hnext, hdec, fun e he hne => (htap e he).trans (if_pos hne),
      fun e he heq => (htap e he).trans (if_neg (not_not.2 heq))⟩
  · refine ends_of ((execWheelSampleWrite_cons h).trans (by rw [if_neg (Int.not_lt.2 hd)])) ?_
    rw [← turnDone_sampled u s.pnt.rsK (rsAhead s (rsIndex u s.pnt.rsK).1).toNat (rsIndex u s.pnt.rsK).2 s]
    exact nextSample_within hk ..
  · rw [← hk] at hd
    refine ends_of ((execWheelSampleWrite_cons h).trans (by rw [if_neg (Int.not_lt.2 hd)])) ?_
    rw [hk]
    exact nextSample_last ..

end Sys2Proof.Proofs

namespace Sys2Proof.Proofs
open Sys2Proof Sys2Proof.Machine Sys2Proof.Laws

/-! ### The end of a dwell (R66, R161) -/

theorem pnt_deliver2 (r : Rec) (s : State) : (deliver2 r s).pnt = { s.pnt with seq := s.pnt.seq + 1 } :=
  same_pnt (@hide_deliverRec faultBlocks ⟨rfl⟩ ⟨rfl⟩ ⟨rfl⟩ ⟨rfl⟩ ⟨rfl⟩ ⟨rfl⟩ ⟨rfl⟩ 2 r { s with pnt.seq := s.pnt.seq + 1 }) rfl

/-- A reading takes the next number of its series and shows its word at its input (R161). -/
theorem pnt_auxReading (a : Nat) (s : State) : (auxReading a s).pnt.seq = s.pnt.seq + 1 ∧
    ∃ x, (auxReading a s).pnt.ax = tput s.pnt.ax (8 * a + (getMux s a).cur.toNat) x := by
  unfold auxReading
  extract_lets m inp bad v fl st word
  rw [pnt_deliver2]
  exact ⟨rfl, word, rfl⟩

/-- The dwell has ended: enough samples at a connected input (R66). -/
theorem execAuxDwellEnd_due {a : Nat} {s : State} (ha : a < 2) (hm : axMode s.afe.axcfg a ≠ 0) (hd : axDwell s a ≤ (getMux s a).n) :
    execAuxDwellEnd a s = .next (
      let s1 := if 0 < (getMux s a).cnt then auxReading a s else s
      if axMode s.afe.axcfg a = 2 && axNextIn (axList s a) (getMux s a).cur.toNat != (getMux s a).cur.toNat then
        muxSwitch a (axNextIn (axList s a) (getMux s a).cur.toNat) s1
      else setMux a { getMux s1 a with sum := 0, cnt := 0, ovr := false, cal := false, n := 0 } s1) := by
  unfold execAuxDwellEnd
  rw [if_neg (by simp [hm, Nat.not_le.2 ha, Nat.not_lt.2 hd])]

theorem execAuxDwellEnd_early {a : Nat} {s : State} (h : axMode s.afe.axcfg a = 0 ∨ (getMux s a).n < axDwell s a) :
    execAuxDwellEnd a s = .next s := by
  unfold execAuxDwellEnd
  rw [if_pos (by rcases h with h | h <;> simp [h])]

theorem execAuxSettlingEnd_mux {a : Nat} {s : State} (ha : a < 2) :
    execAuxSettlingEnd a s = .next (setMux a { getMux s a with settle := false } s) := by
  unfold execAuxSettlingEnd
  rw [if_neg (Nat.not_le.2 ha)]

/-! ### A configuration change (R66, R87) -/

theorem getMux_setMux (a : Nat) (x : AuxMux) (s : State) : getMux (setMux a x s) a = x :=
  (tgetD_tput ..).trans (if_pos rfl)

theorem setMux_mux (b : Nat) (y : AuxMux) (s : State) : ∃ v, setMux b y s = { s with afe.mux := v } ∧
    ∀ e, e ≠ b → tgetD v e Init.auxMux = getMux s e :=
  ⟨_, rfl, fun _ he => (tgetD_tput ..).trans (if_neg (Ne.symm he))⟩

/-- The change at one multiplexer touches that one alone. -/
theorem muxConfig_mux (old : W32) (s : State) (b : Nat) : ∃ v, muxConfig old s b = { s with afe.mux := v } ∧
    ∀ e, e ≠ b → tgetD v e Init.auxMux = getMux s e := by
  have hkeep : ∃ v, s = { s with afe.mux := v } ∧ ∀ e, e ≠ b → tgetD v e Init.auxMux = getMux s e := ⟨_, rfl, fun _ _ => rfl⟩
  unfold muxConfig
  dsimp only
  split
  · split
    · exact hkeep
    · exact setMux_mux ..
  · split
    · exact hkeep
    · exact setMux_mux ..
  · exact setMux_mux ..

/-- A multiplexer that goes to MANUAL switches to the selected input (R66). -/
theorem muxConfig_manual {old : W32} {s : State} {a : Nat} (h : axMode s.afe.axcfg a = 1) (hold : axMode old a ≠ 1) :
    muxConfig old s a = muxSwitch a (axSel s.afe.axcfg a) s := by
  simp [muxConfig, h, hold]

/-- The written configuration in place of the present one, with the multiplexers as they are. -/
def axSelected (c l0 l1 : W32) (s : State) : State :=
  { s with afe := { s.afe with axcfg := c, axscan0 := l0, axscan1 := l1, axNext := none } }

theorem execAuxConfigApply_next {c l0 l1 : W32} {s : State} (h : s.afe.axNext = some (c, l0, l1)) : execAuxConfigApply s =
    .next (muxConfig s.afe.axcfg (muxConfig s.afe.axcfg (axSelected c l0 l1 s) 0) 1) := by
  simp only [execAuxConfigApply, h]
  rfl

/-- Settles O33: the dwell's end by its two outcomes; the change of a configuration multiplexer by multiplexer. -/
theorem auxiliaryInputs : Obligations.AuxiliaryInputs := by
  unfold Obligations.AuxiliaryInputs
  intro a s ha
  refine ⟨⟨fun hm hd => ⟨fun h2 hne => ?_, fun hor => ?_⟩, execAuxDwellEnd_early, pnt_auxReading a s⟩,
    execAuxSettlingEnd_mux ha, fun c l0 l1 h => ?_, fun h => ?_⟩
  · exact (execAuxDwellEnd_due ha hm hd).trans (by simp [h2, hne])
  · refine (execAuxDwellEnd_due ha hm hd).trans (congrArg Host.Outcome.next (if_neg ?_))
    rcases hor with hm2 | heq
    · simp [hm2]
    · simp [heq]
  · obtain ⟨v, hv, hv0⟩ := muxConfig_mux s.afe.axcfg (axSelected c l0 l1 s) 0
    obtain ⟨w, hw, hw1⟩ := muxConfig_mux s.afe.axcfg (muxConfig s.afe.axcfg (axSelected c l0 l1 s) 0) 1
    have hmux : muxConfig s.afe.axcfg (muxConfig s.afe.axcfg (axSelected c l0 l1 s) 0) 1 =
        { axSelected c l0 l1 s with afe.mux := w } := by rw [hw, hv]
    refine ends_of ((execAuxConfigApply_next h).trans (congrArg _ hmux)) ⟨rfl, rfl, rfl, rfl, rfl, fun h1 hold => ?_⟩
    rw [← hmux]
    obtain rfl | rfl : a = 0 ∨ a = 1 := by omega
    · rw [hw]
      have hsw := muxConfig_manual (s := axSelected c l0 l1 s) h1 hold
      have hget : tgetD w 0 Init.auxMux = ⟨BitVec.ofNat 3 (axSel c 0), true, s.slot, 0, 0, false, false, 0, 0⟩ := by
        rw [hw1 0 (by decide), hsw]
        exact getMux_setMux ..
      exact ⟨congrArg AuxMux.cur hget, congrArg AuxMux.settle hget⟩
    · rw [hv, muxConfig_manual (s := { axSelected c l0 l1 s with afe.mux := v }) h1 hold, muxSwitch, getMux_setMux]
      exact ⟨rfl, rfl⟩
  · simp [exec, execAuxConfigApply, h]

end Sys2Proof.Proofs

namespace Sys2Proof.Proofs
open Sys2Proof Sys2Proof.Machine Sys2Proof.Laws

/-! ### The calibration's block, and what the other blocks' operations leave of it -/

theorem cal_raise (b i : Nat) (s : State) : (raise b i s).cal = s.cal :=
  same_cal (@hide_raise faultBlocks ⟨rfl⟩ ⟨rfl⟩ ⟨rfl⟩ ⟨rfl⟩ ⟨rfl⟩ ⟨rfl⟩ ⟨rfl⟩ b i s) rfl

theorem cal_isolate (ms : List Nat) (s : State) : (isolate ms s).cal = s.cal :=
  same_cal (@hide_isolate { afe := true, dec := true } ⟨rfl⟩ ⟨rfl⟩ ms s) rfl

/-- A change of the channels' modes changes the point block alone. -/
theorem hide_modesFrom (l : List Nat) (turn : BitVec 40) (md : Nat) (s : State) :
    hide { pnt := true } (l.foldl (fun u c => modeFrom c turn md u) s) = hide { pnt := true } s :=
  hide_foldl (fun t c => @hide_modeFrom { pnt := true } ⟨rfl⟩ c turn md t) l s

theorem getWs_pnt {s t : State} (h : t.pnt = s.pnt) (m : Nat) : getWs t m = getWs s m := by
  rw [getWs, h]; rfl

/-- Every channel of a list takes a mode from the wheel samples of a turn. -/
theorem sw_modesFrom {l : List Nat} {c : Nat} (hc : c ∈ l) (turn : BitVec 40) (md : Nat) (s : State) :
    (getWs (l.foldl (fun u c => modeFrom c turn md u) s) c).sw = some (turn, md) :=
  getWs_setWss (f := fun t m => { getWs t m with sw := some (turn, md) }) (P := fun w => w.sw = some (turn, md))
    (fun _ => rfl) l (.inl hc)

theorem getGrp_setGrp (g : Nat) (x : CalGrp) (s : State) : getGrp (setGrp g x s) g = x :=
  (tgetD_tput ..).trans (if_pos rfl)

/-! ### The command (R212) -/

/-- A bank calibration of group `g` on command `w` waits for its boundary (R213). -/
def calWaits (g : Nat) (w : Waiter) (s : State) : State :=
  { s with cal := { s.cal with st := .waitB0, pending := true, group := BitVec.ofNat 3 g, attempt := 0, waiter := some w,
                               wstamp := none, rejected := false } }

section Command
variable {r : Req} {s : State} (hown : ownRing0 8 r s) (hg : rd r.buf 0 1 ≤ 7) (hz : zerosAt r.buf 1 7 = true)
  (hm : (measurable s (rd r.buf 0 1)).isEmpty = false)
include hown hg hz hm

theorem execCalBank_idle (hst : s.cal.st = .idle) :
    execCalBank r s = .next (waitReq (reqWaiter r 0 0x18) (calWaits (rd r.buf 0 1) (reqWaiter r 0 0x18) s)) :=
  (ring0_ownRing0 hown _).trans (by simp [firstBad, Nat.not_lt.2 hg, hz, hm, hst, calWaits])

theorem execCalBank_busy (hst : s.cal.st ≠ .idle) :
    execCalBank r s = .next (complete (reqWaiter r 0 0x18) statusBusy 0 [] s) :=
  (ring0_ownRing0 hown _).trans (by simp [firstBad, Nat.not_lt.2 hg, hz, hm, hst])

/-- CAL_BANK waits for its boundary; the front end is as it was (R212). -/
theorem ends_calBank (hst : s.cal.st = .idle) : ends (execCalBank r s) (fun t =>
    t.cal.st = .waitB0 ∧ t.cal.pending = true ∧ t.cal.group.toNat = rd r.buf 0 1 ∧
    t.cal.waiter = some (reqWaiter r 0 0x18) ∧ t.afe = s.afe) := by
  refine ends_of (execCalBank_idle hown hg hz hm hst) ?_
  have hw := hide_waitReq_own (reqWaiter r 0 0x18) (calWaits (rd r.buf 0 1) (reqWaiter r 0 0x18) s)
  rw [same_cal hw rfl, same_afe hw rfl]
  exact ⟨rfl, rfl, Nat.mod_eq_of_lt (Nat.lt_succ_of_le hg), rfl, rfl⟩

end Command

/-! ### The hold, the isolation and the attempts (R208, R213) -/

theorem execBankCalHoldStart_wait {s : State} (hb : shadowBusy s s.cal.group.toNat = true) :
    execBankCalHoldStart s = .next s := by
  unfold execBankCalHoldStart
  dsimp only
  rw [if_pos (by simp [hb])]

/-- At B0 the group's channels hold (R213). -/
theorem ends_bankCalHoldStart {s : State} (hst : s.cal.st = .waitB0) (hb : shadowBusy s s.cal.group.toNat = false) :
    ends (execBankCalHoldStart s) (fun t => t.cal.st = .measure ∧ t.cal.held = true ∧ t.cal.pending = false ∧
      (∀ c ∈ groupChans s.cal.group.toNat, (getWs t c).sw = some (turnOf s.whl.pos, 1)) ∧ t.nvs = s.nvs) := by
  unfold execBankCalHoldStart
  extract_lets g turn cal0 s1 sh s2
  rw [if_neg (by simp [hst, g, hb])]
  have hs1 := hide_modesFrom (groupChans g) turn 1 { s with cal := { s.cal with pending := false, held := true, st := .measure } }
  have hs2 : s2.cal = s1.cal ∧ s2.pnt = s1.pnt ∧ s2.nvs = s1.nvs := by
    unfold s2
    split
    · exact ⟨rfl, rfl, rfl⟩
    · exact ⟨rfl, rfl, rfl⟩
  obtain ⟨hcal, hpnt, hnvs⟩ := hs2
  suffices hall : ∀ t : State, t.cal = s2.cal → t.pnt = s2.pnt → t.nvs = s2.nvs → t.cal.st = .measure ∧ t.cal.held = true ∧
      t.cal.pending = false ∧ (∀ c ∈ groupChans g, (getWs t c).sw = some (turn, 1)) ∧ t.nvs = s.nvs by
    split
    · exact ⟨_, rfl, hall _ (noteQual_cal ..) (noteQual_pnt ..) (noteQual_nvs ..)⟩
    · exact ⟨_, rfl, hall _ rfl rfl rfl⟩
  intro t htc htp htn
  rw [htc, hcal, same_cal hs1 rfl, htn, hnvs, same_nvs hs1 rfl rfl]
  exact ⟨rfl, rfl, rfl, fun c hc => by rw [getWs_pnt (htp.trans hpnt)]; exact sw_modesFrom hc .., rfl⟩

theorem measurable_isolate (ms : List Nat) (s : State) (g : Nat) : measurable (isolate ms s) g = measurable s g := by
  have hon : modOn (isolate ms s) = modOn s := by
    funext m
    simp only [modOn, servedBy, chanEn, getShadow_isolate, afeField_isolate Afe.chan (fun _ _ => rfl)]
  rw [measurable, hon]; rfl

/-- The group's modulators at the start of their levels (R207). -/
def calLevels (ms : List Nat) (s : State) : State :=
  ms.foldl (fun t m => setCalMod m { freshLevels (getCalMod t m) with ok := false } t) s

theorem cal_calLevels (ms : List Nat) (s : State) : (calLevels ms s).cal.st = s.cal.st ∧ (calLevels ms s).cal.isol = s.cal.isol := by
  refine ⟨foldl_kept (f := fun t : State => t.cal.st) (fun t m => ?_) ms s, foldl_kept (f := fun t : State => t.cal.isol) (fun t m => ?_) ms s⟩
  · rfl
  · rfl

theorem startGroup_eq (g : Nat) (s : State) : startGroup g s =
    setGrp g ⟨0, (measurable s g).isEmpty, measurable s g, false, false, s.slot⟩ (calLevels (measurable s g) s) := rfl

theorem ends_bankCalIsolate {s : State} (hst : s.cal.st = .measure) (hi : s.cal.isol = false) :
    ends (execBankCalIsolate s) (fun t => t.cal.isol = true ∧ t.cal.st = .measure ∧ (getGrp t s.cal.group.toNat).attempt = 0 ∧
      (getGrp t s.cal.group.toNat).gap = false ∧ (getGrp t s.cal.group.toNat).todo = measurable s s.cal.group.toNat) := by
  unfold execBankCalIsolate
  extract_lets g
  rw [if_neg (by simp [hst, hi]), startGroup_eq]
  refine ⟨_, rfl, ?_⟩
  dsimp only
  rw [getGrp_setGrp, measurable_isolate]
  obtain ⟨hs, hl⟩ := cal_calLevels (measurable { s with cal.isol := true } g) (isolate (groupMods g) { s with cal.isol := true })
  rw [cal_isolate] at hs hl
  exact ⟨hl, hs.trans hst, rfl, rfl, rfl⟩

/-- The end of an attempt: the calibration waits for its write, or for the gap before the next attempt (R208). -/
theorem ends_bankCalAttemptEnd {s : State} (hst : s.cal.st = .measure) (hi : s.cal.isol = true)
    (hl : levelsDone s s.cal.group.toNat = true) : ends (execBankCalAttemptEnd s) (fun t =>
      t.cal.st = if (getGrp t s.cal.group.toNat).done then .waitWrite else .gap) := by
  unfold execBankCalAttemptEnd
  extract_lets g s1
  rw [if_neg (by simp [hst, hi, g, hl])]
  split
  · next hd => exact ⟨_, rfl, (if_pos hd).symm⟩
  · next hd => exact ⟨_, rfl, (if_neg hd).symm⟩

theorem execBankCalAttemptEnd_wait {s : State} (hl : levelsDone s s.cal.group.toNat = false) :
    execBankCalAttemptEnd s = .next s := by
  unfold execBankCalAttemptEnd
  extract_lets g
  rw [if_pos (by simp [g, hl])]

/-! ### The write (R213 step 4) -/

theorem calCount_putDeltas (ds : List (Nat × Int × Int)) (s : State) : (putDeltas ds s).cal.count = s.cal.count := by
  unfold putDeltas
  refine foldl_kept (f := fun t : State => t.cal.count) (fun t d => ?_) ds s
  rfl

theorem calCount_writeCodes (ms : List Nat) (s : State) : (writeCodes ms s).cal.count = s.cal.count := by
  unfold writeCodes
  extract_lets clamp s1
  have h1 : s1.cal.count = s.cal.count := foldl_kept (f := fun t : State => t.cal.count) (fun t m => by rfl) ms s
  split
  · rw [cal_raise, h1]
  · exact h1

theorem newDeltas_isEmpty {ms : List Nat} {s : State} (h : ms.any (fun m => (getCalMod s m).ok) = true) :
    (newDeltas ms s).isEmpty = false := by
  simpa [newDeltas, List.filter_eq_nil_iff] using h

/-- A write with an accepted modulator counts one calibration. -/
theorem calCount_calWrite (power : Bool) {ms : List Nat} {s : State} (h : ms.any (fun m => (getCalMod s m).ok) = true) :
    (calWrite power ms s).cal.count = s.cal.count + 1 := by
  unfold calWrite
  extract_lets key ds cal0 s1
  have hds : ds.isEmpty = false := newDeltas_isEmpty h
  have h1 : s1.cal.count = s.cal.count + 1 := by
    unfold s1
    rw [if_neg (by simp [hds])]
  split
  · rw [applyTrims, calCount_writeCodes, calCount_putDeltas, h1]
  · exact (congrArg Cal.count (same_cal (@hide_commitRecEff { nvs := true } ⟨rfl⟩ ..) rfl)).trans h1

theorem cal_reconnect (ms : List Nat) (s : State) : (reconnect ms s).cal = s.cal :=
  same_cal (@hide_reconnect { afe := true, dec := true } ⟨rfl⟩ ⟨rfl⟩ ms s) rfl

theorem cal_noteTrim (g : Nat) (s : State) : (noteTrim g s).cal = s.cal :=
  same_cal (@hide_noteTrim { afe := true } ⟨rfl⟩ g s) rfl

/-- At Bw the inputs are reconnected, and no trim of the group is due; where a modulator was accepted the calibration counts. -/
theorem ends_bankCalWrite {s : State} (hst : s.cal.st = .waitWrite) : ends (execBankCalWrite s) (fun t =>
    t.cal.st = .release ∧ t.cal.isol = false ∧ t.cal.trimDue.contains s.cal.group.toNat = false ∧
    ((measurable s s.cal.group.toNat).any (fun m => (getCalMod s m).ok) = true →
      t.cal.count = s.cal.count + 1 ∧ t.cal.wstamp = some (nowStamp s))) := by
  unfold execBankCalWrite
  extract_lets g ms wrote s2
  rw [if_neg (by simp [hst])]
  refine ⟨_, rfl, rfl, rfl, by simp [g], fun hok => ⟨?_, if_pos ?_⟩⟩
  · have h2 : s2.cal = (calWrite false ms s).cal := (cal_noteTrim ..).trans (cal_reconnect ..)
    exact (congrArg Cal.count h2).trans (calCount_calWrite false hok)
  · simp [wrote, ms, g, hok]

/-! ### The release (R213 step 5, R219) -/

/-- The state at Br, with the hold ended and the event in the log's queue. -/
def calReleased (s : State) : State :=
  let g := s.cal.group.toNat
  let x := getGrp s g
  let s1 := (groupChans g).foldl (fun u c => modeFrom c (turnOf s.whl.pos) 0 u) s
  let s3 := calEvent 1 g (x.attempt + 1) false x.todo x.restarted (s.cal.wstamp.getD (nowStamp s)) (resumeShadow g s1)
  { s3 with cal := { s3.cal with st := .idle, held := false, grps := [], waiter := none, wstamp := none } }

theorem execBankCalRelease_eq {s : State} (hst : s.cal.st = .release) : execBankCalRelease s =
    .next (s.cal.waiter.elim (calReleased s) (fun w => complete w statusOk 0 [] (calReleased s))) := by
  unfold execBankCalRelease
  dsimp only
  rw [if_neg (by simp [hst])]
  cases s.cal.waiter <;> rfl

theorem length_logQueue_calReleased (s : State) : (calReleased s).nvs.logQueue.length = s.nvs.logQueue.length + 1 := by
  unfold calReleased
  extract_lets g x s1 s3
  have h1 : (resumeShadow g s1).nvs = s.nvs := (same_nvs (@hide_resumeShadow { afe := true } ⟨rfl⟩ g s1) rfl rfl).trans
    (same_nvs (hide_modesFrom ..) rfl rfl)
  have h3 : s3.nvs.logQueue = (resumeShadow g s1).nvs.logQueue ++ [_] := rfl
  simp only [h3, h1, List.length_append, List.length_singleton]

/-- At Br the group's channels leave their hold (R213). -/
theorem sw_calReleased {s : State} {c : Nat} (hc : c ∈ groupChans s.cal.group.toNat) :
    (getWs (calReleased s) c).sw = some (turnOf s.whl.pos, 0) := by
  unfold calReleased
  extract_lets g x s1 s3
  have h3 : s3.pnt = s1.pnt := (pnt_calEvent ..).trans (pnt_resumeShadow ..)
  exact (congrArg WStream.sw (getWs_pnt h3 c)).trans (sw_modesFrom hc ..)

/-- At Br the hold ends, the event enters the log and no request waits (R213, R219). -/
theorem ends_bankCalRelease {s : State} (hst : s.cal.st = .release) : ends (execBankCalRelease s) (fun t =>
    t.cal.st = .idle ∧ t.cal.held = false ∧ t.cal.waiter = none ∧
    (∀ c ∈ groupChans s.cal.group.toNat, (getWs t c).sw = some (turnOf s.whl.pos, 0)) ∧
    t.nvs.logQueue.length = s.nvs.logQueue.length + 1) := by
  suffices hall : ∀ t : State, t.cal = (calReleased s).cal → t.pnt = (calReleased s).pnt → t.nvs = (calReleased s).nvs →
      t.cal.st = .idle ∧ t.cal.held = false ∧ t.cal.waiter = none ∧
      (∀ c ∈ groupChans s.cal.group.toNat, (getWs t c).sw = some (turnOf s.whl.pos, 0)) ∧
      t.nvs.logQueue.length = s.nvs.logQueue.length + 1 by
    refine ends_of (execBankCalRelease_eq hst) ?_
    cases s.cal.waiter with
    | none => exact hall _ rfl rfl rfl
    | some w =>
      have hdone := hide_complete_own w statusOk 0 [] (calReleased s)
      exact hall _ (same_cal hdone rfl) (same_pnt hdone rfl) (same_nvs hdone rfl rfl)
  intro t hcal hpnt hnvs
  rw [hcal, hnvs]
  exact ⟨rfl, rfl, rfl, fun c hc => by rw [getWs_pnt hpnt]; exact sw_calReleased hc, length_logQueue_calReleased s⟩

/-- Settles O38: a bank calibration in its five steps, each from the state of the calibration it needs. -/
theorem bankCalibration : Obligations.BankCalibration := by
  unfold Obligations.BankCalibration
  intro s g
  exact ⟨fun r hown hg hz hm => ⟨ends_calBank hown hg hz hm, execCalBank_busy hown hg hz hm⟩,
    ends_bankCalHoldStart, fun _ => execBankCalHoldStart_wait, ends_bankCalIsolate,
    fun hst hi => ⟨ends_bankCalAttemptEnd hst hi, execBankCalAttemptEnd_wait⟩, ends_bankCalWrite,
    fun hst => ⟨ends_bankCalRelease hst, fun w hw => ⟨calReleased s, (execBankCalRelease_eq hst).trans (by rw [hw]; rfl)⟩⟩⟩

end Sys2Proof.Proofs

namespace Sys2Proof.Proofs
open Sys2Proof Sys2Proof.Machine Sys2Proof.Laws

/-! ### Quality windows (R169, R170) -/

/-- The blocks that a close of quality intervals may change. -/
def closeBlocks : Mask := { faultBlocks with pq := true }

theorem winCount_raise (b i : Nat) (s : State) : (raise b i s).pq.winCount = s.pq.winCount :=
  congrArg Pq.winCount (same_pq (@hide_raise faultBlocks ⟨rfl⟩ ⟨rfl⟩ ⟨rfl⟩ ⟨rfl⟩ ⟨rfl⟩ ⟨rfl⟩ ⟨rfl⟩ b i s) rfl)

theorem winCount_deliver (ring : Nat) (q : QRec) (s : State) : (deliver ring q s).pq.winCount = s.pq.winCount :=
  congrArg Pq.winCount (same_pq (@hide_deliver faultBlocks ⟨rfl⟩ ⟨rfl⟩ ⟨rfl⟩ ⟨rfl⟩ ⟨rfl⟩ ⟨rfl⟩ ⟨rfl⟩ ring q s) rfl)

theorem winCount_countDrop (i : Nat) (s : State) : (countDrop i s).pq.winCount = s.pq.winCount := by
  unfold countDrop
  extract_lets _ s1 span
  have h1 : s1.pq.winCount = s.pq.winCount := by unfold s1; split <;> rfl
  split
  · exact h1
  · exact (winCount_raise 5 0 _).trans h1

theorem winCount_makeRoom (n fuel : Nat) (s : State) : (makeRoom n fuel s).pq.winCount = s.pq.winCount := by
  induction fuel generalizing s with
  | zero => rfl
  | succ fuel ih =>
    unfold makeRoom
    dsimp -proj only
    split
    · rfl
    · split
      · exact (ih _).trans ((winCount_countDrop ..).trans
          (congrArg Pq.winCount (same_pq (@hide_removeResult { hif := true, coil := true } ⟨rfl⟩ ⟨rfl⟩ _ s) rfl)))
      · rfl

theorem winCount_deliverPq (r : Rec) (s : State) : (deliverPq r s).pq.winCount = s.pq.winCount := by
  unfold deliverPq
  extract_lets q _ s0 s1
  have h1 : s1.pq.winCount = s.pq.winCount := winCount_makeRoom ..
  split
  · exact (winCount_deliver 6 q s1).trans h1
  · exact (winCount_countDrop ..).trans h1

theorem winCount_produce (kinds : List Nat) (interval extra : Nat) (at_ : Int) (pick : Nat → Nat → Option Agg)
    (whole : Nat → Nat) (s : State) : (produce kinds interval extra at_ pick whole s).pq.winCount = s.pq.winCount := by
  refine foldl_kept (f := fun t : State => t.pq.winCount) (fun t e => ?_) _ s
  refine foldl_kept (f := fun t : State => t.pq.winCount) (fun u j => ?_) _ t
  dsimp only
  split
  · rfl
  · split
    · rfl
    · exact winCount_deliverPq ..

theorem winCount_closeSpan (interval extra : Nat) (at_ : Int) (next : Span) (s : State) :
    (closeSpan interval extra at_ next s).pq.winCount = s.pq.winCount := by
  unfold closeSpan
  extract_lets sp aggs s1
  change s1.pq.winCount = s.pq.winCount
  unfold s1
  split
  · rfl
  · exact winCount_produce ..

theorem winCount_joinSpan (interval : Nat) (at_ : Int) (start stop : Nat) (ms : List (Nat × Nat × Member)) (s : State) :
    (joinSpan interval at_ start stop ms s).pq.winCount = s.pq.winCount := by
  unfold joinSpan
  extract_lets len idx sp0 s0 sp _ s1 closing
  have h0 : s0.pq.winCount = s.pq.winCount := by
    unfold s0
    split
    · exact winCount_closeSpan ..
    · rfl
  have h1 : s1.pq.winCount = s.pq.winCount := h0
  repeat' split
  all_goals simp only [winCount_closeSpan, h1]

/-- The state in which the results of a finished window have been produced and joined the longer intervals (R177). -/
def windowReported (s : State) : State :=
  let h := s.pq.win
  let ms := windowMembers s
  let pick (k j : Nat) : Option Agg :=
    (ms.find? (fun m => m.1 == k && m.2.1 == j)).map (fun m => addMember k m.2.2 Init.agg)
  [1, 2, 3].foldl (fun t i => joinSpan i h.at_ h.start.sec.toNat h.stop.sec.toNat ms t)
    (produce [0, 1, 3] 0 0 h.at_ pick (fun n => n) { s with free := s.free + 1 })

theorem winCount_windowReported (s : State) : (windowReported s).pq.winCount = s.pq.winCount :=
  (foldl_kept (f := fun t : State => t.pq.winCount) (fun _ _ => winCount_joinSpan ..) [1, 2, 3] _).trans
    (winCount_produce ..)

theorem hide_windowReported (s : State) :
    hide { closeBlocks with free := true } (windowReported s) = hide { closeBlocks with free := true } s := by
  have : Hidden true := ⟨rfl⟩
  simp [windowReported, closeBlocks, faultBlocks, ↓hide_with]

theorem execHarmonicWindowAnalyse_ended {s : State} (ha : s.pq.win.active = true)
    (he : winTurns s ≤ s.pq.win.turns ∨ s.pq.win.short = true) : execHarmonicWindowAnalyse s =
      .next { windowReported s with
        pq := { (windowReported s).pq with win := Init.hwin, winCount := (windowReported s).pq.winCount + 1 } } := by
  unfold execHarmonicWindowAnalyse windowReported
  dsimp only
  rw [if_neg]
  rcases he with h | h
  · simp [ha, h]
  · simp [ha, h]

theorem execHarmonicWindowAnalyse_unfinished {s : State}
    (h : s.pq.win.active = false ∨ (s.pq.win.turns < winTurns s ∧ s.pq.win.short = false)) :
    execHarmonicWindowAnalyse s = .next s := by
  unfold execHarmonicWindowAnalyse
  dsimp only
  rw [if_pos]
  rcases h with h | ⟨ht, hs⟩
  · simp [h]
  · simp [hs, ht]

/-- The end of a window is counted, and the next one begins afresh (R169, R170). -/
theorem ends_harmonicWindowAnalyse {s : State} (ha : s.pq.win.active = true)
    (he : winTurns s ≤ s.pq.win.turns ∨ s.pq.win.short = true) : ends (execHarmonicWindowAnalyse s) (fun t =>
      t.pq.win = Init.hwin ∧ t.pq.winCount = s.pq.winCount + 1 ∧ t.pnt = s.pnt ∧ t.trf = s.trf ∧ t.nvs.recs = s.nvs.recs) := by
  have hk := hide_windowReported s
  exact ends_of (execHarmonicWindowAnalyse_ended ha he) ⟨rfl, congrArg (· + 1) (winCount_windowReported s),
    (same_pnt hk rfl :), (same_trf hk rfl :), (same_recs hk rfl :)⟩

/-! ### Supraharmonic windows (R176) -/

theorem hide_closeShort_own (t extra : Nat) (at_ : Int) (stop : Nat) (s : State) :
    hide closeBlocks (closeShort t extra at_ stop s) = hide closeBlocks s :=
  @hide_closeShort closeBlocks ⟨rfl⟩ ⟨rfl⟩ ⟨rfl⟩ ⟨rfl⟩ ⟨rfl⟩ ⟨rfl⟩ ⟨rfl⟩ ⟨rfl⟩ t extra at_ stop s

/-- A tap entry's window taken out. -/
def tapTaken (n : Nat) (s : State) : State := { s with dec.tap := tput s.dec.tap n { getTap s n with smps := [] } }

theorem smps_tapTaken (n : Nat) (s : State) : (getTap (tapTaken n s) n).smps = [] := by
  simp [getTap, tapTaken]

/-- Once its window is taken out, an entry's analysis changes what a close of intervals may change alone. -/
theorem ends_supraWindowAnalyse_taken {n : Nat} {s : State} (hn : n < 12) (he : tapEn s n = true)
    (hl : 1920 ≤ (getTap s n).smps.length) (hm : metering s = true) :
    ends (execSupraWindowAnalyse n s) (fun t => hide closeBlocks t = hide closeBlocks (tapTaken n s)) := by
  unfold execSupraWindowAnalyse
  extract_lets w num begun k vals stop m held _ s1 s2 _ s3
  rw [if_neg (by simp [w, he, hm, Nat.not_le.2 hn, Nat.not_lt.2 hl])]
  have h2 : hide closeBlocks s2 = hide closeBlocks (tapTaken n s) := by
    unfold s2
    split
    · exact hide_closeShort_own ..
    · rfl
  have h3 : hide closeBlocks s3 = hide closeBlocks (tapTaken n s) := h2
  split
  · exact ⟨_, rfl, (hide_closeShort_own ..).trans h3⟩
  · exact ⟨_, rfl, h3⟩

theorem ends_supraWindowAnalyse {n : Nat} {s : State} (hn : n < 12) (he : tapEn s n = true)
    (hl : 1920 ≤ (getTap s n).smps.length) (hm : metering s = true) : ends (execSupraWindowAnalyse n s) (fun t =>
      (getTap t n).smps = [] ∧ t.pnt = s.pnt ∧ t.nvs.recs = s.nvs.recs) := by
  obtain ⟨t, ht, hk⟩ := ends_supraWindowAnalyse_taken hn he hl hm
  refine ends_of ht ⟨?_, (same_pnt hk rfl :), (same_recs hk rfl :)⟩
  rw [getTap, same_dec hk rfl]
  exact smps_tapTaken n s

/-! ### Half-cycle values (R190-R192) -/

/-- A half-cycle value as its register shows it (R190). -/
def halfWord (hold : Bool) (x : Nat × BitVec 6) : W32 :=
  BitVec.ofNat 32 (bitAt hold 31 + bitAt (bit x.2 flOvr) 30 + min x.1 (2 ^ 30 - 1))

/-- The channels of a list show their new values, the others the values they had. -/
theorem tget_hc_showHalf (hold : Bool) (v : Nat → Nat × BitVec 6) (l : List Nat) (s : State) (c : Nat) :
    tget (showHalf hold (l.map fun i => (i, v i)) s).pq.hc c = if c ∈ l then some (halfWord hold (v c)) else tget s.pq.hc c := by
  unfold showHalf
  induction l generalizing s with
  | nil => rfl
  | cons i l ih =>
    rw [List.map_cons, List.foldl_cons, ih]
    by_cases hl : c ∈ l
    · simp [hl]
    · by_cases hi : i = c
      · subst hi; simp [hl, halfWord]
      · simp [hl, hi, Ne.symm hi, tget_tput]

theorem hc_endEvent (key : Nat) (stop : Stamp) (extra : Nat) (s : State) : (endEvent key stop extra s).pq.hc = s.pq.hc := by
  unfold endEvent
  split <;> rfl

theorem hc_evKind (f : Refresh) (v g : Nat) (vals : List (Nat × Nat)) (flags : Nat) (s : State) (kind : Nat) :
    (evKind f v g vals flags s kind).pq.hc = s.pq.hc := by
  unfold evKind
  dsimp only
  split
  · rfl
  · split
    · split
      · exact hc_endEvent ..
      · rfl
    · split
      · split <;> rfl
      · rfl

theorem hc_evGroup (f : Refresh) (hold : Bool) (vals : List (Nat × Nat × BitVec 6)) (v : Nat) (g : Nat × List Nat) (s : State) :
    (evGroup f hold vals v g s).pq.hc = s.pq.hc :=
  foldl_kept (f := fun t : State => t.pq.hc) (fun _ _ => hc_evKind ..) _ s

theorem hc_evAll (f : Refresh) (hold : Bool) (vals : List (Nat × Nat × BitVec 6)) (s : State) :
    (evAll f hold vals s).pq.hc = s.pq.hc :=
  foldl_kept (f := fun t : State => t.pq.hc)
    (fun u _ => foldl_kept (f := fun t : State => t.pq.hc) (fun _ _ => hc_evGroup ..) _ u) _ s

theorem hc_configEnd (f : Refresh) (hold : Bool) (vals : List (Nat × Nat × BitVec 6)) (s : State) (key : Nat) :
    (configEnd f hold vals s key).pq.hc = s.pq.hc := by
  unfold configEnd
  split
  · rfl
  · exact hc_endEvent ..

theorem hc_withEvCfg (c : W32 × List W32 × W32 × W32) {f : State → State} (h : ∀ t, (f t).pq.hc = t.pq.hc) (s : State) :
    (withEvCfg c f s).pq.hc = s.pq.hc := h _

/-- The conditions of the sets, under either configuration, leave the half-cycle values as they are shown. -/
theorem hc_evRefresh (f : Refresh) (turn : BitVec 40) (hold : Bool) (vals : List (Nat × Nat × BitVec 6)) (s : State) :
    (evRefresh f turn hold vals s).pq.hc = s.pq.hc := by
  unfold evRefresh
  split
  · exact hc_evAll ..
  · split
    · exact hc_withEvCfg _ (hc_evAll f hold vals) s
    · exact (hc_evAll ..).trans (hc_withEvCfg _ (fun u => foldl_kept (f := fun t : State => t.pq.hc)
        (fun t k => hc_configEnd f hold vals t k) _ u) _)

/-- States that agree outside the quality and the store block differ in these two blocks alone. -/
theorem eq_of_hide_pqNvs {s t : State}
    (h : hide { nvs := true, store := true, pq := true } t = hide { nvs := true, store := true, pq := true } s) :
    t = { s with pq := t.pq, nvs := t.nvs } :=
  congrArg (fun u : State => { u with pq := t.pq, nvs := t.nvs }) h

/-- At wheel samples 0 and 128 of a live turn the enabled voltage channels show their values, and the conditions of the
sets are evaluated (R190, R191). -/
theorem execHalfCycleRms_due {s : State} {u : RsTurn} {k : Nat} (hu : newestTurn s = some (u, k)) (hk : k = 0 ∨ k = 128)
    (hl : u.live = true) (hw : 256 ≤ (getWs s 0).prev.length) : ∃ f,
    execHalfCycleRms s = .next (evRefresh f u.turn (decide (s.pnt.holdAge < 256))
      (((List.range 12).filter (chanEn s)).map fun c => (c, halfRms s u.turn c))
      (showHalf (decide (s.pnt.holdAge < 256)) (((List.range 12).filter (chanEn s)).map fun c => (c, halfRms s u.turn c)) s)) := by
  have hdue : (!(k == 0 || k == 128) || !u.live || decide ((getWs s 0).prev.length < 256)) = false := by
    rcases hk with h | h <;> simp [hl, Nat.not_lt.2 hw, h]
  unfold execHalfCycleRms
  simp only [hu, hdue, Bool.false_eq_true, if_false]
  exact ⟨_, rfl⟩

theorem ends_halfCycleRms {s : State} {u : RsTurn} {k : Nat} (hu : newestTurn s = some (u, k)) (hk : k = 0 ∨ k = 128)
    (hl : u.live = true) (hw : 256 ≤ (getWs s 0).prev.length) : ends (execHalfCycleRms s) (fun t =>
      t = { s with pq := t.pq, nvs := t.nvs } ∧ ∀ c, tget t.pq.hc c =
        if c ∈ (List.range 12).filter (chanEn s) then some (halfWord (decide (s.pnt.holdAge < 256)) (halfRms s u.turn c))
        else tget s.pq.hc c) := by
  have : Hidden true := ⟨rfl⟩
  obtain ⟨f, hf⟩ := execHalfCycleRms_due hu hk hl hw
  refine ends_of hf ⟨eq_of_hide_pqNvs (by simp), fun c => ?_⟩
  rw [hc_evRefresh]
  exact tget_hc_showHalf _ (halfRms s u.turn) _ s c

/-! ### Configuration (R192, R200) -/

theorem ends_pqConfigApply {s : State} {c t0 t1 : W32} {u : List W32} (h : s.pq.next = some (c, u, t0, t1)) :
    ends (execPqConfigApply s) (fun t => t.pq.cfg = c ∧ t.pq.udin = u ∧ t.pq.thr0 = t0 ∧ t.pq.thr1 = t1 ∧
      t.pq.next = none ∧ t = { s with pq := t.pq }) := by
  unfold execPqConfigApply
  rw [h]
  exact ⟨_, rfl, rfl, rfl, rfl, rfl, rfl, rfl⟩

theorem execPqConfigApply_none {s : State} (h : s.pq.next = none) : execPqConfigApply s = .next s := by
  simp [execPqConfigApply, h]

/-- Settles O36: a window by whether it has ended, a tap entry by what taking its window out leaves, the half-cycle values by
the channels shown, a configuration by whether one waits. -/
theorem qualityWindows : Obligations.QualityWindows := by
  unfold Obligations.QualityWindows
  refine fun s => ⟨ends_harmonicWindowAnalyse, execHarmonicWindowAnalyse_unfinished,
    fun n hn he hl hm => ends_supraWindowAnalyse hn he hl hm, fun u k hu hk hl hw => ?_,
    fun c u t0 t1 => ends_pqConfigApply, execPqConfigApply_none⟩
  obtain ⟨t, ht, hframe, hc⟩ := ends_halfCycleRms hu hk hl hw
  refine ends_of ht ⟨hframe, fun c hlt he => ?_, fun c _ he => ?_⟩
  · rw [hc, if_pos (by simp [hlt, he])]
    rfl
  · rw [hc, if_neg (by simp [he])]

end Sys2Proof.Proofs

namespace Sys2Proof.Proofs
open Sys2Proof Sys2Proof.Machine Sys2Proof.Laws

/-! ### Captures on command (R195, R196) -/

theorem pq_complete (w : Waiter) (st : W16) (q : W32) (d : List Byte) (s : State) : (complete w st q d s).pq = s.pq :=
  same_pq (hide_complete_own w st q d s) rfl

/-- A released capture SRAM: without its undelivered segments, and without the angle action of its request (R195). -/
def capReleased (n : Nat) (s : State) : State :=
  { dropSegs s with
    whl.ang := if (getReq s n).trigger == 1 then tdel (dropSegs s).whl.ang (capEntry n) else (dropSegs s).whl.ang
    pq.cap := { (dropSegs s).pq.cap with state := 0, ch := [], segs := [] } }

/-- A release leaves the counts and the requests as they were. -/
theorem pq_capReleased (n : Nat) (s : State) :
    (capReleased n s).pq = { s.pq with cap := { s.pq.cap with state := 0, ch := [], segs := [] } } :=
  congrArg (fun p : Pq => { p with cap := { p.cap with state := 0, ch := [], segs := [] } })
    (same_pq (@hide_dropSegs { hif := true, coil := true } ⟨rfl⟩ ⟨rfl⟩ s) rfl)

section CaptureCommand
variable {r : Req} {s : State} (hown : ownRing0 4 r s) (hgood : capCmdBad s r.buf = false)
include hown hgood

theorem execCapArm_idle (h : s.pq.cap.state = 0) :
    execCapArm r s = .next (complete (reqWaiter r 0 0x22) statusOk 0 [] (capArmed (rd r.buf 0 1) s)) :=
  (ring0_ownRing0 hown _).trans (by simp [hgood, h])

/-- While another request is in use the command is BUSY, and is counted (R195). -/
theorem execCapArm_busy (h : s.pq.cap.state ≠ 0) : execCapArm r s =
    .next (complete (reqWaiter r 0 0x22) statusBusy 0 [] { s with pq.cap.busy := satInc s.pq.cap.busy }) := by
  refine (ring0_ownRing0 hown _).trans ?_
  dsimp only
  rw [hgood, if_neg (by decide), if_pos (bne_iff_ne.2 h)]
  rfl

/-- On a free capture SRAM the command arms its request and fires it (R195; log entry 81). -/
theorem execCapTrigger_idle (h : s.pq.cap.state = 0) : execCapTrigger r s =
    .next (complete (reqWaiter r 0 0x23) statusOk 0 [] (capCommandFire (capSeed (capArmed (rd r.buf 0 1) s)))) :=
  (ring0_ownRing0 hown _).trans (by simp [hgood, h])

theorem execCapTrigger_armed (h : s.pq.cap.state = 1) (ho : s.pq.cap.owner.toNat = rd r.buf 0 1) :
    execCapTrigger r s = .next (complete (reqWaiter r 0 0x23) statusOk 0 [] (capCommandFire s)) :=
  (ring0_ownRing0 hown _).trans (by simp [hgood, h, ho])

theorem execCapRelease_owner (h : s.pq.cap.state ≠ 0) (ho : s.pq.cap.owner.toNat = rd r.buf 0 1) : execCapRelease r s =
    .next (complete (reqWaiter r 0 0x24) statusOk 0 [] (capReleased (rd r.buf 0 1) s)) := by
  have hok : (capCmdBad s r.buf || s.pq.cap.state == 0 || s.pq.cap.owner.toNat != rd r.buf 0 1) = false := by
    simp only [hgood, beq_false_of_ne h, ho, bne_self_eq_false, Bool.or_self]
  refine (ring0_ownRing0 hown _).trans ?_
  dsimp only
  rw [hok]
  rfl

end CaptureCommand

/-! ### Triggers and the end of the filling (R195-R197) -/

section CaptureTrigger
variable {n : Nat} {s : State} (hn : n < 8) (he : (getReq s n).en = true) (ht : (getReq s n).trigger ≠ 0)
include hn he ht

/-- A condition counts for an enabled request that has one. -/
theorem trigger_counts : ¬(decide (n ≥ 8) || !(getReq s n).en || (getReq s n).trigger == 0) = true := by
  simp only [he, beq_false_of_ne ht, decide_eq_false (Nat.not_le.2 hn), Bool.not_true, Bool.or_self, Bool.false_eq_true,
    not_false_eq_true]

/-- The condition of the armed request starts its filling (R196). -/
theorem execCaptureTrigger_armed {t : Int} {p : W64} (h : s.pq.cap.state = 1) (ho : s.pq.cap.owner.toNat = n)
    (hc : tget s.pq.cand (getReq s n).trigger.toNat = some (t, p)) : execCaptureTrigger n s = .next (capFire t p s) := by
  unfold execCaptureTrigger
  dsimp only
  rw [if_neg (trigger_counts hn he ht), if_pos (by simp [h, ho]), hc]
  split
  · rename_i h1
    rw [eq_of_beq h1] at hc
    rw [show tget s.pq.cand 1 = some (t, p) from hc]
  · rfl

/-- The condition of a request that is not armed is missed, and counted (R197). -/
theorem execCaptureTrigger_missed (h : s.pq.cap.state ≠ 1 ∨ s.pq.cap.owner.toNat ≠ n) :
    execCaptureTrigger n s = .next { s with pq.cap.missed := satInc s.pq.cap.missed } := by
  unfold execCaptureTrigger
  dsimp only
  rw [if_neg (trigger_counts hn he ht), if_neg]
  rw [Bool.and_eq_true, beq_iff_eq, beq_iff_eq]
  rintro ⟨h1, h2⟩
  exact h.elim (absurd h1) (absurd h2)

end CaptureTrigger

/-- FILLING that was truncated, or has its samples on every channel of its owner, is delivered (R195, R197). -/
theorem execCaptureFillEnd_done {s : State} (h : s.pq.cap.state = 2)
    (hd : s.pq.cap.stop.isSome = true ∨ (∀ c, c < 64 → bit (capOwner s).cmask c = true →
      postDone s.pq.cap.trig (capOwner s).post.toNat (tgetD s.pq.cap.ch c []) = true)) :
    execCaptureFillEnd s = .next (capDeliver s) := by
  unfold execCaptureFillEnd
  dsimp only
  rw [if_neg (by simp [h]), if_pos]
  rcases hd with hd | hd
  · simp [hd]
  · rw [Bool.or_eq_true, List.all_map, List.all_eq_true]
    refine .inr fun c hc => ?_
    obtain ⟨hlt, hb⟩ := List.mem_filter.1 hc
    exact hd c (List.mem_range.1 hlt) hb

/-! ### The raw stream (R359) -/

/-- The stream's block and the empty buffers of its ring. -/
def streamView (s : State) : Stream × List RxBuf := (s.hif.stream, (getRing s 15).bufs)

/-- A change of a ring that keeps its buffers keeps what the stream holds. -/
theorem streamView_modRing (n : Nat) {f : Ring → Ring} (hf : ∀ x, (f x).bufs = x.bufs) (s : State) :
    streamView (modRing n f s) = streamView s := by
  refine Prod.ext rfl ?_
  by_cases hn : n = 15
  · subst hn; exact (congrArg Ring.bufs (getRing_setRing ..)).trans (hf _)
  · exact congrArg Ring.bufs (getRing_setRing_ne _ _ _ _ hn)

theorem streamView_complete (w : Waiter) (st : W16) (q : W32) (d : List Byte) (s : State) :
    streamView (complete w st q d s) = streamView s := by
  unfold complete
  split
  · rfl
  · split
    · have hhif := same_hif (@hide_sendUp { out := true, coil := true } ⟨rfl⟩ ⟨rfl⟩ 1 1
        ([BitVec.ofNat 8 w.ring, w.op] ++ le 2 st.toNat ++ le 4 w.tag.toNat ++ d) s) rfl
      rw [streamView, getRing, hhif]; rfl
    · refine streamView_modRing _ (fun x => ?_) s
      dsimp only
      split <;> rfl

theorem streamView_waitReq (w : Waiter) (s : State) : streamView (waitReq w s) = streamView s := by
  unfold waitReq
  split
  · rfl
  · refine streamView_modRing _ (fun x => ?_) s
    split <;> rfl

theorem run_streamStep (s : State) : (streamStep s).hif.stream.run = s.hif.stream.run := by
  unfold streamStep
  dsimp only
  split
  · rfl
  · repeat' split
    all_goals rfl

/-- A running stream with an empty store serves no buffer. -/
theorem streamStep_starved {s : State} (hrun : s.hif.stream.run = true) (hs : s.hif.stream.store = []) : streamStep s = s := by
  unfold streamStep
  dsimp only
  split
  · rfl
  · rw [if_pos hrun, if_neg]
    simp [hs, Nat.pos_iff_ne_zero]

/-- The empty buffer of a STREAM_BUF at the end of its ring, where its descriptor holds none. -/
def bufPosted (r : Req) (s : State) : State :=
  let g := getRing s 15
  if g.bufs.any (fun b => b.idx == r.slot) then s
  else setRing 15 { g with bufs := g.bufs ++ [⟨r.slot, r.tag, r.irq, r.buf.length, []⟩] } s

theorem hide_bufPosted (r : Req) (s : State) : hide { hif := true } (bufPosted r s) = hide { hif := true } s := by
  unfold bufPosted
  dsimp only
  split <;> rfl

theorem stream_bufPosted (r : Req) (s : State) : (bufPosted r s).hif.stream = s.hif.stream := by
  unfold bufPosted
  dsimp only
  split <;> rfl

theorem bufs_bufPosted {r : Req} {s : State} (h : (getRing s 15).bufs = []) :
    (getRing (bufPosted r s) 15).bufs = [⟨r.slot, r.tag, r.irq, r.buf.length, []⟩] := by
  unfold bufPosted
  simp [h]

/-- The stream begun by a STREAM_START. -/
def streamStarted (r : Req) (s : State) : State :=
  { s with hif.stream :=
    { s.hif.stream with run := true, source := rd r.buf 0 1, mask := BitVec.ofNat 64 (rd r.buf 8 8),
                        number := if s.hif.stream.stopAt.isSome then s.hif.stream.number + 1 else s.hif.stream.number,
                        block := 0, index := 0, gap := false, curN := 0, parts := [], store := [], stopAt := none } }

section StreamRequest
variable {r : Req} {s : State} (hm : metering s = true)
include hm

theorem execStreamStart_good (hl : r.buf.length = 16) (hsrc : rd r.buf 0 1 ≤ 3) (hz : zerosAt r.buf 1 7 = true)
    (hmask : maskOk s (rd r.buf 0 1) (BitVec.ofNat 64 (rd r.buf 8 8)) = true)
    (hrate : popCount (BitVec.ofNat 64 (rd r.buf 8 8)) * wordLen (rd r.buf 0 1) * srcRate s (rd r.buf 0 1) ≤ 8000000)
    (hrun : s.hif.stream.run = false) :
    execStreamStart r s = .next (complete (reqWaiter r 15 0xA0) statusOk 0 [] (streamStarted r s)) := by
  have hbad : (decide (rd r.buf 0 1 > 3) || !zerosAt r.buf 1 7 || !maskOk s (rd r.buf 0 1) (BitVec.ofNat 64 (rd r.buf 8 8)) ||
      decide (popCount (BitVec.ofNat 64 (rd r.buf 8 8)) * wordLen (rd r.buf 0 1) * srcRate s (rd r.buf 0 1) > 8000000)) =
      false := by
    rw [decide_eq_false (Nat.not_lt.2 hsrc), hz, hmask, decide_eq_false (Nat.not_lt.2 hrate)]; rfl
  have hlen : (r.buf.length != 16) = false := by simp [hl]
  unfold execStreamStart
  simp only [hm, hlen, hbad, hrun, firstBad, Bool.not_true, Bool.false_eq_true, if_false]
  rfl

/-- A stop ends the stream and returns its empty buffers (R359). -/
theorem ends_streamStop (hl : r.buf.length = 4) (hz : zerosAt r.buf 0 4 = true) (hrun : s.hif.stream.run = true) :
    ends (execStreamStop r s) (fun t =>
      t.hif.stream.run = false ∧ t.hif.stream.stopAt = some r.slot ∧ (getRing t 15).bufs = []) := by
  have hlen : (r.buf.length != 4) = false := by simp [hl]
  unfold execStreamStop
  simp only [hm, hlen, hz, hrun, firstBad, Bool.not_true, Bool.or_self, Bool.false_eq_true, if_false]
  generalize hs2 : List.foldl _ _ _ = s2
  have hview2 : (streamView s2).2 = [] := by
    subst hs2
    refine (congrArg Prod.snd (foldl_kept (f := streamView) (fun t b => streamView_complete ..) _ _)).trans ?_
    exact congrArg Ring.bufs (getRing_setRing ..)
  refine ⟨_, rfl, ?_⟩
  generalize ht : complete _ _ _ _ _ = t
  have hview : streamView t = ({ s2.hif.stream with run := false, parts := [], stopAt := some r.slot }, []) := by
    subst ht
    exact (streamView_complete ..).trans (Prod.ext rfl hview2)
  exact ⟨congrArg (fun v => v.1.run) hview, congrArg (fun v => v.1.stopAt) hview, congrArg Prod.snd hview⟩

/-- A buffer that is long enough is accepted into the ring, and the stream serves it (R359). -/
theorem execStreamBuf_long (hl : 64 + max 1 (instLen s.hif.stream) ≤ r.buf.length) : execStreamBuf r s =
    .next (streamStep (bufPosted r (waitReq (reqWaiter r 15 0xA2) s))) := by
  unfold execStreamBuf
  dsimp only
  rw [if_neg (by simp [hm]), if_neg (Nat.not_lt.2 hl)]
  rfl

end StreamRequest

/-- An accepted buffer changes neither whether the stream runs, nor metering or the store; where none stood and the
stream has nothing stored, it waits empty (R359). -/
theorem streamStep_bufPosted (r : Req) (s : State) :
    let t := streamStep (bufPosted r (waitReq (reqWaiter r 15 0xA2) s))
    (t.hif.stream.run = s.hif.stream.run ∧ t.pnt = s.pnt ∧ t.nvs = s.nvs) ∧
    ((getRing s 15).bufs = [] → s.hif.stream.run = true → s.hif.stream.store = [] →
      (getRing t 15).bufs = [⟨r.slot, r.tag, r.irq, r.buf.length, []⟩]) := by
  intro t
  obtain ⟨hstream, hbufs⟩ := Prod.mk.inj (streamView_waitReq (reqWaiter r 15 0xA2) s)
  have hposted := (stream_bufPosted r (waitReq (reqWaiter r 15 0xA2) s)).trans hstream
  have hk : hide { hif := true, pq := true } t = hide { hif := true, pq := true } s :=
    (@hide_streamStep { hif := true, pq := true } ⟨rfl⟩ ⟨rfl⟩ _).trans
      ((congrArg (hide { pq := true }) ((hide_bufPosted r _).trans (hide_waitReq_own _ s)) :))
  refine ⟨⟨(run_streamStep _).trans (congrArg Stream.run hposted), (same_pnt hk rfl :), (same_nvs hk rfl rfl :)⟩,
    fun hb hrun hs => ?_⟩
  have ht : t = bufPosted r (waitReq (reqWaiter r 15 0xA2) s) := streamStep_starved (by rw [hposted, hrun]) (by rw [hposted, hs])
  rw [ht]
  exact bufs_bufPosted (hbufs.trans hb)

/-- Settles O34: each command by the state of the capture SRAM that it meets, the end of the filling by what ends it, the
stream's requests by their checks. -/
theorem capturesAndStream : Obligations.CapturesAndStream := by
  unfold Obligations.CapturesAndStream
  refine ⟨fun r s hown hgood => ⟨execCapArm_idle hown hgood, execCapArm_busy hown hgood, execCapTrigger_idle hown hgood,
      execCapTrigger_armed hown hgood, fun h ho => ends_of (execCapRelease_owner hown hgood h ho) ?_⟩,
    fun s => ⟨rfl, rfl⟩,
    fun n s hn he ht => ⟨fun t p => execCaptureTrigger_armed hn he ht, execCaptureTrigger_missed hn he ht⟩,
    fun s => execCaptureFillEnd_done,
    fun r s hm => ⟨fun hl hsrc hz hmask hrate hrun => ends_of (execStreamStart_good hm hl hsrc hz hmask hrate hrun) ?_,
      ends_streamStop hm, fun hl => ?_⟩⟩
  · rw [pq_complete, pq_capReleased]
    exact ⟨rfl, rfl, rfl, rfl⟩
  · have hstream := congrArg Prod.fst (streamView_complete (reqWaiter r 15 0xA0) statusOk 0 [] (streamStarted r s))
    rw [show (complete _ _ _ _ (streamStarted r s)).hif.stream = _ from hstream]
    exact ⟨rfl, rfl, rfl, rfl, rfl, rfl⟩
  · obtain ⟨hkept, hwaits⟩ := streamStep_bufPosted r s
    exact ⟨ends_of (execStreamBuf_long hm hl) hkept,
      fun _ hb hrun hs => ends_of (execStreamBuf_long hm hl) (hwaits hb hrun hs)⟩

end Sys2Proof.Proofs

namespace Sys2Proof.Proofs
open Sys2Proof Sys2Proof.Machine Sys2Proof.Laws

/-! ### Writes of the calibration's modulators, and what they leave of its block -/

/-- A write of each modulator of a list changes the modulators alone. -/
theorem setCalMods_mods (f : State → Nat → CalMod) (ms : List Nat) (s : State) :
    ∃ v, ms.foldl (fun t m => setCalMod m (f t m) t) s = { s with cal.mods := v } :=
  List.foldlRecOn (motive := fun t => ∃ v, t = { s with cal.mods := v }) ms _ ⟨_, rfl⟩
    fun _ ⟨_, h⟩ _ _ => h ▸ ⟨_, rfl⟩

/-- What every write of a modulator sets, a fold of such writes sets for the modulators of its list. -/
theorem getCalMod_setCalMods {f : State → Nat → CalMod} {m : Nat} {P : CalMod → Prop} (h : ∀ t, P (f t m)) (l : List Nat)
    {s : State} (hm : m ∈ l ∨ P (getCalMod s m)) : P (getCalMod (l.foldl (fun t i => setCalMod i (f t i) t) s) m) := by
  induction l generalizing s with
  | nil => simpa using hm
  | cons i l ih =>
    refine ih ?_
    by_cases hi : i = m
    · right; subst hi; rw [getCalMod_setCalMod]; exact h s
    · rw [getCalMod_setCalMod_ne _ _ _ _ hi]
      simpa [Ne.symm hi] using hm

/-- The codes written to the DACs change the modulators alone in the calibration's block; a clamp raises besides (R203). -/
theorem cal_writeCodes (ms : List Nat) (s : State) : ∃ v, (writeCodes ms s).cal = { s.cal with mods := v } := by
  unfold writeCodes
  extract_lets clamp s1
  obtain ⟨v, hv⟩ : ∃ v, s1 = { s with cal.mods := v } := setCalMods_mods ..
  refine ⟨v, ?_⟩
  split
  · rw [cal_raise, hv]
  · rw [hv]

/-- Each modulator of the list runs at its applied codes (R203). -/
theorem codes_writeCodes {ms : List Nat} {m : Nat} (hm : m ∈ ms) (s : State) :
    (getCalMod (writeCodes ms s) m).o = (appliedCodes s m).1 ∧ (getCalMod (writeCodes ms s) m).g = (appliedCodes s m).2.1 := by
  unfold writeCodes
  extract_lets clamp s1
  have h1 : (getCalMod s1 m).o = (appliedCodes s m).1 ∧ (getCalMod s1 m).g = (appliedCodes s m).2.1 :=
    getCalMod_setCalMods (P := fun c => c.o = (appliedCodes s m).1 ∧ c.g = (appliedCodes s m).2.1) (fun _ => ⟨rfl, rfl⟩) ms (.inl hm)
  split
  · rw [getCalMod, cal_raise]; exact h1
  · exact h1

/-! ### The start (R211 steps 1 to 4) -/

/-- What the start of a power-up calibration sets of the calibration's block, beside the groups and the modulators. -/
def calFlags (s : State) : CalSt × W16 × Bool × Bool × Bool :=
  (s.cal.st, s.cal.used, s.cal.timer, s.cal.isol, s.cal.rejected)

theorem calFlags_of_cal {s t : State} (h : t.cal = s.cal) : calFlags t = calFlags s := by
  rw [calFlags, h]; rfl

theorem cal_readFactory (s : State) : (readFactory s).cal = s.cal :=
  same_cal (@hide_readFactory { faultBlocks with store := true } ⟨rfl⟩ ⟨rfl⟩ ⟨rfl⟩ ⟨rfl⟩ ⟨rfl⟩ ⟨rfl⟩ ⟨rfl⟩ ⟨rfl⟩ s) rfl

theorem calFlags_loadCalRecord (s : State) : calFlags (loadCalRecord s) = calFlags s := by
  unfold loadCalRecord
  extract_lets key cal0 s1
  split
  · split
    · rfl
    · rfl
  · split
    · exact (calFlags_of_cal (cal_raise 6 2 s1)).trans rfl
    · rfl

theorem calFlags_writeCodes (ms : List Nat) (s : State) : calFlags (writeCodes ms s) = calFlags s := by
  obtain ⟨v, hv⟩ := cal_writeCodes ms s
  rw [calFlags, hv]; rfl

theorem calFlags_startGroup (g : Nat) (s : State) : calFlags (startGroup g s) = calFlags s := by
  obtain ⟨v, hv⟩ : ∃ v, calLevels (measurable s g) s = { s with cal.mods := v } := setCalMods_mods ..
  rw [startGroup_eq, hv]; rfl

/-- The temperature of the start in use, with the timer running and nothing rejected yet (R211). -/
def calBegun (th : W16) (s : State) : State :=
  { s with cal := { s.cal with used := th, timer := true, rejected := false } }

/-- The power-up calibration starts once the reference and the lock stand (R211). -/
theorem ends_powerupCalStart (th : W16) {s : State} (hb : s.boot.st = .cal) (hst : s.cal.st = .idle)
    (hv : s.afe.vrefOk = true) (hl : s.afe.mpllLock = true) (hh : s.afe.hold = false) :
    ends (execPowerupCalStart th s) (fun t =>
      t.cal.st = .powerup ∧ t.cal.used = th ∧ t.cal.timer = true ∧ t.cal.isol = true ∧ t.cal.rejected = false) := by
  unfold execPowerupCalStart
  extract_lets cal0 s1 s2 cal3 s3
  rw [if_neg (by simp [hb, hst, hv, hl, hh])]
  refine ⟨_, rfl, ?_⟩
  have h2 : calFlags s2 = (s.cal.st, th, true, s.cal.isol, false) :=
    calc calFlags s2
      _ = calFlags (writeCodes (List.range 65) s1) := calFlags_of_cal (cal_isolate (List.range 65) _)
      _ = calFlags s1 := calFlags_writeCodes (List.range 65) s1
      _ = calFlags (readFactory (calBegun th s)) := calFlags_loadCalRecord _
      _ = calFlags (calBegun th s) := calFlags_of_cal (cal_readFactory _)
  have hgroups : calFlags ((List.range 8).foldl (fun t g => startGroup g t) s3) = calFlags s3 :=
    foldl_kept (fun t g => calFlags_startGroup g t) (List.range 8) s3
  simp only [calFlags, Prod.mk.injEq] at h2 hgroups
  obtain ⟨-, hused, htimer, -, hrej⟩ := h2
  obtain ⟨gst, gused, gtimer, gisol, grej⟩ := hgroups
  exact ⟨gst, gused.trans hused, gtimer.trans htimer, gisol, grej.trans hrej⟩

/-! ### The end of an attempt (R208-R210) -/

theorem levelsDone_single {s : State} {g m : Nat} (h : (getGrp s g).todo = [m]) :
    levelsDone s g = decide (3 ≤ (getCalMod s m).lvl) := by
  simp [levelsDone, h]

theorem execPowerupCalAttemptEnd_wait {s : State} {g : Nat} (h : levelsDone s g = false) :
    execPowerupCalAttemptEnd g s = .next s := by
  unfold execPowerupCalAttemptEnd
  rw [if_pos (by simp [h])]

theorem execPowerupCalAttemptEnd_judged {s : State} {g : Nat} (hg : g < 8) (hst : s.cal.st = .powerup)
    (hd : (getGrp s g).done = false) (hgap : (getGrp s g).gap = false) (h : levelsDone s g = true) :
    execPowerupCalAttemptEnd g s = .next (attemptEnd g s) := by
  unfold execPowerupCalAttemptEnd
  rw [if_neg (by simp [hst, hd, hgap, h, Nat.not_le.2 hg])]

/-- A modulator given up after its fourth attempt, in the group that this ends. -/
def calRejected (g m : Nat) (s : State) : State :=
  let t := setGrp g { getGrp s g with todo := [m], done := true } (setCalMod m (judgeCal (getCalMod s m)) s)
  { t with cal.rej := setBit t.cal.rej m true }

section Single
variable {g m : Nat} {s : State} (htodo : (getGrp s g).todo = [m])
include htodo

/-- A plausible modulator ends the group that measured it alone (R209). -/
theorem attemptEnd_plausible (hok : (judgeCal (getCalMod s m)).ok = true) :
    attemptEnd g s = setGrp g { getGrp s g with todo := [], done := true } (setCalMod m (judgeCal (getCalMod s m)) s) := by
  simp [attemptEnd, htodo, hok]

/-- An implausible one is measured again after the gap (R210). -/
theorem attemptEnd_retry (hok : (judgeCal (getCalMod s m)).ok = false) (ha : (getGrp s g).attempt < 3) :
    attemptEnd g s = setGrp g { getGrp s g with todo := [m], gap := true } (setCalMod m (judgeCal (getCalMod s m)) s) := by
  simp [attemptEnd, htodo, hok, ha]

/-- After the fourth attempt it is rejected, and CAL_REJECT is raised once for the calibration (R210). -/
theorem attemptEnd_reject (hok : (judgeCal (getCalMod s m)).ok = false) (ha : 3 ≤ (getGrp s g).attempt) :
    attemptEnd g s = if s.cal.rejected then calRejected g m s
      else raise 6 0 { calRejected g m s with cal.rejected := true } := by
  simp only [attemptEnd, htodo, List.foldl_cons, List.foldl_nil, List.filter_cons, List.filter_nil, getCalMod_setCalMod,
    hok, Bool.not_false, if_true, List.isEmpty_cons, Bool.false_eq_true, if_false, Nat.not_lt.2 ha]
  rfl

theorem attemptEnd_reject_spec (hok : (judgeCal (getCalMod s m)).ok = false) (ha : 3 ≤ (getGrp s g).attempt) :
    (getGrp (attemptEnd g s) g).done = true ∧ (attemptEnd g s).cal.rej = setBit s.cal.rej m true ∧
    (attemptEnd g s).cal.rejected = true ∧ (s.cal.rejected = false → latched 6 0 (attemptEnd g s)) := by
  have hdone : (getGrp (calRejected g m s) g).done = true := congrArg CalGrp.done (getGrp_setGrp ..)
  rw [attemptEnd_reject htodo hok ha]
  split
  · next hr => exact ⟨hdone, rfl, hr, fun h => absurd (hr.symm.trans h) (by decide)⟩
  · rw [getGrp, cal_raise]
    exact ⟨hdone, rfl, rfl, fun _ => latched_raise _ rfl⟩

end Single

/-! ### The next attempt (R210) -/

theorem execCalRetryStart_running {s : State} {g : Nat} (h : (getGrp s g).gap = false) : execCalRetryStart g s = .next s := by
  unfold execCalRetryStart
  dsimp only
  rw [if_pos (by simp [h])]

/-- A group's next attempt. -/
def nextAttempt (s : State) (g : Nat) : CalGrp :=
  { getGrp s g with gap := false, attempt := (getGrp s g).attempt + 1, at_ := s.slot }

/-- After the gap the group is in its next attempt, and a bank calibration measures again; no other block changes (R210). -/
theorem execCalRetryStart_gap {s : State} {g : Nat} (hg : g < 8) (h : (getGrp s g).gap = true) :
    ∃ c : Cal, execCalRetryStart g s = .next { s with cal := c } ∧ c.grps = tput s.cal.grps g (nextAttempt s g) ∧
      c.st = if s.cal.st = .gap then .measure else s.cal.st := by
  obtain ⟨v, hv⟩ := setCalMods_mods (fun t m => freshLevels (getCalMod t m)) (getGrp s g).todo s
  unfold execCalRetryStart
  dsimp only
  rw [if_neg (by simp [h, Nat.not_le.2 hg]), hv]
  split
  · next hst => exact ⟨_, rfl, rfl, (if_pos (by simpa using hst)).symm⟩
  · next hst => exact ⟨_, rfl, rfl, (if_neg (by simpa using hst)).symm⟩

theorem ends_calRetryStart {s : State} {g : Nat} (hg : g < 8) (h : (getGrp s g).gap = true) :
    ends (execCalRetryStart g s) (fun t =>
      (getGrp t g).gap = false ∧ (getGrp t g).attempt = (getGrp s g).attempt + 1 ∧ (getGrp t g).todo = (getGrp s g).todo ∧
      t.cal.st = (if s.cal.st = .gap then .measure else s.cal.st) ∧ t = { s with cal := t.cal }) := by
  obtain ⟨c, hexec, hgrps, hst⟩ := execCalRetryStart_gap hg h
  have hgrp : getGrp { s with cal := c } g = nextAttempt s g := by rw [getGrp, hgrps, tgetD_tput_self]
  refine ends_of hexec ?_
  rw [hgrp]
  exact ⟨rfl, rfl, rfl, hst, rfl⟩

/-! ### The temperature trims (R203, R206) -/

/-- The mean die temperature is measured; the one in use follows it in steps of 0.5 °C (R206). -/
theorem ends_tempTrimTick (meas : W16) {s : State} (h : s.cal.timer = true) : ends (execTempTrimTick meas s) (fun t =>
    t.cal.meas = meas ∧ t.cal.mods = s.cal.mods ∧
    t.cal.used = (if 8 ≤ (meas.toInt - s.cal.used.toInt).natAbs then meas else s.cal.used) ∧ t = { s with cal := t.cal }) := by
  unfold execTempTrimTick
  extract_lets d cal1 s1 due
  rw [if_neg (by simp [h])]
  refine ⟨_, rfl, rfl, rfl, ?_, rfl⟩
  have hstep : (decide (d ≥ 8) || decide (d ≤ -8)) = true ↔ 8 ≤ d.natAbs := by
    rw [Bool.or_eq_true, decide_eq_true_iff, decide_eq_true_iff]
    omega
  exact if_congr hstep rfl rfl

theorem execTrimWrite_due {s : State} {g : Nat} (hd : s.cal.trimDue.contains g = true) (hh : trimHeld s g = false) :
    execTrimWrite g s =
      .next (noteTrim g (writeCodes (measurable s g) { s with cal.trimDue := s.cal.trimDue.filter (· != g) })) := by
  unfold execTrimWrite
  rw [if_neg (by simp [List.contains_iff_mem.1 hd, hh])]

theorem execTrimWrite_withheld {s : State} {g : Nat} (h : s.cal.trimDue.contains g = false ∨ trimHeld s g = true) :
    execTrimWrite g s = .next s := by
  unfold execTrimWrite
  rw [if_pos (by rcases h with h | h <;> simp [-List.contains_eq_mem, h])]

/-- The group's codes are written together, and are due no more (R204, R206). -/
theorem ends_trimWrite {s : State} {g : Nat} (hd : s.cal.trimDue.contains g = true) (hh : trimHeld s g = false) :
    ends (execTrimWrite g s) (fun t => t.cal.trimDue.contains g = false ∧ t.cal.deltas = s.cal.deltas ∧
      ∀ m ∈ measurable s g, (getCalMod t m).o = (appliedCodes s m).1 ∧ (getCalMod t m).g = (appliedCodes s m).2.1) := by
  refine ends_of (execTrimWrite_due hd hh) ?_
  generalize hs0 : { s with cal.trimDue := s.cal.trimDue.filter (· != g) } = s0
  obtain ⟨v, hv⟩ := cal_writeCodes (measurable s g) s0
  have hcodes : appliedCodes s0 = appliedCodes s := by subst hs0; rfl
  refine ⟨?_, ?_, fun m hm => ?_⟩
  · rw [cal_noteTrim, hv]; subst hs0; simp
  · rw [cal_noteTrim, hv]; subst hs0; rfl
  · rw [getCalMod, cal_noteTrim, ← hcodes]
    exact codes_writeCodes hm s0

/-- Settles O37: the start by what each of its steps keeps of the calibration's flags, an attempt's end by its three
outcomes, the trims by the write of a list's codes. -/
theorem powerUpCalibration : Obligations.PowerUpCalibration := by
  unfold Obligations.PowerUpCalibration
  refine fun s => ⟨fun th => ends_powerupCalStart th, fun g m hg hst hd hgap htodo => ?_, fun g => ends_calRetryStart,
    fun g => execCalRetryStart_running, fun meas => ends_tempTrimTick meas, fun g => ends_trimWrite,
    fun g => execTrimWrite_withheld⟩
  intro j
  have hlevels := levelsDone_single htodo
  refine ⟨fun hl => execPowerupCalAttemptEnd_wait (by simp [hlevels, hl]), fun hl => ?_⟩
  have hexec := execPowerupCalAttemptEnd_judged hg hst hd hgap (hlevels.trans (decide_eq_true hl))
  refine ⟨fun hok => ends_of (hexec.trans (congrArg _ (attemptEnd_plausible htodo hok))) ?_,
    fun hok ha => ends_of (hexec.trans (congrArg _ (attemptEnd_retry htodo hok ha))) ?_,
    fun hok ha => ends_of hexec (attemptEnd_reject_spec htodo hok ha)⟩
  · rw [getGrp_setGrp]
    exact ⟨rfl, rfl, getCalMod_setCalMod m j s, rfl⟩
  · rw [getGrp_setGrp]
    exact ⟨rfl, hd, rfl, rfl⟩

end Sys2Proof.Proofs

namespace Sys2Proof.Proofs
open Sys2Proof Sys2Proof.Machine Sys2Proof.Laws

/-! ### The end of an optical session (R246, R249) -/

/-- The queue of Ring 12 takes a record without dropping one: its bound is the session record's own (R249). -/
theorem enqRaw_optical (q : QRec) (s : State) : ∃ h c, enqRaw 12 q s = ({ s with hif := h, coil := c }, false) := by
  unfold enqRaw
  split
  · exact ⟨_, _, rfl⟩
  · exact ⟨_, _, rfl⟩

theorem deliverRec_optical (r : Rec) (s : State) : ∃ h c, deliverRec 12 r s = { s with hif := h, coil := c } := by
  obtain ⟨h, c, he⟩ := enqRaw_optical ⟨r.seq, r.bytes, none, none⟩ s
  refine ⟨h, c, ?_⟩
  unfold deliverRec deliver
  rw [he]
  rfl

/-- `t` is `s` with its optical session ended by a record: the record waits on Ring 12 or in the worker's report, and of
the tariff block only the session, the record's number and the count of dropped records change (R249). That a session given
up leaves a record too is the model's choice (log entry 22). -/
def SessionEnded (s t : State) : Prop := ∃ h c d,
  t = { s with
    hif := h, coil := c,
    trf := { s.trf with optSeq := s.trf.optSeq + 1, optDrop := d, opt := { s.trf.opt with st := .idle, rate := 0 } } }

/-- Whether or not the oldest waiting record gives way, the session's record ends it and touches no other block (R249). -/
theorem sessionEnded_optRecord (flags lines : Nat) (s : State) : SessionEnded s (optRecord flags lines s) := by
  unfold optRecord
  extract_lets o body _ s1 drop1 mine _ _ s2
  obtain ⟨h, c, h1⟩ : ∃ h c, s1 = { s with hif := h, coil := c, trf.optSeq := s.trf.optSeq + 1 } :=
    deliverRec_optical _ { s with trf.optSeq := s.trf.optSeq + 1 }
  obtain ⟨h, c, d, h2⟩ : ∃ h c d, s2 = { s with
      hif := h, coil := c, trf := { s.trf with optSeq := s.trf.optSeq + 1, optDrop := d } } := by
    unfold s2
    clear_value s1
    subst h1
    repeat' split
    all_goals exact ⟨_, _, _, rfl⟩
  clear_value s2
  subst h2
  exact ⟨h, c, d, rfl⟩

section Ended
variable {s t : State} (h : SessionEnded s t)
include h

theorem SessionEnded.idle : t.trf.opt.st = .idle := by
  obtain ⟨_, _, _, rfl⟩ := h
  rfl

theorem SessionEnded.optSeq : t.trf.optSeq = s.trf.optSeq + 1 := by
  obtain ⟨_, _, _, rfl⟩ := h
  rfl

theorem SessionEnded.out : t.out = s.out := by
  obtain ⟨_, _, _, rfl⟩ := h
  rfl

theorem SessionEnded.pnt : t.pnt = s.pnt := by
  obtain ⟨_, _, _, rfl⟩ := h
  rfl

theorem SessionEnded.crd : t.crd = s.crd := by
  obtain ⟨_, _, _, rfl⟩ := h
  rfl

end Ended

/-! ### The steps of a session (R246, R247) -/

/-- A request for an address that the chip serves, or that a worker may answer later, opens a session. -/
theorem execOptRequest_served {s : State} {c : List Byte} {a : Nat × Nat} (hw : optWorks s = true) (hi : s.trf.opt.st = .idle)
    (ha : optRequestAddr c = some a) (hd : ∀ st, optDest s a = .refused st → st = statusUnavailable) :
    execOptRequest c s = .next { s with
      trf.optSessions := s.trf.optSessions + 1, trf.opt := ⟨.ident, a.1, a.2, 0, nowStamp s, s.slot, s.trf.maxbaud⟩ } := by
  unfold execOptRequest
  rw [if_neg (by simp [hw, hi]), ha]
  refine congrArg _ (if_pos ?_)
  split
  next st hdest => simp [hd st hdest]
  next => rfl

theorem execOptRequest_ignored {s : State} {c : List Byte}
    (h : optWorks s = false ∨ s.trf.opt.st ≠ .idle ∨ optRequestAddr c = none) : execOptRequest c s = .next s := by
  unfold execOptRequest
  rcases h with h | h | h
  · rw [if_pos (by simp [h])]
  · rw [if_pos (by simp [h])]
  · simp [h]

theorem execOptIdentSend_offers {s : State} (hw : optWorks s = true) (hi : s.trf.opt.st = .ident) :
    execOptIdentSend s = .next (emit (.optical
      [0x2F, 0x49, 0x44, 0x4D, BitVec.ofNat 8 (0x30 + s.trf.opt.z.toNat), 0x4B, 0x51, 0x36, 0x30, 0x34, 0x38, 0x0D, 0x0A])
      { s with trf.opt.st := .option }) := by
  unfold execOptIdentSend
  rw [if_pos (by simp [hi]), if_neg (by simp [hw])]
  rfl

/-- The option acknowledgement with rate character `z` (R246 step 3). -/
def ackChars (z : Nat) : List Byte := [0x06, 0x30, BitVec.ofNat 8 (0x30 + z), 0x30, 0x0D, 0x0A]

theorem ackChars_rate {z : Nat} (hz : z < 200) : (nth (ackChars z) 2 0).toNat = 0x30 + z := by
  show (BitVec.ofNat 8 (0x30 + z)).toNat = 0x30 + z
  rw [BitVec.toNat_ofNat]
  omega

/-- A well-formed option is taken exactly where its rate is at most the one offered. -/
theorem execOptAck_ackChars {s : State} {z : Nat} (hw : optWorks s = true) (ho : s.trf.opt.st = .option) (hz : z < 200) :
    execOptAck (ackChars z) s = .next (if z ≤ s.trf.opt.z.toNat then { s with trf.opt.st := .readout, trf.opt.rate := z }
      else optRecord 4 0 s) := by
  unfold execOptAck
  rw [if_neg (by simp [ho]), if_neg (by simp [hw])]
  simp only [ackChars_rate hz, Nat.add_sub_cancel_left]
  simp [ackChars, nth, crlf]

theorem execOptAck_waiting {s : State} (h : s.trf.opt.st ≠ .option) (c : List Byte) : execOptAck c s = .next s := by
  unfold execOptAck
  rw [if_pos (by simp [h])]

theorem execOptTimeout_waiting {s : State} (h : s.trf.opt.st ≠ .option) : execOptTimeout s = .next s := by
  unfold execOptTimeout
  rw [if_pos (by simp [h])]

theorem execOptTimeout_option {s : State} (hw : optWorks s = true) (ho : s.trf.opt.st = .option) :
    execOptTimeout s = .next (optRecord 2 0 s) := by
  unfold execOptTimeout
  rw [if_neg (by simp [ho]), if_neg (by simp [hw])]

/-- What the readout sends for its data lines (R246 step 4): STX, the lines, the end of the text and its check character. -/
def readoutChars (lines : List (List Byte)) : List Byte :=
  [0x02] ++ (lines.flatten ++ [0x21, 0x0D, 0x0A, 0x03]) ++ [bcc (lines.flatten ++ [0x21, 0x0D, 0x0A, 0x03])]

/-- The readout sends the addressed chip's lines, its own where the address leads to it, and then ends with its record. -/
theorem execOptReadout_sends {s : State} (hw : optWorks s = true) (hr : s.trf.opt.st = .readout) : ∃ flags lines,
    execOptReadout s = .next (optRecord flags lines.length
      (emit (.optical (readoutChars lines)) { s with free := s.free + 3200 })) ∧
    (optDest s (s.trf.opt.ring, s.trf.opt.pos) = .own → lines = ownLines s) := by
  unfold execOptReadout
  rw [if_neg (by simp [hr]), if_neg (by simp [hw])]
  cases hdest : optDest s (s.trf.opt.ring, s.trf.opt.pos) with
  | own => exact ⟨1, ownLines s, by simp [hdest, readoutChars, crlf], fun _ => rfl⟩
  | refused st => exact ⟨9, unavailable, by simp [hdest, readoutChars, crlf], nofun⟩
  | worker k p =>
    cases hl : Config.workerLines k p s.free with
    | some l => exact ⟨1, l, by simp [hdest, hl, readoutChars, crlf], nofun⟩
    | none => exact ⟨9, unavailable, by simp [hdest, hl, readoutChars, crlf], nofun⟩

/-- Settles O40: each step of the session by its own equation, and its end by what the session's record keeps. -/
theorem opticalPort : Obligations.OpticalPort := by
  unfold Obligations.OpticalPort
  refine fun s => ⟨fun c a hw hi ha _ hd => execOptRequest_served hw hi ha hd, fun c h => execOptRequest_ignored h,
    execOptIdentSend_offers, fun z hw ho hz => ?_, fun z hw ho hz h200 => ?_, fun hw ho => ?_,
    fun h => ⟨execOptTimeout_waiting h, execOptAck_waiting h⟩, fun hw hr => ?_⟩
  · have hoffer := s.trf.opt.z.isLt
    exact (execOptAck_ackChars hw ho (by omega)).trans (by rw [if_pos hz])
  · have hend := sessionEnded_optRecord 4 0 s
    exact ends_of ((execOptAck_ackChars hw ho h200).trans (by rw [if_neg (Nat.not_le.2 hz)]))
      ⟨hend.idle, hend.out, hend.optSeq⟩
  · have hend := sessionEnded_optRecord 2 0 s
    exact ends_of (execOptTimeout_option hw ho) ⟨hend.idle, hend.out, hend.optSeq⟩
  · obtain ⟨flags, lines, hexec, hown⟩ := execOptReadout_sends hw hr
    have hend := sessionEnded_optRecord flags lines.length
      (emit (.optical (readoutChars lines)) { s with free := s.free + 3200 })
    refine ends_of hexec ⟨hend.idle, hend.optSeq, hend.pnt, hend.crd, fun ho => ?_⟩
    rw [hend.out, hown ho]
    simp [readoutChars, emit]

end Sys2Proof.Proofs

namespace Sys2Proof.Proofs
open Sys2Proof Sys2Proof.Machine Sys2Proof.Laws

/-! ### How a Saggar request ends or waits (R439) -/

/-- A completion of a request of the own host stays in the host interface. -/
theorem hide_complete_host {w : Waiter} (hv : w.via = .host) (st : W16) (q : W32) (d : List Byte) (s : State) :
    hide { hif := true } (complete w st q d s) = hide { hif := true } s := by
  unfold complete
  split
  · rfl
  · rw [hv]
    exact @hide_modRing { hif := true } ⟨rfl⟩ _ _ s

/-- Ring 10 of a chip with a function drops nothing: a record joins its queue. -/
theorem hide_deliver_results {s : State} (hw : isWorker s = false) (q : QRec) :
    hide { hif := true } (deliver 10 q s) = hide { hif := true } s := by
  have hover : ∀ l, queueOver 10 l = false := fun _ => rfl
  simp only [deliver, enqRaw, hw, hover, Bool.false_eq_true, if_false]
  exact @hide_setRing { hif := true } ⟨rfl⟩ _ _ s

theorem hide_pushResult_host {w : Waiter} (hv : w.via = .host) (seq : W32) (bytes : List Byte) (d : Done) (s : State) :
    hide { hif := true } (pushResult 10 seq bytes w d s) = hide { hif := true } s := by
  unfold pushResult
  cases hw : isWorker s
  · rw [if_neg Bool.false_ne_true]
    dsimp only
    split
    · exact (hide_complete_host hv ..).trans (hide_deliver_results hw _)
    · exact (hide_waitReq_own w _).trans (hide_deliver_results hw _)
  · exact hide_complete_host hv ..

/-- The end of a request of the own host takes one number of Ring 10 and changes else the host interface alone. -/
theorem hide_sagDone_host {q : SReq} (hr : q.route = 0) (hv : q.w.via = .host) (st : W16) (body : List Byte) (s : State) :
    hide { hif := true } (sagDone q st body s) = hide { hif := true } { s with sgr.seq := s.sgr.seq + 1 } := by
  unfold sagDone
  rw [hr]
  exact hide_pushResult_host hv ..

/-- The end of a request by any route takes one number, and an envelope counter at most. -/
theorem sgr_sagDone (q : SReq) (st : W16) (body : List Byte) (s : State) :
    ∃ e, (sagDone q st body s).sgr = { s.sgr with seq := s.sgr.seq + 1, envUp := e } := by
  unfold sagDone
  extract_lets n b _ s1
  split
  · exact ⟨s.sgr.envUp, same_sgr
      (@hide_pushResult deliverBlocks ⟨rfl⟩ ⟨rfl⟩ ⟨rfl⟩ ⟨rfl⟩ ⟨rfl⟩ ⟨rfl⟩ ⟨rfl⟩ 10 n b q.w _ s1) rfl⟩
  · unfold sendKey
    extract_lets p
    split
    · split <;> exact ⟨s.sgr.envUp, rfl⟩
    · exact ⟨s.sgr.envUp + 1, same_sgr
        (@hide_writeRelay { nvs := true } ⟨rfl⟩ { s1 with sgr.envUp := s1.sgr.envUp + 1 }) rfl⟩

theorem ops_sagDone (q : SReq) (st : W16) (body : List Byte) (s : State) : (sagDone q st body s).sgr.ops = s.sgr.ops := by
  obtain ⟨e, he⟩ := sgr_sagDone q st body s
  rw [he]

theorem seq_sagDone (q : SReq) (st : W16) (body : List Byte) (s : State) :
    (sagDone q st body s).sgr.seq = s.sgr.seq + 1 := by
  obtain ⟨e, he⟩ := sgr_sagDone q st body s
  rw [he]

theorem sgr_waitReq (w : Waiter) (s : State) : (waitReq w s).sgr = s.sgr := same_sgr (hide_waitReq_own w s) rfl

/-- A key operation that waits is the youngest. -/
theorem sgr_sagWait (q : SReq) (op : KeyOp) (s : State) :
    (sagWait q op s).sgr = { s.sgr with ops := s.sgr.ops ++ [op] } := by
  unfold sagWait
  extract_lets _ s1
  split
  · exact sgr_waitReq q.w s1
  · rfl

/-! ### Requests of Ring 9 (R439, R441, R443, R444) -/

/-- A Ring 9 request for this chip that passes the common checks is carried out. -/
theorem ring9_ownRing9 {op : Nat} {r : Req} {s : State} (h : ownRing9 op r s) :
    ring9 op r s = .next (sagOwn op (sagReq op r s) s) := by
  obtain ⟨hv, hserved, h8, hlen, hz, h256, h17, hown⟩ := h
  have hserved' : (if sagEarly op then !s.boot.fired else !metering s) = false := by
    cases he : sagEarly op <;> simpa [he] using hserved
  have hlen' : (decide (r.buf.length < 8) || !sagLen op (r.buf.drop 8)) = false := by
    rw [hlen, decide_eq_false (Nat.not_lt.2 h8)]; rfl
  have hrange : (!zerosAt r.buf 4 4 || rd r.buf 0 4 % 256 != 0 || decide (rd r.buf 0 4 ≥ 2 ^ 17)) = false := by
    rw [hz, h256, decide_eq_false (Nat.not_le.2 h17)]; rfl
  unfold ring9
  simp only [hv, hserved', hlen', hrange, firstBad, Bool.false_eq_true, if_false, hown]
  rfl

/-- What such a request does, by what its operation does. -/
theorem ring9_of {op : Nat} {r : Req} {s t : State} (h : ownRing9 op r s) (ht : sagOwn op (sagReq op r s) s = t) :
    ring9 op r s = .next t := by
  rw [ring9_ownRing9 h, ht]

/-- A request whose operation waits adds it as the youngest key operation (R432). -/
theorem ring9_waits {op : Nat} {k : KeyOp} {r : Req} {s : State} (h : ownRing9 op r s)
    (hk : sagOwn op (sagReq op r s) s = sagWait (sagReq op r s) k s) :
    ∃ t, ring9 op r s = .next t ∧ t.sgr = { s.sgr with ops := s.sgr.ops ++ [k] } :=
  ⟨_, ring9_of h hk, sgr_sagWait ..⟩

theorem sagAttest_waits (q : SReq) {s : State} (ht : s.sgr.trngOk = true) : sagAttest q s = sagWait q (.attest q) s := by
  simp only [sagAttest, ht, Bool.not_true, Bool.false_eq_true, if_false]

theorem sagAttest_notReady (q : SReq) {s : State} (ht : s.sgr.trngOk = false) :
    sagAttest q s = sagDone q statusNotReady [] s := by
  simp only [sagAttest, ht, Bool.not_false, if_true]

theorem sagGuardChange_waits {q : SReq} {s : State} (hb : changeBad s q.body = none) :
    sagGuardChange q s = sagWait q (.change q) s := by
  simp only [sagGuardChange, hb]

theorem sagGuardChange_refused {q : SReq} {s : State} {st : W16} (hb : changeBad s q.body = some st) :
    sagGuardChange q s = changeRefuse q st s := by
  simp only [sagGuardChange, hb]

theorem sagKeyLoad_waits {q : SReq} {s : State} (hb : loadBad s q.body = none) :
    sagKeyLoad q s = sagWait q (.load q (policyOf s (rd q.body 8 1))) s := by
  simp only [sagKeyLoad, hb]

theorem sagKeyLoad_refused {q : SReq} {s : State} {st : W16} (hb : loadBad s q.body = some st) :
    sagKeyLoad q s = sagDone q st [] s := by
  simp only [sagKeyLoad, hb]

/-- The slot of KEY_ERASE emptied, with the records that empty its locations queued, and recorded (R445). -/
def slotErased (i : Nat) (s : State) : State :=
  blockEvent 13 3 [BitVec.ofNat 8 i, 0] (pushGroups [⟨.recs 0 [(slotRecKey i, 0, .bytes [], (getSlot s i).gen),
    (slotRecKey i, 1, .bytes [], (getSlot s i).gen)], 2, true, none, none, none⟩] (emptySlot i s))

theorem getSlot_slotErased (i : Nat) (s : State) : getSlot (slotErased i s) i = Init.kslot :=
  getSlot_setSlot_settled i s rfl

/-- A slot erased for the own host is empty, with one number of Ring 10 taken and no record of the store touched. -/
theorem sagDone_slotErased {q : SReq} (hr : q.route = 0) (hv : q.w.via = .host) (i : Nat) (s : State) :
    let t := sagDone q statusOk [] (slotErased i s)
    getSlot t i = Init.kslot ∧ t.sgr.seq = s.sgr.seq + 1 ∧ t.nvs.recs = s.nvs.recs := by
  intro t
  have hdone : hide { hif := true } t = _ := hide_sagDone_host hr hv statusOk [] (slotErased i s)
  have hkeys : keysOf t = keysOf { slotErased i s with sgr.seq := (slotErased i s).sgr.seq + 1 } := by
    rw [keysOf, same_sgr hdone rfl]
    rfl
  refine ⟨?_, seq_sagDone .., (same_recs hdone rfl :)⟩
  rw [getSlot_of_keysOf hkeys (same_coil hdone rfl)]
  exact getSlot_slotErased i s

section SlotRequest
variable {q : SReq} {s : State} (hi : rd q.body 0 1 ≤ 63) (hz : zerosAt q.body 1 3 = true)
include hi hz

theorem slotRequest_inRange : (decide (rd q.body 0 1 > 63) || !zerosAt q.body 1 3) = false := by
  rw [hz, decide_eq_false (Nat.not_lt.2 hi)]; rfl

theorem sagKeyErase_erases (hp : (policyOf s (rd q.body 0 1)).testBit 4 = true) :
    sagKeyErase q s = sagDone q statusOk [] (slotErased (rd q.body 0 1) s) := by
  unfold sagKeyErase
  simp only [slotRequest_inRange hi hz, hp, Bool.not_true, Bool.false_eq_true, if_false]
  rfl

theorem sagKeyErase_denied (hp : (policyOf s (rd q.body 0 1)).testBit 4 = false) :
    sagKeyErase q s = sagDone q statusDenied [] s := by
  unfold sagKeyErase
  simp only [slotRequest_inRange hi hz, hp, Bool.not_false, Bool.false_eq_true, if_false, if_true]

theorem sagKeyInfo_shows : sagKeyInfo q s = sagDone q statusOk (le 1 (rd q.body 0 1) ++
    le 1 (getSlot s (rd q.body 0 1)).st.toNat ++ zeros 2 ++ le 4 (policyOf s (rd q.body 0 1)) ++
    le 4 (if rd q.body 0 1 ≤ 4 ∨ rd q.body 0 1 = 7 ∨ rd q.body 0 1 = 8 then 0 else (getSlot s (rd q.body 0 1)).gen.toNat) ++
    slotCheck s (rd q.body 0 1)) s := by
  unfold sagKeyInfo
  simp only [slotRequest_inRange hi hz, Bool.false_eq_true, if_false, Bool.or_eq_true, decide_eq_true_eq, or_assoc]

end SlotRequest

theorem sagRandom_inRange {q : SReq} {s : State} (h1 : 1 ≤ rd q.body 0 2) (h1024 : rd q.body 0 2 ≤ 1024)
    (hz : zerosAt q.body 2 2 = true) : sagRandom q s = if s.sgr.trngOk = true then
      sagDone q statusOk (drawRandom (rd q.body 0 2) s).1 (drawRandom (rd q.body 0 2) s).2
    else sagDone q statusNotReady [] s := by
  have hrange : (decide (rd q.body 0 2 = 0) || decide (rd q.body 0 2 > 1024) || !zerosAt q.body 2 2) = false := by
    rw [hz, decide_eq_false (by omega), decide_eq_false (by omega)]; rfl
  unfold sagRandom
  simp only [hrange, Bool.false_eq_true, if_false]
  cases s.sgr.trngOk <;> rfl

/-- A stale change record is counted and raised, and changes no setting (R437). -/
theorem changeRefuse_stale {q : SReq} (hr : q.route = 0) (hv : q.w.via = .host) (s : State) :
    let t := changeRefuse q statusStale s
    t.sgr.refStale = satInc s.sgr.refStale ∧ latched 13 5 t ∧ t.sgr.ops = s.sgr.ops ∧ t.sgr.guard_ = s.sgr.guard_ := by
  intro t
  have hdone : hide { hif := true } t = _ :=
    hide_sagDone_host hr hv statusStale [] (raise 13 5 { s with sgr.refStale := satInc s.sgr.refStale })
  have hraise := hide_raise_mild (b := 13) (i := 5) (by decide) { s with sgr.refStale := satInc s.sgr.refStale }
  have hsgr : t.sgr = { s.sgr with refStale := satInc s.sgr.refStale, seq := s.sgr.seq + 1 } := by
    rw [same_sgr hdone rfl]
    dsimp only
    rw [same_sgr hraise rfl]
  refine ⟨by rw [hsgr], ?_, by rw [hsgr], by rw [hsgr]⟩
  rw [latched, getBlk_flt (same_flt hdone rfl)]
  exact latched_raise _ rfl

/-- The frame of a KEY_RELAY: an envelope's header fields, tag and payload, on the port of the ring addressed (R442). -/
def relayFrame (r : Req) (s : State) : Frame :=
  let k := rd r.buf 0 4 / 2 ^ 15
  ⟨if (getPort s (2 * k)).wrap then 2 * k + 1 else 2 * k, 1, 6, 1, r.buf.length - 36, 0xFF, 0, k, 0,
    BitVec.ofNat 32 (rd r.buf 8 4), BitVec.ofNat 64 (rd r.buf 12 8), r.buf.drop 36, (r.buf.drop 20).take 16, 0⟩

section KeyRelay
variable {r : Req} {s : State} (hv : r.via = .host) (hf : s.boot.fired = true) (h48 : 48 ≤ r.buf.length)
  (h2084 : r.buf.length ≤ 2084) (hz : zerosAt r.buf 4 4 = true) (h0 : rd r.buf 0 4 % 2 ^ 15 = 0) (h17 : rd r.buf 0 4 < 2 ^ 17)
include hv hf h48 h2084 hz h0 h17

/-- Past the checks of its form, a KEY_RELAY turns on the role and on the ring it names (R442). -/
theorem execKeyRelay_checked : execKeyRelay r s = .next
    (if isManager s = false then sagDone (sagReq 0x48 r s) statusNotReady [] s
    else if ringEn s (rd r.buf 0 4 / 2 ^ 15) = false then sagDone (sagReq 0x48 r s) statusRange [] s
    else sagDone (sagReq 0x48 r s) statusOk [] (emit (.frame (sealFrame (relayFrame r s))) s)) := by
  have hlen : (decide (r.buf.length < 48) || decide (r.buf.length > 2084)) = false := by
    rw [decide_eq_false (Nat.not_lt.2 h48), decide_eq_false (Nat.not_lt.2 h2084)]; rfl
  have hrange : (!zerosAt r.buf 4 4 || rd r.buf 0 4 % 2 ^ 15 != 0 || decide (rd r.buf 0 4 ≥ 2 ^ 17)) = false := by
    rw [hz, h0, decide_eq_false (Nat.not_le.2 h17)]; rfl
  unfold execKeyRelay
  simp only [hv, hf, hlen, hrange, firstBad, Bool.not_true, Bool.false_eq_true, if_false]
  cases isManager s <;> cases ringEn s (rd r.buf 0 4 / 2 ^ 15) <;> rfl

/-- A manager passes the envelope frame on to a ring in use. -/
theorem ends_keyRelay (hm : isManager s = true) (hr : ringEn s (rd r.buf 0 4 / 2 ^ 15) = true) :
    ends (execKeyRelay r s) (fun t => t.sgr.seq = s.sgr.seq + 1 ∧
      ∃ f : Frame, f.payload = r.buf.drop 36 ∧ f.ring = rd r.buf 0 4 / 2 ^ 15 ∧ .frame f ∈ t.out) := by
  have hex := execKeyRelay_checked hv hf h48 h2084 hz h0 h17
  rw [if_neg (ne_false_of_eq_true hm), if_neg (ne_false_of_eq_true hr)] at hex
  have hdone := hide_sagDone_host (q := sagReq 0x48 r s) rfl hv statusOk [] (emit (.frame (sealFrame (relayFrame r s))) s)
  refine ends_of hex ⟨seq_sagDone .., sealFrame (relayFrame r s), rfl, rfl, ?_⟩
  rw [same_out hdone rfl]
  exact List.mem_cons_self

end KeyRelay

/-! ### The end of a key operation (R420, R432) -/

theorem ops_wedgeSlot (j : Nat) (s : State) : (wedgeSlot j s).sgr.ops = s.sgr.ops := by
  unfold wedgeSlot
  split <;> rfl

theorem ops_changeRefuse (q : SReq) (st : W16) (s : State) : (changeRefuse q st s).sgr.ops = s.sgr.ops := by
  have hraise : ∀ u, (raise 13 5 u).sgr = u.sgr := fun u => same_sgr (hide_raise_mild (by decide) u) rfl
  unfold changeRefuse
  dsimp only
  rw [ops_sagDone]
  split
  · rw [hraise]
  · split
    · rw [hraise]
    · rfl

theorem ops_takeWaiting (s : State) : (takeWaiting s).sgr.ops = s.sgr.ops :=
  foldl_kept (f := fun t => t.sgr.ops) (g := fun t (p : Nat × KSlot) => setSlot p.1 (getSlot t p.1).taken t)
    (fun _ _ => rfl) s.sgr.slots s

theorem ops_writeRoot (x : Share) (kcv : List Byte) (s : State) : (writeRoot x kcv s).sgr.ops = s.sgr.ops := by
  unfold writeRoot
  split <;> rfl

theorem ops_rewrapSlots (kcv kst : List Byte) (l : List Nat)
    (acc : List (Nat × Nat × NvVal × W32) × List (Nat × W32) × State) :
    (l.foldl (rewrapSlot kcv kst) acc).2.2.sgr.ops = acc.2.2.sgr.ops := by
  induction l generalizing acc with
  | nil => rfl
  | cons i l ih => exact ih _

theorem ops_applyTaken (q : SReq) (s : State) : (applyTaken q s).sgr.ops = s.sgr.ops := by
  unfold applyTaken
  extract_lets b l item root erase kcv appr g s1 pol drop keep kst gone gq aq av copies
  have h1 : s1.sgr.ops = s.sgr.ops := by
    unfold s1
    generalize root = x
    cases x with
    | none => rfl
    | some k => exact ops_writeRoot ..
  split
  rename_i rs ks s2 hfold
  have h2 : s2.sgr.ops = s1.sgr.ops := by
    have h := ops_rewrapSlots (kcv.getD []) kst keep ([], [], s1)
    rw [hfold] at h
    exact h
  extract_lets one ch _ s3
  refine Eq.trans ?_ (h2.trans h1)
  show (if q.route == 0 then waitReq q.w s3 else s3).sgr.ops = s2.sgr.ops
  split
  · rw [sgr_waitReq]
  · rfl

theorem ops_changeEnd (q : SReq) (s : State) : (changeEnd q s).sgr.ops = s.sgr.ops := by
  unfold changeEnd
  dsimp only
  split
  · exact ops_changeRefuse ..
  · split
    · exact ops_sagDone ..
    · split
      · exact ops_sagDone ..
      · exact (ops_applyTaken ..).trans (ops_takeWaiting s)

theorem ops_writeRelay (s : State) : (writeRelay s).sgr.ops = s.sgr.ops :=
  congrArg Sgr.ops (same_sgr (@hide_writeRelay { nvs := true } ⟨rfl⟩ s) rfl)

theorem ops_loadEnd (q : SReq) (pol : Nat) (s : State) : (loadEnd q pol s).sgr.ops = s.sgr.ops := by
  unfold loadEnd
  extract_lets b i len2 n hdr
  split
  · exact ops_sagDone ..
  · exact ops_sagDone ..
  · split
    · exact ops_sagDone ..
    · split
      · exact ops_sagDone ..
      · split
        · exact ops_sagDone ..
        · exact RaiseView.ite_fst (f := fun t : State => t.sgr.ops)
            ((congrArg Sgr.ops (sgr_waitReq _ _)).trans (ops_writeRelay _)) (ops_writeRelay _)

/-- A signature takes one number of Ring 10 for its record (R441). -/
theorem sgr_attestEnd (q : SReq) (s : State) :
    (attestEnd q s).sgr.ops = s.sgr.ops ∧ (attestEnd q s).sgr.seq = s.sgr.seq + 1 := by
  have hwedge : (wedgeSlot 0 { s with free := s.free + 1 }).sgr.seq = s.sgr.seq := by
    unfold wedgeSlot
    split <;> rfl
  unfold attestEnd
  exact ⟨(ops_sagDone ..).trans (ops_wedgeSlot ..), by rw [seq_sagDone, hwedge]⟩

/-- The blocks that the judgement of a token changes. -/
def tokenBlocks : Mask := { faultBlocks with crd := true }

theorem ops_tokenEnd (w : Waiter) (b : List Byte) (s : State) : (tokenEnd w b s).sgr.ops = s.sgr.ops := by
  unfold tokenEnd
  split
  · exact congrArg Sgr.ops (same_sgr (hide_complete_own w statusNotReady 0 [] s) rfl)
  · rename_i k _
    rw [ops_wedgeSlot]
    exact congrArg Sgr.ops (same_sgr ((@hide_answer tokenBlocks ⟨rfl⟩ ⟨rfl⟩ ⟨rfl⟩ w _).trans
      (@hide_tokenJudge tokenBlocks ⟨rfl⟩ ⟨rfl⟩ ⟨rfl⟩ ⟨rfl⟩ ⟨rfl⟩ ⟨rfl⟩ ⟨rfl⟩ ⟨rfl⟩ w b _ s)) rfl)

/-- The oldest key operation alone leaves the operations that wait. -/
theorem ends_keyOperationEnd {op : KeyOp} {rest : List KeyOp} {s : State} (h : s.sgr.ops = op :: rest) :
    ends (execKeyOperationEnd s) (fun t => t.sgr.ops = rest) := by
  simp only [execKeyOperationEnd, h]
  refine ends_of rfl ?_
  cases op with
  | change q => rw [ops_wedgeSlot, ops_wedgeSlot, ops_wedgeSlot, ops_changeEnd]
  | load q pol => rw [ops_wedgeSlot, ops_wedgeSlot, ops_loadEnd]
  | attest q => exact (sgr_attestEnd q _).1
  | token w b => exact ops_tokenEnd w b _

theorem tokenEnd_unkeyed {w : Waiter} {b : List Byte} {s : State} (hk : slotKey s 2 = none) :
    tokenEnd w b s = complete w statusNotReady 0 [] s := by
  simp only [tokenEnd, hk, answer_fail]

/-- The blocks that a refused key operation changes once it is counted: its completion's, and its slot's shares. -/
def refusalBlocks : Mask := { completeBlocks with free := true, sgr := true }

/-- A token whose tag differs is counted and raised, and changes no credit and queues no record (R256, R277). -/
theorem tokenEnd_mismatch {w : Waiter} {b k : List Byte} {s : State} (hk : slotKey s 2 = some k)
    (htag : Config.hmac k (b.take 48) ≠ (b.drop 48).take 48) :
    let t := tokenEnd w b s
    t.crd.tokRef = satInc s.crd.tokRef ∧ latched 8 0 t ∧ t.crd.cred = s.crd.cred ∧ t.nvs.groups = s.nvs.groups := by
  intro t
  have heq : t = wedgeSlot 2 (complete w statusAuthFail 0 [] (tokenRefuse statusAuthFail b s)) := by
    show tokenEnd w b s = _
    simp only [tokenEnd, hk, tokenJudge, bne_iff_ne.2 htag, if_true, answer_fail]
  have hkept : hide refusalBlocks t = hide refusalBlocks (tokenRefuse statusAuthFail b s) := by
    rw [heq]
    exact (@hide_wedgeSlot refusalBlocks ⟨rfl⟩ ⟨rfl⟩ 2 _).trans (@hide_complete refusalBlocks ⟨rfl⟩ ⟨rfl⟩ ⟨rfl⟩ w _ _ _ _)
  obtain ⟨htok, hlat, hcred, -⟩ := tokenRefuse_spec b s
  refine ⟨?_, ?_, ?_, ?_⟩
  · rw [same_crd hkept rfl, htok]
  · rw [latched, getBlk_flt (same_flt hkept rfl)]
    exact hlat
  · rw [same_crd hkept rfl, hcred]
  · rw [same_nvs hkept rfl rfl]
    exact nvsField_raise Nvs.groups (fun _ _ => rfl) (b := 8) (i := 0) (by decide) { s with crd.tokRef := satInc s.crd.tokRef }

/-- A token with a good tag, a newer serial and room for its amount waits for its credit record (R256, R281). -/
theorem tokenEnd_accepted {w : Waiter} {b k : List Byte} {s : State} (hk : slotKey s 2 = some k)
    (htag : Config.hmac k (b.take 48) = (b.drop 48).take 48)
    (hser : ∀ n, (credNewest s (rd b 4 1)).serial = some n → n.toNat < rd b 8 8)
    (hroom : rd b 24 1 = 1 → (credNewest s (rd b 4 1)).c + rd b 16 8 ≤ 2 ^ 63 - 1)
    (hw : writeForbidden s (nvKey .credit (rd b 4 1)) = false) (hg : gasped s = false) :
    tokenEnd w b s = wedgeSlot 2 (waitReq w (commitRecEff (nvKey .credit (rd b 4 1))
      (.credit (withRefs s (rd b 4 1) (effCred (getPcfg s (rd b 4 1)) (rd b 4 1) (credNewest s (rd b 4 1))
        (.token (rd b 4 1) b)))) 1 (some (w, statusOk)) (some (.token (rd b 4 1) b)) s)) := by
  have htag' : (Config.hmac k (b.take 48) != (b.drop 48).take 48) = false := by rw [htag, bne_self_eq_false]
  have hser' : (credNewest s (rd b 4 1)).serial.any (fun q => decide (rd b 8 8 ≤ q.toNat)) = false := by
    cases hn : (credNewest s (rd b 4 1)).serial with
    | none => rfl
    | some n => exact decide_eq_false (Nat.not_le.2 (hser n hn))
  have hroom' : (decide (rd b 24 1 = 1) && decide ((credNewest s (rd b 4 1)).c + (rd b 16 8 : Int) > 2 ^ 63 - 1)) = false := by
    rw [Bool.and_eq_false_imp]
    exact fun h1 => decide_eq_false (Int.not_lt.2 (hroom (of_decide_eq_true h1)))
  simp only [tokenEnd, hk, tokenJudge, htag', hser', hroom', hw, credWait, hg, Bool.false_eq_true, if_false, answer_wait]

/-- Settles O58: a request of the own host takes one number of Ring 10 or joins the key operations that wait, and the end of a
key operation leaves the rest of them; a token by its tag. -/
theorem saggarRequests : Obligations.SaggarRequests := by
  intro r s
  dsimp -proj only
  refine ⟨fun hown => ⟨fun ht => ?_, fun ht => ring9_of hown (sagAttest_notReady _ ht)⟩, fun hown => ring9_ownRing9 hown,
    fun hown => ⟨fun hb => ?_, fun hb => ?_⟩, fun hown => ring9_ownRing9 hown,
    fun hown => ⟨fun hb => ?_, fun st hb => ring9_of hown (sagKeyLoad_refused hb)⟩,
    fun hown hi hz => ⟨fun hp => ?_, fun hp => ring9_of hown (sagKeyErase_denied hi hz hp)⟩,
    fun hown hi hz => ring9_of hown (sagKeyInfo_shows hi hz),
    fun hown h1 h1024 hz => ring9_of hown (sagRandom_inRange h1 h1024 hz),
    fun hv hf h48 h2084 hz h0 h17 => ?_, fun h => ?_, fun op rest h => ends_keyOperationEnd h, fun q rest h => ?_,
    fun w b rest h => ?_⟩
  · obtain ⟨t, hex, hsgr⟩ := ring9_waits hown (sagAttest_waits _ ht)
    exact ends_of hex ⟨by rw [hsgr], by rw [hsgr]⟩
  · obtain ⟨t, hex, hsgr⟩ := ring9_waits hown (sagGuardChange_waits hb)
    exact ends_of hex ⟨by rw [hsgr], by rw [hsgr]⟩
  · exact ends_of (ring9_of hown (sagGuardChange_refused hb)) (changeRefuse_stale rfl hown.1 s)
  · obtain ⟨t, hex, hsgr⟩ := ring9_waits hown (sagKeyLoad_waits hb)
    exact ends_of hex ⟨by rw [hsgr]; rfl, by rw [hsgr]⟩
  · exact ends_of (ring9_of hown (sagKeyErase_erases hi hz hp)) (sagDone_slotErased rfl hown.1 _ s)
  · exact ⟨fun hm hr => ends_keyRelay hv hf h48 h2084 hz h0 h17 hm hr,
      fun hm => (execKeyRelay_checked hv hf h48 h2084 hz h0 h17).trans (by rw [if_pos hm])⟩
  · simp only [exec, execKeyOperationEnd, h]
  · refine ends_of (t := attestEnd q { s with sgr.ops := rest }) (by simp only [exec, execKeyOperationEnd, h]) ?_
    exact sgr_attestEnd q _
  · have hex : exec .keyOperationEnd s = .next (tokenEnd w b { s with sgr.ops := rest }) := by
      simp only [exec, execKeyOperationEnd, h]
    refine ⟨fun hk => hex.trans (congrArg _ (tokenEnd_unkeyed (s := { s with sgr.ops := rest }) hk)), fun k hk =>
      ⟨fun htag => ends_of hex (tokenEnd_mismatch hk htag),
      fun hser hroom hw hg => ends_of hex fun htag => tokenEnd_accepted hk htag hser hroom hw hg⟩⟩

end Sys2Proof.Proofs

namespace Sys2Proof.Proofs
open Sys2Proof Sys2Proof.Machine Sys2Proof.Laws

/-! ### Operations that write no table of the Kiln store -/

/-- Every block but the store's tables. -/
@[reducible] def offStore : Mask :=
  { free := true, out := true, slot := true, porSlot := true, boot := true, bootSt := true, cpx := true, whl := true
    flt := true, hif := true, coil := true, nvs := true, rtc := true, afe := true, pin := true, jtag := true, dec := true
    pnt := true, pq := true, cal := true, trf := true, crd := true, sgr := true, tmp := true }

theorem same_dirty {μ : Mask} {s t : State} (h : hide μ t = hide μ s) (hs : μ.store = false) : t.nvs.dirty = s.nvs.dirty := by
  simpa [hide, hs] using congrArg (fun u => u.nvs.dirty) h

/-- An operation that has the store outside its blocks keeps its form. -/
theorem storeWf_of_hide {μ : Mask} {s t : State} (h : hide μ t = hide μ s) (hs : μ.store = false) (hwf : storeWf s) :
    storeWf t :=
  storeWf_of_eq hwf (same_recs h hs) (same_images h hs) (same_dirty h hs) (same_spread h hs)

/-- With every block but the store hidden, each operation that writes no table of it leaves it by its law under Laws/. -/
theorem storeWf_of_offStore {s t : State} (h : Hidden true → hide offStore t = hide offStore s) (hwf : storeWf s) :
    storeWf t := storeWf_of_hide (h ⟨rfl⟩) rfl hwf

theorem storeWf_raise (b i : Nat) {s : State} (h : storeWf s) : storeWf (raise b i s) :=
  storeWf_of_offStore (fun _ => by simp) h

theorem storeWf_foldl {α : Type} {f : State → α → State} (hf : ∀ t x, storeWf t → storeWf (f t x)) (l : List α) {s : State}
    (h : storeWf s) : storeWf (l.foldl f s) := by
  induction l generalizing s with
  | nil => exact h
  | cons x l ih => exact ih (hf s x h)

/-! ### Commit groups and the journal (R286, R287) -/

theorem storeWf_groupPage {s : State} (h : storeWf s) : storeWf (groupPage s) := by
  unfold groupPage
  split
  · exact h
  next g rest _ =>
    split
    · exact h
    · exact h
    · split <;> exact h
    · exact storeWf_of_offStore (s := s) (fun _ => by simp [↓hide_with]) h
    · split
      · exact storeWf_applyGroup g s h
      · exact h
    · exact h

theorem storeWf_resolveJournal {s : State} (h : storeWf s) : storeWf (resolveJournal s) := by
  unfold resolveJournal
  split
  · exact h
  next g _ =>
    split
    · exact storeWf_raise 9 5 (s := { s with nvs.journal := none, nvs.journalBad := false }) h
    · exact storeWf_applyGroup g s h

theorem storeWf_finishCommitted {s : State} (h : storeWf s) : storeWf (finishCommitted s) := by
  unfold finishCommitted
  split
  next g _ _ =>
    have hg := storeWf_applyGroup g s h
    split
    · exact hg
    · exact h
  · exact h

theorem storeWf_flushGroup {s : State} (g : Group) (h : storeWf s) : storeWf (flushGroup s g) := by
  have hg := storeWf_applyGroup g s h
  unfold flushGroup
  split
  · exact storeWf_of_offStore (s := { s with nvs := { applyGroup g s.nvs with nGroups := s.nvs.nGroups + 1 } })
      (fun _ => by simp) hg
  · exact hg

theorem storeWf_flushGroups {s : State} (h : storeWf s) : storeWf (flushGroups s) :=
  storeWf_foldl (fun _ g => storeWf_flushGroup g) s.nvs.groups h

theorem storeWf_commitPage {s : State} (h : storeWf s) : storeWf (commitPage s) :=
  storeWf_of_offStore (s := groupPage s) (fun _ => by unfold commitPage; split <;> split <;> simp) (storeWf_groupPage h)

/-! ### ECC and the repair of records (R289, R290, R310, R524) -/

theorem storeWf_kilnDouble {s : State} (h : storeWf s) : storeWf (kilnDouble s) :=
  storeWf_of_offStore (fun _ => by simp) h

/-- The spoilt copy, and the rebuilt one in its place, are writes of the copy's own address. -/
theorem storeWf_kilnCopyDouble (key copy : Nat) {s : State} (h : storeWf s) : storeWf (kilnCopyDouble key copy s) := by
  have hput (x : NvSlot) : storeWf { s with nvs.recs := tput s.nvs.recs (2 * key + copy % 2) x } := storeWf_recs s _ x h
  unfold kilnCopyDouble
  cases soundCopy s key (1 - copy % 2) with
  | some o =>
    dsimp -proj only
    split
    · exact storeWf_raise 9 2 (hput o :)
    · cases heldCopy s key (copy % 2) with
      | some c => exact hput _
      | none => exact h
  | none => cases heldCopy s key (copy % 2) with
    | some c => exact storeWf_raise 9 1 (hput _ :)
    | none => exact storeWf_raise 9 1 (s := { s with nvs.uncorr := satInc s.nvs.uncorr }) h

theorem storeWf_kilnSpreadDouble (i sl : Nat) {s : State} (h : storeWf s) : storeWf (kilnSpreadDouble i sl s) :=
  storeWf_kilnDouble (storeWf_spread s i _ h)

/-- A double-bit error writes no table but that of its own copy or counter. -/
theorem storeWf_kilnPlaceDouble (place : EccPlace) {s : State} (h : storeWf s) : storeWf (kilnPlaceDouble place s) := by
  cases place with
  | kilnCopy key copy => exact storeWf_kilnCopyDouble key copy h
  | spread i sl => exact storeWf_kilnSpreadDouble i sl h
  | lastGasp b => cases b <;> exact storeWf_kilnDouble (s := { s with nvs := _ }) h
  | _ => exact storeWf_of_offStore (s := s) (fun _ => by simp [kilnPlaceDouble, ↓hide_with]) h

theorem storeWf_eccErrorDetect (block : Nat) (double : Bool) (place : EccPlace) {s : State} (h : storeWf s) :
    ends (execEccErrorDetect block double place s) storeWf := by
  refine ⟨_, rfl, ?_⟩
  split
  · exact storeWf_raise _ _ h
  · exact storeWf_raise _ _ h
  · split
    · exact storeWf_kilnPlaceDouble place h
    · exact storeWf_of_offStore (fun _ => by simp) h

theorem storeWf_scrubRead (err : EccKind) (place : EccPlace) {s : State} (h : storeWf s) :
    ends (execScrubRead err place s) storeWf := by
  refine ⟨_, rfl, ?_⟩
  split
  · exact h
  · cases err with
    | clean => exact h
    | single => exact storeWf_of_offStore (s := s) (fun _ => by simp [↓hide_with]) h
    | double => exact storeWf_kilnPlaceDouble place (s := { s with nvs := _ }) h

theorem storeWf_readFactory {s : State} (h : storeWf s) : storeWf (readFactory s) := by
  unfold readFactory
  split
  · exact storeWf_raise _ _ h
  · exact storeWf_raise _ _ (storeWf_recs s _ _ h :)
  · exact storeWf_raise _ _ (storeWf_recs s _ _ h :)
  · exact h

/-- Of the start of a power-up calibration the reading of the factory record alone writes the store. -/
theorem storeWf_powerupCalStart (th : W16) {s : State} (h : storeWf s) : ends (execPowerupCalStart th s) storeWf := by
  refine ⟨_, rfl, ?_⟩
  split
  · exact h
  · have hread := storeWf_readFactory (s := { s with cal := { s.cal with used := th, timer := true, rejected := false } }) h
    exact storeWf_of_offStore (fun _ => by simp [↓hide_with, hide_foldl]) hread

theorem storeWf_repairRec (key : Nat) {s : State} (h : storeWf s) : storeWf (repairRec key s) := by
  have hput (c : Nat) (x : NvSlot) : storeWf { s with nvs.recs := tput s.nvs.recs (2 * key + c) x } := storeWf_recs s _ x h
  have hrebuilt (c : Nat) (x : NvSlot) (n : W16) :
      storeWf (raise 9 2 { s with nvs.recs := tput s.nvs.recs (2 * key + c) x, nvs.rebuilt := n }) :=
    storeWf_raise 9 2 (hput c x :)
  unfold repairRec
  dsimp -proj only
  split
  next a b _ _ =>
    split
    · exact h
    · split
      · exact hput 0 b
      · exact hput 1 a
  next a _ _ =>
    split
    · exact hrebuilt 1 a _
    · exact hput 1 a
  next b _ _ =>
    split
    · exact hrebuilt 0 b _
    · exact hput 0 b
  next =>
    split
    · exact storeWf_of_offStore (fun _ => by simp) h
    · exact h

theorem storeWf_repairAll {s : State} (h : storeWf s) : storeWf (repairAll s) :=
  storeWf_foldl (fun t x => storeWf_repairImage t x) _ (storeWf_foldl (fun _ k => storeWf_repairRec k) _ h)

/-! ### RESTORE and FUSE (R299, R400, R412) -/

/-- Between the repair of the store and the writing of the queued groups RESTORE writes no table. -/
theorem storeWf_restoreAll {s : State} (h : storeWf s) : storeWf (restoreAll s) :=
  storeWf_flushGroups (storeWf_of_offStore (fun _ => by simp [↓hide_with]) (storeWf_repairAll h))

theorem storeWf_restoreFailed {s s1 : State} (h : storeWf s) : storeWf (restoreFailed s s1) := by
  obtain ⟨hrecs, himages, hdirty, -⟩ := storeWf_repairAll h
  obtain ⟨-, -, -, hspread⟩ := h
  unfold restoreFailed
  generalize repairAll s = a at hrecs himages hdirty
  exact ⟨hrecs, himages, hdirty, hspread⟩

theorem storeWf_restoreDone {s : State} (h : storeWf s) : ends (execRestoreDone s) storeWf := by
  refine ⟨_, rfl, ?_⟩
  split
  · exact h
  · dsimp -proj only
    split
    · exact storeWf_restoreFailed h
    · exact storeWf_of_offStore (fun _ => by simp [↓hide_with]) (storeWf_restoreAll h)

theorem storeWf_fuseSteps (role : Role) {s : State} (h : storeWf s) : storeWf (fuseSteps role s) :=
  storeWf_of_offStore (fun _ => by simp [fuseSteps, ↓hide_with]) (storeWf_resolveJournal h)

theorem storeWf_fuseRole (away : Bool) {s : State} (h : storeWf s) : storeWf (fuseRole away s) :=
  storeWf_of_offStore (fun _ => by simp) h

/-- Of FUSE the resolution of the journal alone writes the store (R287). -/
theorem storeWf_porEnd (straps : BitVec 2) (ok : Bool) {s : State} (h : storeWf s) : ends (execPorEnd straps ok s) storeWf := by
  refine ⟨_, rfl, ?_⟩
  split
  · exact h
  · dsimp -proj only
    split
    · exact storeWf_of_offStore (s := s) (fun _ => by simp [↓hide_with]) h
    · exact storeWf_fuseRole _ (storeWf_fuseSteps _ (storeWf_of_offStore (s := s) (fun _ => by simp [↓hide_with]) h))

/-! ### Spread counters (R291) -/

theorem storeWf_spreadWrite (i c : Nat) {s : State} (h : storeWf s) : storeWf (spreadWrite i c s) := by
  unfold spreadWrite
  dsimp -proj only
  split
  · split
    · exact h
    · exact storeWf_spread s i _ h
  · exact storeWf_spread s i _ h

theorem storeWf_spreadCounterPass {s : State} (h : storeWf s) : ends (execSpreadCounterPass s) storeWf := by
  refine ⟨_, rfl, ?_⟩
  split
  · exact h
  · have hpass : storeWf ((spreadList s).foldl (fun t x => spreadWrite x.1 x.2 t) s) :=
      storeWf_foldl (fun _ (x : Nat × Nat) => storeWf_spreadWrite x.1 x.2) _ h
    dsimp -proj only
    split
    · exact hpass
    · exact storeWf_of_offStore (fun _ => by simp [↓hide_with]) hpass

theorem storeWf_cutSpread {s : State} (h : storeWf s) : storeWf (cutSpread s) := by
  unfold cutSpread
  split
  · refine storeWf_foldl (fun t x ht => ?_) _ h
    dsimp -proj only
    split
    · exact storeWf_spreadWrite x.1 x.2 (s := (drawBit t).2) ht
    · exact ht
  · exact h

/-! ### Power and resets (R398, R399, R416) -/

theorem storeWf_enterPor (c : BitVec 4) {s : State} (h : storeWf s) : storeWf (enterPor c s) := h

theorem storeWf_powerOn {s : State} (h : storeWf s) : ends (execPowerOn s) storeWf := by
  refine ⟨_, rfl, ?_⟩
  split <;> exact h

theorem storeWf_brownOut {s : State} (h : storeWf s) : ends (execBrownOut s) storeWf := by
  refine ⟨_, rfl, ?_⟩
  split
  · have hgasp : storeWf (cutGasp s) := storeWf_of_offStore (fun _ => by simp) h
    exact storeWf_enterPor 4 (storeWf_of_offStore (fun _ => by simp) (storeWf_cutSpread hgasp))
  · exact h

theorem storeWf_resetMetering {s : State} (h : storeWf s) : storeWf (resetMetering s) := by
  unfold resetMetering
  split
  · exact h
  · split
    · exact storeWf_enterPor 2 (storeWf_finishCommitted h)
    · split
      · exact storeWf_enterPor 2 (storeWf_finishCommitted (storeWf_of_offStore (fun _ => by simp) h))
      · exact storeWf_of_offStore (fun _ => by simp) h

theorem storeWf_resetFailstop (c : BitVec 4) {s : State} (h : storeWf s) : storeWf (resetFailstop c s) := by
  unfold resetFailstop
  split
  · exact h
  · split <;> exact h

theorem storeWf_resetnAssert {s : State} (h : storeWf s) : ends (execResetnAssert s) storeWf := by
  refine ⟨_, rfl, ?_⟩
  split
  · exact h
  · split
    · exact storeWf_resetMetering (s := { s with boot.resetnLow := true }) h
    · split
      · exact storeWf_resetFailstop 2 (s := { s with boot.resetnLow := true }) h
      · exact storeWf_enterPor 2 (storeWf_finishCommitted (s := { s with boot.resetnLow := true }) h)

theorem storeWf_functionLevelReset {s : State} (h : storeWf s) : ends (execFunctionLevelReset s) storeWf := by
  refine ⟨_, rfl, ?_⟩
  split
  · exact h
  · have hreset : storeWf (dropTransfer (hifReset s)) := storeWf_of_offStore (fun _ => by simp) h
    dsimp -proj only
    split
    · exact storeWf_resetFailstop 3 (s := { dropTransfer (hifReset s) with hif := _ }) hreset
    · exact hreset

theorem storeWf_powerRestoreRestart {s : State} (h : storeWf s) : ends (execPowerRestoreRestart s) storeWf := by
  refine ⟨_, rfl, ?_⟩
  split
  · exact storeWf_enterPor 5 (storeWf_finishCommitted h)
  · exact h

theorem storeWf_safeEnd {s : State} (h : storeWf s) : storeWf (safeEnd s) := by
  have hfrozen : storeWf (safeFrozen s) := storeWf_of_offStore (fun _ => by simp [safeFrozen]) h
  have hquiet := storeWf_of_hide (hide_endRequests_safeBalls (safeFrozen s)) rfl hfrozen
  have hheld : storeWf (safeHeld s) := by
    unfold safeHeld storeWf
    rw [noteQual_nvs]
    exact hquiet
  exact storeWf_of_hide (hide_safeEnd_held s) rfl hheld

theorem execFailstopSafeState_idle {s : State}
    (h : ¬ (s.nvs.lg = none ∧ (s.flt.phase = .begun ∨ s.flt.phase = .lastGasp))) : execFailstopSafeState s = .next s := by
  have hidle : (s.nvs.lg.isSome || !(s.flt.phase == .begun || s.flt.phase == .lastGasp)) = true := by
    cases hlg : s.nvs.lg with
    | some g => rfl
    | none => simpa [hlg] using h
  simp only [execFailstopSafeState, hidle, if_true]

theorem storeWf_failstopSafeState {s : State} (h : storeWf s) : ends (execFailstopSafeState s) storeWf := by
  by_cases hdue : s.nvs.lg = none ∧ (s.flt.phase = .begun ∨ s.flt.phase = .lastGasp)
  · have hsafe := storeWf_safeEnd h
    rw [execFailstopSafeState_due hdue.1 hdue.2]
    generalize safeEnd s = u at hsafe
    refine ⟨_, rfl, ?_⟩
    split
    · split
      · exact storeWf_enterPor _ hsafe
      · exact hsafe
    · exact hsafe
  · exact ⟨s, execFailstopSafeState_idle hdue, h⟩

/-! ### Page commits (R281, R294) -/

theorem storeWf_lgEnd (g : LgRun) {s : State} (h : storeWf s) : storeWf (lgEnd g s) := by
  unfold lgEnd
  dsimp -proj only
  split
  · exact h
  · split
    · exact h
    · split <;> exact h

theorem storeWf_lgPage (g : LgRun) (n : Nat) {s : State} (h : storeWf s) : storeWf (lgPage g n s) := by
  unfold lgPage
  generalize (if g.area.used == 65536 then 257 else 161) = total
  have hseal : storeWf (if n = total then clearSeal s else s) := by
    split
    · exact storeWf_of_offStore (fun _ => by simp) h
    · exact h
  dsimp -proj only
  split
  · exact storeWf_lgEnd g (storeWf_of_offStore (fun _ => by simp) hseal)
  · exact hseal

theorem storeWf_lgCommit (g : LgRun) {s : State} (h : storeWf s) : storeWf (lgCommit g s) := by
  unfold lgCommit
  split
  · exact storeWf_lgPage g _ h
  · split
    · dsimp -proj only
      split
      · exact storeWf_of_offStore (fun _ => by simp) (storeWf_commitPage h)
      · exact storeWf_commitPage h
    · have hgasp : storeWf (lgAssemble g s) := storeWf_of_offStore (fun _ => by simp) h
      dsimp -proj only
      split
      · exact storeWf_lgPage _ _ hgasp
      · exact hgasp

theorem storeWf_pageCommitDone {s : State} (h : storeWf s) : ends (execPageCommitDone s) storeWf := by
  refine ⟨_, rfl, ?_⟩
  split
  · exact h
  · split
    · exact storeWf_lgCommit _ h
    · split
      · exact h
      · exact storeWf_commitPage h

/-! ### Every step -/

theorem storeWf_of_ends {o : Out} {t : State} (h : ends o storeWf) (ht : o = .next t) : storeWf t := by
  obtain ⟨u, hu, hwf⟩ := h
  obtain rfl : u = t := by simpa [hu] using ht
  exact hwf

/-- A command whose footprint leaves the store out keeps its form. -/
theorem storeWf_of_foot {c : Instr} {s t : State} (hc : (foot c).store = false) (h : storeWf s) (ht : exec c s = .next t) :
    storeWf t := storeWf_of_hide (hide_foot_of_exec ht) hc h

theorem storeWf_exec {c : Instr} {s t : State} (h : storeWf s) (ht : exec c s = .next t) : storeWf t := by
  cases c
  case powerOn => exact storeWf_of_ends (storeWf_powerOn h) ht
  case porEnd straps ok => exact storeWf_of_ends (storeWf_porEnd straps ok h) ht
  case brownOut => exact storeWf_of_ends (storeWf_brownOut h) ht
  case resetnAssert => exact storeWf_of_ends (storeWf_resetnAssert h) ht
  case restoreDone => exact storeWf_of_ends (storeWf_restoreDone h) ht
  case powerRestoreRestart => exact storeWf_of_ends (storeWf_powerRestoreRestart h) ht
  case pageCommitDone => exact storeWf_of_ends (storeWf_pageCommitDone h) ht
  case spreadCounterPass => exact storeWf_of_ends (storeWf_spreadCounterPass h) ht
  case scrubRead err place => exact storeWf_of_ends (storeWf_scrubRead err place h) ht
  case eccErrorDetect b d place => exact storeWf_of_ends (storeWf_eccErrorDetect b d place h) ht
  case functionLevelReset => exact storeWf_of_ends (storeWf_functionLevelReset h) ht
  case failstopSafeState => exact storeWf_of_ends (storeWf_failstopSafeState h) ht
  case powerupCalStart th => exact storeWf_of_ends (storeWf_powerupCalStart th h) ht
  all_goals exact storeWf_of_foot rfl h ht

/-- Settles O4: a command outside the store by its footprint, each of the others by the lemma on it; an idle step leaves the
store as it is. -/
theorem storeStaysCanonical : Obligations.StoreStaysCanonical := by
  unfold Obligations.StoreStaysCanonical
  intro s t h ht
  cases hp : s.pending with
  | nil =>
    obtain rfl : idleStep s = t := by simpa [step_idle hp] using ht
    exact h
  | cons c rest => exact storeWf_exec (s := { s with pending := rest }) h ((step_front hp).symm.trans ht)

end Sys2Proof.Proofs

namespace Sys2Proof.Proofs
open Sys2Proof Sys2Proof.Machine Sys2Proof.Laws

/-! ### The page commits of the group in front (R281, R286) -/

theorem execPageCommitDone_group {s : State} (hr : running s = true) (hlg : s.nvs.lg = none) (hi : s.nvs.inhibit = false) :
    execPageCommitDone s = .next (commitPage s) := by simp [execPageCommitDone, hr, hlg, hi]

theorem execPageCommitDone_gasp {s : State} {g : LgRun} (hr : running s = true) (hlg : s.nvs.lg = some g) :
    execPageCommitDone s = .next (lgCommit g s) := by simp [execPageCommitDone, hr, hlg]

/-- Outside step 3 a page commit brings nothing into force. -/
theorem commitPage_uncommitted {s : State} (h : s.nvs.gstep ≠ 3) : commitPage s = groupPage s := by
  simp [commitPage, h]

theorem commitPage_record {s : State} {g : Group} {rest : List Group} {key c : Nat} {v : NvVal} {q : W32}
    (hg : s.nvs.groups = g :: rest) (h : s.nvs.gstep = 3) (ha : g.act = .record key c v q) :
    commitPage s = groupCommitted (groupPage s) := by
  obtain ⟨act, pages, guard, waiter, bnd, eff⟩ := g
  obtain rfl : act = .record key c v q := ha
  simp [commitPage, h, hg]

theorem groupCommitted_plain {s : State} {g : Group} {rest : List Group} (hg : s.nvs.groups = g :: rest) (he : g.eff = none) :
    groupCommitted s = s := by simp only [groupCommitted, hg, he]

theorem nvs_releaseWaiter (g : Group) (s : State) : (releaseWaiter g s).nvs = s.nvs := by
  unfold releaseWaiter
  split
  · exact same_nvs (hide_complete_own _ _ _ _ s) rfl rfl
  · rfl

theorem noteCtlEdit_record {g : Group} {key c : Nat} {v : NvVal} {q : W32} (ha : g.act = .record key c v q) (s : State) :
    noteCtlEdit g s = s := by simp only [noteCtlEdit, ha]

section GroupPage
variable {s : State} {g : Group} {rest : List Group} (hg : s.nvs.groups = g :: rest)
include hg

theorem groupPage_marker (h : s.nvs.gstep = 0) : groupPage s = { s with nvs.gstep := 2, nvs.gleft := g.pages } := by
  simp only [groupPage, hg, h]

theorem groupPage_journal (h : s.nvs.gstep = 2) : groupPage s =
    if s.nvs.gleft ≤ 1 then { s with nvs.gstep := 3, nvs.gleft := 1 } else { s with nvs.gleft := s.nvs.gleft - 1 } := by
  simp only [groupPage, hg, h]

theorem groupPage_home (h : s.nvs.gstep = 4) : groupPage s =
    if s.nvs.gleft ≤ 1 then { s with nvs := { applyGroup g s.nvs with gstep := 5, gleft := 1 } }
    else { s with nvs.gleft := s.nvs.gleft - 1 } := by
  simp only [groupPage, hg, h]

theorem groupPage_retires (h : s.nvs.gstep = 5) :
    groupPage s = { s with nvs.groups := rest, nvs.gstep := 0, nvs.gleft := 0 } := by
  simp only [groupPage, hg, h]

/-- The commit of a group: the request that waits on it ends, and the group counts as written. -/
theorem groupPage_commits (h : s.nvs.gstep = 3) {key c : Nat} {v : NvVal} {q : W32} (ha : g.act = .record key c v q) :
    groupPage s = releaseWaiter g { s with nvs := { s.nvs with
      gstep := 4, gleft := g.pages, nGroups := s.nvs.nGroups + 1, bdone := bndDone g rest s.nvs.bdone, journalBad := false } } := by
  simp only [groupPage, hg, h, noteCtlEdit_record ha]

theorem commitPage_commits (h : s.nvs.gstep = 3) {key c : Nat} {v : NvVal} {q : W32} (ha : g.act = .record key c v q)
    (he : g.eff = none) :
    commitPage s = releaseWaiter g { s with nvs := { s.nvs with
      gstep := 4, gleft := g.pages, nGroups := s.nvs.nGroups + 1, bdone := bndDone g rest s.nvs.bdone, journalBad := false } } := by
  rw [commitPage_record hg h ha, groupPage_commits hg h ha]
  exact groupCommitted_plain (by rw [nvs_releaseWaiter]; exact hg) he

end GroupPage

/-! ### The page commits of a last gasp (R294) -/

theorem lgPage_counts {g : LgRun} {n : Nat} (h2 : 2 < n) (h161 : n < 161) (s : State) :
    lgPage g n s = { s with nvs.lg := some { g with left := some (n - 1) } } := by
  have htotal : n ≠ if g.area.used == 65536 then 257 else 161 := by split <;> omega
  have hlast : ¬ n ≤ 1 := by omega
  have helapsed : n ≠ 2 := by omega
  simp only [lgPage, htotal, hlast, helapsed, if_false]

theorem lgPage_last {g : LgRun} {n : Nat} (h : n ≤ 1) (s : State) : lgPage g n s = lgEnd g (putArea (lgTargetB s) g.area s) := by
  have htotal : n ≠ if g.area.used == 65536 then 257 else 161 := by split <;> omega
  simp only [lgPage, htotal, h, if_true, if_false]

/-- After a power-fail warning's last gasp the chip waits, its array inhibited (R298). -/
theorem lgEnd_waits {g : LgRun} {s : State} (hc : g.cause = 1) (hp : s.flt.phase = .none) (hr : s.flt.remembered = none) :
    lgEnd g s = { s with nvs.lg := none, nvs.lgDone := true, nvs.inhibit := true } := by
  simp [lgEnd, hc, failed, hp, hr]

theorem ends_pageCommitDone_seal {g : LgRun} {n : Nat} {s : State} (hr : running s = true) (hlg : s.nvs.lg = some g)
    (hl : g.left = some n) (hn : n ≤ 1) (hc : g.cause = 1) (hp : s.flt.phase = .none) (hm : s.flt.remembered = none) :
    ends (execPageCommitDone s) (fun t =>
      t.nvs.lg = none ∧ t.nvs.lgDone = true ∧ t.nvs.inhibit = true ∧ t.nvs.recs = s.nvs.recs ∧ t.pnt = s.pnt ∧
      (if lgTargetB s then t.nvs.lgb else t.nvs.lga) = some g.area) := by
  have hgasp : execPageCommitDone s = .next (lgEnd g (putArea (lgTargetB s) g.area s)) := by
    rw [execPageCommitDone_gasp hr hlg]
    simp only [lgCommit, hl, lgPage_last hn]
  have hflt : (putArea (lgTargetB s) g.area s).flt = s.flt := by unfold putArea; split <;> rfl
  rw [lgEnd_waits hc (by rw [hflt, hp]) (by rw [hflt, hm])] at hgasp
  refine ⟨_, hgasp, rfl, rfl, rfl, ?_⟩
  cases lgTargetB s <;> exact ⟨rfl, rfl, rfl⟩

/-! ### Spread counters (R291) -/

theorem spreadOpen_of {s : State} (hm : metering s = true) (hc : s.pnt.cmpOk = true) (hlg : s.nvs.lg = none)
    (hi : s.nvs.inhibit = false) (hp : s.nvs.prot ≠ 3) : spreadOpen s = true := by
  have hprot : (s.nvs.prot != 3) = true := bne_iff_ne.2 hp
  simp only [spreadOpen, storeOpen, hm, hc, hlg, hi, hprot]
  rfl

/-- The state once the counters that are due have been written. -/
def spreadDone (s : State) : State :=
  let s1 := (spreadList s).foldl (fun t x => spreadWrite x.1 x.2 t) s
  { s1 with nvs.spreadDue := [] }

theorem spreadWrite_store (i c : Nat) (s : State) : ∃ x, spreadWrite i c s = { s with nvs.spread := x } := by
  unfold spreadWrite
  dsimp -proj only
  split
  · split
    · exact ⟨_, rfl⟩
    · exact ⟨_, rfl⟩
  · exact ⟨_, rfl⟩

theorem spreadWrites_store (l : List (Nat × Nat)) (s : State) :
    ∃ x, l.foldl (fun t x => spreadWrite x.1 x.2 t) s = { s with nvs.spread := x } := by
  induction l generalizing s with
  | nil => exact ⟨_, rfl⟩
  | cons a l ih =>
    obtain ⟨x, hx⟩ := spreadWrite_store a.1 a.2 s
    obtain ⟨y, hy⟩ := ih (spreadWrite a.1 a.2 s)
    exact ⟨y, by rw [List.foldl_cons, hy, hx]⟩

/-- A count that differs from its newest slot goes into the next of its eight slots. -/
theorem spreadWrite_next {i c k : Nat} {w : W48} {s : State} (hn : spreadNewest (spreadSlots s i) = some (k, w))
    (hw : w ≠ BitVec.ofNat 48 c) : spreadWrite i c s = { s with
      nvs.spread := tput s.nvs.spread i (lmod (spreadSlots s i) ((k + 1) % 8) (fun _ => some (BitVec.ofNat 48 c))) } := by
  simp [spreadWrite, hn, hw]

theorem ownWrite_frame (key : Nat) (v : NvVal) (pages : Nat) (s : State) :
    (ownWrite key v pages s).nvs.spreadDue = s.nvs.spreadDue ∧ (ownWrite key v pages s).nvs.recs = s.nvs.recs ∧
      (ownWrite key v pages s).nvs.spread = s.nvs.spread ∧ (ownWrite key v pages s).pnt = s.pnt := by
  unfold ownWrite
  split <;> exact ⟨rfl, rfl, rfl, rfl⟩

/-- An open pass leaves the counters written and none due; the mirror position that it may queue with them waits its turn. -/
theorem ends_spreadCounterPass {s : State} (ho : spreadOpen s = true) : ends (execSpreadCounterPass s) (fun t =>
    t.nvs.spreadDue = [] ∧ t.nvs.recs = s.nvs.recs ∧ t.nvs.spread = (spreadDone s).nvs.spread ∧ t.pnt = s.pnt) := by
  obtain ⟨x, hx⟩ := spreadWrites_store (spreadList s) s
  have hdone : spreadDone s = { s with nvs.spread := x, nvs.spreadDue := [] } := by rw [spreadDone, hx]
  have hex : execSpreadCounterPass s = .next (if nvRead (spreadDone s) (nvKey .mirror 0) == some (.word s.nvs.mirror) then
      spreadDone s else ownWrite (nvKey .mirror 0) (.word s.nvs.mirror) 1 (spreadDone s)) := by
    simp only [execSpreadCounterPass, ho]
    rfl
  refine ⟨_, hex, ?_⟩
  split
  · exact ⟨rfl, by rw [hdone], rfl, by rw [hdone]⟩
  · obtain ⟨hdue, hrecs, hspread, hpnt⟩ := ownWrite_frame (nvKey .mirror 0) (.word s.nvs.mirror) 1 (spreadDone s)
    exact ⟨hdue, hrecs.trans (by rw [hdone]), hspread, hpnt.trans (by rw [hdone])⟩

theorem spreadDone_none {s : State} (h : s.nvs.spreadDue = []) : (spreadDone s).nvs.spread = s.nvs.spread := by
  simp [spreadDone, spreadList, h]

theorem spreadDone_single {p c : Nat} {s : State} (h : s.nvs.spreadDue = [(p, [c])]) :
    (spreadDone s).nvs.spread = (spreadWrite (8 * p) c s).nvs.spread := by
  simp [spreadDone, spreadList, h]

/-- Settles O15: each page commit by the step it ends, those of a last gasp by the pages left, a spread pass by the counters
that are due. -/
theorem storeWrites : Obligations.StoreWrites := by
  refine ⟨fun g rest s hr hlg hi hg => ?_, fun g n s hr hlg hl => ⟨fun h2 h161 => ?_, fun hn hc hp hm =>
    ends_pageCommitDone_seal hr hlg hl hn hc hp hm⟩, fun s hm hcmp hlg hi hprot => ?_⟩
  · have hpage : exec .pageCommitDone s = .next (commitPage s) := execPageCommitDone_group hr hlg hi
    have hgroup (h : s.nvs.gstep ≠ 3) : exec .pageCommitDone s = .next (groupPage s) := by
      rw [hpage, commitPage_uncommitted h]
    refine ⟨fun h => ?_, fun h hl => ?_, fun h hl => ?_, fun key c v q h ha he => ?_, fun h hl => ?_, fun h hl => ?_,
      fun h => ?_⟩
    · rw [hgroup (by omega), groupPage_marker hg h]
    · rw [hgroup (by omega), groupPage_journal hg h, if_neg (by omega)]
    · rw [hgroup (by omega), groupPage_journal hg h, if_pos hl]
    · rw [hpage, commitPage_commits hg h ha he]
    · rw [hgroup (by omega), groupPage_home hg h, if_neg (by omega)]
    · rw [hgroup (by omega), groupPage_home hg h, if_pos hl]
    · rw [hgroup (by omega), groupPage_retires hg h]
  · have hgasp : exec .pageCommitDone s = .next (lgCommit g s) := execPageCommitDone_gasp hr hlg
    rw [hgasp]
    simp only [lgCommit, hl, lgPage_counts h2 h161]
  · have ho := spreadOpen_of hm hcmp hlg hi hprot
    obtain ⟨t, hex, hdue, hrecs, hspread, hpnt⟩ := ends_spreadCounterPass ho
    refine ⟨⟨t, hex, hdue, hrecs, hpnt⟩, fun h => ⟨t, hex, hspread.trans (spreadDone_none h)⟩, fun p c k w h hn hw =>
      ⟨t, hex, hspread.trans ((spreadDone_single h).trans (congrArg (fun u => u.nvs.spread) (spreadWrite_next hn hw)))⟩⟩

end Sys2Proof.Proofs

namespace Sys2Proof.Proofs
open Sys2Proof Sys2Proof.Machine Sys2Proof.Laws

/-! ### Requests' ends under a view that a raise keeps -/

namespace RaiseView
variable {α : Type} {f : State → α}

theorem waitReq (h : RaiseView f) (w : Waiter) (s : State) : f (waitReq w s) = f s := by
  unfold Machine.waitReq
  split
  · rfl
  · exact h.ring ..

theorem complete (h : RaiseView f) (hup : ∀ cls typ p t, f (sendUp cls typ p t) = f t) (w : Waiter) (st : W16) (q : W32)
    (d : List Byte) (s : State) : f (complete w st q d s) = f s := by
  unfold Machine.complete
  split
  · rfl
  · split
    · exact hup ..
    · exact h.ring ..

theorem pushResult (h : RaiseView f) (hup : ∀ cls typ p t, f (sendUp cls typ p t) = f t) (n : Nat) (q : W32)
    (b : List Byte) (w : Waiter) (d : Done) (s : State) : f (pushResult n q b w d s) = f s := by
  unfold Machine.pushResult
  dsimp only
  split
  · exact h.complete hup ..
  · split
    · exact (h.complete hup ..).trans (h.deliver ..)
    · exact (h.waitReq ..).trans (h.deliver ..)

end RaiseView

/-! ### What a worker's operations leave of its exchange with its manager -/

/-- The last counter of K_down, the assignment, the replays counted, the mirror position of the log, and the last
counter under the envelope keys. -/
structure Exchange where
  down : Option Ctr
  enumerated : Bool
  replay : W16
  mirror : W32
  envDown : W64

def exchange (s : State) : Exchange := ⟨s.coil.w.down, s.coil.w.enumerated, s.coil.replay, s.nvs.mirror, s.sgr.envDown⟩

/-- On a worker a record that is put on a ring waits in the worker's own queues. -/
theorem raiseView_exchange : RaiseView exchange where
  blk _ _ _ _ := rfl
  seq _ _ := rfl
  enq r q t := by
    unfold enqRaw
    extract_lets
    repeat' split
    all_goals rfl
  vec v t := by
    unfold sendVector
    repeat' split
    all_goals rfl
  event _ _ _ _ := rfl
  ring _ _ _ := rfl

theorem exchange_raise {b i : Nat} (hc : srcClass b i ≠ some .grave) (s : State) : exchange (raise b i s) = exchange s :=
  raiseView_exchange.raise_mild hc s

theorem exchange_sendUp (cls typ : Nat) (p : List Byte) (s : State) : exchange (sendUp cls typ p s) = exchange s := by
  unfold sendUp
  split <;> rfl

/-! #### The capture SRAM that a bulk segment releases (R195) -/

theorem exchange_ite_fst {s : State} (c : Prop) [Decidable c] (a b : State × Bool) (ha : exchange a.1 = exchange s)
    (hb : exchange b.1 = exchange s) : exchange (if c then a else b).1 = exchange s := by
  split <;> assumption

theorem exchange_armOnce (n : Nat) (e : AngEnt) (s : State) : exchange (armOnce n e s).1 = exchange s := by
  unfold armOnce
  apply exchange_ite_fst
  · exact exchange_raise (b := 3) (i := 5) (by decide) _
  · rfl

theorem exchange_capArmed (r : Nat) (s : State) : exchange (capArmed r s) = exchange s := by
  unfold capArmed
  extract_lets q turn s1
  split
  · exact exchange_armOnce ..
  · rfl

theorem exchange_capDone (s : State) : exchange (capDone s) = exchange s := by
  unfold capDone
  dsimp only
  split
  · exact exchange_capArmed _ s
  · rfl

theorem exchange_capSegDone (seq : W32) (s : State) : exchange (capSegDone seq s) = exchange s := by
  unfold capSegDone
  dsimp only
  split
  · rfl
  · split
    · exact exchange_capDone _
    · rfl

/-! #### What leaves while records and credit last (R388) -/

theorem exchange_sendReport {s t : State} (h : sendReport s = some t) : exchange t = exchange s := by
  unfold sendReport at h
  dsimp -proj only at h
  split at h
  · cases h
  · cases h
    exact exchange_sendUp ..

theorem exchange_sendBulk {s t : State} (h : sendBulk s = some t) : exchange t = exchange s := by
  unfold sendBulk at h
  dsimp -proj only at h
  split at h
  · cases h
  · split at h
    · cases h
    · cases h
      split
      · exact exchange_capSegDone ..
      · rfl

theorem exchange_pumpLoop {send : State → Option State} (h : ∀ {s t}, send s = some t → exchange t = exchange s) (n : Nat)
    (s : State) : exchange (pumpLoop send n s) = exchange s := by
  induction n generalizing s with
  | zero => rfl
  | succ n ih =>
    rw [pumpLoop]
    split
    next t ht => exact (ih t).trans (h ht)
    · rfl

theorem exchange_pump (s : State) : exchange (pump s) = exchange s := by
  unfold pump
  split
  · rfl
  · exact (exchange_pumpLoop exchange_sendBulk _ _).trans (exchange_pumpLoop exchange_sendReport _ _)

/-- With nothing to send a worker sends nothing. -/
theorem pump_empty {s : State} (hr : s.coil.w.report = []) (hb : s.coil.w.bulk = []) : pump s = s := by
  unfold pump
  split
  · rfl
  · simp only [hr, hb, List.length_nil, List.foldl_nil, pumpLoop]

/-! ### CREDIT, ACK and retransmission (R388) -/

/-- The worker's state with a frame of its manager noted. -/
def downNoted (f : Frame) (s : State) : State :=
  { s with coil.w := { s.coil.w with down := some (frameCtr f), dnUses := s.coil.w.dnUses + 1 } }

/-- A frame that a worker takes as its manager's has its effect, with its counter noted (R385, R386). -/
theorem workerAuth_fromManager {cls typ : Nat} {f : Frame} {s : State} (h : fromManager cls typ f s) (k : State → State) :
    workerAuth cls typ f k s = k (downNoted f s) := by
  obtain ⟨hw, rfl, rfl, hbad, ⟨key, hkey, htag⟩, hen, hctr⟩ := h
  simp only [workerAuth, hw, hbad, hkey, htag, hen, hctr, bne_self_eq_false, Bool.not_true, Bool.or_self, Bool.false_eq_true,
    if_false]
  rfl

/-- What such a frame leaves: its counter is the last one, and the worker stays assigned. -/
theorem exchange_downNoted {cls typ : Nat} {f : Frame} {s t : State} (h : fromManager cls typ f s)
    (ht : exchange t = exchange (downNoted f s)) : t.coil.w.down = some (frameCtr f) ∧ t.coil.w.enumerated = true := by
  obtain ⟨-, -, -, -, -, hen, -⟩ := h
  exact ⟨congrArg Exchange.down ht, (congrArg Exchange.enumerated ht).trans hen⟩

theorem ends_creditFrame {f : Frame} {s : State} (h : fromManager 1 4 f s) : ends (exec (.creditFrame f) s) (fun t =>
    t.coil.w.down = some (frameCtr f) ∧ t.coil.w.enumerated = true ∧ t.nvs.recs = s.nvs.recs ∧
    (s.coil.w.report = [] → s.coil.w.bulk = [] →
      t.coil.w.credR = min (2 ^ 32) (s.coil.w.credR + rd f.payload 0 4) ∧
      t.coil.w.credB = min (2 ^ 32) (s.coil.w.credB + rd f.payload 4 4) ∧ t.out = s.out)) := by
  obtain ⟨u, hu, hw, ho⟩ : ∃ u : State, exec (.creditFrame f) s = .next (pump u) ∧
      u.coil.w = { (downNoted f s).coil.w with
        credR := min (2 ^ 32) (s.coil.w.credR + rd f.payload 0 4), credB := min (2 ^ 32) (s.coil.w.credB + rd f.payload 4 4) } ∧
      u.out = s.out ∧ exchange u = exchange (downNoted f s) :=
    ⟨_, congrArg _ (workerAuth_fromManager h _), rfl, rfl, rfl⟩
  obtain ⟨hdown, hen⟩ := exchange_downNoted h ((exchange_pump u).trans ho.2)
  refine ends_of hu ⟨hdown, hen, same_recs (hide_foot_of_exec hu) rfl, fun hr hb => ?_⟩
  rw [pump_empty (by rw [hw]; exact hr) (by rw [hw]; exact hb), hw]
  exact ⟨rfl, rfl, ho.1⟩

/-- Acknowledged records move nothing but the mirror of the log (R305). -/
theorem recAcked_mirror (l : List (Nat × W32)) (s : State) : ∃ m, l.foldl recAcked s = { s with nvs.mirror := m } := by
  induction l generalizing s with
  | nil => exact ⟨_, rfl⟩
  | cons x l ih =>
    obtain ⟨m, hm⟩ := ih (recAcked s x)
    refine ⟨m, ?_⟩
    rw [List.foldl_cons, hm]
    unfold recAcked
    split <;> rfl

theorem recAcked_newer {q : W32} {s : State} (h : seqNewer (q + 1) s.nvs.mirror = true) :
    (recAcked s (5, q)).nvs.mirror = q + 1 := by
  simp only [recAcked, h, Bool.and_true, beq_self_eq_true, if_true]

/-- The records of the frames that an ACK names. -/
def ackedRecs (p : List Byte) (s : State) : List (Nat × W32) :=
  (s.coil.w.sent.filter (fun x => (ackCtrs p).contains x.ctr)).flatMap (·.recs)

/-- The frames that an ACK leaves waiting. -/
def unacked (p : List Byte) (s : State) : List SentRep := s.coil.w.sent.filter (fun x => !(ackCtrs p).contains x.ctr)

theorem execAckFrame_fromManager {f : Frame} {s : State} (h : fromManager 1 5 f s) :
    execAckFrame f s = .next (pump ((ackedRecs f.payload s).foldl recAcked
      { downNoted f s with coil.w.sent := unacked f.payload s })) := by
  unfold execAckFrame
  rw [workerAuth_fromManager h]
  simp only [List.partition_eq_filter_filter]
  rfl

theorem ends_ackFrame {f : Frame} {s : State} (h : fromManager 1 5 f s) : ends (exec (.ackFrame f) s) (fun t =>
    t.coil.w.down = some (frameCtr f) ∧ t.nvs.recs = s.nvs.recs ∧
    (s.coil.w.report = [] → s.coil.w.bulk = [] →
      t.coil.w.sent = s.coil.w.sent.filter (fun x => !(ackCtrs f.payload).contains x.ctr)) ∧
    (∀ x q, s.coil.w.sent = [x] → (ackCtrs f.payload).contains x.ctr = true → x.recs = [(5, q)] →
      seqNewer (q + 1) s.nvs.mirror = true → t.nvs.mirror = q + 1)) := by
  have hex : exec (.ackFrame f) s = _ := execAckFrame_fromManager h
  obtain ⟨m, hm⟩ := recAcked_mirror (ackedRecs f.payload s) { downNoted f s with coil.w.sent := unacked f.payload s }
  rw [hm] at hex
  have hpump := exchange_pump { downNoted f s with coil.w.sent := unacked f.payload s, nvs.mirror := m }
  refine ends_of hex ⟨congrArg Exchange.down hpump, same_recs (hide_foot_of_exec hex) rfl, fun hr hb => ?_,
    fun x q hs hc hq hnew => (congrArg Exchange.mirror hpump).trans ?_⟩
  · refine (congrArg (fun x : State => x.coil.w.sent) (pump_empty ?_ ?_)).trans ?_
    exacts [hr, hb, rfl]
  · have hrecs : ackedRecs f.payload s = [(5, q)] := by
      simp only [ackedRecs, hs, hc, hq, List.filter_cons_of_pos, List.filter_nil, List.flatMap_singleton]
    rw [hrecs] at hm
    refine (congrArg (fun x : State => x.nvs.mirror) hm).symm.trans (recAcked_newer ?_)
    exact hnew

theorem sendUp_keyed {s : State} (h : (slotKey s 6).isSome = true) (cls typ : Nat) (p : List Byte) : ∃ o,
    sendUp cls typ p s = { s with out := o, coil.w.ownCtr := s.coil.w.ownCtr + 1 } := by
  obtain ⟨key, hkey⟩ := Option.isSome_iff_exists.1 h
  rw [sendUp, hkey]
  exact ⟨_, rfl⟩

/-- A frame without acknowledgement for 20 ms goes out with a new counter. -/
theorem ends_reportRetransmit {c : W64} {x : SentRep} {s : State} (hw : isWorker s = true)
    (hx : s.coil.w.sent.find? (fun x => x.ctr == c) = some x) (hk : (slotKey s 6).isSome = true)
    (hage : 20 * msSlots ≤ s.slot - x.at_) : ends (exec (.reportRetransmit c) s) (fun t =>
      t.coil.w.sent = s.coil.w.sent.map (fun y => if y.ctr == c then { y with ctr := s.coil.w.ownCtr, at_ := s.slot } else y) ∧
      t.coil.w.ownCtr = s.coil.w.ownCtr + 1) := by
  have hdue : ((slotKey s 6).isNone || decide (s.slot - x.at_ < 20 * msSlots)) = false := by
    rw [Option.isNone_eq_false_iff.2 hk, decide_eq_false (by omega)]; rfl
  refine ⟨_, rfl, ?_⟩
  simp only [hw, hx, hdue, Bool.not_true, Bool.false_eq_true, if_false]
  obtain ⟨o, ho⟩ := sendUp_keyed (s := { s with coil.w.sent := s.coil.w.sent.map (fun y =>
    if y.ctr == c then { y with ctr := s.coil.w.ownCtr, at_ := s.slot } else y) }) hk 2 0 x.payload
  rw [ho]
  exact ⟨rfl, rfl⟩

theorem execReportRetransmit_early {c : W64} {x : SentRep} {s : State} (hw : isWorker s = true)
    (hx : s.coil.w.sent.find? (fun x => x.ctr == c) = some x) (hage : s.slot - x.at_ < 20 * msSlots) :
    execReportRetransmit c s = .next s := by
  simp only [execReportRetransmit, hw, hx, decide_eq_true hage, Bool.or_true, Bool.not_true, Bool.false_eq_true, if_false, if_true]

end Sys2Proof.Proofs

namespace Sys2Proof.Proofs
open Sys2Proof Sys2Proof.Machine Sys2Proof.Laws

/-! ### A record in one segment (R375) -/

theorem segment_whole (ring : Nat) (q : QRec) : Machine.segment ring 0 q q.bytes.length =
    le 1 ring ++ le 1 3 ++ le 2 q.bytes.length ++ le 4 0 ++ le 4 q.seq.toNat ++ q.bytes := by
  simp [Machine.segment, bitAt]

/-- The one segment of a whole record reads back as its ring, FIRST and LAST, offset 0, sequence and bytes. -/
theorem segsOf_segment {ring : Nat} {q : QRec} (hring : ring < 256) (hlen : q.bytes.length < 2 ^ 16) (fuel : Nat) :
    segsOf (fuel + 1) (Machine.segment ring 0 q q.bytes.length) = [(ring, 3, 0, q.seq, q.bytes)] := by
  have hnil : segsOf fuel [] = [] := by cases fuel <;> rfl
  have hseq := q.seq.isLt
  have hword : ∀ v, v < 2 ^ 32 → v % 256 + 256 * (v / 256 % 256 + 256 * (v / 256 / 256 % 256 + 256 * (v / 256 / 256 / 256 % 256))) = v :=
    fun v hv => by omega
  have hhalf : q.bytes.length % 256 + 256 * (q.bytes.length / 256 % 256) = q.bytes.length := by omega
  have hsize : (Machine.segment ring 0 q q.bytes.length).length = 12 + q.bytes.length := by
    rw [segment_whole]
    simp [le]
    omega
  have hn : rd (Machine.segment ring 0 q q.bytes.length) 2 2 = q.bytes.length := by
    rw [segment_whole]
    simp [le, rd, ofLe, hhalf]
  rw [segsOf, if_neg (by omega)]
  dsimp only
  rw [hn, List.drop_eq_nil_of_le hsize.le, hnil, segment_whole]
  simp [le, rd, ofLe, hword, hseq, hring]

theorem joined_whole (b : List Byte) : joined b.length [(0, b)] = some b := by
  simp [joined, sortBy, insertBy]

/-! ### The manager takes up a worker's records (R388) -/

/-- The last counter and the state of a worker's entry. -/
def heardOf (k pos : Nat) (s : State) : Option Ctr × BitVec 3 := ((getEnt s k pos).last, (getEnt s k pos).state)

/-- The queue of a host ring, and the records not yet whole. -/
def queued (ring : Nat) (s : State) : List QRec × List Join := ((getRing s ring).queue, s.coil.joins)

theorem last_state_of_heardOf {k pos : Nat} {s : State} {a : Option Ctr} {b : BitVec 3} (h : heardOf k pos s = (a, b)) :
    (getEnt s k pos).last = a ∧ (getEnt s k pos).state = b := Prod.mk.inj h

theorem queue_joins_of_queued {ring : Nat} {s : State} {a : List QRec} {b : List Join} (h : queued ring s = (a, b)) :
    (getRing s ring).queue = a ∧ s.coil.joins = b := Prod.mk.inj h

theorem heardOf_rings {s t : State} (h : t.coil.rings = s.coil.rings) (k pos : Nat) : heardOf k pos t = heardOf k pos s := by
  unfold heardOf
  rw [getEnt_rings h]

theorem heardOf_setEnt {k pos : Nat} {e : WEnt} {s : State} (hl : e.last = (getEnt s k pos).last)
    (hs : e.state = (getEnt s k pos).state) : heardOf k pos (setEnt k pos e s) = heardOf k pos s := by
  unfold heardOf
  rw [getEnt_setEnt, hl, hs]

theorem heardOf_sendDown (k pos cls typ : Nat) (b : List Byte) (s : State) :
    heardOf k pos (sendDown k pos cls typ b s) = heardOf k pos s := heardOf_rings (rings_sendDown ..) k pos

theorem heardOf_queueRemote (k pos ring : Nat) (seq : W32) (b : List Byte) (s : State) :
    heardOf k pos (queueRemote k pos ring seq b s) = heardOf k pos s := by
  unfold queueRemote
  extract_lets e new
  split
  · exact (heardOf_rings (raiseView_rings.deliver ..) k pos).trans (heardOf_setEnt rfl rfl)
  · rfl

theorem heardOf_takeSeg (cls k pos : Nat) (s : State) (x : Nat × Nat × Nat × W32 × List Byte) :
    heardOf k pos (takeSeg cls k pos s x) = heardOf k pos s := by
  unfold takeSeg
  dsimp only
  split
  · rfl
  · split
    · exact heardOf_queueRemote ..
    · rfl

theorem heardOf_renewCredit (k pos : Nat) (s : State) : heardOf k pos (renewCredit k pos s) = heardOf k pos s := by
  unfold renewCredit
  extract_lets e r b
  split
  · rfl
  · exact (heardOf_sendDown ..).trans (heardOf_setEnt rfl rfl)

theorem hif_sendDown (k pos cls typ : Nat) (b : List Byte) (s : State) : (sendDown k pos cls typ b s).hif = s.hif := by
  unfold sendDown
  split <;> rfl

theorem joins_sendDown (k pos cls typ : Nat) (b : List Byte) (s : State) :
    (sendDown k pos cls typ b s).coil.joins = s.coil.joins := by
  unfold sendDown
  split <;> rfl

theorem queued_sendDown (ring k pos cls typ : Nat) (b : List Byte) (s : State) :
    queued ring (sendDown k pos cls typ b s) = queued ring s := by
  unfold queued getRing
  rw [hif_sendDown, joins_sendDown]

theorem queued_renewCredit (ring k pos : Nat) (s : State) : queued ring (renewCredit k pos s) = queued ring s := by
  unfold renewCredit
  extract_lets e r b
  split
  · rfl
  · exact queued_sendDown ..

/-- Where a ring has room, a chip that is no worker queues a record on it. -/
theorem deliver_room {ring : Nat} {q : QRec} {s : State} (hw : isWorker s = false)
    (hroom : queueOver ring ((getRing s ring).queue ++ [q]) = false) :
    deliver ring q s = setRing ring { getRing s ring with queue := (getRing s ring).queue ++ [q] } s := by
  simp only [deliver, enqRaw, hw, hroom, Bool.false_eq_true, if_false]

/-- A record in one segment, the first of its ring, is queued as it was. -/
theorem queued_takeSeg_whole {cls k pos ring : Nat} {q : QRec} {s : State} (hfeeds : classFeeds cls ring = true)
    (hlog : q.log = none) (hhold : q.hold = none) (hw : isWorker s = false) (hj : s.coil.joins = [])
    (hnew : tget (getEnt s k pos).newest ring = none) (hroom : queueOver ring ((getRing s ring).queue ++ [q]) = false) :
    queued ring (takeSeg cls k pos s (ring, 3, 0, q.seq, q.bytes)) = ((getRing s ring).queue ++ [q], []) := by
  obtain ⟨seq, bytes, log, hold⟩ := q
  subst hlog hhold
  have htake : takeSeg cls k pos s (ring, 3, 0, seq, bytes) = queueRemote k pos ring seq bytes { s with coil.joins := [] } := by
    simp [takeSeg, hfeeds, hj, joined_whole, Nat.testBit]
  have hq : queueRemote k pos ring seq bytes { s with coil.joins := [] } = deliver ring ⟨seq, bytes, none, none⟩
      (setEnt k pos { getEnt s k pos with newest := tput (getEnt s k pos).newest ring seq } { s with coil.joins := [] }) := by
    unfold queueRemote
    have hn : tget (getEnt { s with coil.joins := [] } k pos).newest ring = none := hnew
    simp only [hn, if_true]
    rfl
  rw [htake, hq, deliver_room (by exact hw) (by exact hroom), queued, getRing_setRing]
  rfl

/-- The same of a frame that holds that one segment. -/
theorem queued_wholeRecord {cls k pos ring : Nat} {q : QRec} {s : State} (hfeeds : classFeeds cls ring = true)
    (hring : ring < 256) (hlen : q.bytes.length ≤ 2036)
    (hlog : q.log = none) (hhold : q.hold = none) (hw : isWorker s = false) (hj : s.coil.joins = [])
    (hnew : tget (getEnt s k pos).newest ring = none) (hroom : queueOver ring ((getRing s ring).queue ++ [q]) = false)
    {p : List Byte} (hp : p = Machine.segment ring 0 q q.bytes.length) :
    queued ring (renewCredit k pos ((segsOf (p.length / 12 + 1) p).foldl (takeSeg cls k pos) s)) =
      ((getRing s ring).queue ++ [q], []) := by
  rw [queued_renewCredit, hp, segsOf_segment hring (by omega), List.foldl_cons, List.foldl_nil]
  exact queued_takeSeg_whole hfeeds hlog hhold hw hj hnew hroom

/-- A frame that the manager takes as a worker's has its effect, with its counter and time noted (R385, R386). -/
theorem managerAuth_fromWorker {cls typ : Nat} {f : Frame} {s : State} (h : fromWorker cls typ f s) (k : State → State) :
    managerAuth cls typ f k s = k (statusNoted f s) := by
  obtain ⟨hf, rfl, rfl, hbad, ⟨key, hkey, htag⟩, hst, hctr⟩ := h
  have henum : ((getEnt s f.ring f.src).state == 2 || (getEnt s f.ring f.src).state == 3
      || (getEnt s f.ring f.src).state == 4) = true := by simpa [or_assoc] using hst
  simp only [managerAuth, hf, hbad, hkey, htag, henum, hctr, bne_self_eq_false, Bool.not_true, Bool.or_self, Bool.false_eq_true,
    if_false]
  rfl

theorem heardOf_statusNoted (f : Frame) (s : State) :
    heardOf f.ring f.src (statusNoted f s) = (some (frameCtr f), (getEnt s f.ring f.src).state) := by
  rw [heardOf, getEnt_statusNoted]

theorem not_worker_of_manager {s : State} (h : isManager s = true) : isWorker s = false := by
  have hrole : s.boot.role = .manager := eq_of_beq h
  rw [isWorker, hrole]
  rfl

theorem not_worker_of_forManager {f : Frame} {s : State} (h : forManager s f = true) : isWorker s = false := by
  simp only [forManager, Bool.and_eq_true] at h
  exact not_worker_of_manager h.1.1.1

theorem boot_sendDown (k pos cls typ : Nat) (b : List Byte) (s : State) : (sendDown k pos cls typ b s).boot = s.boot := by
  unfold sendDown
  split <;> rfl

/-- The state in which the records of a frame are taken up: its bytes off the credit, its counter acknowledged. -/
def recordsAcked (f : Frame) (s : State) : State :=
  sendDown f.ring f.src 1 5 (le 8 f.ctr.toNat)
    (setEnt f.ring f.src { getEnt s f.ring f.src with credR := (getEnt s f.ring f.src).credR - (40 + f.payload.length) } s)

theorem heardOf_recordsAcked (f : Frame) (s : State) : heardOf f.ring f.src (recordsAcked f s) = heardOf f.ring f.src s :=
  (heardOf_sendDown ..).trans (heardOf_setEnt rfl rfl)

theorem queued_setEnt (ring k pos : Nat) (e : WEnt) (s : State) : queued ring (setEnt k pos e s) = queued ring s := rfl

theorem queued_recordsAcked (ring : Nat) (f : Frame) (s : State) : queued ring (recordsAcked f s) = queued ring s :=
  (queued_sendDown ..).trans (queued_setEnt ..)

theorem newest_recordsAcked (f : Frame) (s : State) :
    (getEnt (recordsAcked f s) f.ring f.src).newest = (getEnt s f.ring f.src).newest := by
  rw [recordsAcked, getEnt_rings (rings_sendDown ..), getEnt_setEnt]

theorem ends_reportRecords {f : Frame} {s : State} (h : fromWorker 2 0 f s) : ends (exec (.reportRecords f) s) (fun t =>
    (getEnt t f.ring f.src).last = some (frameCtr f) ∧ (getEnt t f.ring f.src).state = (getEnt s f.ring f.src).state ∧
    (∀ ring, ∀ q : QRec, ring ∈ [2, 3, 4, 5, 12, 14] → q.log = none → q.hold = none → 0 < q.bytes.length →
      q.bytes.length ≤ 2036 → f.payload = Machine.segment ring 0 q q.bytes.length → s.coil.joins = [] →
      tget (getEnt s f.ring f.src).newest ring = none → queueOver ring ((getRing s ring).queue ++ [q]) = false →
      (getRing t ring).queue = (getRing s ring).queue ++ [q] ∧ t.coil.joins = [])) := by
  have hex : exec (.reportRecords f) s = .next (renewCredit f.ring f.src
      ((segsOf (f.payload.length / 12 + 1) f.payload).foldl (takeSeg 2 f.ring f.src) (recordsAcked f (statusNoted f s)))) := by
    simp only [exec, execReportRecords, managerAuth_fromWorker h, recordsAcked]
  have hheard := (heardOf_renewCredit f.ring f.src _).trans <| (foldl_kept (heardOf_takeSeg 2 f.ring f.src)
    (segsOf (f.payload.length / 12 + 1) f.payload) _).trans <|
    (heardOf_recordsAcked f (statusNoted f s)).trans (heardOf_statusNoted f s)
  obtain ⟨hlast, hstate⟩ := last_state_of_heardOf hheard
  refine ends_of hex ⟨hlast, hstate, fun ring q hr hlog hhold _ hlen hp hj hnew hroom => ?_⟩
  have hw : isWorker s = false := not_worker_of_forManager h.1
  have hqs : queued ring (recordsAcked f (statusNoted f s)) = queued ring s :=
    (queued_recordsAcked ..).trans (queued_setEnt ..)
  obtain ⟨hqueue, hjoins⟩ := queue_joins_of_queued hqs
  have hq := queued_wholeRecord (cls := 2) (k := f.ring) (pos := f.src) (s := recordsAcked f (statusNoted f s))
    (List.contains_iff_mem.2 hr) ((List.forall_iff_forall_mem.1 (by decide : [2, 3, 4, 5, 12, 14].Forall (· < 256))) ring hr)
    hlen hlog hhold ?_ (hjoins.trans hj) ?_ (by rw [hqueue]; exact hroom) hp
  · rw [hqueue] at hq
    exact queue_joins_of_queued hq
  · rw [isWorker, recordsAcked, boot_sendDown]
    exact hw
  · rw [newest_recordsAcked, getEnt_statusNoted]
    exact hnew

theorem ends_bulkRecords {f : Frame} {s : State} {ring : Nat} {q : QRec} (hr : ring = 6 ∨ ring = 7)
    (hf : forManager s f = true) (hcls : f.cls = 3) (htyp : f.typ = 0) (hbad : frameBad f = false)
    (hst : (getEnt s f.ring f.src).state = 2 ∨ (getEnt s f.ring f.src).state = 3 ∨ (getEnt s f.ring f.src).state = 4)
    (hlog : q.log = none) (hhold : q.hold = none) (hlen : q.bytes.length ≤ 2036)
    (hp : f.payload = Machine.segment ring 0 q q.bytes.length) (hj : s.coil.joins = [])
    (hnew : tget (getEnt s f.ring f.src).newest ring = none) : ends (exec (.bulkRecords f) s) (fun t =>
      (getRing t ring).queue = (getRing s ring).queue ++ [q] ∧ t.coil.joins = []) := by
  have henum : ((getEnt s f.ring f.src).state == 2 || (getEnt s f.ring f.src).state == 3
      || (getEnt s f.ring f.src).state == 4) = true := by simpa [or_assoc] using hst
  have hex : exec (.bulkRecords f) s = .next (renewCredit f.ring f.src
      ((segsOf (f.payload.length / 12 + 1) f.payload).foldl (takeSeg 3 f.ring f.src) (setEnt f.ring f.src
        { getEnt s f.ring f.src with credB := (getEnt s f.ring f.src).credB - (24 + f.payload.length) } s))) := by
    simp only [exec, execBulkRecords, hf, hcls, htyp, hbad, henum, bne_self_eq_false, Bool.not_true, Bool.or_self,
      Bool.false_eq_true, if_false]
  have hw : isWorker s = false := not_worker_of_forManager hf
  have hq := queued_wholeRecord (cls := 3) (k := f.ring) (pos := f.src) (ring := ring) (s := setEnt f.ring f.src
      { getEnt s f.ring f.src with credB := (getEnt s f.ring f.src).credB - (24 + f.payload.length) } s)
    (by rcases hr with rfl | rfl <;> rfl) (by omega) hlen hlog hhold hw hj
    (by rw [getEnt_setEnt]; exact hnew) (by rcases hr with rfl | rfl <;> rfl) hp
  exact ends_of hex (queue_joins_of_queued hq)

/-- Only the record waited for goes, and only after its 1 s (R388). -/
theorem ends_segmentTimeout (k pos ring : Nat) (seq : W32) (s : State) : ends (exec (.segmentTimeout k pos ring seq) s) (fun t =>
    t = { s with coil := t.coil } ∧ ∀ j, j ∈ t.coil.joins ↔ j ∈ s.coil.joins ∧
      ¬ (j.ring = k ∧ j.pos = pos ∧ j.host = ring ∧ j.seq = seq ∧ 1000 * msSlots ≤ s.slot - j.start)) := by
  refine ⟨_, rfl, rfl, fun j => List.mem_filter.trans (and_congr_right fun _ => ?_)⟩
  simp only [Bool.not_eq_true', ← Bool.not_eq_true, Bool.and_eq_true, beq_iff_eq, decide_eq_true_eq, ge_iff_le, and_assoc]

end Sys2Proof.Proofs

namespace Sys2Proof.Proofs
open Sys2Proof Sys2Proof.Machine Sys2Proof.Laws

/-! ### COMMAND and REPLY (R387) -/

/-- The request of a COMMAND payload. -/
def coilReq (p : List Byte) : Req :=
  ⟨.coil, BitVec.ofNat 32 (rd p 4 4), BitVec.ofNat 32 (rd p 4 4), false, zeros 16, p.drop 8⟩

/-- A worker that is in no fail-stop carries out a command. -/
theorem execCommandFrame_fromManager {f : Frame} {s : State} (h : fromManager 1 0 f s) (hlen : 8 ≤ f.payload.length) :
    exec (.commandFrame f) s = .next (if failed s then downNoted f s else
      match runCommand (rd f.payload 0 1) (rd f.payload 1 1) (coilReq f.payload) (downNoted f s) with
      | some o => outState o (downNoted f s)
      | none => complete (reqWaiter (coilReq f.payload) (rd f.payload 0 1 % 16) (BitVec.ofNat 8 (rd f.payload 1 1)))
          statusBadOpcode 0 [] (downNoted f s)) := by
  have hshort : decide (f.payload.length < 8) = false := decide_eq_false (by omega)
  have hfailed : failed (downNoted f s) = failed s := rfl
  simp only [exec, execCommandFrame, workerAuth_fromManager h, hshort, Bool.false_or, hfailed]
  rfl

theorem execCommandFrame_some {f : Frame} {s : State} (h : fromManager 1 0 f s) (hlen : 8 ≤ f.payload.length)
    (hok : failed s = false) {o : Out}
    (ho : runCommand (rd f.payload 0 1) (rd f.payload 1 1) (coilReq f.payload) (downNoted f s) = some o) :
    exec (.commandFrame f) s = .next (outState o (downNoted f s)) := by
  rw [execCommandFrame_fromManager h hlen, hok, ho]
  rfl

/-- The manager's record of its rings, and the commands that it has passed on. -/
def links (s : State) : Tab CRing × List Fwd := (s.coil.rings, s.hif.fwd)

theorem raiseView_links : RaiseView links where
  blk _ _ _ _ := rfl
  seq _ _ := rfl
  enq r q t := by
    unfold enqRaw
    extract_lets
    repeat' split
    all_goals rfl
  vec v t := by
    unfold sendVector
    repeat' split
    all_goals rfl
  event _ _ _ _ := rfl
  ring _ _ _ := rfl

theorem links_sendUp (cls typ : Nat) (p : List Byte) (s : State) : links (sendUp cls typ p s) = links s := by
  unfold sendUp
  split <;> rfl

/-- The end of a command that was passed on: it waits no more, and the rings stand. -/
theorem links_endFwd (x : Fwd) (st : W16) (data : List Byte) (s : State) :
    links (endFwd x st data s) = (s.coil.rings, s.hif.fwd.filter (fun y => y.mtag != x.mtag)) := by
  unfold endFwd
  extract_lets _ s1 _ s2 seq
  have h2 : links s2 = links s1 := by
    unfold s2
    repeat' split
    all_goals rfl
  split
  · exact (raiseView_links.pushResult links_sendUp ..).trans h2
  · exact (raiseView_links.complete links_sendUp ..).trans h2

theorem rings_fwd_of_links {s : State} {a : Tab CRing} {b : List Fwd} (h : links s = (a, b)) :
    s.coil.rings = a ∧ s.hif.fwd = b := Prod.mk.inj h

/-- A state in which a worker's counter is noted and a command passed on has ended. -/
theorem ended_of_links {f : Frame} {x : Fwd} {s t : State}
    (h : links t = ((statusNoted f s).coil.rings, (statusNoted f s).hif.fwd.filter (fun y => y.mtag != x.mtag))) :
    (getEnt t f.ring f.src).last = some (frameCtr f) ∧ ∀ y ∈ t.hif.fwd, y.mtag ≠ x.mtag := by
  obtain ⟨hrings, hfwd⟩ := rings_fwd_of_links h
  refine ⟨by rw [getEnt_rings hrings, getEnt_statusNoted], fun y hy => ?_⟩
  rw [hfwd] at hy
  exact bne_iff_ne.1 (List.mem_filter.1 hy).2

theorem ends_replyFrame {f : Frame} {x : Fwd} {s : State} (h : fromWorker 1 1 f s)
    (hx : fwdOf s f.ring f.src (BitVec.ofNat 32 (rd f.payload 4 4)) = some x) (hop : rd f.payload 1 1 = x.op.toNat) :
    ends (exec (.replyFrame f) s) (fun t => (getEnt t f.ring f.src).last = some (frameCtr f) ∧
      ∀ y ∈ t.hif.fwd, y.mtag ≠ x.mtag) := by
  have hfind : fwdOf (statusNoted f s) f.ring f.src (BitVec.ofNat 32 (rd f.payload 4 4)) = some x := hx
  have hex : exec (.replyFrame f) s =
      .next (endFwd x (BitVec.ofNat 16 (rd f.payload 2 2)) (f.payload.drop 8) (statusNoted f s)) := by
    simp only [exec, execReplyFrame, managerAuth_fromWorker h, hfind, hop, beq_self_eq_true, if_true]
  exact ends_of hex (ended_of_links (links_endFwd ..))

/-! ### Images (R391, R411) -/

/-- The frames of a broadcast only leave. -/
theorem castOut (g : List Byte → Frame) (l : List (List Byte)) (s : State) :
    ∃ o, l.foldl (fun t p => emit (.frame (g p)) t) s = { s with out := o } := by
  induction l generalizing s with
  | nil => exact ⟨_, rfl⟩
  | cons p l ih =>
    obtain ⟨o, ho⟩ := ih (emit (.frame (g p)) s)
    exact ⟨o, ho⟩

theorem execImageNeed_forManager {f : Frame} {s : State} (hf : forManager s f = true) (hcls : f.cls = 0) (htyp : f.typ = 5)
    (hbad : frameBad f = false) : exec (.imageNeed f) s = .next (broadcast f.ring s) := by
  simp only [exec, execImageNeed, hf, hcls, htyp, hbad, bne_self_eq_false, Bool.not_true, Bool.or_self, Bool.false_eq_true,
    if_false]

/-- An image is not broadcast before the manager has fired, nor within 100 ms of the last time (R391). -/
theorem broadcast_refused {k : Nat} {s : State} (h : s.boot.fired = false ∨
    ∃ t, (getCRing s k).lastCast = some t ∧ s.slot - t < 100 * msSlots) : broadcast k s = s := by
  unfold broadcast
  dsimp only
  rw [if_pos]
  rcases h with h | ⟨t, ht, hage⟩
  · rw [h]; rfl
  · rw [ht, Option.any_some, decide_eq_true hage, Bool.or_true]

theorem broadcast_due {k : Nat} {s : State} (hfired : s.boot.fired = true) (hen : ringEn s k = true)
    (hdue : ∀ t, (getCRing s k).lastCast = some t → 100 * msSlots ≤ s.slot - t) :
    ∃ o, broadcast k s = { setCRing k { getCRing s k with lastCast := some s.slot } s with out := o } := by
  have hlast : (getCRing s k).lastCast.any (fun t => decide (s.slot - t < 100 * msSlots)) = false :=
    (Option.any_eq_false _ _).2 fun t ht => decide_eq_false (Nat.not_lt.2 (hdue t ht))
  unfold broadcast
  simp only [hfired, hen, hlast, Bool.not_true, Bool.or_self, Bool.false_eq_true, if_false]
  exact castOut _ _ _

theorem imageNeedTimer_asks {s : State} (hw : isWorker s = true) (hst : s.boot.st = .greenware ∨ s.boot.st = .hold)
    (hfired : s.boot.fired = false) (himg : imageComplete s = false)
    (hwait : ∀ t, s.boot.refusedSlot = some t → t + 245760000 ≤ s.slot) : exec .imageNeedTimer s = .next (sendNeed s) := by
  have hneed : needWaited s = true := by
    unfold needWaited
    split
    next t ht => exact decide_eq_true (hwait t ht)
    · rfl
  have hboot : (s.boot.st == .greenware || s.boot.st == .hold) = true := by simpa using hst
  simp only [exec, execImageNeedTimer, hw, hboot, hfired, himg, hneed, Bool.not_false, Bool.and_self, if_true]

theorem imageNeedTimer_waits {s : State} (h : imageComplete s = true ∨ ∃ t, s.boot.refusedSlot = some t ∧ s.slot < t + 245760000) :
    exec .imageNeedTimer s = .next s := by
  refine congrArg _ (if_neg fun hc => ?_)
  simp only [Bool.and_eq_true, Bool.not_eq_true'] at hc
  obtain ⟨⟨-, himg⟩, hneed⟩ := hc
  rcases h with h | ⟨t, ht, hearly⟩
  · rw [h] at himg; cases himg
  · simp only [needWaited, ht, decide_eq_true_eq] at hneed
    omega

/-! ### KEY frames at the manager (R442) -/

/-- A result that answers a passed-on request ends it; its record goes to Ring 10 as it was. -/
theorem links_keyResult {f : Frame} {x : Fwd} {s : State} (h : keyFwd s f.ring f.src (rd f.payload 10 1) = some x) :
    links (keyResult f s) = (s.coil.rings, s.hif.fwd.filter (fun y => y.mtag != x.mtag)) := by
  unfold keyResult
  dsimp only
  rw [h]
  exact raiseView_links.pushResult links_sendUp ..

theorem exec_keyFrame_manager {f : Frame} {s : State} (hm : isManager s = true) (hcls : f.cls = 1) (htyp : f.typ = 6) :
    exec (.keyFrame f) s = .next (keyAtManager f s) := by
  simp only [exec, execKeyFrame, hcls, htyp, not_worker_of_manager hm, hm, bne_self_eq_false, Bool.or_self,
    Bool.false_eq_true, if_false, if_true]

theorem envelopeResult_record (f : Frame) (s : State) : ∃ q,
    envelopeResult f s = deliver 10 q { s with free := s.free + 1, sgr.seq := s.sgr.seq + 1 } := ⟨_, rfl⟩

section AtManager
variable {f : Frame} {s : State} (hup : bit f.flags 1 = true) (hlen : 12 ≤ f.payload.length) (hdir : rd f.payload 8 1 = 1)
  (hring : f.ring = f.port / 2) (hen : ringEn s f.ring = true) (hbad : frameBad f = false)
include hup hlen hdir hring hen hbad

theorem keyAtManager_sound : keyAtManager f s = if rd f.payload 9 1 == 0 then keyAtManager.managerAuthKey f s
    else if f.session == 0xFFFFFFFF then envelopeResult f s else s := by
  have hshort : decide (f.payload.length < 12) = false := decide_eq_false (by omega)
  have hport : (f.ring != f.port / 2) = false := bne_eq_false_iff_eq.2 hring
  simp only [keyAtManager, hup, hshort, hdir, hport, hen, hbad, bne_self_eq_false, Bool.not_true, Bool.or_self,
    Bool.false_eq_true, if_false]

theorem keyAtManager_keyed {key : List Byte} (hroute : rd f.payload 9 1 = 0) (hkey : upKey s f.ring f.src = some key)
    (htag : tagOk key f = true) (hctr : ctrAfter (frameCtr f) (getEnt s f.ring f.src).last = true) :
    keyAtManager f s = keyResult f (statusNoted f s) := by
  rw [keyAtManager_sound hup hlen hdir hring hen hbad, hroute]
  simp only [keyAtManager.managerAuthKey, hkey, htag, hctr, beq_self_eq_true, Bool.not_true, Bool.false_eq_true, if_false, if_true]
  rfl

/-- An envelope result is one record more on Ring 10. -/
theorem keyAtManager_envelope (hm : isManager s = true) (hroute : rd f.payload 9 1 ≠ 0) (hses : f.session = 0xFFFFFFFF) :
    (keyAtManager f s).sgr.seq = s.sgr.seq + 1 ∧
    (getRing (keyAtManager f s) 10).queue.length = (getRing s 10).queue.length + 1 := by
  have hw : isWorker s = false := not_worker_of_manager hm
  obtain ⟨q, hq⟩ := envelopeResult_record f s
  rw [keyAtManager_sound hup hlen hdir hring hen hbad, if_neg (by simpa using hroute), hses, beq_self_eq_true, if_pos rfl, hq,
    deliver_room (by exact hw) rfl]
  exact ⟨rfl, by rw [getRing_setRing]; exact List.length_append⟩

end AtManager

end Sys2Proof.Proofs

namespace Sys2Proof.Proofs
open Sys2Proof Sys2Proof.Machine Sys2Proof.Laws

/-! ### Saggar requests leave the exchange with the manager (R439, R442) -/

theorem exchange_writeRelay (s : State) : exchange (writeRelay s) = exchange s := by
  unfold writeRelay ownWrite
  split <;> rfl

theorem exchange_sendKey (route : Nat) (op : Byte) (data : List Byte) (s : State) :
    exchange (sendKey route op data s) = exchange s := by
  unfold sendKey
  extract_lets p
  split
  · split <;> rfl
  · exact exchange_writeRelay { s with sgr.envUp := s.sgr.envUp + 1 }

theorem exchange_sagDone (r : SReq) (st : W16) (body : List Byte) (s : State) : exchange (sagDone r st body s) = exchange s := by
  unfold sagDone
  extract_lets q b _ s1
  split
  · exact raiseView_exchange.pushResult exchange_sendUp 10 q b r.w _ s1
  · exact exchange_sendKey r.route r.w.op b s1

theorem exchange_sagWait (r : SReq) (op : KeyOp) (s : State) : exchange (sagWait r op s) = exchange s := by
  unfold sagWait
  extract_lets _ s1
  split
  · exact raiseView_exchange.waitReq r.w s1
  · rfl

theorem exchange_changeRefuse (r : SReq) (st : W16) (s : State) : exchange (changeRefuse r st s) = exchange s := by
  unfold changeRefuse
  dsimp only
  refine (exchange_sagDone ..).trans ?_
  split
  · exact exchange_raise (b := 13) (i := 5) (by decide) _
  · split
    · exact exchange_raise (b := 13) (i := 5) (by decide) _
    · rfl

theorem exchange_sagKeyErase (r : SReq) (s : State) : exchange (sagKeyErase r s) = exchange s := by
  unfold sagKeyErase
  dsimp only
  split
  · exact exchange_sagDone ..
  · split
    · exact exchange_sagDone ..
    · exact (exchange_sagDone ..).trans (raiseView_exchange.event ..)

theorem exchange_sagRandom (r : SReq) (s : State) : exchange (sagRandom r s) = exchange s := by
  unfold sagRandom
  dsimp only
  split
  · exact exchange_sagDone ..
  · split
    · exact exchange_sagDone ..
    · exact exchange_sagDone ..

theorem exchange_sagOwn (op : Nat) (r : SReq) (s : State) : exchange (sagOwn op r s) = exchange s := by
  unfold sagOwn
  split
  case h_1 =>
    unfold sagAttest
    split
    · exact exchange_sagDone ..
    · exact exchange_sagWait ..
  case h_3 =>
    unfold sagGuardChange
    split
    · exact exchange_changeRefuse ..
    · exact exchange_sagWait ..
  case h_5 =>
    unfold sagKeyLoad
    split
    · exact exchange_sagDone ..
    · exact exchange_sagWait ..
  case h_6 => exact exchange_sagKeyErase r s
  case h_7 =>
    unfold sagKeyInfo
    dsimp only
    split <;> exact exchange_sagDone ..
  case h_8 => exact exchange_sagRandom r s
  all_goals exact exchange_sagDone ..

theorem exchange_keyRequest (route : Nat) (p : List Byte) (s : State) : exchange (keyRequest route p s) = exchange s := by
  have hdone : ∀ r st, exchange (sagDone r st [] (drawNat s).2) = exchange s := fun r st => exchange_sagDone r st [] _
  unfold keyRequest
  exact RaiseView.ite_fst rfl <| RaiseView.ite_fst (hdone ..) <| RaiseView.ite_fst (hdone ..) <|
    RaiseView.ite_fst (hdone ..) (exchange_sagOwn ..)

/-! ### KEY frames at a worker (R442) -/

theorem exec_keyFrame_worker {f : Frame} {s : State} (hw : isWorker s = true) (hcls : f.cls = 1) (htyp : f.typ = 6) :
    exec (.keyFrame f) s = .next (keyAtWorker f s) := by
  simp only [exec, execKeyFrame, hcls, htyp, hw, bne_self_eq_false, Bool.or_self, Bool.false_eq_true, if_false, if_true]

theorem keyAtWorker_foreign {f : Frame} {s : State} (h : f.payload.take 8 ≠ identBytes) : keyAtWorker f s = s := by
  simp only [keyAtWorker, bne_iff_ne.2 h, Bool.or_true, Bool.true_or, if_true]

section AtWorker
variable {f : Frame} {s : State} (hdst : f.dst = 0xFF) (hlen : 12 ≤ f.payload.length)
  (hid : f.payload.take 8 = identBytes) (hdir : rd f.payload 8 1 = 0)
include hdst hlen hid hdir

theorem keyAtWorker_named (hbad : frameBad f = false) : keyAtWorker f s =
    if rd f.payload 9 1 == 0 then workerAuth 1 6 f (keyRequest 1 f.payload) s
    else if f.session != 0xFFFFFFFF || rd f.payload 9 1 != 1 || !envelopeOp (rd f.payload 10 1) then s
    else if !tagOk kFdn f then rejectTag s
    else if f.ctr.toNat ≤ s.sgr.envDown.toNat then rejectReplay s
    else keyRequest 2 f.payload (writeRelay { s with sgr.envDown := f.ctr }) := by
  have hshort : decide (f.payload.length < 12) = false := decide_eq_false (by omega)
  simp only [keyAtWorker, hdst, hshort, hid, hdir, hbad, bne_self_eq_false, Bool.or_self, Bool.false_eq_true, if_false]

/-- Under the ring keys the frame's counter is the last one, whatever the request ends in. -/
theorem keyAtWorker_ringKey (hroute : rd f.payload 9 1 = 0) (h : fromManager 1 6 f s) :
    (keyAtWorker f s).coil.w.down = some (frameCtr f) := by
  have hbad : frameBad f = false := h.2.2.2.1
  rw [keyAtWorker_named hdst hlen hid hdir hbad, hroute, beq_self_eq_true, if_pos rfl, workerAuth_fromManager h]
  exact (exchange_downNoted h (exchange_keyRequest ..)).1

section Envelope
variable (hroute : rd f.payload 9 1 = 1) (hbad : frameBad f = false) (hses : f.session = 0xFFFFFFFF)
  (hop : envelopeOp (rd f.payload 10 1) = true) (htag : tagOk kFdn f = true)
include hroute hbad hses hop htag

theorem keyAtWorker_enveloped : keyAtWorker f s = if f.ctr.toNat ≤ s.sgr.envDown.toNat then rejectReplay s
    else keyRequest 2 f.payload (writeRelay { s with sgr.envDown := f.ctr }) := by
  rw [keyAtWorker_named hdst hlen hid hdir hbad, hroute, hses, hop, htag]
  rfl

theorem keyAtWorker_envelope_new (hctr : s.sgr.envDown.toNat < f.ctr.toNat) : (keyAtWorker f s).sgr.envDown = f.ctr := by
  rw [keyAtWorker_enveloped hdst hlen hid hdir hroute hbad hses hop htag, if_neg (by omega)]
  exact congrArg Exchange.envDown ((exchange_keyRequest ..).trans (exchange_writeRelay _))

/-- A counter at or below the last one is a replay: counted and raised (R386). -/
theorem keyAtWorker_envelope_replayed (hctr : f.ctr.toNat ≤ s.sgr.envDown.toNat) :
    (keyAtWorker f s).sgr.envDown = s.sgr.envDown ∧ (keyAtWorker f s).coil.replay = satInc s.coil.replay ∧
      latched 12 7 (keyAtWorker f s) := by
  rw [keyAtWorker_enveloped hdst hlen hid hdir hroute hbad hses hop htag, if_pos hctr]
  have hkept : exchange (rejectReplay s) = { exchange s with replay := satInc s.coil.replay } :=
    exchange_raise (b := 12) (i := 7) (by decide) _
  exact ⟨congrArg Exchange.envDown hkept, congrArg Exchange.replay hkept, latched_raise _ (by decide)⟩

end Envelope
end AtWorker

/-- Settles O57: clause by clause, from what each frame leaves of the worker's exchange with its manager, of the manager's
entry of that worker, of the queues and of the commands passed on. -/
theorem coilTraffic : Obligations.CoilTraffic := by
  unfold Obligations.CoilTraffic
  intro f s p
  refine ⟨ends_creditFrame, ends_ackFrame,
    fun c x hw hx hk => ⟨ends_reportRetransmit hw hx hk, execReportRetransmit_early hw hx⟩, ends_reportRecords,
    fun ring q hr hf hcls htyp hbad hst hlog hhold _ hlen hp hj hnew =>
      ends_bulkRecords hr hf hcls htyp hbad hst hlog hhold hlen hp hj hnew,
    fun k pos ring seq => ends_segmentTimeout k pos ring seq s, fun h hlen => ?_,
    fun x h hx hop => ends_replyFrame h hx hop, fun hf hcls htyp hbad => ?_,
    fun hw hst hfired => ⟨imageNeedTimer_asks hw hst hfired, imageNeedTimer_waits⟩, fun hw hcls htyp => ?_,
    fun hm hcls htyp hup hlen hdir hring hen hbad => ?_⟩
  · refine ⟨fun hfail => ?_, fun hok => ⟨fun o => execCommandFrame_some h hlen hok, fun h0 h4 => ?_, fun h11 h61 => ?_,
      fun hnone => ?_⟩⟩
    · rw [execCommandFrame_fromManager h hlen, hfail]
      rfl
    · refine execCommandFrame_some h hlen hok (o := execTripClear (coilReq f.payload) (downNoted f s)) ?_
      rw [h0, h4]
      rfl
    · refine execCommandFrame_some h hlen hok (o := execCreditEc (coilReq f.payload) (downNoted f s)) ?_
      rw [h11, h61]
      rfl
    · have hno : runCommand (rd f.payload 0 1) (rd f.payload 1 1) (coilReq f.payload) (downNoted f s) = none := hnone
      rw [execCommandFrame_fromManager h hlen, hok, hno]
      rfl
  · have hen : ringEn s f.ring = true := by
      simp only [forManager, Bool.and_eq_true] at hf
      exact hf.2
    refine ⟨fun h => (execImageNeed_forManager hf hcls htyp hbad).trans (congrArg _ (broadcast_refused h)), fun hfired hdue => ?_⟩
    obtain ⟨o, ho⟩ := broadcast_due hfired hen hdue
    refine ends_of ((execImageNeed_forManager hf hcls htyp hbad).trans (congrArg _ ho)) ⟨?_, rfl⟩
    exact congrArg CRing.lastCast (getCRing_setCRing ..)
  · refine ⟨fun hid => (exec_keyFrame_worker hw hcls htyp).trans (congrArg _ (keyAtWorker_foreign hid)),
      fun hdst hlen hid hdir => ⟨fun hroute h => ?_, fun hroute hbad hses hop htag => ⟨fun hctr => ?_, fun hctr => ?_⟩⟩⟩
    · exact ends_of (exec_keyFrame_worker hw hcls htyp) (keyAtWorker_ringKey hdst hlen hid hdir hroute h)
    · exact ends_of (exec_keyFrame_worker hw hcls htyp)
        (keyAtWorker_envelope_new hdst hlen hid hdir hroute hbad hses hop htag hctr)
    · exact ends_of (exec_keyFrame_worker hw hcls htyp)
        (keyAtWorker_envelope_replayed hdst hlen hid hdir hroute hbad hses hop htag hctr)
  · refine ⟨fun key x hroute hkey htag hctr hx => ?_, fun hroute hses => ?_⟩
    · refine ends_of (exec_keyFrame_manager hm hcls htyp) (ended_of_links (s := s) ?_)
      rw [keyAtManager_keyed hup hlen hdir hring hen hbad hroute hkey htag hctr]
      exact links_keyResult hx
    · exact ends_of (exec_keyFrame_manager hm hcls htyp)
        (keyAtManager_envelope hup hlen hdir hring hen hbad hm hroute hses)

end Sys2Proof.Proofs

namespace Sys2Proof.Proofs
open Sys2Proof Sys2Proof.Machine Sys2Proof.Laws

/-! ### The end of POR and FUSE (R398, R400) -/

/-- What the end of POR fixes: the session's first slot, the straps, the clock's block and the muting of the monitors. -/
def porMarks (s : State) : Nat × BitVec 2 × Rtc × Bool := (s.porSlot, s.boot.strap, s.rtc, s.tmp.muted)

/-- `t` follows `s` within FUSE: what the end of POR fixed stands, and nothing leads back to POR. -/
def FuseKeeps (s t : State) : Prop := porMarks t = porMarks s ∧ (s.boot.st ≠ .por → t.boot.st ≠ .por)

theorem FuseKeeps.refl (s : State) : FuseKeeps s s := ⟨rfl, id⟩

theorem FuseKeeps.trans {s t u : State} (h : FuseKeeps s t) (k : FuseKeeps t u) : FuseKeeps s u := by
  obtain ⟨hmarks, hpor⟩ := h
  obtain ⟨kmarks, kpor⟩ := k
  exact ⟨kmarks.trans hmarks, fun hs => kpor (hpor hs)⟩

theorem porMarks_of_hide {μ : Mask} {s t : State} (h : hide μ t = hide μ s) (hp : μ.porSlot = false) (hb : μ.boot = false)
    (hr : μ.rtc = false) (ht : μ.tmp = false) : porMarks t = porMarks s := by
  simp only [porMarks, same_porSlot h hp, same_bootField Boot.strap (fun _ _ => rfl) h hb, same_rtc h hr, same_tmp h ht]

/-- An operation on other blocks. -/
theorem fuseKeeps_of_hide {μ : Mask} {s t : State} (h : hide μ t = hide μ s) (hp : μ.porSlot = false) (hb : μ.boot = false)
    (hs : μ.bootSt = false) (hr : μ.rtc = false) (ht : μ.tmp = false) : FuseKeeps s t :=
  ⟨porMarks_of_hide h hp hb hr ht, fun h0 => by rwa [same_bootSt h hs]⟩

/-- A raise leads to a fail-stop or leaves the boot state. -/
theorem fuseKeeps_raise (b i : Nat) (s : State) : FuseKeeps s (raise b i s) := by
  refine ⟨porMarks_of_hide (@hide_raise faultBlocks ⟨rfl⟩ ⟨rfl⟩ ⟨rfl⟩ ⟨rfl⟩ ⟨rfl⟩ ⟨rfl⟩ ⟨rfl⟩ b i s) rfl rfl rfl rfl, fun hs => ?_⟩
  have hst : (raise b i s).boot.st = _ := congrArg Prod.snd (stop_raise b i s)
  rw [hst]
  split
  · decide
  · exact hs

theorem fuseKeeps_raiseLive (b i : Nat) (s : State) : FuseKeeps s (raiseLive b i s) := by
  unfold raiseLive
  split
  · exact .refl s
  · exact (fuseKeeps_of_hide (@hide_modBlk { flt := true } ⟨rfl⟩ b _ s) rfl rfl rfl rfl rfl).trans (fuseKeeps_raise b i _)

theorem fuseKeeps_resolveJournal (s : State) : FuseKeeps s (resolveJournal s) := by
  unfold resolveJournal
  split
  · exact .refl s
  · split
    · exact fuseKeeps_raise 9 5 { s with nvs.journal := none, nvs.journalBad := false }
    · exact ⟨rfl, id⟩

/-- The blocks in which the keys of the slots are derived. -/
def keyBlocks : Mask := { free := true, nvs := true, sgr := true }

theorem fuseKeeps_keys {s t : State} (h : hide keyBlocks t = hide keyBlocks s) : FuseKeeps s t :=
  fuseKeeps_of_hide h rfl rfl rfl rfl rfl

theorem fuseKeeps_fuseRoot (g : List Byte) (s : State) : FuseKeeps s (fuseRoot g s) := by
  unfold fuseRoot
  split
  · exact fuseKeeps_keys (@hide_deriveRoot keyBlocks ⟨rfl⟩ ⟨rfl⟩ _ _)
  · exact (fuseKeeps_raise 13 1 s).trans (fuseKeeps_keys (@hide_blockEvent keyBlocks ⟨rfl⟩ 13 4 _ _))

theorem fuseKeeps_fuseSlot (s : State) (i : Nat) : FuseKeeps s (fuseSlot s i) := by
  have hset : ∀ x u, FuseKeeps u (setSlot i x u) := fun x u => fuseKeeps_keys (@hide_setSlot keyBlocks ⟨rfl⟩ i x u)
  unfold fuseSlot
  dsimp only
  split
  · split
    · exact .refl s
    · exact hset _ s
  · split
    · exact (fuseKeeps_keys (@hide_mkShare keyBlocks ⟨rfl⟩ ⟨rfl⟩ _ s)).trans (hset _ _)
    · split
      · exact .refl s
      · exact (hset _ s).trans (fuseKeeps_raise 13 2 _)

theorem fuseKeeps_fuseSlots (s : State) : FuseKeeps s (fuseSlots s) := by
  unfold fuseSlots
  generalize (if isWorker s && s.sgr.keyed then [5, 6] else []) ++ (List.range 55).map (· + 9) = l
  induction l generalizing s with
  | nil => exact .refl s
  | cons i l ih => exact (fuseKeeps_fuseSlot s i).trans (ih _)

theorem fuseKeeps_fuseSaggar (s : State) : FuseKeeps s (fuseSaggar s) := by
  unfold fuseSaggar
  split
  · exact fuseKeeps_raise 13 3 s
  · exact fuseKeeps_raise 13 4 s
  · next g a _ _ =>
    have hkeyed := ((fuseKeeps_keys (@hide_fuseIdent keyBlocks ⟨rfl⟩ ⟨rfl⟩ ⟨rfl⟩ g a s)).trans
      (fuseKeeps_fuseRoot g _)).trans (fuseKeeps_fuseSlots _)
    refine hkeyed.trans ?_
    generalize fuseSlots (fuseRoot g (fuseIdent g a s)) = u
    exact ⟨rfl, id⟩

/-- The role is decided on (R20, R22). -/
theorem fuseKeeps_role (role : Role) (s : State) : FuseKeeps s { s with boot.role := role } := ⟨rfl, id⟩

/-- Steps 2 and 3 of FUSE (R400). -/
theorem fuseKeeps_fuseSteps (role : Role) (s : State) : FuseKeeps s (fuseSteps role s) := by
  have hsaggar : FuseKeeps s (fuseSaggar { resolveJournal s with boot.role := role }) :=
    ((fuseKeeps_resolveJournal s).trans (fuseKeeps_role role _)).trans (fuseKeeps_fuseSaggar _)
  refine hsaggar.trans ?_
  unfold fuseSteps
  generalize fuseSaggar { resolveJournal s with boot.role := role } = u
  exact ⟨rfl, id⟩

/-- A chip that its lock keeps away from the strapped role enters HOLD (R22). -/
theorem fuseKeeps_hold (s : State) : FuseKeeps s { s with boot := { s.boot with st := .hold, holdCause := 1 } } :=
  ⟨rfl, fun _ => BootSt.noConfusion⟩

/-- A chip that waits for no ring enters CAL. -/
theorem fuseKeeps_cal (s : State) : FuseKeeps s (if isWorker s then s else { s with boot := { s.boot with st := .cal } }) := by
  split
  · exact .refl s
  · exact ⟨rfl, fun _ => BootSt.noConfusion⟩

/-- Steps 4 and 5 of FUSE lead to HOLD, CAL or a fail-stop, or the worker waits for its ring (R400). -/
theorem fuseKeeps_fuseRole (away : Bool) (s : State) : FuseKeeps s (fuseRole away s) := by
  have hstart : FuseKeeps s (wheelStart (loadSubsts (portsOn s))) :=
    fuseKeeps_of_hide (μ := { coil := true, afe := true, whl := true })
      (((@hide_wheelStart _ ⟨rfl⟩ _).trans (@hide_loadSubsts _ ⟨rfl⟩ _)).trans (@hide_portsOn _ ⟨rfl⟩ s)) rfl rfl rfl rfl rfl
  have hwarned : ∀ u, FuseKeeps u (if strapMismatch u then raiseLive 17 0 u else u) := fun u => by
    split
    · exact fuseKeeps_raiseLive 17 0 u
    · exact .refl u
  unfold fuseRole
  generalize wheelStart (loadSubsts (portsOn s)) = u at hstart ⊢
  split
  · exact .refl s
  · split
    · exact fuseKeeps_raise 17 1 s
    · refine hstart.trans ?_
      cases away
      · exact (hwarned u).trans (fuseKeeps_cal _)
      · exact (fuseKeeps_hold u).trans (fuseKeeps_raiseLive 17 0 _)

/-- The straps are sampled at the end of POR. -/
def porEnded (straps : BitVec 2) (s : State) : State :=
  { s with
    porSlot := s.slot
    boot := { s.boot with st := .fuse, strap := straps, resetnLow := false }
    rtc := { s.rtc with bkpReset := s.rtc.resetSeen, onVbat := false }
    tmp.muted := false }

/-- The mark of a backup reset is raised (R315). -/
def porReported (straps : BitVec 2) (s : State) : State :=
  if (porEnded straps s).rtc.bkpReset then raise 10 0 (porEnded straps s) else porEnded straps s

theorem fuseKeeps_porReported (straps : BitVec 2) (s : State) : FuseKeeps (porEnded straps s) (porReported straps s) := by
  unfold porReported
  split
  · exact fuseKeeps_raise 10 0 _
  · exact .refl _

theorem phase_porReported (straps : BitVec 2) (s : State) : (porReported straps s).flt.phase = s.flt.phase := by
  unfold porReported
  split
  · have hstop := stop_raise 10 0 (porEnded straps s)
    rw [if_neg (by simp [srcClass])] at hstop
    exact congrArg Prod.fst hstop
  · rfl

/-- FUSE with the role that the lock or the straps give. -/
def fused (s : State) : State := fuseRole (lockedAway s).isSome (fuseSteps ((lockedAway s).getD (strapRole s)) s)

theorem fuseKeeps_fused (s : State) : FuseKeeps s (fused s) := (fuseKeeps_fuseSteps _ s).trans (fuseKeeps_fuseRole _ _)

theorem execPorEnd_por {s : State} (h : s.boot.st = .por) (straps : BitVec 2) (ok : Bool) : execPorEnd straps ok s =
    .next (if !ok then raise 17 2 (porReported straps s) else fused (porReported straps s)) := by
  unfold execPorEnd
  rw [if_neg (by simp [h])]
  rfl

theorem ends_porEnd {straps : BitVec 2} {s : State} (h : s.boot.st = .por) : ends (execPorEnd straps true s) (fun t =>
    t.porSlot = s.slot ∧ t.boot.strap = straps ∧ t.boot.st ≠ .por ∧ t.rtc.onVbat = false ∧
    t.rtc.bkpReset = s.rtc.resetSeen ∧ t.tmp.muted = false) := by
  have hexec : execPorEnd straps true s = .next (fused (porReported straps s)) := execPorEnd_por h straps true
  refine ends_of hexec ?_
  obtain ⟨hmarks, hpor⟩ := (fuseKeeps_porReported straps s).trans (fuseKeeps_fused _)
  simp only [porMarks, Prod.mk.injEq] at hmarks
  obtain ⟨hslot, hstrap, hrtc, hmuted⟩ := hmarks
  exact ⟨hslot, hstrap, hpor (by simp [porEnded]), congrArg Rtc.onVbat hrtc, congrArg Rtc.bkpReset hrtc, hmuted⟩

/-! ### The backup supply (R314, R315) -/

theorem ends_backupReset (s : State) : ends (execBackupReset s) (fun t =>
    t.rtc.s = 0 ∧ t.rtc.pre = 0 ∧ t.rtc.invalid = true ∧ t.rtc.inReset = true ∧ t.rtc.staged = none ∧ t.rtc.fifo = [] ∧
    t.tmp.log = [] ∧ t.sgr.rootA = Init.rootCopy ∧ t.sgr.rootB = Init.rootCopy ∧ t.flt.prev = 0 ∧ t.boot.cause = 1 ∧
    t.pin = s.pin ∧ t.nvs = s.nvs ∧ t.pnt = s.pnt ∧ t.trf = s.trf ∧ t.crd = s.crd ∧ t.hif = s.hif) := by
  refine ends_of rfl ?_
  simp only [noteQual_rtc, noteQual_tmp, noteQual_sgr, noteQual_flt, noteQual_boot, noteQual_pin, noteQual_nvs,
    noteQual_pnt, noteQual_trf, noteQual_crd, noteQual_hif, Init.rtc, and_self]

/-- Settles O8: the commands of the backup domain by their meaning, the end of POR by what FUSE keeps of it, and the parity
error as a GRAVE raise. -/
theorem backupAndFuse : Obligations.BackupAndFuse := by
  unfold Obligations.BackupAndFuse
  refine ⟨fun s => ⟨fun h => ?_, fun h => ?_, fun h => ?_, ends_backupReset s, fun h => ?_⟩,
    fun straps s h => ⟨ends_porEnd h, fun hp => ?_⟩⟩
  · simp [exec, execBackupEnter, h]
  · simp [exec, execBackupSwitchover, h]
  · simp [exec, execBackupSwitchover, h]
  · simp [exec, execBackupResetEnd, h]
  · obtain ⟨hlatched, hst⟩ := raise_grave (b := 17) (i := 2) rfl ((phase_porReported straps s).trans hp)
    exact ends_of (execPorEnd_por h straps false) ⟨hst, hlatched⟩

end Sys2Proof.Proofs

namespace Sys2Proof.Proofs
open Sys2Proof Sys2Proof.Machine Sys2Proof.Laws

/-! ### RTC_SET (R321) -/

section RtcSet
variable {r : Req} {s : State} (h : ownRing0 16 r s) (h1 : zerosAt r.buf 1 3 = true) (h14 : zerosAt r.buf 14 2 = true)

include h h1 h14

/-- A shift of the clock is staged. -/
theorem execRtcSet_shift (hst : s.rtc.staged = none) (hi : s.rtc.invalid = false) (hmode : rd r.buf 0 1 = 1)
    (hofs : rdI r.buf 4 8 % 2 = 0) (hfrac : rd r.buf 12 2 = 0) :
    execRtcSet r s = .next (waitReq (reqWaiter r 0 0x38) { s with
      rtc.staged := some ⟨false, some (reqWaiter r 0 0x38), false⟩, rtc.ofs := BitVec.ofInt 64 (rdI r.buf 4 8) }) := by
  rw [execRtcSet, ring0_ownRing0 h]
  simp [rtcSet, firstBad, hst, hi, hmode, hofs, hfrac, h1, h14]

/-- A date that exists is staged. -/
theorem execRtcSet_date (hst : s.rtc.staged = none) (hmode : rd r.buf 0 1 = 0) (h11 : rd r.buf 11 1 = 0)
    (hfrac : rd r.buf 12 2 % 2 = 0)
    (hok : dateOk (rd r.buf 4 2) (rd r.buf 6 1) (rd r.buf 7 1) (rd r.buf 8 1) (rd r.buf 9 1) (rd r.buf 10 1) = true) :
    execRtcSet r s = .next (waitReq (reqWaiter r 0 0x38) { s with
      rtc.staged := some ⟨true, some (reqWaiter r 0 0x38), false⟩
      rtc.stage0 := BitVec.ofNat 32 (rd r.buf 8 1 * 2 ^ 16 + rd r.buf 9 1 * 2 ^ 8 + rd r.buf 10 1)
      rtc.stage1 := BitVec.ofNat 32 (rd r.buf 4 2 * 2 ^ 16 + rd r.buf 6 1 * 2 ^ 8 + rd r.buf 7 1)
      rtc.stage2 := BitVec.ofNat 32 (rd r.buf 12 2 * 2 ^ 16) }) := by
  rw [execRtcSet, ring0_ownRing0 h]
  simp [rtcSet, firstBad, hst, hmode, h11, hfrac, hok, h1, h14]

/-- One set is staged at a time. -/
theorem execRtcSet_busy {g : Staged} (hst : s.rtc.staged = some g) (hmode : rd r.buf 0 1 = 1)
    (hofs : rdI r.buf 4 8 % 2 = 0) (hfrac : rd r.buf 12 2 = 0) :
    execRtcSet r s = .next (complete (reqWaiter r 0 0x38) statusBusy 0 [] s) := by
  rw [execRtcSet, ring0_ownRing0 h]
  simp [rtcSet, firstBad, hst, hmode, hofs, hfrac, h1, h14]

end RtcSet

/-! ### The clock's block over a commit (R319, R322, R323) -/

theorem rtc_complete (w : Waiter) (st : W16) (q : W32) (d : List Byte) (s : State) : (complete w st q d s).rtc = s.rtc :=
  same_rtc (hide_complete_own w st q d s) rfl

theorem rtc_stagedDone (g : Staged) (st : W16) (s : State) : (stagedDone g st s).rtc = s.rtc := by
  unfold stagedDone
  split
  · exact rtc_complete ..
  · rfl

/-- A commit moves the square wave's level and the RTC actions; of the clock's block only that level changes. -/
theorem rtc_commitMoved (c n : Int) (s : State) : ∃ l, (sqwCommit (commitActions c n s)).rtc = { s.rtc with sqwLevel := l } := by
  have hact : (commitActions c n s).rtc = s.rtc := rfl
  rw [← hact]
  generalize commitActions c n s = u
  unfold sqwCommit sqwDrive
  split
  · exact ⟨u.rtc.sqwLevel, rfl⟩
  · dsimp only
    split
    · exact ⟨sqwNow u.rtc, same_rtc (@hide_driveBall { pin := true } ⟨rfl⟩ _ _ _) rfl⟩
    · exact ⟨u.rtc.sqwLevel, rfl⟩

/-- The blocks beside the clock's that a commit in METERING acts on (R323). -/
def commitBlocks : Mask := { faultBlocks with free := true, whl := true, pnt := true, pq := true, trf := true, crd := true }

/-- In METERING too the clock's block is as its setting leaves it. -/
theorem rtc_commitAll (kind flags c : Nat) (cf : W16) (n : Nat) (step : Int) (set : State → State) (s : State) :
    ∃ u, u.rtc = s.rtc ∧ (commitAll kind flags c cf n step set s).rtc = (set u).rtc := by
  have : Hidden true := ⟨rfl⟩
  unfold commitAll
  extract_lets s1 st s2 s3 s4
  refine ⟨pqCommit s2, same_rtc (μ := commitBlocks) ?_ rfl, same_rtc (μ := commitBlocks) ?_ rfl⟩
  · simp [s2, s1, commitBlocks, faultBlocks]
  · simp [s4, s3, commitBlocks, faultBlocks]

theorem rtc_setClock {s u : State} (h : u.rtc = s.rtc) (abs : Bool) (n : Nat) :
    (setClock abs n u).rtc = (setClock abs n s).rtc := by
  simp only [setClock, h]

/-! ### RTC_COMMIT_GO and RTC_COMMIT_TICK (R322) -/

theorem execRtcCommitGo_staged {g : Staged} {s : State} (h : s.rtc.staged = some g) :
    execRtcCommitGo s = .next { s with rtc.staged := some { g with go := true }, rtc.cmode := !g.abs } := by
  simp only [execRtcCommitGo, h]

section CommitTick
variable {g : Staged} {s : State} (hst : s.rtc.staged = some g)

include hst

theorem execRtcCommitTick_waits (h : g.go = false ∨ s.rtc.oscRun = false) : execRtcCommitTick s = .next s := by
  have hwait : (!g.go || s.rtc.inReset || !s.rtc.oscRun) = true := by rcases h with h | h <;> simp [h]
  simp only [execRtcCommitTick, hst, hwait, if_true, noteQual_same]

variable (hgo : g.go = true) (hres : s.rtc.inReset = false) (hosc : s.rtc.oscRun = true)

include hgo hres hosc

/-- A time that does not exist leaves the clock (R322, R413). -/
theorem ends_commitTick_badDate (hn : commitTicks s.rtc g.abs = none) : ends (execRtcCommitTick s) (fun t =>
    t.rtc = { s.rtc with staged := none, badDate := true }) := by
  refine ends_of rfl ?_
  simp only [hst, hgo, hres, hosc, hn, noteQual_rtc, Bool.not_true, Bool.or_self, Bool.false_eq_true, if_false]
  exact rtc_stagedDone ..

/-- The clock takes the committed time; out of METERING the set is kept for RESTORE beside it (R322, R323). -/
theorem rtc_commitTick {n : Nat} (hn : commitTicks s.rtc g.abs = some n) : ends (execRtcCommitTick s) (fun t =>
    ∃ l p k, t.rtc = { (setClock g.abs n s).rtc with sqwLevel := l, setPend := p, kept := k } ∧
      (legalRuns s = false → p = true)) := by
  refine ends_of rfl ?_
  simp only [hst, hgo, hres, hosc, hn, noteQual_rtc, Bool.not_true, Bool.or_self, Bool.false_eq_true, if_false]
  cases hlegal : legalRuns s
  · simp only [Bool.false_eq_true, if_false, rtc_stagedDone]
    split
    · obtain ⟨l, hl⟩ := rtc_commitMoved _ _ _
      exact ⟨l, _, _, hl, fun _ => rfl⟩
    · exact ⟨_, _, _, rfl, fun _ => rfl⟩
  · simp only [if_true, rtc_stagedDone]
    obtain ⟨u, hu, hset⟩ := rtc_commitAll _ _ _ _ _ _ _ _
    obtain ⟨l, hl⟩ := rtc_commitMoved _ _ _
    rw [rtc_setClock hu] at hl
    exact ⟨l, _, _, hset.trans hl, fun h => by simp at h⟩

end CommitTick

/-! ### RTC_WRAP (R319) -/

/-- The tick after the last second of the range leads to its start. -/
theorem ends_rtcWrap {s : State} (hs : s.rtc.s + 1 = rtcRange) (hp : s.rtc.pre = 0x7FFF) (hosc : s.rtc.oscRun = true)
    (hres : s.rtc.inReset = false) : ends (execRtcWrap s) (fun t => t.rtc.s = 0 ∧ t.rtc.pre = 0 ∧ t.rtc.wrap = true) := by
  refine ends_of rfl ?_
  simp only [hs, hp, hosc, hres, noteQual_rtc, bne_self_eq_false, Bool.not_true, Bool.or_self, Bool.false_eq_true, if_false]
  split
  · obtain ⟨u, -, hset⟩ := rtc_commitAll _ _ _ _ _ _ _ _
    obtain ⟨l, hl⟩ := rtc_commitMoved _ _ _
    rw [hset, hl]
    exact ⟨rfl, rfl, rfl⟩
  · split
    · obtain ⟨l, hl⟩ := rtc_commitMoved _ _ _
      rw [hl]
      exact ⟨rfl, rfl, rfl⟩
    · exact ⟨rfl, rfl, rfl⟩

/-- Settles O21: RTC_SET by its checks, the commit tick and the wrap by what they leave of the clock's block, in METERING
through everything that the commit acts on. -/
theorem clockSetting : Obligations.ClockSetting := by
  unfold Obligations.ClockSetting
  refine ⟨fun r s h h1 h14 => ⟨execRtcSet_shift h h1 h14, fun hst hmode h11 hfrac hok => ?_,
    fun g => execRtcSet_busy h h1 h14⟩, fun g s hst => ⟨execRtcCommitGo_staged hst, execRtcCommitTick_waits hst,
    fun hgo hres hosc => ⟨ends_commitTick_badDate hst hgo hres hosc, fun n hn => ?_⟩⟩, fun s => ends_rtcWrap⟩
  · refine ends_of (execRtcSet_date h h1 h14 hst hmode h11 hfrac hok) ?_
    have hrtc := fun u => same_rtc (hide_waitReq_own (reqWaiter r 0 0x38) u) rfl
    rw [hrtc]
    exact ⟨rfl, rfl, rfl, rfl, rfl, rfl⟩
  · obtain ⟨t, ht, l, p, k, hrtc, hpend⟩ := rtc_commitTick hst hgo hres hosc hn
    refine ends_of ht ?_
    rw [hrtc]
    exact ⟨rfl, rfl, rfl, rfl, hpend⟩

end Sys2Proof.Proofs

namespace Sys2Proof.Proofs
open Sys2Proof Sys2Proof.Machine Sys2Proof.Laws

/-! ### Records that wait for the log over a raise -/

theorem nvs_enqRaw (r : Nat) (q : QRec) (s : State) : (enqRaw r q s).1.nvs = s.nvs :=
  same_nvs (@hide_enqRaw { hif := true, coil := true } ⟨rfl⟩ ⟨rfl⟩ r q s) rfl rfl

theorem nvs_sendVector (v : Nat) (s : State) : (sendVector v s).nvs = s.nvs :=
  same_nvs (@hide_sendVector { out := true, hif := true } ⟨rfl⟩ ⟨rfl⟩ v s) rfl rfl

/-- The records that wait for the log at `s` still wait at `t`, in their order, before any later ones. -/
def LogGrows (s t : State) : Prop := s.nvs.logQueue <+: t.nvs.logQueue

theorem LogGrows.trans {s t u : State} (h : LogGrows s t) (k : LogGrows t u) : LogGrows s u := List.IsPrefix.trans h k

theorem LogGrows.length_le {s t : State} (h : LogGrows s t) : s.nvs.logQueue.length ≤ t.nvs.logQueue.length :=
  List.IsPrefix.length_le h

theorem logGrows_of_nvs {s t : State} (h : t.nvs = s.nvs) : LogGrows s t := by
  rw [LogGrows, h]

theorem logGrows_logRec (typ : Nat) (st : Stamp) (body : List Byte) (s : State) : LogGrows s (logRec typ st body s) :=
  ⟨[_], rfl⟩

theorem logGrows_ite {c : Prop} [Decidable c] {s t u : State} (h : LogGrows s t) (k : LogGrows s u) :
    LogGrows s (if c then t else u) := by split <;> assumption

theorem logGrows_fltRec0 (b i k : Nat) (s : State) : LogGrows s (fltRec0 b i k s) := logGrows_of_nvs (nvs_enqRaw _ _ _)

theorem logGrows_blkSignal (b : Nat) (p : Bool) (s : State) : LogGrows s (blkSignal b p s) :=
  logGrows_ite (logGrows_of_nvs (nvs_sendVector _ _)) (logGrows_of_nvs rfl)

theorem logGrows_beginSevere (b i : Nat) (s : State) : LogGrows s (beginSevere b i s) :=
  logGrows_logRec ..

theorem logGrows_countWindow (b i : Nat) (s : State) : LogGrows s (countWindow b i s).1 :=
  logGrows_of_nvs (countWindow_via State.nvs b i s (fun _ _ => rfl))

/-- A raise below GRAVE adds a record at most, that of its escalation. -/
theorem logGrows_raise0 {b i : Nat} (hc : srcClass b i ≠ some .grave) (s : State) : LogGrows s (raise0 b i s) := by
  have hnote : LogGrows s (noteRaise b i s) := logGrows_of_nvs rfl
  unfold raise0
  split
  · exact logGrows_of_nvs rfl
  · next c hcls =>
    cases c <;> dsimp -proj only
    case corrected => exact hnote
    case notice =>
      have hcount := hnote.trans (logGrows_countWindow b i _)
      have hrec := logGrows_ite (c := (bit (getBlk s b).fmask i && !(getSrc s b i).esc) = true) hcount
        (hcount.trans (logGrows_fltRec0 b i 1 _))
      have hsig := hrec.trans (logGrows_blkSignal b (pendSummary b (getBlk s b)) _)
      refine logGrows_ite (((hsig.trans (logGrows_beginSevere b i _)).trans (logGrows_fltRec0 b i 2 _)).trans ?_) hsig
      exact logGrows_of_nvs (nvs_sendVector _ _)
    case severe =>
      have hbegun := logGrows_ite (c := (getSrc (noteRaise b i s) b i).severe.isSome = true) hnote
        (hnote.trans (logGrows_beginSevere b i _))
      exact (hbegun.trans (logGrows_fltRec0 b i 1 _)).trans (logGrows_blkSignal b _ _)
    case grave => exact absurd hcls hc

theorem logGrows_raise {b i : Nat} (hc : srcClass b i ≠ some .grave) (s : State) : LogGrows s (raise b i s) := by
  have hraise := logGrows_raise0 hc s
  unfold raise
  refine logGrows_ite (hraise.trans ?_) hraise
  unfold noteDrop
  refine logGrows_ite (logGrows_of_nvs rfl) ?_
  have hring : ∀ g t, LogGrows t (modRing 14 g t) := fun _ _ => logGrows_of_nvs rfl
  exact (hring _ _).trans (logGrows_raise0 (b := 11) (i := 3) (by decide) _)

theorem logGrows_raiseLive {b i : Nat} (hc : srcClass b i ≠ some .grave) (s : State) : LogGrows s (raiseLive b i s) := by
  unfold raiseLive
  have hblk : ∀ g, LogGrows s (modBlk b g s) := fun _ => logGrows_of_nvs rfl
  exact logGrows_ite (logGrows_of_nvs rfl) ((hblk _).trans (logGrows_raise hc _))

/-! ### The crystal (R325) -/

/-- The clock held and invalid. -/
def clockHeld (s : State) : State := noteQual s { s with rtc.oscRun := false, rtc.invalid := true }

/-- A stop without main power is marked for RESTORE. -/
theorem ends_oscStop_unpowered {s : State} (ho : s.rtc.oscRun = true) (hp : mainPower s = false) : ends (execOscStop s) (fun t =>
    t.rtc = { s.rtc with oscRun := false, invalid := true, oscStopped := true } ∧ t.flt = s.flt ∧ t.nvs = s.nvs) := by
  refine ends_of rfl ?_
  simp [ho, hp]

/-- A stop with main power is recorded and raised. -/
theorem ends_oscStop_powered {s : State} (ho : s.rtc.oscRun = true) (hp : mainPower s = true)
    (hl : bit (getBlk s 10).flive 1 = false) : ends (execOscStop s) (fun t =>
      t.rtc = { s.rtc with oscRun := false, invalid := true } ∧ latched 10 1 t ∧
      s.nvs.logQueue.length < t.nvs.logQueue.length) := by
  obtain ⟨kind, flags, sec, frac, sec', step, hexec⟩ : ∃ kind flags sec frac sec' step,
      execOscStop s = .next (raiseLive 10 1 (rtcRecord kind flags sec frac sec' step (clockHeld s))) := by
    unfold execOscStop
    rw [if_neg (by simp [ho])]
    dsimp only
    rw [if_pos hp]
    exact ⟨_, _, _, _, _, _, rfl⟩
  refine ends_of hexec ?_
  generalize hu : rtcRecord kind flags sec frac sec' step (clockHeld s) = u
  have hflt : u.flt = s.flt := by rw [← hu]; exact noteQual_flt ..
  have hrtc : u.rtc = { s.rtc with oscRun := false, invalid := true } := by rw [← hu]; exact noteQual_rtc ..
  have hlog : u.nvs.logQueue.length = s.nvs.logQueue.length + 1 := by
    rw [← hu]
    simp [rtcRecord, logRec, clockHeld]
  refine ⟨(same_rtc (hide_raiseLive_mild (by decide) u) rfl).trans hrtc,
    latched_raiseLive u rfl (by rw [getBlk_flt hflt]; exact hl), ?_⟩
  have hgrows := (logGrows_raiseLive (b := 10) (i := 1) (by decide) u).length_le
  omega

/-- A fall of a condition changes the fault block alone. -/
theorem hide_fallLive_own (b i : Nat) (s : State) : hide { flt := true } (fallLive b i s) = hide { flt := true } s :=
  @hide_fallLive { flt := true } ⟨rfl⟩ b i s

/-- The crystal's return with main power is recorded. -/
theorem ends_oscRun_powered {s : State} (ho : s.rtc.oscRun = false) (hp : mainPower s = true) : ends (execOscRun s) (fun t =>
    t.rtc = { s.rtc with oscRun := true } ∧ t.nvs.logQueue.length = s.nvs.logQueue.length + 1) := by
  refine ends_of rfl ?_
  have hfall := hide_fallLive_own 10 1 { s with rtc.oscRun := true }
  have hrtc := same_rtc hfall rfl
  have hnvs := same_nvs hfall rfl rfl
  simp [ho, hp, rtcRecord, logRec, hrtc, hnvs]

/-- Without main power it is marked for RESTORE. -/
theorem ends_oscRun_unpowered {s : State} (ho : s.rtc.oscRun = false) (hp : mainPower s = false) : ends (execOscRun s) (fun t =>
    t.rtc = { s.rtc with oscRun := true, oscRan := true } ∧ t.nvs = s.nvs) := by
  refine ends_of rfl ?_
  have hfall := hide_fallLive_own 10 1 { s with rtc.oscRun := true }
  have hrtc := same_rtc hfall rfl
  have hnvs := same_nvs hfall rfl rfl
  simp [ho, hp, hrtc, hnvs]

/-! ### Temperature compensation, battery and square wave (R327, R328, R332) -/

/-- COMP as the temperature gives it (R327). -/
def tempComp (s : State) : Int :=
  rndAway (((fld s.rtc.tcomp 7 0 : Nat) : Int) * (s.cal.meas.toInt - (BitVec.ofNat 16 (fld s.rtc.tcomp 31 16)).toInt) *
    (s.cal.meas.toInt - (BitVec.ofNat 16 (fld s.rtc.tcomp 31 16)).toInt) * 4096) 1000000000

theorem execTcompUpdate_fits {s : State} (hp : mainPower s = true) (hc : tempComp s ≤ 1023) :
    execTcompUpdate s = .next { s with rtc.comp := BitVec.ofInt 11 (tempComp s) } := by
  unfold execTcompUpdate
  dsimp only
  rw [if_neg (by simp [hp])]
  exact congrArg _ (if_pos hc)

/-- A result beyond the field is a free value. -/
theorem ends_tcompUpdate_beyond {s : State} (hp : mainPower s = true) (hc : 1023 < tempComp s) :
    ends (execTcompUpdate s) (fun t => t = { s with free := t.free, rtc.comp := t.rtc.comp }) := by
  have hexec : execTcompUpdate s = .next { (drawNat s).2 with rtc.comp := BitVec.ofNat 11 (drawNat s).1 } := by
    unfold execTcompUpdate
    dsimp only
    rw [if_neg (by simp [hp])]
    exact congrArg _ (if_neg (Int.not_le.2 hc))
  exact ends_of hexec rfl

theorem ends_vbatCheck_low {s : State} (hp : mainPower s = true) (hl : bit (getBlk s 10).flive 2 = false) :
    ends (execVbatCheck true s) (fun t => t.rtc.vbatLow = true ∧ latched 10 2 t) := by
  have hexec : execVbatCheck true s = .next (raiseLive 10 2 { s with rtc.vbatLow := true }) := by simp [execVbatCheck, hp]
  exact ends_of hexec ⟨congrArg Rtc.vbatLow (same_rtc (hide_raiseLive_mild (by decide) _) rfl), latched_raiseLive _ rfl hl⟩

theorem ends_vbatCheck_sound {s : State} (hp : mainPower s = true) :
    ends (execVbatCheck false s) (fun t => t.rtc.vbatLow = false ∧ bit (getBlk t 10).flive 2 = false) := by
  have hexec : execVbatCheck false s = .next (fallLive 10 2 { s with rtc.vbatLow := false }) := by simp [execVbatCheck, hp]
  exact ends_of hexec ⟨congrArg Rtc.vbatLow (same_rtc (hide_fallLive_own 10 2 _) rfl), flive_fallLive 10 2 _ (by decide)⟩

theorem execSqwEdge_drives {s : State} (hen : bit s.rtc.sqw 31 = true) (hf : (getBall s (fld s.rtc.sqw 12 8)).func = fnSQW)
    (hm : metering s = true ∨ s.boot.st = .failstop) : execSqwEdge s =
      .next (driveBall (fld s.rtc.sqw 12 8) (sqwNow s.rtc) { s with rtc.sqwLevel := sqwNow s.rtc }) := by
  have hdrives : (bit s.rtc.sqw 31 && (getBall s (fld s.rtc.sqw 12 8)).func == fnSQW &&
      (metering s || s.boot.st == .failstop)) = true := by rcases hm with hm | hm <;> simp [hen, hf, hm]
  exact congrArg _ (if_pos hdrives)

theorem execSqwEdge_idle {s : State} (h : bit s.rtc.sqw 31 = false ∨ (getBall s (fld s.rtc.sqw 12 8)).func ≠ fnSQW ∨
    (metering s = false ∧ s.boot.st ≠ .failstop)) : execSqwEdge s = .next s := by
  have hidle : ¬ (bit s.rtc.sqw 31 && (getBall s (fld s.rtc.sqw 12 8)).func == fnSQW &&
      (metering s || s.boot.st == .failstop)) = true := by rcases h with h | h | ⟨hm, hs⟩ <;> simp [*]
  exact congrArg _ (if_neg hidle)

/-- Settles O22: the crystal by the record and the mark of each change, the rest by the equations of its commands. -/
theorem clockService : Obligations.ClockService := by
  unfold Obligations.ClockService
  exact ⟨fun s => ⟨ends_oscStop_unpowered, ends_oscStop_powered, ends_oscRun_powered, ends_oscRun_unpowered, rfl,
      fun hp => ⟨execTcompUpdate_fits hp, ends_tcompUpdate_beyond hp⟩⟩,
    fun s => ⟨ends_vbatCheck_low, ends_vbatCheck_sound, execSqwEdge_drives, execSqwEdge_idle⟩⟩

end Sys2Proof.Proofs

namespace Sys2Proof.Proofs
open Sys2Proof Sys2Proof.Machine Sys2Proof.Laws

/-! ### Event inputs (R329-R331) -/

/-- Is this edge one that the input's EDGE field selects? -/
def edgeSelected (e : Nat) (rising : Bool) (s : State) : Bool :=
  if rising then fld s.rtc.evcfg (4 * e + 2) (4 * e + 1) % 2 == 1 else decide (2 ≤ fld s.rtc.evcfg (4 * e + 2) (4 * e + 1))

section Edge
variable {e : Nat} {rising : Bool} {s : State} (he : e < 8) (hr : s.rtc.inReset = false)
  (hen : bit s.rtc.evcfg (4 * e + 3) = true) (hl : bit s.rtc.evLevel e = !rising)

include he hr hen hl

/-- A change of an enabled input's level is accepted, and by its edge and the FIFO's room noted, dropped or placed. -/
theorem execEventInputEdge_accepted : ∃ x : EvEnt, (x.input = e ∧ x.rising = rising ∧ x.invalid = s.rtc.invalid ∧
    x.backup = !mainPower s) ∧ execEventInputEdge e rising s = .next (
      if !edgeSelected e rising s then { s with rtc.evLevel := setBit s.rtc.evLevel e rising }
      else if 16 ≤ s.rtc.fifo.length then
        { s with rtc.evLevel := setBit s.rtc.evLevel e rising, rtc.dropped := satInc s.rtc.dropped }
      else { s with rtc.evLevel := setBit s.rtc.evLevel e rising, rtc.fifo := s.rtc.fifo ++ [x] }) := by
  have hlive : (decide (e ≥ 8) || !bit s.rtc.evcfg (4 * e + 3) || s.rtc.inReset || bit s.rtc.evLevel e == rising) = false := by
    simp [hr, hen, hl, Nat.not_le.2 he]
  unfold execEventInputEdge
  dsimp only
  rw [if_neg (by simp [hlive])]
  exact ⟨_, ⟨rfl, rfl, rfl, rfl⟩, rfl⟩

theorem ends_eventInputEdge_placed (hsel : edgeSelected e rising s = true) (hroom : s.rtc.fifo.length < 16) :
    ends (execEventInputEdge e rising s) (fun t =>
      t = { s with rtc := t.rtc } ∧ t.rtc.evLevel = setBit s.rtc.evLevel e rising ∧
      ∃ x, t.rtc.fifo = s.rtc.fifo ++ [x] ∧ x.input = e ∧ x.rising = rising ∧ x.invalid = s.rtc.invalid ∧ x.backup = !mainPower s) := by
  obtain ⟨x, hx, hexec⟩ := execEventInputEdge_accepted he hr hen hl
  rw [if_neg (by simp [hsel]), if_neg (Nat.not_le.2 hroom)] at hexec
  exact ends_of hexec ⟨rfl, rfl, x, rfl, hx⟩

theorem execEventInputEdge_dropped (hsel : edgeSelected e rising s = true) (hfull : 16 ≤ s.rtc.fifo.length) :
    execEventInputEdge e rising s =
      .next { s with rtc.evLevel := setBit s.rtc.evLevel e rising, rtc.dropped := satInc s.rtc.dropped } := by
  obtain ⟨x, -, hexec⟩ := execEventInputEdge_accepted he hr hen hl
  rwa [if_neg (by simp [hsel]), if_pos hfull] at hexec

theorem execEventInputEdge_noted (hsel : edgeSelected e rising s = false) :
    execEventInputEdge e rising s = .next { s with rtc.evLevel := setBit s.rtc.evLevel e rising } := by
  obtain ⟨x, -, hexec⟩ := execEventInputEdge_accepted he hr hen hl
  rwa [if_pos (by simp [hsel])] at hexec

end Edge

/-- An event-input record waits for the log (R331). -/
def eventWaits (s : State) : Bool := s.nvs.logQueue.any (fun r => r.typ == 0x00B0)

theorem execEventFifoDrain_waits {s : State} (h : eventWaits s = true) : execEventFifoDrain s = .next s := by
  have hwait : (metering s && !s.nvs.logQueue.any (fun r => r.typ == 0x00B0)) = false := by
    rw [eventWaits] at h
    rw [h, Bool.not_true, Bool.and_false]
  simp only [execEventFifoDrain, hwait]

/-- The oldest entry becomes a record, and events dropped before it are raised. -/
theorem execEventFifoDrain_drains {e : EvEnt} {l : List EvEnt} {s : State} (hm : metering s = true) (hw : eventWaits s = false)
    (hf : s.rtc.fifo = e :: l) : ∃ st body, (st.sec = e.sec ∧ st.frac = e.frac ∧ st.wheel = e.wheel) ∧
      execEventFifoDrain s = .next (
        if s.rtc.dropped ≠ 0 then raise 10 3 (logRec 0x00B0 st body s) else logRec 0x00B0 st body s) := by
  have hdue : (metering s && !s.nvs.logQueue.any (fun r => r.typ == 0x00B0)) = true := by
    rw [eventWaits] at hw
    rw [hm, hw]
    rfl
  simp only [execEventFifoDrain, hdue, hf, bne_iff_ne]
  exact ⟨_, _, ⟨rfl, rfl, rfl⟩, rfl⟩

/-- Settles O23: an accepted change by its edge and the FIFO's room, the drain by whether a record of its kind waits. -/
theorem eventInputs : Obligations.EventInputs := by
  unfold Obligations.EventInputs
  refine ⟨fun e rising s he hr hen hl => ⟨ends_eventInputEdge_placed he hr hen hl, execEventInputEdge_dropped he hr hen hl,
    execEventInputEdge_noted he hr hen hl⟩, fun s hm => ⟨fun e l hw hf => ?_, execEventFifoDrain_waits⟩⟩
  obtain ⟨st, body, ⟨hsec, hfrac, hwheel⟩, hexec⟩ := execEventFifoDrain_drains hm hw hf
  refine ⟨fun hd => ?_, fun hd => ?_⟩
  · rw [if_neg (by simp [hd])] at hexec
    exact ends_of hexec ⟨rfl, _, rfl, rfl, hsec, hfrac, hwheel⟩
  · rw [if_pos hd] at hexec
    exact ends_of hexec ⟨latched_raise _ rfl, same_rtc (hide_raise_mild (by decide) (logRec 0x00B0 st body s)) rfl⟩

end Sys2Proof.Proofs

namespace Sys2Proof.Proofs
open Sys2Proof Sys2Proof.Machine Sys2Proof.Laws

/-! ### The common checks of a Ring 0 request (R343, R349, R351, R352) -/

/-- Each of these commands is its own meaning behind the common checks. -/
theorem exec_ring0Cmd {c : Instr} {op : Byte} {lenOk : Nat → Bool} {r : Req} (h : ring0Cmd c = some (op, lenOk, r)) :
    ∃ body, ∀ s, exec c s = ring0 op lenOk r s body := by
  unfold ring0Cmd at h
  split at h <;> cases h
  all_goals
    exact ⟨_, fun s => by
      dsimp only [exec, execConfigSet, execRegRead, execTripClear, execLogReplay, execSnapReplay, execChanCal, execPointDef,
        execF3Store, execCfCfg, execCalBank, execCapCfg, execCapArm, execCapTrigger, execCapRelease, execTrfLoad, execTrfArm,
        execTrfSnap, execCreditCfg, execCtlCfg, execRtcSet, execTrfCtledit]⟩

section CommonChecks
variable {op : Byte} {lenOk : Nat → Bool} {r : Req} {s : State} (body : Waiter → State → Ans)

theorem ring0_notReady (hm : metering s = false) :
    ring0 op lenOk r s body = .next (complete (reqWaiter r 0 op) statusNotReady 0 [] s) := by
  simp [ring0, hm]

theorem ring0_badLength (hm : metering s = true) (hl : lenOk r.buf.length = false) :
    ring0 op lenOk r s body = .next (complete (reqWaiter r 0 op) statusBadLength 0 [] s) := by
  simp [ring0, hm, hl]

theorem ring0_refused {st : W16} (hm : metering s = true) (hl : lenOk r.buf.length = true) (hd : cmdDest r s = .refused st) :
    ring0 op lenOk r s body = .next (complete (reqWaiter r 0 op) st 0 [] s) := by
  simp [ring0, hm, hl, hd]

theorem ring0_worker {k pos : Nat} (hm : metering s = true) (hl : lenOk r.buf.length = true)
    (hd : cmdDest r s = .worker k pos) :
    ring0 op lenOk r s body = .next (forward (reqWaiter r 0 op) k pos r.buf s) := by
  simp [ring0, hm, hl, hd]

end CommonChecks

/-- Settles O6: every such command goes through `ring0`, whose checks come before the command's own meaning. -/
theorem commonChecks : Obligations.CommonChecks := by
  unfold Obligations.CommonChecks
  intro c op lenOk r s hc
  obtain ⟨body, hexec⟩ := exec_ring0Cmd hc
  rw [hexec s]
  exact ⟨ring0_notReady body, ring0_badLength body, fun _ => ring0_refused body, fun _ _ => ring0_worker body⟩

/-! ### The record of the capture commands (R358) -/

/-- A request above 7 or a nonzero reserved byte makes the record malformed. -/
theorem capCmdBad_of_form {b : List Byte} (s : State) (h : 7 < rd b 0 1 ∨ zerosAt b 1 3 = false) : capCmdBad s b = true := by
  rcases h with h | h <;> simp [capCmdBad, h]

/-- Settles O35: the length by the common checks, the form by the commands' own check, which each makes first. -/
theorem captureRecordForm : Obligations.CaptureRecordForm := by
  unfold Obligations.CaptureRecordForm
  refine fun r s hm => ?_
  rw [show exec (.capArm r) s = execCapArm r s from rfl, show exec (.capTrigger r) s = execCapTrigger r s from rfl,
    show exec (.capRelease r) s = execCapRelease r s from rfl]
  unfold execCapArm execCapTrigger execCapRelease
  refine ⟨fun hl => ?_, fun hl hd h => ?_⟩
  · have hlen : (r.buf.length == 4) = false := by simp [hl]
    exact ⟨ring0_badLength _ hm hlen, ring0_badLength _ hm hlen, ring0_badLength _ hm hlen⟩
  · have hbad := capCmdBad_of_form s h
    have hown : ownRing0 4 r s := ⟨hm, hl, hd⟩
    refine ⟨(ring0_ownRing0 hown _).trans ?_, (ring0_ownRing0 hown _).trans ?_, (ring0_ownRing0 hown _).trans ?_⟩ <;>
      simp only [hbad, Bool.true_or, if_true, answer_fail]

end Sys2Proof.Proofs

namespace Sys2Proof.Proofs
open Sys2Proof Sys2Proof.Machine Sys2Proof.Laws

/-! ### The rings over a raise and over the end of a request -/

@[simp] theorem getRing_modRing (n : Nat) (f : Ring → Ring) (s : State) : getRing (modRing n f s) n = f (getRing s n) :=
  getRing_setRing ..

@[simp] theorem getRing_emit (e : OutEv) (s : State) (n : Nat) : getRing (emit e s) n = getRing s n := rfl

theorem getRing_hif {s t : State} (h : t.hif.rings = s.hif.rings) : getRing t = getRing s := by
  unfold getRing
  rw [h]

theorem hifRings_sendVector (v : Nat) (s : State) : (sendVector v s).hif.rings = s.hif.rings := by
  unfold sendVector
  repeat' split
  all_goals rfl

/-- A ring without its device queue and what counts the records dropped from it. -/
def withoutQueue (r : Ring) : Ring := { r with queue := [], drop := 0, dropSpan := none }

/-- The rings, of Ring 14 all but its queue: what a fault record leaves. -/
def ringsBarFaults (s : State) (n : Nat) : Ring := if n = 14 then withoutQueue (getRing s 14) else getRing s n

theorem ringsBarFaults_hif {s t : State} (h : t.hif.rings = s.hif.rings) : ringsBarFaults t = ringsBarFaults s := by
  unfold ringsBarFaults
  rw [getRing_hif h]

theorem ringsBarFaults_setRing {x : Ring} {s : State} (h : withoutQueue x = withoutQueue (getRing s 14)) :
    ringsBarFaults (setRing 14 x s) = ringsBarFaults s := by
  funext n
  unfold ringsBarFaults
  split
  · rw [getRing_setRing, h]
  · exact getRing_setRing_ne _ _ _ _ (Ne.symm ‹_›)

theorem ringsBarFaults_sendVector (v : Nat) (s : State) : ringsBarFaults (sendVector v s) = ringsBarFaults s :=
  ringsBarFaults_hif (hifRings_sendVector v s)

theorem ringsBarFaults_enqRaw (q : QRec) (s : State) : ringsBarFaults (enqRaw 14 q s).1 = ringsBarFaults s := by
  unfold enqRaw
  split
  · dsimp -proj only
    repeat' split
    · rfl
    · exact ringsBarFaults_setRing rfl
    · rfl
  · dsimp -proj only
    split
    all_goals exact ringsBarFaults_setRing rfl

theorem ringsBarFaults_fltRec0 (b i k : Nat) (s : State) : ringsBarFaults (fltRec0 b i k s) = ringsBarFaults s :=
  ringsBarFaults_enqRaw _ _

theorem ringsBarFaults_blkSignal (b : Nat) (p : Bool) (s : State) : ringsBarFaults (blkSignal b p s) = ringsBarFaults s :=
  RaiseView.ite_fst (ringsBarFaults_sendVector ..) rfl

theorem ringsBarFaults_beginSevere (b i : Nat) (s : State) : ringsBarFaults (beginSevere b i s) = ringsBarFaults s :=
  beginSevere_via ringsBarFaults b i s (fun _ _ => rfl) (fun _ _ => rfl) (fun _ _ => rfl)

/-- The raise of a NOTICE source touches of the rings Ring 14's queue alone, escalated or not. -/
theorem ringsBarFaults_raise0 {b i : Nat} (hc : srcClass b i = some .notice) (s : State) :
    ringsBarFaults (raise0 b i s) = ringsBarFaults s := by
  have hcount : ringsBarFaults (countWindow b i (noteRaise b i s)).1 = ringsBarFaults s :=
    countWindow_via ringsBarFaults b i _ (fun _ _ => rfl)
  simp only [raise0, hc]
  have hrec := RaiseView.ite_fst (c := (bit (getBlk s b).fmask i && !(getSrc s b i).esc) = true) hcount
    ((ringsBarFaults_fltRec0 b i 1 _).trans hcount)
  have hsig := (ringsBarFaults_blkSignal b (pendSummary b (getBlk s b)) _).trans hrec
  refine RaiseView.ite_fst ((ringsBarFaults_sendVector ..).trans ((ringsBarFaults_fltRec0 ..).trans ?_)) hsig
  exact (ringsBarFaults_beginSevere ..).trans hsig

theorem ringsBarFaults_raise {b i : Nat} (hc : srcClass b i = some .notice) (s : State) :
    ringsBarFaults (raise b i s) = ringsBarFaults s := by
  have hdrop : ∀ t, ringsBarFaults (noteDrop 14 t) = ringsBarFaults t := fun t =>
    RaiseView.ite_fst rfl ((ringsBarFaults_raise0 (b := 11) (i := 3) rfl _).trans (ringsBarFaults_setRing rfl))
  have hraise := ringsBarFaults_raise0 hc s
  exact RaiseView.ite_fst ((hdrop _).trans hraise) hraise

/-- A NOTICE raise leaves every ring but Ring 14, whose queue takes the record. -/
theorem getRing_raise_ne {b i n : Nat} (hc : srcClass b i = some .notice) (hn : n ≠ 14) (s : State) :
    getRing (raise b i s) n = getRing s n := by
  have h := congrFun (ringsBarFaults_raise hc s) n
  simpa only [ringsBarFaults, if_neg hn] using h

/-- A NOTICE raise leaves each ring's set-up, indices, accepted requests and buffers. -/
theorem withoutQueue_raise {b i : Nat} (hc : srcClass b i = some .notice) (n : Nat) (s : State) :
    withoutQueue (getRing (raise b i s) n) = withoutQueue (getRing s n) := by
  by_cases hn : n = 14
  · subst hn
    exact congrFun (ringsBarFaults_raise hc s) 14
  · rw [getRing_raise_ne hc hn]

/-- A change of one ring stands over a NOTICE raise, but for the queue. -/
theorem withoutQueue_raise_modRing {b i : Nat} (hc : srcClass b i = some .notice) (n : Nat) (f : Ring → Ring) (s : State) :
    withoutQueue (getRing (raise b i (modRing n f s)) n) = withoutQueue (f (getRing s n)) := by
  rw [withoutQueue_raise hc, getRing_modRing]

/-! ### Ring set-up (R338) -/

/-- A field below a bit is not changed with it. -/
theorem fld_setBit {w i hi lo : Nat} (v : BitVec w) (e : Bool) (h : hi < i) (hi' : i < w) :
    fld (setBit v i e) hi lo = fld v hi lo := by
  apply Nat.eq_of_testBit_eq
  intro j
  have hbit := bit_setBit v i (lo + j) e hi'
  simp only [bit] at hbit
  simp only [fld, Nat.testBit_mod_two_pow, Nat.testBit_shiftRight]
  by_cases hj : j < hi + 1 - lo
  · rw [hbit, if_neg (by omega)]
  · simp [hj]

theorem setBit_bit {w i : Nat} (v : BitVec w) (h : i < w) : setBit v i (bit v i) = v := by
  apply BitVec.eq_of_toNat_eq
  apply Nat.eq_of_testBit_eq
  intro j
  have hbit := bit_setBit v i j (bit v i) h
  rw [ite_eq_right_iff.2 (fun hij => by rw [hij])] at hbit
  exact hbit

/-- The ring holds SIZE and COAL of a set-up write in full width. -/
theorem size_coal_toNat (v : W32) : (BitVec.ofNat 5 (fld v 4 0)).toNat = fld v 4 0 ∧
    (BitVec.ofNat 10 (fld v 25 16)).toNat = fld v 25 16 := by
  simp only [fld, BitVec.toNat_ofNat]
  exact ⟨Nat.mod_mod .., Nat.mod_mod ..⟩

/-- A ring with the SIZE and COAL of a set-up write. -/
def ringSized (v : W32) (r : Ring) : Ring :=
  { r with size := BitVec.ofNat 5 (fld v 4 0), coal := BitVec.ofNat 10 (fld v 25 16) }

/-- A set-up write with EN as it says: refused as a whole, else by whether the ring is enabled. -/
theorem rcfgWrite_setBit {s : State} (hw : isWorker s = false) (v : W32) (e : Bool) :
    rcfgWrite (setBit v 31 e) s =
      let n := s.hif.ridx.toNat
      if rcfgBad v = true then cfgRefuse n s
      else if (getRing s n).en = true then (if e = true then s else modRing n disableRing s)
      else if e = true then
        if (getRing s n).active = true then s
        else if addrsBad (getRing s n) (fld v 4 0) = true then cfgRefuse n s
        else enableRing n v s
      else modRing n (ringSized v) s := by
  have hsize : fld (setBit v 31 e) 4 0 = fld v 4 0 := fld_setBit v e (by decide) (by decide)
  have hcoal : fld (setBit v 31 e) 25 16 = fld v 25 16 := fld_setBit v e (by decide) (by decide)
  have hbad : rcfgBad (setBit v 31 e) = rcfgBad v := by rw [rcfgBad, hsize, hcoal, rcfgBad]
  have hen : bit (setBit v 31 e) 31 = e := (bit_setBit v 31 31 e (by decide)).trans (if_pos rfl)
  have henable : ∀ n, enableRing n (setBit v 31 e) s = enableRing n v s := fun n => by
    rw [enableRing, hsize, hcoal, enableRing]
  simp only [rcfgWrite, hw, hbad, hen, hsize, hcoal, henable, Bool.false_eq_true, if_false]
  rfl

theorem exec_ringEnable (v : W32) (s : State) : exec (.ringEnable v) s = .next (rcfgWrite (setBit v 31 true) s) := rfl

theorem exec_ringDisable (v : W32) (s : State) : exec (.ringDisable v) s = .next (rcfgWrite (setBit v 31 false) s) := by
  have hmask : (0x7FFFFFFF : W32) = ~~~(BitVec.ofNat 32 (2 ^ 31)) := by decide
  change execRingDisable v s = _
  rw [execRingDisable, hmask]
  rfl

/-- A write of HIF_RCFG sets or clears EN by its bit 31. -/
theorem exec_ringCfgWrite (v : W32) (s : State) :
    exec (.ringCfgWrite v) s = exec (if bit v 31 then .ringEnable v else .ringDisable v) s := by
  have hwrite : exec (.ringCfgWrite v) s = .next (rcfgWrite (setBit v 31 (bit v 31)) s) := by
    rw [setBit_bit v (by decide)]
    rfl
  rw [hwrite]
  cases bit v 31
  · exact (exec_ringDisable v s).symm
  · exact (exec_ringEnable v s).symm

/-- A refused set-up leaves the ring as it was, flags it and raises RING_CFG_REFUSED (R338). -/
theorem cfgRefuse_refused (n : Nat) (s : State) :
    let t := cfgRefuse n s
    (getRing t n).en = (getRing s n).en ∧ (getRing t n).size = (getRing s n).size ∧
      (getRing t n).coal = (getRing s n).coal ∧ (getRing t n).cfgErr = true ∧ latched 11 0 t := by
  intro t
  have h : withoutQueue (getRing t n) = withoutQueue { getRing s n with cfgErr := true } :=
    withoutQueue_raise_modRing rfl ..
  have hlatched : latched 11 0 t := latched_raise _ rfl
  clear_value t
  exact ⟨(congrArg Ring.en h :), (congrArg Ring.size h :), (congrArg Ring.coal h :), (congrArg Ring.cfgErr h :), hlatched⟩

section RingSetUp
variable {v : W32} {s : State} (hw : isWorker s = false)
include hw

theorem rcfgWrite_bad (h : rcfgBad v = true) (e : Bool) : rcfgWrite (setBit v 31 e) s = cfgRefuse s.hif.ridx.toNat s := by
  rw [rcfgWrite_setBit hw]
  exact if_pos h

variable (hv : rcfgBad v = false)
include hv

section Disabled
variable (hen : (getRing s s.hif.ridx.toNat).en = false)
include hen

theorem exec_ringEnable_active (h : (getRing s s.hif.ridx.toNat).active = true) : exec (.ringEnable v) s = .next s := by
  rw [exec_ringEnable, rcfgWrite_setBit hw]
  simp [hv, hen, h]

theorem exec_ringEnable_refused (ha : (getRing s s.hif.ridx.toNat).active = false)
    (h : addrsBad (getRing s s.hif.ridx.toNat) (fld v 4 0) = true) :
    exec (.ringEnable v) s = .next (cfgRefuse s.hif.ridx.toNat s) := by
  rw [exec_ringEnable, rcfgWrite_setBit hw]
  simp [hv, hen, ha, h]

theorem exec_ringEnable_enabled (ha : (getRing s s.hif.ridx.toNat).active = false)
    (h : addrsBad (getRing s s.hif.ridx.toNat) (fld v 4 0) = false) :
    exec (.ringEnable v) s = .next (enableRing s.hif.ridx.toNat v s) := by
  rw [exec_ringEnable, rcfgWrite_setBit hw]
  simp [hv, hen, ha, h]

theorem exec_ringDisable_sized : exec (.ringDisable v) s = .next (modRing s.hif.ridx.toNat (ringSized v) s) := by
  rw [exec_ringDisable, rcfgWrite_setBit hw]
  simp [hv, hen]

end Disabled

section Enabled
variable (hen : (getRing s s.hif.ridx.toNat).en = true)
include hen

theorem exec_ringEnable_again : exec (.ringEnable v) s = .next s := by
  rw [exec_ringEnable, rcfgWrite_setBit hw]
  simp [hv, hen]

theorem exec_ringDisable_disabled : exec (.ringDisable v) s = .next (modRing s.hif.ridx.toNat disableRing s) := by
  rw [exec_ringDisable, rcfgWrite_setBit hw]
  simp [hv, hen]

end Enabled

end RingSetUp

/-- An enabled ring starts afresh, with the write's SIZE and COAL, and its head shadow is written 0. -/
theorem getRing_enableRing (n : Nat) (v : W32) (s : State) : getRing (enableRing n v s) n =
    { ringSized v (getRing s n) with en := true, active := true, dmaErr := false, head := 0, tail := 0, fetched := 0 } := by
  simp only [enableRing, getRing_emit, getRing_modRing, ringSized]

/-! ### Doorbells (R339) -/

/-- A doorbell moves the tail of an enabled ring where it stands within it, else it is refused. -/
theorem exec_doorbellWrite {k : Nat} {s : State} (hw : isWorker s = false) (hk : k ≤ 15) (u : W32) :
    exec (.doorbellWrite k u) s = .next (
    if (getRing s k).en = true ∧ (u - (getRing s k).head).toNat ≤ 2 ^ (getRing s k).size.toNat ∧
        (u - (getRing s k).tail).toNat ≤ 2 ^ (getRing s k).size.toNat then modRing k (fun r => { r with tail := u }) s
    else raise 11 1 (modRing k (fun r => { r with dbErr := true }) s)) := by
  change execDoorbellWrite k u s = _
  simp only [execDoorbellWrite, hw, Nat.not_lt.2 hk, decide_false, Bool.or_self, Bool.false_eq_true, if_false,
    Bool.and_eq_true, decide_eq_true_eq, and_assoc]

/-- A refused doorbell leaves the tail, flags the ring and raises DOORBELL_INVALID (R339). -/
theorem doorbell_refused (k : Nat) (s : State) :
    let t := raise 11 1 (modRing k (fun r => { r with dbErr := true }) s)
    (getRing t k).dbErr = true ∧ (getRing t k).tail = (getRing s k).tail ∧ latched 11 1 t := by
  intro t
  have h : withoutQueue (getRing t k) = withoutQueue { getRing s k with dbErr := true } :=
    withoutQueue_raise_modRing rfl ..
  have hlatched : latched 11 1 t := latched_raise _ rfl
  clear_value t
  exact ⟨(congrArg Ring.dbErr h :), (congrArg Ring.tail h :), hlatched⟩

/-- Settles O46: a set-up write by its form, then by EN before and after it; a doorbell by whether it stands within the
ring. -/
theorem ringSetUp : Obligations.RingSetUp := by
  unfold Obligations.RingSetUp
  intro v s hw n r
  obtain ⟨hsize, hcoal⟩ := size_coal_toNat v
  refine ⟨fun hv hen => ⟨fun ha h => ?_, fun ha h => ?_, exec_ringEnable_active hw hv hen, ?_⟩,
    fun hv hen => ⟨exec_ringEnable_again hw hv hen, ends_of (exec_ringDisable_disabled hw hv hen) ?_⟩,
    exec_ringCfgWrite v s, fun hv i hi => ?_, fun k u hk => ⟨fun h => ?_, fun h => ?_⟩⟩
  · refine ends_of (exec_ringEnable_enabled hw hv hen ha h) ?_
    rw [getRing_enableRing]
    exact ⟨rfl, rfl, rfl, hsize, hcoal, rfl, rfl⟩
  · obtain ⟨hen', hsize', -, herr, hlatched⟩ := cfgRefuse_refused n s
    exact ends_of (exec_ringEnable_refused hw hv hen ha h) ⟨hen'.trans hen, hsize', herr, hlatched⟩
  · refine ends_of (exec_ringDisable_sized hw hv hen) ?_
    rw [getRing_modRing]
    exact ⟨hen, hsize, hcoal, rfl⟩
  · rw [getRing_modRing]
    exact ⟨rfl, rfl, rfl, rfl, rfl⟩
  · have hrefused : ∃ e, exec i s = .next (rcfgWrite (setBit v 31 e) s) := by
      simp only [List.mem_cons, List.not_mem_nil, or_false] at hi
      rcases hi with rfl | rfl | rfl
      · exact ⟨bit v 31, by rw [setBit_bit v (by decide)]; rfl⟩
      · exact ⟨true, exec_ringEnable v s⟩
      · exact ⟨false, exec_ringDisable v s⟩
    obtain ⟨e, hexec⟩ := hrefused
    rw [rcfgWrite_bad hw hv] at hexec
    exact ends_of hexec (cfgRefuse_refused n s)
  · refine ends_of ((exec_doorbellWrite hw hk u).trans (by rw [if_pos h])) ⟨?_, rfl⟩
    rw [getRing_modRing]
  · exact ends_of ((exec_doorbellWrite hw hk u).trans (by rw [if_neg h])) (doorbell_refused k s)

end Sys2Proof.Proofs

namespace Sys2Proof.Proofs
open Sys2Proof Sys2Proof.Machine Sys2Proof.Laws

/-! ### What DMA serves (R363) -/

/-- A ring on which DESCRIPTOR_ACCEPT and the deliveries act. -/
def ringOpen (n : Nat) (s : State) : Bool := dmaOk s n && (getRing s n).en && !(getRing s n).dmaErr && ringServed s n

theorem ringOpen_eq_true {n : Nat} {s : State} (hd : dmaOk s n = true) (hen : (getRing s n).en = true)
    (he : (getRing s n).dmaErr = false) (hs : ringServed s n = true) : ringOpen n s = true := by
  rw [ringOpen, hd, hen, he, hs]
  rfl

theorem ringOpen_eq_false {n : Nat} {s : State}
    (h : (getRing s n).en = false ∨ (getRing s n).dmaErr = true ∨ ringServed s n = false) : ringOpen n s = false := by
  rcases h with h | h | h <;> simp [ringOpen, h]

theorem execDescriptorAccept_closed {n : Nat} {s : State} (h : ringOpen n s = false) (ds : List Desc) :
    execDescriptorAccept n ds s = .next s := by
  rw [ringOpen] at h
  simp only [execDescriptorAccept, h, Bool.false_eq_true, if_false]

theorem execReceiveBufferComplete_closed {n : Nat} {s : State} (h : ringOpen n s = false) (d : Desc) :
    execReceiveBufferComplete n d s = .next s := by
  rw [ringOpen] at h
  simp only [execReceiveBufferComplete, h, Bool.false_and, Bool.false_eq_true, if_false]

theorem execReceiveCoalesceExpiry_closed {n : Nat} {s : State} (h : ringOpen n s = false) :
    execReceiveCoalesceExpiry n s = .next s := by
  rw [ringOpen] at h
  simp only [execReceiveCoalesceExpiry, h, Bool.false_eq_true, if_false]

/-! ### A DMA read error (R363) -/

/-- A ring that a DMA read error has stopped: what its buffers held is at the front of its queue again. -/
def ringStopped (r : Ring) : Ring :=
  { r with dmaErr := true, queue := r.bufs.flatMap (·.recs) ++ r.queue, bufs := r.bufs.map (fun b => { b with recs := [] }) }

theorem execDmaReadError_stops {n : Nat} {s : State} (hd : dmaOk s n = true) (hen : (getRing s n).en = true)
    (he : (getRing s n).dmaErr = false) : execDmaReadError n s = .next (raise 11 2 (modRing n ringStopped s)) := by
  unfold execDmaReadError
  dsimp only
  rw [if_neg (by simp [hd, hen, he])]
  rfl

theorem execDmaReadError_ignored {n : Nat} {s : State}
    (h : dmaOk s n = false ∨ (getRing s n).en = false ∨ (getRing s n).dmaErr = true) : execDmaReadError n s = .next s := by
  rcases h with h | h | h <;> simp [execDmaReadError, h]

/-- Over the raise the ring stays stopped, its accepted requests and its head as they were; Ring 14's own queue takes the
fault record. -/
theorem raise_ringStopped (n : Nat) (s : State) :
    let t := raise 11 2 (modRing n ringStopped s)
    (getRing t n).dmaErr = true ∧ latched 11 2 t ∧ (getRing t n).acc = (getRing s n).acc ∧
      (getRing t n).head = (getRing s n).head ∧
      (n ≠ 14 → (getRing t n).queue = (getRing s n).bufs.flatMap (·.recs) ++ (getRing s n).queue) := by
  intro t
  have h : withoutQueue (getRing t n) = withoutQueue (ringStopped (getRing s n)) := withoutQueue_raise_modRing rfl ..
  have hqueue (hn : n ≠ 14) : getRing t n = ringStopped (getRing s n) :=
    (getRing_raise_ne rfl hn _).trans (getRing_modRing ..)
  have hlatched : latched 11 2 t := latched_raise _ rfl
  clear_value t
  exact ⟨(congrArg Ring.dmaErr h :), hlatched, (congrArg Ring.acc h :), (congrArg Ring.head h :),
    fun hn => congrArg Ring.queue (hqueue hn)⟩

/-- Settles O48: the stop, what it shuts out, and its end with the ring's next enabling. -/
theorem dmaErrorStopsRing : Obligations.DmaErrorStopsRing := by
  unfold Obligations.DmaErrorStopsRing
  refine fun n s => ⟨fun hd hen he => ends_of (execDmaReadError_stops hd hen he) (raise_ringStopped n s), fun he => ?_,
    execDmaReadError_ignored, ?_⟩
  · have hclosed : ringOpen n s = false := ringOpen_eq_false (.inr (.inl he))
    exact ⟨execDescriptorAccept_closed hclosed, execReceiveBufferComplete_closed hclosed,
      execReceiveCoalesceExpiry_closed hclosed⟩
  · rintro v hw rfl hv
    refine ⟨fun hen => ends_of (exec_ringDisable_disabled hw hv hen) ?_,
      fun hen ha h => ends_of (exec_ringEnable_enabled hw hv hen ha h) ?_⟩
    · rw [getRing_modRing]
      exact ⟨rfl, rfl⟩
    · rw [getRing_enableRing]
      exact ⟨rfl, rfl⟩

end Sys2Proof.Proofs

namespace Sys2Proof.Proofs
open Sys2Proof Sys2Proof.Machine Sys2Proof.Laws

/-! ### Acceptance in index order (R337, R343, R344) -/

/-- `r'` is `r` with at most `k` more requests accepted, under the indices that follow. -/
def Accepts (k : Nat) (r r' : Ring) : Prop := ∃ more : List Acc,
  r'.acc = r.acc ++ more ∧ more.length ≤ k ∧ r'.fetched = r.fetched + BitVec.ofNat 32 more.length ∧ r'.head = r.head ∧
  ∀ i (h : i < more.length), more[i].idx = r.fetched + BitVec.ofNat 32 i

theorem Accepts.none (k : Nat) (r : Ring) : Accepts k r r :=
  ⟨[], by simp, Nat.zero_le k, by simp, rfl, fun i h => absurd h (Nat.not_lt_zero i)⟩

theorem Accepts.trans {k l : Nat} {r r' r'' : Ring} (h : Accepts k r r') (h' : Accepts l r' r'') :
    Accepts (k + l) r r'' := by
  obtain ⟨m, hacc, hlen, hfetched, hhead, hidx⟩ := h
  obtain ⟨m', hacc', hlen', hfetched', hhead', hidx'⟩ := h'
  refine ⟨m ++ m', by rw [hacc', hacc, List.append_assoc], ?_, ?_, hhead'.trans hhead, fun i hi => ?_⟩
  · rw [List.length_append]
    omega
  · rw [hfetched', hfetched, List.length_append, BitVec.ofNat_add, BitVec.add_assoc]
  · rw [List.getElem_append]
    split
    · exact hidx i ‹_›
    · rw [hidx', hfetched, BitVec.add_assoc, ← BitVec.ofNat_add]
      congr 2
      omega

/-- The entries of an accepted chain. -/
def chainAccs (s : State) (n : Nat) (c : List Desc) (first : W32) : List Acc :=
  (List.zip (List.range c.length) c).map (fun x =>
    ⟨first + BitVec.ofNat 32 x.1, x.2.tag, bit x.2.flags 0, x.2.len, first,
      (chainBad s n c).map (fun st => ⟨st, 0, 0, []⟩), []⟩)

theorem length_chainAccs (s : State) (n : Nat) (c : List Desc) (first : W32) :
    (chainAccs s n c first).length = c.length := by
  simp [chainAccs]

theorem idx_chainAccs {s : State} {n : Nat} {c : List Desc} {first : W32} {i : Nat}
    (h : i < (chainAccs s n c first).length) : (chainAccs s n c first)[i].idx = first + BitVec.ofNat 32 i := by
  simp [chainAccs]

theorem pushChain_accepted (s : State) (n : Nat) (c : List Desc) (r : Ring) :
    (pushChain s n c r).acc = r.acc ++ chainAccs s n c r.fetched ∧
    (pushChain s n c r).fetched = r.fetched + BitVec.ofNat 32 c.length ∧ (pushChain s n c r).head = r.head := ⟨rfl, rfl, rfl⟩

theorem accepts_pushChain (s : State) (n : Nat) (c : List Desc) (r : Ring) : Accepts c.length r (pushChain s n c r) := by
  obtain ⟨hacc, hfetched, hhead⟩ := pushChain_accepted s n c r
  refine ⟨_, hacc, (length_chainAccs ..).le, ?_, hhead, fun i h => idx_chainAccs h⟩
  rw [hfetched, length_chainAccs]

/-- A chain is taken off the posted descriptors. -/
theorem length_takeChain {ds c rest : List Desc} (h : takeChain ds = some (c, rest)) :
    c.length + rest.length = ds.length := by
  induction ds generalizing c with
  | nil => cases h
  | cons d t ih =>
    rw [takeChain] at h
    split at h
    · rw [Option.map_eq_some_iff] at h
      obtain ⟨⟨c', rest'⟩, htake, heq⟩ := h
      cases heq
      have hlen : c'.length + rest'.length = t.length := ih htake
      simp only [List.length_cons]
      omega
    · cases h
      simp only [List.length_cons, List.length_nil]
      omega

theorem length_takeReq {n : Nat} {ds c rest : List Desc} (h : takeReq n ds = some (c, rest)) :
    c.length + rest.length = ds.length := by
  unfold takeReq at h
  split at h
  · exact length_takeChain h
  · split at h
    · cases h
    · cases h
      simp only [List.length_cons, List.length_nil]
      omega

/-- Request after request is accepted, never more descriptors than are posted. -/
theorem accepts_acceptAll (s : State) (n fuel : Nat) (ds : List Desc) (r : Ring) :
    Accepts ds.length r (acceptAll s n fuel ds r) := by
  induction fuel generalizing ds r with
  | zero => exact .none ..
  | succ fuel ih =>
    rw [acceptAll]
    split
    · exact .none ..
    · next c rest htake =>
      split
      · exact .none ..
      · rw [← length_takeReq htake]
        exact (accepts_pushChain s n c r).trans (ih rest _)

/-- A single descriptor without CHAIN is a request of its own. -/
theorem takeReq_single {n : Nat} {d : Desc} (h : bit d.flags 1 = false) : takeReq n [d] = some ([d], []) := by
  simp [takeReq, takeChain, h]

theorem acceptAll_single {s : State} {n : Nat} {d : Desc} {r : Ring} (h : bit d.flags 1 = false)
    (hroom : outstanding n r < 32) : acceptAll s n 1 [d] r = pushChain s n [d] r := by
  have hneed : queueNeed n [d] = 1 := by simp [queueNeed]
  have hfits : ¬ outstanding n r + 1 > 32 := by omega
  simp [acceptAll, takeReq_single h, hneed, hfits]

section Accept
variable {n : Nat} {s : State} (ho : ringOpen n s = true)
include ho

/-- An open ring accepts of the descriptors up to its tail. -/
theorem execDescriptorAccept_open (ds : List Desc) : execDescriptorAccept n ds s = .next (setRing n
    (acceptAll s n (ds.take ((getRing s n).tail - (getRing s n).fetched).toNat).length
      (ds.take ((getRing s n).tail - (getRing s n).fetched).toNat) (getRing s n)) s) := by
  rw [ringOpen] at ho
  simp only [execDescriptorAccept, ho, if_true]

theorem execDescriptorAccept_single {d : Desc} (htail : ((getRing s n).tail - (getRing s n).fetched).toNat = 1)
    (hchain : bit d.flags 1 = false) (hroom : outstanding n (getRing s n) < 32) :
    execDescriptorAccept n [d] s = .next (setRing n (pushChain s n [d] (getRing s n)) s) := by
  have htake : [d].take 1 = [d] := rfl
  rw [execDescriptorAccept_open ho, htail, htake, List.length_singleton, acceptAll_single hchain hroom]

end Accept

/-! ### The heads of the rings over deliveries and completions (R341) -/

/-- The head of each ring. -/
def heads (s : State) (n : Nat) : W32 := (getRing s n).head

theorem heads_hif {s t : State} (h : t.hif.rings = s.hif.rings) : heads t = heads s := by
  unfold heads
  rw [getRing_hif h]

theorem heads_modRing (n : Nat) {f : Ring → Ring} (hf : ∀ x, (f x).head = x.head) (s : State) :
    heads (modRing n f s) = heads s := by
  funext k
  by_cases hk : n = k
  · subst hk
    exact (congrArg Ring.head (getRing_modRing ..)).trans (hf _)
  · exact congrArg Ring.head (getRing_setRing_ne _ _ _ _ hk)

theorem heads_raise {b i : Nat} (hc : srcClass b i = some .notice) (s : State) : heads (raise b i s) = heads s := by
  funext n
  have h := withoutQueue_raise hc n s
  unfold heads
  generalize getRing (raise b i s) n = x at h ⊢
  exact (congrArg Ring.head h :)

theorem heads_ite_fst {c : Prop} [Decidable c] {a b : State × Bool} {s : State} (ha : heads a.1 = heads s)
    (hb : heads b.1 = heads s) : heads (if c then a else b).1 = heads s := by split <;> assumption

theorem heads_armOnce (n : Nat) (e : AngEnt) (s : State) : heads (armOnce n e s).1 = heads s := by
  unfold armOnce
  exact heads_ite_fst ((heads_raise (b := 3) (i := 5) rfl _).trans (heads_hif rfl)) (heads_hif rfl)

theorem heads_capDone (s : State) : heads (capDone s) = heads s := by
  unfold capDone
  dsimp only
  split
  · unfold capArmed
    dsimp only
    split
    · exact heads_armOnce ..
    · rfl
  · rfl

theorem heads_delivered (n : Nat) (s : State) (q : QRec) : heads (delivered n s q) = heads s := by
  unfold delivered
  split
  · repeat' split
    all_goals rfl
  · refine RaiseView.ite_fst ?_ rfl
    unfold capSegDone
    dsimp only
    exact RaiseView.ite_fst rfl (RaiseView.ite_fst (heads_capDone _) rfl)

theorem heads_complete (w : Waiter) (st : W16) (q : W32) (d : List Byte) (s : State) :
    heads (complete w st q d s) = heads s := by
  unfold complete
  refine RaiseView.ite_fst rfl ?_
  split
  · have hhif := same_hif (@hide_sendUp { out := true, coil := true } ⟨rfl⟩ ⟨rfl⟩ 1 1
      ([BitVec.ofNat 8 w.ring, w.op] ++ le 2 st.toNat ++ le 4 w.tag.toNat ++ d) s) rfl
    exact heads_hif (congrArg Hif.rings hhif)
  · refine heads_modRing _ (fun x => ?_) s
    dsimp only
    split <;> rfl

theorem heads_freeHolds (n : Nat) (s : State) : heads (freeHolds n s) = heads s := by
  unfold freeHolds
  dsimp only
  refine (foldl_kept (fun t x => heads_complete ..) _ _).trans ?_
  exact heads_modRing n (f := fun r =>
    { r with queue := (r.queue.take (roomOf n - (undelivered r).length)).map (fun q => { q with hold := none }) ++
        r.queue.drop (roomOf n - (undelivered r).length) }) (fun _ => rfl) s

theorem heads_emitAcc (n : Nat) (s : State) (a : Acc) : heads (emitAcc n s a) = heads s := by
  unfold emitAcc
  split <;> rfl

/-! ### Completions (R341) -/

/-- The ended entries at the front of the accepted list. -/
def endedRun (r : Ring) : List Acc := r.acc.takeWhile (·.done.isSome)

/-- The ring once those have completed. -/
def ringCompleted (r : Ring) : Ring :=
  { r with acc := r.acc.dropWhile (·.done.isSome), head := r.head + BitVec.ofNat 32 (endedRun r).length,
           active := r.en || !(r.acc.dropWhile (·.done.isSome)).isEmpty }

/-- The completions and the head shadow are written. -/
def runWritten (n : Nat) (s : State) : State :=
  emit (.headShadow n ((getRing s n).head + BitVec.ofNat 32 (endedRun (getRing s n)).length))
    ((endedRun (getRing s n)).foldl (emitAcc n) (modRing n ringCompleted s))

/-- The vector follows where a completion asks for it, and the records are delivered. -/
def runDelivered (n : Nat) (s : State) : State :=
  ((endedRun (getRing s n)).flatMap (·.recs)).foldl (delivered n)
    (if (endedRun (getRing s n)).any (·.irq) then sendVector n (runWritten n s) else runWritten n s)

theorem execCompletionWrite_none {n : Nat} {s : State} (h : endedRun (getRing s n) = []) :
    execCompletionWrite n s = .next s := by
  rw [endedRun] at h
  simp [execCompletionWrite, doneRun, h]

theorem execCompletionWrite_run {n : Nat} {s : State} (hd : dmaOk s n = true) (h : endedRun (getRing s n) ≠ []) :
    execCompletionWrite n s =
      .next (if (n == 1 || n == 10) = true then freeHolds n (runDelivered n s) else runDelivered n s) := by
  unfold execCompletionWrite
  dsimp only [doneRun]
  rw [if_neg (by rw [endedRun] at h; simp [hd, h])]
  rfl

theorem endedRun_pending {r : Ring} {x : Acc} {rest : List Acc} (h : r.acc = x :: rest) (hx : x.done = none) :
    endedRun r = [] := by
  simp [endedRun, h, hx]

theorem endedRun_single {r : Ring} {a x : Acc} {rest : List Acc} (h : r.acc = a :: x :: rest) (ha : a.done.isSome = true)
    (hx : x.done = none) : endedRun r = [a] := by
  simp [endedRun, h, ha, hx]

/-- What follows the completions leaves the heads. -/
theorem heads_runDelivered (n : Nat) (s : State) : heads (runDelivered n s) = heads (modRing n ringCompleted s) := by
  have hwritten : heads (runWritten n s) = heads (modRing n ringCompleted s) := foldl_kept (heads_emitAcc n) _ _
  exact (foldl_kept (heads_delivered n) _ _).trans
    (RaiseView.ite_fst ((heads_hif (hifRings_sendVector ..)).trans hwritten) hwritten)

/-- The head moves past the completed entries, whatever their delivery sets off. -/
theorem ends_completionWrite_head {n : Nat} {s : State} (hd : dmaOk s n = true) : ends (execCompletionWrite n s) (fun t =>
    (getRing t n).head = (getRing s n).head + BitVec.ofNat 32 (endedRun (getRing s n)).length) := by
  by_cases h : endedRun (getRing s n) = []
  · refine ends_of (execCompletionWrite_none h) ?_
    simp [h]
  · refine ends_of (execCompletionWrite_run hd h) ?_
    have hheads := heads_runDelivered n s
    have hfinal := RaiseView.ite_fst (c := (n == 1 || n == 10) = true) ((heads_freeHolds n _).trans hheads) hheads
    refine (congrFun hfinal n).trans ?_
    rw [heads, getRing_modRing]
    rfl

/-- A single ended entry without a vector or records: its completion, then the head shadow. -/
theorem execCompletionWrite_single {n : Nat} {s : State} {a x : Acc} {rest : List Acc} {d : Done} (hd : dmaOk s n = true)
    (hacc : (getRing s n).acc = a :: x :: rest) (ha : a.done = some d) (hx : x.done = none) (hirq : a.irq = false)
    (hrecs : a.recs = []) (h1 : n ≠ 1) (h10 : n ≠ 10) :
    execCompletionWrite n s = .next (emit (.headShadow n ((getRing s n).head + 1))
      (emit (.completion n a.idx a.tag d.status d.len d.seq d.data) (modRing n ringCompleted s))) := by
  have hrun : endedRun (getRing s n) = [a] := endedRun_single hacc (by rw [ha]; rfl) hx
  rw [execCompletionWrite_run hd (by rw [hrun]; exact List.cons_ne_nil _ _), if_neg (by simp [h1, h10])]
  simp only [runDelivered, runWritten, hrun, List.any_cons, List.any_nil, hirq, Bool.or_self, Bool.false_eq_true, if_false,
    List.flatMap_cons, List.flatMap_nil, hrecs, List.append_nil, List.foldl_nil, List.foldl_cons, emitAcc, ha]
  rfl

/-! ### Receive buffers (R347) -/

theorem ne_15_of_receiveRing {n : Nat} (h : receiveRing n = true) : n ≠ 15 := by
  rintro rfl
  exact absurd h (by decide)

theorem execReceiveBufferComplete_posted {n : Nat} {s : State} (ho : ringOpen n s = true) (hr : receiveRing n = true)
    (htail : (getRing s n).tail = (getRing s n).fetched) (d : Desc) :
    execReceiveBufferComplete n d s = .next (setRing n (rxStep (getRing s n)) s) := by
  have h15 : (n == 15) = false := by simp [ne_15_of_receiveRing hr]
  rw [ringOpen] at ho
  simp only [execReceiveBufferComplete, ho, hr, h15, postBuf, htail, Bool.true_or, Bool.and_self, beq_self_eq_true, if_true,
    Bool.false_eq_true, if_false]

/-- The only accepted entry ends with its buffer's records. -/
theorem endBuf_single {r : Ring} {a : Acc} {b b0 : RxBuf} {d : Done} (hb : r.bufs = [b0]) (hacc : r.acc = [a])
    (ha : a.idx = b.idx) (hidx : b0.idx = b.idx) :
    (endBuf b d r).acc = [{ a with done := some d, recs := b.recs }] ∧ (endBuf b d r).bufs = [] := by
  simp [endBuf, hb, hacc, ha, hidx]

theorem fillBuf_full {b : RxBuf} {q : QRec} (h : b.len < queueBytes b.recs + q.bytes.length) (rest : List QRec) :
    fillBuf b (q :: rest) = (b, q :: rest) := by
  rw [fillBuf, if_neg (Nat.not_le.2 h)]

theorem fillBuf_last {b : RxBuf} {q : QRec} (hb : b.recs = []) (h : q.bytes.length ≤ b.len) :
    fillBuf b [q] = ({ b with recs := [q] }, []) := by
  have hfits : queueBytes b.recs + q.bytes.length ≤ b.len := by
    rw [hb]
    simpa [queueBytes, sumN] using h
  rw [fillBuf, if_pos hfits, hb]
  rfl

section Receive
variable {r : Ring} {b : RxBuf} {q : QRec} {rest : List QRec} (hb : r.bufs = [b])
include hb

theorem rxStep_oversize (hq : r.queue = q :: rest) (hrecs : b.recs = []) (h : b.len < q.bytes.length) :
    rxStep r = endBuf b ⟨0x0001, q.bytes.length, 0, []⟩ r := by
  have hfull : b.len < queueBytes b.recs + q.bytes.length := by omega
  simp only [rxStep, hb, hq, fillBuf_full hfull, hrecs, List.isEmpty_nil, if_true]
  rw [← hb, ← hq]

theorem rxStep_full (hq : r.queue = q :: rest) (hrecs : b.recs ≠ []) (h : b.len < queueBytes b.recs + q.bytes.length) :
    rxStep r = endBuf b (okDone b) r := by
  have hsome : b.recs.isEmpty = false := by simp [hrecs]
  simp only [rxStep, hb, hq, fillBuf_full h, hsome, Bool.false_eq_true, if_false]
  rw [← hb, ← hq]

theorem rxStep_last (hq : r.queue = [q]) (hrecs : b.recs = []) (h : q.bytes.length ≤ b.len) :
    let r1 := { r with bufs := [{ b with recs := [q] }], queue := [] }
    rxStep r = if (r.coal == 0) = true then endBuf { b with recs := [q] } ⟨statusOk, q.bytes.length, q.seq, q.bytes⟩ r1
      else r1 := by
  simp only [rxStep, hb, hq, fillBuf_last hrecs h, List.isEmpty_cons, Bool.not_false, Bool.and_true, okDone,
    List.flatMap_cons, List.flatMap_nil, List.append_nil, List.head?_cons, Option.map_some, Option.getD_some]

end Receive

/-- The first buffer, partly filled, ends with its records once the queue is empty. -/
theorem execReceiveCoalesceExpiry_ends {n : Nat} {s : State} {b : RxBuf} (ho : ringOpen n s = true) (h15 : n ≠ 15)
    (hb : (getRing s n).bufs = [b]) (hrecs : b.recs ≠ []) (hq : (getRing s n).queue = []) :
    execReceiveCoalesceExpiry n s = .next (setRing n (endBuf b (okDone b) (getRing s n)) s) := by
  have hsome : b.recs.isEmpty = false := by simp [hrecs]
  rw [ringOpen] at ho
  simp only [execReceiveCoalesceExpiry, ho, if_true, hb]
  simp [h15, hq, hsome]

/-- Settles O47: acceptance by induction over the requests, completions by the run of ended entries, receive buffers by
whether the next record fits. -/
theorem ringTraffic : Obligations.RingTraffic := by
  unfold Obligations.RingTraffic
  intro n s hd r
  refine ⟨fun hen he hs => ⟨fun d htail hchain hroom => ?_, fun ds => ?_⟩,
    fun ds h => execDescriptorAccept_closed (ringOpen_eq_false h) ds,
    fun a x rest hacc ha hx hirq hrecs h1 h10 => ?_, ends_completionWrite_head hd,
    fun x rest hacc hx => execCompletionWrite_none (endedRun_pending hacc hx),
    fun hacc => execCompletionWrite_none (by rw [endedRun, hacc]; rfl),
    fun d a b q rest hen he hs hr htail hb hacc ha hq => ?_, fun a b hen he hs h15 hb hacc ha hrecs hq => ?_⟩
  · refine ends_of (execDescriptorAccept_single (ringOpen_eq_true hd hen he hs) htail hchain hroom) ?_
    rw [getRing_setRing]
    obtain ⟨hpush, hfetched, -⟩ := pushChain_accepted s n [d] r
    refine ⟨hfetched, hpush.trans ?_, rfl⟩
    simp [chainAccs]
  · refine ends_of (execDescriptorAccept_open (ringOpen_eq_true hd hen he hs) ds) ?_
    rw [getRing_setRing]
    obtain ⟨more, hacc, hlen, hfetched, hhead, hidx⟩ := accepts_acceptAll s n
      (ds.take (r.tail - r.fetched).toNat).length (ds.take (r.tail - r.fetched).toNat) r
    exact ⟨more, hacc, hlen.trans (List.length_take_le ..), hfetched, hhead, hidx⟩
  · obtain ⟨d, hdone⟩ := Option.isSome_iff_exists.1 ha
    refine ends_of (execCompletionWrite_single hd hacc hdone hx hirq hrecs h1 h10) ?_
    have hrun : endedRun r = [a] := endedRun_single hacc ha hx
    simp only [getRing_emit, getRing_modRing]
    refine ⟨?_, ?_, d, hdone, rfl⟩
    · exact (congrArg (List.dropWhile _) hacc).trans (by simp [ha, hx])
    · exact congrArg (fun l : List Acc => r.head + BitVec.ofNat 32 l.length) hrun
  · have hexec := execReceiveBufferComplete_posted (ringOpen_eq_true hd hen he hs) hr htail d
    refine ⟨fun hrecs hlong => ?_, fun hrecs hfits hrest hcoal => ?_, fun hrecs hfits hrest hcoal => ?_,
      fun hrecs hfull => ?_⟩
    · rw [rxStep_oversize hb hq hrecs hlong] at hexec
      refine ends_of hexec ?_
      rw [getRing_setRing]
      obtain ⟨hacc', hbufs⟩ := endBuf_single (d := ⟨0x0001, q.bytes.length, 0, []⟩) hb hacc ha rfl
      exact ⟨hacc'.trans (by rw [hrecs]), hbufs, rfl, rfl⟩
    · subst hrest
      rw [rxStep_last hb hq hrecs hfits, if_pos (by simp [hcoal])] at hexec
      refine ends_of hexec ?_
      rw [getRing_setRing]
      obtain ⟨hacc', hbufs⟩ := endBuf_single (r := { r with bufs := [{ b with recs := [q] }], queue := [] })
        (b := { b with recs := [q] }) (d := ⟨statusOk, q.bytes.length, q.seq, q.bytes⟩) rfl hacc ha rfl
      exact ⟨hacc', hbufs, rfl, rfl⟩
    · subst hrest
      rw [rxStep_last hb hq hrecs hfits, if_neg (by simpa using hcoal)] at hexec
      refine ends_of hexec ?_
      rw [getRing_setRing]
      exact ⟨hacc, rfl, rfl⟩
    · rw [rxStep_full hb hq hrecs hfull] at hexec
      refine ends_of hexec ?_
      rw [getRing_setRing]
      obtain ⟨hacc', hbufs⟩ := endBuf_single (d := okDone b) hb hacc ha rfl
      exact ⟨hacc', hbufs, rfl⟩
  · refine ends_of (execReceiveCoalesceExpiry_ends (ringOpen_eq_true hd hen he hs) h15 hb hrecs hq) ?_
    rw [getRing_setRing]
    obtain ⟨hacc', hbufs⟩ := endBuf_single (d := okDone b) hb hacc ha rfl
    exact ⟨hacc', hbufs, hq⟩

end Sys2Proof.Proofs

namespace Sys2Proof.Proofs
open Sys2Proof Sys2Proof.Machine Sys2Proof.Laws

/-! ### The TAP's instruction over every command (R494, log entry 73) -/

/-- Every block but the TAP's instruction, and with it the queue and the fuses, which are in no mask. -/
@[reducible] def offTap : Mask := { beyondFlt with flt := true, jtag := false }

/-- A POR takes the pin block to its reset value but for the TAP's instruction. -/
@[simp] theorem offTap_enterPor (c : BitVec 4) (s : State) : hide offTap (enterPor c s) = hide offTap s := rfl

section
variable [Hidden true]

@[simp] theorem offTap_resetMetering (s : State) : hide offTap (resetMetering s) = hide offTap s := by
  unfold resetMetering
  simp [↓hide_with]

@[simp] theorem offTap_resetFailstop (c : BitVec 4) (s : State) : hide offTap (resetFailstop c s) = hide offTap s := by
  unfold resetFailstop
  simp [↓hide_with]

@[simp] theorem offTap_lgEnd (g : LgRun) (s : State) : hide offTap (lgEnd g s) = hide offTap s := by
  unfold lgEnd
  dsimp -proj only
  cases hrem : s.flt.remembered <;> simp [↓hide_with]

@[simp] theorem offTap_lgPage (g : LgRun) (n : Nat) (s : State) : hide offTap (lgPage g n s) = hide offTap s := by
  unfold lgPage
  simp [↓hide_with]

@[simp] theorem offTap_lgCommit (g : LgRun) (s : State) : hide offTap (lgCommit g s) = hide offTap s := by
  unfold lgCommit
  split
  · exact offTap_lgPage ..
  · dsimp -proj only
    split
    · simp
    · split <;> simp

theorem kept_powerOn (s : State) : kept offTap (hide offTap s) (execPowerOn s) := by
  simp [execPowerOn, ↓hide_with]

theorem kept_brownOut (s : State) : kept offTap (hide offTap s) (execBrownOut s) := by
  simp [execBrownOut]

theorem kept_resetnAssert (s : State) : kept offTap (hide offTap s) (execResetnAssert s) := by
  simp [execResetnAssert, ↓hide_with]

theorem kept_functionLevelReset (s : State) : kept offTap (hide offTap s) (execFunctionLevelReset s) := by
  simp [execFunctionLevelReset, ↓hide_with]

theorem kept_powerRestoreRestart (s : State) : kept offTap (hide offTap s) (execPowerRestoreRestart s) := by
  simp [execPowerRestoreRestart]

theorem kept_pageCommitDone (s : State) : kept offTap (hide offTap s) (execPageCommitDone s) := by
  unfold execPageCommitDone
  cases hlg : s.nvs.lg <;> simp

theorem kept_failstopSafeState (s : State) : kept offTap (hide offTap s) (execFailstopSafeState s) := by
  by_cases hdue : s.nvs.lg = none ∧ (s.flt.phase = .begun ∨ s.flt.phase = .lastGasp)
  · have hend : hide offTap (safeEnd s) = hide offTap s := by unfold safeEnd safeHeld safeFrozen; simp [↓hide_with_pin]
    rw [execFailstopSafeState_due hdue.1 hdue.2]
    generalize safeEnd s = u at hend
    cases hrem : u.flt.remembered <;> simp [hend]
  · rw [execFailstopSafeState_idle hdue]
    rfl

end

/-- A TAP that the lock fuse holds in IDCODE takes no instruction. -/
theorem execJtagInstruction_locked (c : Jtag) {s : State} (h : s.fuses.jtagLock = true ∨ mainPower s = false) :
    execJtagInstruction c s = .next s := by
  have hheld : (s.fuses.jtagLock || !mainPower s) = true := by simpa using h
  simp [execJtagInstruction, hheld]

theorem tapLocked_of_hide {μ : Mask} {s t : State} (h : hide μ t = hide μ s) (hj : μ.jtag = false) (hs : tapLocked s) :
    tapLocked t := fun hlock =>
  (same_jtag h hj).trans (hs (same_fuses h ▸ hlock))

theorem tapLocked_of_offTap {o : Out} {s t : State} (h : Hidden true → kept offTap (hide offTap s) o) (ht : o = .next t)
    (hs : tapLocked s) : tapLocked t := by
  subst ht
  exact tapLocked_of_hide (μ := offTap) (h ⟨rfl⟩) rfl hs

theorem tapLocked_jtagInstruction {c : Jtag} {s t : State} (ht : execJtagInstruction c s = .next t) (hs : tapLocked s) :
    tapLocked t := by
  cases hlock : s.fuses.jtagLock with
  | true =>
    obtain rfl : s = t := by simpa [execJtagInstruction_locked c (.inl hlock)] using ht
    exact hs
  | false =>
    have hkept : hide { out := true, jtag := true } t = hide { out := true, jtag := true } s := by
      simpa [ht] using @hide_execJtagInstruction { out := true, jtag := true } ⟨rfl⟩ ⟨rfl⟩ c s
    have hfuses : t.fuses = s.fuses := same_fuses hkept
    intro h
    simp [hfuses, hlock] at h

/-- The commands that may lead to POR leave the TAP's instruction by their own lemmas, every other one but JTAG_INSTRUCTION by
its footprint. -/
theorem tapLocked_exec {c : Instr} {s t : State} (hs : tapLocked s) (ht : exec c s = .next t) : tapLocked t := by
  cases c
  case powerOn => exact tapLocked_of_offTap (fun _ => kept_powerOn s) ht hs
  case brownOut => exact tapLocked_of_offTap (fun _ => kept_brownOut s) ht hs
  case resetnAssert => exact tapLocked_of_offTap (fun _ => kept_resetnAssert s) ht hs
  case functionLevelReset => exact tapLocked_of_offTap (fun _ => kept_functionLevelReset s) ht hs
  case powerRestoreRestart => exact tapLocked_of_offTap (fun _ => kept_powerRestoreRestart s) ht hs
  case pageCommitDone => exact tapLocked_of_offTap (fun _ => kept_pageCommitDone s) ht hs
  case failstopSafeState => exact tapLocked_of_offTap (fun _ => kept_failstopSafeState s) ht hs
  case jtagInstruction c => exact tapLocked_jtagInstruction ht hs
  all_goals exact tapLocked_of_hide (hide_foot_of_exec ht) rfl hs

/-- Settles O3: a command that may enter POR by what POR keeps, JTAG_INSTRUCTION by the fuse, every other one by its
footprint; an idle step leaves the pins as they are. -/
theorem tapStaysLocked : Obligations.TapStaysLocked := by
  unfold Obligations.TapStaysLocked
  intro s t hs ht
  cases hp : s.pending with
  | nil =>
    obtain rfl : idleStep s = t := by simpa [step_idle hp] using ht
    exact hs
  | cons c rest => exact tapLocked_exec (s := { s with pending := rest }) hs ((step_front hp).symm.trans ht)

end Sys2Proof.Proofs

namespace Sys2Proof.Proofs
open Sys2Proof Sys2Proof.Machine Sys2Proof.Laws

/-! ### Reset, and BAR0 before FIRED (R398, R521) -/

theorem exposed_unfired {s : State} (h : s.boot.fired = false) (off : Nat) :
    exposed s off = true ↔ off < 0x400 ∨ (0x2C00 ≤ off ∧ off < 0x3000) ∨ (0x3E00 ≤ off ∧ off < 0x3E30) := by
  simp [exposed, h, or_assoc]

/-- Settles O5: the registers at their reset values, BAR0's exposed offsets by the lemma on them, and the store as shipped. -/
theorem resetState : Obligations.ResetState := by
  unfold Obligations.ResetState
  refine ⟨rfl, rfl, rfl, rfl, rfl, rfl, rfl, rfl, rfl, rfl, rfl, rfl, rfl, fun off => (exposed_unfired rfl off).1,
    fun _ => rfl, storeWf_reset⟩

/-- Settles O51: an offset outside the three blocks is not exposed; a read of it gives 0 and a write of it is ignored. -/
theorem exposedBeforeFired : Obligations.ExposedBeforeFired := by
  unfold Obligations.ExposedBeforeFired
  intro off v s hf hon hlo hhif hboot
  have he : exposed s off = false := by
    rw [← Bool.not_eq_true, exposed_unfired hf]
    omega
  have hread : hostRead off s = emit (.readVal off 0) s := hostRead_unexposed hon he
  exact ⟨congrArg Host.Outcome.next hread, congrArg Host.Outcome.next hread, writes_ignored (writable_unexposed he) v⟩

end Sys2Proof.Proofs

namespace Sys2Proof.Proofs
open Sys2Proof Sys2Proof.Machine Sys2Proof.Laws

/-! ### The checks of the image requests (R405, R406, R407, R408) -/

theorem firstBad_append_of_some {l : List (Bool × W16)} {st : W16} (h : firstBad l = some st) (more : List (Bool × W16)) :
    firstBad (l ++ more) = some st := by
  induction l with
  | nil => simp [firstBad] at h
  | cons x l ih =>
    obtain ⟨bad, code⟩ := x
    cases bad <;> simp_all [firstBad]

/-- Before FIRED and outside FAILSTOP the boot state refuses no image request. -/
theorem firstBad_imageState_open {s : State} (hst : s.boot.st ≠ .failstop) (hf : s.boot.fired = false)
    (more : List (Bool × W16)) : firstBad (imageState s ++ more) = firstBad more := by
  simp [imageState, firstBad, hst, hf]

theorem firstBad_imageState_fired {s : State} (hst : s.boot.st ≠ .failstop) (hf : s.boot.fired = true) :
    firstBad (imageState s) = some statusDenied := by
  simp [imageState, firstBad, hst, hf]

/-- A list of checks with one in front that passes. -/
theorem firstBad_passed {bad : Bool} {st : W16} (h : bad = false) (l : List (Bool × W16)) :
    firstBad ([(bad, st)] ++ l) = firstBad l := by simp [firstBad, h]

theorem execImageEnd_denied (r : Req) {s : State} (hst : s.boot.st ≠ .failstop) (hf : s.boot.fired = true)
    (hl : r.buf.length = 8) :
    execImageEnd r s = .next (complete (reqWaiter r 8 0x81) statusDenied 0 [] s) := by
  simp only [execImageEnd, List.append_assoc, firstBad_passed (bad := r.buf.length != 8) (by simp [hl]),
    firstBad_append_of_some (firstBad_imageState_fired hst hf)]

theorem execImageAbort_denied (r : Req) {s : State} (hst : s.boot.st ≠ .failstop) (hf : s.boot.fired = true)
    (hl : r.buf.length = 4) :
    execImageAbort r s = .next (complete (reqWaiter r 8 0x82) statusDenied 0 [] s) := by
  simp only [execImageAbort, List.append_assoc, firstBad_passed (bad := r.buf.length != 4) (by simp [hl]),
    firstBad_append_of_some (firstBad_imageState_fired hst hf)]

theorem execImageInfo_read (r : Req) {s : State} (hst : s.boot.st ≠ .failstop) (hl : 448 ≤ r.buf.length) :
    execImageInfo r s = .next (complete (reqWaiter r 8 0x83) statusOk 0 (imageInfoReply s) s) := by
  have hlong : decide (r.buf.length < 448) = false := by simpa using hl
  simp [execImageInfo, firstBad, hst, hlong]

/-! ### Requests that pass them (R405, R406, R407) -/

/-- The checks on a block of image data: its total is valid and the transfer's, its range lies within. -/
theorem imageTotal_agrees {o : Option Nat} {n : Nat} (h : o = none ∨ o = some n) : o.any (· != n) = false := by
  rcases h with h | h <;> simp [h]

/-- An IMAGE_END that still waits ends, with a free status (log entry 33). -/
def endWaiting (s : State) : State :=
  match s.boot.img.endWait with
  | some e => complete e (BitVec.ofNat 16 (drawNat s).1) 0 [] (drawNat s).2
  | none => s

theorem endWaiting_none {s : State} (h : s.boot.img.endWait = none) : endWaiting s = s := by simp [endWaiting, h]

section
variable {r : Req} {s : State} (hst : s.boot.st ≠ .failstop) (hf : s.boot.fired = false)
include hst hf

theorem execImageData_stored (hopen : s.boot.img.endAcc = false) (htotal : totalOk (rd r.inl 4 4) = true)
    (hsame : s.boot.img.total = none ∨ s.boot.img.total = some (rd r.inl 4 4))
    (hrange : rangeBad (rd r.inl 0 4) r.buf.length (rd r.inl 4 4) = false) :
    execImageData r s = .next (complete (reqWaiter r 8 0x80) statusOk 0 []
      (storeImage (rd r.inl 0 4) (rd r.inl 4 4) r.buf s)) := by
  simp [execImageData, firstBad_imageState_open hst hf, firstBad, hopen, htotal, imageTotal_agrees hsame, hrange]

theorem execImageEnd_taken (hl : r.buf.length = 8) (hz : zerosAt r.buf 4 4 = true)
    (htotal : s.boot.img.total = some (rd r.buf 0 4)) (hall : imageComplete s = true) (hopen : s.boot.img.endAcc = false) :
    execImageEnd r s = .next (waitReq (reqWaiter r 8 0x81) { s with
      boot := { s.boot with img := { s.boot.img with endAcc := true, endWait := some (reqWaiter r 8 0x81) }, abort := false
                            st := if s.boot.st == .greenware then .verify else s.boot.st } }) := by
  simp only [execImageEnd, List.append_assoc, firstBad_passed (bad := r.buf.length != 8) (by simp [hl]),
    firstBad_imageState_open hst hf]
  simp [firstBad, hz, htotal, hall, hopen]

theorem execImageAbort_taken (hl : r.buf.length = 4) (hz : zerosAt r.buf 0 4 = true) (hidle : verifying s = false) :
    execImageAbort r s = .next (complete (reqWaiter r 8 0x82) statusOk 0 [] (dropImage (endWaiting s))) := by
  simp only [execImageAbort, List.append_assoc, firstBad_passed (bad := r.buf.length != 4) (by simp [hl]),
    firstBad_imageState_open hst hf]
  cases hw : s.boot.img.endWait <;> simp [firstBad, hz, hidle, endWaiting, hw]

end

theorem boot_complete (w : Waiter) (st : W16) (q : W32) (d : List Byte) (s : State) : (complete w st q d s).boot = s.boot :=
  same_boot (hide_complete_own w st q d s) rfl rfl

theorem boot_waitReq (w : Waiter) (s : State) : (waitReq w s).boot = s.boot := same_boot (hide_waitReq_own w s) rfl rfl

theorem boot_endWaiting (s : State) : (endWaiting s).boot = s.boot := by
  cases hw : s.boot.img.endWait with
  | none => rw [endWaiting_none hw]
  | some e => simp [endWaiting, hw, boot_complete, drawNat]

/-- An image request that drops the transfer leaves it empty, and the boot state as it is (R407). -/
theorem boot_complete_dropImage (w : Waiter) (st : W16) (u : State) :
    let t := complete w st 0 [] (dropImage u)
    t.boot.img.total = none ∧ t.boot.img.units = [] ∧ t.boot.img.endAcc = false ∧ t.boot.st = u.boot.st := by
  simp only [boot_complete]
  exact ⟨rfl, rfl, rfl, rfl⟩

/-- Settles O9: each request passes its checks, and its effect is that of the equation on it. -/
theorem imageRequests : Obligations.ImageRequests := by
  unfold Obligations.ImageRequests
  intro r s hst hf
  refine ⟨fun hopen htotal hsame hrange => execImageData_stored hst hf hopen htotal hsame hrange,
    fun hl hz htotal hall hopen => ends_of (execImageEnd_taken hst hf hl hz htotal hall hopen) ?_,
    fun hl hz hidle => ?_, fun hl => execImageInfo_read r hst hl⟩
  · rw [boot_waitReq]
    simp
  · have htaken := execImageAbort_taken hst hf hl hz hidle
    refine ⟨ends_of htaken ?_, fun hw => by rwa [endWaiting_none hw] at htaken⟩
    obtain ⟨htotal, hunits, hend, hkept⟩ := boot_complete_dropImage (reqWaiter r 8 0x82) statusOk _
    exact ⟨htotal, hunits, hend, hkept.trans (congrArg Boot.st (boot_endWaiting s)), _, rfl⟩

/-! ### FIRED -/

/-- An integrated chip in METERING whose IMAGE_END still waits. -/
def firedWithWaiter : State :=
  { State.reset with boot := { Init.boot with st := .metering, fired := true
                                              img := { Init.image with endWait := some ⟨8, .host, 0, 0, false, 0x81⟩ } } }

/-- PERSTn orphans every request that waits (R362), also the one that the image keeps. -/
theorem execPerstAssert_firedWithWaiter : ends (execPerstAssert firedWithWaiter) (fun t =>
    t.boot.st = .metering ∧ t.boot.img.endWait = some ⟨16, .host, 0, 0, false, 0x81⟩) := ⟨_, rfl, rfl, rfl⟩

/-- Refutes O10: where an IMAGE_END still waits after FIRED, PERSTn changes the requester that the image keeps for it, and
leads to no POR. -/
theorem not_afterFired : ¬ Obligations.AfterFired := by
  unfold Obligations.AfterFired
  intro h
  obtain ⟨t, ht, hst, hw⟩ := execPerstAssert_firedWithWaiter
  obtain ⟨-, -, -, -, himg, -⟩ := h ⟨.host, 0, 0, false, [], []⟩ firedWithWaiter rfl (by decide)
  rcases himg .perstAssert t (by decide) ht with hsame | ⟨hpor, -⟩
  · rw [hsame] at hw
    exact absurd hw (by decide)
  · rw [hst] at hpor
    exact absurd hpor (by decide)

/-! ### A broadcast image (R391, R411) -/

/-- The image once its bytes are stored: with every unit held, a worker takes it over. -/
def takeImage (u : State) : State :=
  if imageComplete u then
    { u with boot := { u.boot with img := { u.boot.img with endAcc := true }, abort := false
                                   st := if u.boot.st == .greenware then .verify else u.boot.st } }
  else u

theorem takeImage_whole {u : State} (h : imageComplete u = true) : takeImage u =
    { u with boot := { u.boot with img := { u.boot.img with endAcc := true }, abort := false
                                   st := if u.boot.st == .greenware then .verify else u.boot.st } } := if_pos h

theorem takeImage_part {u : State} (h : imageComplete u = false) : takeImage u = u := by simp [takeImage, h]

theorem boot_takeImage {u : State} (h : u.boot.img.endAcc = false) :
    (takeImage u).boot.img.total = u.boot.img.total ∧ (takeImage u).boot.img.units = u.boot.img.units ∧
      (takeImage u).boot.img.endAcc = imageComplete u ∧
      (takeImage u).boot.st = (if imageComplete u = true ∧ u.boot.st = .greenware then .verify else u.boot.st) ∧
      takeImage u = { u with boot := (takeImage u).boot } := by
  cases hall : imageComplete u with
  | true => simp [takeImage_whole hall]
  | false => simp [takeImage_part hall, h]

/-- A worker takes the bytes of a broadcast, and the whole image with the last of them. -/
theorem execImageFrame_taken {f : Frame} {s : State} (hw : isWorker s = true) (hr : running s = true) (hd : f.dst = 0xFF)
    (hcls : f.cls = 3) (htyp : f.typ = 1) (hbad : frameBad f = false) (hf : s.boot.fired = false)
    (hst : s.boot.st ≠ .failstop) (hopen : s.boot.img.endAcc = false) (hl : 8 ≤ f.payload.length)
    (htotal : totalOk (rd f.payload 4 4) = true)
    (hsame : s.boot.img.total = none ∨ s.boot.img.total = some (rd f.payload 4 4))
    (hrange : rangeBad (rd f.payload 0 4) (f.payload.drop 8).length (rd f.payload 4 4) = false) :
    execImageFrame f s =
      .next (takeImage (storeImage (rd f.payload 0 4) (rd f.payload 4 4) (f.payload.drop 8) s)) := by
  have hlong : decide (f.payload.length < 8) = false := by simpa using hl
  simp only [List.length_drop] at hrange
  simp [execImageFrame, takeImage, hw, hr, hd, hcls, htyp, hbad, hf, hst, hopen, hlong, htotal, imageTotal_agrees hsame,
    hrange]

/-- Settles O11: the frame is taken, and the image is whole or not. -/
theorem imageByCoil : Obligations.ImageByCoil := by
  unfold Obligations.ImageByCoil
  intro f s hw hr hd hcls htyp hbad hf hst hopen hl htotal hsame hrange u
  refine ends_of (execImageFrame_taken hw hr hd hcls htyp hbad hf hst hopen hl htotal hsame hrange) ?_
  exact boot_takeImage (u := u) hopen

end Sys2Proof.Proofs

namespace Sys2Proof.Proofs
open Sys2Proof Sys2Proof.Machine Sys2Proof.Laws

/-! ### The sticky bits (R464) -/

section
variable {s : State} {b : Nat}

theorem getBlk_modBlk_self (b : Nat) (f : BlkFlt → BlkFlt) (s : State) : getBlk (modBlk b f s) b = f (getBlk s b) := by
  simp [getBlk_modBlk]

theorem getSrc_modSrc_self (b src : Nat) (f : SrcSt → SrcSt) (s : State) :
    getSrc (modSrc b src f s) b src = f (getSrc s b src) := by
  simp [getSrc, modSrc, getBlk_modBlk]

theorem fltSel_some (hb : s.flt.bidx.toNat = b) (h1 : 1 ≤ b) (h18 : b ≤ 18) : fltSel s = some b := by
  simp [fltSel, hb, h1, h18]

theorem fltSel_none (h : s.flt.bidx.toNat = 0 ∨ 18 < s.flt.bidx.toNat) : fltSel s = none := by
  have hout : ¬ (1 ≤ s.flt.bidx.toNat ∧ s.flt.bidx.toNat ≤ 18) := by omega
  simpa [fltSel] using hout

/-- The bits written 1 whose condition has gone, cleared. -/
def clearSticky (v : W32) (k : BlkFlt) : BlkFlt := { k with fstat := k.fstat &&& ~~~ (v &&& ~~~ k.flive) }

theorem execFltFstatClear_selected (v : W32) (hf : s.boot.fired = true) (hw : isWorker s = false)
    (hsel : fltSel s = some b) : execFltFstatClear v s = .next (modBlk b (clearSticky v) s) := by
  simp only [execFltFstatClear, hf, hw, Bool.not_false, Bool.and_self, if_true, fstatClear, hsel]
  rfl

theorem execFltFstatClear_ignored (v : W32)
    (h : s.boot.fired = false ∨ isWorker s = true ∨ s.flt.bidx.toNat = 0 ∨ 18 < s.flt.bidx.toNat) :
    execFltFstatClear v s = .next s := by
  rcases h with hf | hw | hsel
  · simp [execFltFstatClear, hf]
  · simp [execFltFstatClear, hw]
  · simp [execFltFstatClear, fstatClear, fltSel_none hsel]

/-! ### Grace timers (R467, R474) -/

/-- The reason of a fail-stop where none was in force. -/
theorem reason_failStop (g k : Bool) (cls : Cls) (b i : Nat) (h : s.flt.phase = .none) :
    (failStop g k cls b i s).flt.reason = reasonWord g k cls.num b i := by
  have hlg : ∀ u : State, (startLastGasp 3 u).flt = u.flt := fun u => by unfold startLastGasp; split <;> rfl
  unfold failStop
  rw [h]
  dsimp -proj only
  split
  · split
    · rfl
    · split
      · rfl
      · rw [hlg]
  · rfl

/-- The block with its grace timer stopped. -/
def stopTimer (k : BlkFlt) : BlkFlt := { k with run := none }

variable {g : Grace}

theorem execGraceExpiry_ended (hr : (getBlk s b).run = some g) (ht : g.start + g.ms * msSlots ≤ s.slot) :
    execGraceExpiry b s = .next (match graceCause (getBlk s b) g with
      | some src => failStop true (getSrc s b src).esc .severe b src (modBlk b stopTimer s)
      | none => modBlk b stopTimer s) := by
  have hdue : ¬ s.slot < g.start + g.ms * msSlots := by omega
  cases hc : graceCause (getBlk s b) g <;> simp only [execGraceExpiry, hr, hdue, hc, if_false] <;> rfl

/-- An unresolved SEVERE fault at the timer's end is a fail-stop with its reason. -/
theorem ends_graceExpiry_cause {i : Nat} (hr : (getBlk s b).run = some g) (ht : g.start + g.ms * msSlots ≤ s.slot)
    (hc : graceCause (getBlk s b) g = some i) (hp : s.flt.phase = .none) : ends (execGraceExpiry b s) (fun t =>
      t.boot.st = .failstop ∧ t.flt.phase = .begun ∧ (getBlk t b).run = none ∧
      t.flt.reason = reasonWord true (getSrc s b i).esc 2 b i) := by
  have hexec := execGraceExpiry_ended hr ht
  rw [hc] at hexec
  refine ends_of hexec ?_
  have hp' : (modBlk b stopTimer s).flt.phase = .none := hp
  have hstop := stop_failStop true (getSrc s b i).esc .severe b i (modBlk b stopTimer s)
  rw [if_pos hp'] at hstop
  simp only [stop, Prod.mk.injEq] at hstop
  obtain ⟨hphase, hst⟩ := hstop
  refine ⟨hst, hphase, ?_, reason_failStop _ _ _ _ _ hp'⟩
  rw [getBlk_failStop, getBlk_modBlk_self]
  rfl

theorem ends_graceExpiry_resolved (hr : (getBlk s b).run = some g) (ht : g.start + g.ms * msSlots ≤ s.slot)
    (hc : graceCause (getBlk s b) g = none) : ends (execGraceExpiry b s) (fun t =>
      (getBlk t b).run = none ∧ (getBlk t b).srcs = (getBlk s b).srcs ∧ t = { s with flt := t.flt }) := by
  have hexec := execGraceExpiry_ended hr ht
  rw [hc] at hexec
  refine ends_of hexec ?_
  simp only [getBlk_modBlk_self]
  exact ⟨rfl, rfl, rfl⟩

theorem graceCause_starter (k : BlkFlt) (h : (tgetD k.srcs g.src Init.srcSt).severe.isSome = true) :
    graceCause k g = some g.src := by simp [graceCause, h]

theorem execGraceExpiry_waits
    (h : (getBlk s b).run = none ∨ ∃ g, (getBlk s b).run = some g ∧ s.slot < g.start + g.ms * msSlots) :
    execGraceExpiry b s = .next s := by
  rcases h with hr | ⟨g, hr, ht⟩
  · simp [execGraceExpiry, hr]
  · simp [execGraceExpiry, hr, ht]

/-! ### Escalation windows and resolution spans (R466, R468) -/

variable {src : Nat} {o : Win}

theorem winOpen_past (h : o.start + winSlots o.w ≤ s.slot) : winOpen s o = false := by
  simpa [winOpen] using h

theorem winOpen_within (h : s.slot < o.start + winSlots o.w) : winOpen s o = true := by
  simpa [winOpen] using h

theorem execEscWindowExpiry_past (hw : (getSrc s b src).win = some o) (h : o.start + winSlots o.w ≤ s.slot) :
    execEscWindowExpiry b src s = .next (modSrc b src (fun x => { x with win := none, count := 0 }) s) := by
  simp [execEscWindowExpiry, hw, winOpen_past h]

theorem execEscWindowExpiry_within (hw : (getSrc s b src).win = some o) (h : s.slot < o.start + winSlots o.w) :
    execEscWindowExpiry b src s = .next s := by
  simp [execEscWindowExpiry, hw, winOpen_within h]

/-- The source after the first part of its resolution: neither escalated nor SEVERE. -/
def resolvedSrc (x : SrcSt) : SrcSt := { x with severe := none, esc := false, span := none }

/-- A resolved source is neither escalated nor SEVERE, and its span is over. -/
theorem getSrc_resolve (h : (getSrc s b src).severe.isSome = true) :
    (getSrc (resolve b src s) b src).esc = false ∧ (getSrc (resolve b src s) b src).span = none := by
  have hsig : ∀ u : State, getSrc (sendVector (blkVector b) (blockEvent 15 3
      (le 1 b ++ le 1 src ++ zeros 2 ++ le 8 (faultTick s).toNat) (modSrc b src resolvedSrc u))) b src =
      resolvedSrc (getSrc u b src) := fun u => by
    rw [getSrc, getBlk_flt (flt_sendVector _ _), getBlk_flt (flt_blockEvent _ _ _ _)]
    exact getSrc_modSrc_self b src resolvedSrc u
  have hcore := hsig (fltRec0 b src 3 s)
  unfold resolve
  rw [if_pos h]
  dsimp -proj only
  split
  · exact ⟨congrArg SrcSt.esc hcore, congrArg SrcSt.span hcore⟩
  · simp only [getSrc, getBlk_modBlk_self]
    exact ⟨congrArg SrcSt.esc hcore, congrArg SrcSt.span hcore⟩

theorem boot_resolve (b src : Nat) (s : State) : (resolve b src s).boot = s.boot :=
  same_boot (@hide_resolve raiseBlocks ⟨rfl⟩ ⟨rfl⟩ ⟨rfl⟩ ⟨rfl⟩ ⟨rfl⟩ b src s) rfl rfl

theorem execEscResolveSpan_past (he : (getSrc s b src).esc = true) (ho : (getSrc s b src).span = some o)
    (hl : bit (getBlk s b).flive src = false) (h : o.start + winSlots o.w ≤ s.slot) :
    execEscResolveSpan b src s = .next (resolve b src s) := by
  simp [execEscResolveSpan, he, ho, hl, winOpen_past h]

theorem execEscResolveSpan_within (ho : (getSrc s b src).span = some o) (h : s.slot < o.start + winSlots o.w) :
    execEscResolveSpan b src s = .next s := by
  simp [execEscResolveSpan, ho, winOpen_within h]

theorem execEscResolveSpan_stands (h : (getSrc s b src).esc = false ∨ bit (getBlk s b).flive src = true) :
    execEscResolveSpan b src s = .next s := by
  rcases h with h | h <;> simp [execEscResolveSpan, h]

/-! ### Parity errors (R465) -/

/-- The parity sources are sources of R465. -/
theorem paritySrc_class (h : paritySrc b src = true) : (srcClass b src).isSome = true := by
  simp only [paritySrc, Bool.or_eq_true, Bool.and_eq_true, beq_iff_eq] at h
  rcases h with ((⟨rfl, rfl⟩ | ⟨rfl, rfl⟩) | ⟨rfl, rfl⟩) | ⟨rfl, rfl⟩ <;> rfl

theorem execParityErrorDetect_raises (hm : mainPower s = true) (h : paritySrc b src = true) :
    execParityErrorDetect b src s = .next (raise b src s) := by
  simp [execParityErrorDetect, hm, h]

theorem execParityErrorDetect_ignored (h : mainPower s = false ∨ paritySrc b src = false) :
    execParityErrorDetect b src s = .next s := by
  rcases h with h | h <;> simp [execParityErrorDetect, h]

end

/-- Settles O44: each command by whether its timer, window or span is over, and by what it then leaves of the block. -/
theorem faultEscalation : Obligations.FaultEscalation := by
  unfold Obligations.FaultEscalation
  intro b src s
  refine ⟨fun v hf hw hb h1 h18 => ends_of (execFltFstatClear_selected v hf hw (fltSel_some hb h1 h18)) ?_,
    fun v => execFltFstatClear_ignored v,
    fun g hr ht => ⟨fun i hc hp => ends_graceExpiry_cause hr ht hc hp, graceCause_starter _,
      ends_graceExpiry_resolved hr ht⟩,
    execGraceExpiry_waits,
    fun o hw => ⟨fun h => ends_of (execEscWindowExpiry_past hw h) ?_, execEscWindowExpiry_within hw⟩,
    fun o he ho hsev hl => ⟨fun h => ends_of (execEscResolveSpan_past he ho hl h) ?_, execEscResolveSpan_within ho⟩,
    execEscResolveSpan_stands,
    fun hm hp => ends_of (execParityErrorDetect_raises hm hp) (latched_raise s (paritySrc_class hp)),
    execParityErrorDetect_ignored⟩
  · refine ⟨?_, ?_, fun c hc => ?_, rfl⟩
    · rw [getBlk_modBlk_self]
      rfl
    · rw [getBlk_modBlk_self]
      rfl
    · rw [getBlk_modBlk, if_neg (Ne.symm hc)]
  · rw [getSrc_modSrc_self]
    exact ⟨rfl, rfl, rfl⟩
  · obtain ⟨hesc, hspan⟩ := getSrc_resolve hsev
    exact ⟨hesc, severe_resolve b src s, hspan, boot_resolve b src s⟩

end Sys2Proof.Proofs

namespace Sys2Proof.Proofs
open Sys2Proof Sys2Proof.Machine Sys2Proof.Laws

/-! ### Fields, lists and tables -/

theorem fld_lt {n : Nat} (w : BitVec n) (hi lo : Nat) : fld w hi lo < 2 ^ (hi + 1 - lo) := Nat.mod_lt _ (Nat.two_pow_pos _)

theorem nth_lmod_self {α : Type} {l : List α} {i : Nat} (h : i < l.length) (f : α → α) (d : α) :
    nth (lmod l i f) i d = f (nth l i d) := by
  induction l generalizing i with
  | nil => simp at h
  | cons x l ih =>
    cases i with
    | zero => rfl
    | succ i => exact ih (by simpa using h)

theorem tget_tdel_self {α : Type} (t : Tab α) (i : Nat) : tget (tdel t i) i = none := by
  induction t with
  | nil => rfl
  | cons p t ih =>
    obtain ⟨k, x⟩ := p
    by_cases hk : k = i
    · simpa [tdel, hk] using ih
    · simpa [tdel, hk, tget] using ih

/-- A fold whose steps but that of `n` keep a view: the view after it is the one after the step of `n`. -/
theorem foldl_step_of {α : Type} {f : State → α} {g : State → Nat → State} {n : Nat} {l : List Nat} (hd : l.Nodup)
    (hn : n ∈ l) (hne : ∀ t, ∀ m ∈ l, m ≠ n → f (g t m) = f t) (s : State) :
    ∃ u, f u = f s ∧ f (l.foldl g s) = f (g u n) := by
  induction l generalizing s with
  | nil => simp at hn
  | cons m l ih =>
    obtain ⟨hml, hd⟩ := List.nodup_cons.1 hd
    by_cases hmn : m = n
    · subst hmn
      refine ⟨s, rfl, List.foldlRecOn (motive := fun t => f t = f (g s m)) l g rfl fun t ht k hk => ?_⟩
      exact (hne t k (by simp [hk]) (fun h => hml (h ▸ hk))).trans ht
    · obtain ⟨u, hu, ht⟩ := ih hd ((List.mem_cons.1 hn).resolve_left (Ne.symm hmn))
        (fun t k hk => hne t k (by simp [hk])) (g s m)
      exact ⟨u, hu.trans (hne s m (by simp) hmn), ht⟩

/-! ### Claims and releases by PIN_GPIOEN (R490, R492) -/

theorem getBall_modBall (n m : Nat) (f : Ball → Ball) (s : State) :
    getBall (modBall n f s) m = if n = m then f (getBall s n) else getBall s m := by
  simp only [modBall, getBall, tgetD_tput]

@[simp] theorem getBall_modBall_self (n : Nat) (f : Ball → Ball) (s : State) :
    getBall (modBall n f s) n = f (getBall s n) := by simp [getBall_modBall]

/-- A ball and its bit of PIN_REFUSED. -/
def ballView (n : Nat) (s : State) : Ball × Bool := (getBall s n, bit s.pin.refused n)

theorem ballView_modBall {n m : Nat} (h : m ≠ n) (f : Ball → Ball) (s : State) :
    ballView n (modBall m f s) = ballView n s := by
  simp only [ballView, getBall_modBall, if_neg h]
  rfl

theorem ballView_refuse {n m : Nat} (h : m ≠ n) (hm : m < 32) (s : State) :
    ballView n { s with pin.refused := setBit s.pin.refused m true } = ballView n s := by
  simp only [ballView, bit_setBit _ _ _ _ hm, if_neg h]
  rfl

/-- One bit of PIN_GPIOEN concerns its own ball alone. -/
theorem ballView_gpioEnBit {n m : Nat} (h : m ≠ n) (hm : m < 32) (v : W32) (s : State) :
    ballView n (gpioEnBit v s m) = ballView n s := by
  unfold gpioEnBit
  split
  · split
    · rfl
    · split
      · exact ballView_modBall h _ _
      · exact ballView_refuse h hm s
  · split
    · exact ballView_modBall h _ _
    · rfl

/-- What a write of PIN_GPIOEN does to a ball is what its own bit does. -/
theorem ballView_writeGpioEn {n : Nat} (hn : n < 32) (v : W32) (s : State) :
    ∃ u, ballView n u = ballView n s ∧ ballView n (writeGpioEn v s) = ballView n (gpioEnBit v u n) :=
  foldl_step_of List.nodup_range (List.mem_range.2 hn)
    (fun t _ hm hne => ballView_gpioEnBit hne (List.mem_range.1 hm) v t) s

section
variable {v : W32} {n : Nat} {s : State}

theorem gpioEnBit_claims (hv : bit v n = true) (hf : (getBall s n).func = 0) :
    gpioEnBit v s n = claim n fnGPIO 0 s := by
  have hfree : isGpio s n = false := by rw [isGpio, hf]; rfl
  simp [gpioEnBit, hv, hfree, claimOk, hf]

theorem gpioEnBit_held (hv : bit v n = true) (hf : (getBall s n).func = fnGPIO) : gpioEnBit v s n = s := by
  simp [gpioEnBit, hv, isGpio, hf]

theorem gpioEnBit_refused (hv : bit v n = true) (h0 : (getBall s n).func ≠ 0) (hf : (getBall s n).func ≠ fnGPIO) :
    gpioEnBit v s n = { s with pin.refused := setBit s.pin.refused n true } := by
  have hno : claimOk s n fnGPIO 0 = false := by simpa [claimOk, hf] using h0
  simp [gpioEnBit, hv, isGpio, hf, hno]

theorem gpioEnBit_releases (hv : bit v n = false) (hf : (getBall s n).func = fnGPIO) :
    gpioEnBit v s n = release n { s with pin.gpioDir := setBit s.pin.gpioDir n false } := by
  simp [gpioEnBit, hv, isGpio, hf]

theorem gpioEnBit_absent (hv : bit v n = false) (hf : (getBall s n).func ≠ fnGPIO) : gpioEnBit v s n = s := by
  simp [gpioEnBit, hv, isGpio, hf]

theorem execPinGpioenWrite_writes (hw : pinWritable s = true) : execPinGpioenWrite v s = .next (writeGpioEn v s) := by
  simp [execPinGpioenWrite, hw]

/-- A write of PIN_GPIOEN changes the pin block alone. -/
theorem writeGpioEn_pin (v : W32) (s : State) : writeGpioEn v s = { s with pin := (writeGpioEn v s).pin } := by
  have hkept : { writeGpioEn v s with pin := Init.pin } = { s with pin := Init.pin } :=
    foldl_kept (f := fun t : State => { t with pin := Init.pin }) (fun t n => by
      unfold gpioEnBit
      split
      · split
        · rfl
        · split <;> rfl
      · split <;> rfl) (List.range 32) s
  exact congrArg (fun t : State => { t with pin := (writeGpioEn v s).pin }) hkept

/-- The write of PIN_GPIOEN, ball by ball. -/
theorem ends_pinGpioenWrite (v : W32) (hn : n < 32) (hw : pinWritable s = true) :
    ends (execPinGpioenWrite v s) (fun t =>
      (bit v n = true → (getBall s n).func = 0 → (getBall t n).func = fnGPIO ∧ (getBall t n).drive = (getBall s n).drive) ∧
      (bit v n = true → (getBall s n).func = fnGPIO → getBall t n = getBall s n) ∧
      (bit v n = true → (getBall s n).func ≠ 0 → (getBall s n).func ≠ fnGPIO →
        (getBall t n) = getBall s n ∧ bit t.pin.refused n = true) ∧
      (bit v n = false → (getBall s n).func = fnGPIO → (getBall t n).func = 0 ∧ (getBall t n).drive = false) ∧
      (bit v n = false → (getBall s n).func ≠ fnGPIO → getBall t n = getBall s n) ∧ t = { s with pin := t.pin }) := by
  refine ends_of (execPinGpioenWrite_writes hw) ?_
  obtain ⟨u, hu, ht⟩ := ballView_writeGpioEn hn v s
  have hball : getBall u n = getBall s n := congrArg Prod.fst hu
  have htball : getBall (writeGpioEn v s) n = getBall (gpioEnBit v u n) n := congrArg Prod.fst ht
  have htref : bit (writeGpioEn v s).pin.refused n = bit (gpioEnBit v u n).pin.refused n := congrArg Prod.snd ht
  rw [htball, htref, ← hball]
  refine ⟨fun hv hf => ?_, fun hv hf => ?_, fun hv h0 hf => ?_, fun hv hf => ?_, fun hv hf => ?_, writeGpioEn_pin v s⟩
  · rw [gpioEnBit_claims hv hf]
    simp [claim]
  · rw [gpioEnBit_held hv hf]
  · rw [gpioEnBit_refused hv h0 hf]
    exact ⟨rfl, by simp [bit_setBit _ _ _ _ hn]⟩
  · rw [gpioEnBit_releases hv hf]
    simp [release]
  · rw [gpioEnBit_absent hv hf]

theorem pinWrites_ignored (n : Nat) (v : W32) (hw : pinWritable s = false) :
    execPinGpioenWrite v s = .next s ∧ execPinEvoutWrite n v s = .next s := by
  simp [execPinGpioenWrite, execPinEvoutWrite, hw]

end

/-! ### EVOUT (R492) -/

/-- PIN_EVOUTj of a ball and a width, with the angle of a write. -/
def evoutWord (en : Bool) (ball width : Nat) (v : W32) : W32 :=
  BitVec.ofNat 32 (bitAt en 31 + ball * 2 ^ 24 + width * 2 ^ 16 + fld v 15 0)

/-- The width of a write: a width of 0 leaves the old one. -/
def evoutWidth (old v : W32) : Nat := if fld v 23 16 = 0 then fld old 23 16 else fld v 23 16

theorem evoutWidth_lt (old v : W32) : evoutWidth old v < 256 := by
  unfold evoutWidth
  split
  · exact fld_lt old 23 16
  · exact fld_lt v 23 16

/-- EN of such a word, where its ball and its width fit their fields. -/
theorem bit31_evoutWord (en : Bool) {ball width : Nat} (hb : ball < 32) (hw : width < 256) (v : W32) :
    bit (evoutWord en ball width v) 31 = en := by
  have ha : fld v 15 0 < 65536 := fld_lt v 15 0
  simp only [bit, evoutWord, BitVec.toNat_ofNat, Nat.testBit_eq_decide_div_mod_eq, bitAt]
  cases en <;> simp <;> omega

/-- PIN_EVOUTj replaced. -/
def putEvout (j : Nat) (w : W32) (s : State) : State := { s with pin.evout := lmod s.pin.evout j (fun _ => w) }

section
variable {j : Nat} {v : W32} {s : State}

theorem nth_putEvout (hj : j < s.pin.evout.length) (w d : W32) : nth (putEvout j w s).pin.evout j d = w :=
  nth_lmod_self hj _ d

theorem execPinEvoutWrite_writes (hj : j < 4) (hw : pinWritable s = true) :
    execPinEvoutWrite j v s = .next (writeEvout j v s) := by simp [execPinEvoutWrite, hj, hw]

/-- The ball of a granted claim: an output at the low level in METERING, an input before. -/
def claimEvout (j k : Nat) (w : W32) (s : State) : State :=
  if metering s then driveBall k false (putEvout j w (claim k fnEVOUT j s)) else putEvout j w (claim k fnEVOUT j s)

theorem getBall_claimEvout (j k : Nat) (w : W32) (s : State) :
    (getBall (claimEvout j k w s) k).func = fnEVOUT ∧ (getBall (claimEvout j k w s) k).owner = j := by
  have hclaim : getBall (putEvout j w (claim k fnEVOUT j s)) k = { getBall s k with func := fnEVOUT, owner := j } :=
    getBall_modBall_self k (fun b => { b with func := fnEVOUT, owner := j }) s
  unfold claimEvout
  split
  · rw [driveBall, getBall_modBall_self, hclaim]
    exact ⟨rfl, rfl⟩
  · rw [hclaim]
    exact ⟨rfl, rfl⟩

theorem pin_claimEvout (j k : Nat) (w : W32) (s : State) :
    (claimEvout j k w s).pin.evout = (putEvout j w s).pin.evout ∧ (claimEvout j k w s).pin.refused = s.pin.refused ∧
      (claimEvout j k w s).whl = s.whl := by
  unfold claimEvout
  split <;> exact ⟨rfl, rfl, rfl⟩

theorem writeEvout_claims (hon : bit (nth s.pin.evout j 0x00010000) 31 = false) (hv : bit v 31 = true)
    (hok : claimOk s (fld v 28 24) fnEVOUT j = true) :
    let w := evoutWord true (fld v 28 24) (evoutWidth (nth s.pin.evout j 0x00010000) v) v
    let u := claimEvout j (fld v 28 24) w s
    writeEvout j v s = { u with whl.ang := tput u.whl.ang (59 + j) (evoutEntry w) } := by
  simp only [writeEvout, claimEvout, hon, hv, hok, Bool.false_eq_true, if_false, if_true]
  cases metering s <;> rfl

theorem writeEvout_refused (hon : bit (nth s.pin.evout j 0x00010000) 31 = false) (hv : bit v 31 = true)
    (hok : claimOk s (fld v 28 24) fnEVOUT j = false) :
    let w := evoutWord false (fld v 28 24) (evoutWidth (nth s.pin.evout j 0x00010000) v) v
    writeEvout j v s = { putEvout j w s with pin.refused := setBit s.pin.refused (fld v 28 24) true } := by
  simp only [writeEvout, hon, hv, hok, Bool.false_eq_true, if_false, if_true]
  rfl

theorem writeEvout_releases (hon : bit (nth s.pin.evout j 0x00010000) 31 = true) (hv : bit v 31 = false) :
    let k := fld (nth s.pin.evout j 0x00010000) 28 24
    let w := evoutWord false k (evoutWidth (nth s.pin.evout j 0x00010000) v) v
    writeEvout j v s = { putEvout j w (release k s) with whl.ang := tdel s.whl.ang (59 + j) } := by
  simp only [writeEvout, hon, hv, Bool.false_eq_true, if_false, if_true]
  rfl

theorem ends_pinEvoutWrite_claims (hj : j < 4) (hw : pinWritable s = true) (hl : s.pin.evout.length = 4)
    (hon : bit (nth s.pin.evout j 0x00010000) 31 = false) (hv : bit v 31 = true)
    (hok : claimOk s (fld v 28 24) fnEVOUT j = true) : ends (execPinEvoutWrite j v s) (fun t =>
      (getBall t (fld v 28 24)).func = fnEVOUT ∧ (getBall t (fld v 28 24)).owner = j ∧ bit (nth t.pin.evout j 0) 31 = true ∧
      tget t.whl.ang (59 + j) = some (evoutEntry (nth t.pin.evout j 0)) ∧ t.pin.refused = s.pin.refused) := by
  refine ends_of ((execPinEvoutWrite_writes hj hw).trans (congrArg _ (writeEvout_claims hon hv hok))) ?_
  generalize hword : evoutWord true (fld v 28 24) (evoutWidth (nth s.pin.evout j 0x00010000) v) v = w
  have hen : bit w 31 = true := hword ▸ bit31_evoutWord true (fld_lt v 28 24) (evoutWidth_lt _ v) v
  obtain ⟨hfunc, howner⟩ := getBall_claimEvout j (fld v 28 24) w s
  obtain ⟨hevout, href, -⟩ := pin_claimEvout j (fld v 28 24) w s
  have hnth : nth (claimEvout j (fld v 28 24) w s).pin.evout j 0 = w := by rw [hevout, nth_putEvout (by omega)]
  refine ⟨hfunc, howner, (congrArg (bit · 31) hnth).trans hen, ?_, href⟩
  exact (tget_tput_self ..).trans (congrArg (fun x => some (evoutEntry x)) hnth.symm)

theorem ends_pinEvoutWrite_refused (hj : j < 4) (hw : pinWritable s = true) (hl : s.pin.evout.length = 4)
    (hon : bit (nth s.pin.evout j 0x00010000) 31 = false) (hv : bit v 31 = true)
    (hok : claimOk s (fld v 28 24) fnEVOUT j = false) : ends (execPinEvoutWrite j v s) (fun t =>
      bit t.pin.refused (fld v 28 24) = true ∧ bit (nth t.pin.evout j 0) 31 = false ∧ t.pin.fb = s.pin.fb ∧
      t.whl = s.whl) := by
  refine ends_of ((execPinEvoutWrite_writes hj hw).trans (congrArg _ (writeEvout_refused hon hv hok))) ?_
  have hk : fld v 28 24 < 32 := fld_lt v 28 24
  refine ⟨(bit_setBit _ _ _ _ hk).trans (if_pos rfl), ?_, rfl, rfl⟩
  exact (congrArg (bit · 31) (nth_putEvout (by omega) _ 0)).trans (bit31_evoutWord false hk (evoutWidth_lt _ v) v)

theorem ends_pinEvoutWrite_releases (hj : j < 4) (hw : pinWritable s = true) (hl : s.pin.evout.length = 4)
    (hon : bit (nth s.pin.evout j 0x00010000) 31 = true) (hv : bit v 31 = false) :
    let k := fld (nth s.pin.evout j 0x00010000) 28 24
    ends (execPinEvoutWrite j v s) (fun t => (getBall t k).func = 0 ∧ (getBall t k).drive = false ∧
      bit (nth t.pin.evout j 0) 31 = false ∧ tget t.whl.ang (59 + j) = none) := by
  intro k
  refine ends_of ((execPinEvoutWrite_writes hj hw).trans (congrArg _ (writeEvout_releases hon hv))) ?_
  have hball := getBall_modBall_self k (fun b => { b with func := 0, owner := 0, drive := false, lvl := false }) s
  refine ⟨congrArg Ball.func hball, congrArg Ball.drive hball, ?_, tget_tdel_self ..⟩
  exact (congrArg (bit · 31) (nth_putEvout (s := release k s) (hl.symm ▸ hj) _ 0)).trans
    (bit31_evoutWord false (fld_lt _ 28 24) (evoutWidth_lt _ v) v)

theorem execEvoutPulseEnd_low (hj : j < 4) (hen : bit (nth s.pin.evout j 0) 31 = true)
    (hf : (getBall s (fld (nth s.pin.evout j 0) 28 24)).func = fnEVOUT) : execEvoutPulseEnd j s =
      .next (modBall (fld (nth s.pin.evout j 0) 28 24) (fun b => { b with lvl := false }) s) := by
  simp only [execEvoutPulseEnd, hj, hen, hf, decide_true, beq_self_eq_true, Bool.and_self, if_true]

end

/-! ### The drive check (R495) -/

section
variable {n : Nat} {s : State}

theorem execDriveMismatch_unchecked (h : running s = false ∨ scanActs s = true) : execDriveMismatch n s = .next s := by
  rcases h with h | h <;> simp [execDriveMismatch, h]

/-- A raise of DRIVE_MISMATCH leaves the pin block. -/
theorem pin_raise_mismatch (s : State) : (raise 18 0 s).pin = s.pin :=
  same_pin (hide_raise_mild (b := 18) (i := 0) (by decide) s) rfl rfl

variable (hr : running s = true) (hs : scanActs s = false)
include hr hs

theorem ends_driveMismatch_ball (hn : n < 32) (hd : (getBall s n).drive = true) : ends (execDriveMismatch n s) (fun t =>
    bit t.pin.mism0 n = true ∧ latched 18 0 t ∧ t.pin.fb = s.pin.fb) := by
  have hexec : execDriveMismatch n s = .next (raise 18 0 { s with pin.mism0 := setBit s.pin.mism0 n true }) := by
    simp [execDriveMismatch, hr, hs, hn, hd]
  refine ends_of hexec ⟨?_, latched_raise _ rfl, ?_⟩
  · rw [pin_raise_mismatch]
    exact (bit_setBit _ _ _ _ hn).trans (if_pos rfl)
  · rw [pin_raise_mismatch]

theorem execDriveMismatch_undriven (hn : n < 32) (hd : (getBall s n).drive = false) : execDriveMismatch n s = .next s := by
  simp [execDriveMismatch, hr, hs, hn, hd]

theorem ends_driveMismatch_output (hn : 32 ≤ n) (hn' : n < 49) : ends (execDriveMismatch n s) (fun t =>
    bit t.pin.mism1 (n - 32) = true ∧ latched 18 0 t ∧ t.pin.fb = s.pin.fb) := by
  have hexec : execDriveMismatch n s = .next (raise 18 0 { s with pin.mism1 := setBit s.pin.mism1 (n - 32) true }) := by
    simp [execDriveMismatch, hr, hs, Nat.not_lt.2 hn, hn']
  refine ends_of hexec ⟨?_, latched_raise _ rfl, ?_⟩
  · rw [pin_raise_mismatch]
    exact (bit_setBit _ _ _ _ (by omega)).trans (if_pos rfl)
  · rw [pin_raise_mismatch]

theorem ends_driveMismatch_failn (hf : s.pin.failn = true) : ends (execDriveMismatch 49 s) (fun t =>
    bit t.pin.mism1 17 = true ∧ latched 18 0 t) := by
  have hexec : execDriveMismatch 49 s = .next (raise 18 0 { s with pin.mism1 := setBit s.pin.mism1 17 true }) := by
    simp [execDriveMismatch, hr, hs, hf]
  refine ends_of hexec ⟨?_, latched_raise _ rfl⟩
  rw [pin_raise_mismatch]
  exact (bit_setBit _ _ _ _ (by decide)).trans (if_pos rfl)

end

/-! ### The TAP (R494) -/

theorem execJtagInstruction_taken (c : Jtag) {s : State} (hlock : s.fuses.jtagLock = false) (hm : mainPower s = true) :
    (c ≠ .idcode → execJtagInstruction c s = .next { s with pin.jtag := c }) ∧
    (c = .idcode → execJtagInstruction c s = .next { s with pin.jtag := c, out := .tapData 0x16048B47 :: s.out }) := by
  refine ⟨fun hc => ?_, fun hc => ?_⟩ <;> simp [execJtagInstruction, hlock, hm, hc, emit, idcode]

/-- Settles O52: writes by the ball that they concern, mismatches by the ball's kind, the TAP by its lock fuse. -/
theorem pinOwnership : Obligations.PinOwnership := by
  unfold Obligations.PinOwnership
  intro n s
  refine ⟨fun v hn hw => ends_pinGpioenWrite v hn hw, fun v hw => pinWrites_ignored n v hw,
    fun v hn hw hl hon hv => ⟨ends_pinEvoutWrite_claims hn hw hl hon hv, ends_pinEvoutWrite_refused hn hw hl hon hv⟩,
    fun v hn hw hl hon hv => ends_pinEvoutWrite_releases hn hw hl hon hv,
    fun hn hen hf => ends_of (execEvoutPulseEnd_low hn hen hf) ⟨?_, rfl⟩,
    fun hr hs => ⟨fun hn hd => ends_driveMismatch_ball hr hs hn hd, fun hn hd => execDriveMismatch_undriven hr hs hn hd,
      fun hn hn' => ends_driveMismatch_output hr hs hn hn', fun hf => ends_driveMismatch_failn hr hs hf⟩,
    execDriveMismatch_unchecked, fun c hlock hm => execJtagInstruction_taken c hlock hm,
    fun c h => execJtagInstruction_locked c h⟩
  exact congrArg Ball.lvl (getBall_modBall_self ..)

end Sys2Proof.Proofs

namespace Sys2Proof.Proofs
open Sys2Proof Sys2Proof.Machine Sys2Proof.Laws

/-! ### The filter of a source at an instant (R451) -/

/-- A window whose W has passed closes with its count at 0. -/
def closeWin (s : State) (src : Nat) (x : TSrc) : TSrc :=
  match x.win with
  | some t => if s.slot ≥ t + tamperWin s src then { x with win := none, count := 0 } else x
  | none => x

/-- A hold-off ends 328 ticks after its last event. -/
def endHold (s : State) (x : TSrc) : TSrc :=
  match x.hold with
  | some t => if s.slot ≥ t + 328 * 750 then { x with hold := none } else x
  | none => x

theorem tsrcNow_eq (s : State) (src : Nat) (x : TSrc) : tsrcNow s src x = endHold s (closeWin s src x) := rfl

section
variable {s : State} {src : Nat} {x : TSrc}

theorem closeWin_due {w : Nat} (h : x.win = some w) (hd : w + tamperWin s src ≤ s.slot) :
    closeWin s src x = { x with win := none, count := 0 } := by simp [closeWin, h, hd]

theorem closeWin_open (h : ∀ w, x.win = some w → s.slot < w + tamperWin s src) : closeWin s src x = x := by
  cases hw : x.win with
  | none => simp [closeWin, hw]
  | some w =>
    have hopen : ¬ w + tamperWin s src ≤ s.slot := Nat.not_le.2 (h w hw)
    simp [closeWin, hw, hopen]

theorem endHold_due {t : Nat} (h : x.hold = some t) (hd : t + 328 * 750 ≤ s.slot) :
    endHold s x = { x with hold := none } := by
  simp only [endHold, h, ge_iff_le, hd, if_true]

theorem endHold_open (h : ∀ t, x.hold = some t → s.slot < t + 328 * 750) : endHold s x = x := by
  cases hw : x.hold with
  | none => simp [endHold, hw]
  | some t =>
    have hopen : ¬ t + 328 * 750 ≤ s.slot := Nat.not_le.2 (h t hw)
    simp only [endHold, hw, ge_iff_le, hopen, if_false]

theorem closeWin_kept (s : State) (src : Nat) (x : TSrc) :
    (closeWin s src x).hold = x.hold ∧ (closeWin s src x).alarms = x.alarms := by
  unfold closeWin
  split
  · split <;> exact ⟨rfl, rfl⟩
  · exact ⟨rfl, rfl⟩

theorem endHold_kept (s : State) (x : TSrc) : (endHold s x).win = x.win ∧ (endHold s x).count = x.count ∧
    (endHold s x).alarms = x.alarms := by
  unfold endHold
  split
  · split <;> exact ⟨rfl, rfl, rfl⟩
  · exact ⟨rfl, rfl, rfl⟩

/-- The filter leaves a source whose window and hold-off stand. -/
theorem tsrcNow_stands (hw : ∀ w, x.win = some w → s.slot < w + tamperWin s src)
    (hh : ∀ t, x.hold = some t → s.slot < t + 328 * 750) : tsrcNow s src x = x := by
  rw [tsrcNow_eq, closeWin_open hw, endHold_open hh]

/-- A window that the filter leaves open stands. -/
theorem tsrcNow_win {w : Nat} (h : (tsrcNow s src x).win = some w) : s.slot < w + tamperWin s src := by
  rw [tsrcNow_eq, (endHold_kept s _).1] at h
  by_cases hd : ∃ v, x.win = some v ∧ v + tamperWin s src ≤ s.slot
  · obtain ⟨v, hv, hdue⟩ := hd
    simp [closeWin_due hv hdue] at h
  · have hopen : ∀ v, x.win = some v → s.slot < v + tamperWin s src :=
      fun v hv => Nat.not_le.1 fun hdue => hd ⟨v, hv, hdue⟩
    rw [closeWin_open hopen] at h
    exact hopen w h

/-! ### Writes of a source -/

theorem getTSrc_modTSrc (src : Nat) (f : TSrc → TSrc) (s : State) :
    getTSrc (modTSrc src f s) src = tsrcNow s src (f (getTSrc s src)) := by
  rw [getTSrc]
  exact congrArg (tsrcNow s src) (tgetD_tput_self ..)

theorem srcs_modTSrc (src : Nat) (f : TSrc → TSrc) (s : State) :
    tgetD (modTSrc src f s).tmp.srcs src Init.tsrc = f (getTSrc s src) := tgetD_tput_self ..

theorem glazeShow_tmp (src : Nat) (d : List Byte) (s : State) :
    glazeShow src d s = { s with tmp := (glazeShow src d s).tmp } := by
  unfold glazeShow
  split <;> rfl

/-- What the mesh shows concerns no filter. -/
theorem filter_glazeShow (src : Nat) (d : List Byte) (s : State) :
    getTSrc (glazeShow src d s) src = getTSrc s src ∧ tamperN (glazeShow src d s) src = tamperN s src ∧
      tamperWin (glazeShow src d s) src = tamperWin s src ∧ (glazeShow src d s).slot = s.slot := by
  unfold glazeShow
  split <;> exact ⟨rfl, rfl, rfl, rfl⟩

/-! ### An alarm (R455, R456) -/

/-- What an alarm's responses keep or set: the filters, the alarms shown, the key operations. -/
def alarmView (s : State) : Tab TSrc × Byte × List KeyOp := (s.tmp.srcs, s.tmp.alarmed, s.sgr.ops)

theorem alarmView_of {t u : State} (ht : t.tmp = u.tmp) (ho : t.sgr.ops = u.sgr.ops) : alarmView t = alarmView u := by
  simp only [alarmView, ht, ho]

theorem alarmView_raise (b i : Nat) (s : State) : alarmView (raise b i s) = alarmView s :=
  have h := @hide_raise faultBlocks ⟨rfl⟩ ⟨rfl⟩ ⟨rfl⟩ ⟨rfl⟩ ⟨rfl⟩ ⟨rfl⟩ ⟨rfl⟩ b i s
  alarmView_of (same_tmp h rfl) (congrArg Sgr.ops (same_sgr h rfl))

theorem alarmView_tamperLog (src flags n : Nat) (d : List Byte) (s : State) :
    alarmView (tamperLog src flags n d s) = alarmView s := by
  unfold tamperLog
  split <;> rfl

/-- The blocks that the abort of the key operations, and the erasure of the root, change. -/
def abortBlocks : Mask := { faultBlocks with boot := true, crd := true, sgr := true }

theorem tmp_abortOps (s : State) : (abortOps s).tmp = s.tmp :=
  same_tmp (@hide_abortOps abortBlocks ⟨rfl⟩ ⟨rfl⟩ ⟨rfl⟩ ⟨rfl⟩ ⟨rfl⟩ ⟨rfl⟩ ⟨rfl⟩ ⟨rfl⟩ ⟨rfl⟩ ⟨rfl⟩ s) rfl

theorem tmp_zeroize (s : State) : (zeroize s).tmp = s.tmp :=
  same_tmp (@hide_zeroize abortBlocks ⟨rfl⟩ ⟨rfl⟩ ⟨rfl⟩ ⟨rfl⟩ ⟨rfl⟩ ⟨rfl⟩ ⟨rfl⟩ ⟨rfl⟩ s) rfl

/-- The end of an aborted operation starts no other. -/
theorem ops_abortOp (s : State) (k : KeyOp) : (abortOp s k).sgr.ops = s.sgr.ops := by
  cases k with
  | change q => exact ops_sagDone ..
  | load q pol => exact ops_sagDone ..
  | attest q => exact ops_sagDone ..
  | token w b =>
    have hanswer := same_sgr (@hide_answer completeBlocks ⟨rfl⟩ ⟨rfl⟩ ⟨rfl⟩ w (tokenJudge w b none s)) rfl
    have hrefuse : (tokenRefuse statusTamperAbort b s).sgr = s.sgr := rfl
    exact congrArg Sgr.ops (hanswer.trans hrefuse)

theorem ops_abortOps (s : State) : (abortOps s).sgr.ops = [] :=
  foldl_kept (f := fun t => t.sgr.ops) ops_abortOp s.sgr.ops { s with sgr.ops := [] }

theorem ops_dropGroups (tags : List Nat) (s : State) : (dropGroups tags s).sgr = s.sgr :=
  same_sgr (@hide_dropGroups { nvs := true } ⟨rfl⟩ tags s) rfl

theorem ops_unkey (s : State) : (unkey s).sgr.ops = s.sgr.ops := by
  have hempty : ∀ (l : List Nat) (u : State), (l.foldl (fun t i => emptySlot i t) u).sgr.ops = u.sgr.ops := fun l u =>
    foldl_kept (f := fun t => t.sgr.ops) (g := fun t i => emptySlot i t) (fun _ _ => rfl) l u
  unfold unkey
  generalize slotNums.drop 2 = l
  refine (foldl_kept (f := fun t => t.sgr.ops) (fun t i => ?_) l _).trans (hempty _ _)
  split <;> rfl

theorem ops_abortLoads (s : State) : (abortLoads s).sgr.ops = s.sgr.ops := by
  unfold abortLoads
  refine (foldl_kept (f := fun t => t.sgr.ops) (fun t x => ops_sagDone ..) _ _).trans ?_
  rw [ops_dropGroups]

theorem ops_abortChange (s : State) : (abortChange s).sgr.ops = s.sgr.ops := by
  unfold abortChange
  split
  · rfl
  · split
    · rfl
    · rw [ops_sagDone, ops_dropGroups]

theorem alarmView_zeroize (s : State) : alarmView (zeroize s) = alarmView s :=
  alarmView_of (tmp_zeroize s) (by unfold zeroize; rw [ops_abortChange, ops_abortLoads, ops_unkey])

/-- Every alarm shows its source and aborts the key operations in progress; its responses concern no filter. -/
theorem alarmView_tamperAlarm (src : Nat) (d : List Byte) (s : State) :
    alarmView (tamperAlarm src d s) = (s.tmp.srcs, setBit s.tmp.alarmed src true, []) := by
  have hite : ∀ (c : Bool) (a b : State), alarmView a = alarmView b → alarmView (if c then a else b) = alarmView b :=
    fun c a b h => by cases c <;> simp [h]
  have habort : alarmView (abortOps { s with tmp.alarmed := setBit s.tmp.alarmed src true }) =
      (s.tmp.srcs, setBit s.tmp.alarmed src true, []) := by
    simp only [alarmView, tmp_abortOps, ops_abortOps]
  unfold tamperAlarm
  dsimp -proj only
  refine (hite _ _ _ (alarmView_raise ..)).trans ((hite _ _ _ (alarmView_raise ..)).trans ?_)
  exact (hite _ _ _ (alarmView_tamperLog ..)).trans ((hite _ _ _ (alarmView_zeroize _)).trans habort)

/-! ### TAMPER_EVENT -/

/-- The blocks that an event may change. -/
def tamperBlocks : Mask := { abortBlocks with tmp := true }

variable {d : W32}

theorem execTamperEvent_ignored (h : tamperWatches s src = false ∨ bistHides s src = true) :
    execTamperEvent src d s = .next s := by
  rcases h with h | h <;> simp [execTamperEvent, h]

theorem execTamperEvent_counted (hw : tamperWatches s src = true) (hb : bistHides s src = false) :
    execTamperEvent src d s = .next (if (getTSrc s src).hold.isSome then
        modTSrc src (fun x => { x with hold := some s.slot }) (glazeShow src (tamperDetail s src d) s)
      else tamperCount src (tamperDetail s src d) (glazeShow src (tamperDetail s src d) s)) := by
  simp [execTamperEvent, hw, hb]

section
variable (hw : tamperWatches s src = true) (hb : bistHides s src = false)
include hw hb

/-- In the hold-off an event restarts it. -/
theorem ends_tamperEvent_held (hh : (getTSrc s src).hold.isSome = true) : ends (execTamperEvent src d s) (fun t =>
    getTSrc t src = { getTSrc s src with hold := some s.slot } ∧ t = { s with tmp := t.tmp }) := by
  have hexec := execTamperEvent_counted (d := d) hw hb
  rw [if_pos hh] at hexec
  obtain ⟨hget, -, hwin, hslot⟩ := filter_glazeShow src (tamperDetail s src d) s
  have hshow := glazeShow_tmp src (tamperDetail s src d) s
  generalize glazeShow src (tamperDetail s src d) s = u at hexec hget hwin hslot hshow
  refine ends_of hexec ⟨?_, ?_⟩
  · rw [getTSrc_modTSrc, hget]
    refine tsrcNow_stands (fun w h => ?_) (fun t h => ?_)
    · rw [hwin, hslot]
      exact tsrcNow_win h
    · obtain rfl : s.slot = t := by simpa using h
      omega
  · rw [hshow]
    rfl

/-- Below the N-th of its window an event counts in it, or opens one. -/
theorem ends_tamperEvent_counts {k : Nat} (hk : k = (if (getTSrc s src).win.isSome then (getTSrc s src).count.toNat else 0) + 1)
    (hh : (getTSrc s src).hold = none) (hn : k < tamperN s src) (hpos : 0 < tamperWin s src) :
    ends (execTamperEvent src d s) (fun t =>
      getTSrc t src = { getTSrc s src with win := some ((getTSrc s src).win.getD s.slot), count := BitVec.ofNat 8 k } ∧
      t = { s with tmp := t.tmp }) := by
  have hexec := execTamperEvent_counted (d := d) hw hb
  rw [if_neg (by simp [hh])] at hexec
  obtain ⟨hget, hnn, hwin, hslot⟩ := filter_glazeShow src (tamperDetail s src d) s
  have hshow := glazeShow_tmp src (tamperDetail s src d) s
  generalize glazeShow src (tamperDetail s src d) s = u at hexec hget hnn hwin hslot hshow
  have hcount : tamperCount src (tamperDetail s src d) u =
      modTSrc src (fun x => { x with win := some (x.win.getD s.slot), count := BitVec.ofNat 8 k }) u := by
    simp only [tamperCount, hget, hnn, hslot, ← hk, ge_iff_le, Nat.not_le.2 hn, if_false]
  rw [hcount] at hexec
  refine ends_of hexec ⟨?_, ?_⟩
  · rw [getTSrc_modTSrc, hget]
    refine tsrcNow_stands (fun w h => ?_) (fun t h => by simp [hh] at h)
    rw [hwin, hslot]
    cases hopen : (getTSrc s src).win with
    | none =>
      obtain rfl : s.slot = w := by simpa [hopen] using h
      omega
    | some v =>
      obtain rfl : v = w := by simpa [hopen] using h
      exact tsrcNow_win hopen
  · rw [hshow]
    rfl

/-- The N-th event of its window is an alarm. -/
theorem ends_tamperEvent_alarm {k : Nat} (hsrc : src < 8)
    (hk : k = (if (getTSrc s src).win.isSome then (getTSrc s src).count.toNat else 0) + 1)
    (hh : (getTSrc s src).hold = none) (hn : tamperN s src ≤ k) : ends (execTamperEvent src d s) (fun t =>
      getTSrc t src = { getTSrc s src with win := none, count := 0, alarms := satInc (getTSrc s src).alarms, hold := some s.slot } ∧
      bit t.tmp.alarmed src = true ∧ t.sgr.ops = [] ∧ t.nvs.recs = s.nvs.recs) := by
  have hexec := execTamperEvent_counted (d := d) hw hb
  rw [if_neg (by simp [hh])] at hexec
  obtain ⟨hget, hnn, -, hslot⟩ := filter_glazeShow src (tamperDetail s src d) s
  generalize glazeShow src (tamperDetail s src d) s = u at hexec hget hnn hslot
  have hcount : tamperCount src (tamperDetail s src d) u = tamperAlarm src (tamperDetail s src d) (modTSrc src
      (fun x => { x with win := none, count := 0, alarms := satInc x.alarms, hold := some s.slot }) u) := by
    simp only [tamperCount, hget, hnn, hslot, ← hk, ge_iff_le, hn, if_true]
  rw [hcount] at hexec
  have hkept := @hide_execTamperEvent tamperBlocks ⟨rfl⟩ ⟨rfl⟩ ⟨rfl⟩ ⟨rfl⟩ ⟨rfl⟩ ⟨rfl⟩ ⟨rfl⟩ ⟨rfl⟩ ⟨rfl⟩ ⟨rfl⟩ ⟨rfl⟩ src d s
  rw [hexec, kept_next] at hkept
  have hview := alarmView_tamperAlarm src (tamperDetail s src d) (modTSrc src
      (fun x => { x with win := none, count := 0, alarms := satInc x.alarms, hold := some s.slot }) u)
  refine ends_of hexec ?_
  generalize tamperAlarm src (tamperDetail s src d) _ = t at hkept hview
  simp only [alarmView, Prod.mk.injEq] at hview
  obtain ⟨hsrcs, halarmed, hops⟩ := hview
  refine ⟨?_, ?_, hops, same_recs hkept rfl⟩
  · rw [getTSrc, hsrcs, srcs_modTSrc, hget]
    refine tsrcNow_stands (fun w h => by simp at h) (fun w h => ?_)
    obtain rfl : s.slot = w := by simpa using h
    rw [same_slot hkept rfl]
    omega
  · rw [halarmed, bit_setBit _ _ _ _ hsrc, if_pos rfl]

end

/-! ### Windows, hold-offs and the mesh (R449, R451) -/

/-- The filter of a source as it is kept. -/
def keptTSrc (s : State) (src : Nat) : TSrc := tgetD s.tmp.srcs src Init.tsrc

theorem execTamperTimers_filter (hsrc : src < 8) :
    execTamperWindowExpiry src s = .next (modTSrc src (fun x => x) s) ∧
    execTamperHoldoffEnd src s = .next (modTSrc src (fun x => x) s) := by
  simp [execTamperWindowExpiry, execTamperHoldoffEnd, hsrc]

theorem keptTSrc_filtered (s : State) (src : Nat) :
    keptTSrc (modTSrc src (fun x => x) s) src = tsrcNow s src (keptTSrc s src) := srcs_modTSrc ..

theorem tsrcNow_closed {w : Nat} (h : x.win = some w) (hd : w + tamperWin s src ≤ s.slot) :
    (tsrcNow s src x).win = none ∧ (tsrcNow s src x).count = 0 := by
  obtain ⟨hwin, hcount, -⟩ := endHold_kept s (closeWin s src x)
  rw [tsrcNow_eq, hwin, hcount, closeWin_due h hd]
  exact ⟨rfl, rfl⟩

theorem tsrcNow_opened {w : Nat} (h : x.win = some w) (hd : s.slot < w + tamperWin s src) :
    (tsrcNow s src x).win = some w ∧ (tsrcNow s src x).count = x.count := by
  obtain ⟨hwin, hcount, -⟩ := endHold_kept s (closeWin s src x)
  rw [tsrcNow_eq, hwin, hcount, closeWin_open (fun v hv => by rw [h] at hv; cases hv; exact hd)]
  exact ⟨h, rfl⟩

theorem tsrcNow_released {t : Nat} (h : x.hold = some t) (hd : t + 328 * 750 ≤ s.slot) : (tsrcNow s src x).hold = none := by
  rw [tsrcNow_eq, endHold_due ((closeWin_kept s src x).1.trans h) hd]

theorem tsrcNow_holds {t : Nat} (h : x.hold = some t) (hd : s.slot < t + 328 * 750) : (tsrcNow s src x).hold = some t := by
  have hhold := (closeWin_kept s src x).1.trans h
  rw [tsrcNow_eq, endHold_open (fun v hv => by rw [hhold] at hv; cases hv; exact hd), hhold]

theorem tsrcNow_alarms : (tsrcNow s src x).alarms = x.alarms := by
  obtain ⟨-, -, halarms⟩ := endHold_kept s (closeWin s src x)
  rw [tsrcNow_eq, halarms, (closeWin_kept s src x).2]

theorem execMeshReseed_serves (hr : s.tmp.run = true) (ht : s.sgr.trngOk = true) : ends (execMeshReseed s) (fun t =>
    t.tmp = { s.tmp with lfsr := t.tmp.lfsr } ∧ t.pnt = s.pnt ∧ t.sgr.guard_ = s.sgr.guard_) := by
  refine ⟨_, rfl, ?_⟩
  rw [if_pos (by simp [hr, ht])]
  exact ⟨rfl, rfl, rfl⟩

theorem execMeshReseed_unseeded (h : s.tmp.run = false ∨ s.sgr.trngOk = false) : execMeshReseed s = .next s := by
  rcases h with h | h <;> simp [execMeshReseed, h]

/-! ### The self-test (R459) -/

section
variable (hf : s.boot.fired = true) (hw : isWorker s = false) (hp : s.flt.phase ≠ .safe)
include hf hw hp

theorem execTmpBistStart_writes : execTmpBistStart d s = .next (writeBist d s) := by
  simp [execTmpBistStart, hf, hw, hp]

variable (hd : fld d 2 0 = src)
include hd

theorem execTmpBistStart_selects (h : bit d 8 = false) :
    execTmpBistStart d s = .next { s with tmp.bistSel := BitVec.ofNat 3 src } := by
  rw [execTmpBistStart_writes hf hw hp]
  simp [writeBist, h, hd]

theorem execTmpBistStart_refused (h : bit d 8 = true) (hr : bistRefused s src = true) :
    execTmpBistStart d s = .next { s with tmp := { s.tmp with bistSel := BitVec.ofNat 3 src, bistResult := 3 } } := by
  rw [execTmpBistStart_writes hf hw hp]
  simp [writeBist, h, hd, hr]

theorem ends_tmpBistStart (hsrc : src < 8) (h : bit d 8 = true) (hr : bistRefused s src = false) :
    ends (execTmpBistStart d s) (fun t =>
      t.tmp.bistActive = true ∧ t.tmp.bistSrc.toNat = src ∧ t.tmp.bistAt = s.slot ∧
      t.tmp.bistCount = satInc s.tmp.bistCount ∧ t = { s with tmp := t.tmp }) := by
  have hsel : (BitVec.ofNat 3 src).toNat = src := by
    rw [BitVec.toNat_ofNat]
    omega
  have hruns : writeBist d s = { s with tmp := { s.tmp with
      bistSel := BitVec.ofNat 3 src, bistActive := true, bistAt := s.slot, bistSrc := BitVec.ofNat 3 src
      bistCount := satInc s.tmp.bistCount } } := by simp [writeBist, h, hd, hr]
  exact ends_of ((execTmpBistStart_writes hf hw hp).trans (congrArg _ hruns)) ⟨rfl, hsel, rfl, rfl, rfl⟩

end

/-- The end of a running test, passed or failed. -/
def bistEnd (pass : Bool) (s : State) : State :=
  modTSrc s.tmp.bistSrc.toNat (fun x => { x with lastBist := some s.slot })
    { s with tmp.bistActive := false, tmp.bistResult := if pass then 1 else 2 }

section
variable (ha : s.tmp.bistActive = true)
include ha

theorem execTmpBistEnd_passes (h : s.slot ≤ s.tmp.bistAt + msSlots) :
    execTmpBistEnd true s = .next (bistEnd true s) := by
  simp [execTmpBistEnd, ha, h, bistEnd]

theorem execTmpBistEnd_late (h : s.tmp.bistAt + msSlots < s.slot) :
    execTmpBistEnd true s = .next (raise 14 2 (bistEnd false s)) := by
  simp [execTmpBistEnd, ha, Nat.not_le.2 h, bistEnd]

theorem execTmpBistEnd_fails (h : s.tmp.bistAt + 10 * msSlots ≤ s.slot) :
    execTmpBistEnd false s = .next (raise 14 2 (bistEnd false s)) := by
  simp [execTmpBistEnd, ha, Nat.not_lt.2 h, bistEnd]

end

theorem execTmpBistEnd_waits (h : s.slot < s.tmp.bistAt + 10 * msSlots) : execTmpBistEnd false s = .next s := by
  simp [execTmpBistEnd, h]

/-- A failed test shows its result and raises BIST_FAIL. -/
theorem bistFailed (s : State) : (raise 14 2 (bistEnd false s)).tmp.bistActive = false ∧
    (raise 14 2 (bistEnd false s)).tmp.bistResult = 2 ∧ latched 14 2 (raise 14 2 (bistEnd false s)) := by
  have htmp : (raise 14 2 (bistEnd false s)).tmp = (bistEnd false s).tmp := same_tmp (hide_raise_mild (by decide) _) rfl
  exact ⟨congrArg Tmp.bistActive htmp, congrArg Tmp.bistResult htmp, latched_raise _ rfl⟩

/-! ### The drain of the log (R458) -/

theorem execTamperLogDrain_drains {e : TLog} {rest : List TLog} (hl : s.tmp.log = e :: rest) (hm : metering s = true)
    (hd : tamperDraining s = false) : ∃ st body, execTamperLogDrain s = .next
      (if rd e.bytes 9 1 ≠ 0 then raise 14 3 (logRec 0x00E0 st body s) else logRec 0x00E0 st body s) := by
  simp only [execTamperLogDrain, hl, hm, hd, Bool.not_true, Bool.or_self, Bool.false_eq_true, if_false]
  exact ⟨_, _, rfl⟩

theorem execTamperLogDrain_waits (h : s.tmp.log = [] ∨ metering s = false ∨ tamperDraining s = true) :
    execTamperLogDrain s = .next s := by
  cases hl : s.tmp.log with
  | nil => simp [execTamperLogDrain, hl]
  | cons e rest =>
    rcases h with h | h | h
    · simp [hl] at h
    · simp [execTamperLogDrain, hl, h]
    · simp [execTamperLogDrain, hl, h]

theorem ends_tamperLogDrain {e : TLog} {rest : List TLog} (hl : s.tmp.log = e :: rest) (hm : metering s = true)
    (hd : tamperDraining s = false) : ends (execTamperLogDrain s) (fun t => t.tmp = s.tmp ∧
      (∃ q more, t.nvs.logQueue = s.nvs.logQueue ++ q :: more ∧ q.typ = 0x00E0) ∧
      (rd e.bytes 9 1 ≠ 0 → latched 14 3 t)) := by
  obtain ⟨st, body, hexec⟩ := execTamperLogDrain_drains hl hm hd
  have hqueue : (logRec 0x00E0 st body s).nvs.logQueue = s.nvs.logQueue ++ [⟨0x00E0, 0, st, body⟩] := rfl
  have htmp : (logRec 0x00E0 st body s).tmp = s.tmp := rfl
  generalize logRec 0x00E0 st body s = u at hexec hqueue htmp
  refine ends_of hexec ?_
  split
  · obtain ⟨more, hmore⟩ := logGrows_raise (b := 14) (i := 3) (by decide) u
    refine ⟨(same_tmp (hide_raise_mild (by decide) u) rfl).trans htmp, ⟨⟨0x00E0, 0, st, body⟩, more, ?_, rfl⟩,
      fun _ => latched_raise u rfl⟩
    rw [← hmore, hqueue, List.append_assoc]
    rfl
  · exact ⟨htmp, ⟨_, [], hqueue, rfl⟩, fun h => absurd h ‹_›⟩

end

/-- Settles O53: an event by what it finds of its source's filter, the timers by the filter itself, a self-test by its refusal
and its end, the drain by the oldest entry. -/
theorem tamperMonitors : Obligations.TamperMonitors := by
  unfold Obligations.TamperMonitors
  intro src d s hsrc x k raw
  obtain ⟨hwinExpiry, hholdEnd⟩ := execTamperTimers_filter (s := s) hsrc
  have hraw := keptTSrc_filtered s src
  refine ⟨execTamperEvent_ignored,
    fun hw hb => ⟨ends_tamperEvent_held hw hb, ends_tamperEvent_counts hw hb rfl, ends_tamperEvent_alarm hw hb hsrc rfl⟩,
    fun w hwin => ⟨fun hd => ends_of hwinExpiry ?_, fun hd => ends_of hwinExpiry ?_⟩,
    fun t hh => ⟨fun hd => ends_of hholdEnd ?_, fun hd => ends_of hholdEnd ?_⟩,
    execMeshReseed_serves, execMeshReseed_unseeded,
    fun hf hw hp hd => ⟨execTmpBistStart_selects hf hw hp hd, execTmpBistStart_refused hf hw hp hd,
      ends_tmpBistStart hf hw hp hd hsrc⟩,
    fun ha => ⟨fun h => ends_of (execTmpBistEnd_passes ha h) ⟨rfl, rfl, rfl⟩,
      fun h => ends_of (execTmpBistEnd_late ha h) (bistFailed s),
      fun h => ends_of (execTmpBistEnd_fails ha h) (bistFailed s), execTmpBistEnd_waits⟩,
    fun e rest hl hm hd => ends_tamperLogDrain hl hm hd, execTamperLogDrain_waits⟩
  · obtain ⟨hclosed, hcount⟩ := tsrcNow_closed hwin hd
    exact ⟨(congrArg TSrc.win hraw).trans hclosed, (congrArg TSrc.count hraw).trans hcount,
      (congrArg TSrc.alarms hraw).trans tsrcNow_alarms, rfl⟩
  · obtain ⟨hopen, hcount⟩ := tsrcNow_opened hwin hd
    exact ⟨(congrArg TSrc.win hraw).trans hopen, (congrArg TSrc.count hraw).trans hcount⟩
  · exact ⟨(congrArg TSrc.hold hraw).trans (tsrcNow_released hh hd), (congrArg TSrc.alarms hraw).trans tsrcNow_alarms, rfl⟩
  · exact (congrArg TSrc.hold hraw).trans (tsrcNow_holds hh hd)

end Sys2Proof.Proofs

namespace Sys2Proof.Proofs
open Sys2Proof Sys2Proof.Machine Sys2Proof.Laws

/-! ### What a raise leaves of the ports -/

theorem getPort_ports {s t : State} (h : t.coil.ports = s.coil.ports) (p : Nat) : getPort t p = getPort s p := by
  rw [getPort, h]; rfl

theorem raiseView_ports : RaiseView (fun s => s.coil.ports) where
  blk _ _ _ _ := rfl
  seq _ _ := rfl
  enq r q t := by
    unfold enqRaw
    extract_lets
    repeat' split
    all_goals rfl
  vec v t := by
    unfold sendVector
    repeat' split
    all_goals rfl
  event _ _ _ _ := rfl
  ring _ _ _ := rfl

theorem getPort_raise {b i : Nat} (hc : srcClass b i ≠ some .grave) (s : State) (p : Nat) :
    getPort (raise b i s) p = getPort s p := getPort_ports (raiseView_ports.raise_mild hc s) p

theorem getCRing_raise {b i : Nat} (hc : srcClass b i ≠ some .grave) (s : State) (k : Nat) :
    getCRing (raise b i s) k = getCRing s k := getCRing_rings (rings_raise hc s) k

/-! ### The ports in use (R368) -/

section
variable {p : Nat} {s : State}

theorem isManager_iff : isManager s = true ↔ s.boot.role = .manager := by simp [isManager]

theorem isWorker_iff : isWorker s = true ↔ s.boot.role = .worker := by simp [isWorker]

theorem not_manager_of_worker (h : isWorker s = true) : isManager s = false := by
  simp [isManager, isWorker_iff.1 h]

/-- A manager's own ports are its first eight. -/
theorem portUsed_manager (hm : isManager s = true) (hu : portUsed s p = true) : p < 8 := by
  have hused : p < 8 ∧ ringEn s (p / 2) = true := by simpa [portUsed, isManager_iff.1 hm] using hu
  exact hused.1

/-- The commands on a port in use are not those on a link between workers. -/
theorem port_ownLink (hu : portUsed s p = true) : (isManager s && decide (p ≥ 8)) = false := by
  cases hm : isManager s with
  | false => rfl
  | true => simpa using portUsed_manager hm hu

/-! ### Sync, LFAIL and wraps (R368, R371, R377) -/

/-- The port of a receive side that has come into sync. -/
def syncedPort (p : Nat) (s : State) : State := setPort p { getPort s p with sync := true, seen := true } s

/-- Only an unassigned worker that comes into sync for the first time has something to say. -/
theorem execLinkSyncGain_used (hu : portUsed s p = true) : execLinkSyncGain p s = .next (
    if (getPort s p).seen then syncedPort p s
    else if isWorker s && !s.coil.w.enumerated then sendHello p 0xFF 0xFF (syncedPort p s) else syncedPort p s) := by
  rw [execLinkSyncGain, hu]
  rfl

theorem execLinkSyncGain_known (hu : portUsed s p = true)
    (h : (getPort s p).seen = true ∨ isWorker s = false ∨ s.coil.w.enumerated = true) :
    execLinkSyncGain p s = .next (syncedPort p s) := by
  rw [execLinkSyncGain_used hu]
  rcases h with h | h | h <;> simp [h]

/-- An unassigned worker that holds its challenge says HELLO in its first sync. -/
theorem execLinkSyncGain_hello (hu : portUsed s p = true) (hs : (getPort s p).seen = false) (hw : isWorker s = true)
    (he : s.coil.w.enumerated = false) (ht : s.sgr.trngOk = true) (hc : s.coil.w.chal ≠ []) :
    execLinkSyncGain p s = .next (emit (.hello p 0xFE (ownHello s)) (syncedPort p s)) := by
  have hhello := sendHello_ready (p := p) (cw := 0xFF) (ccw := 0xFF) (s := syncedPort p s) ht he hc
  rw [execLinkSyncGain_used hu, hs, hw, he]
  exact congrArg Host.Outcome.next hhello

/-- The link of a port is down, after a loss of sync with its LFAIL sent. -/
def lostSync (p bad : Nat) (s : State) : State :=
  emit (.lfail p) (portDown p (fun x => { x with sync := false, errors := satAdd x.errors bad }) s)

/-- The link of a port is down after an LFAIL received. -/
def lfailed (p : Nat) (s : State) : State := portDown p (fun x => { x with lfail := true }) s

/-- A manager records the break of a link of its own; a worker has no record. -/
def recordBreak (p : Nat) (s : State) : State :=
  if isManager s then ringBreak (linkOf s p).1 (linkOf s p).2 s else s

theorem execLinkSyncLoss_own (hu : portUsed s p = true) (bad : Nat) :
    execLinkSyncLoss p bad s = .next (recordBreak p (lostSync p bad s)) := by
  simp only [execLinkSyncLoss, port_ownLink hu, hu, Bool.false_eq_true, if_false, Bool.not_true]
  rfl

theorem execLfailReceive_own (hu : portUsed s p = true) : execLfailReceive p s = .next (recordBreak p (lfailed p s)) := by
  simp only [execLfailReceive, hu, Bool.false_eq_true, if_false, Bool.not_true]
  rfl

theorem getPort_lostSync (p bad : Nat) (s : State) : getPort (lostSync p bad s) p = { getPort s p with
    sync := false, errors := satAdd (getPort s p).errors bad, wrap := true, healed := false, delay := none, meas := [],
    t1 := none } := getPort_setPort ..

theorem getPort_lfailed (p : Nat) (s : State) : getPort (lfailed p s) p = { getPort s p with
    lfail := true, wrap := true, healed := false, delay := none, meas := [], t1 := none } := getPort_setPort ..

theorem recordBreak_worker (p : Nat) {s : State} (h : isManager s = false) : recordBreak p s = s := by
  simp [recordBreak, h]

theorem ends_linkSyncLoss_worker (hu : portUsed s p = true) (hm : isManager s = false) (bad : Nat) :
    ends (execLinkSyncLoss p bad s) (fun t =>
      (getPort t p).sync = false ∧ (getPort t p).wrap = true ∧ (getPort t p).delay = none ∧
      (getPort t p).errors = satAdd (getPort s p).errors bad ∧ t.out = .lfail p :: s.out ∧ t.flt = s.flt) := by
  have hexec := execLinkSyncLoss_own hu bad
  rw [recordBreak_worker p (s := lostSync p bad s) hm] at hexec
  have hport := getPort_lostSync p bad s
  exact ends_of hexec ⟨congrArg Port.sync hport, congrArg Port.wrap hport, congrArg Port.delay hport,
    congrArg Port.errors hport, rfl, rfl⟩

theorem ends_lfailReceive_worker (hu : portUsed s p = true) (hm : isManager s = false) :
    ends (execLfailReceive p s) (fun t =>
      (getPort t p).lfail = true ∧ (getPort t p).wrap = true ∧ (getPort t p).sync = (getPort s p).sync ∧ t.out = s.out) := by
  have hexec := execLfailReceive_own hu
  rw [recordBreak_worker p (s := lfailed p s) hm] at hexec
  have hport := getPort_lfailed p s
  exact ends_of hexec ⟨congrArg Port.lfail hport, congrArg Port.wrap hport, (congrArg Port.sync hport).trans rfl, rfl⟩

/-! ### Breaks and healings in the manager's record (R371, R372) -/

variable {k q : Nat}

theorem getCRing_setDown (k : Nat) (down : List Nat) (s : State) :
    (getCRing (setDown k down s) k).down = down ∧ (getCRing (setDown k down s) k).split = decide (down.length ≥ 2) := by
  rw [setDown, getCRing_setCRing]
  exact ⟨rfl, rfl⟩

/-- The first down link of a ring wraps it. -/
theorem ringBreak_first (h : (getCRing s k).down = []) : (getCRing (ringBreak k q s) k).down = [q] ∧
    latched 12 0 (ringBreak k q s) ∧ ∀ p, getPort (ringBreak k q s) p = getPort s p := by
  have hbreak : ringBreak k q s = raise 12 0 (blockEvent 12 1 (le 1 k ++ le 1 q ++
      le 1 (otherSide s k q)) (setDown k [q] s)) := by
    simp only [ringBreak, h, List.contains_nil, Bool.false_eq_true, if_false, List.length_nil]
    rfl
  rw [hbreak]
  exact ⟨(congrArg CRing.down (getCRing_raise (by decide) _ k)).trans (getCRing_setDown k [q] s).1, latched_raise _ rfl,
    fun p => getPort_raise (by decide) _ p⟩

theorem length_sortBy_pair (a b : Nat) : (sortBy (fun x y => decide (x ≤ y)) [a, b]).length = 2 := by
  simp only [sortBy, insertBy]
  split <;> rfl

/-- The second one splits it. -/
theorem ringBreak_second {a : Nat} (h : (getCRing s k).down = [a]) (ha : a ≠ q) :
    (getCRing (ringBreak k q s) k).split = true ∧ latched 12 1 (ringBreak k q s) ∧
      ∀ p, getPort (ringBreak k q s) p = getPort s p := by
  have hcontains : [a].contains q = false := by simpa using Ne.symm ha
  have hbreak : ringBreak k q s = raise 12 1 (blockEvent 12 1 (le 1 k ++ le 1 q ++
      le 1 (otherSide s k q))
      (setDown k (sortBy (fun x y => decide (x ≤ y)) [q, a]) s)) := by
    simp only [ringBreak, h, hcontains, Bool.false_eq_true, if_false, List.length_singleton]
  rw [hbreak]
  refine ⟨(congrArg CRing.split (getCRing_raise (by decide) _ k)).trans ((getCRing_setDown k _ s).2.trans ?_),
    latched_raise _ rfl, fun p => getPort_raise (by decide) _ p⟩
  rw [length_sortBy_pair]
  rfl

/-- The only down link of a ring heals. -/
theorem ringHeal_only (h : (getCRing s k).down = [q]) : (getCRing (ringHeal k q s) k).down = [] ∧
    (ringHeal k q s).flt = s.flt ∧ ∀ p, getPort (ringHeal k q s) p = getPort s p := by
  have hheal : ringHeal k q s = blockEvent 12 2 (le 1 k ++ le 1 q ++ le 1 (otherSide s k q)) (setDown k [] s) := by
    simp [ringHeal, h]
  rw [hheal]
  exact ⟨(getCRing_setDown k [] s).1, rfl, fun _ => rfl⟩

/-- The ring of a manager's own port. -/
theorem linkOf_own (h : p < 8) (s : State) : (linkOf s p).1 = p / 2 := by simp [linkOf, h]

theorem linkOf_rings {s t : State} (h : t.coil.rings = s.coil.rings) (p : Nat) : linkOf t p = linkOf s p := by
  simp only [linkOf, lastPos, getCRing_rings h]

/-- The break of a manager's own link, from the state in which its port wraps. -/
theorem recordBreak_manager {u : State} (hm : isManager s = true) (hu : portUsed s p = true)
    (hrole : isManager u = isManager s) (hrings : u.coil.rings = s.coil.rings) :
    recordBreak p u = ringBreak (p / 2) (linkOf s p).2 u := by
  have hlink := linkOf_rings hrings p
  rw [recordBreak, if_pos (hrole.trans hm), hlink, linkOf_own (portUsed_manager hm hu)]

theorem ends_break_manager {o : Out} {u : State} (hm : isManager s = true) (hu : portUsed s p = true)
    (hrole : isManager u = isManager s) (hrings : u.coil.rings = s.coil.rings) (hwrap : (getPort u p).wrap = true)
    (ho : o = .next (recordBreak p u)) :
    ((getCRing s (p / 2)).down = [] → ends o (fun t =>
      (getPort t p).wrap = true ∧ (getCRing t (p / 2)).down = [(linkOf s p).2] ∧ latched 12 0 t)) ∧
    (∀ a, (getCRing s (p / 2)).down = [a] → a ≠ (linkOf s p).2 → ends o (fun t =>
      (getPort t p).wrap = true ∧ (getCRing t (p / 2)).split = true ∧ latched 12 1 t)) := by
  rw [recordBreak_manager hm hu hrole hrings] at ho
  rw [← getCRing_rings hrings]
  refine ⟨fun hdown => ?_, fun a hdown ha => ?_⟩
  · obtain ⟨hnew, hlatched, hport⟩ := ringBreak_first (q := (linkOf s p).2) hdown
    exact ends_of ho ⟨(congrArg Port.wrap (hport p)).trans hwrap, hnew, hlatched⟩
  · obtain ⟨hsplit, hlatched, hport⟩ := ringBreak_second hdown ha
    exact ends_of ho ⟨(congrArg Port.wrap (hport p)).trans hwrap, hsplit, hlatched⟩

/-- Both commands by which a link of its own goes down break the ring in a manager's record. -/
theorem ends_linkDown_manager (hm : isManager s = true) (hu : portUsed s p = true) (bad : Nat) (i : Instr)
    (hi : i ∈ [Instr.linkSyncLoss p bad, .lfailReceive p]) :
    ((getCRing s (p / 2)).down = [] → ends (exec i s) (fun t =>
      (getPort t p).wrap = true ∧ (getCRing t (p / 2)).down = [(linkOf s p).2] ∧ latched 12 0 t)) ∧
    (∀ a, (getCRing s (p / 2)).down = [a] → a ≠ (linkOf s p).2 → ends (exec i s) (fun t =>
      (getPort t p).wrap = true ∧ (getCRing t (p / 2)).split = true ∧ latched 12 1 t)) := by
  obtain rfl | rfl : i = .linkSyncLoss p bad ∨ i = .lfailReceive p := by simpa using hi
  · exact ends_break_manager (u := lostSync p bad s) hm hu rfl rfl (congrArg Port.wrap (getPort_lostSync p bad s))
      (execLinkSyncLoss_own hu bad)
  · exact ends_break_manager (u := lfailed p s) hm hu rfl rfl (congrArg Port.wrap (getPort_lfailed p s))
      (execLfailReceive_own hu)

/-- The port of a healed link. -/
def healedPort (p : Nat) (s : State) : State :=
  setPort p { getPort s p with lfail := false, healed := (getPort s p).wrap } s

theorem execLinkHeal_own (hu : portUsed s p = true) (hs : (getPort s p).sync = true) : execLinkHeal p s =
    .next (if isManager s then ringHeal (linkOf (healedPort p s) p).1 (linkOf (healedPort p s) p).2 (healedPort p s)
      else helloAll (healedPort p s)) := by
  rw [execLinkHeal, port_ownLink hu, hu, hs]
  rfl

theorem execLinkHeal_worker (hu : portUsed s p = true) (hs : (getPort s p).sync = true) (hw : isWorker s = true)
    (he : s.coil.w.enumerated = true) : execLinkHeal p s = .next (healedPort p s) := by
  have hexec := execLinkHeal_own hu hs
  have hquiet : helloAll (healedPort p s) = healedPort p s := by
    simp [helloAll, show (healedPort p s).coil.w = s.coil.w from rfl, he]
  rwa [not_manager_of_worker hw, if_neg (by decide), hquiet] at hexec

theorem ends_linkHeal_manager (hu : portUsed s p = true) (hs : (getPort s p).sync = true) (hm : isManager s = true)
    (hd : (getCRing s (p / 2)).down = [(linkOf s p).2]) : ends (execLinkHeal p s) (fun t =>
      (getCRing t (p / 2)).down = [] ∧ (getPort t p).lfail = false ∧ (getPort t p).healed = (getPort s p).wrap ∧
      t.flt = s.flt) := by
  have hexec := execLinkHeal_own hu hs
  have hlink : linkOf (healedPort p s) p = linkOf s p := linkOf_rings rfl p
  rw [if_pos hm, hlink, linkOf_own (portUsed_manager hm hu)] at hexec
  obtain ⟨hdown, hflt, hport⟩ := ringHeal_only (s := healedPort p s) hd
  have hhealed : getPort (healedPort p s) p = { getPort s p with lfail := false, healed := (getPort s p).wrap } :=
    getPort_setPort ..
  refine ends_of hexec ⟨hdown, ?_, ?_, hflt⟩
  · rw [hport, hhealed]
  · rw [hport, hhealed]

theorem execLinkHeal_noSync (hu : portUsed s p = true) (hs : (getPort s p).sync = false) : execLinkHeal p s = .next s := by
  simp [execLinkHeal, port_ownLink hu, hs]

/-! ### Links between workers (R371, R372, log entry 24) -/

section
variable (hm : isManager s = true) (hp : 8 ≤ p) (hk : (linkOf s p).1 < 4)
include hm hp hk

theorem ends_linkSyncLoss_far (hen : ringEn s (linkOf s p).1 = true) (bad : Nat)
    (hd : (getCRing s (linkOf s p).1).down = []) : ends (execLinkSyncLoss p bad s) (fun t =>
      (getCRing t (linkOf s p).1).down = [(linkOf s p).2] ∧ latched 12 0 t) := by
  obtain ⟨hdown, hlatched, -⟩ := ringBreak_first (q := (linkOf s p).2) hd
  exact ends_of (by simp [execLinkSyncLoss, hm, hp, hk, hen]) ⟨hdown, hlatched⟩

theorem ends_linkHeal_far (hd : (getCRing s (linkOf s p).1).down = [(linkOf s p).2]) : ends (execLinkHeal p s) (fun t =>
    (getCRing t (linkOf s p).1).down = [] ∧ t.flt = s.flt) := by
  obtain ⟨hdown, hflt, -⟩ := ringHeal_only hd
  exact ends_of (by simp [execLinkHeal, hm, hp, hk]) ⟨hdown, hflt⟩

end

/-! ### The link delay (R379) -/

theorem execDelayMeasureStart_sends (hu : portUsed s p = true) (hw : (getPort s p).wrap = false) (t1 : W64) :
    execDelayMeasureStart p t1 s = .next (emit (.delayReq p) (setPort p { getPort s p with t1 := some t1 } s)) := by
  simp [execDelayMeasureStart, hu, hw]

variable {f : Frame}

theorem execDelayReq_answers (hu : portUsed s f.port = true) (hcls : f.cls = 0) (htyp : f.typ = 2) (hbad : frameBad f = false)
    (t2 : W64) : execDelayReq f t2 s = .next (emit (.delayResp f.port) s) := by
  simp [execDelayReq, hu, hcls, htyp, hbad]

theorem ends_delayResp (hu : portUsed s f.port = true) (hcls : f.cls = 0) (htyp : f.typ = 3) (hbad : frameBad f = false)
    {t1 : W64} (ht : (getPort s f.port).t1 = some t1) (ta t4 : W64) :
    let m := ((t4 - t1 - ta).toNat / 2 :: (getPort s f.port).meas).take 8
    ends (execDelayResp f ta t4 s) (fun t => (getPort t f.port).meas = m ∧ (getPort t f.port).t1 = none ∧
      (getPort t f.port).delay = some (satN 24 ((2 * sumN m + m.length) / (2 * m.length)))) := by
  intro m
  have hexec : execDelayResp f ta t4 s = .next (setPort f.port { getPort s f.port with
      t1 := none, meas := m, delay := some (satN 24 ((2 * sumN m + m.length) / (2 * m.length))) } s) := by
    simp [execDelayResp, hu, hcls, htyp, hbad, ht, m]
  refine ends_of hexec ?_
  rw [getPort_setPort]
  exact ⟨rfl, rfl, rfl⟩

/-! ### Forwarding (R370, R371, R381) -/

/-- A worker is not the destination of a frame. -/
theorem notOwn_of (h : s.coil.w.enumerated = false ∨ f.dst ≠ s.coil.w.pos.toNat ∨ f.ring ≠ s.coil.w.ring.toNat) :
    (s.coil.w.enumerated && f.dst == s.coil.w.pos.toNat && f.ring == s.coil.w.ring.toNat) = false := by
  rcases h with h | h | h <;> simp [h]

theorem execFrameForward_own (he : s.coil.w.enumerated = true) (hd : f.dst = s.coil.w.pos.toNat)
    (hr : f.ring = s.coil.w.ring.toNat) : execFrameForward f s = .next s := by
  simp [execFrameForward, he, hd, hr]

section
variable (hw : isWorker s = true) (hport : f.port ≤ 1) (hm : mainPower s = true)
  (hown : s.coil.w.enumerated = false ∨ f.dst ≠ s.coil.w.pos.toNat ∨ f.ring ≠ s.coil.w.ring.toNat)
include hw hport hm hown

/-- A frame that is no beacon goes on, or back at a wrap. -/
theorem execFrameForward_frame (h : f.cls ≠ 0 ∨ f.typ = 4 ∨ f.typ = 5) : execFrameForward f s =
    .next (emit (.frame { f with port := if (getPort s (1 - f.port)).wrap then f.port else 1 - f.port }) s) := by
  have hnear : decide (f.port > 1) = false := by simpa using hport
  have hbeacon : (f.cls == 0 && f.typ == 0) = false := by rcases h with h | h | h <;> simp [h]
  have hlink : (f.cls == 0 && (f.typ == 1 || f.typ == 2 || f.typ == 3)) = false := by rcases h with h | h | h <;> simp [h]
  simp only [execFrameForward, hw, hnear, hm, notOwn_of hown, hlink, hbeacon, Bool.not_true, Bool.or_self,
    Bool.false_eq_true, if_false, Bool.false_and, outPort]
  cases (getPort s (1 - f.port)).wrap <;> rfl

/-- A beacon goes on with its path grown, and is dropped at a wrap. -/
theorem execFrameForward_beacon (hcls : f.cls = 0) (htyp : f.typ = 0) :
    ((getPort (unwrapAll s) (1 - f.port)).wrap = false → execFrameForward f s =
      .next (emit (.frame { addPath (unwrapAll s) f with port := 1 - f.port }) (unwrapAll s))) ∧
    ((getPort (unwrapAll s) (1 - f.port)).wrap = true → execFrameForward f s = .next (unwrapAll s)) := by
  have hnear : decide (f.port > 1) = false := by simpa using hport
  have hbeacon : (f.cls == 0 && f.typ == 0) = true := by simp [hcls, htyp]
  have hlink : (f.cls == 0 && (f.typ == 1 || f.typ == 2 || f.typ == 3)) = false := by simp [htyp]
  refine ⟨fun hwrap => ?_, fun hwrap => ?_⟩
  all_goals
    simp only [execFrameForward, hw, hnear, hm, notOwn_of hown, hlink, hbeacon, Bool.not_true, Bool.or_self,
      Bool.false_eq_true, if_false, if_true, outPort, hwrap]
    rfl

end

/-! ### Frames that their destination discards (R373, R385, R386) -/

/-- A raise of a CORRECTED source is its counting and its sticky bit alone. -/
theorem raise_corrected {b i : Nat} (h : srcClass b i = some .corrected) (s : State) : raise b i s = noteRaise b i s := by
  have h0 : raise0 b i s = noteRaise b i s := by simp only [raise0, h]
  have hdrop : (getRing (noteRaise b i s) 14).drop = (getRing s 14).drop := rfl
  simp [raise, h0, hdrop]

theorem coil_raise_auth (s : State) : (raise 12 7 s).coil = s.coil := by
  rw [raise_corrected rfl]
  rfl

theorem execFrameDiscard_bad (h : forWorker s f = true ∨ forManager s f = true) (hbad : frameBad f = true) :
    execFrameDiscard f s = .next { s with coil.crc := satInc s.coil.crc } := by
  have hmine : (forWorker s f || forManager s f) = true := by simpa using h
  simp only [execFrameDiscard, hmine, hbad, Bool.not_true, Bool.false_eq_true, if_false, if_true]
  rfl

variable {key : List Byte}

section
variable (hf : forWorker s f = true) (hbad : frameBad f = false) (ha : bit f.flags 0 = true) (hk : slotKey s 5 = some key)
include hf hbad ha hk

theorem execFrameDiscard_worker : execFrameDiscard f s = .next (if !tagOk key f then rejectTag (useDown s)
    else if !ctrAfter (frameCtr f) s.coil.w.down then rejectReplay (useDown s) else useDown s) := by
  have hw : isWorker s = true := (Bool.and_eq_true_iff.1 hf).1
  simp only [execFrameDiscard, hf, hbad, ha, hk, hw, Bool.true_or, Bool.not_true, Bool.false_eq_true, if_false, if_true]

theorem ends_frameDiscard_worker :
    (tagOk key f = false → ends (execFrameDiscard f s) (fun t => t.coil.tagFail = satInc s.coil.tagFail ∧ latched 12 7 t ∧
      t.coil.w = { s.coil.w with dnUses := s.coil.w.dnUses + 1 })) ∧
    (tagOk key f = true → ctrAfter (frameCtr f) s.coil.w.down = false → ends (execFrameDiscard f s) (fun t =>
      t.coil.replay = satInc s.coil.replay ∧ latched 12 7 t ∧ t.coil.w.down = s.coil.w.down)) := by
  have hexec := execFrameDiscard_worker hf hbad ha hk
  refine ⟨fun ht => ?_, fun ht hc => ?_⟩
  · have hreject : execFrameDiscard f s = .next (rejectTag (useDown s)) := by simpa [ht] using hexec
    refine ends_of hreject ⟨?_, latched_raise _ rfl, ?_⟩ <;> rw [rejectTag, coil_raise_auth] <;> rfl
  · have hreject : execFrameDiscard f s = .next (rejectReplay (useDown s)) := by simpa [ht, hc] using hexec
    refine ends_of hreject ⟨?_, latched_raise _ rfl, ?_⟩ <;> rw [rejectReplay, coil_raise_auth] <;> rfl

end

section
variable (hf : forManager s f = true) (hbad : frameBad f = false) (ha : bit f.flags 0 = true)
  (hk : upKey s f.ring f.src = some key)
include hf hbad ha hk

theorem execFrameDiscard_manager : execFrameDiscard f s = .next (if !tagOk key f then rejectTag s
    else if !ctrAfter (frameCtr f) (getEnt s f.ring f.src).last then rejectReplay s else s) := by
  have hm : isManager s = true := by
    simp only [forManager, Bool.and_eq_true] at hf
    exact hf.1.1.1
  simp only [execFrameDiscard, hf, hbad, ha, hk, not_worker_of_manager hm, Bool.or_true, Bool.not_true, Bool.false_eq_true,
    if_false, if_true]

theorem ends_frameDiscard_manager :
    (tagOk key f = false → ends (execFrameDiscard f s) (fun t => t.coil.tagFail = satInc s.coil.tagFail ∧ latched 12 7 t)) ∧
    (tagOk key f = true → ctrAfter (frameCtr f) (getEnt s f.ring f.src).last = false → ends (execFrameDiscard f s) (fun t =>
      t.coil.replay = satInc s.coil.replay ∧ latched 12 7 t ∧ (getEnt t f.ring f.src).last = (getEnt s f.ring f.src).last)) := by
  have hexec := execFrameDiscard_manager hf hbad ha hk
  refine ⟨fun ht => ?_, fun ht hc => ?_⟩
  · have hreject : execFrameDiscard f s = .next (rejectTag s) := by simpa [ht] using hexec
    refine ends_of hreject ⟨?_, latched_raise _ rfl⟩
    rw [rejectTag, coil_raise_auth]
  · have hreject : execFrameDiscard f s = .next (rejectReplay s) := by simpa [ht, hc] using hexec
    have hcoil : (rejectReplay s).coil = { s.coil with replay := satInc s.coil.replay } := coil_raise_auth _
    refine ends_of hreject ⟨congrArg Coil.replay hcoil, latched_raise _ rfl, ?_⟩
    have hrings : (rejectReplay s).coil.rings = s.coil.rings := (congrArg Coil.rings hcoil).trans rfl
    rw [getEnt_rings hrings]

end

end

/-- Settles O54: each command on a link by the state of its port and the role, a break and a healing by what the manager's
record already holds, a frame by what the worker is to it. -/
theorem ringLinks : Obligations.RingLinks := by
  unfold Obligations.RingLinks
  intro p s x
  refine ⟨fun hu => ⟨execLinkSyncGain_known hu, execLinkSyncGain_hello hu,
      fun hm bad => ⟨ends_linkSyncLoss_worker hu hm bad, ends_lfailReceive_worker hu hm⟩,
      fun hm bad i hi => ends_linkDown_manager hm hu bad i hi,
      execLinkHeal_worker hu, ends_linkHeal_manager hu, execLinkHeal_noSync hu,
      fun t1 hw => execDelayMeasureStart_sends hu hw t1⟩,
    fun hm hp hk hen bad => ⟨ends_linkSyncLoss_far hm hp hk hen bad, ends_linkHeal_far hm hp hk⟩,
    fun f t2 hu hcls htyp hbad => execDelayReq_answers hu hcls htyp hbad t2,
    fun f t1 ta t4 hu hcls htyp hbad ht => ends_delayResp hu hcls htyp hbad ht ta t4,
    fun f hw hport hm hown => ⟨execFrameForward_frame hw hport hm hown, execFrameForward_beacon hw hport hm hown⟩,
    fun f he hd hr => execFrameForward_own he hd hr, fun f h hbad => execFrameDiscard_bad h hbad,
    fun f key hf hbad ha hk => ends_frameDiscard_worker hf hbad ha hk,
    fun f key hf hbad ha hk => ends_frameDiscard_manager hf hbad ha hk⟩

end Sys2Proof.Proofs
